-- ==== Sys2Proof/Word.lean ====
section
/-! DEFINITION. The plainest words of the machine: a byte, who asks for a register access, and what a physical check found. -/
set_option autoImplicit false
namespace Sys2Proof

/-- The smallest addressable unit of every memory of the module. -/
abbrev Byte := BitVec 8

/-- Who makes a register access: the host in the NS or the S world (R724, R725), the management controller, or the security controller
and the hub firmware (R724, R729). -/
inductive Who
  | ns
  | s
  | mc
  | fw
  deriving DecidableEq, Repr

/-- What the core store's SEC-DED code found while a descriptor or a packet's sender read it (R139, R140): nothing, corrected bits in
the lines at some addresses, or an uncorrectable error at one after such. A physical outcome, so an operand. -/
inductive Ecc
  | clean
  | corrected (lines : List Nat)
  | uncorr (lines : List Nat) (addr : Nat)
  deriving DecidableEq, Repr

/-- What the physical machine brings to a descriptor's firing: the device-memory granules that a stack reports uncorrectable
from now on (R311), the outcome of SEC-DED, and the steps its core has waited with the engine free and the conditions unmet
(R791). -/
structure FireIn where
  hbm   : List Nat
  ecc   : Ecc
  twait : Nat
  deriving DecidableEq, Repr

/-- A fabric packet: its header word with `HCRC` (R376), its payload, the CRC-64 of its trailer (R380), and whether it
arrived ended bad (R445, R446). -/
structure Pkt where
  hdr  : Nat
  pay  : List Byte
  dig  : Nat
  bad  : Bool
  deriving DecidableEq, Repr

/-- How a packet comes to a router: whole, from this hub or taken in from a port's line before, with the counter and the verdict on the
tag of an optical link (R751); or as the characters that a port's receive lanes bring, in ascending order, column by column (R444). -/
inductive Arrival
  | whole (p : Pkt) (ctr : Nat) (tagOk : Bool)
  | cols (rx : List (List Nat))
  deriving DecidableEq, Repr

/-- A copy of a Gather block that did not reach its site as the hub sent it: the site, the round, 0 for the multicast and 1 to 3 for those
that repair, the block, and the bytes that came in its place, none for a copy that was lost (R660, R661). -/
structure BlockCopy where
  site  : Nat
  round : Nat
  block : Nat
  came  : List Byte
  deriving DecidableEq, Repr

/-- What the physical machine brings to the end of a bring-up step: boot-epoch fuses whose burns did not verify before one did
(R755); Gather's altered copies (R661); core-store rows, as site and address, and sites that failed
self-test (R664); spares that failed the wake check and the completion delays, as site, ps and °C, of a full self-test (R663); and
failed sites whose cluster's spare does not pass its wake check (R666). -/
structure BootIn where
  burns      : Nat
  copies     : List BlockCopy
  rows       : List (Nat × Nat)
  sites      : List Nat
  wakes      : List Nat
  delays     : List (Nat × Nat × Nat)
  noWake     : List Nat
  deriving DecidableEq, Repr

end Sys2Proof
end

