-- ==== Sys2Proof/Syntax.lean ====
section
/-! DEFINITION. The commands of the module: one constructor per row of the spec's table of operations and events, with the
operands that say which unit the command names, what a physical check found, and what arrived. -/
set_option autoImplicit false
namespace Sys2Proof

/-- The commands, in the table's order. Each names its rule. -/
inductive Instr
  /-- EN_RISE (R844). -/
  | enRise
  /-- EN_FALL (R845). -/
  | enFall
  /-- POWER_GOOD (R643). -/
  | powerGood (grade tray slot ucie : Nat)
  /-- SECFW (R643). -/
  | secfw (w : Who) (v : Nat)
  /-- IDENTITY (R755). -/
  | identity (w : Who) (v : Nat)
  /-- RECORD (R653). -/
  | record (w : Who) (v : Nat)
  /-- RECORD_SAFE (R657). -/
  | recordSafe (w : Who) (v : Nat)
  /-- GATHER (R661). -/
  | gather (w : Who) (v : Nat)
  /-- SELFTEST (R663). -/
  | selftest (w : Who) (v : Nat)
  /-- CULLET (R665). -/
  | cullet (w : Who) (v : Nat)
  /-- READY (R641). -/
  | ready (w : Who) (v : Nat)
  /-- BOOT_STEP_END (R645). -/
  | bootStepEnd (o : BootIn)
  /-- WRESET (R667). -/
  | wreset (w : Who) (v : Nat)
  /-- STAGING_WRITE (R646). -/
  | stagingWrite (w : Who) (off v : Nat)
  /-- CALIBRATION_WRITE (R655). -/
  | calibrationWrite (w : Who) (off v : Nat)
  /-- TIMING_SYNC_SEND (R65). -/
  | timingSyncSend (p : Nat)
  /-- TIMING_SYNC (R449). -/
  | timingSync (p : Nat) (rx : List (List Nat)) (turn : Nat)
  /-- TIMING_REQ (R449). -/
  | timingReq (p : Nat) (rx : List (List Nat))
  /-- TIMING_RESP (R65). -/
  | timingResp (p : Nat) (rx : List (List Nat))
  /-- HOLDOVER_ENTRY (R64). -/
  | holdoverEntry
  /-- HOLDOVER_TIMEOUT (R68). -/
  | holdoverTimeout
  /-- TIME_PACKET_SEND (R871). -/
  | timePacketSend (p : Nat)
  /-- TIME_RECEIVE (R871). -/
  | timeReceive (p : Nat) (k : Pkt)
  /-- DEPTH_TIMEOUT (R871). -/
  | depthTimeout
  /-- TIME_CTL_WRITE (R872). -/
  | timeCtlWrite (w : Who) (v : Nat)
  /-- REPLICA_CORRECT (R72). -/
  | replicaCorrect (d : Nat)
  /-- RATE_SAMPLE (R56). -/
  | rateSample (m : List (List Nat))
  /-- ARMED_ACTION (R77). -/
  | armedAction (k : Nat)
  /-- GCTL_OWNER_WRITE (R84). -/
  | gctlOwnerWrite (w : Who) (v : Nat)
  /-- GCTL_ROLE_WRITE (R44). -/
  | gctlRoleWrite (w : Who) (v : Nat)
  /-- ROLE_TAKES_EFFECT (R47). -/
  | roleTakesEffect
  /-- COMMAND_DOORBELL (R337). -/
  | commandDoorbell (w : Who) (page v : Nat)
  /-- COMPLETION_DOORBELL (R338). -/
  | completionDoorbell (w : Who) (page v : Nat)
  /-- COMMAND_READ (R342). -/
  | commandRead (r : Nat) (hbm : List Nat)
  /-- NOP (R344). -/
  | nop (ring seq : Nat)
  /-- LAUNCH (R347). -/
  | launch (ring seq : Nat)
  /-- ALLREDUCE (R510). -/
  | allreduce (ring seq : Nat) (hbm : List Nat)
  /-- REDUCE_SCATTER (R507). -/
  | reduceScatter (ring seq : Nat) (hbm : List Nat)
  /-- ALLGATHER (R509). -/
  | allgather (ring seq : Nat) (hbm : List Nat)
  /-- TRIGGERED (R528). -/
  | triggered (ring seq : Nat) (hbm : List Nat)
  /-- CORE_DONE (R224). -/
  | coreDone (lcore ring seq : Nat)
  /-- DONE_MESSAGE (R36). -/
  | doneMessage (lcore ring seq : Nat)
  /-- CFE_RING_CMD_WRITE (R334). -/
  | cfeRingCmdWrite (w : Who) (r v : Nat)
  /-- CFE_RING_CPL_WRITE (R334). -/
  | cfeRingCplWrite (w : Who) (r v : Nat)
  /-- CTX_CFG_WRITE (R361). -/
  | ctxCfgWrite (w : Who) (c v : Nat)
  /-- CTX_CTL_RESET (R363). -/
  | ctxCtlReset (w : Who) (c : Nat)
  /-- CTX_CTL_RESUME (R364). -/
  | ctxCtlResume (w : Who) (c : Nat)
  /-- DIV_CLR (R561). -/
  | divClr (w : Who) (c : Nat)
  /-- HANG_TIMEOUT (R365). -/
  | hangTimeout (ring seq : Nat)
  /-- CONTEXT_RESET_DONE (R578). -/
  | contextResetDone (c : Nat)
  /-- TMMA (R202). -/
  | tmma (lcore ring seq : Nat) (f : FireIn)
  /-- VPROG (R210). -/
  | vprog (lcore ring seq : Nat) (f : FireIn)
  /-- OSM_UPDATE (R142). -/
  | osmUpdate (lcore ring seq : Nat) (f : FireIn)
  /-- OSM_MERGE (R143). -/
  | osmMerge (lcore ring seq : Nat) (f : FireIn)
  /-- OSM_NORM (R144). -/
  | osmNorm (lcore ring seq : Nat) (f : FireIn)
  /-- SMOVE (R146). -/
  | smove (lcore ring seq : Nat) (f : FireIn)
  /-- SMOVE_PART_START (R152). -/
  | smovePartStart (lcore ring seq k : Nat) (f : FireIn)
  /-- SMOVE_PART_WRITTEN (R147). -/
  | smovePartWritten (lcore ring seq k : Nat)
  /-- SATOM_ADD (R220). -/
  | satomAdd (lcore ring seq : Nat) (f : FireIn)
  /-- SATOM_FADD (R220). -/
  | satomFadd (lcore ring seq : Nat) (f : FireIn)
  /-- SATOM_SWAP (R220). -/
  | satomSwap (lcore ring seq : Nat) (f : FireIn)
  /-- SATOM_CAS (R220). -/
  | satomCas (lcore ring seq : Nat) (f : FireIn)
  /-- SATOM_UMAX (R220). -/
  | satomUmax (lcore ring seq : Nat) (f : FireIn)
  /-- TSIG (R180). -/
  | tsig (lcore ring seq : Nat) (f : FireIn)
  /-- TSIGALL (R180). -/
  | tsigall (lcore ring seq : Nat) (f : FireIn)
  /-- TREAD (R227). -/
  | tread (lcore ring seq : Nat) (f : FireIn)
  /-- LOOPB (R194). -/
  | loopb (lcore ring seq : Nat) (f : FireIn)
  /-- LOOPE (R194). -/
  | loope (lcore ring seq : Nat) (f : FireIn)
  /-- SKIP (R199). -/
  | skip (lcore ring seq : Nat) (f : FireIn)
  /-- END (R224). -/
  | endList (lcore ring seq : Nat) (f : FireIn)
  /-- FAIL (R225). -/
  | fail (lcore ring seq : Nat) (f : FireIn)
  /-- STAMP (R226). -/
  | stamp (lcore ring seq : Nat) (f : FireIn)
  /-- ASELECT (R254). -/
  | aselect (lcore ring seq : Nat) (f : FireIn)
  /-- AGATHER (R260). -/
  | agather (lcore ring seq : Nat) (f : FireIn)
  /-- AQUERY (R264). -/
  | aquery (lcore ring seq : Nat) (f : FireIn)
  /-- AKVSHIP (R243). -/
  | akvship (lcore ring seq : Nat) (f : FireIn)
  /-- DESC_COMPLETE (R181). -/
  | descComplete (lcore ring seq k steps : Nat)
  /-- TOKEN_SIGNAL (R156). -/
  | tokenSignal (n : Nat)
  /-- SPARE_SUBSTITUTION (R164). -/
  | spareSubstitution (site : Nat)
  /-- HANDSHAKE_STALL (R582). -/
  | handshakeStall (site : Nat) (ring : Nat) (seq : Nat) (pos : Nat) (iter : Nat)
  /-- MICROCODE_CHECK (R582). -/
  | microcodeCheck (site : Nat) (ring : Nat) (seq : Nat) (pos : Nat) (iter : Nat)
  /-- HUB_ENGINE_FAULT (R582). -/
  | hubEngineFault (e : Nat)
  /-- REPLAY_COMMAND_END (R587). -/
  | replayCommandEnd (repro : Bool)
  /-- REPLAY_TMO (R586). -/
  | replayTmo
  /-- PACKET_ROUTE (R391). -/
  | packetRoute (arr : Nat) (a : Arrival) (q : List Nat)
  /-- HEADER_WAIT_TIMEOUT (R394). -/
  | headerWaitTimeout (n : Nat)
  /-- PACKET_SEND (R402). -/
  | packetSend (id : Nat) (hbm : List Nat) (ecc : Ecc)
  /-- PUT (R411). -/
  | put (p : Pkt) (hbm : List Nat)
  /-- GET_REQ (R420). -/
  | getReq (p : Pkt)
  /-- GET_SERVE (R420). -/
  | getServe (n : Nat)
  /-- GET_RESP (R411). -/
  | getResp (p : Pkt) (hbm : List Nat)
  /-- ACK (R403). -/
  | ack (p : Pkt)
  /-- NACK (R406). -/
  | nack (p : Pkt) (hbm : List Nat) (ecc : Ecc)
  /-- ATOMIC (R422). -/
  | atomic (p : Pkt) (hbm : List Nat)
  /-- MGMT (R377). -/
  | mgmt (p : Pkt)
  /-- RTO_TIMEOUT (R405). -/
  | rtoTimeout (ep dmod dep seq : Nat) (hbm : List Nat) (ecc : Ecc)
  /-- WINDOW_STALL (R407). -/
  | windowStall (ep : Nat) (dmod : Nat) (dep : Nat)
  /-- VOID_STALL (R419). -/
  | voidStall (ep : Nat) (dmod : Nat) (dep : Nat)
  /-- STREAM_IDLE (R414). -/
  | streamIdle (smod : Nat) (sep : Nat) (dep : Nat)
  /-- SOURCE_STREAM_RELEASE (R414). -/
  | sourceStreamRelease (ep : Nat) (dmod : Nat) (dep : Nat)
  /-- FAB_CTL_WRITE (R387). -/
  | fabCtlWrite (w : Who) (v : Nat)
  /-- QUERY (R270). -/
  | query (p : Pkt) (hbm : List Nat)
  /-- QUERY_SERVE (R271). -/
  | queryServe (n : Nat) (hbm : List Nat)
  /-- QUERY_STALE_TIMEOUT (R271). -/
  | queryStaleTimeout (n : Nat)
  /-- SHARD_QUERY_SEND (R274). -/
  | shardQuerySend (n : Nat)
  /-- QRESP_PARTIAL (R276). -/
  | qrespPartial (p : Pkt)
  /-- QTO_EXPIRY (R276). -/
  | qtoExpiry (n : Nat)
  /-- KV_SHIPMENT (R247). -/
  | kvShipment (p : Pkt) (hbm : List Nat)
  /-- KVACK (R250). -/
  | kvack (p : Pkt)
  /-- GCTL_SEQTAB_WRITE (R234). -/
  | gctlSeqtabWrite (w : Who) (p v : Nat)
  /-- MEM_HOST_WRITE (R290). -/
  | memHostWrite (w : Who) (v : Nat)
  /-- CXL_MEM_READ (R327). -/
  | cxlMemRead (x : Nat) (hbm : List Nat)
  /-- CXL_MEM_WRITE (R304). -/
  | cxlMemWrite (x : Nat) (b : List Byte) (en : Nat)
  /-- REGION_ENTRY_WRITE (R297). -/
  | regionEntryWrite (w : Who) (e k v : Nat)
  /-- REGION_CHANGE_APPLIED (R299). -/
  | regionChangeApplied
  /-- MEM_FILL_GO (R308). -/
  | memFillGo (w : Who) (v : Nat)
  /-- FILL_DONE (R309). -/
  | fillDone
  /-- REPAIR_REMAP_ROW (R316). -/
  | repairRemapRow (w : Who) (stack pc row : Nat)
  /-- REPAIR_SUBSTITUTE_PC (R316). -/
  | repairSubstitutePc (w : Who) (stack pc : Nat)
  /-- REPAIR_LOAD_ROW_REMAP (R315). -/
  | repairLoadRowRemap (w : Who) (stack pc row : Nat)
  /-- REPAIR_DONE (R316). -/
  | repairDone (sppr : Bool) (lost : List Nat)
  /-- MEM_TRAIN_GO (R318). -/
  | memTrainGo (w : Who) (v : Nat)
  /-- TRAIN_STACK_DONE (R321). -/
  | trainStackDone (k : Nat) (pcs : List Nat) (cmdFail : Bool) (lost : List Nat)
  /-- HBM_REFRESH (R322). -/
  | hbmRefresh (k temp : Nat)
  /-- MEM_STK_STATUS_READ (R317). -/
  | memStkStatusRead (w : Who) (k ce : Nat)
  /-- TRAIN_GO (R472). -/
  | trainGo (w : Who) (p v : Nat) (ok : Bool)
  /-- FORCE_OUT (R487). -/
  | forceOut (w : Who) (p v : Nat) (ok : Bool)
  /-- LASER_SWAP (R495). -/
  | laserSwap (w : Who) (p v : Nat) (ok : Bool)
  /-- LOOP (R486). -/
  | loop (w : Who) (p v : Nat) (ok : Bool)
  /-- LANE_LS2_REQ (R483). -/
  | laneLs2Req (w : Who) (p v : Nat) (ok : Bool)
  /-- SIGNAL_DETECT (R458). -/
  | signalDetect (p l : Nat)
  /-- ALIGN_TIMEOUT (R458). -/
  | alignTimeout (p l : Nat)
  /-- STATUS (R459). -/
  | status (p l : Nat) (chars : List Nat)
  /-- STATUS_SEND (R451). -/
  | statusSend (p : Nat)
  /-- TRAIN (R463). -/
  | train (p l : Nat) (chars : List Nat)
  /-- EQUALISE_TIMEOUT (R464). -/
  | equaliseTimeout (p l : Nat)
  /-- DESKEW (R465). -/
  | deskew (p : Nat) (skews : List Nat)
  /-- GATE_END (R468). -/
  | gateEnd (p : Nat) (runs : List (List (Nat × Nat)))
  /-- MAP_REQ (R489). -/
  | mapReq (p : Nat) (rx : List (List Nat))
  /-- MAP_SWITCH (R489). -/
  | mapSwitch (p : Nat) (rx : List (List Nat))
  /-- LS1_IDLE (R481). -/
  | ls1Idle (p idleUs : Nat)
  /-- LS1_REQ (R481). -/
  | ls1Req (p : Nat) (rx : List (List Nat)) (idle : Bool)
  /-- LS1_ACK (R481). -/
  | ls1Ack (p : Nat) (rx : List (List Nat))
  /-- LS1_EXIT (R482). -/
  | ls1Exit (p : Nat)
  /-- WAKE (R482). -/
  | wake (p : Nat) (rx : List (List Nat))
  /-- LS2_REQ (R483). -/
  | ls2Req (p : Nat) (rx : List (List Nat))
  /-- LS2_ACK (R483). -/
  | ls2Ack (p : Nat) (rx : List (List Nat))
  /-- FE_REQ (R486). -/
  | feReq (p : Nat) (rx : List (List Nat))
  /-- FE_ACK (R486). -/
  | feAck (p : Nat) (rx : List (List Nat))
  /-- FE_REFUSE (R486). -/
  | feRefuse (p : Nat) (rx : List (List Nat))
  /-- FE_END (R486). -/
  | feEnd (p : Nat) (rx : List (List Nat))
  /-- RETRAIN (R472). -/
  | retrain (p : Nat) (rx : List (List Nat))
  /-- NOTICE_LASER_SWAP (R495). -/
  | noticeLaserSwap (p : Nat) (rx : List (List Nat)) (ok : Bool)
  /-- NOTICE_REPEAT (R453). -/
  | noticeRepeat (p code : Nat)
  /-- LANE_CREDIT (R448). -/
  | laneCredit (p : Nat) (rx : List (List Nat)) (q : List Nat)
  /-- CREDIT_SEND (R448). -/
  | creditSend (p pool : Nat)
  /-- LANE_FAIL (R487). -/
  | laneFail (p l cause reading : Nat)
  /-- LANE_PSTAT_READ (R477). -/
  | lanePstatRead (w : Who) (p : Nat)
  /-- LANE_MON_READ (R479). -/
  | laneMonRead (w : Who) (p l : Nat) (chars : List Nat)
  /-- EYE_MEASURE (R479). -/
  | eyeMeasure (p l h v : Nat)
  /-- OPT_MONITOR (R493). -/
  | optMonitor (p l rx tx refl bias : Nat)
  /-- HELLO (R748). -/
  | hello (p : Nat) (b : List Byte)
  /-- ENCAPSULATION_KEY (R748). -/
  | encapsulationKey (p : Nat) (ek sig : List Byte)
  /-- KEM_CIPHERTEXT (R748). -/
  | kemCiphertext (p : Nat) (ct sig : List Byte)
  /-- FINISHED (R749). -/
  | finished (p : Nat) (b : List Byte)
  /-- LINK_REKEY (R753). -/
  | linkRekey (p : Nat)
  /-- COLL_GRP_WRITE (R499). -/
  | collGrpWrite (w : Who) (g k v : Nat)
  /-- PIECE_SEND (R512). -/
  | pieceSend (g q ph k p : Nat)
  /-- RS_DATA (R507). -/
  | rsData (p : Pkt) (hbm : List Nat)
  /-- AG_DATA (R509). -/
  | agData (p : Pkt)
  /-- PIECE_WRITE (R513). -/
  | pieceWrite (g q ph k p : Nat)
  /-- COLL_READY (R512). -/
  | collReady (p : Pkt)
  /-- COLL_CREDIT (R512). -/
  | collCredit (p : Pkt)
  /-- COLL_TPUT (R530). -/
  | collTput (p : Pkt) (hbm : List Nat)
  /-- COLL_TSIG (R530). -/
  | collTsig (p : Pkt)
  /-- TOP_NOP (R527). -/
  | topNop (g q idx : Nat)
  /-- TOP_PUT (R527). -/
  | topPut (g q idx : Nat) (hbm : List Nat)
  /-- TOP_GET (R527). -/
  | topGet (g q idx : Nat) (hbm : List Nat)
  /-- TOP_REDUCE (R527). -/
  | topReduce (g q idx : Nat) (hbm : List Nat)
  /-- TOP_SIGNAL (R527). -/
  | topSignal (g q idx : Nat) (hbm : List Nat)
  /-- TOP_COMPLETE (R530). -/
  | topComplete (g q idx : Nat)
  /-- COLL_STALL (R540). -/
  | collStall (g q : Nat)
  /-- EARLY_ENTRY_EXPIRY (R538). -/
  | earlyEntryExpiry (n : Nat)
  /-- WEAR_READING (R565). -/
  | wearReading (site : Nat) (ps : Nat) (tj : Nat)
  /-- SPARE_FENCE_GO (R572). -/
  | spareFenceGo (w : Who) (v : Nat)
  /-- SPARE_FENCE_CANCEL (R572). -/
  | spareFenceCancel (w : Who) (v : Nat)
  /-- DRAIN_COMPLETE (R572). -/
  | drainComplete (site : Nat)
  /-- SPARE_ABIND_WRITE (R598). -/
  | spareAbindWrite (w : Who) (g : Nat) (v : Nat)
  /-- ABORT (R602). -/
  | abort (arr : Nat) (p : Pkt)
  /-- ELOG_NOTIFY (R606). -/
  | elogNotify
  /-- DUMP_TAKE (R609). -/
  | dumpTake (w : Who) (v : Nat)
  /-- CAPTURE_DONE (R610). -/
  | captureDone
  /-- DUMP_USED_CLEAR (R612). -/
  | dumpUsedClear (w : Who) (v : Nat)
  /-- DUMP_XGO (R613). -/
  | dumpXgo (w : Who) (v : Nat)
  /-- DUMP_COPY_DONE (R613). -/
  | dumpCopyDone
  /-- SPARE_PAIR_WRITE (R620). -/
  | sparePairWrite (w : Who) (v : Nat)
  /-- RENEW_SEND (R622). -/
  | renewSend
  /-- RENEW (R625). -/
  | renew (p : Pkt)
  /-- GRANT (R623). -/
  | grant (p : Pkt)
  /-- LEASE_EXPIRY (R623). -/
  | leaseExpiry
  /-- PROMOTION_TIMEOUT (R624). -/
  | promotionTimeout
  /-- RESYNC_GO (R630). -/
  | resyncGo (w : Who) (v : Nat) (prole : Nat)
  /-- RESYNC_FRAME (R630). -/
  | resyncFrame (p : Option Pkt)
  /-- RESYNC_PASS (R631). -/
  | resyncPass
  /-- RESYNC_SWITCH (R632). -/
  | resyncSwitch (w : Who) (v : Nat)
  /-- RESYNC_SWITCH_DONE (R632). -/
  | resyncSwitchDone (st : Option (List (List Nat) × List (List Nat)))
  /-- RESYNC_FAIL (R634). -/
  | resyncFail (lost : Bool)
  /-- VIN_SAMPLE (R672). -/
  | vinSample (v p bank : Nat)
  /-- HOLD_TIMEOUT (R677). -/
  | holdTimeout
  /-- RAIL_LIMIT (R682). -/
  | railLimit (r : Nat)
  /-- PHASE_FENCED (R683). -/
  | phaseFenced (r ph : Nat)
  /-- RAIL_FAULT (R684). -/
  | railFault (r : Nat)
  /-- PWR_POLICY_WRITE (R693). -/
  | pwrPolicyWrite (w : Who) (v : Nat)
  /-- HEARTBEAT_LOSS (R692). -/
  | heartbeatLoss
  /-- FLOOR_RECOMPUTE (R689). -/
  | floorRecompute (f : Nat)
  /-- THERMAL_UPDATE (R702). -/
  | thermalUpdate
  /-- THROTTLE (R703). -/
  | throttle (d : Nat)
  /-- SENSOR_SAMPLE (R707). -/
  | sensorSample (h : Nat) (a b : Int) (dpa dpb : Bool)
  /-- THERM_TRIP (R708). -/
  | thermTrip (h : Nat)
  /-- ADAPT_CHOICE (R714). -/
  | adaptChoice (e : List (List Nat))
  /-- LOAD_HINT (R715). -/
  | loadHint (k other : Nat) (pred : List Nat)
  /-- COOL_STALE (R700). -/
  | coolStale
  /-- TRAY_FRAME (R835). -/
  | trayFrame (b : List Byte)
  /-- IDLE_ENTRY (R717). -/
  | idleEntry (idleNs quietNs want : Nat)
  /-- POWER_WAKE (R718). -/
  | powerWake
  /-- PS4_REQ (R719). -/
  | ps4Req (w : Who) (v : Nat)
  /-- PWR_RAIL_READ (R685). -/
  | pwrRailRead (w : Who) (r vout iout : Nat)
  /-- PWR_EVT_READ (R697). -/
  | pwrEvtRead (w : Who)
  /-- PART_OPEN (R740). -/
  | partOpen (w : Who) (v : Nat)
  /-- PART_CLOSE (R740). -/
  | partClose (w : Who) (v : Nat)
  /-- MOVE_CLUSTER (R740). -/
  | moveCluster (w : Who) (v : Nat)
  /-- MOVE_CONTEXT (R740). -/
  | moveContext (w : Who) (v : Nat)
  /-- MOVE_ENDPOINT (R740). -/
  | moveEndpoint (w : Who) (v : Nat)
  /-- MOVE_KEYSLOT (R740). -/
  | moveKeyslot (w : Who) (v : Nat)
  /-- SCRUB (R742). -/
  | scrub (w : Who) (v : Nat)
  /-- SET_DL (R740). -/
  | setDl (w : Who) (v : Nat)
  /-- UNLOCK (R740). -/
  | unlock (w : Who) (v : Nat)
  /-- OWNER_LOCK (R740). -/
  | ownerLock (w : Who) (v : Nat)
  /-- OWNER_BIND (R740). -/
  | ownerBind (w : Who) (v : Nat)
  /-- LIFECYCLE (R740). -/
  | lifecycle (w : Who) (v : Nat)
  /-- SEC_CMD_DONE (R740). -/
  | secCmdDone
  /-- SEC_CL_WORLD_WRITE (R732). -/
  | secClWorldWrite (w : Who) (k v : Nat)
  /-- TRNG_HEALTH_FAIL (R743). -/
  | trngHealthFail
  /-- GET_VERSION (R763). -/
  | getVersion (b : List Byte)
  /-- GET_CAPABILITIES (R763). -/
  | getCapabilities (b : List Byte)
  /-- NEGOTIATE_ALGORITHMS (R763). -/
  | negotiateAlgorithms (b : List Byte)
  /-- GET_DIGESTS (R763). -/
  | getDigests (b : List Byte)
  /-- GET_CERTIFICATE (R763). -/
  | getCertificate (b : List Byte)
  /-- CHALLENGE (R764). -/
  | challenge (b : List Byte)
  /-- GET_MEASUREMENTS (R765). -/
  | getMeasurements (b : List Byte)
  /-- CHUNK_GET (R834). -/
  | chunkGet (b : List Byte)
  /-- FWU_STAGE (R783). -/
  | fwuStage (w : Who) (v : Nat)
  /-- STAGING_DONE (R783). -/
  | stagingDone (copies : List BlockCopy)
  /-- FWU_ACTIVATE (R782). -/
  | fwuActivate (w : Who) (v : Nat)
  /-- FWU_ABANDON (R784). -/
  | fwuAbandon (w : Who) (v : Nat)
  /-- SVN_COMMIT (R779). -/
  | svnCommit (w : Who) (v : Nat)
  /-- ACTIVATION (R785). -/
  | activation (ready : Bool) (alt : List (Nat × Nat))
  /-- ACT_TIMEOUT (R788). -/
  | actTimeout
  /-- TRACE_SLOT_WRITE (R797). -/
  | traceSlotWrite (w : Who) (k j v : Nat)
  /-- DUMP_SLOT_WRITE (R802). -/
  | dumpSlotWrite (w : Who) (k j v : Nat)
  /-- FREEZE_GO (R813). -/
  | freezeGo (w : Who) (v : Nat)
  /-- FREEZE (R812). -/
  | freeze (p : Nat) (rx : List (List Nat))
  /-- FROZEN (R815). -/
  | frozen
  /-- FREEZE_TIMEOUT (R818). -/
  | freezeTimeout
  /-- FREEZE_RESUME (R820). -/
  | freezeResume (w : Who) (v : Nat)
  /-- OBS_PORT_READ (R795). -/
  | obsPortRead (w : Who) (p : Nat)
  /-- OBS_HUB_READ (R795). -/
  | obsHubRead (w : Who)
  /-- SETDASA (R824). -/
  | setdasa (tb : Bool) (static da : Nat)
  /-- ENTDAA (R824). -/
  | entdaa (tb : Bool) (da : Nat)
  /-- RSTDAA (R824). -/
  | rstdaa (tb : Bool)
  /-- GETPID (R825). -/
  | getpid (tb : Bool)
  /-- GETBCR (R824). -/
  | getbcr (tb : Bool)
  /-- GETDCR (R824). -/
  | getdcr (tb : Bool)
  /-- GETMRL (R824). -/
  | getmrl (tb : Bool)
  /-- GETMWL (R824). -/
  | getmwl (tb : Bool)
  /-- ENEC (R824). -/
  | enec (tb : Bool) (events : Nat)
  /-- DISEC (R824). -/
  | disec (tb : Bool) (events : Nat)
  /-- SET_ENDPOINT_ID (R826). -/
  | setEndpointId (dest src eid : Nat)
  /-- MCTP_CONTROL (R826). -/
  | mctpControl (dest code : Nat)
  /-- MESSAGE_READ (R826). -/
  | messageRead
  /-- GET_SENSOR_READING (R827). -/
  | getSensorReading (id iout : Nat)
  /-- SET_SENSOR_THRESHOLDS (R830). -/
  | setSensorThresholds (id lo hi : Nat)
  /-- SET_EVENT_RECEIVER (R830). -/
  | setEventReceiver (en : Bool) (eid : Nat)
  /-- HEARTBEAT (R837). -/
  | heartbeat (src v : Nat)
  /-- RCAP (R691). -/
  | rcap (v : Nat)
  /-- OWNER (R828). -/
  | owner (v : Nat)
  /-- WARM_RESET (R709). -/
  | warmReset (v : Nat) (cool : Bool)
  /-- PS4_EXIT (R719). -/
  | ps4Exit (v : Nat)
  /-- FW_TACT (R833). -/
  | fwTact (t : Nat)
  /-- PORT_MGMT (R839). -/
  | portMgmt (p v : Nat)
  /-- REQUEST_FIRMWARE_DATA (R833). -/
  | requestFirmwareData (off : Nat) (b : List Byte) (last : Bool)
  /-- VERIFY_COMPLETE (R833). -/
  | verifyComplete
  /-- ACTIVATE_FIRMWARE (R833). -/
  | activateFirmware
  /-- PATH_DISAGREE (R840). -/
  | pathDisagree (p : Nat)
  /-- REGISTER_WRITE (R873). -/
  | registerWrite (w : Who) (bar2 : Bool) (off n v : Nat)
  /-- SKIP_COLUMN (R455). -/
  | skipColumn (p : Nat) (rx : List (List Nat))
  /-- UCIE_MODULE_FAIL (R326). -/
  | ucieModuleFail (m : Nat)
  /-- TRNG_STARTUP_PASS (R743). -/
  | trngStartupPass
  /-- SUBSTITUTION_DONE (R164). -/
  | substitutionDone (site : Nat) (wakeOk : Bool)
  /-- INVESTIGATION_SELFTEST_DONE (R583). -/
  | investigationSelftestDone (pass : Bool)
  deriving DecidableEq, Repr

end Sys2Proof
end

