-- ==== Sys2Proof/Decode.lean ====
section
/-! DEFINITION. The words of the table: the spec's table gives no command any bits, so no word spells one (log 8). -/
set_option autoImplicit false
namespace Sys2Proof

/-- The command that a word of so many bits spells by the table's bits: none, since no row of the table gives bits. -/
def decodeTableWord (_nbits _w : Nat) : Option Instr := none

end Sys2Proof
end

