-- ==== Sys2Proof/Config.lean ====
section
/-! DEFINITION. What the spec leaves open: free values. Each is an opaque constant, so that no proof can see its value and a
statement about it holds whatever it is. -/
set_option autoImplicit false
namespace Sys2Proof

/-- The n-th free value the module has drawn (log 3). The step that uses one takes as many of its low bits as the field
has and advances `State.freeCtr`. -/
opaque Config.freeValue : Nat → Nat

/-- The n-th free choice between two outcomes that the spec leaves open (log 3). -/
opaque Config.freeBit : Nat → Bool

/-- The key material, serial numbers, signatures, nonces and certificates that the security controller makes, by draw and
length (log 4): their bytes are secret or implementation-defined, and R745 keeps them off every output but the named ones. -/
opaque Config.secretBytes : Nat → List (BitVec 8)

/-- The HSS identity public key that derives from the fused identity seed (R748, R754; log 4). -/
opaque Config.identityKey : List (BitVec 8)

/-- The identity signature of a message by the boot epoch and the leaf (R754; log 4). -/
opaque Config.hssSign : Nat → Nat → List (BitVec 8) → List (BitVec 8)

/-- ML-KEM-1024 (FIPS 203, log 4): the encapsulation key of a seed, the ciphertext and secret that a key and random bytes give,
and the secret that a seed and a ciphertext give. -/
opaque Config.kemKey : List (BitVec 8) → List (BitVec 8)

/-- See `Config.kemKey`. -/
opaque Config.kemEncaps : List (BitVec 8) → List (BitVec 8) → List (BitVec 8) × List (BitVec 8)

/-- See `Config.kemKey`. -/
opaque Config.kemDecaps : List (BitVec 8) → List (BitVec 8) → List (BitVec 8)

/-- The fused SHA-256 of the vendor's production key and, for `true`, of its development key (R762, R773). -/
opaque Config.vendorHash : Bool → Nat

/-- The vendor's HSS public key for Part Records, whose hash is fused; the record's layout carries none (R650, R652; log 66). -/
opaque Config.recordKey : List (BitVec 8)

/-- The device-class key, in fuses that only the security controller's key path reads (R745, R776; log 4). -/
opaque Config.classKey : List (BitVec 8)

/-- The limit held in mask ROM on a REG_TRIM or SENSOR_OFS word, by its offset in the calibration area (R655; log 67). -/
opaque Config.trimAdmits : Nat → Nat → Bool

/-- What a port's calibrated timing asymmetry word takes off the difference of the two path times, in ns (log 21): the spec
gives the word's unit and says that it is removed, and not how. -/
opaque Config.asymmetryNs : Nat → Int

/-- Words of the function's configuration space that the spec leaves to the PCI Express and CXL standards (R325; log 87). -/
opaque Config.cfgWord : Nat → Nat

/-- Where a granule lies within its stack: its pseudo-channel in the low 6 bits and its row above them, which the module does not promise
(R287, R608; log 86). -/
opaque Config.granPlace : Nat → Nat

/-- The keys that the security controller draws for a key slot, by the generation of the load: two XTS keys and a MAC key of 32 bytes each
(R301, R302, R744; log 4). -/
opaque Config.slotKeys : Nat → List (BitVec 8)

/-- The I3C characteristics of the target on the management bus and, for `true`, on the tray bus: BCR, DCR, and the largest read
and write, none of which the spec states (R824; log 72). -/
opaque Config.i3cBcr : Bool → Nat

/-- See `Config.i3cBcr`. -/
opaque Config.i3cDcr : Bool → Nat

/-- See `Config.i3cBcr`. -/
opaque Config.i3cMrl : Bool → Nat

/-- See `Config.i3cBcr`. -/
opaque Config.i3cMwl : Bool → Nat

/-- Sizes of SPDM messages, which the spec does not state: what a chunk carries beyond 26 bytes, and the largest message (R834;
log 74). -/
opaque Config.spdmChunk : Nat

/-- See `Config.spdmChunk`. -/
opaque Config.spdmMax : Nat

/-- The self-signed certificate of an identity public key and a serial number (R763; log 4). -/
opaque Config.certificate : List (BitVec 8) → Nat → List (BitVec 8)

/-- SHA-256 of the mask ROM (R765; log 4). -/
opaque Config.romHash : Nat

/-- The DMTF value type of a measurement block, which the spec does not state (R765; log 75). -/
opaque Config.measType : Nat → Nat

end Sys2Proof
end

