-- ==== Sys2Proof/Machine/Bits.lean ====
section
/-! DEFINITION. Bit fields, sign extension, byte order and saturating counts: the arithmetic on words that every family uses.
A word is a natural number; bit 0 is its least significant bit, and multi-byte fields are little-endian (Conventions). -/
set_option autoImplicit false
namespace Sys2Proof.Machine

/-- A bit field: its lowest bit and its width. -/
structure BF where
  lsb : Nat
  w   : Nat
  deriving DecidableEq, Repr

/-- `w` bits of `x` from bit `lsb` up. -/
def bitsOf (x lsb w : Nat) : Nat := (x >>> lsb) % 2 ^ w

/-- `x` with its `w` bits from bit `lsb` replaced by `v` (taken modulo `2^w`). -/
def putBits (x lsb w v : Nat) : Nat :=
  x % 2 ^ lsb + ((v % 2 ^ w) <<< lsb) + ((x >>> (lsb + w)) <<< (lsb + w))

/-- The field's value in a word. -/
def BF.of (f : BF) (x : Nat) : Nat := bitsOf x f.lsb f.w

/-- The field's value as a flag. -/
def BF.on (f : BF) (x : Nat) : Bool := x.testBit f.lsb

/-- The word that holds `v` in the field and 0 elsewhere. -/
def BF.mk1 (f : BF) (v : Nat) : Nat := (v % 2 ^ f.w) <<< f.lsb

/-- The word with the field replaced. -/
def BF.put (f : BF) (x v : Nat) : Nat := putBits x f.lsb f.w v

/-- A word built from field values that do not overlap. -/
def packFields : List (BF × Nat) → Nat
  | [] => 0
  | (f, v) :: r => f.mk1 v + packFields r

/-- A flag as a bit. -/
def b2n (b : Bool) : Nat := if b then 1 else 0

/-- The two's-complement value of the low `w` bits of `x`. -/
def sext (w x : Nat) : Int :=
  let y := x % 2 ^ w
  if w = 0 then 0 else if y < 2 ^ (w - 1) then (y : Int) else (y : Int) - (2 ^ w : Nat)

/-- The low `w` bits of an integer's two's complement. -/
def wrapInt (w : Nat) (i : Int) : Nat := (i % ((2 ^ w : Nat) : Int)).toNat

/-- `n` bytes of `x`, lowest first. -/
def leBytes : Nat → Nat → List Byte
  | 0, _ => []
  | n + 1, x => BitVec.ofNat 8 x :: leBytes n (x >>> 8)

/-- The low `n` bytes of a number, most significant first. -/
def beBytes (n v : Nat) : List Byte := (leBytes n v).reverse

/-- The number whose bytes are these, lowest first. -/
def ofLE : List Byte → Nat
  | [] => 0
  | b :: r => b.toNat + (ofLE r <<< 8)

/-- The number whose bytes are these, highest first (network order of the link and packet layouts). -/
def ofBE (l : List Byte) : Nat := l.foldl (fun a b => (a <<< 8) + b.toNat) 0

/-- A count of `w` bits that saturates. -/
def satAdd (w a b : Nat) : Nat := min (a + b) (2 ^ w - 1)

/-- A count of `w` bits that wraps. -/
def wrapAdd (w a b : Nat) : Nat := (a + b) % 2 ^ w

/-- `(a - b) mod 2^w`. -/
def wrapSub (w a b : Nat) : Nat := (a % 2 ^ w + 2 ^ w - b % 2 ^ w) % 2 ^ w

/-- The whole number of `k`-unit blocks that `n` units need. -/
def ceilDiv (n k : Nat) : Nat := (n + (k - 1)) / k

/-- The number of 1 bits among the low `n` bits. -/
def popCount : Nat → Nat → Nat
  | 0, _ => 0
  | n + 1, x => x % 2 + popCount n (x / 2)

/-- The positions of the 1 bits among the low `n` bits, lowest first. -/
def onesOf (n x : Nat) : List Nat := (List.range n).filter (fun i => x.testBit i)

/-- `n` bytes of 0. -/
def zeros (n : Nat) : List Byte := List.replicate n 0

/-- The bytes from position `off`, `n` of them. -/
def slice {α : Type} (l : List α) (off n : Nat) : List α := (l.drop off).take n

/-- The `n`-byte little-endian number at position `off`. -/
def leAt (l : List Byte) (off n : Nat) : Nat := ofLE (slice l off n)

end Sys2Proof.Machine
end

