-- ==== Sys2Proof/Machine/Records.lean ====
section
/-! DEFINITION. The record layouts of the spec (descriptors, commands, packet headers, tables in memory): the place of each
field, from the rule named, and the mask of each record's reserved bits. -/
set_option autoImplicit false
namespace Sys2Proof.Machine

/-! R106 -/
/-- R106. -/
def ACC.I : BF := ⟨0, 600⟩
/-- R106. -/
def ACC.NAN : BF := ⟨600, 1⟩
/-- R106. -/
def ACC.PINF : BF := ⟨601, 1⟩
/-- R106. -/
def ACC.NINF : BF := ⟨602, 1⟩
/-- R106. -/
def ACC.COUNT : BF := ⟨603, 28⟩
/-- R106: the reserved bits of the record. -/
def ACC.reserved : Nat := 0xFF80000000000000000000000000000000000000000000000000000000000000000000000000000000000000000000000000000000000000000000000000000000000000000000000000000000000000

/-! R123 -/
/-- R123. -/
def ARITH.NAN_IN : BF := ⟨0, 1⟩
/-- R123. -/
def ARITH.INF_IN : BF := ⟨1, 1⟩
/-- R123. -/
def ARITH.INVALID : BF := ⟨2, 1⟩
/-- R123. -/
def ARITH.OVF_SAT : BF := ⟨3, 1⟩
/-- R123. -/
def ARITH.OVF_INF : BF := ⟨4, 1⟩
/-- R123. -/
def ARITH.UNF_ZERO : BF := ⟨5, 1⟩
/-- R123. -/
def ARITH.INEXACT : BF := ⟨6, 1⟩
/-- R123. -/
def ARITH.TERN_INV : BF := ⟨7, 1⟩
/-- R123. -/
def ARITH.MX_NAN_BLK : BF := ⟨8, 1⟩
/-- R123. -/
def ARITH.INT_SAT : BF := ⟨9, 1⟩
/-- R123. -/
def ARITH.SCALE_CLAMP : BF := ⟨10, 1⟩
/-- R123. -/
def ARITH.DIV_ZERO : BF := ⟨11, 1⟩
/-- R123: the reserved bits of the record. -/
def ARITH.reserved : Nat := 0xF000

/-! R178 -/
/-- R178. -/
def DESC.OPCODE : BF := ⟨0, 8⟩
/-- R178. -/
def DESC.WANY : BF := ⟨8, 1⟩
/-- R178. -/
def DESC.W0_CTR : BF := ⟨16, 6⟩
/-- R178. -/
def DESC.W0_EN : BF := ⟨22, 1⟩
/-- R178. -/
def DESC.W1_CTR : BF := ⟨24, 6⟩
/-- R178. -/
def DESC.W1_EN : BF := ⟨30, 1⟩
/-- R178. -/
def DESC.W0_THR : BF := ⟨32, 32⟩
/-- R178. -/
def DESC.W1_THR : BF := ⟨64, 32⟩
/-- R178. -/
def DESC.S_CTR : BF := ⟨96, 6⟩
/-- R178. -/
def DESC.S_EN : BF := ⟨102, 1⟩
/-- R178. -/
def DESC.S_REM : BF := ⟨103, 1⟩
/-- R178. -/
def DESC.S_CORE : BF := ⟨104, 11⟩
/-- R178. -/
def DESC.S_INC : BF := ⟨116, 8⟩
/-- R178. -/
def DESC.W0_STEP : BF := ⟨124, 8⟩
/-- R178. -/
def DESC.W1_STEP : BF := ⟨132, 8⟩
/-- R178. -/
def DESC.TAG : BF := ⟨140, 16⟩
/-- R178. -/
def DESC.HINT : BF := ⟨156, 8⟩
/-- R178. -/
def DESC.IA_STEP : BF := ⟨164, 16⟩
/-- R178. -/
def DESC.IA_MOD : BF := ⟨180, 8⟩
/-- R178. -/
def DESC.IA_SEL : BF := ⟨188, 4⟩
/-- R178: the reserved bits of the record. -/
def DESC.reserved : Nat := 0x8000000000000000000008080FE00

/-! R200 -/
/-- R200. -/
def TEN.A_ADDR : BF := ⟨192, 16⟩
/-- R200. -/
def TEN.A_STRIDE : BF := ⟨208, 16⟩
/-- R200. -/
def TEN.A_SOFF : BF := ⟨224, 16⟩
/-- R200. -/
def TEN.A_FMT : BF := ⟨240, 4⟩
/-- R200. -/
def TEN.B_ADDR : BF := ⟨244, 16⟩
/-- R200. -/
def TEN.B_STRIDE : BF := ⟨260, 16⟩
/-- R200. -/
def TEN.B_SOFF : BF := ⟨276, 16⟩
/-- R200. -/
def TEN.B_FMT : BF := ⟨292, 4⟩
/-- R200. -/
def TEN.M_M1 : BF := ⟨296, 5⟩
/-- R200. -/
def TEN.N_M1 : BF := ⟨301, 5⟩
/-- R200. -/
def TEN.K : BF := ⟨306, 28⟩
/-- R200. -/
def TEN.INIT : BF := ⟨334, 2⟩
/-- R200. -/
def TEN.ROUND : BF := ⟨336, 1⟩
/-- R200. -/
def TEN.SPILL : BF := ⟨337, 1⟩
/-- R200. -/
def TEN.O_FMT : BF := ⟨338, 4⟩
/-- R200. -/
def TEN.RMODE : BF := ⟨342, 3⟩
/-- R200. -/
def TEN.SAT : BF := ⟨345, 1⟩
/-- R200. -/
def TEN.SHIFT : BF := ⟨346, 8⟩
/-- R200. -/
def TEN.O_ADDR : BF := ⟨354, 16⟩
/-- R200. -/
def TEN.O_STRIDE : BF := ⟨370, 16⟩
/-- R200. -/
def TEN.O_SOFF : BF := ⟨386, 16⟩
/-- R200. -/
def TEN.I_ADDR : BF := ⟨402, 16⟩
/-- R200. -/
def TEN.I_FMT : BF := ⟨418, 4⟩
/-- R200. -/
def TEN.SEED : BF := ⟨422, 32⟩
/-- R200. -/
def TEN.IDX_BASE : BF := ⟨454, 34⟩
/-- R200. -/
def TEN.IDX_LD : BF := ⟨488, 24⟩
/-- R200: the reserved bits of the record. -/
def TEN.reserved : Nat := 0x0

/-! R208 -/
/-- R208. -/
def VP.ROWS_M1 : BF := ⟨192, 16⟩
/-- R208. -/
def VP.WIDTH_M1 : BF := ⟨208, 7⟩
/-- R208. -/
def VP.SEED : BF := ⟨216, 32⟩
/-- R208. -/
def VP.P0_BASE : BF := ⟨248, 16⟩
/-- R208. -/
def VP.P0_STRIDE : BF := ⟨264, 16⟩
/-- R208. -/
def VP.P1 : BF := ⟨280, 32⟩
/-- R208. -/
def VP.P2 : BF := ⟨312, 32⟩
/-- R208. -/
def VP.P3 : BF := ⟨344, 32⟩
/-- R208. -/
def VP.OP0 : BF := ⟨376, 32⟩
/-- R208. -/
def VP.OP1 : BF := ⟨408, 32⟩
/-- R208. -/
def VP.OP2 : BF := ⟨440, 32⟩
/-- R208. -/
def VP.OP3 : BF := ⟨472, 32⟩
/-- R208: the reserved bits of the record. -/
def VP.reserved : Nat := 0xFF000000000000000000000000000000000000000000000000000000000000000000000000800000000000000000000000000000000000000000000000000000

/-! R209 -/
/-- R209. -/
def VROW.VOP : BF := ⟨0, 5⟩
/-- R209. -/
def VROW.DST : BF := ⟨5, 4⟩
/-- R209. -/
def VROW.SA : BF := ⟨9, 4⟩
/-- R209. -/
def VROW.SB : BF := ⟨13, 4⟩
/-- R209. -/
def VROW.SC : BF := ⟨17, 4⟩
/-- R209. -/
def VROW.FMT : BF := ⟨21, 4⟩
/-- R209. -/
def VROW.RMODE : BF := ⟨25, 3⟩
/-- R209. -/
def VROW.SAT : BF := ⟨28, 1⟩
/-- R209: the reserved bits of the record. -/
def VROW.reserved : Nat := 0xE0000000

/-! R213 -/
/-- R213. -/
def OS.ST_ADDR : BF := ⟨192, 16⟩
/-- R213. -/
def OS.ST2_ADDR : BF := ⟨208, 16⟩
/-- R213. -/
def OS.S_ADDR : BF := ⟨224, 16⟩
/-- R213. -/
def OS.V_ADDR : BF := ⟨240, 16⟩
/-- R213. -/
def OS.V_STRIDE : BF := ⟨256, 16⟩
/-- R213. -/
def OS.N_M1 : BF := ⟨272, 7⟩
/-- R213. -/
def OS.D_M1 : BF := ⟨279, 7⟩
/-- R213. -/
def OS.OUT_ADDR : BF := ⟨286, 16⟩
/-- R213. -/
def OS.O_FMT : BF := ⟨302, 4⟩
/-- R213. -/
def OS.RMODE : BF := ⟨306, 3⟩
/-- R213. -/
def OS.SAT : BF := ⟨309, 1⟩
/-- R213. -/
def OS.SEED : BF := ⟨310, 32⟩
/-- R213. -/
def OS.V_FMT : BF := ⟨342, 4⟩
/-- R213: the reserved bits of the record. -/
def OS.reserved : Nat := 0xFFFFFFFFFFFFFFFFFFFFFFFFFFFFFFFFFFFFFFFFFC00000000000000000000000000000000000000000000000000000000000000000000000000000000000000

/-! R214 -/
/-- R214. -/
def SM.SRC_SP : BF := ⟨192, 2⟩
/-- R214. -/
def SM.DST_SP : BF := ⟨194, 2⟩
/-- R214. -/
def SM.SRC_CORE : BF := ⟨196, 11⟩
/-- R214. -/
def SM.DST_CORE : BF := ⟨207, 11⟩
/-- R214. -/
def SM.SRC_ADDR : BF := ⟨218, 48⟩
/-- R214. -/
def SM.DST_ADDR : BF := ⟨266, 48⟩
/-- R214. -/
def SM.LEN : BF := ⟨314, 32⟩
/-- R214. -/
def SM.PART_M1 : BF := ⟨346, 12⟩
/-- R214. -/
def SM.P_CTR : BF := ⟨358, 6⟩
/-- R214. -/
def SM.P_EN : BF := ⟨364, 1⟩
/-- R214. -/
def SM.C_CTR : BF := ⟨365, 6⟩
/-- R214. -/
def SM.C_EN : BF := ⟨371, 1⟩
/-- R214. -/
def SM.SLOTS_M1 : BF := ⟨372, 16⟩
/-- R214. -/
def SM.REM_MOD : BF := ⟨388, 14⟩
/-- R214. -/
def SM.REM_EP : BF := ⟨402, 8⟩
/-- R214: the reserved bits of the record. -/
def SM.reserved : Nat := 0xFFFFFFFFFFFFFFFFFFFFFFFFFC000000000000000000000000000000000000000000000000000000000000000000000000000000000000000000000000000000

/-! R219 -/
/-- R219. -/
def SA.AOP : BF := ⟨192, 4⟩
/-- R219. -/
def SA.A_DADDR : BF := ⟨196, 48⟩
/-- R219. -/
def SA.OPND : BF := ⟨244, 64⟩
/-- R219. -/
def SA.CMP : BF := ⟨308, 64⟩
/-- R219. -/
def SA.RES_ADDR : BF := ⟨372, 16⟩
/-- R219: the reserved bits of the record. -/
def SA.reserved : Nat := 0xFFFFFFFFFFFFFFFFFFFFFFFFFFFFFFF0000000000000000000000000000000000000000000000000000000000000000000000000000000000000000000000000

/-! R235 -/
/-- R235. -/
def SEQD.SEQ_ID : BF := ⟨0, 32⟩
/-- R235. -/
def SEQD.VALID : BF := ⟨32, 1⟩
/-- R235. -/
def SEQD.L_M1 : BF := ⟨34, 8⟩
/-- R235. -/
def SEQD.H_M1 : BF := ⟨42, 6⟩
/-- R235. -/
def SEQD.D_CODE : BF := ⟨48, 2⟩
/-- R235. -/
def SEQD.KVF : BF := ⟨50, 1⟩
/-- R235. -/
def SEQD.CTX : BF := ⟨56, 8⟩
/-- R235. -/
def SEQD.FIRST : BF := ⟨64, 25⟩
/-- R235. -/
def SEQD.MAXP_M1 : BF := ⟨89, 18⟩
/-- R235. -/
def SEQD.PL_BASE : BF := ⟨128, 48⟩
/-- R235. -/
def SEQD.SM_BASE : BF := ⟨176, 48⟩
/-- R235. -/
def SEQD.CT_BASE : BF := ⟨224, 48⟩
/-- R235: the reserved bits of the record. -/
def SEQD.reserved : Nat := 0xFFFFFFFFFFFFFFFFFFFFFFFFFFFFFFFFFFFFFFFFFFFFFFFFFFFFFFFFFFFF000000000000000000000000000000000000FFFFF8000000000000F8000200000000

/-! R238 -/
/-- R238. -/
def PGE.SLOT : BF := ⟨0, 36⟩
/-- R238. -/
def PGE.PRESENT : BF := ⟨63, 1⟩
/-- R238: the reserved bits of the record. -/
def PGE.reserved : Nat := 0x7FFFFFF000000000

/-! R240 -/
/-- R240. -/
def CNT.COUNT : BF := ⟨0, 32⟩
/-- R240. -/
def CNT.AHEAD : BF := ⟨64, 256⟩
/-- R240: the reserved bits of the record. -/
def CNT.reserved : Nat := 0xFFFFFFFFFFFFFFFFFFFFFFFFFFFFFFFFFFFFFFFFFFFFFFFF0000000000000000000000000000000000000000000000000000000000000000FFFFFFFF00000000

/-! R243 -/
/-- R243. -/
def SHIP.KIND : BF := ⟨192, 1⟩
/-- R243. -/
def SHIP.LOCAL : BF := ⟨193, 1⟩
/-- R243. -/
def SHIP.SRC_DM : BF := ⟨194, 1⟩
/-- R243. -/
def SHIP.DMOD : BF := ⟨196, 14⟩
/-- R243. -/
def SHIP.DEP : BF := ⟨210, 8⟩
/-- R243. -/
def SHIP.SEQ_SLOT : BF := ⟨218, 16⟩
/-- R243. -/
def SHIP.SEQ_ID : BF := ⟨234, 32⟩
/-- R243. -/
def SHIP.LAYER : BF := ⟨266, 8⟩
/-- R243. -/
def SHIP.POS : BF := ⟨274, 25⟩
/-- R243. -/
def SHIP.NT_M1 : BF := ⟨299, 6⟩
/-- R243. -/
def SHIP.H_M1 : BF := ⟨305, 6⟩
/-- R243. -/
def SHIP.D_CODE : BF := ⟨311, 2⟩
/-- R243. -/
def SHIP.KVF : BF := ⟨313, 1⟩
/-- R243. -/
def SHIP.SRC_ADDR : BF := ⟨314, 48⟩
/-- R243: the reserved bits of the record. -/
def SHIP.reserved : Nat := 0xFFFFFFFFFFFFFFFFFFFFFFFFFFFFFFFFFFFFFC000000000000000000000000000000000000000008000000000000000000000000000000000000000000000000

/-! R246 -/
/-- R246. -/
def SHH.KTAG : BF := ⟨0, 32⟩
/-- R246. -/
def SHH.SEQ_SLOT : BF := ⟨32, 16⟩
/-- R246. -/
def SHH.SEQ_ID : BF := ⟨48, 32⟩
/-- R246. -/
def SHH.LAYER : BF := ⟨80, 8⟩
/-- R246. -/
def SHH.POS : BF := ⟨88, 25⟩
/-- R246. -/
def SHH.NT_M1 : BF := ⟨113, 6⟩
/-- R246. -/
def SHH.KIND : BF := ⟨119, 1⟩
/-- R246. -/
def SHH.H_M1 : BF := ⟨120, 6⟩
/-- R246. -/
def SHH.D_CODE : BF := ⟨126, 2⟩
/-- R246. -/
def SHH.KVF : BF := ⟨128, 1⟩
/-- R246: the reserved bits of the record. -/
def SHH.reserved : Nat := 0xFFFFFFFFFFFFFFFFFFFFFFFFFFFFFFFFFFFFFFFFFFFFFFFFFFFFFFFFFFFFFFFFFFFFFFFFFFFFFFFFFFFFFFFFFFFFFFFE00000000000000000000000000000000

/-! R257 -/
/-- R257. -/
def ASEL.Q_ADDR : BF := ⟨192, 16⟩
/-- R257. -/
def ASEL.Q_SOFF : BF := ⟨208, 16⟩
/-- R257. -/
def ASEL.G_M1 : BF := ⟨224, 4⟩
/-- R257. -/
def ASEL.SEQ_SLOT : BF := ⟨228, 16⟩
/-- R257. -/
def ASEL.SEQ_ID : BF := ⟨244, 32⟩
/-- R257. -/
def ASEL.LAYER : BF := ⟨276, 8⟩
/-- R257. -/
def ASEL.HEAD : BF := ⟨284, 6⟩
/-- R257. -/
def ASEL.NTOK : BF := ⟨290, 25⟩
/-- R257. -/
def ASEL.B_M1 : BF := ⟨315, 12⟩
/-- R257. -/
def ASEL.SBK_M1 : BF := ⟨327, 7⟩
/-- R257. -/
def ASEL.SINK : BF := ⟨334, 8⟩
/-- R257. -/
def ASEL.WIN : BF := ⟨342, 8⟩
/-- R257. -/
def ASEL.OUT_ADDR : BF := ⟨350, 16⟩
/-- R257: the reserved bits of the record. -/
def ASEL.reserved : Nat := 0xFFFFFFFFFFFFFFFFFFFFFFFFFFFFFFFFFFFFC0000000000000000000000000000000000000000000000000000000000000000000000000000000000000000000

/-! R259 -/
/-- R259. -/
def AGA.LIST_ADDR : BF := ⟨192, 16⟩
/-- R259. -/
def AGA.RANGE : BF := ⟨208, 1⟩
/-- R259. -/
def AGA.P_FIRST : BF := ⟨209, 18⟩
/-- R259. -/
def AGA.NP_M1 : BF := ⟨227, 12⟩
/-- R259. -/
def AGA.SEQ_SLOT : BF := ⟨239, 16⟩
/-- R259. -/
def AGA.SEQ_ID : BF := ⟨255, 32⟩
/-- R259. -/
def AGA.LAYER : BF := ⟨287, 8⟩
/-- R259. -/
def AGA.HEAD : BF := ⟨295, 6⟩
/-- R259. -/
def AGA.NTOK : BF := ⟨301, 25⟩
/-- R259. -/
def AGA.DST_ADDR : BF := ⟨326, 16⟩
/-- R259. -/
def AGA.PG_STEP : BF := ⟨342, 16⟩
/-- R259. -/
def AGA.K_STRIDE : BF := ⟨358, 16⟩
/-- R259. -/
def AGA.V_OFF : BF := ⟨374, 16⟩
/-- R259. -/
def AGA.V_STRIDE : BF := ⟨390, 16⟩
/-- R259. -/
def AGA.M_OFF : BF := ⟨406, 16⟩
/-- R259. -/
def AGA.P_CTR : BF := ⟨422, 6⟩
/-- R259. -/
def AGA.P_EN : BF := ⟨428, 1⟩
/-- R259. -/
def AGA.C_CTR : BF := ⟨429, 6⟩
/-- R259. -/
def AGA.C_EN : BF := ⟨435, 1⟩
/-- R259. -/
def AGA.SLOTS_M1 : BF := ⟨436, 8⟩
/-- R259: the reserved bits of the record. -/
def AGA.reserved : Nat := 0xFFFFFFFFFFFFFFFFF000000000000000000000000000000000000000000000000000000000000000000000000000000000000000000000000000000000000000

/-! R264 -/
/-- R264. -/
def AQ.Q_ADDR : BF := ⟨192, 16⟩
/-- R264. -/
def AQ.Q_SOFF : BF := ⟨208, 16⟩
/-- R264. -/
def AQ.G_M1 : BF := ⟨224, 4⟩
/-- R264. -/
def AQ.LAYER : BF := ⟨228, 8⟩
/-- R264. -/
def AQ.HEAD : BF := ⟨236, 6⟩
/-- R264. -/
def AQ.NTOK : BF := ⟨242, 25⟩
/-- R264. -/
def AQ.SL_ADDR : BF := ⟨267, 16⟩
/-- R264. -/
def AQ.NSH_M1 : BF := ⟨283, 6⟩
/-- R264. -/
def AQ.RES_ADDR : BF := ⟨289, 16⟩
/-- R264. -/
def AQ.B_M1 : BF := ⟨305, 12⟩
/-- R264. -/
def AQ.SBK_M1 : BF := ⟨317, 7⟩
/-- R264. -/
def AQ.SINK : BF := ⟨324, 8⟩
/-- R264. -/
def AQ.WIN : BF := ⟨332, 8⟩
/-- R264. -/
def AQ.EXACT : BF := ⟨340, 1⟩
/-- R264. -/
def AQ.POLICY : BF := ⟨341, 1⟩
/-- R264. -/
def AQ.QTO : BF := ⟨342, 8⟩
/-- R264. -/
def AQ.SSHIFT : BF := ⟨350, 8⟩
/-- R264. -/
def AQ.SM_SCALE : BF := ⟨358, 32⟩
/-- R264. -/
def AQ.D_CODE : BF := ⟨390, 2⟩
/-- R264. -/
def AQ.KVF : BF := ⟨392, 1⟩
/-- R264: the reserved bits of the record. -/
def AQ.reserved : Nat := 0xFFFFFFFFFFFFFFFFFFFFFFFFFFFFFE00000000000000000000000000000000000000000000000000000000000000000000000000000000000000000000000000

/-! R265 -/
/-- R265. -/
def SHL.MOD : BF := ⟨0, 14⟩
/-- R265. -/
def SHL.EP : BF := ⟨14, 8⟩
/-- R265. -/
def SHL.ALT_MOD : BF := ⟨22, 14⟩
/-- R265. -/
def SHL.ALT_EP : BF := ⟨36, 8⟩
/-- R265. -/
def SHL.ALT_EN : BF := ⟨44, 1⟩
/-- R265. -/
def SHL.SEQ_SLOT : BF := ⟨45, 16⟩
/-- R265. -/
def SHL.SEQ_ID : BF := ⟨64, 32⟩
/-- R265: the reserved bits of the record. -/
def SHL.reserved : Nat := 0xFFFFFFFFFFFFFFFFFFFFFFFFFFFFFFFFFFFFFFFF00000000E000000000000000

/-! R266 -/
/-- R266. -/
def RST.STATUS : BF := ⟨0, 16⟩
/-- R266. -/
def RST.ALT : BF := ⟨16, 1⟩
/-- R266. -/
def RST.DEGR : BF := ⟨17, 1⟩
/-- R266. -/
def RST.NSEL : BF := ⟨24, 19⟩
/-- R266: the reserved bits of the record. -/
def RST.reserved : Nat := 0xFFFFF80000FC0000

/-! R268 -/
/-- R268. -/
def QH.QTAG : BF := ⟨0, 32⟩
/-- R268. -/
def QH.SEQ_SLOT : BF := ⟨32, 16⟩
/-- R268. -/
def QH.SEQ_ID : BF := ⟨48, 32⟩
/-- R268. -/
def QH.LAYER : BF := ⟨80, 8⟩
/-- R268. -/
def QH.HEAD : BF := ⟨88, 6⟩
/-- R268. -/
def QH.G_M1 : BF := ⟨94, 4⟩
/-- R268. -/
def QH.NTOK : BF := ⟨98, 25⟩
/-- R268. -/
def QH.B_M1 : BF := ⟨123, 12⟩
/-- R268. -/
def QH.SBK_M1 : BF := ⟨135, 7⟩
/-- R268. -/
def QH.SINK : BF := ⟨142, 8⟩
/-- R268. -/
def QH.WIN : BF := ⟨150, 8⟩
/-- R268. -/
def QH.EXACT : BF := ⟨158, 1⟩
/-- R268. -/
def QH.KVF : BF := ⟨159, 1⟩
/-- R268. -/
def QH.D_CODE : BF := ⟨160, 2⟩
/-- R268. -/
def QH.SSHIFT : BF := ⟨168, 8⟩
/-- R268. -/
def QH.SM_SCALE : BF := ⟨176, 32⟩
/-- R268: the reserved bits of the record. -/
def QH.reserved : Nat := 0xFFFFFFFFFFFFFFFFFFFFFFFFFFFFFFFFFFFFFFFFFFFFFFFFFFFFFFFFFFFFFFFFFFFFFFFFFFFF0000000000FC0000000000000000000000000000000000000000

/-! R269 -/
/-- R269. -/
def QR.TAG : BF := ⟨0, 32⟩
/-- R269. -/
def QR.STATUS : BF := ⟨32, 16⟩
/-- R269. -/
def QR.KIND : BF := ⟨48, 2⟩
/-- R269. -/
def QR.G_M1 : BF := ⟨50, 4⟩
/-- R269. -/
def QR.D_CODE : BF := ⟨54, 2⟩
/-- R269. -/
def QR.NSEL : BF := ⟨56, 19⟩
/-- R269: the reserved bits of the record. -/
def QR.reserved : Nat := 0xFFFFFFFFFFFFFFFFFFFFFFFFFFFFFFFFFFFFFFFFFFFFFFFFFFFFFFFFFFFFFFFFFFFFFFFFFFFFFFFFFFFFFFFFFFFFFFFFFFFFFFFFFFFFF8000000000000000000

/-! R336 -/
/-- R336. -/
def BELL.RING : BF := ⟨0, 13⟩
/-- R336. -/
def BELL.IDX : BF := ⟨32, 32⟩
/-- R336: the reserved bits of the record. -/
def BELL.reserved : Nat := 0xFFFFE000

/-! R343 -/
/-- R343. -/
def CMD.OP : BF := ⟨0, 8⟩
/-- R343. -/
def CMD.BARRIER : BF := ⟨8, 1⟩
/-- R343. -/
def CMD.AT_COUNT : BF := ⟨9, 1⟩
/-- R343. -/
def CMD.DEP_EN : BF := ⟨10, 1⟩
/-- R343. -/
def CMD.NOTIFY : BF := ⟨11, 1⟩
/-- R343. -/
def CMD.NCTR_M1 : BF := ⟨16, 6⟩
/-- R343. -/
def CMD.HINT : BF := ⟨24, 8⟩
/-- R343. -/
def CMD.NCORES_M1 : BF := ⟨32, 11⟩
/-- R343. -/
def CMD.LT_ADDR : BF := ⟨64, 42⟩
/-- R343. -/
def CMD.USER_TAG : BF := ⟨128, 64⟩
/-- R343. -/
def CMD.T_LAUNCH : BF := ⟨192, 64⟩
/-- R343. -/
def CMD.DEP_RING : BF := ⟨256, 5⟩
/-- R343. -/
def CMD.DEP_SEQ : BF := ⟨288, 32⟩
/-- R343. -/
def CMD.BODY : BF := ⟨320, 192⟩
/-- R343: the reserved bits of the record. -/
def CMD.reserved : Nat := 0xFFFFFFE000000000000000000000000000000000FFFFFC0000000000FFFFF80000C0F000

/-! R345 -/
/-- R345. -/
def LTE.LCORE : BF := ⟨0, 11⟩
/-- R345. -/
def LTE.WIN_BASE : BF := ⟨16, 5⟩
/-- R345. -/
def LTE.WIN_LEN : BF := ⟨21, 6⟩
/-- R345. -/
def LTE.WL_ADDR : BF := ⟨64, 42⟩
/-- R345. -/
def LTE.WL_LEN : BF := ⟨128, 21⟩
/-- R345: the reserved bits of the record. -/
def LTE.reserved : Nat := 0xFFFFFFFFFFFFFFFFFFFFFFFFFFE00000FFFFFC0000000000FFFFFFFFF800F800

/-! R352 -/
/-- R352. -/
def CPL.PHASE : BF := ⟨0, 1⟩
/-- R352. -/
def CPL.ERR : BF := ⟨1, 1⟩
/-- R352. -/
def CPL.UNSYNC : BF := ⟨2, 1⟩
/-- R352. -/
def CPL.RING : BF := ⟨8, 13⟩
/-- R352. -/
def CPL.CMD_SEQ : BF := ⟨32, 32⟩
/-- R352. -/
def CPL.USER_TAG : BF := ⟨64, 64⟩
/-- R352. -/
def CPL.STATUS : BF := ⟨128, 16⟩
/-- R352. -/
def CPL.ARITH : BF := ⟨144, 16⟩
/-- R352. -/
def CPL.DIV : BF := ⟨160, 32⟩
/-- R352. -/
def CPL.T_START : BF := ⟨192, 64⟩
/-- R352. -/
def CPL.T_END : BF := ⟨256, 64⟩
/-- R352. -/
def CPL.NDONE : BF := ⟨320, 32⟩
/-- R352. -/
def CPL.TBUSY : BF := ⟨352, 32⟩
/-- R352. -/
def CPL.TWAIT : BF := ⟨384, 32⟩
/-- R352. -/
def CPL.ENERGY : BF := ⟨416, 32⟩
/-- R352. -/
def CPL.CE : BF := ⟨448, 16⟩
/-- R352: the reserved bits of the record. -/
def CPL.reserved : Nat := 0xFFFFFFFFFFFF000000000000000000000000000000000000000000000000000000000000000000000000000000000000000000000000000000000000FFE000F8

/-! R376 -/
/-- R376. -/
def PH.TYPE : BF := ⟨0, 4⟩
/-- R376. -/
def PH.FLAGS : BF := ⟨4, 8⟩
/-- R376. -/
def PH.DEST : BF := ⟨12, 22⟩
/-- R376. -/
def PH.SRC : BF := ⟨34, 22⟩
/-- R376. -/
def PH.PART : BF := ⟨56, 4⟩
/-- R376. -/
def PH.WORLD : BF := ⟨60, 1⟩
/-- R376. -/
def PH.MCAST : BF := ⟨61, 1⟩
/-- R376. -/
def PH.SSEQ : BF := ⟨62, 32⟩
/-- R376. -/
def PH.PLEN : BF := ⟨94, 14⟩
/-- R376. -/
def PH.RADDR : BF := ⟨108, 48⟩
/-- R376. -/
def PH.MSGID : BF := ⟨156, 16⟩
/-- R376. -/
def PH.MTLEN : BF := ⟨172, 32⟩
/-- R376. -/
def PH.VC : BF := ⟨204, 2⟩
/-- R376. -/
def PH.HOPS : BF := ⟨206, 3⟩
/-- R376. -/
def PH.HCRC : BF := ⟨209, 16⟩
/-- R376: the reserved bits of the record. -/
def PH.reserved : Nat := 0xFFFFFFFE00000000000000000000000000000000000000000000000000000000

/-! R378 -/
/-- R378. -/
def PFL.LAST : BF := ⟨0, 1⟩
/-- R378. -/
def PFL.OPEN : BF := ⟨1, 1⟩
/-- R378. -/
def PFL.DUP : BF := ⟨2, 1⟩
/-- R378. -/
def PFL.RETX : BF := ⟨3, 1⟩
/-- R378. -/
def PFL.PAIR : BF := ⟨4, 1⟩
/-- R378. -/
def PFL.VOID : BF := ⟨5, 1⟩
/-- R378: the reserved bits of the record. -/
def PFL.reserved : Nat := 0xC0

/-! R501 -/
/-- R501. -/
def CBODY.CKIND : BF := ⟨320, 4⟩
/-- R501. -/
def CBODY.DFMT : BF := ⟨324, 4⟩
/-- R501. -/
def CBODY.ROP : BF := ⟨328, 2⟩
/-- R501. -/
def CBODY.GROUP : BF := ⟨332, 12⟩
/-- R501. -/
def CBODY.CSEQ : BF := ⟨344, 16⟩
/-- R501. -/
def CBODY.COUNT : BF := ⟨360, 32⟩
/-- R501. -/
def CBODY.SRC_ADDR : BF := ⟨392, 48⟩
/-- R501. -/
def CBODY.DST_ADDR : BF := ⟨440, 48⟩
/-- R501. -/
def CBODY.PCS_M1 : BF := ⟨488, 8⟩
/-- R501. -/
def CBODY.PWIN_M1 : BF := ⟨496, 6⟩
/-- R501. -/
def CBODY.WDOG : BF := ⟨502, 8⟩
/-- R501: the reserved bits of the record. -/
def CBODY.reserved : Nat := 0xC00000000000000000000000000000000000000000000C0000000000000000000000000000000000000000000000000000000000000000000000000000000000

/-! R526 -/
/-- R526. -/
def TOP.TOP : BF := ⟨0, 4⟩
/-- R526. -/
def TOP.TSRC : BF := ⟨4, 1⟩
/-- R526. -/
def TOP.TCTR : BF := ⟨8, 8⟩
/-- R526. -/
def TOP.THR : BF := ⟨16, 32⟩
/-- R526. -/
def TOP.CCTR : BF := ⟨48, 6⟩
/-- R526. -/
def TOP.C_EN : BF := ⟨54, 1⟩
/-- R526. -/
def TOP.RCTR : BF := ⟨56, 6⟩
/-- R526. -/
def TOP.R_EN : BF := ⟨62, 1⟩
/-- R526. -/
def TOP.INC : BF := ⟨64, 8⟩
/-- R526. -/
def TOP.MEMB : BF := ⟨72, 14⟩
/-- R526. -/
def TOP.ROP : BF := ⟨86, 2⟩
/-- R526. -/
def TOP.DFMT : BF := ⟨88, 4⟩
/-- R526. -/
def TOP.LEN : BF := ⟨96, 32⟩
/-- R526. -/
def TOP.A_ADDR : BF := ⟨128, 48⟩
/-- R526. -/
def TOP.B_ADDR : BF := ⟨176, 48⟩
/-- R526. -/
def TOP.D_ADDR : BF := ⟨224, 48⟩
/-- R526: the reserved bits of the record. -/
def TOP.reserved : Nat := 0xFFFFFFFFFFFFFFFFFFFFFFFFFFFFFFFFFFFFFFFFFFFFFFFFFFFFFFFFFFFF00000000000000000000000000000000000000000000F000000080800000000000E0

/-! R535 -/
/-- R535. -/
def CH.PKIND : BF := ⟨0, 4⟩
/-- R535. -/
def CH.GROUP : BF := ⟨4, 12⟩
/-- R535. -/
def CH.CSEQ : BF := ⟨16, 16⟩
/-- R535. -/
def CH.FMT : BF := ⟨32, 4⟩
/-- R535. -/
def CH.ROP : BF := ⟨36, 2⟩
/-- R535. -/
def CH.CKIND : BF := ⟨40, 4⟩
/-- R535. -/
def CH.CHUNK : BF := ⟨48, 14⟩
/-- R535. -/
def CH.PIECE : BF := ⟨62, 18⟩
/-- R535. -/
def CH.COUNT : BF := ⟨80, 32⟩
/-- R535. -/
def CH.RCTR : BF := ⟨112, 8⟩
/-- R535. -/
def CH.R_EN : BF := ⟨120, 1⟩
/-- R535. -/
def CH.INC : BF := ⟨128, 8⟩
/-- R535. -/
def CH.NCRED : BF := ⟨136, 16⟩
/-- R535: the reserved bits of the record. -/
def CH.reserved : Nat := 0xFFFFFFFFFFFFFFFFFFFFFFFFFF000000FE000000000000000000F0C000000000

/-! R600 -/
/-- R600. -/
def ABP.GROUP : BF := ⟨0, 12⟩
/-- R600. -/
def ABP.ORIGIN : BF := ⟨14, 14⟩
/-- R600. -/
def ABP.ANUM : BF := ⟨28, 16⟩
/-- R600. -/
def ABP.CODE : BF := ⟨44, 16⟩
/-- R600: the reserved bits of the record. -/
def ABP.reserved : Nat := 0xFFFFFFFFFFFFFFFFF000000000003000

/-! R650 -/
/-- R650. -/
def PRH.MAGIC : BF := ⟨0, 32⟩
/-- R650. -/
def PRH.FMT : BF := ⟨32, 16⟩
/-- R650. -/
def PRH.NSEC : BF := ⟨48, 16⟩
/-- R650. -/
def PRH.SERIAL : BF := ⟨64, 64⟩
/-- R650. -/
def PRH.SIZE : BF := ⟨128, 8⟩
/-- R650. -/
def PRH.GRADE : BF := ⟨136, 4⟩
/-- R650. -/
def PRH.STEP_NUM : BF := ⟨140, 4⟩
/-- R650. -/
def PRH.STEP_LTR : BF := ⟨144, 4⟩
/-- R650. -/
def PRH.LEN : BF := ⟨160, 32⟩
/-- R650: the reserved bits of the record. -/
def PRH.reserved : Nat := 0xFFFFFFFFFFFFFFFFFFFFFFFFFFFFFFFFFFFFFFFFFFFFFFFFFFFFFFFFFFFFFFFFFFFFFFFFFFFFFFFF00000000FFF0000000000000000000000000000000000000

/-! R659 -/
/-- R659. -/
def GBH.SEQ : BF := ⟨0, 16⟩
/-- R659. -/
def GBH.NBLK : BF := ⟨16, 16⟩
/-- R659. -/
def GBH.CRC : BF := ⟨32, 32⟩
/-- R659. -/
def GBH.IMAGE : BF := ⟨64, 32⟩
/-- R659: the reserved bits of the record. -/
def GBH.reserved : Nat := 0xFFFFFFFFFFFFFFFFFFFFFFFFFFFFFFFFFFFFFFFF000000000000000000000000

/-! R759 -/
/-- R759. -/
def TOK.MAGIC : BF := ⟨0, 32⟩
/-- R759. -/
def TOK.TKIND : BF := ⟨32, 4⟩
/-- R759. -/
def TOK.SIGNER : BF := ⟨36, 1⟩
/-- R759. -/
def TOK.SERIAL : BF := ⟨64, 64⟩
/-- R759. -/
def TOK.EPOCH : BF := ⟨128, 15⟩
/-- R759. -/
def TOK.NONCE : BF := ⟨144, 64⟩
/-- R759. -/
def TOK.PART : BF := ⟨208, 4⟩
/-- R759. -/
def TOK.TO_LCS : BF := ⟨212, 3⟩
/-- R759. -/
def TOK.OHASH : BF := ⟨256, 256⟩
/-- R759: the reserved bits of the record. -/
def TOK.reserved : Nat := 0xFFFFFFFFFFFFFFFFFFFFFFFFFFFFFFFFFFFFFFFFFFFFFFFFFFFFFFFFFFFFFFFFFFFFFFFFFFFFFFFFFFFFFFFFFFFFFFFFFFFFFFFFFFFFFFFFFFFFFFFFFFFFFFFF0000000000000000000000000000000000000000000000000000000000000000FFFFFFFFFF80000000000000000080000000000000000000FFFFFFE000000000

/-! R774 -/
/-- R774. -/
def MFH.MAGIC : BF := ⟨0, 32⟩
/-- R774. -/
def MFH.FMT : BF := ⟨32, 16⟩
/-- R774. -/
def MFH.NENT : BF := ⟨48, 8⟩
/-- R774. -/
def MFH.SIZE : BF := ⟨56, 8⟩
/-- R774. -/
def MFH.STEP_NUM : BF := ⟨64, 4⟩
/-- R774. -/
def MFH.STEP_LTR : BF := ⟨68, 4⟩
/-- R774. -/
def MFH.SALT : BF := ⟨128, 256⟩
/-- R774: the reserved bits of the record. -/
def MFH.reserved : Nat := 0xFFFFFFFFFFFFFFFFFFFFFFFFFFFFFFFFFFFFFFFFFFFFFFFFFFFFFFFFFFFFFFFFFFFFFFFFFFFFFFFFFFFFFFFFFFFFFFFFFFFFFFFFFFFFFFFFFFFFFFFFFFFFFFFFFFFFFFFFFFFFFFFFFFFFFFFFFFFFFFFF0000000000000000000000000000000000000000000000000000000000000000FFFFFFFFFFFFFF000000000000000000

/-! R775 -/
/-- R775. -/
def MFE.TYPE : BF := ⟨0, 8⟩
/-- R775. -/
def MFE.SVN : BF := ⟨8, 8⟩
/-- R775. -/
def MFE.MCODE_REV : BF := ⟨16, 8⟩
/-- R775. -/
def MFE.VERSION : BF := ⟨32, 32⟩
/-- R775. -/
def MFE.LEN : BF := ⟨64, 32⟩
/-- R775. -/
def MFE.OFFSET : BF := ⟨96, 32⟩
/-- R775. -/
def MFE.NONCE : BF := ⟨128, 96⟩
/-- R775. -/
def MFE.TAG : BF := ⟨256, 128⟩
/-- R775. -/
def MFE.DIGEST : BF := ⟨384, 256⟩
/-- R775: the reserved bits of the record. -/
def MFE.reserved : Nat := 0xFFFFFFFFFFFFFFFFFFFFFFFFFFFFFFFF000000000000000000000000000000000000000000000000000000000000000000000000000000000000000000000000FFFFFFFF000000000000000000000000000000000000000000000000FF000000

/-! R799 -/
/-- R799. -/
def TRE.T0 : BF := ⟨0, 64⟩
/-- R799. -/
def TRE.DUR : BF := ⟨64, 32⟩
/-- R799. -/
def TRE.WAITER : BF := ⟨96, 11⟩
/-- R799. -/
def TRE.CTX : BF := ⟨107, 8⟩
/-- R799. -/
def TRE.CTR : BF := ⟨115, 6⟩
/-- R799. -/
def TRE.PRODUCER : BF := ⟨121, 11⟩
/-- R799. -/
def TRE.SKIND : BF := ⟨132, 2⟩
/-- R799. -/
def TRE.UNSYNC : BF := ⟨134, 1⟩
/-- R799. -/
def TRE.WANY : BF := ⟨135, 1⟩
/-- R799. -/
def TRE.DIDX : BF := ⟨136, 20⟩
/-- R799. -/
def TRE.ITER : BF := ⟨156, 32⟩
/-- R799. -/
def TRE.VALUE : BF := ⟨192, 32⟩
/-- R799: the reserved bits of the record. -/
def TRE.reserved : Nat := 0xFFFFFFFF00000000F00000000000000000000000000000000000000000000000

end Sys2Proof.Machine
end

