-- ==== Sys2Proof/Machine/Numeric.lean ====
section
/-! DEFINITION. Number formats, the one rounding, MX blocks and packed ternary weights (R87 to R117). Every value is an exact
rational until it is rounded once. -/
set_option autoImplicit false
namespace Sys2Proof.Machine

/-- An exact value: NaN, an infinity, or `(-1)^neg × num / den` with `den` not 0. -/
inductive XV
  | nan
  | inf (neg : Bool)
  | fin (neg : Bool) (num den : Nat)
  deriving DecidableEq, Repr

/-- +0. -/
def XV.zero : XV := .fin false 0 1

/-- A result and the arithmetic status flags it raises (R123). -/
structure FR where
  bits  : Nat
  flags : Nat
  deriving DecidableEq, Repr

/-! The arithmetic status flags of R123, as masks. -/
/-- R123. -/
def aNAN_IN : Nat := ARITH.NAN_IN.mk1 1
/-- R123. -/
def aINF_IN : Nat := ARITH.INF_IN.mk1 1
/-- R123. -/
def aINVALID : Nat := ARITH.INVALID.mk1 1
/-- R123. -/
def aOVF_SAT : Nat := ARITH.OVF_SAT.mk1 1
/-- R123. -/
def aOVF_INF : Nat := ARITH.OVF_INF.mk1 1
/-- R123. -/
def aUNF_ZERO : Nat := ARITH.UNF_ZERO.mk1 1
/-- R123. -/
def aINEXACT : Nat := ARITH.INEXACT.mk1 1
/-- R123. -/
def aTERN_INV : Nat := ARITH.TERN_INV.mk1 1
/-- R123. -/
def aMX_NAN_BLK : Nat := ARITH.MX_NAN_BLK.mk1 1
/-- R123. -/
def aINT_SAT : Nat := ARITH.INT_SAT.mk1 1
/-- R123. -/
def aSCALE_CLAMP : Nat := ARITH.SCALE_CLAMP.mk1 1
/-- R123. -/
def aDIV_ZERO : Nat := ARITH.DIV_ZERO.mk1 1

/-! Format codes (R87). -/
/-- R87. -/
def FP32 : Nat := 0
/-- R87. -/
def BF16 : Nat := 1
/-- R87. -/
def INT8 : Nat := 2
/-- R87. -/
def INT32 : Nat := 3
/-- R87. -/
def E4M3 : Nat := 4
/-- R87. -/
def E5M2 : Nat := 5
/-- R87. -/
def E3M2 : Nat := 6
/-- R87. -/
def E2M3 : Nat := 7
/-- R87. -/
def E2M1 : Nat := 8
/-- R87. -/
def TERN5 : Nat := 9

/-- The formats that carry a block scale (R87). -/
def fmtMx (f : Nat) : Bool := decide (4 ≤ f) && decide (f ≤ 8)

/-- The integer formats. -/
def fmtInt (f : Nat) : Bool := decide (f = 2) || decide (f = 3)

/-- Bits of one element (R90, R93). -/
def fmtBits : Nat → Nat
  | 0 => 32 | 1 => 16 | 2 => 8 | 3 => 32 | 4 => 8 | 5 => 8 | 6 => 6 | 7 => 6 | 8 => 4 | _ => 8

/-- Mantissa bits M (R90). -/
def fmtM : Nat → Nat
  | 0 => 23 | 1 => 7 | 4 => 3 | 5 => 2 | 6 => 2 | 7 => 3 | 8 => 1 | _ => 0

/-- Exponent bias (R90). -/
def fmtBias : Nat → Nat
  | 0 => 127 | 1 => 127 | 4 => 7 | 5 => 15 | 6 => 3 | 7 => 1 | 8 => 1 | _ => 0

/-- Exponent bits (R90). -/
def fmtE (f : Nat) : Nat := fmtBits f - 1 - fmtM f

/-- emax, the exponent of the largest normal value (R92; 127 for FP32 and BF16 by R90). -/
def fmtEmax : Nat → Int
  | 4 => 8 | 5 => 15 | 6 => 4 | 7 => 2 | 8 => 2 | _ => 127

/-- The largest finite value is `fmtTop f × 2^(emax - M)` (R90). -/
def fmtTop (f : Nat) : Nat := if f = 4 then 14 else 2 ^ (fmtM f + 1) - 1

/-- The exponent of the smallest normal value (R90). -/
def fmtEmin (f : Nat) : Int := 1 - (fmtBias f : Int)

/-- `num / den × 2^e` as a pair. -/
def scale2 (num den : Nat) (e : Int) : Nat × Nat :=
  if 0 ≤ e then (num <<< e.toNat, den) else (num, den <<< (-e).toNat)

/-- The value times a power of two. -/
def XV.scale : XV → Int → XV
  | .fin n a b, e => let p := scale2 a b e; .fin n p.1 p.2
  | v, _ => v

/-- `floor(log2(num / den))` of a positive value. -/
def flog2 (num den : Nat) : Int :=
  let k : Int := (num.log2 : Int) - (den.log2 : Int)
  let p := scale2 num den (-k)
  if p.1 < p.2 then k - 1 else k

/-- The value of an element code without its scale (R90, R91). -/
def elemVal (f x : Nat) : XV :=
  if fmtInt f then
    let i := sext (fmtBits f) x
    .fin (decide (i < 0)) i.natAbs 1
  else
    let m := bitsOf x 0 (fmtM f)
    let e := bitsOf x (fmtM f) (fmtE f)
    let s := x.testBit (fmtBits f - 1)
    let ones := e + 1 = 2 ^ fmtE f
    if ones ∧ (f = 0 ∨ f = 1 ∨ f = 5) then (if m = 0 then .inf s else .nan)
    else if ones ∧ f = 4 ∧ m = 7 then .nan
    else if e = 0 then
      let p := scale2 m 1 (fmtEmin f - (fmtM f : Int))
      .fin s p.1 p.2
    else
      let p := scale2 (2 ^ fmtM f + m) 1 ((e : Int) - (fmtBias f : Int) - (fmtM f : Int))
      .fin s p.1 p.2

/-- The value of an element under an E8M0 scale byte (R94, R95). -/
def scaledVal (f x sc : Nat) : XV :=
  if fmtMx f then (if sc = 0xFF then .nan else (elemVal f x).scale ((sc : Int) - 127)) else elemVal f x

/-- The trits of a TERN5 byte, lowest index first, and whether the byte is invalid (R97, R98). -/
def ternTrits (b : Nat) : List Nat :=
  if 243 ≤ b then [0, 0, 0, 0, 0] else [b % 3, b / 3 % 3, b / 9 % 3, b / 27 % 3, b / 81 % 3]

/-- The value of a trit under its scale (R97, R99). -/
def tritVal (t sc : Nat) : XV :=
  if sc = 0xFF then .nan
  else (XV.fin (decide (t = 2)) (if t = 0 then 0 else 1) 1).scale ((sc : Int) - 127)

/-- The keyed random value of R111. -/
def srBits (seed index : Nat) : Nat :=
  let m32 := 4294967296
  let h0 := (seed ^^^ ((index ^^^ (index >>> 32)) % m32)) % m32
  let h1 := h0 * 0x9E3779B9 % m32
  let h2 := (h1 ^^^ (h1 >>> 16)) * 0x85EBCA6B % m32
  let h3 := (h2 ^^^ (h2 >>> 13)) * 0xC2B2AE35 % m32
  (h3 ^^^ (h3 >>> 16)) % 65536

/-- How a value is rounded: mode (R110), SAT, and the random value that SR adds (R111). -/
structure RndCfg where
  mode : Nat
  sat  : Bool
  sr   : Nat
  deriving DecidableEq, Repr

/-- Round to nearest, ties to even, no saturation: the vector engine's rounding (R118). -/
def rne : RndCfg := ⟨0, false, 0⟩

/-- A magnitude rounded to a whole number of ulps of `2^u`, and whether the rounding changed it (R110, R111). -/
def roundUlp (c : RndCfg) (neg : Bool) (num den : Nat) (u : Int) : Nat × Bool :=
  let p := scale2 num den (-u)
  let q := p.1 / p.2
  let r := p.1 % p.2
  let up : Bool := match c.mode with
    | 0 => decide (2 * r > p.2) || (decide (2 * r = p.2) && decide (q % 2 = 1))
    | 1 => false
    | 2 => neg && decide (r ≠ 0)
    | 3 => !neg && decide (r ≠ 0)
    | 4 => decide (2 * r ≥ p.2)
    | _ => decide (r * 65536 / p.2 + c.sr ≥ 65536)
  (if up then q + 1 else q, decide (r ≠ 0))

/-- The exponent of the ulp at a magnitude (R110). -/
def ulpExp (f num den : Nat) : Int := max (flog2 num den) (fmtEmin f) - (fmtM f : Int)

/-- Whether `q × 2^u` exceeds the largest finite value. -/
def overTop (f q : Nat) (u : Int) : Bool :=
  let p := scale2 q 1 (u - (fmtEmax f - (fmtM f : Int)))
  decide (fmtTop f * p.2 < p.1)

/-- The code of the magnitude `q × 2^u`, a value the format holds. -/
def packMag (f q : Nat) (u : Int) : Nat :=
  if q = 0 then 0
  else
    let M := fmtM f
    let k := q.log2
    if k < M then q
    else
      let e : Int := (k : Int) + u
      let m := (q >>> (k - M)) - 2 ^ M
      (e + (fmtBias f : Int)).toNat * 2 ^ M + m

/-- The code of the largest finite magnitude. -/
def topCode (f : Nat) : Nat := packMag f (fmtTop f) (fmtEmax f - (fmtM f : Int))

/-- The code of an infinity of FP32, BF16 and E5M2. -/
def infCode (f : Nat) : Nat := (2 ^ fmtE f - 1) * 2 ^ fmtM f

/-- The NaN codes of R115; formats without one have no use for it. -/
def nanCode : Nat → Nat
  | 0 => 0x7FC00000 | 1 => 0x7FC0 | 4 => 0x7F | 5 => 0x7E | _ => 0

/-- The sign bit of a format. -/
def signBit (f : Nat) (neg : Bool) : Nat := if neg then 2 ^ (fmtBits f - 1) else 0

/-- What an overflow is written as, and its flag (R112). It raises INEXACT too, since what is written is not the value (log 81). -/
def overflowTo (f : Nat) (c : RndCfg) (neg : Bool) : FR :=
  let toTop : FR := ⟨signBit f neg + topCode f, aOVF_SAT ||| aINEXACT⟩
  let inf : Bool := match c.mode with
    | 1 => false
    | 2 => neg
    | 3 => !neg
    | _ => true
  if c.sat || !inf || decide (6 ≤ f) then toTop
  else if f = 4 then ⟨nanCode 4, aOVF_INF ||| aINEXACT⟩
  else ⟨signBit f neg + infCode f, aOVF_INF ||| aINEXACT⟩

/-- A finite value rounded once to a floating-point format (R108 step 4, R110 to R113). -/
def roundFin (f : Nat) (c : RndCfg) (neg : Bool) (num den : Nat) : FR :=
  if num = 0 then ⟨0, 0⟩
  else
    let u := ulpExp f num den
    let (q, inex) := roundUlp c neg num den u
    if overTop f q u then overflowTo f c neg
    else
      ⟨signBit f neg + packMag f q u,
        (if inex then aINEXACT else 0) ||| (if q = 0 then aUNF_ZERO else 0)⟩

/-- A value written as INT8 or INT32 (R114). -/
def roundInt (f : Nat) (c : RndCfg) : XV → FR
  | .nan => ⟨0, aINT_SAT⟩
  | .inf neg => ⟨if neg then 2 ^ (fmtBits f - 1) else 2 ^ (fmtBits f - 1) - 1, aINT_SAT⟩
  | .fin neg num den =>
    let (q, inex) := roundUlp c neg num den 0
    let lim := if neg then 2 ^ (fmtBits f - 1) else 2 ^ (fmtBits f - 1) - 1
    let fl := if inex then aINEXACT else 0
    if q ≤ lim then ⟨wrapInt (fmtBits f) (if neg then -(q : Int) else (q : Int)), fl⟩
    else ⟨wrapInt (fmtBits f) (if neg then -(lim : Int) else (lim : Int)), fl ||| aINT_SAT⟩

/-- A value written in a format without a block scale: FP32, BF16, INT8, INT32 (R108). -/
def roundPlain (f : Nat) (c : RndCfg) (v : XV) : FR :=
  if fmtInt f then roundInt f c v
  else match v with
    | .nan => ⟨nanCode f, 0⟩
    | .inf neg => ⟨signBit f neg + infCode f, 0⟩
    | .fin neg num den => roundFin f c neg num den

/-- A value that is not a finite number. -/
def XV.special : XV → Bool
  | .fin _ _ _ => false
  | _ => true

/-- `|a| < |b|` of finite values. -/
def absLt : XV → XV → Bool
  | .fin _ a b, .fin _ c d => decide (a * d < c * b)
  | _, _ => false

/-- The largest magnitude of a block and the lowest element index that holds it. -/
def maxAbs : List (XV × Nat) → XV × Nat
  | [] => (XV.zero, 0)
  | e :: r => r.foldl (fun m x => if absLt m.1 x.1 then x else m) e

/-- A block of output: its scale byte, its element codes and the flags raised. -/
structure MxOut where
  scale : Nat
  codes : List Nat
  flags : Nat
  deriving DecidableEq, Repr

/-- The scale exponent of an MX output block and whether it was clamped (R116). -/
def mxScaleExp (f mode : Nat) (seed : Nat) (vs : List (XV × Nat)) : Int × Bool :=
  match maxAbs vs with
  | (.fin _ num den, idx) =>
    if num = 0 then (0, false)
    else
      let x := flog2 num den - fmtEmax f
      let p := scale2 num den (-x)
      let u := ulpExp f p.1 p.2
      let (q, _) := roundUlp ⟨mode, false, srBits seed idx⟩ false p.1 p.2 u
      let x := if overTop f q u then x + 1 else x
      (max (-127) (min x 127), decide (x < -127) || decide (127 < x))
  | _ => (0, false)

/-- An MX output block from the exact values of its 32 elements, each with its element index (R116, R117). -/
def mxBlock (f mode : Nat) (sat : Bool) (seed : Nat) (vs : List (XV × Nat)) : MxOut :=
  if vs.any (fun v => v.1.special) then ⟨0xFF, vs.map (fun _ => 0), aMX_NAN_BLK⟩
  else
    let (x, clamped) := mxScaleExp f mode seed vs
    let rs := vs.map fun v => match v.1.scale (-x) with
      | .fin neg num den => roundFin f ⟨mode, sat, srBits seed v.2⟩ neg num den
      | _ => ⟨0, 0⟩
    ⟨(x + 127).toNat, rs.map (·.bits),
      rs.foldl (fun a r => a ||| r.flags) (if clamped then aSCALE_CLAMP else 0)⟩

/-! ## Packing of elements in bytes (R93) -/

/-- Bytes that `n` elements of a format take. -/
def fmtBytes (f n : Nat) : Nat :=
  if f = 9 then ceilDiv n 5 else ceilDiv (n * fmtBits f) 8

/-- The code of element `i` of a packed row. Sub-byte elements lie little-endian from bit 0 up (R93). -/
def elemCode (f : Nat) (row : List Byte) (i : Nat) : Nat :=
  match fmtBits f with
  | 6 => bitsOf (leAt row (i / 4 * 3) 3) (6 * (i % 4)) 6
  | 4 => bitsOf (leAt row (i / 2) 1) (4 * (i % 2)) 4
  | b => leAt row (i * (b / 8)) (b / 8)

/-- Codes packed into bytes (R93): sub-byte elements fill a little-endian word from bit 0 up. -/
def packCodes (f : Nat) (codes : List Nat) : List Byte :=
  let w := fmtBits f
  leBytes (fmtBytes f codes.length) (codes.foldr (fun c a => c % 2 ^ w + (a <<< w)) 0)

end Sys2Proof.Machine
end

