-- ==== Sys2Proof/Machine/Coding.lean ====
section
/-! DEFINITION. What a lane carries: characters and their running disparity, the special symbols, the data characters of control
sequences, packets in columns, and the pattern sequences (R437 to R447, R454, R457, R467, R469). -/
set_option autoImplicit false
namespace Sys2Proof.Machine

/-! ## Characters (R438; the code groups are those of IEEE 802.3 clause 36, log 82)

A character is a number of 10 bits; bit 0 is the one named a, which is sent first. A running disparity is `true` when positive. -/

/-- What a character stands for: a data byte, or the special symbol Kx.y as 32y + x. -/
inductive Sym
  | d (b : Nat)
  | k (b : Nat)
  deriving DecidableEq, Repr

/-- The sub-blocks abcdei of D0 to D31 at negative disparity. -/
def sixes : List Nat :=
  [57, 46, 45, 35, 43, 37, 38, 7, 39, 41, 42, 11, 44, 13, 14, 58] ++
  [54, 49, 50, 19, 52, 21, 22, 23, 51, 25, 26, 27, 28, 29, 30, 53]

/-- The sub-blocks fghj of y = 0 to 7 at negative disparity, of data and of special symbols. -/
def fours : List Nat := [13, 9, 10, 3, 11, 5, 6, 7]
/-- As above. -/
def foursK : List Nat := [13, 6, 5, 3, 11, 10, 9, 14]

/-- A sub-block of `n` bits at a disparity: one that is unbalanced, or that has two forms though balanced, is complemented at positive
disparity. -/
def atRd (n v : Nat) (two rd : Bool) : Nat := if rd && (two || decide (2 * popCount n v ≠ n)) then 2 ^ n - 1 - v else v

/-- The disparity after a sub-block of `n` bits: the sign of what it holds more of; a balanced one keeps it, but for the one whose halves
are all ones and all zeros. -/
def rdAfter (n v : Nat) (rd : Bool) : Bool :=
  let h := n / 2
  if n < 2 * popCount n v ∨ v = 2 ^ n - 2 ^ h then true
  else if 2 * popCount n v < n ∨ v = 2 ^ h - 1 then false
  else rd

/-- The first sub-block of a symbol. -/
def sixOf (rd : Bool) (y : Sym) : Nat :=
  match y with
  | .d b => atRd 6 (sixes.getD (b % 32) 0) (decide (b % 32 = 7)) rd
  | .k b => atRd 6 (if b % 32 = 28 then 60 else sixes.getD (b % 32) 0) false rd

/-- The second sub-block of a symbol, at the disparity that the first left; Dx.7 has another form where the usual one would make a run
of five. -/
def fourOf (rd : Bool) (y : Sym) : Nat :=
  match y with
  | .d b =>
    let x := b % 32
    let alt := decide (b / 32 = 7) && (if rd then [11, 13, 14].contains x else [17, 18, 20].contains x)
    atRd 4 (if alt then 14 else fours.getD (b / 32) 0) (decide (b / 32 = 3)) rd
  | .k b => atRd 4 (foursK.getD (b / 32) 0) true rd

/-- A symbol coded at a disparity: its character, and the disparity after it. -/
def encSym (rd : Bool) (y : Sym) : Nat × Bool :=
  let a := sixOf rd y
  let rd := rdAfter 6 a rd
  let b := fourOf rd y
  (a + 64 * b, rdAfter 4 b rd)

/-- Symbols coded one after another. -/
def encSyms (rd : Bool) : List Sym → List Nat × Bool
  | [] => ([], rd)
  | y :: r =>
    let e := encSym rd y
    let t := encSyms e.2 r
    (e.1 :: t.1, t.2)

/-! ## Special symbols (R440) -/

/-- R440. -/
def kCOMMA : Nat := 0xBC
/-- R440. -/
def kSKIP : Nat := 0x3C
/-- R440. -/
def kSOP : Nat := 0xFB
/-- R440. -/
def kEOP : Nat := 0xFD
/-- R440. -/
def kEOPB : Nat := 0xFE
/-- R440. -/
def kCREDIT : Nat := 0x1C
/-- R440. -/
def kFREEZE : Nat := 0x5C
/-- R440. -/
def kTIMING : Nat := 0x7C
/-- R440. -/
def kTRAIN : Nat := 0x9C
/-- R440. -/
def kNOTICE : Nat := 0xDC
/-- R440. -/
def kSTATUS : Nat := 0xF7
/-- K28.7, which is never sent. -/
def kReserved : Nat := 0xFC

/-- The special symbols that are code groups. -/
def specials : List Nat :=
  [kCOMMA, kSKIP, kSOP, kEOP, kEOPB, kCREDIT, kFREEZE, kTIMING, kTRAIN, kNOTICE, kSTATUS, kReserved]

/-! ## Reading characters (R439) -/

/-- Symbols that a character can stand for: those whose first sub-block is the character's, at one disparity or the other. -/
def symsOf (c : Nat) : List Sym :=
  (((List.range 32).filter fun x => decide (sixOf false (.d x) = c % 64) || decide (sixOf true (.d x) = c % 64)).flatMap fun x =>
    (List.range 8).map fun y => Sym.d (32 * y + x)) ++ specials.map Sym.k

/-- A character read at a running disparity: the symbol it stands for, whether it is a code violation, and the disparity after it. A
violation is a character that is no code group, one with the wrong disparity, or K28.7 (R439). -/
structure ReadChar where
  sym : Option Sym
  cv  : Bool
  rd  : Bool
  deriving DecidableEq, Repr

/-- A character read. -/
def readChar (rd : Bool) (c : Nat) : ReadChar :=
  let after := rdAfter 4 (c / 64 % 16) (rdAfter 6 (c % 64) rd)
  match (symsOf c).find? fun y => decide ((encSym rd y).1 = c) with
  | some y => ⟨some y, decide (y = .k kReserved), after⟩
  | none => ⟨(symsOf c).find? fun y => decide ((encSym (!rd) y).1 = c), true, after⟩

/-- Characters of a lane read one after another, and the disparity after them. -/
def readChars (rd : Bool) : List Nat → List ReadChar × Bool
  | [] => ([], rd)
  | c :: r =>
    let e := readChar rd c
    let t := readChars e.rd r
    (e :: t.1, t.2)

/-- Code violations among characters read. -/
def violations (l : List ReadChar) : Nat := (l.filter (·.cv)).length

/-- The symbols of characters read, when none of them is a violation. -/
def cleanSyms (l : List ReadChar) : Option (List Sym) := if l.any (·.cv) then none else l.mapM (·.sym)

/-! ## Sequences (R441, R442, R447) -/

/-- A sequence as symbols: its special symbol and its data characters. -/
def seqSyms (k : Nat) (data : List Nat) : List Sym := .k k :: data.map Sym.d

/-- The data characters of a sequence with special symbol `k` and `n` of them. -/
def seqData (k n : Nat) (l : List Sym) : Option (List Nat) :=
  match l with
  | .k j :: r =>
    let ds := r.filterMap fun y => match y with | .d b => some b | .k _ => none
    if j = k ∧ ds.length = n ∧ r.length = n then some ds else none
  | _ => none

/-- The column-wide sequence that a receiver acts on: what a lane reads without a violation, where no lane reads another without one
(R442). -/
def agreed (lanes : List (Option (List Sym))) : Option (List Sym) :=
  match lanes.filterMap id with
  | [] => none
  | a :: r => if r.all fun b => decide (b = a) then some a else none

/-- CREDIT (R447). -/
def creditData (pool total : Nat) : List Nat := [pool % 16 + 16 * bitsOf total 8 4, total % 256]

/-- TIMING (R447). -/
def timingData (kind num count : Nat) : List Nat := kind :: num :: (leBytes 8 count).map BitVec.toNat

/-- FREEZE (R447). -/
def freezeData (id : Nat) : List Nat := [id, 0]

/-- TRAIN: target lane, command and argument (R447). -/
def trainData (l cmd arg : Nat) : List Nat := [l % 8 + 8 * cmd, arg]

/-- NOTICE (R447). -/
def noticeData (code arg : Nat) : List Nat := [code, arg]

/-- STATUS: the sender's module and port, the lane it stands on and the transmit map, `STAGE` and `GATE_DONE`, and the check byte
(R447). -/
def statusData (m port lane map stage gate : Nat) : List Nat :=
  let b := [m % 256, m / 256 % 64, port, lane % 8 + 8 * map, stage % 16 + 16 * gate]
  b ++ [b.foldl (· ^^^ ·) 0]

/-- The number in data characters, lowest first. -/
def dataNum (l : List Nat) : Nat := l.foldr (fun b a => b + 256 * a) 0

/-! ## Packets in columns (R444, R445) -/

/-- A column of one symbol on every lane (R441). -/
def wideCol (y : Sym) : List Sym := List.replicate 5 y

/-- A column-wide sequence as columns. -/
def wideSeq (k : Nat) (data : List Nat) : List (List Sym) := (seqSyms k data).map wideCol

/-- The columns of a packet on `n` lanes, each by logical lane: SOP, byte j on lane j mod n in column j div n, D0.0 in the places left
over, and EOP or EOPB (R444). -/
def packetCols (n : Nat) (b : List Nat) (bad : Bool) : List (List Sym) :=
  wideCol (.k kSOP) :: (List.range (ceilDiv b.length n)).map (fun i =>
    (List.range n).map fun j => Sym.d (b.getD (i * n + j) 0)) ++ [wideCol (.k (if bad then kEOPB else kEOP))]

/-- A column as the receiver takes it: the special symbol that its lanes agree on; else data, one byte from each lane, and whether it
holds a violation. -/
inductive Col
  | sp (k : Nat) (cv : Bool)
  | data (b : List Nat) (cv : Bool)
  | none
  deriving DecidableEq, Repr

/-- The byte of a data symbol. -/
def symByte (y : Option Sym) : Option Nat := match y with | some (.d b) => some b | _ => Option.none

/-- Characters of a column, one from each lane, as a column; one whose special symbols disagree is none (R442, R445). -/
def colOf (l : List ReadChar) : Col :=
  let cv := l.any (·.cv)
  match agreed (l.map fun r => if r.cv then Option.none else r.sym.map fun y => [match y with | .d _ => Sym.d 0 | y => y]) with
  | some (.k k :: _) => .sp k cv
  | some _ => .data (l.map fun r => (symByte r.sym).getD 0) cv
  | Option.none => if l.any (fun r => !r.cv) then .none else .data (l.map fun r => (symByte r.sym).getD 0) true

/-- What a receiver has of the packet it takes in: whether one has begun, its bytes, and whether it is bad. -/
structure RxPkt where
  open_ : Bool
  bytes : List Nat
  bad   : Bool
  deriving DecidableEq, Repr

/-- No packet has begun. -/
def RxPkt.idle : RxPkt := ⟨false, [], false⟩

/-- What comes of columns: the bytes of the packet that ended, with whether it ended bad; the columns discarded; and what the receiver then
has of the next. -/
structure RxDone where
  pkt  : Option (List Nat × Bool)
  disc : Nat
  next : RxPkt
  deriving DecidableEq, Repr

/-- Data characters that follow a special symbol (R440). -/
def seqLen (k : Nat) : Nat :=
  if k = kCREDIT ∨ k = kFREEZE ∨ k = kTRAIN ∨ k = kNOTICE then 2 else if k = kTIMING then 10 else if k = kSTATUS then 6 else 0

/-- Columns taken in until a packet ends: by EOP, by EOPB, or by the SOP of the next. A sequence inside, of whose characters `skip` are
still to come, is not data; data columns and ends outside a packet are discarded (R444, R445). -/
def takeCols (r : RxPkt) (skip disc : Nat) : List Col → RxDone
  | [] => ⟨Option.none, disc, r⟩
  | .sp k cv :: l =>
    if k = kSOP then
      if r.open_ then ⟨some (r.bytes, true), disc, ⟨true, [], cv⟩⟩ else takeCols ⟨true, [], cv⟩ 0 disc l
    else if k = kEOP ∨ k = kEOPB then
      if r.open_ then ⟨some (r.bytes, r.bad || cv || decide (k = kEOPB)), disc, .idle⟩ else takeCols r 0 (disc + 1) l
    else takeCols r (seqLen k) disc l
  | .data b cv :: l =>
    if skip ≠ 0 then takeCols r (skip - 1) disc l
    else if r.open_ then takeCols ⟨true, r.bytes ++ b, r.bad || cv⟩ 0 disc l
    else takeCols r 0 (disc + 1) l
  | .none :: l => takeCols { r with bad := r.open_ } 0 (disc + 1) l

/-! ## Patterns (R457, R467, R469, log 83) -/

/-- Bits of a linear feedback sequence of degree `n` whose polynomial is x^n + x^m + 1: the next bit is the sum of those n and m places
back. The state holds the last n bits, the newest lowest. -/
def lfsrStep (n m st : Nat) : Nat × Nat :=
  let b := (bitsOf st (n - 1) 1 + bitsOf st (m - 1) 1) % 2
  (b, (2 * st + b) % 2 ^ n)

/-- `k` bytes of a pattern, each bit taken lowest first, and the state after them. -/
def lfsrBytes (n m : Nat) : Nat → Nat → List Nat × Nat
  | 0, st => ([], st)
  | k + 1, st =>
    let w := (List.range 8).foldl (fun (a : Nat × Nat) i => let e := lfsrStep n m a.2; (a.1 + e.1 * 2 ^ i, e.2)) (0, st)
    let t := lfsrBytes n m k w.2
    (w.1 :: t.1, t.2)

/-- PRBS-7 of training blocks (R457). -/
def prbs7 (k st : Nat) : List Nat × Nat := lfsrBytes 7 6 k st

/-- PRBS-31 of the gate and of `PRBS` (R467, R476). -/
def prbs31 (k st : Nat) : List Nat × Nat := lfsrBytes 31 28 k st

/-- A training block of a lane: COMMA, a STATUS, a TRAIN, and 117 characters of PRBS-7 (R457). -/
def blockSyms (status train : List Nat) (prbs : List Nat) : List Sym :=
  .k kCOMMA :: seqSyms kSTATUS status ++ seqSyms kTRAIN train ++ prbs.map Sym.d

end Sys2Proof.Machine
end

