-- ==== Sys2Proof/Machine/Regs.lean ====
section
/-! DEFINITION. The register map: every register of the spec's bit tables, field by field: position, width, access code,
power-up value and warm-reset value (R15, R16, and the rule named at each register), and where each register lies in
BAR0 (R328, R329). A value the spec shows as "U", at power-up or after a warm reset, is left open by the spec and is the model's
choice of 0 here (DESIGN CHOICE, R16, log 2). -/
set_option autoImplicit false
namespace Sys2Proof.Machine

/-- The register blocks of R328. -/
inductive Blk
  | gctl | cfe | ctx | fab | lane | coll | mem | pwr | sec | obs | spare | time | cal
  deriving DecidableEq, Repr

/-- The access codes of the spec's register tables: RW, RO, WO, W1C, W1S. -/
inductive Acc
  | rw | ro | wo | w1c | w1s
  deriving DecidableEq, Repr

/-- The Warm reset column: a value, or "unchanged". -/
inductive Warm
  | keep
  | val (n : Nat)
  deriving DecidableEq, Repr

/-- One constructor per register (or array of registers) of the spec. -/
inductive Reg
  | GCTL_PART_ID
  | GCTL_SERIAL
  | GCTL_ROLE
  | TIME_RATE
  | TIME_COUNT
  | TIME_CTL
  | TIME_STATUS
  | GCTL_OWNER
  | SPARE_CMAP
  | GCTL_SEQTAB
  | MEM_HOST
  | MEM_RGN
  | MEM_RGN_STATUS
  | MEM_FILL_CTL
  | MEM_REPAIR_CMD
  | MEM_STK_STATUS
  | MEM_TRAIN
  | CFE_RING_CMD
  | CFE_RING_CPL
  | CFE_RING_PTR
  | CFE_RING_CPTR
  | CTX_CFG
  | CTX_STATE
  | CTX_DIV
  | CTX_CTL
  | CFE_WAKE
  | FAB_EP
  | FAB_EPCNT
  | FAB_CTL
  | FAB_LOCAL
  | FAB_RACK
  | FAB_PORT
  | FAB_XPORT
  | FAB_PAIR
  | FAB_MCG
  | LANE_PCTL
  | LANE_PSTAT
  | LANE_TAPS
  | LANE_MON
  | LANE_OPT
  | COLL_GRP
  | GCTL_RCLASS
  | SPARE_WEAR_CTL
  | SPARE_WEAR
  | SPARE_FENCE
  | CULLET
  | SPARE_REPLAY_CTL
  | SPARE_REPLAY_STAT
  | SPARE_REPLAY_EN
  | SPARE_ESC
  | SPARE_ABIND
  | SPARE_ELOG_PTR
  | ELOG
  | SPARE_DUMP
  | SPARE_PAIR
  | SPARE_PAIR_STATE
  | SPARE_RESYNC
  | SPARE_RSLIST
  | GCTL_BOOT_CTL
  | GCTL_BOOT_STAT
  | CAL_STAT
  | CAL_DIGEST
  | PWR_RAIL
  | PWR_POLICY
  | PWR_RACK
  | PWR_STATUS
  | PWR_EVT
  | PWR_OVER
  | PWR_ENERGY
  | PWR_THERM
  | PWR_PSTATE
  | SEC_PART
  | SEC_CL_WORLD
  | SEC_CMD
  | SEC_LPEER
  | SEC_ID_STAT
  | SEC_NONCE
  | SEC_LIFE
  | SEC_OWNER
  | SEC_FWU_CTL
  | SEC_FWU_SRC
  | SEC_FWU_T
  | SEC_FWU_STAT
  | SEC_SVN
  | OBS_CL
  | OBS_PORT
  | OBS_HUB
  | OBS_TRACE
  | OBS_DUMP
  | OBS_FREEZE
  | GCTL_MGMT
  | FAB_CMP_MISMATCH
  deriving DecidableEq, Repr

/-- The number a register is stored under. -/
def Reg.code : Reg → Nat
  | .GCTL_PART_ID => 0
  | .GCTL_SERIAL => 1
  | .GCTL_ROLE => 2
  | .TIME_RATE => 3
  | .TIME_COUNT => 4
  | .TIME_CTL => 5
  | .TIME_STATUS => 6
  | .GCTL_OWNER => 7
  | .SPARE_CMAP => 8
  | .GCTL_SEQTAB => 9
  | .MEM_HOST => 10
  | .MEM_RGN => 11
  | .MEM_RGN_STATUS => 12
  | .MEM_FILL_CTL => 13
  | .MEM_REPAIR_CMD => 14
  | .MEM_STK_STATUS => 15
  | .MEM_TRAIN => 16
  | .CFE_RING_CMD => 17
  | .CFE_RING_CPL => 18
  | .CFE_RING_PTR => 19
  | .CFE_RING_CPTR => 20
  | .CTX_CFG => 21
  | .CTX_STATE => 22
  | .CTX_DIV => 23
  | .CTX_CTL => 24
  | .CFE_WAKE => 25
  | .FAB_EP => 26
  | .FAB_EPCNT => 27
  | .FAB_CTL => 28
  | .FAB_LOCAL => 29
  | .FAB_RACK => 30
  | .FAB_PORT => 31
  | .FAB_XPORT => 32
  | .FAB_PAIR => 33
  | .FAB_MCG => 34
  | .LANE_PCTL => 35
  | .LANE_PSTAT => 36
  | .LANE_TAPS => 37
  | .LANE_MON => 38
  | .LANE_OPT => 39
  | .COLL_GRP => 40
  | .GCTL_RCLASS => 41
  | .SPARE_WEAR_CTL => 42
  | .SPARE_WEAR => 43
  | .SPARE_FENCE => 44
  | .CULLET => 45
  | .SPARE_REPLAY_CTL => 46
  | .SPARE_REPLAY_STAT => 47
  | .SPARE_REPLAY_EN => 48
  | .SPARE_ESC => 49
  | .SPARE_ABIND => 50
  | .SPARE_ELOG_PTR => 51
  | .ELOG => 52
  | .SPARE_DUMP => 53
  | .SPARE_PAIR => 54
  | .SPARE_PAIR_STATE => 55
  | .SPARE_RESYNC => 56
  | .SPARE_RSLIST => 57
  | .GCTL_BOOT_CTL => 58
  | .GCTL_BOOT_STAT => 59
  | .CAL_STAT => 60
  | .CAL_DIGEST => 61
  | .PWR_RAIL => 62
  | .PWR_POLICY => 63
  | .PWR_RACK => 64
  | .PWR_STATUS => 65
  | .PWR_EVT => 66
  | .PWR_OVER => 67
  | .PWR_ENERGY => 68
  | .PWR_THERM => 69
  | .PWR_PSTATE => 70
  | .SEC_PART => 71
  | .SEC_CL_WORLD => 72
  | .SEC_CMD => 73
  | .SEC_LPEER => 74
  | .SEC_ID_STAT => 75
  | .SEC_NONCE => 76
  | .SEC_LIFE => 77
  | .SEC_OWNER => 78
  | .SEC_FWU_CTL => 79
  | .SEC_FWU_SRC => 80
  | .SEC_FWU_T => 81
  | .SEC_FWU_STAT => 82
  | .SEC_SVN => 83
  | .OBS_CL => 84
  | .OBS_PORT => 85
  | .OBS_HUB => 86
  | .OBS_TRACE => 87
  | .OBS_DUMP => 88
  | .OBS_FREEZE => 89
  | .GCTL_MGMT => 90
  | .FAB_CMP_MISMATCH => 91

/-- One field of a register: the register, its lowest bit, its width, its access code, its power-up value and what a warm
reset leaves in it. -/
structure Fld where
  reg  : Reg
  lsb  : Nat
  w    : Nat
  acc  : Acc
  up   : Nat
  warm : Warm
  deriving DecidableEq, Repr

/-- R4. -/
def GCTL_PART_ID.SIZE : Fld := ⟨.GCTL_PART_ID, 0, 8, .ro, 12, .val 12⟩
/-- R4. -/
def GCTL_PART_ID.GRADE : Fld := ⟨.GCTL_PART_ID, 8, 4, .ro, 0, .keep⟩
/-- R4. -/
def GCTL_PART_ID.STEP_NUM : Fld := ⟨.GCTL_PART_ID, 12, 4, .ro, 0, .val 0⟩
/-- R4. -/
def GCTL_PART_ID.STEP_LTR : Fld := ⟨.GCTL_PART_ID, 16, 4, .ro, 1, .val 1⟩
/-- R4. -/
def GCTL_PART_ID.VENDOR : Fld := ⟨.GCTL_PART_ID, 32, 16, .ro, 20044, .val 20044⟩

/-- R6. -/
def GCTL_SERIAL.SERIAL : Fld := ⟨.GCTL_SERIAL, 0, 64, .ro, 0, .keep⟩

/-- R39. -/
def GCTL_ROLE.ROLE : Fld := ⟨.GCTL_ROLE, 0, 2, .rw, 0, .val 0⟩
/-- R39. -/
def GCTL_ROLE.ROLE_ACT : Fld := ⟨.GCTL_ROLE, 4, 2, .ro, 0, .val 0⟩
/-- R39. -/
def GCTL_ROLE.PEND : Fld := ⟨.GCTL_ROLE, 6, 1, .ro, 0, .val 0⟩
/-- R39. -/
def GCTL_ROLE.SERVE_CL : Fld := ⟨.GCTL_ROLE, 8, 8, .rw, 8, .val 8⟩
/-- R39. -/
def GCTL_ROLE.REJ : Fld := ⟨.GCTL_ROLE, 16, 1, .w1c, 0, .val 0⟩

/-- R57. -/
def TIME_RATE.CD0 : Fld := ⟨.TIME_RATE, 0, 16, .ro, 0, .val 0⟩
/-- R57. -/
def TIME_RATE.CD1 : Fld := ⟨.TIME_RATE, 16, 16, .ro, 0, .val 0⟩
/-- R57. -/
def TIME_RATE.CD2 : Fld := ⟨.TIME_RATE, 32, 16, .ro, 0, .val 0⟩
/-- R57. -/
def TIME_RATE.CD3 : Fld := ⟨.TIME_RATE, 48, 16, .ro, 0, .val 0⟩

/-- R61. -/
def TIME_COUNT.COUNT : Fld := ⟨.TIME_COUNT, 0, 64, .ro, 0, .keep⟩

/-- R62. -/
def TIME_CTL.PARENT : Fld := ⟨.TIME_CTL, 0, 5, .rw, 0, .keep⟩
/-- R62. -/
def TIME_CTL.ROOT : Fld := ⟨.TIME_CTL, 8, 1, .rw, 0, .keep⟩
/-- R62. -/
def TIME_CTL.SYNC_EN : Fld := ⟨.TIME_CTL, 9, 1, .rw, 0, .keep⟩
/-- R62. -/
def TIME_CTL.REJ : Fld := ⟨.TIME_CTL, 16, 1, .w1c, 0, .val 0⟩

/-- R63. -/
def TIME_STATUS.STATE : Fld := ⟨.TIME_STATUS, 0, 2, .ro, 0, .val 0⟩
/-- R63. -/
def TIME_STATUS.UNSYNC : Fld := ⟨.TIME_STATUS, 2, 1, .ro, 1, .val 1⟩
/-- R63. -/
def TIME_STATUS.DEPTH : Fld := ⟨.TIME_STATUS, 4, 3, .ro, 7, .val 7⟩
/-- R63. -/
def TIME_STATUS.LATE : Fld := ⟨.TIME_STATUS, 7, 1, .w1c, 0, .val 0⟩
/-- R63. -/
def TIME_STATUS.OFFSET : Fld := ⟨.TIME_STATUS, 16, 16, .ro, 0, .val 0⟩
/-- R63. -/
def TIME_STATUS.DELAY : Fld := ⟨.TIME_STATUS, 32, 16, .ro, 0, .val 0⟩

/-- R83. -/
def GCTL_OWNER.PWR : Fld := ⟨.GCTL_OWNER, 0, 1, .rw, 0, .keep⟩
/-- R83. -/
def GCTL_OWNER.OBS : Fld := ⟨.GCTL_OWNER, 1, 1, .rw, 0, .keep⟩
/-- R83. -/
def GCTL_OWNER.SPARE : Fld := ⟨.GCTL_OWNER, 2, 1, .rw, 0, .keep⟩
/-- R83. -/
def GCTL_OWNER.TIME : Fld := ⟨.GCTL_OWNER, 3, 1, .rw, 0, .keep⟩
/-- R83. -/
def GCTL_OWNER.REJ_HOST : Fld := ⟨.GCTL_OWNER, 16, 1, .w1c, 0, .val 0⟩
/-- R83. -/
def GCTL_OWNER.REJ_MC : Fld := ⟨.GCTL_OWNER, 17, 1, .w1c, 0, .val 0⟩

/-- R162. -/
def SPARE_CMAP.M0 : Fld := ⟨.SPARE_CMAP, 0, 4, .ro, 15, .keep⟩
/-- R162. -/
def SPARE_CMAP.M1 : Fld := ⟨.SPARE_CMAP, 4, 4, .ro, 15, .keep⟩
/-- R162. -/
def SPARE_CMAP.M2 : Fld := ⟨.SPARE_CMAP, 8, 4, .ro, 15, .keep⟩
/-- R162. -/
def SPARE_CMAP.M3 : Fld := ⟨.SPARE_CMAP, 12, 4, .ro, 15, .keep⟩
/-- R162. -/
def SPARE_CMAP.M4 : Fld := ⟨.SPARE_CMAP, 16, 4, .ro, 15, .keep⟩
/-- R162. -/
def SPARE_CMAP.M5 : Fld := ⟨.SPARE_CMAP, 20, 4, .ro, 15, .keep⟩
/-- R162. -/
def SPARE_CMAP.M6 : Fld := ⟨.SPARE_CMAP, 24, 4, .ro, 15, .keep⟩
/-- R162. -/
def SPARE_CMAP.M7 : Fld := ⟨.SPARE_CMAP, 28, 4, .ro, 15, .keep⟩
/-- R162. -/
def SPARE_CMAP.SPARE_POS : Fld := ⟨.SPARE_CMAP, 32, 4, .ro, 15, .keep⟩
/-- R162. -/
def SPARE_CMAP.PCLUST : Fld := ⟨.SPARE_CMAP, 36, 6, .ro, 0, .keep⟩
/-- R162. -/
def SPARE_CMAP.ABSENT : Fld := ⟨.SPARE_CMAP, 42, 1, .ro, 0, .keep⟩
/-- R162. -/
def SPARE_CMAP.VALID : Fld := ⟨.SPARE_CMAP, 43, 1, .ro, 0, .keep⟩

/-- R233. -/
def GCTL_SEQTAB.EN : Fld := ⟨.GCTL_SEQTAB, 0, 1, .rw, 0, .val 0⟩
/-- R233. -/
def GCTL_SEQTAB.REJ : Fld := ⟨.GCTL_SEQTAB, 1, 1, .w1c, 0, .val 0⟩
/-- R233. -/
def GCTL_SEQTAB.BASE : Fld := ⟨.GCTL_SEQTAB, 6, 42, .rw, 0, .val 0⟩
/-- R233. -/
def GCTL_SEQTAB.N_M1 : Fld := ⟨.GCTL_SEQTAB, 48, 16, .rw, 0, .val 0⟩

/-- R289. -/
def MEM_HOST.EN : Fld := ⟨.MEM_HOST, 0, 1, .rw, 0, .val 0⟩
/-- R289. -/
def MEM_HOST.BASE : Fld := ⟨.MEM_HOST, 16, 18, .rw, 0, .keep⟩
/-- R289. -/
def MEM_HOST.SIZE_M1 : Fld := ⟨.MEM_HOST, 34, 15, .rw, 0, .keep⟩
/-- R289. -/
def MEM_HOST.REJ : Fld := ⟨.MEM_HOST, 63, 1, .w1c, 0, .val 0⟩

/-- R293. -/
def MEM_RGN.VALID : Fld := ⟨.MEM_RGN, 0, 1, .rw, 0, .val 0⟩
/-- R293. -/
def MEM_RGN.WORLD : Fld := ⟨.MEM_RGN, 1, 1, .rw, 0, .val 0⟩
/-- R293. -/
def MEM_RGN.KEY : Fld := ⟨.MEM_RGN, 2, 6, .rw, 0, .val 0⟩
/-- R293. -/
def MEM_RGN.RD : Fld := ⟨.MEM_RGN, 8, 1, .rw, 0, .val 0⟩
/-- R293. -/
def MEM_RGN.WR : Fld := ⟨.MEM_RGN, 9, 1, .rw, 0, .val 0⟩
/-- R293. -/
def MEM_RGN.FETCH : Fld := ⟨.MEM_RGN, 10, 1, .rw, 0, .val 0⟩
/-- R293. -/
def MEM_RGN.ATOM : Fld := ⟨.MEM_RGN, 11, 1, .rw, 0, .val 0⟩
/-- R293. -/
def MEM_RGN.FGET : Fld := ⟨.MEM_RGN, 12, 1, .rw, 0, .val 0⟩
/-- R293. -/
def MEM_RGN.FPUT : Fld := ⟨.MEM_RGN, 13, 1, .rw, 0, .val 0⟩
/-- R293. -/
def MEM_RGN.BASE : Fld := ⟨.MEM_RGN, 32, 18, .rw, 0, .val 0⟩
/-- R293. -/
def MEM_RGN.LIMIT : Fld := ⟨.MEM_RGN, 64, 18, .rw, 0, .val 0⟩

/-- R300. -/
def MEM_RGN_STATUS.PEND : Fld := ⟨.MEM_RGN_STATUS, 0, 1, .ro, 0, .val 0⟩
/-- R300. -/
def MEM_RGN_STATUS.REJ : Fld := ⟨.MEM_RGN_STATUS, 1, 1, .w1c, 0, .val 0⟩

/-- R307. -/
def MEM_FILL_CTL.GO : Fld := ⟨.MEM_FILL_CTL, 0, 1, .w1s, 0, .val 0⟩
/-- R307. -/
def MEM_FILL_CTL.BUSY : Fld := ⟨.MEM_FILL_CTL, 1, 1, .ro, 0, .val 0⟩
/-- R307. -/
def MEM_FILL_CTL.DONE : Fld := ⟨.MEM_FILL_CTL, 2, 1, .w1c, 0, .val 0⟩
/-- R307. -/
def MEM_FILL_CTL.REJ : Fld := ⟨.MEM_FILL_CTL, 3, 1, .w1c, 0, .val 0⟩
/-- R307. -/
def MEM_FILL_CTL.KEY : Fld := ⟨.MEM_FILL_CTL, 4, 6, .rw, 0, .val 0⟩
/-- R307. -/
def MEM_FILL_CTL.FIRST : Fld := ⟨.MEM_FILL_CTL, 16, 18, .rw, 0, .val 0⟩
/-- R307. -/
def MEM_FILL_CTL.NUM_M1 : Fld := ⟨.MEM_FILL_CTL, 34, 18, .rw, 0, .val 0⟩

/-- R315. -/
def MEM_REPAIR_CMD.GO : Fld := ⟨.MEM_REPAIR_CMD, 0, 1, .w1s, 0, .val 0⟩
/-- R315. -/
def MEM_REPAIR_CMD.BUSY : Fld := ⟨.MEM_REPAIR_CMD, 1, 1, .ro, 0, .val 0⟩
/-- R315. -/
def MEM_REPAIR_CMD.REJ : Fld := ⟨.MEM_REPAIR_CMD, 2, 1, .w1c, 0, .val 0⟩
/-- R315. -/
def MEM_REPAIR_CMD.FULL : Fld := ⟨.MEM_REPAIR_CMD, 3, 1, .w1c, 0, .val 0⟩
/-- R315. -/
def MEM_REPAIR_CMD.STACK : Fld := ⟨.MEM_REPAIR_CMD, 4, 4, .rw, 0, .val 0⟩
/-- R315. -/
def MEM_REPAIR_CMD.OP : Fld := ⟨.MEM_REPAIR_CMD, 8, 2, .rw, 0, .val 0⟩
/-- R315. -/
def MEM_REPAIR_CMD.PC : Fld := ⟨.MEM_REPAIR_CMD, 10, 6, .rw, 0, .val 0⟩
/-- R315. -/
def MEM_REPAIR_CMD.ROW : Fld := ⟨.MEM_REPAIR_CMD, 16, 20, .rw, 0, .val 0⟩

/-- R317. -/
def MEM_STK_STATUS.TRAINED : Fld := ⟨.MEM_STK_STATUS, 0, 1, .ro, 0, .val 0⟩
/-- R317. -/
def MEM_STK_STATUS.FENCED : Fld := ⟨.MEM_STK_STATUS, 1, 1, .ro, 0, .keep⟩
/-- R317. -/
def MEM_STK_STATUS.SREF : Fld := ⟨.MEM_STK_STATUS, 2, 1, .ro, 0, .val 1⟩
/-- R317. -/
def MEM_STK_STATUS.SPC_USED : Fld := ⟨.MEM_STK_STATUS, 3, 2, .ro, 0, .keep⟩
/-- R317. -/
def MEM_STK_STATUS.ROWS_USED : Fld := ⟨.MEM_STK_STATUS, 5, 17, .ro, 0, .keep⟩
/-- R317. -/
def MEM_STK_STATUS.CE_COUNT : Fld := ⟨.MEM_STK_STATUS, 32, 16, .ro, 0, .val 0⟩
/-- R317. -/
def MEM_STK_STATUS.TEMP : Fld := ⟨.MEM_STK_STATUS, 48, 8, .ro, 0, .val 0⟩

/-- R318. -/
def MEM_TRAIN.GO : Fld := ⟨.MEM_TRAIN, 0, 1, .w1s, 0, .val 0⟩
/-- R318. -/
def MEM_TRAIN.BUSY : Fld := ⟨.MEM_TRAIN, 1, 1, .ro, 0, .val 0⟩
/-- R318. -/
def MEM_TRAIN.RETAINED : Fld := ⟨.MEM_TRAIN, 2, 1, .ro, 0, .val 1⟩
/-- R318. -/
def MEM_TRAIN.DONE : Fld := ⟨.MEM_TRAIN, 16, 12, .ro, 0, .val 0⟩
/-- R318. -/
def MEM_TRAIN.FAIL : Fld := ⟨.MEM_TRAIN, 32, 12, .ro, 0, .keep⟩

/-- R331. -/
def CFE_RING_CMD.EN : Fld := ⟨.CFE_RING_CMD, 0, 1, .rw, 0, .val 0⟩
/-- R331. -/
def CFE_RING_CMD.K : Fld := ⟨.CFE_RING_CMD, 1, 5, .rw, 0, .val 0⟩
/-- R331. -/
def CFE_RING_CMD.BASE : Fld := ⟨.CFE_RING_CMD, 12, 36, .rw, 0, .val 0⟩
/-- R331. -/
def CFE_RING_CMD.REJ : Fld := ⟨.CFE_RING_CMD, 63, 1, .w1c, 0, .val 0⟩

/-- R332. -/
def CFE_RING_CPL.NOTIFY_EN : Fld := ⟨.CFE_RING_CPL, 0, 1, .rw, 0, .val 0⟩
/-- R332. -/
def CFE_RING_CPL.J : Fld := ⟨.CFE_RING_CPL, 1, 5, .rw, 0, .val 0⟩
/-- R332. -/
def CFE_RING_CPL.BASE : Fld := ⟨.CFE_RING_CPL, 12, 36, .rw, 0, .val 0⟩
/-- R332. -/
def CFE_RING_CPL.VEC : Fld := ⟨.CFE_RING_CPL, 48, 11, .rw, 0, .val 0⟩

/-- R333. -/
def CFE_RING_PTR.HEAD : Fld := ⟨.CFE_RING_PTR, 0, 32, .ro, 0, .val 0⟩
/-- R333. -/
def CFE_RING_PTR.TAIL : Fld := ⟨.CFE_RING_PTR, 32, 32, .ro, 0, .val 0⟩

/-- R333. -/
def CFE_RING_CPTR.CHEAD : Fld := ⟨.CFE_RING_CPTR, 0, 32, .ro, 0, .val 0⟩
/-- R333. -/
def CFE_RING_CPTR.CTAIL : Fld := ⟨.CFE_RING_CPTR, 32, 32, .ro, 0, .val 0⟩

/-- R357. -/
def CTX_CFG.EN : Fld := ⟨.CTX_CFG, 0, 1, .rw, 0, .val 0⟩
/-- R357. -/
def CTX_CFG.PART : Fld := ⟨.CTX_CFG, 1, 4, .rw, 0, .val 0⟩
/-- R357. -/
def CTX_CFG.WORLD : Fld := ⟨.CTX_CFG, 5, 1, .rw, 0, .val 0⟩
/-- R357. -/
def CTX_CFG.HANG : Fld := ⟨.CTX_CFG, 8, 16, .rw, 0, .val 0⟩
/-- R357. -/
def CTX_CFG.WAKE : Fld := ⟨.CTX_CFG, 24, 16, .rw, 0, .val 0⟩
/-- R357. -/
def CTX_CFG.REJ : Fld := ⟨.CTX_CFG, 63, 1, .w1c, 0, .val 0⟩

/-- R358. -/
def CTX_STATE.STATE : Fld := ⟨.CTX_STATE, 0, 2, .ro, 0, .val 0⟩
/-- R358. -/
def CTX_STATE.LAST_ERR : Fld := ⟨.CTX_STATE, 16, 16, .ro, 0, .val 0⟩
/-- R358. -/
def CTX_STATE.RESETS : Fld := ⟨.CTX_STATE, 32, 16, .ro, 0, .val 0⟩

/-- R360. -/
def CTX_DIV.DIV : Fld := ⟨.CTX_DIV, 0, 32, .ro, 0, .val 0⟩

/-- R360. -/
def CTX_CTL.RESET : Fld := ⟨.CTX_CTL, 0, 1, .w1s, 0, .val 0⟩
/-- R360. -/
def CTX_CTL.RESUME : Fld := ⟨.CTX_CTL, 1, 1, .w1s, 0, .val 0⟩
/-- R360. -/
def CTX_CTL.DIV_CLR : Fld := ⟨.CTX_CTL, 2, 1, .w1s, 0, .val 0⟩

/-- R367. -/
def CFE_WAKE.WAKE : Fld := ⟨.CFE_WAKE, 0, 16, .rw, 0, .val 0⟩

/-- R382. -/
def FAB_EP.VALID : Fld := ⟨.FAB_EP, 0, 1, .rw, 0, .val 0⟩
/-- R382. -/
def FAB_EP.PART : Fld := ⟨.FAB_EP, 1, 4, .rw, 0, .val 0⟩
/-- R382. -/
def FAB_EP.WORLD : Fld := ⟨.FAB_EP, 5, 1, .rw, 0, .val 0⟩
/-- R382. -/
def FAB_EP.CTX : Fld := ⟨.FAB_EP, 6, 8, .rw, 0, .val 0⟩
/-- R382. -/
def FAB_EP.RX_EN : Fld := ⟨.FAB_EP, 14, 1, .rw, 0, .val 0⟩
/-- R382. -/
def FAB_EP.REJ : Fld := ⟨.FAB_EP, 63, 1, .w1c, 0, .val 0⟩

/-- R383. -/
def FAB_EPCNT.DONE : Fld := ⟨.FAB_EPCNT, 0, 32, .ro, 0, .val 0⟩
/-- R383. -/
def FAB_EPCNT.FAILED : Fld := ⟨.FAB_EPCNT, 32, 32, .ro, 0, .val 0⟩

/-- R386. -/
def FAB_CTL.SLOT : Fld := ⟨.FAB_CTL, 0, 2, .ro, 0, .keep⟩
/-- R386. -/
def FAB_CTL.TRAY : Fld := ⟨.FAB_CTL, 2, 4, .ro, 0, .keep⟩
/-- R386. -/
def FAB_CTL.RACK : Fld := ⟨.FAB_CTL, 6, 8, .rw, 0, .keep⟩
/-- R386. -/
def FAB_CTL.NRACK_M1 : Fld := ⟨.FAB_CTL, 16, 8, .rw, 0, .keep⟩
/-- R386. -/
def FAB_CTL.EN : Fld := ⟨.FAB_CTL, 24, 1, .rw, 0, .val 0⟩
/-- R386. -/
def FAB_CTL.MODE : Fld := ⟨.FAB_CTL, 25, 1, .rw, 0, .keep⟩
/-- R386. -/
def FAB_CTL.REJ : Fld := ⟨.FAB_CTL, 63, 1, .w1c, 0, .val 0⟩

/-- R388. -/
def FAB_LOCAL.MASK : Fld := ⟨.FAB_LOCAL, 0, 22, .rw, 0, .val 0⟩
/-- R388. -/
def FAB_LOCAL.REJ : Fld := ⟨.FAB_LOCAL, 63, 1, .w1c, 0, .val 0⟩

/-- R389. -/
def FAB_RACK.EXIT_POS : Fld := ⟨.FAB_RACK, 0, 6, .rw, 0, .val 0⟩
/-- R389. -/
def FAB_RACK.EXIT_G : Fld := ⟨.FAB_RACK, 6, 2, .rw, 0, .val 0⟩
/-- R389. -/
def FAB_RACK.VALID : Fld := ⟨.FAB_RACK, 8, 1, .rw, 0, .val 0⟩
/-- R389. -/
def FAB_RACK.DETOUR : Fld := ⟨.FAB_RACK, 9, 1, .rw, 0, .val 0⟩
/-- R389. -/
def FAB_RACK.DGMASK : Fld := ⟨.FAB_RACK, 10, 4, .rw, 0, .val 0⟩
/-- R389. -/
def FAB_RACK.REJ : Fld := ⟨.FAB_RACK, 63, 1, .w1c, 0, .val 0⟩

/-- R398. -/
def FAB_PORT.PMASK : Fld := ⟨.FAB_PORT, 0, 16, .rw, 0, .val 0⟩
/-- R398. -/
def FAB_PORT.S_OK : Fld := ⟨.FAB_PORT, 16, 1, .rw, 0, .val 0⟩
/-- R398. -/
def FAB_PORT.DOWN_REQ : Fld := ⟨.FAB_PORT, 17, 1, .rw, 0, .val 0⟩
/-- R398. -/
def FAB_PORT.INSERV : Fld := ⟨.FAB_PORT, 18, 1, .ro, 0, .val 0⟩
/-- R398. -/
def FAB_PORT.LINK_UP : Fld := ⟨.FAB_PORT, 19, 1, .ro, 0, .val 0⟩
/-- R398. -/
def FAB_PORT.LANES : Fld := ⟨.FAB_PORT, 20, 3, .ro, 0, .val 0⟩
/-- R398. -/
def FAB_PORT.PARTNER : Fld := ⟨.FAB_PORT, 23, 14, .ro, 0, .keep⟩

/-- R401. -/
def FAB_XPORT.WIN : Fld := ⟨.FAB_XPORT, 0, 6, .rw, 16, .val 16⟩
/-- R401. -/
def FAB_XPORT.RTO : Fld := ⟨.FAB_XPORT, 8, 16, .rw, 100, .val 100⟩
/-- R401. -/
def FAB_XPORT.RETRY : Fld := ⟨.FAB_XPORT, 24, 4, .rw, 8, .val 8⟩
/-- R401. -/
def FAB_XPORT.STALL : Fld := ⟨.FAB_XPORT, 32, 8, .rw, 20, .val 20⟩
/-- R401. -/
def FAB_XPORT.IDLE : Fld := ⟨.FAB_XPORT, 40, 8, .rw, 100, .val 100⟩
/-- R401. -/
def FAB_XPORT.REJ : Fld := ⟨.FAB_XPORT, 63, 1, .w1c, 0, .val 0⟩

/-- R415. -/
def FAB_PAIR.PARTNER : Fld := ⟨.FAB_PAIR, 0, 14, .rw, 0, .val 0⟩
/-- R415. -/
def FAB_PAIR.VALID : Fld := ⟨.FAB_PAIR, 14, 1, .rw, 0, .val 0⟩
/-- R415. -/
def FAB_PAIR.CMP : Fld := ⟨.FAB_PAIR, 15, 1, .rw, 0, .val 0⟩

/-- R423. -/
def FAB_MCG.TREE : Fld := ⟨.FAB_MCG, 0, 22, .rw, 0, .val 0⟩
/-- R423. -/
def FAB_MCG.LOCAL : Fld := ⟨.FAB_MCG, 22, 1, .rw, 0, .val 0⟩
/-- R423. -/
def FAB_MCG.LEP : Fld := ⟨.FAB_MCG, 23, 8, .rw, 0, .val 0⟩
/-- R423. -/
def FAB_MCG.MIDX : Fld := ⟨.FAB_MCG, 31, 6, .rw, 0, .val 0⟩
/-- R423. -/
def FAB_MCG.SEND : Fld := ⟨.FAB_MCG, 37, 1, .rw, 0, .val 0⟩
/-- R423. -/
def FAB_MCG.NMEMB_M1 : Fld := ⟨.FAB_MCG, 38, 6, .rw, 0, .val 0⟩
/-- R423. -/
def FAB_MCG.PART : Fld := ⟨.FAB_MCG, 44, 4, .rw, 0, .val 0⟩
/-- R423. -/
def FAB_MCG.WORLD : Fld := ⟨.FAB_MCG, 48, 1, .rw, 0, .val 0⟩
/-- R423. -/
def FAB_MCG.VALID : Fld := ⟨.FAB_MCG, 49, 1, .rw, 0, .val 0⟩

/-- R476. -/
def LANE_PCTL.GO : Fld := ⟨.LANE_PCTL, 0, 1, .w1s, 0, .val 0⟩
/-- R476. -/
def LANE_PCTL.GATE : Fld := ⟨.LANE_PCTL, 1, 1, .rw, 1, .val 1⟩
/-- R476. -/
def LANE_PCTL.USE_RET : Fld := ⟨.LANE_PCTL, 2, 1, .rw, 0, .val 0⟩
/-- R476. -/
def LANE_PCTL.LS1_EN : Fld := ⟨.LANE_PCTL, 3, 1, .rw, 0, .val 0⟩
/-- R476. -/
def LANE_PCTL.LS1_IDLE : Fld := ⟨.LANE_PCTL, 4, 12, .rw, 0, .val 0⟩
/-- R476. -/
def LANE_PCTL.LS2_REQ : Fld := ⟨.LANE_PCTL, 16, 1, .rw, 0, .val 0⟩
/-- R476. -/
def LANE_PCTL.LOOP : Fld := ⟨.LANE_PCTL, 17, 2, .rw, 0, .val 0⟩
/-- R476. -/
def LANE_PCTL.PRBS : Fld := ⟨.LANE_PCTL, 19, 1, .rw, 0, .val 0⟩
/-- R476. -/
def LANE_PCTL.FORCE_OUT : Fld := ⟨.LANE_PCTL, 20, 5, .w1s, 0, .val 0⟩
/-- R476. -/
def LANE_PCTL.LASER_SWAP : Fld := ⟨.LANE_PCTL, 25, 1, .w1s, 0, .val 0⟩
/-- R476. -/
def LANE_PCTL.SWAP_LANE : Fld := ⟨.LANE_PCTL, 26, 3, .rw, 0, .val 0⟩
/-- R476. -/
def LANE_PCTL.REJ : Fld := ⟨.LANE_PCTL, 63, 1, .w1c, 0, .val 0⟩

/-- R477. -/
def LANE_PSTAT.STAGE : Fld := ⟨.LANE_PSTAT, 0, 4, .ro, 0, .val 0⟩
/-- R477. -/
def LANE_PSTAT.LSTATE : Fld := ⟨.LANE_PSTAT, 4, 2, .ro, 3, .val 3⟩
/-- R477. -/
def LANE_PSTAT.TX_MAP : Fld := ⟨.LANE_PSTAT, 6, 5, .ro, 0, .keep⟩
/-- R477. -/
def LANE_PSTAT.RX_MAP : Fld := ⟨.LANE_PSTAT, 11, 5, .ro, 0, .keep⟩
/-- R477. -/
def LANE_PSTAT.RETAINED : Fld := ⟨.LANE_PSTAT, 16, 1, .ro, 0, .keep⟩
/-- R477. -/
def LANE_PSTAT.FULL : Fld := ⟨.LANE_PSTAT, 17, 1, .ro, 0, .val 0⟩
/-- R477. -/
def LANE_PSTAT.GATE_DONE : Fld := ⟨.LANE_PSTAT, 18, 1, .ro, 0, .keep⟩
/-- R477. -/
def LANE_PSTAT.SLASER : Fld := ⟨.LANE_PSTAT, 19, 3, .ro, 7, .keep⟩
/-- R477. -/
def LANE_PSTAT.SKEW : Fld := ⟨.LANE_PSTAT, 22, 8, .ro, 0, .keep⟩
/-- R477. -/
def LANE_PSTAT.CTRL_DISC : Fld := ⟨.LANE_PSTAT, 30, 16, .ro, 0, .val 0⟩

/-- R478. -/
def LANE_TAPS.PRE2 : Fld := ⟨.LANE_TAPS, 0, 8, .ro, 0, .keep⟩
/-- R478. -/
def LANE_TAPS.PRE1 : Fld := ⟨.LANE_TAPS, 8, 8, .ro, 0, .keep⟩
/-- R478. -/
def LANE_TAPS.MAIN : Fld := ⟨.LANE_TAPS, 16, 8, .ro, 64, .keep⟩
/-- R478. -/
def LANE_TAPS.POST1 : Fld := ⟨.LANE_TAPS, 24, 8, .ro, 0, .keep⟩
/-- R478. -/
def LANE_TAPS.POST2 : Fld := ⟨.LANE_TAPS, 32, 8, .ro, 0, .keep⟩
/-- R478. -/
def LANE_TAPS.PRESET : Fld := ⟨.LANE_TAPS, 40, 3, .ro, 0, .keep⟩
/-- R478. -/
def LANE_TAPS.REQS : Fld := ⟨.LANE_TAPS, 43, 9, .ro, 0, .keep⟩

/-- R479. -/
def LANE_MON.CV : Fld := ⟨.LANE_MON, 0, 16, .ro, 0, .val 0⟩
/-- R479. -/
def LANE_MON.PRBS_ERR : Fld := ⟨.LANE_MON, 16, 16, .ro, 0, .val 0⟩
/-- R479. -/
def LANE_MON.H_MARGIN : Fld := ⟨.LANE_MON, 32, 6, .ro, 0, .val 0⟩
/-- R479. -/
def LANE_MON.V_MARGIN : Fld := ⟨.LANE_MON, 38, 8, .ro, 0, .val 0⟩
/-- R479. -/
def LANE_MON.FAILED : Fld := ⟨.LANE_MON, 46, 1, .ro, 0, .keep⟩
/-- R479. -/
def LANE_MON.LOS : Fld := ⟨.LANE_MON, 47, 1, .ro, 0, .val 0⟩
/-- R479. -/
def LANE_MON.LOGICAL : Fld := ⟨.LANE_MON, 48, 3, .ro, 7, .keep⟩
/-- R479. -/
def LANE_MON.GATE_OK : Fld := ⟨.LANE_MON, 51, 1, .ro, 0, .keep⟩

/-- R492. -/
def LANE_OPT.RX_PWR : Fld := ⟨.LANE_OPT, 0, 16, .ro, 0, .val 0⟩
/-- R492. -/
def LANE_OPT.TX_PWR : Fld := ⟨.LANE_OPT, 16, 16, .ro, 0, .val 0⟩
/-- R492. -/
def LANE_OPT.BREFL : Fld := ⟨.LANE_OPT, 32, 16, .ro, 0, .val 0⟩
/-- R492. -/
def LANE_OPT.BIAS : Fld := ⟨.LANE_OPT, 48, 16, .ro, 0, .val 0⟩

/-- R498. -/
def COLL_GRP.VALID : Fld := ⟨.COLL_GRP, 0, 1, .rw, 0, .val 0⟩
/-- R498. -/
def COLL_GRP.WORLD : Fld := ⟨.COLL_GRP, 1, 1, .rw, 0, .val 0⟩
/-- R498. -/
def COLL_GRP.PART : Fld := ⟨.COLL_GRP, 2, 4, .rw, 0, .val 0⟩
/-- R498. -/
def COLL_GRP.N_M1 : Fld := ⟨.COLL_GRP, 8, 14, .rw, 0, .val 0⟩
/-- R498. -/
def COLL_GRP.MYIDX : Fld := ⟨.COLL_GRP, 24, 14, .rw, 0, .val 0⟩
/-- R498. -/
def COLL_GRP.PRED : Fld := ⟨.COLL_GRP, 40, 22, .rw, 0, .val 0⟩
/-- R498. -/
def COLL_GRP.REJ : Fld := ⟨.COLL_GRP, 63, 1, .w1c, 0, .val 0⟩
/-- R498. -/
def COLL_GRP.SUCC : Fld := ⟨.COLL_GRP, 64, 22, .rw, 0, .val 0⟩
/-- R498. -/
def COLL_GRP.LIST : Fld := ⟨.COLL_GRP, 86, 42, .rw, 0, .val 0⟩

/-- R549. -/
def GCTL_RCLASS.ARITH : Fld := ⟨.GCTL_RCLASS, 0, 8, .ro, 1, .val 1⟩
/-- R549. -/
def GCTL_RCLASS.ATT : Fld := ⟨.GCTL_RCLASS, 8, 8, .ro, 1, .val 1⟩
/-- R549. -/
def GCTL_RCLASS.COLL : Fld := ⟨.GCTL_RCLASS, 16, 8, .ro, 1, .val 1⟩
/-- R549. -/
def GCTL_RCLASS.MCODE : Fld := ⟨.GCTL_RCLASS, 24, 8, .ro, 0, .val 0⟩
/-- R549. -/
def GCTL_RCLASS.VALID : Fld := ⟨.GCTL_RCLASS, 32, 1, .ro, 0, .val 0⟩

/-- R568. -/
def SPARE_WEAR_CTL.WARN : Fld := ⟨.SPARE_WEAR_CTL, 0, 8, .rw, 30, .val 30⟩
/-- R568. -/
def SPARE_WEAR_CTL.PERIOD : Fld := ⟨.SPARE_WEAR_CTL, 8, 8, .rw, 10, .val 10⟩

/-- R569. -/
def SPARE_WEAR.DRIFT : Fld := ⟨.SPARE_WEAR, 0, 16, .ro, 0, .keep⟩
/-- R569. -/
def SPARE_WEAR.VS : Fld := ⟨.SPARE_WEAR, 16, 4, .ro, 0, .keep⟩
/-- R569. -/
def SPARE_WEAR.TJ : Fld := ⟨.SPARE_WEAR, 20, 8, .ro, 0, .keep⟩
/-- R569. -/
def SPARE_WEAR.USE : Fld := ⟨.SPARE_WEAR, 28, 2, .ro, 3, .keep⟩
/-- R569. -/
def SPARE_WEAR.WARNED : Fld := ⟨.SPARE_WEAR, 30, 1, .ro, 0, .keep⟩
/-- R569. -/
def SPARE_WEAR.TRANS : Fld := ⟨.SPARE_WEAR, 31, 3, .ro, 0, .keep⟩

/-- R570. -/
def SPARE_FENCE.GO : Fld := ⟨.SPARE_FENCE, 0, 1, .w1s, 0, .val 0⟩
/-- R570. -/
def SPARE_FENCE.BUSY : Fld := ⟨.SPARE_FENCE, 1, 1, .ro, 0, .val 0⟩
/-- R570. -/
def SPARE_FENCE.DONE : Fld := ⟨.SPARE_FENCE, 2, 1, .w1c, 0, .val 0⟩
/-- R570. -/
def SPARE_FENCE.REJ : Fld := ⟨.SPARE_FENCE, 3, 1, .w1c, 0, .val 0⟩
/-- R570. -/
def SPARE_FENCE.DRAIN : Fld := ⟨.SPARE_FENCE, 4, 1, .rw, 0, .val 0⟩
/-- R570. -/
def SPARE_FENCE.CANCEL : Fld := ⟨.SPARE_FENCE, 5, 1, .w1s, 0, .val 0⟩
/-- R570. -/
def SPARE_FENCE.KIND : Fld := ⟨.SPARE_FENCE, 6, 4, .rw, 0, .val 0⟩
/-- R570. -/
def SPARE_FENCE.UNIT : Fld := ⟨.SPARE_FENCE, 16, 32, .rw, 0, .val 0⟩
/-- R570. -/
def SPARE_FENCE.CCOUNT : Fld := ⟨.SPARE_FENCE, 48, 13, .ro, 0, .keep⟩
/-- R570. -/
def SPARE_FENCE.CFULL : Fld := ⟨.SPARE_FENCE, 61, 1, .ro, 0, .keep⟩

/-- R575. -/
def CULLET.KIND : Fld := ⟨.CULLET, 0, 4, .ro, 0, .keep⟩
/-- R575. -/
def CULLET.ORIGIN : Fld := ⟨.CULLET, 4, 2, .ro, 0, .keep⟩
/-- R575. -/
def CULLET.UNIT : Fld := ⟨.CULLET, 8, 32, .ro, 0, .keep⟩
/-- R575. -/
def CULLET.TSEC : Fld := ⟨.CULLET, 40, 24, .ro, 0, .keep⟩

/-- R592. -/
def SPARE_REPLAY_CTL.EN : Fld := ⟨.SPARE_REPLAY_CTL, 0, 1, .rw, 0, .val 0⟩
/-- R592. -/
def SPARE_REPLAY_CTL.TMO : Fld := ⟨.SPARE_REPLAY_CTL, 16, 16, .rw, 100, .val 100⟩

/-- R592. -/
def SPARE_REPLAY_STAT.STATE : Fld := ⟨.SPARE_REPLAY_STAT, 0, 2, .ro, 0, .val 0⟩
/-- R592. -/
def SPARE_REPLAY_STAT.VERDICT : Fld := ⟨.SPARE_REPLAY_STAT, 2, 3, .ro, 0, .keep⟩
/-- R592. -/
def SPARE_REPLAY_STAT.CTX : Fld := ⟨.SPARE_REPLAY_STAT, 5, 8, .ro, 0, .keep⟩
/-- R592. -/
def SPARE_REPLAY_STAT.DIE : Fld := ⟨.SPARE_REPLAY_STAT, 13, 2, .ro, 0, .keep⟩
/-- R592. -/
def SPARE_REPLAY_STAT.ROW : Fld := ⟨.SPARE_REPLAY_STAT, 15, 5, .ro, 0, .keep⟩
/-- R592. -/
def SPARE_REPLAY_STAT.COL : Fld := ⟨.SPARE_REPLAY_STAT, 20, 5, .ro, 0, .keep⟩
/-- R592. -/
def SPARE_REPLAY_STAT.QUEUED : Fld := ⟨.SPARE_REPLAY_STAT, 25, 4, .ro, 0, .val 0⟩

/-- R592. -/
def SPARE_REPLAY_EN.CTXS : Fld := ⟨.SPARE_REPLAY_EN, 0, 64, .rw, 0, .val 0⟩

/-- R596. -/
def SPARE_ESC.LIMIT : Fld := ⟨.SPARE_ESC, 0, 8, .rw, 8, .val 8⟩
/-- R596. -/
def SPARE_ESC.WINDOW : Fld := ⟨.SPARE_ESC, 8, 12, .rw, 60, .val 60⟩
/-- R596. -/
def SPARE_ESC.WITHDRAWN : Fld := ⟨.SPARE_ESC, 20, 1, .ro, 0, .val 0⟩
/-- R596. -/
def SPARE_ESC.COUNT : Fld := ⟨.SPARE_ESC, 32, 8, .ro, 0, .val 0⟩

/-- R597. -/
def SPARE_ABIND.VALID : Fld := ⟨.SPARE_ABIND, 0, 1, .rw, 0, .val 0⟩
/-- R597. -/
def SPARE_ABIND.RX : Fld := ⟨.SPARE_ABIND, 1, 1, .rw, 0, .val 0⟩
/-- R597. -/
def SPARE_ABIND.TX : Fld := ⟨.SPARE_ABIND, 2, 1, .rw, 0, .val 0⟩
/-- R597. -/
def SPARE_ABIND.CTX : Fld := ⟨.SPARE_ABIND, 3, 8, .rw, 0, .val 0⟩
/-- R597. -/
def SPARE_ABIND.REJ : Fld := ⟨.SPARE_ABIND, 63, 1, .w1c, 0, .val 0⟩

/-- R605. -/
def SPARE_ELOG_PTR.WCOUNT : Fld := ⟨.SPARE_ELOG_PTR, 0, 32, .ro, 0, .keep⟩
/-- R605. -/
def SPARE_ELOG_PTR.NOTIFY : Fld := ⟨.SPARE_ELOG_PTR, 32, 1, .rw, 0, .val 0⟩

/-- R607. -/
def ELOG.STAMP : Fld := ⟨.ELOG, 0, 64, .ro, 0, .keep⟩
/-- R607. -/
def ELOG.UNSYNC : Fld := ⟨.ELOG, 64, 1, .ro, 0, .keep⟩
/-- R607. -/
def ELOG.CODE : Fld := ⟨.ELOG, 72, 16, .ro, 0, .keep⟩
/-- R607. -/
def ELOG.KIND : Fld := ⟨.ELOG, 88, 4, .ro, 0, .keep⟩
/-- R607. -/
def ELOG.CTX_V : Fld := ⟨.ELOG, 92, 1, .ro, 0, .keep⟩
/-- R607. -/
def ELOG.CTX : Fld := ⟨.ELOG, 93, 8, .ro, 0, .keep⟩
/-- R607. -/
def ELOG.PART : Fld := ⟨.ELOG, 101, 4, .ro, 0, .keep⟩
/-- R607. -/
def ELOG.WORLD : Fld := ⟨.ELOG, 105, 1, .ro, 0, .keep⟩
/-- R607. -/
def ELOG.REPEAT : Fld := ⟨.ELOG, 112, 16, .ro, 0, .keep⟩
/-- R607. -/
def ELOG.SEQ : Fld := ⟨.ELOG, 128, 32, .ro, 0, .keep⟩
/-- R607. -/
def ELOG.UNIT : Fld := ⟨.ELOG, 160, 32, .ro, 0, .keep⟩
/-- R607. -/
def ELOG.DATA : Fld := ⟨.ELOG, 192, 320, .ro, 0, .keep⟩

/-- R612. -/
def SPARE_DUMP.USED : Fld := ⟨.SPARE_DUMP, 0, 8, .w1c, 0, .keep⟩
/-- R612. -/
def SPARE_DUMP.TAKE : Fld := ⟨.SPARE_DUMP, 8, 1, .w1s, 0, .val 0⟩
/-- R612. -/
def SPARE_DUMP.BUSY : Fld := ⟨.SPARE_DUMP, 9, 1, .ro, 0, .val 0⟩
/-- R612. -/
def SPARE_DUMP.XGO : Fld := ⟨.SPARE_DUMP, 10, 1, .w1s, 0, .val 0⟩
/-- R612. -/
def SPARE_DUMP.XBUSY : Fld := ⟨.SPARE_DUMP, 11, 1, .ro, 0, .val 0⟩
/-- R612. -/
def SPARE_DUMP.XDONE : Fld := ⟨.SPARE_DUMP, 12, 1, .w1c, 0, .val 0⟩
/-- R612. -/
def SPARE_DUMP.REJ : Fld := ⟨.SPARE_DUMP, 13, 1, .w1c, 0, .val 0⟩
/-- R612. -/
def SPARE_DUMP.XSLOT : Fld := ⟨.SPARE_DUMP, 14, 3, .rw, 0, .val 0⟩
/-- R612. -/
def SPARE_DUMP.DROPPED : Fld := ⟨.SPARE_DUMP, 17, 8, .ro, 0, .keep⟩
/-- R612. -/
def SPARE_DUMP.XOFF : Fld := ⟨.SPARE_DUMP, 32, 15, .rw, 0, .val 0⟩
/-- R612. -/
def SPARE_DUMP.XLEN_M1 : Fld := ⟨.SPARE_DUMP, 47, 15, .rw, 0, .val 0⟩
/-- R612. -/
def SPARE_DUMP.XDST : Fld := ⟨.SPARE_DUMP, 64, 36, .rw, 0, .val 0⟩

/-- R619. -/
def SPARE_PAIR.PARTNER : Fld := ⟨.SPARE_PAIR, 0, 14, .rw, 0, .val 0⟩
/-- R619. -/
def SPARE_PAIR.VALID : Fld := ⟨.SPARE_PAIR, 14, 1, .rw, 0, .val 0⟩
/-- R619. -/
def SPARE_PAIR.REQ : Fld := ⟨.SPARE_PAIR, 16, 2, .rw, 0, .val 0⟩
/-- R619. -/
def SPARE_PAIR.REJ : Fld := ⟨.SPARE_PAIR, 63, 1, .w1c, 0, .val 0⟩

/-- R619. -/
def SPARE_PAIR_STATE.ROLE : Fld := ⟨.SPARE_PAIR_STATE, 0, 3, .ro, 0, .val 0⟩
/-- R619. -/
def SPARE_PAIR_STATE.LEASED : Fld := ⟨.SPARE_PAIR_STATE, 3, 1, .ro, 0, .val 0⟩
/-- R619. -/
def SPARE_PAIR_STATE.ARMED : Fld := ⟨.SPARE_PAIR_STATE, 4, 1, .ro, 0, .val 0⟩
/-- R619. -/
def SPARE_PAIR_STATE.SRC : Fld := ⟨.SPARE_PAIR_STATE, 5, 1, .ro, 0, .val 0⟩
/-- R619. -/
def SPARE_PAIR_STATE.PROMO : Fld := ⟨.SPARE_PAIR_STATE, 16, 16, .ro, 0, .val 0⟩
/-- R619. -/
def SPARE_PAIR_STATE.LEFT : Fld := ⟨.SPARE_PAIR_STATE, 32, 32, .ro, 0, .val 0⟩

/-- R628. -/
def SPARE_RESYNC.GO : Fld := ⟨.SPARE_RESYNC, 0, 1, .w1s, 0, .val 0⟩
/-- R628. -/
def SPARE_RESYNC.SWITCH : Fld := ⟨.SPARE_RESYNC, 1, 1, .w1s, 0, .val 0⟩
/-- R628. -/
def SPARE_RESYNC.BUSY : Fld := ⟨.SPARE_RESYNC, 2, 1, .ro, 0, .val 0⟩
/-- R628. -/
def SPARE_RESYNC.DONE : Fld := ⟨.SPARE_RESYNC, 3, 1, .w1c, 0, .val 0⟩
/-- R628. -/
def SPARE_RESYNC.FAIL : Fld := ⟨.SPARE_RESYNC, 4, 1, .w1c, 0, .val 0⟩
/-- R628. -/
def SPARE_RESYNC.REJ : Fld := ⟨.SPARE_RESYNC, 5, 1, .w1c, 0, .val 0⟩
/-- R628. -/
def SPARE_RESYNC.RATE : Fld := ⟨.SPARE_RESYNC, 6, 5, .rw, 16, .val 16⟩
/-- R628. -/
def SPARE_RESYNC.NLIST_M1 : Fld := ⟨.SPARE_RESYNC, 11, 8, .rw, 0, .val 0⟩
/-- R628. -/
def SPARE_RESYNC.DIRTY : Fld := ⟨.SPARE_RESYNC, 32, 32, .ro, 0, .val 0⟩

/-- R628. -/
def SPARE_RSLIST.FIRST : Fld := ⟨.SPARE_RSLIST, 0, 18, .rw, 0, .val 0⟩
/-- R628. -/
def SPARE_RSLIST.LAST : Fld := ⟨.SPARE_RSLIST, 18, 18, .rw, 0, .val 0⟩
/-- R628. -/
def SPARE_RSLIST.PART : Fld := ⟨.SPARE_RSLIST, 36, 4, .rw, 0, .val 0⟩

/-- R636. -/
def GCTL_BOOT_CTL.GO : Fld := ⟨.GCTL_BOOT_CTL, 0, 1, .w1s, 0, .val 0⟩
/-- R636. -/
def GCTL_BOOT_CTL.STEP : Fld := ⟨.GCTL_BOOT_CTL, 1, 4, .rw, 0, .val 0⟩
/-- R636. -/
def GCTL_BOOT_CTL.SAFE : Fld := ⟨.GCTL_BOOT_CTL, 5, 1, .rw, 0, .val 0⟩
/-- R636. -/
def GCTL_BOOT_CTL.FULL_ST : Fld := ⟨.GCTL_BOOT_CTL, 6, 1, .rw, 0, .val 0⟩
/-- R636. -/
def GCTL_BOOT_CTL.WRESET : Fld := ⟨.GCTL_BOOT_CTL, 7, 1, .w1s, 0, .val 0⟩
/-- R636. -/
def GCTL_BOOT_CTL.ARG : Fld := ⟨.GCTL_BOOT_CTL, 16, 48, .rw, 0, .val 0⟩

/-- R637. -/
def GCTL_BOOT_STAT.STEP : Fld := ⟨.GCTL_BOOT_STAT, 0, 4, .ro, 1, .val 1⟩
/-- R637. -/
def GCTL_BOOT_STAT.RESULT : Fld := ⟨.GCTL_BOOT_STAT, 4, 2, .ro, 0, .val 0⟩
/-- R637. -/
def GCTL_BOOT_STAT.SAFE_MODE : Fld := ⟨.GCTL_BOOT_STAT, 6, 1, .ro, 0, .keep⟩
/-- R637. -/
def GCTL_BOOT_STAT.WARM : Fld := ⟨.GCTL_BOOT_STAT, 7, 1, .ro, 0, .val 1⟩
/-- R637. -/
def GCTL_BOOT_STAT.FAST : Fld := ⟨.GCTL_BOOT_STAT, 8, 1, .ro, 0, .keep⟩
/-- R637. -/
def GCTL_BOOT_STAT.REJ : Fld := ⟨.GCTL_BOOT_STAT, 9, 1, .w1c, 0, .val 0⟩
/-- R637. -/
def GCTL_BOOT_STAT.CODE : Fld := ⟨.GCTL_BOOT_STAT, 16, 16, .ro, 0, .val 0⟩
/-- R637. -/
def GCTL_BOOT_STAT.PASSED : Fld := ⟨.GCTL_BOOT_STAT, 32, 12, .ro, 0, .val 0⟩

/-- R647. -/
def CAL_STAT.ORIGIN : Fld := ⟨.CAL_STAT, 0, 2, .ro, 0, .keep⟩
/-- R647. -/
def CAL_STAT.OPEN : Fld := ⟨.CAL_STAT, 2, 1, .ro, 0, .val 0⟩
/-- R647. -/
def CAL_STAT.REJ : Fld := ⟨.CAL_STAT, 3, 1, .w1c, 0, .val 0⟩

/-- R648. -/
def CAL_DIGEST.DIGEST : Fld := ⟨.CAL_DIGEST, 0, 64, .ro, 0, .keep⟩

/-- R685. -/
def PWR_RAIL.VOUT : Fld := ⟨.PWR_RAIL, 0, 16, .ro, 0, .val 0⟩
/-- R685. -/
def PWR_RAIL.IOUT : Fld := ⟨.PWR_RAIL, 16, 16, .ro, 0, .val 0⟩
/-- R685. -/
def PWR_RAIL.PH_IN : Fld := ⟨.PWR_RAIL, 32, 5, .ro, 0, .keep⟩
/-- R685. -/
def PWR_RAIL.DERATED : Fld := ⟨.PWR_RAIL, 37, 1, .ro, 0, .keep⟩
/-- R685. -/
def PWR_RAIL.LIMHIT : Fld := ⟨.PWR_RAIL, 38, 10, .ro, 0, .val 0⟩

/-- R693. -/
def PWR_POLICY.CAP : Fld := ⟨.PWR_POLICY, 0, 16, .rw, 4000, .val 4000⟩
/-- R693. -/
def PWR_POLICY.TTARGET : Fld := ⟨.PWR_POLICY, 16, 8, .rw, 90, .val 90⟩
/-- R693. -/
def PWR_POLICY.VS_MIN : Fld := ⟨.PWR_POLICY, 24, 4, .rw, 0, .val 0⟩
/-- R693. -/
def PWR_POLICY.VS_MAX : Fld := ⟨.PWR_POLICY, 28, 4, .rw, 8, .val 8⟩
/-- R693. -/
def PWR_POLICY.ADAPT : Fld := ⟨.PWR_POLICY, 32, 1, .rw, 0, .val 0⟩
/-- R693. -/
def PWR_POLICY.HINT_EN : Fld := ⟨.PWR_POLICY, 33, 1, .rw, 1, .val 1⟩
/-- R693. -/
def PWR_POLICY.SAFE_CAP : Fld := ⟨.PWR_POLICY, 34, 14, .rw, 2000, .keep⟩
/-- R693. -/
def PWR_POLICY.FLOW_SET : Fld := ⟨.PWR_POLICY, 48, 8, .rw, 60, .keep⟩
/-- R693. -/
def PWR_POLICY.REJ : Fld := ⟨.PWR_POLICY, 63, 1, .w1c, 0, .val 0⟩

/-- R694. -/
def PWR_RACK.RCAP : Fld := ⟨.PWR_RACK, 0, 16, .ro, 4000, .keep⟩
/-- R694. -/
def PWR_RACK.AUTO : Fld := ⟨.PWR_RACK, 16, 1, .ro, 0, .keep⟩
/-- R694. -/
def PWR_RACK.HB_ARMED : Fld := ⟨.PWR_RACK, 17, 1, .ro, 0, .keep⟩

/-- R695. -/
def PWR_STATUS.PIN : Fld := ⟨.PWR_STATUS, 0, 16, .ro, 0, .val 0⟩
/-- R695. -/
def PWR_STATUS.VIN : Fld := ⟨.PWR_STATUS, 16, 16, .ro, 0, .val 0⟩
/-- R695. -/
def PWR_STATUS.ECAP : Fld := ⟨.PWR_STATUS, 32, 16, .ro, 4000, .val 4000⟩
/-- R695. -/
def PWR_STATUS.BIND : Fld := ⟨.PWR_STATUS, 48, 3, .ro, 0, .val 0⟩
/-- R695. -/
def PWR_STATUS.HOLD : Fld := ⟨.PWR_STATUS, 51, 1, .ro, 0, .val 0⟩
/-- R695. -/
def PWR_STATUS.FLOW_HOLD : Fld := ⟨.PWR_STATUS, 52, 1, .ro, 0, .val 0⟩

/-- R697. -/
def PWR_EVT.FLOOR : Fld := ⟨.PWR_EVT, 0, 16, .ro, 0, .val 0⟩
/-- R697. -/
def PWR_EVT.CLIP : Fld := ⟨.PWR_EVT, 16, 16, .ro, 0, .val 0⟩
/-- R697. -/
def PWR_EVT.HINT_IGN : Fld := ⟨.PWR_EVT, 32, 16, .ro, 0, .val 0⟩
/-- R697. -/
def PWR_EVT.HOLDS : Fld := ⟨.PWR_EVT, 48, 8, .ro, 0, .keep⟩
/-- R697. -/
def PWR_EVT.SINCE : Fld := ⟨.PWR_EVT, 56, 8, .ro, 255, .keep⟩

/-- R697. -/
def PWR_OVER.OVER_MJ : Fld := ⟨.PWR_OVER, 0, 32, .ro, 0, .val 0⟩
/-- R697. -/
def PWR_OVER.SETTLE : Fld := ⟨.PWR_OVER, 32, 16, .ro, 0, .val 0⟩

/-- R697. -/
def PWR_ENERGY.ENERGY : Fld := ⟨.PWR_ENERGY, 0, 64, .ro, 0, .keep⟩

/-- R710. -/
def PWR_THERM.TJ : Fld := ⟨.PWR_THERM, 0, 8, .ro, 0, .val 0⟩
/-- R710. -/
def PWR_THERM.TIN : Fld := ⟨.PWR_THERM, 8, 8, .ro, 255, .val 255⟩
/-- R710. -/
def PWR_THERM.TOUT : Fld := ⟨.PWR_THERM, 16, 8, .ro, 255, .val 255⟩
/-- R710. -/
def PWR_THERM.FLOW : Fld := ⟨.PWR_THERM, 24, 8, .ro, 0, .val 0⟩
/-- R710. -/
def PWR_THERM.THETA : Fld := ⟨.PWR_THERM, 32, 16, .ro, 2500, .val 2500⟩
/-- R710. -/
def PWR_THERM.TCAP : Fld := ⟨.PWR_THERM, 48, 16, .ro, 4000, .val 4000⟩

/-- R720. -/
def PWR_PSTATE.STATE : Fld := ⟨.PWR_PSTATE, 0, 3, .ro, 0, .val 0⟩
/-- R720. -/
def PWR_PSTATE.LEHR_EN : Fld := ⟨.PWR_PSTATE, 3, 1, .rw, 0, .val 0⟩
/-- R720. -/
def PWR_PSTATE.LEHR_FLOOR : Fld := ⟨.PWR_PSTATE, 4, 8, .rw, 45, .val 45⟩
/-- R720. -/
def PWR_PSTATE.PS4_REQ : Fld := ⟨.PWR_PSTATE, 12, 1, .w1s, 0, .val 0⟩
/-- R720. -/
def PWR_PSTATE.LEHR_SHORT : Fld := ⟨.PWR_PSTATE, 13, 1, .ro, 0, .val 0⟩
/-- R720. -/
def PWR_PSTATE.LEHR_W : Fld := ⟨.PWR_PSTATE, 16, 8, .ro, 0, .val 0⟩
/-- R720. -/
def PWR_PSTATE.REJ : Fld := ⟨.PWR_PSTATE, 63, 1, .w1c, 0, .val 0⟩

/-- R730. -/
def SEC_PART.VALID : Fld := ⟨.SEC_PART, 0, 1, .ro, 0, .val 0⟩
/-- R730. -/
def SEC_PART.PWORLD : Fld := ⟨.SEC_PART, 1, 1, .ro, 0, .val 0⟩
/-- R730. -/
def SEC_PART.DL : Fld := ⟨.SEC_PART, 2, 2, .ro, 0, .val 0⟩
/-- R730. -/
def SEC_PART.DL3_TOKEN : Fld := ⟨.SEC_PART, 4, 1, .ro, 0, .val 0⟩
/-- R730. -/
def SEC_PART.BUSY : Fld := ⟨.SEC_PART, 5, 1, .ro, 0, .val 0⟩
/-- R730. -/
def SEC_PART.KEYS : Fld := ⟨.SEC_PART, 64, 64, .ro, 0, .val 0⟩
/-- R730. -/
def SEC_PART.CL : Fld := ⟨.SEC_PART, 128, 256, .ro, 0, .val 0⟩
/-- R730. -/
def SEC_PART.CTXM : Fld := ⟨.SEC_PART, 384, 256, .ro, 0, .val 0⟩
/-- R730. -/
def SEC_PART.EPM : Fld := ⟨.SEC_PART, 640, 256, .ro, 0, .val 0⟩

/-- R731. -/
def SEC_CL_WORLD.W : Fld := ⟨.SEC_CL_WORLD, 0, 256, .rw, 0, .val 0⟩

/-- R737. -/
def SEC_CMD.GO : Fld := ⟨.SEC_CMD, 0, 1, .w1s, 0, .val 0⟩
/-- R737. -/
def SEC_CMD.BUSY : Fld := ⟨.SEC_CMD, 1, 1, .ro, 0, .val 0⟩
/-- R737. -/
def SEC_CMD.DONE : Fld := ⟨.SEC_CMD, 2, 1, .w1c, 0, .val 0⟩
/-- R737. -/
def SEC_CMD.REJ : Fld := ⟨.SEC_CMD, 3, 1, .w1c, 0, .val 0⟩
/-- R737. -/
def SEC_CMD.OP : Fld := ⟨.SEC_CMD, 4, 4, .rw, 0, .val 0⟩
/-- R737. -/
def SEC_CMD.FROM : Fld := ⟨.SEC_CMD, 8, 5, .rw, 0, .val 0⟩
/-- R737. -/
def SEC_CMD.TO : Fld := ⟨.SEC_CMD, 13, 5, .rw, 0, .val 0⟩
/-- R737. -/
def SEC_CMD.KIND : Fld := ⟨.SEC_CMD, 18, 2, .rw, 0, .val 0⟩
/-- R737. -/
def SEC_CMD.INDEX : Fld := ⟨.SEC_CMD, 20, 8, .rw, 0, .val 0⟩
/-- R737. -/
def SEC_CMD.DL : Fld := ⟨.SEC_CMD, 28, 2, .rw, 0, .val 0⟩
/-- R737. -/
def SEC_CMD.TLEN : Fld := ⟨.SEC_CMD, 31, 16, .rw, 0, .val 0⟩
/-- R737. -/
def SEC_CMD.CODE : Fld := ⟨.SEC_CMD, 48, 16, .ro, 0, .val 0⟩

/-- R747. -/
def SEC_LPEER.HASH : Fld := ⟨.SEC_LPEER, 0, 256, .rw, 0, .keep⟩
/-- R747. -/
def SEC_LPEER.ANY : Fld := ⟨.SEC_LPEER, 256, 1, .rw, 0, .keep⟩

/-- R758. -/
def SEC_ID_STAT.STATE : Fld := ⟨.SEC_ID_STAT, 0, 2, .ro, 0, .keep⟩
/-- R758. -/
def SEC_ID_STAT.EPOCH : Fld := ⟨.SEC_ID_STAT, 2, 15, .ro, 0, .keep⟩
/-- R758. -/
def SEC_ID_STAT.EPOCH_LEFT : Fld := ⟨.SEC_ID_STAT, 17, 16, .ro, 0, .keep⟩
/-- R758. -/
def SEC_ID_STAT.SIGS_LEFT : Fld := ⟨.SEC_ID_STAT, 33, 21, .ro, 0, .keep⟩

/-- R760. -/
def SEC_NONCE.NONCE : Fld := ⟨.SEC_NONCE, 0, 64, .ro, 0, .keep⟩

/-- R767. -/
def SEC_LIFE.LCS : Fld := ⟨.SEC_LIFE, 0, 3, .ro, 0, .keep⟩
/-- R767. -/
def SEC_LIFE.LCS_NEXT : Fld := ⟨.SEC_LIFE, 3, 3, .ro, 0, .keep⟩
/-- R767. -/
def SEC_LIFE.OWNER_BOUND : Fld := ⟨.SEC_LIFE, 6, 1, .ro, 0, .keep⟩
/-- R767. -/
def SEC_LIFE.OWNER_LOCK : Fld := ⟨.SEC_LIFE, 7, 1, .ro, 0, .keep⟩
/-- R767. -/
def SEC_LIFE.TRNG_OK : Fld := ⟨.SEC_LIFE, 8, 1, .ro, 0, .keep⟩

/-- R767. -/
def SEC_OWNER.OHASH : Fld := ⟨.SEC_OWNER, 0, 256, .ro, 0, .keep⟩

/-- R780. -/
def SEC_FWU_CTL.STAGE : Fld := ⟨.SEC_FWU_CTL, 0, 1, .w1s, 0, .val 0⟩
/-- R780. -/
def SEC_FWU_CTL.ACTIVATE : Fld := ⟨.SEC_FWU_CTL, 1, 1, .w1s, 0, .val 0⟩
/-- R780. -/
def SEC_FWU_CTL.ABANDON : Fld := ⟨.SEC_FWU_CTL, 2, 1, .w1s, 0, .val 0⟩
/-- R780. -/
def SEC_FWU_CTL.SVN_COMMIT : Fld := ⟨.SEC_FWU_CTL, 3, 1, .w1s, 0, .val 0⟩

/-- R780. -/
def SEC_FWU_SRC.BASE : Fld := ⟨.SEC_FWU_SRC, 0, 36, .rw, 0, .val 0⟩
/-- R780. -/
def SEC_FWU_SRC.LEN : Fld := ⟨.SEC_FWU_SRC, 36, 23, .rw, 0, .val 0⟩

/-- R780. -/
def SEC_FWU_T.T_ACT : Fld := ⟨.SEC_FWU_T, 0, 64, .rw, 0, .val 0⟩

/-- R780. -/
def SEC_FWU_STAT.STATE : Fld := ⟨.SEC_FWU_STAT, 0, 3, .ro, 0, .keep⟩
/-- R780. -/
def SEC_FWU_STAT.REJ : Fld := ⟨.SEC_FWU_STAT, 3, 1, .w1c, 0, .val 0⟩
/-- R780. -/
def SEC_FWU_STAT.DONE : Fld := ⟨.SEC_FWU_STAT, 4, 1, .w1c, 0, .val 0⟩
/-- R780. -/
def SEC_FWU_STAT.CODE : Fld := ⟨.SEC_FWU_STAT, 16, 16, .ro, 0, .keep⟩
/-- R780. -/
def SEC_FWU_STAT.REFUSE : Fld := ⟨.SEC_FWU_STAT, 32, 6, .ro, 0, .val 0⟩
/-- R780. -/
def SEC_FWU_STAT.PAUSE_MS : Fld := ⟨.SEC_FWU_STAT, 48, 8, .ro, 0, .keep⟩

/-- R780. -/
def SEC_SVN.SVN : Fld := ⟨.SEC_SVN, 0, 32, .ro, 0, .keep⟩

/-- R791. -/
def OBS_CL.TBUSY : Fld := ⟨.OBS_CL, 0, 48, .ro, 0, .keep⟩
/-- R791. -/
def OBS_CL.TWAIT : Fld := ⟨.OBS_CL, 64, 48, .ro, 0, .keep⟩
/-- R791. -/
def OBS_CL.VBUSY : Fld := ⟨.OBS_CL, 128, 48, .ro, 0, .keep⟩
/-- R791. -/
def OBS_CL.CE : Fld := ⟨.OBS_CL, 192, 16, .ro, 0, .keep⟩
/-- R791. -/
def OBS_CL.UE : Fld := ⟨.OBS_CL, 208, 16, .ro, 0, .keep⟩

/-- R795. -/
def OBS_PORT.HCRC_DROP : Fld := ⟨.OBS_PORT, 0, 16, .ro, 0, .val 0⟩
/-- R795. -/
def OBS_PORT.FILT_DROP : Fld := ⟨.OBS_PORT, 16, 16, .ro, 0, .val 0⟩
/-- R795. -/
def OBS_PORT.ROUTE_DROP : Fld := ⟨.OBS_PORT, 32, 16, .ro, 0, .val 0⟩
/-- R795. -/
def OBS_PORT.BAD_END : Fld := ⟨.OBS_PORT, 48, 16, .ro, 0, .val 0⟩

/-- R795. -/
def OBS_HUB.QRESP_UNM : Fld := ⟨.OBS_HUB, 0, 16, .ro, 0, .val 0⟩
/-- R795. -/
def OBS_HUB.TRACE_DROP : Fld := ⟨.OBS_HUB, 16, 16, .ro, 0, .val 0⟩
/-- R795. -/
def OBS_HUB.OBS_WAIT : Fld := ⟨.OBS_HUB, 32, 32, .ro, 0, .val 0⟩

/-- R797. -/
def OBS_TRACE.EN : Fld := ⟨.OBS_TRACE, 0, 1, .rw, 0, .val 0⟩
/-- R797. -/
def OBS_TRACE.CTX : Fld := ⟨.OBS_TRACE, 1, 8, .rw, 0, .val 0⟩
/-- R797. -/
def OBS_TRACE.MIN_NS : Fld := ⟨.OBS_TRACE, 9, 16, .rw, 0, .val 0⟩
/-- R797. -/
def OBS_TRACE.K : Fld := ⟨.OBS_TRACE, 25, 5, .rw, 0, .val 0⟩
/-- R797. -/
def OBS_TRACE.REJ : Fld := ⟨.OBS_TRACE, 63, 1, .w1c, 0, .val 0⟩
/-- R797. -/
def OBS_TRACE.BASE : Fld := ⟨.OBS_TRACE, 64, 36, .rw, 0, .val 0⟩
/-- R797. -/
def OBS_TRACE.WCOUNT : Fld := ⟨.OBS_TRACE, 128, 32, .ro, 0, .val 0⟩
/-- R797. -/
def OBS_TRACE.LOST : Fld := ⟨.OBS_TRACE, 160, 32, .ro, 0, .val 0⟩

/-- R802. -/
def OBS_DUMP.EN : Fld := ⟨.OBS_DUMP, 0, 1, .rw, 0, .val 0⟩
/-- R802. -/
def OBS_DUMP.CTX : Fld := ⟨.OBS_DUMP, 1, 8, .rw, 0, .val 0⟩
/-- R802. -/
def OBS_DUMP.LCORE : Fld := ⟨.OBS_DUMP, 9, 11, .rw, 0, .val 0⟩
/-- R802. -/
def OBS_DUMP.TAG : Fld := ⟨.OBS_DUMP, 20, 16, .rw, 0, .val 0⟩
/-- R802. -/
def OBS_DUMP.OCC : Fld := ⟨.OBS_DUMP, 36, 28, .rw, 0, .val 0⟩
/-- R802. -/
def OBS_DUMP.DST : Fld := ⟨.OBS_DUMP, 64, 48, .rw, 0, .val 0⟩
/-- R802. -/
def OBS_DUMP.MAXLEN : Fld := ⟨.OBS_DUMP, 128, 32, .rw, 0, .val 0⟩
/-- R802. -/
def OBS_DUMP.STATUS : Fld := ⟨.OBS_DUMP, 160, 2, .ro, 0, .val 0⟩
/-- R802. -/
def OBS_DUMP.TRUNC : Fld := ⟨.OBS_DUMP, 162, 1, .ro, 0, .val 0⟩
/-- R802. -/
def OBS_DUMP.REJ : Fld := ⟨.OBS_DUMP, 163, 1, .w1c, 0, .val 0⟩
/-- R802. -/
def OBS_DUMP.LEN : Fld := ⟨.OBS_DUMP, 192, 32, .ro, 0, .val 0⟩

/-- R811. -/
def OBS_FREEZE.GO : Fld := ⟨.OBS_FREEZE, 0, 1, .w1s, 0, .val 0⟩
/-- R811. -/
def OBS_FREEZE.RESUME : Fld := ⟨.OBS_FREEZE, 1, 1, .w1s, 0, .val 0⟩
/-- R811. -/
def OBS_FREEZE.CAPTURE : Fld := ⟨.OBS_FREEZE, 2, 1, .rw, 0, .val 0⟩
/-- R811. -/
def OBS_FREEZE.JOIN : Fld := ⟨.OBS_FREEZE, 3, 1, .rw, 0, .val 0⟩
/-- R811. -/
def OBS_FREEZE.ESTOP_CAP : Fld := ⟨.OBS_FREEZE, 4, 1, .rw, 0, .val 0⟩
/-- R811. -/
def OBS_FREEZE.STATE : Fld := ⟨.OBS_FREEZE, 5, 2, .ro, 0, .val 0⟩
/-- R811. -/
def OBS_FREEZE.PARTIAL : Fld := ⟨.OBS_FREEZE, 7, 1, .ro, 0, .val 0⟩
/-- R811. -/
def OBS_FREEZE.ID : Fld := ⟨.OBS_FREEZE, 8, 8, .rw, 0, .val 0⟩
/-- R811. -/
def OBS_FREEZE.ACT_ID : Fld := ⟨.OBS_FREEZE, 16, 8, .ro, 0, .val 0⟩
/-- R811. -/
def OBS_FREEZE.REJ : Fld := ⟨.OBS_FREEZE, 24, 1, .w1c, 0, .val 0⟩

/-- R838. -/
def GCTL_MGMT.DADDR : Fld := ⟨.GCTL_MGMT, 0, 7, .ro, 0, .keep⟩
/-- R838. -/
def GCTL_MGMT.DA_VALID : Fld := ⟨.GCTL_MGMT, 7, 1, .ro, 0, .keep⟩
/-- R838. -/
def GCTL_MGMT.EID : Fld := ⟨.GCTL_MGMT, 8, 8, .ro, 0, .keep⟩
/-- R838. -/
def GCTL_MGMT.SERVE : Fld := ⟨.GCTL_MGMT, 16, 22, .ro, 4194303, .keep⟩
/-- R838. -/
def GCTL_MGMT.DISAGREE : Fld := ⟨.GCTL_MGMT, 38, 22, .ro, 0, .val 0⟩
/-- R838. -/
def GCTL_MGMT.HANDOVER : Fld := ⟨.GCTL_MGMT, 60, 1, .ro, 0, .val 0⟩

/-- R417. -/
def FAB_CMP_MISMATCH.COUNT : Fld := ⟨.FAB_CMP_MISMATCH, 0, 64, .ro, 0, .val 0⟩

/-- The fields of a register, in bit order. -/
def Reg.fields : Reg → List Fld
  | .GCTL_PART_ID => [GCTL_PART_ID.SIZE, GCTL_PART_ID.GRADE, GCTL_PART_ID.STEP_NUM, GCTL_PART_ID.STEP_LTR, GCTL_PART_ID.VENDOR]
  | .GCTL_SERIAL => [GCTL_SERIAL.SERIAL]
  | .GCTL_ROLE => [GCTL_ROLE.ROLE, GCTL_ROLE.ROLE_ACT, GCTL_ROLE.PEND, GCTL_ROLE.SERVE_CL, GCTL_ROLE.REJ]
  | .TIME_RATE => [TIME_RATE.CD0, TIME_RATE.CD1, TIME_RATE.CD2, TIME_RATE.CD3]
  | .TIME_COUNT => [TIME_COUNT.COUNT]
  | .TIME_CTL => [TIME_CTL.PARENT, TIME_CTL.ROOT, TIME_CTL.SYNC_EN, TIME_CTL.REJ]
  | .TIME_STATUS => [TIME_STATUS.STATE, TIME_STATUS.UNSYNC, TIME_STATUS.DEPTH, TIME_STATUS.LATE, TIME_STATUS.OFFSET, TIME_STATUS.DELAY]
  | .GCTL_OWNER => [GCTL_OWNER.PWR, GCTL_OWNER.OBS, GCTL_OWNER.SPARE, GCTL_OWNER.TIME, GCTL_OWNER.REJ_HOST, GCTL_OWNER.REJ_MC]
  | .SPARE_CMAP => [SPARE_CMAP.M0, SPARE_CMAP.M1, SPARE_CMAP.M2, SPARE_CMAP.M3, SPARE_CMAP.M4, SPARE_CMAP.M5, SPARE_CMAP.M6, SPARE_CMAP.M7, SPARE_CMAP.SPARE_POS, SPARE_CMAP.PCLUST, SPARE_CMAP.ABSENT, SPARE_CMAP.VALID]
  | .GCTL_SEQTAB => [GCTL_SEQTAB.EN, GCTL_SEQTAB.REJ, GCTL_SEQTAB.BASE, GCTL_SEQTAB.N_M1]
  | .MEM_HOST => [MEM_HOST.EN, MEM_HOST.BASE, MEM_HOST.SIZE_M1, MEM_HOST.REJ]
  | .MEM_RGN => [MEM_RGN.VALID, MEM_RGN.WORLD, MEM_RGN.KEY, MEM_RGN.RD, MEM_RGN.WR, MEM_RGN.FETCH, MEM_RGN.ATOM, MEM_RGN.FGET, MEM_RGN.FPUT, MEM_RGN.BASE, MEM_RGN.LIMIT]
  | .MEM_RGN_STATUS => [MEM_RGN_STATUS.PEND, MEM_RGN_STATUS.REJ]
  | .MEM_FILL_CTL => [MEM_FILL_CTL.GO, MEM_FILL_CTL.BUSY, MEM_FILL_CTL.DONE, MEM_FILL_CTL.REJ, MEM_FILL_CTL.KEY, MEM_FILL_CTL.FIRST, MEM_FILL_CTL.NUM_M1]
  | .MEM_REPAIR_CMD => [MEM_REPAIR_CMD.GO, MEM_REPAIR_CMD.BUSY, MEM_REPAIR_CMD.REJ, MEM_REPAIR_CMD.FULL, MEM_REPAIR_CMD.STACK, MEM_REPAIR_CMD.OP, MEM_REPAIR_CMD.PC, MEM_REPAIR_CMD.ROW]
  | .MEM_STK_STATUS => [MEM_STK_STATUS.TRAINED, MEM_STK_STATUS.FENCED, MEM_STK_STATUS.SREF, MEM_STK_STATUS.SPC_USED, MEM_STK_STATUS.ROWS_USED, MEM_STK_STATUS.CE_COUNT, MEM_STK_STATUS.TEMP]
  | .MEM_TRAIN => [MEM_TRAIN.GO, MEM_TRAIN.BUSY, MEM_TRAIN.RETAINED, MEM_TRAIN.DONE, MEM_TRAIN.FAIL]
  | .CFE_RING_CMD => [CFE_RING_CMD.EN, CFE_RING_CMD.K, CFE_RING_CMD.BASE, CFE_RING_CMD.REJ]
  | .CFE_RING_CPL => [CFE_RING_CPL.NOTIFY_EN, CFE_RING_CPL.J, CFE_RING_CPL.BASE, CFE_RING_CPL.VEC]
  | .CFE_RING_PTR => [CFE_RING_PTR.HEAD, CFE_RING_PTR.TAIL]
  | .CFE_RING_CPTR => [CFE_RING_CPTR.CHEAD, CFE_RING_CPTR.CTAIL]
  | .CTX_CFG => [CTX_CFG.EN, CTX_CFG.PART, CTX_CFG.WORLD, CTX_CFG.HANG, CTX_CFG.WAKE, CTX_CFG.REJ]
  | .CTX_STATE => [CTX_STATE.STATE, CTX_STATE.LAST_ERR, CTX_STATE.RESETS]
  | .CTX_DIV => [CTX_DIV.DIV]
  | .CTX_CTL => [CTX_CTL.RESET, CTX_CTL.RESUME, CTX_CTL.DIV_CLR]
  | .CFE_WAKE => [CFE_WAKE.WAKE]
  | .FAB_EP => [FAB_EP.VALID, FAB_EP.PART, FAB_EP.WORLD, FAB_EP.CTX, FAB_EP.RX_EN, FAB_EP.REJ]
  | .FAB_EPCNT => [FAB_EPCNT.DONE, FAB_EPCNT.FAILED]
  | .FAB_CTL => [FAB_CTL.SLOT, FAB_CTL.TRAY, FAB_CTL.RACK, FAB_CTL.NRACK_M1, FAB_CTL.EN, FAB_CTL.MODE, FAB_CTL.REJ]
  | .FAB_LOCAL => [FAB_LOCAL.MASK, FAB_LOCAL.REJ]
  | .FAB_RACK => [FAB_RACK.EXIT_POS, FAB_RACK.EXIT_G, FAB_RACK.VALID, FAB_RACK.DETOUR, FAB_RACK.DGMASK, FAB_RACK.REJ]
  | .FAB_PORT => [FAB_PORT.PMASK, FAB_PORT.S_OK, FAB_PORT.DOWN_REQ, FAB_PORT.INSERV, FAB_PORT.LINK_UP, FAB_PORT.LANES, FAB_PORT.PARTNER]
  | .FAB_XPORT => [FAB_XPORT.WIN, FAB_XPORT.RTO, FAB_XPORT.RETRY, FAB_XPORT.STALL, FAB_XPORT.IDLE, FAB_XPORT.REJ]
  | .FAB_PAIR => [FAB_PAIR.PARTNER, FAB_PAIR.VALID, FAB_PAIR.CMP]
  | .FAB_MCG => [FAB_MCG.TREE, FAB_MCG.LOCAL, FAB_MCG.LEP, FAB_MCG.MIDX, FAB_MCG.SEND, FAB_MCG.NMEMB_M1, FAB_MCG.PART, FAB_MCG.WORLD, FAB_MCG.VALID]
  | .LANE_PCTL => [LANE_PCTL.GO, LANE_PCTL.GATE, LANE_PCTL.USE_RET, LANE_PCTL.LS1_EN, LANE_PCTL.LS1_IDLE, LANE_PCTL.LS2_REQ, LANE_PCTL.LOOP, LANE_PCTL.PRBS, LANE_PCTL.FORCE_OUT, LANE_PCTL.LASER_SWAP, LANE_PCTL.SWAP_LANE, LANE_PCTL.REJ]
  | .LANE_PSTAT => [LANE_PSTAT.STAGE, LANE_PSTAT.LSTATE, LANE_PSTAT.TX_MAP, LANE_PSTAT.RX_MAP, LANE_PSTAT.RETAINED, LANE_PSTAT.FULL, LANE_PSTAT.GATE_DONE, LANE_PSTAT.SLASER, LANE_PSTAT.SKEW, LANE_PSTAT.CTRL_DISC]
  | .LANE_TAPS => [LANE_TAPS.PRE2, LANE_TAPS.PRE1, LANE_TAPS.MAIN, LANE_TAPS.POST1, LANE_TAPS.POST2, LANE_TAPS.PRESET, LANE_TAPS.REQS]
  | .LANE_MON => [LANE_MON.CV, LANE_MON.PRBS_ERR, LANE_MON.H_MARGIN, LANE_MON.V_MARGIN, LANE_MON.FAILED, LANE_MON.LOS, LANE_MON.LOGICAL, LANE_MON.GATE_OK]
  | .LANE_OPT => [LANE_OPT.RX_PWR, LANE_OPT.TX_PWR, LANE_OPT.BREFL, LANE_OPT.BIAS]
  | .COLL_GRP => [COLL_GRP.VALID, COLL_GRP.WORLD, COLL_GRP.PART, COLL_GRP.N_M1, COLL_GRP.MYIDX, COLL_GRP.PRED, COLL_GRP.REJ, COLL_GRP.SUCC, COLL_GRP.LIST]
  | .GCTL_RCLASS => [GCTL_RCLASS.ARITH, GCTL_RCLASS.ATT, GCTL_RCLASS.COLL, GCTL_RCLASS.MCODE, GCTL_RCLASS.VALID]
  | .SPARE_WEAR_CTL => [SPARE_WEAR_CTL.WARN, SPARE_WEAR_CTL.PERIOD]
  | .SPARE_WEAR => [SPARE_WEAR.DRIFT, SPARE_WEAR.VS, SPARE_WEAR.TJ, SPARE_WEAR.USE, SPARE_WEAR.WARNED, SPARE_WEAR.TRANS]
  | .SPARE_FENCE => [SPARE_FENCE.GO, SPARE_FENCE.BUSY, SPARE_FENCE.DONE, SPARE_FENCE.REJ, SPARE_FENCE.DRAIN, SPARE_FENCE.CANCEL, SPARE_FENCE.KIND, SPARE_FENCE.UNIT, SPARE_FENCE.CCOUNT, SPARE_FENCE.CFULL]
  | .CULLET => [CULLET.KIND, CULLET.ORIGIN, CULLET.UNIT, CULLET.TSEC]
  | .SPARE_REPLAY_CTL => [SPARE_REPLAY_CTL.EN, SPARE_REPLAY_CTL.TMO]
  | .SPARE_REPLAY_STAT => [SPARE_REPLAY_STAT.STATE, SPARE_REPLAY_STAT.VERDICT, SPARE_REPLAY_STAT.CTX, SPARE_REPLAY_STAT.DIE, SPARE_REPLAY_STAT.ROW, SPARE_REPLAY_STAT.COL, SPARE_REPLAY_STAT.QUEUED]
  | .SPARE_REPLAY_EN => [SPARE_REPLAY_EN.CTXS]
  | .SPARE_ESC => [SPARE_ESC.LIMIT, SPARE_ESC.WINDOW, SPARE_ESC.WITHDRAWN, SPARE_ESC.COUNT]
  | .SPARE_ABIND => [SPARE_ABIND.VALID, SPARE_ABIND.RX, SPARE_ABIND.TX, SPARE_ABIND.CTX, SPARE_ABIND.REJ]
  | .SPARE_ELOG_PTR => [SPARE_ELOG_PTR.WCOUNT, SPARE_ELOG_PTR.NOTIFY]
  | .ELOG => [ELOG.STAMP, ELOG.UNSYNC, ELOG.CODE, ELOG.KIND, ELOG.CTX_V, ELOG.CTX, ELOG.PART, ELOG.WORLD, ELOG.REPEAT, ELOG.SEQ, ELOG.UNIT, ELOG.DATA]
  | .SPARE_DUMP => [SPARE_DUMP.USED, SPARE_DUMP.TAKE, SPARE_DUMP.BUSY, SPARE_DUMP.XGO, SPARE_DUMP.XBUSY, SPARE_DUMP.XDONE, SPARE_DUMP.REJ, SPARE_DUMP.XSLOT, SPARE_DUMP.DROPPED, SPARE_DUMP.XOFF, SPARE_DUMP.XLEN_M1, SPARE_DUMP.XDST]
  | .SPARE_PAIR => [SPARE_PAIR.PARTNER, SPARE_PAIR.VALID, SPARE_PAIR.REQ, SPARE_PAIR.REJ]
  | .SPARE_PAIR_STATE => [SPARE_PAIR_STATE.ROLE, SPARE_PAIR_STATE.LEASED, SPARE_PAIR_STATE.ARMED, SPARE_PAIR_STATE.SRC, SPARE_PAIR_STATE.PROMO, SPARE_PAIR_STATE.LEFT]
  | .SPARE_RESYNC => [SPARE_RESYNC.GO, SPARE_RESYNC.SWITCH, SPARE_RESYNC.BUSY, SPARE_RESYNC.DONE, SPARE_RESYNC.FAIL, SPARE_RESYNC.REJ, SPARE_RESYNC.RATE, SPARE_RESYNC.NLIST_M1, SPARE_RESYNC.DIRTY]
  | .SPARE_RSLIST => [SPARE_RSLIST.FIRST, SPARE_RSLIST.LAST, SPARE_RSLIST.PART]
  | .GCTL_BOOT_CTL => [GCTL_BOOT_CTL.GO, GCTL_BOOT_CTL.STEP, GCTL_BOOT_CTL.SAFE, GCTL_BOOT_CTL.FULL_ST, GCTL_BOOT_CTL.WRESET, GCTL_BOOT_CTL.ARG]
  | .GCTL_BOOT_STAT => [GCTL_BOOT_STAT.STEP, GCTL_BOOT_STAT.RESULT, GCTL_BOOT_STAT.SAFE_MODE, GCTL_BOOT_STAT.WARM, GCTL_BOOT_STAT.FAST, GCTL_BOOT_STAT.REJ, GCTL_BOOT_STAT.CODE, GCTL_BOOT_STAT.PASSED]
  | .CAL_STAT => [CAL_STAT.ORIGIN, CAL_STAT.OPEN, CAL_STAT.REJ]
  | .CAL_DIGEST => [CAL_DIGEST.DIGEST]
  | .PWR_RAIL => [PWR_RAIL.VOUT, PWR_RAIL.IOUT, PWR_RAIL.PH_IN, PWR_RAIL.DERATED, PWR_RAIL.LIMHIT]
  | .PWR_POLICY => [PWR_POLICY.CAP, PWR_POLICY.TTARGET, PWR_POLICY.VS_MIN, PWR_POLICY.VS_MAX, PWR_POLICY.ADAPT, PWR_POLICY.HINT_EN, PWR_POLICY.SAFE_CAP, PWR_POLICY.FLOW_SET, PWR_POLICY.REJ]
  | .PWR_RACK => [PWR_RACK.RCAP, PWR_RACK.AUTO, PWR_RACK.HB_ARMED]
  | .PWR_STATUS => [PWR_STATUS.PIN, PWR_STATUS.VIN, PWR_STATUS.ECAP, PWR_STATUS.BIND, PWR_STATUS.HOLD, PWR_STATUS.FLOW_HOLD]
  | .PWR_EVT => [PWR_EVT.FLOOR, PWR_EVT.CLIP, PWR_EVT.HINT_IGN, PWR_EVT.HOLDS, PWR_EVT.SINCE]
  | .PWR_OVER => [PWR_OVER.OVER_MJ, PWR_OVER.SETTLE]
  | .PWR_ENERGY => [PWR_ENERGY.ENERGY]
  | .PWR_THERM => [PWR_THERM.TJ, PWR_THERM.TIN, PWR_THERM.TOUT, PWR_THERM.FLOW, PWR_THERM.THETA, PWR_THERM.TCAP]
  | .PWR_PSTATE => [PWR_PSTATE.STATE, PWR_PSTATE.LEHR_EN, PWR_PSTATE.LEHR_FLOOR, PWR_PSTATE.PS4_REQ, PWR_PSTATE.LEHR_SHORT, PWR_PSTATE.LEHR_W, PWR_PSTATE.REJ]
  | .SEC_PART => [SEC_PART.VALID, SEC_PART.PWORLD, SEC_PART.DL, SEC_PART.DL3_TOKEN, SEC_PART.BUSY, SEC_PART.KEYS, SEC_PART.CL, SEC_PART.CTXM, SEC_PART.EPM]
  | .SEC_CL_WORLD => [SEC_CL_WORLD.W]
  | .SEC_CMD => [SEC_CMD.GO, SEC_CMD.BUSY, SEC_CMD.DONE, SEC_CMD.REJ, SEC_CMD.OP, SEC_CMD.FROM, SEC_CMD.TO, SEC_CMD.KIND, SEC_CMD.INDEX, SEC_CMD.DL, SEC_CMD.TLEN, SEC_CMD.CODE]
  | .SEC_LPEER => [SEC_LPEER.HASH, SEC_LPEER.ANY]
  | .SEC_ID_STAT => [SEC_ID_STAT.STATE, SEC_ID_STAT.EPOCH, SEC_ID_STAT.EPOCH_LEFT, SEC_ID_STAT.SIGS_LEFT]
  | .SEC_NONCE => [SEC_NONCE.NONCE]
  | .SEC_LIFE => [SEC_LIFE.LCS, SEC_LIFE.LCS_NEXT, SEC_LIFE.OWNER_BOUND, SEC_LIFE.OWNER_LOCK, SEC_LIFE.TRNG_OK]
  | .SEC_OWNER => [SEC_OWNER.OHASH]
  | .SEC_FWU_CTL => [SEC_FWU_CTL.STAGE, SEC_FWU_CTL.ACTIVATE, SEC_FWU_CTL.ABANDON, SEC_FWU_CTL.SVN_COMMIT]
  | .SEC_FWU_SRC => [SEC_FWU_SRC.BASE, SEC_FWU_SRC.LEN]
  | .SEC_FWU_T => [SEC_FWU_T.T_ACT]
  | .SEC_FWU_STAT => [SEC_FWU_STAT.STATE, SEC_FWU_STAT.REJ, SEC_FWU_STAT.DONE, SEC_FWU_STAT.CODE, SEC_FWU_STAT.REFUSE, SEC_FWU_STAT.PAUSE_MS]
  | .SEC_SVN => [SEC_SVN.SVN]
  | .OBS_CL => [OBS_CL.TBUSY, OBS_CL.TWAIT, OBS_CL.VBUSY, OBS_CL.CE, OBS_CL.UE]
  | .OBS_PORT => [OBS_PORT.HCRC_DROP, OBS_PORT.FILT_DROP, OBS_PORT.ROUTE_DROP, OBS_PORT.BAD_END]
  | .OBS_HUB => [OBS_HUB.QRESP_UNM, OBS_HUB.TRACE_DROP, OBS_HUB.OBS_WAIT]
  | .OBS_TRACE => [OBS_TRACE.EN, OBS_TRACE.CTX, OBS_TRACE.MIN_NS, OBS_TRACE.K, OBS_TRACE.REJ, OBS_TRACE.BASE, OBS_TRACE.WCOUNT, OBS_TRACE.LOST]
  | .OBS_DUMP => [OBS_DUMP.EN, OBS_DUMP.CTX, OBS_DUMP.LCORE, OBS_DUMP.TAG, OBS_DUMP.OCC, OBS_DUMP.DST, OBS_DUMP.MAXLEN, OBS_DUMP.STATUS, OBS_DUMP.TRUNC, OBS_DUMP.REJ, OBS_DUMP.LEN]
  | .OBS_FREEZE => [OBS_FREEZE.GO, OBS_FREEZE.RESUME, OBS_FREEZE.CAPTURE, OBS_FREEZE.JOIN, OBS_FREEZE.ESTOP_CAP, OBS_FREEZE.STATE, OBS_FREEZE.PARTIAL, OBS_FREEZE.ID, OBS_FREEZE.ACT_ID, OBS_FREEZE.REJ]
  | .GCTL_MGMT => [GCTL_MGMT.DADDR, GCTL_MGMT.DA_VALID, GCTL_MGMT.EID, GCTL_MGMT.SERVE, GCTL_MGMT.DISAGREE, GCTL_MGMT.HANDOVER]
  | .FAB_CMP_MISMATCH => [FAB_CMP_MISMATCH.COUNT]

/-- Where a register lies: its block, its offset there, the distance between its elements, how many elements it has, and
the bytes of one element (4 for the 32-bit registers, otherwise a multiple of 8). -/
structure RegPos where
  blk    : Blk
  off    : Nat
  stride : Nat
  count  : Nat
  bytes  : Nat
  deriving DecidableEq, Repr

/-- The place of each register, from its own rule. -/
def Reg.pos : Reg → RegPos
  | .GCTL_PART_ID => ⟨.gctl, 0x0, 0, 1, 8⟩
  | .GCTL_SERIAL => ⟨.gctl, 0x8, 0, 1, 8⟩
  | .GCTL_ROLE => ⟨.gctl, 0x20, 0, 1, 4⟩
  | .TIME_RATE => ⟨.time, 0x18, 0, 1, 8⟩
  | .TIME_COUNT => ⟨.time, 0x0, 0, 1, 8⟩
  | .TIME_CTL => ⟨.time, 0x8, 0, 1, 4⟩
  | .TIME_STATUS => ⟨.time, 0x10, 0, 1, 8⟩
  | .GCTL_OWNER => ⟨.gctl, 0x28, 0, 1, 4⟩
  | .SPARE_CMAP => ⟨.spare, 0x10000, 8, 256, 8⟩
  | .GCTL_SEQTAB => ⟨.gctl, 0x100, 8, 16, 8⟩
  | .MEM_HOST => ⟨.mem, 0x0, 0, 1, 8⟩
  | .MEM_RGN => ⟨.mem, 0x10000, 16, 4096, 16⟩
  | .MEM_RGN_STATUS => ⟨.mem, 0x28, 0, 1, 4⟩
  | .MEM_FILL_CTL => ⟨.mem, 0x18, 0, 1, 8⟩
  | .MEM_REPAIR_CMD => ⟨.mem, 0x200, 0, 1, 8⟩
  | .MEM_STK_STATUS => ⟨.mem, 0x100, 8, 12, 8⟩
  | .MEM_TRAIN => ⟨.mem, 0x8, 0, 1, 8⟩
  | .CFE_RING_CMD => ⟨.cfe, 0x10000, 32, 8192, 8⟩
  | .CFE_RING_CPL => ⟨.cfe, 0x10008, 32, 8192, 8⟩
  | .CFE_RING_PTR => ⟨.cfe, 0x10010, 32, 8192, 8⟩
  | .CFE_RING_CPTR => ⟨.cfe, 0x10018, 32, 8192, 8⟩
  | .CTX_CFG => ⟨.ctx, 0x0, 32, 256, 8⟩
  | .CTX_STATE => ⟨.ctx, 0x8, 32, 256, 8⟩
  | .CTX_DIV => ⟨.ctx, 0x10, 32, 256, 8⟩
  | .CTX_CTL => ⟨.ctx, 0x18, 32, 256, 8⟩
  | .CFE_WAKE => ⟨.cfe, 0x10, 0, 1, 8⟩
  | .FAB_EP => ⟨.fab, 0x4000, 8, 256, 8⟩
  | .FAB_EPCNT => ⟨.fab, 0x5000, 8, 256, 8⟩
  | .FAB_CTL => ⟨.fab, 0x0, 0, 1, 8⟩
  | .FAB_LOCAL => ⟨.fab, 0x1000, 8, 64, 8⟩
  | .FAB_RACK => ⟨.fab, 0x2000, 8, 256, 8⟩
  | .FAB_PORT => ⟨.fab, 0x100, 8, 22, 8⟩
  | .FAB_XPORT => ⟨.fab, 0x10, 0, 1, 8⟩
  | .FAB_PAIR => ⟨.fab, 0x20000, 4, 16384, 4⟩
  | .FAB_MCG => ⟨.fab, 0x10000, 8, 4096, 8⟩
  | .LANE_PCTL => ⟨.lane, 0x1000, 64, 22, 8⟩
  | .LANE_PSTAT => ⟨.lane, 0x1008, 64, 22, 8⟩
  | .LANE_TAPS => ⟨.lane, 0x4000, 64, 110, 8⟩
  | .LANE_MON => ⟨.lane, 0x4008, 64, 110, 8⟩
  | .LANE_OPT => ⟨.lane, 0x4010, 64, 110, 8⟩
  | .COLL_GRP => ⟨.coll, 0x10000, 16, 4096, 16⟩
  | .GCTL_RCLASS => ⟨.gctl, 0x30, 0, 1, 8⟩
  | .SPARE_WEAR_CTL => ⟨.spare, 0x18, 0, 1, 8⟩
  | .SPARE_WEAR => ⟨.spare, 0x40000, 8, 2304, 8⟩
  | .SPARE_FENCE => ⟨.spare, 0x8, 0, 1, 8⟩
  | .CULLET => ⟨.spare, 0x20000, 8, 4096, 8⟩
  | .SPARE_REPLAY_CTL => ⟨.spare, 0x20, 0, 1, 8⟩
  | .SPARE_REPLAY_STAT => ⟨.spare, 0x28, 0, 1, 8⟩
  | .SPARE_REPLAY_EN => ⟨.spare, 0x100, 8, 4, 8⟩
  | .SPARE_ESC => ⟨.spare, 0x10, 0, 1, 8⟩
  | .SPARE_ABIND => ⟨.spare, 0x50000, 8, 4096, 8⟩
  | .SPARE_ELOG_PTR => ⟨.spare, 0x60, 0, 1, 8⟩
  | .ELOG => ⟨.spare, 0x80000, 64, 256, 64⟩
  | .SPARE_DUMP => ⟨.spare, 0x70, 0, 1, 16⟩
  | .SPARE_PAIR => ⟨.spare, 0x40, 0, 1, 8⟩
  | .SPARE_PAIR_STATE => ⟨.spare, 0x48, 0, 1, 8⟩
  | .SPARE_RESYNC => ⟨.spare, 0x50, 0, 1, 8⟩
  | .SPARE_RSLIST => ⟨.spare, 0x60000, 8, 256, 8⟩
  | .GCTL_BOOT_CTL => ⟨.gctl, 0x40, 0, 1, 8⟩
  | .GCTL_BOOT_STAT => ⟨.gctl, 0x48, 0, 1, 8⟩
  | .CAL_STAT => ⟨.cal, 0x0, 0, 1, 8⟩
  | .CAL_DIGEST => ⟨.cal, 0x20, 8, 4, 8⟩
  | .PWR_RAIL => ⟨.pwr, 0x1000, 8, 64, 8⟩
  | .PWR_POLICY => ⟨.pwr, 0x0, 0, 1, 8⟩
  | .PWR_RACK => ⟨.pwr, 0x8, 0, 1, 8⟩
  | .PWR_STATUS => ⟨.pwr, 0x10, 0, 1, 8⟩
  | .PWR_EVT => ⟨.pwr, 0x28, 0, 1, 8⟩
  | .PWR_OVER => ⟨.pwr, 0x30, 0, 1, 8⟩
  | .PWR_ENERGY => ⟨.pwr, 0x38, 0, 1, 8⟩
  | .PWR_THERM => ⟨.pwr, 0x18, 0, 1, 8⟩
  | .PWR_PSTATE => ⟨.pwr, 0x40, 0, 1, 8⟩
  | .SEC_PART => ⟨.sec, 0x1000, 256, 16, 112⟩
  | .SEC_CL_WORLD => ⟨.sec, 0x2000, 0, 1, 32⟩
  | .SEC_CMD => ⟨.sec, 0x20, 0, 1, 8⟩
  | .SEC_LPEER => ⟨.sec, 0x3000, 64, 4, 40⟩
  | .SEC_ID_STAT => ⟨.sec, 0x8, 0, 1, 8⟩
  | .SEC_NONCE => ⟨.sec, 0x10, 0, 1, 8⟩
  | .SEC_LIFE => ⟨.sec, 0x0, 0, 1, 8⟩
  | .SEC_OWNER => ⟨.sec, 0x40, 0, 1, 32⟩
  | .SEC_FWU_CTL => ⟨.sec, 0x80, 0, 1, 8⟩
  | .SEC_FWU_SRC => ⟨.sec, 0x88, 0, 1, 8⟩
  | .SEC_FWU_T => ⟨.sec, 0x90, 0, 1, 8⟩
  | .SEC_FWU_STAT => ⟨.sec, 0x98, 0, 1, 8⟩
  | .SEC_SVN => ⟨.sec, 0xA0, 0, 1, 8⟩
  | .OBS_CL => ⟨.obs, 0x0, 32, 256, 32⟩
  | .OBS_PORT => ⟨.obs, 0x4000, 8, 22, 8⟩
  | .OBS_HUB => ⟨.obs, 0x4100, 0, 1, 8⟩
  | .OBS_TRACE => ⟨.obs, 0x5000, 32, 4, 24⟩
  | .OBS_DUMP => ⟨.obs, 0x6000, 32, 8, 32⟩
  | .OBS_FREEZE => ⟨.obs, 0x7000, 0, 1, 8⟩
  | .GCTL_MGMT => ⟨.gctl, 0x50, 0, 1, 8⟩
  | .FAB_CMP_MISMATCH => ⟨.fab, 0x30, 0, 1, 8⟩

/-- Registers, in parts. -/
def Reg.part0 : List Reg :=
  [.GCTL_PART_ID, .GCTL_SERIAL, .GCTL_ROLE, .TIME_RATE, .TIME_COUNT, .TIME_CTL, .TIME_STATUS, .GCTL_OWNER, .SPARE_CMAP, .GCTL_SEQTAB, .MEM_HOST, .MEM_RGN]
/-- As above. -/
def Reg.part1 : List Reg :=
  [.MEM_RGN_STATUS, .MEM_FILL_CTL, .MEM_REPAIR_CMD, .MEM_STK_STATUS, .MEM_TRAIN, .CFE_RING_CMD, .CFE_RING_CPL, .CFE_RING_PTR, .CFE_RING_CPTR, .CTX_CFG, .CTX_STATE, .CTX_DIV]
/-- As above. -/
def Reg.part2 : List Reg :=
  [.CTX_CTL, .CFE_WAKE, .FAB_EP, .FAB_EPCNT, .FAB_CTL, .FAB_LOCAL, .FAB_RACK, .FAB_PORT, .FAB_XPORT, .FAB_PAIR, .FAB_MCG, .LANE_PCTL]
/-- As above. -/
def Reg.part3 : List Reg :=
  [.LANE_PSTAT, .LANE_TAPS, .LANE_MON, .LANE_OPT, .COLL_GRP, .GCTL_RCLASS, .SPARE_WEAR_CTL, .SPARE_WEAR, .SPARE_FENCE, .CULLET, .SPARE_REPLAY_CTL, .SPARE_REPLAY_STAT]
/-- As above. -/
def Reg.part4 : List Reg :=
  [.SPARE_REPLAY_EN, .SPARE_ESC, .SPARE_ABIND, .SPARE_ELOG_PTR, .ELOG, .SPARE_DUMP, .SPARE_PAIR, .SPARE_PAIR_STATE, .SPARE_RESYNC, .SPARE_RSLIST, .GCTL_BOOT_CTL, .GCTL_BOOT_STAT]
/-- As above. -/
def Reg.part5 : List Reg :=
  [.CAL_STAT, .CAL_DIGEST, .PWR_RAIL, .PWR_POLICY, .PWR_RACK, .PWR_STATUS, .PWR_EVT, .PWR_OVER, .PWR_ENERGY, .PWR_THERM, .PWR_PSTATE, .SEC_PART]
/-- As above. -/
def Reg.part6 : List Reg :=
  [.SEC_CL_WORLD, .SEC_CMD, .SEC_LPEER, .SEC_ID_STAT, .SEC_NONCE, .SEC_LIFE, .SEC_OWNER, .SEC_FWU_CTL, .SEC_FWU_SRC, .SEC_FWU_T, .SEC_FWU_STAT, .SEC_SVN]
/-- As above. -/
def Reg.part7 : List Reg :=
  [.OBS_CL, .OBS_PORT, .OBS_HUB, .OBS_TRACE, .OBS_DUMP, .OBS_FREEZE, .GCTL_MGMT, .FAB_CMP_MISMATCH]

/-- Every register. -/
def Reg.all : List Reg :=
  Reg.part0 ++ (Reg.part1 ++ (Reg.part2 ++ (Reg.part3 ++ (Reg.part4 ++ (Reg.part5 ++ (Reg.part6 ++ Reg.part7))))))

/-- Base of each block in BAR0 and its size in bytes (R328). -/
def Blk.base : Blk → Nat
  | .gctl => 0x0000000 | .cfe => 0x0100000 | .ctx => 0x0200000 | .fab => 0x0400000 | .lane => 0x0600000
  | .coll => 0x0800000 | .mem => 0x0A00000 | .pwr => 0x0C00000 | .sec => 0x0E00000 | .obs => 0x1000000
  | .spare => 0x1200000 | .time => 0x1400000 | .cal => 0x1600000

/-- Size of each block in BAR0 (R328). -/
def Blk.size : Blk → Nat
  | .gctl => 0x100000 | .cfe => 0x100000 | .cal => 0xA00000
  | _ => 0x200000

/-- Every block. -/
def Blk.all : List Blk :=
  [.gctl, .cfe, .ctx, .fab, .lane, .coll, .mem, .pwr, .sec, .obs, .spare, .time, .cal]

end Sys2Proof.Machine
end

