-- ==== Sys2Proof/Machine/Table.lean ====
section
/-! DEFINITION. Sparse data by key in one canonical form: keys strictly rising, and no entry equal to what an unlisted key
reads as, so that equal contents are equal lists. -/
set_option autoImplicit false
namespace Sys2Proof.Machine

/-- Pairs of key and value, sorted by key. -/
abbrev Table (α : Type) := List (Nat × α)

/-- What the table holds at a key; an unlisted key reads as `d`. -/
def tget {α : Type} : Table α → Nat → α → α
  | [], _, d => d
  | (k', v) :: r, k, d => if k' = k then v else tget r k d

/-- The table without a key. -/
def tdel {α : Type} : Table α → Nat → Table α
  | [], _ => []
  | (k', v) :: r, k => if k' = k then tdel r k else (k', v) :: tdel r k

/-- An entry put in its place by key. -/
def tins {α : Type} : Table α → Nat → α → Table α
  | [], k, v => [(k, v)]
  | (k', v') :: r, k, v => if k < k' then (k, v) :: (k', v') :: r else (k', v') :: tins r k v

/-- The table with `v` at key `k`; writing what an unlisted key reads as removes the entry. -/
def tset {α : Type} [DecidableEq α] (t : Table α) (k : Nat) (v d : α) : Table α :=
  if v = d then tdel t k else tins (tdel t k) k v

/-- The entry at a key, if the key is listed. -/
def tfind {α : Type} : Table α → Nat → Option α
  | [], _ => none
  | (k', v) :: r, k => if k' = k then some v else tfind r k

/-- The table with `v` listed at `k`, whatever `v` is. -/
def tput {α : Type} (t : Table α) (k : Nat) (v : α) : Table α := tins (tdel t k) k v

/-- Keys strictly rising. -/
def tsorted {α : Type} : Table α → Bool
  | [] => true
  | [_] => true
  | (k, _) :: (k', v') :: r => decide (k < k') && tsorted ((k', v') :: r)

/-- The canonical form: keys strictly rising and no entry equal to the default. -/
def twf {α : Type} [DecidableEq α] (t : Table α) (d : α) : Bool :=
  tsorted t && t.all (fun e => decide (e.2 ≠ d))

end Sys2Proof.Machine
end

