-- ==== Sys2Proof/Machine/StateTypes.lean ====
section
/-! DEFINITION. The records the state is made of: commands at the CFE, work resident on cores, transfers, streams,
queries, collective instances, and what leaves the module. -/
set_option autoImplicit false
namespace Sys2Proof.Machine

/-- What the module sends or answers, oldest first in `State.out`. -/
inductive Out
  | read (v : Nat)                          -- data of a register read
  | line (b : List Byte)                    -- data of a CXL.mem read
  | snoop (line : Nat) (inv : Bool)         -- a back-invalidate snoop of a 64-byte line: for its value, or to invalidate it (R327)
  | poison                                  -- a CXL.mem read answered with poison (R291, R311)
  | msix (v : Nat)                          -- an MSI-X message (R356, R606)
  | inject (p : Pkt)                        -- a packet this hub hands to its router
  | fwd (port : Nat) (p : Pkt)              -- a packet the router puts on a port
  | eject (p : Pkt)                         -- a packet the router delivers to its own hub
  | ctl (port kind : Nat) (body : List Nat) -- a control sequence on a port: 1 TIMING, 2 FREEZE, 3 STATUS, 4 TRAIN, 5 NOTICE,
                                            -- 6 CREDIT, 7 a message of KEYS; and its numbers
  | lanes (port : Nat) (chars : List (Nat × List Nat)) -- what that is on the lanes: by transmit lane, its characters
  | event (cls : Nat) (b : List Byte)       -- a PLDM event message (R830, R831)
  | reply (b : List Byte)                   -- an answer on the management port
  | ibi                                     -- a pending-read in-band interrupt on the management bus (R826)
  | note (kind : Nat) (v : Nat)             -- an electrical or plant effect at the boundary: lasers, drivers, rails, flow, frames
  deriving DecidableEq, Repr

/-- A command the CFE has read and not completed (R341 to R353). -/
structure Cmd where
  ring     : Nat
  seq      : Nat
  word     : Nat               -- the 512 bits of R343
  lt       : List Nat          -- its launch-table entries (R345), 256 bits each
  launched : Bool
  order    : Nat               -- position in the CFE's order of launches
  expect   : Nat               -- done messages it waits for
  ndone    : Nat
  arith    : Nat               -- arithmetic status (R123)
  tStart   : Nat
  uStart   : Bool
  cnt0     : List (Nat × Nat × Nat × Nat)  -- cluster, TBUSY, TWAIT, CE latched at launch (R793)
  energy0  : Nat
  lastProg : Nat               -- time of the last descriptor that fired or completed (R365)
  coll     : Bool
  deriving DecidableEq, Repr

/-- Where the bytes of a fabric transfer are read from (R151). -/
inductive Src
  | cs (site addr : Nat)
  | dm (part world addr : Nat)
  | lit (b : List Byte)
  deriving DecidableEq, Repr

/-- What a transfer or message serves. -/
inductive Owner
  | flight (lcore ring seq fid : Nat)   -- an SMOVE, AQUERY or AKVSHIP descriptor, by its firing's number
  | piece (group cseq key : Nat)        -- a ring piece of a collective
  | top (group cseq idx : Nat)          -- a triggered operation
  | query (qtag : Nat)                  -- a QUERY of the dispatcher
  | hub                                 -- a message of the hub's own: responses, READY, CREDIT, MGMT
  deriving DecidableEq, Repr

/-- A descriptor that has fired and not completed. -/
structure Flight where
  fid     : Nat             -- number of its firing
  pos     : Nat
  iter    : Nat
  word    : Nat
  occ     : Nat
  started : Nat             -- parts or pages started
  written : List Nat        -- parts or pages fully written, in the order they finished
  told    : Nat             -- parts whose token has been signalled
  out     : List Byte       -- the bytes a tensor dump would capture (R803)
  list    : List Nat        -- pages to gather, shards still open
  ready   : Bool            -- its work is done; DESC_COMPLETE may complete it
  aux     : Nat             -- of an AGATHER, the sequence descriptor as its lookup read it; of an atomic, the old value
  via     : List (Nat × Nat) -- die-to-die bridges that have carried it, by die and number (R169)
  undo    : List Host.Cell  -- core-store bytes that its tensor or vector work changed, as they stood before (R577)
  deriving DecidableEq, Repr

/-- A read of the counters at which a descriptor's conditions held: which of the two did, the signal granted last before it, and the
value of that signal's counter (R185, R187, R798). -/
structure Won where
  c0  : Bool
  c1  : Bool
  sig : Nat × Nat × Nat
  val : Nat
  deriving DecidableEq, Repr

/-- A command resident on a core (R27, R174). Loops are (position after LOOPB, count, index), innermost first. -/
structure Rsd where
  lcore   : Nat
  ring    : Nat
  seq     : Nat
  ctx     : Nat
  site    : Nat
  winBase : Nat
  winLen  : Nat
  wlAddr  : Nat
  wlLen   : Nat
  pos     : Nat
  loops   : List (Nat × Nat × Nat)
  skip    : Nat
  ctrs    : List Nat
  occ     : Table Nat
  ended   : Bool
  doneSent : Bool
  dead    : Bool            -- its context is being reset: nothing of it fires or writes (R577)
  flights : List Flight
  buf     : List (Nat × Nat) -- the prefetch buffer: descriptors fetched and not fired, by position (R172)
  next    : Option Nat      -- the next descriptor, once it has passed its checks (R176)
  won     : Option Won      -- the first read at which its conditions held (R185)
  waitT0  : Option (Nat × Bool) -- start of the traced wait of its next descriptor, and the UNSYNCED flag then (R798, R799)
  lastSig : Nat × Nat × Nat -- counter, producer core and kind of the last signal added (R798)
  launchT : Nat
  deriving DecidableEq, Repr

/-- A signal on its way to a token counter (R156, R188). -/
structure Sig where
  ring  : Nat
  seq   : Nat
  lcore : Nat
  ctr   : Nat
  inc   : Nat
  src   : Nat    -- sending logical core, 0x7FF for a hub unit
  spos  : Nat    -- sending descriptor's index
  siter : Nat
  kind  : Nat    -- 0 descriptor signal, 1 part token or credit, 2 hub unit (R799)
  deriving DecidableEq, Repr

/-- A message being sent as sequenced packets (R376, R402). A multicast names group g as destination module 16,384 + g. The
payload of each packet is `pre` and then bytes of `src`; with `slots` above 0, byte k lies in slot (k / psize) mod slots at
the destination (R218). -/
structure Xfer where
  id     : Nat
  owner  : Owner
  ctx    : Option Nat    -- sending context; none for hub firmware
  ep     : Nat
  dmod   : Nat
  dep    : Nat
  typ    : Nat
  msgid  : Nat
  part   : Nat
  world  : Nat
  raddr  : Nat
  total  : Nat
  mtlen  : Nat
  pre    : List Byte     -- header bytes carried by every packet of a TPUT
  lead   : List Byte     -- bytes of the message that come before the source's
  src    : Src
  dst    : Option Src    -- of a GET_REQ: where the requested bytes go
  psize  : Nat
  slots  : Nat
  sent   : Nat
  avail  : Nat           -- bytes whose parts have started
  acked  : Nat
  acks   : List (Nat × Nat)  -- ranges acknowledged, or of a GET_REQ ranges received: offset and length
  failed : Bool
  rest   : Nat           -- bytes never sent of an abandoned transfer, whose VOID waits for room in the window (R402, R418)
  req    : Nat           -- number of a GET_REQ's packet; of a GET_RESP, that of the request it answers
  deriving DecidableEq, Repr

/-- A packet sent and not yet acknowledged (R402 to R407). -/
structure OutPkt where
  seq    : Nat
  xfer   : Nat
  off    : Nat
  len    : Nat
  plen   : Nat
  first  : Bool          -- the first packet of its stream entry, which carries OPEN (R378)
  void   : Bool
  claim  : Nat
  t0     : Nat           -- first sent, on the clock that STALL counts
  tSent  : Nat
  rto    : Nat           -- current timer, in µs
  crcN   : Nat
  unrN   : Nat
  retry  : Bool          -- refused with BUSY or DEST_UNREACHABLE: sent again after RTO
  members : List Nat     -- multicast: members that have acknowledged
  deriving DecidableEq, Repr

/-- A source stream entry (R385, R414). -/
structure SStream where
  ep    : Nat
  dmod  : Nat
  dep   : Nat
  next  : Nat
  msg   : Nat
  fresh : Bool           -- nothing sent yet: the next packet is marked OPEN
  last  : Nat
  out   : List OutPkt
  deriving DecidableEq, Repr

/-- A destination stream entry (R410, R417). -/
structure DStream where
  smod : Nat             -- stream key: source module after folding, source endpoint, destination endpoint
  sep  : Nat
  dep  : Nat
  base : Nat
  bits : Nat
  digs : List (Nat × Nat)
  dead : List (Nat × Bool)  -- messages of the last 256 that closed failed: their other packets are not written (R413)
  last : Nat
  deriving DecidableEq, Repr

/-- An open inbound message (R411, R412). -/
structure Msg where
  smod   : Nat
  sep    : Nat
  dep    : Nat
  msgid  : Nat
  resp   : Bool
  total  : Nat
  acc    : Nat           -- accounted bytes
  failed : Bool          -- some accounted byte was not written
  data   : List (Nat × List Byte)  -- payloads of a QUERY, QRESP, KV shipment, MGMT or COLL message, by RADDR
  hdr    : Nat           -- header of its first packet to arrive
  deriving DecidableEq, Repr

/-- A queued GET_REQ (R420). -/
structure GetReq where
  smod   : Nat
  sep    : Nat
  dep    : Nat
  seq    : Nat
  msgid  : Nat
  addr   : Nat
  len    : Nat
  raddr  : Nat
  part   : Nat
  world  : Nat
  fold   : Nat
  deriving DecidableEq, Repr

/-- A query a Cache module holds (R270 to R273). -/
structure QHeld where
  hdr   : Nat
  rows  : List Byte
  smod  : Nat
  sep   : Nat
  dep   : Nat
  sctx  : Nat
  part  : Nat
  world : Nat
  t0    : Nat
  deriving DecidableEq, Repr

/-- A shard query of the dispatcher (R274 to R280). -/
structure ShardQ where
  qtag   : Nat
  lcore  : Nat
  ring   : Nat
  seq    : Nat
  fid    : Nat           -- its AQUERY's firing
  ctx    : Nat
  shard  : Nat
  entry  : Nat           -- the shard list entry (R265)
  hdr    : Nat
  rows   : List Byte
  target : Nat           -- 0 primary, 1 alternate
  sent   : Bool
  tSent  : Nat
  status : Nat           -- last status received
  deriving DecidableEq, Repr

/-- A remote shipment awaiting its KVACK (R250). -/
structure ShipOut where
  ktag  : Nat
  lcore : Nat
  ring  : Nat
  seq   : Nat
  fid   : Nat
  deriving DecidableEq, Repr

/-- A collective instance (R501 to R516, R526 to R531). A piece key is `phase × 2^40 + chunk × 2^20 + piece`. -/
structure Inst where
  ring   : Nat
  seq    : Nat
  ctx    : Nat
  group  : Nat
  cseq   : Nat
  ckind  : Nat
  dfmt   : Nat
  rop    : Nat
  count  : Nat
  src    : Nat
  dst    : Nat
  pcs    : Nat
  pwin   : Nat
  wdog   : Nat
  n      : Nat
  my     : Nat
  pred   : Nat
  succ   : Nat
  ep     : Nat
  credit : Nat                    -- pieces the successor has granted and this member has not used
  sent   : List Nat
  acked  : List Nat
  staged : List (Nat × List Byte) -- received pieces, reduced where reducing, not yet written
  wrote  : List Nat
  tops   : List Nat               -- triggered operation entries
  fired  : List Nat
  doneT  : List Nat
  ctrs   : List Nat
  done0  : Table Nat              -- endpoint DONE values latched at launch
  lastUp : Nat                    -- last time the progress count rose
  deriving DecidableEq, Repr

/-- A signal or grant held in the early table (R538): kind 2 READY, 3 CREDIT, 5 a counter signal. -/
structure Early where
  group : Nat
  cseq  : Nat
  kind  : Nat
  a     : Nat
  b     : Nat
  t0    : Nat
  deriving DecidableEq, Repr

/-- A stack repair under way (R315, R316). -/
structure Repair where
  op    : Nat
  stack : Nat
  pc    : Nat
  row   : Nat
  deriving DecidableEq, Repr

/-- A site being fenced or drained (R164, R572). -/
structure Fencing where
  lcore  : Nat      -- logical core it serves, 2048 when none
  site   : Nat
  origin : Nat      -- Cullet ORIGIN
  drain  : Bool
  deriving DecidableEq, Repr

/-- An investigation of an ambiguous fault (R583 to R591). -/
structure Invest where
  site     : Nat
  lcore    : Nat
  kind     : Nat                       -- 0 handshake stall, 1 microcode check
  dpos     : Nat                       -- descriptor and iteration at detection
  diter    : Nat
  dring    : Nat
  dseq     : Nat
  suspects : List Nat
  open_    : Bool                      -- some suspect was ineligible or stopped
  todo     : List Cmd                  -- commands still to replay, the one running first
  running  : Bool
  tRun     : Nat
  deriving DecidableEq, Repr

/-- A crash-dump capture (R609 to R611), by what it records. -/
structure Capture where
  slot    : Nat
  trigger : Nat
  stamp   : Nat
  unsync  : Bool
  smear   : Bool
  bytes   : List Byte
  deriving DecidableEq, Repr

/-- A receive lane in its port's training (R457 to R465). -/
structure RxLane where
  det     : Option Nat   -- when it detected signal
  slip    : Nat          -- bits by which the bit-slip command has moved its boundary, modulo 10
  slips   : Nat          -- bit-slip commands issued in this search
  blocks  : Nat          -- training blocks in a row with COMMA at their start
  aligned : Bool
  out     : Bool         -- failed for this training
  reqs    : Nat          -- equalisation requests sent, and when the first was
  reqT    : Nat
  pend    : Bool         -- the last request is unanswered
  eqDone  : Bool
  adapt   : Nat          -- the receiver's adaptation, a free value
  skewed  : Bool         -- lined up by DESKEW
  delay   : Nat          -- whole characters by which DESKEW delays it
  rd      : Bool         -- running disparity of what it receives
  deriving DecidableEq, Repr

/-- Settings retained in the always-on domain (R473), but for those that registers hold unchanged through a warm reset: taps of
each transmit lane; adaptation, slip and delay of each receive lane; both maps, the failed lanes, the partner's address and port. -/
structure Retained where
  taps   : List Nat
  rx     : List (Nat × Nat × Nat)
  txMap  : Nat
  rxMap  : Nat
  failed : Nat
  pmod   : Nat
  pport  : Nat
  deriving DecidableEq, Repr

/-- A link session being agreed in KEYS (R747 to R749): the partner's key hash and `ANY` as the stage found them, both HELLOs, the
messages of steps 3 and 4, and the shared secret. -/
structure Agree where
  hash   : Nat
  any    : Bool
  mine   : List Byte
  theirs : Option (List Byte)
  log    : List Byte
  seed   : List Byte
  shared : List Byte
  deriving DecidableEq, Repr

/-- A port's lane firmware. -/
structure LanePort where
  rx       : List RxLane
  txDone   : List Bool             -- transmit lanes whose taps the partner has finished with
  useRet   : Bool                  -- this training starts from retained settings
  full     : Bool                  -- it fell back to a full training (R474)
  gate     : Bool                  -- it runs the gate
  firstDet : Option Nat
  pid      : Nat × Nat × Nat       -- module and port of the last STATUS, and how many in a row carried them
  pstage   : Nat                   -- partner's STAGE
  rxIn     : Bool                  -- a map is in force in the receive and transmit direction
  txIn     : Bool
  want     : Option Nat            -- the map asked for and not yet switched to
  asked    : List (Nat × Nat × Nat)  -- notices unanswered: code, argument, last sent
  prev     : Nat                   -- STAGE before a loopback
  laser    : Bool
  session  : Bool                  -- a link session stands (R748)
  agree    : Option Agree
  opt      : List Nat              -- per lane, the optical conditions that hold: 1 low power, 2 reflection, 4 wear
  ebuf     : List (List Nat)       -- columns in the elastic buffer, oldest first (R455)
  txRd     : List Bool             -- running disparity of each transmit lane
  skipIn   : Nat                   -- columns sent since the last SKIP (R454)
  prbs     : List Nat              -- where each transmit lane is in PRBS-7, and in PRBS-31
  prbs31   : List Nat
  rxp      : RxPkt                 -- the packet being taken in
  lastFz   : Option (Nat × Nat)    -- the FREEZE acted on last and how many of its three have come, while nothing else has (R450)
  looped   : List (Nat × List Nat) -- characters that a near-end loopback brings to the receiver, by lane (R484)
  txKey    : List Byte             -- keys of the link session, each way (R749)
  rxKey    : List Byte
  ret      : Option Retained
  deriving DecidableEq, Repr

/-- A packet that has the header's grant on a port and waits there for credit for the rest of its flits (R392, R397): `frees` is the
arrival port whose buffer it leaves, or 32 more for a copy that leaves none. -/
structure Crossing where
  port  : Nat
  vc    : Nat
  pkt   : Pkt
  left  : Nat
  since : Nat
  frees : Nat
  deriving DecidableEq, Repr

/-- A security command that runs (R737 to R740), with what its token gave it. -/
structure SecRun where
  op    : Nat
  src   : Nat
  dst   : Nat
  kind  : Nat
  index : Nat
  dl    : Nat
  ohash : Nat
  lcs   : Nat
  deriving DecidableEq, Repr

/-- An armed action at a machine count (R77). -/
structure Armed where
  count : Nat
  kind  : Nat     -- 0 command launch, 1 firmware activation
  ring  : Nat
  seq   : Nat
  late  : Bool    -- the count had passed when it was armed
  deriving DecidableEq, Repr

end Sys2Proof.Machine
end

