-- ==== Sys2Proof/Machine/State.lean ====
section
/-! DEFINITION. The machine's state as plain data: every register of the spec (field by field, in `regs`), every memory,
queue, counter and mode the spec gives the module, the commands that wait, and the state right after reset. -/
set_option autoImplicit false
namespace Sys2Proof.Machine

/-- Why a step can stop with a fault. -/
inductive Fault
  /-- Raised by a meaning whose operand names a unit the module does not have (a port above 21, a core above 2,047, a
  context above 255 and so on). Safe: no such command can reach the module. -/
  | noSuchUnit
  deriving DecidableEq, Repr

/-- Why a step can refuse a command. -/
inductive Refusal
  /-- Raised by an arm of exec whose command has no meaning yet. Safe. -/
  | notModelled (mnemonic : String)
  deriving DecidableEq, Repr

/-- The timebase (Clockless operation). -/
structure TimeSt where
  /-- Nanoseconds of real time. -/
  now : Nat := 0
  /-- Machine count spent outside brown-out hold, flow hold and debug freeze: the time that the timers of R365, R394, R407, R540
  and R583 count (R819, log 25). -/
  run : Nat := 0
  /-- Machine count spent outside debug freeze: the time that `QTO` counts (R276, R819). -/
  thaw : Nat := 0
  /-- The count has taken the extra step of this nanosecond while a slew runs it fast (R66). -/
  extra : Bool := false
  /-- Slew still to be taken off the count, in ns: positive runs it slow (R66). -/
  slew : Int := 0
  /-- The count has been loaded since ACQUIRING was entered (R65). -/
  loaded : Bool := false
  /-- Consecutive exchanges within 5 ns since the load (R65). -/
  good : Nat := 0
  /-- Time of the last valid exchange with the parent (R64). -/
  lastEx : Nat := 0
  /-- When HOLDOVER was entered (R68). -/
  holdT : Nat := 0
  /-- As a child: number and stamps t1, t2 and t3 of the exchange under way (R65, R447, R449). -/
  ex : Option (Nat × Nat × Nat × Nat) := none
  /-- Number of the next exchange this module starts as a parent (R447). -/
  exNum : Nat := 0
  /-- The parent's reported STATE and DEPTH and when they came (R871). -/
  parent : Option (Nat × Nat × Nat) := none
  /-- Offset of each compute die's replica from the hub count, in ns (R72). -/
  replica : List Int := [0, 0, 0, 0]
  /-- Actions armed for a machine count (R77). -/
  armed : List Armed := []
  deriving DecidableEq, Repr

/-- The command front end (Host attachment, rings and contexts). -/
structure CfeSt where
  /-- Commands read and not complete, in the order they were read. -/
  cmds : List Cmd := []
  /-- Launches made, for the order of launch. -/
  order : Nat := 0
  /-- Done messages on their way: ring, CMD_SEQ, logical core (R35, R36). -/
  dones : List (Nat × Nat × Nat) := []
  /-- The code of the reset each RESETTING context is taking (R363). -/
  rst : Table Nat := []
  /-- Resets held until a debug freeze resumes: context, code and the log entry's data (R814). -/
  rstHeld : List (Nat × Nat × Nat) := []
  /-- Logical cores held back under R164, each with how many holders it has. -/
  held : Table Nat := []
  /-- MSI-X vectors masked, and pending while masked (R356). -/
  masked : Table Nat := []
  /-- Message address and data of each vector (log 7). -/
  msiTab : Table Nat := []
  msiPend : Table Nat := []
  /-- UCIe modules that carry the link to the host die (R326). -/
  ucie : Nat := 15
  /-- Partitions whose launches are held for a resynchronisation (R632). -/
  holdParts : List Nat := []
  deriving DecidableEq, Repr

/-- Device memory (Device memory). -/
structure MemSt where
  /-- The plaintext of every byte written, in canonical form; an unlisted byte reads 0 (log 12). -/
  bytes : List Host.Cell := []
  /-- Key slot and key generation under which a granule was last written whole or merged. -/
  tags : Table (Nat × Nat) := []
  /-- Ranges of frames filled with zeros, newest first: first, last, slot, generation (R309). -/
  fills : List (Nat × Nat × Nat × Nat) := []
  /-- Generation of the keys in each slot; 0 means the slot holds no key (R306, R744). -/
  keyGen : Table Nat := []
  /-- Key generations drawn so far. -/
  gens : Nat := 0
  /-- Granules that the fill under way has reached so far (R310). -/
  filled : List Nat := []
  /-- Lines of 64 bytes, by number, that the host die has read and may hold in a cache (R327). -/
  hostLines : List Nat := []
  /-- Stacks that their controller refreshes at twice the rate, as bits (R322). -/
  fastRefresh : Nat := 0
  /-- Granules that cannot be read: 1 uncorrectable, 2 lost (R311). -/
  bad : Table Nat := []
  /-- Region-table fields that changed and as the checkers still hold them, by register key, until PEND clears (R299). -/
  pendRgn : Table Nat := []
  /-- Row remaps in force: stack, pseudo-channel, row (R315). -/
  remaps : List (Nat × Nat × Nat) := []
  /-- The repair under way. -/
  repair : Option Repair := none
  /-- The crash-dump frames: captures held, by slot (R609). -/
  captures : List Capture := []
  /-- The capture being written, and `SPARE_DUMP` as the copy under way was asked for (R610, R613). -/
  capNow : Option Capture := none
  copyJob : Nat := 0
  /-- Frames written since a resynchronisation last copied them (R631). -/
  dirty : List Nat := []
  deriving DecidableEq, Repr

/-- Cores and core store (Cores, clusters and core store; Work descriptors and tokens). -/
structure CoreSt where
  /-- Core-store bytes, keyed `site × 2^21 + address`; an unlisted byte reads 0. -/
  cs : List Host.Cell := []
  /-- Accumulators, keyed `site × 1024 + index`, each the 640-bit record of R106. -/
  accs : Table Nat := []
  /-- The context whose accumulator chain is open on a site, plus 1 (R105). -/
  chain : Table Nat := []
  /-- Work resident on cores. -/
  rsds : List Rsd := []
  /-- Number of the next firing. -/
  fires : Nat := 0
  /-- By logical core, the command granted last there, `1 + ring × 2^32 + seq` (R27). -/
  turn : Table Nat := []
  /-- Signals on their way to token counters. -/
  sigs : List Sig := []
  /-- Lines of core store with corrected errors: keyed by bank row, the corrections counted (R573). -/
  rowCe : Table Nat := []
  /-- Redundant rows used per bank, keyed `site × 32 + bank` (R571, R573). -/
  rowUsed : Table Nat := []
  /-- Power-controller hints passed by the descriptor engines: die, hint, fetch time (R230). -/
  hints : List (Nat × Nat × Nat) := []
  deriving DecidableEq, Repr

/-- The hub's fabric ends and router (Fabric: packets, routes and windows). -/
structure FabSt where
  xfers : List Xfer := []
  sstr : List SStream := []
  dstr : List DStream := []
  msgs : List Msg := []
  gets : List GetReq := []
  nextXfer : Nat := 0
  /-- Flits queued for each port on all channels (R391). -/
  qdepth : Table Nat := []
  /-- Credits held per port and pool, in flits: key `port × 8 + pool`, pools 0–3 the channels, 4 the shared part (R397). -/
  credits : Table Nat := []
  /-- Running credit totals received and sent per port and pool (R448). -/
  credRx : Table Nat := []
  credTx : Table Nat := []
  /-- Optical links: packets sent in the session and the last counter accepted, per port; packets in a row that failed; when one
  was last logged, plus 1; the session's start in machine count (R751 to R753). -/
  linkTx : Table Nat := []
  linkRx : Table Nat := []
  linkBad : Table Nat := []
  linkLog : Table Nat := []
  linkT : Table Nat := []
  /-- Headers waiting at the router: packet, arrival port (22 for this hub), since when (R392, R394). A copy of a multicast
  that waits for port o has 32 × (o + 1) added to its arrival port (R424). -/
  waiting : List (Pkt × Nat × Nat) := []
  /-- Packets in the course of leaving on a port (R392). -/
  cross : List Crossing := []
  /-- ABORTs that wait for credit: group, port, packet and copies still to send; at most one for each group and port (R426). -/
  abortWait : List (Nat × Nat × Pkt × Nat) := []
  /-- ABORTs seen, by group: (ORIGIN, ANUM, when) (R601). -/
  abortSeen : Table (Nat × Nat × Nat) := []
  /-- Abandoned transfers with VOIDs outstanding, and since when (R419). -/
  voids : List (Nat × Nat) := []
  /-- ACKs, NACKs and other packets owed while a debug freeze is in effect (R814). -/
  owed : List Pkt := []
  deriving DecidableEq, Repr

/-- Attention services (Attention engine, long contexts and remote attention). -/
structure AttSt where
  queries : List QHeld := []
  shards : List ShardQ := []
  ships : List ShipOut := []
  nextTag : Nat := 0
  deriving DecidableEq, Repr

/-- The collective engine (Collectives, triggered operations and launch). -/
structure CollSt where
  insts : List Inst := []
  early : List Early := []
  /-- Keys of instances that have ended: group, sequence number, when (R539). -/
  ended : List (Nat × Nat × Nat) := []
  deriving DecidableEq, Repr

/-- Spares, recovery and mirror pairs. -/
structure SpareSt where
  /-- Sites out of service (R564). -/
  fenced : List Nat := []
  /-- Fencings and drains in progress. -/
  fencing : List Fencing := []
  /-- Wear baselines taken in safe mode (R565). -/
  baseline : Table Nat := []
  /-- Investigation running and those queued (R591). -/
  inv : Option Invest := none
  invQ : List Invest := []
  /-- Stamps of escalation events within the window (R593). -/
  escs : List Nat := []
  /-- Number of the next ABORT this hub sends (R600). -/
  anum : Nat := 0
  /-- Time of the last MSI-X vector 0 and whether a message is owed (R606). -/
  elogT : Option Nat := none
  elogOwed : Bool := false
  /-- A CULLET_FULL has been logged (R574). -/
  fullLogged : Bool := false
  /-- Mirror pair: stamp of becoming PRIMARY, last RENEW number and time, lease end, a GRANT since (R622, R623). -/
  promoT : Nat := 0
  renewN : Nat := 0
  renewT : Nat := 0
  leaseEnd : Nat := 0
  granted : Bool := false
  lastRx : Nat := 0
  /-- RENEWs sent and not granted: number and sending count (R623). -/
  renews : List (Nat × Nat) := []
  /-- The partner's role as it was last learned (R630), and its machine count in the last RENEW from it (R608). -/
  partnerRole : Nat := 0
  seen : Nat := 0
  /-- Resynchronisation: frames still to copy, in SWITCH, time of the last progress (R630 to R634). -/
  toCopy : List Nat := []
  /-- The pass under way is the first (R631). -/
  firstPass : Bool := true
  switching : Bool := false
  progT : Nat := 0
  /-- When the next frame may go out under `RATE` (R630). -/
  frameT : Nat := 0
  deriving DecidableEq, Repr

/-- Observation (Counters, traces and the global freeze). -/
structure ObsSt where
  /-- The registers as they stood at the last multiple of 10 ms, for NS views: register key to value (R766, R794). -/
  held : Table Nat := []
  heldT : Nat := 0
  /-- Trace and dump slots armed by an NS requester: trace k as k, dump k as 8 + k (R770, R801). -/
  nsArmed : List Nat := []
  /-- The freeze in effect was started by an NS requester (R770). -/
  nsFreeze : Bool := false
  /-- When each dump slot was armed (R803). -/
  dumpT : Table Nat := []
  /-- Ports whose marker has arrived in the freeze in effect (R815). -/
  markers : List Nat := []
  /-- Start of the freeze (R818). -/
  freezeT : Nat := 0
  /-- What arrived on an input behind its marker, held until resume (R814): port and packet. -/
  heldIn : List (Nat × Pkt) := []
  /-- An emergency stop has been recorded (R822). -/
  smear : Bool := false
  /-- What observation wrote to device memory over the last 10 µs: stack, when, and how many bytes (R807). -/
  wrote : List (Nat × Nat × Nat) := []
  deriving DecidableEq, Repr

/-- Bring-up (Bring-up and the Part Record). -/
structure BootSt where
  /-- The staging window and the calibration area, by offset in each; an unlisted byte reads 0. -/
  staging : List Host.Cell := []
  cal : List Host.Cell := []
  /-- DEFECT_MAP entries accepted at RECORD, in record order (R653). -/
  defects : List Nat := []
  /-- RECORD has passed in this power session; READY has passed since the cold power-up; a trip since READY (R668, R669). -/
  recorded : Bool := false
  readySince : Bool := false
  tripSince : Bool := false
  /-- A mapping was built earlier in the power session (R666). -/
  mapped : Bool := false
  /-- `WITHDRAWN` as PS4 was entered (R668). -/
  wasOut : Bool := false
  /-- Fencings made since power-good that are not yet in the Cullet list: KIND, UNIT, ORIGIN, TSEC (R665). -/
  pendList : List (Nat × Nat × Nat × Nat) := []
  /-- Sites fenced at GATHER or SELFTEST in this bring-up, and sites whose substitution had not completed,
  with their ORIGIN (R666). -/
  selfFenced : List Nat := []
  unfinished : List (Nat × Nat) := []
  /-- Digest of the accepted Part Record (R765). -/
  prHash : List Byte := []
  /-- Blocks of the image that Gather delivered last, and the bitmaps of the sites that lack some; every other site in use holds them all
  (R661). -/
  gatherN : Nat := 0
  gatherMap : Table Nat := []
  /-- The step running was started with SAFE, FULL_ST and ARG as they were written. -/
  stepArg : Nat := 0
  stepSafe : Bool := false
  stepFull : Bool := false
  deriving DecidableEq, Repr

/-- What is burned or stored once and survives a loss of power (logs 1 and 6): the fuses, and the boot epochs used. -/
structure FuseSt where
  /-- Lifecycle state burned, of R768: PRODUCT until a transition is burned (log 6). -/
  lcs : Nat := 2
  /-- Owner-binding hash, once burned (R767). -/
  ohash : Option Nat := none
  /-- Minimum security version (R767, firmware chapter). -/
  svn : Nat := 0
  /-- Boot epochs burned (R755). -/
  epochs : Nat := 0
  deriving DecidableEq, Repr

/-- One digital sensor of a hot spot (R706, R707). -/
structure Sensor where
  last : Int
  chT  : Nat        -- when its code last changed
  bad  : Bool       -- discarded
  okT  : Nat        -- start of the plausible readings since it was discarded
  deriving DecidableEq, Repr

/-- A coolant reading in hundredths (R835): inlet, outlet, flow, and when it came. -/
structure Coolant where
  tin  : Int
  tout : Int
  flow : Nat
  t    : Nat
  deriving DecidableEq, Repr

/-- Power, cooling and power states. -/
structure PwrSt where
  /-- EN is high as the power stage sees it; the stage has started; power-good has come (R844). -/
  en : Bool := false
  starting : Bool := false
  on : Bool := false
  /-- When the last rail went off (R847). -/
  offT : Option Nat := none
  /-- 0 no trip; 1 a compute-die hot spot tripped; 2 a hub hot spot (R708, R709). -/
  trip : Nat := 0
  /-- A trip has occurred in the power session, and when VIN was last sampled below 33.0 V (R782). -/
  tripped : Bool := false
  lowT : Option Nat := none
  /-- Consecutive samples below 33.0 V, below 29.0 V, above 41.0 V, and at or above 33.5 V (R672 to R677). -/
  nLow : Nat := 0
  nCrit : Nat := 0
  nHigh : Nat := 0
  nOk : Nat := 0
  /-- VIN_HIGH has been logged for this excursion (R672). -/
  vHigh : Bool := false
  /-- When power-good came (R700). -/
  onT : Nat := 0
  /-- Lowest VIN over the last hold or sag in 10 mV, start of the hold, duration of the last hold in µs, and its end. -/
  lowest : Nat := 0
  holdT : Nat := 0
  holdUs : Nat := 0
  holdEnd : Option Nat := none
  /-- Sums of the samples of the current 10 ms of PIN and VIN, and how many (R695). -/
  sumP : Nat := 0
  sumV : Nat := 0
  nSum : Nat := 0
  /-- Energy below 1 mJ not yet counted, in µJ, of `PWR_ENERGY` and of `OVER_MJ` (R688, R697). -/
  uj : Nat := 0
  overUj : Nat := 0
  /-- PIN has not yet reached the ECAP that fell last (R688). -/
  settling : Bool := false
  /-- The last-gasp message, readable until VAON falls, and when the shutdown began (R832). -/
  gasp : Option (Nat × List Byte) := none
  /-- When RAIL_LIMIT was last logged for a rail, plus 1 (R682). -/
  limT : Table Nat := []
  /-- Voltage step of each compute die, whether its throttle is lowering it, and whether its throttle gates it (R703). -/
  vs : List Nat := [8, 8, 8, 8]
  lowering : List Bool := [false, false, false, false]
  gated : List Bool := [false, false, false, false]
  /-- Dies whose handshakes are gated to reach a lower ECAP, and the highest step the cap leaves each die; 15 leaves it every
  step (R690, R711). -/
  capGated : List Bool := [false, false, false, false]
  capStep : List Nat := [15, 15, 15, 15]
  /-- `RCAP` when the heartbeat was lost, and the last heartbeat (R692). -/
  rcapLoss : Nat := 0
  hbT : Nat := 0
  /-- Sensors by hot spot × 2 + sensor; hot spots 0 to 63 on compute dies, 64 to 71 on the hub die, 72 the host die. -/
  sensors : Table Sensor := []
  /-- Per hot spot: start of the disagreement, and when it was last logged, plus 1 each (R706). -/
  disT : Table Nat := []
  disLog : Table Nat := []
  /-- Lehr could not hold its floor, logged in this entry to the state, and the power in W that would hold it (R721, R722). -/
  lehrLogged : Bool := false
  lehrWant : Nat := 0
  /-- Coolant: the last sequence number accepted, the last reading, stale logged, and the start of recovery (R700 to R705). -/
  traySeq : Option Nat := none
  cool : Option Coolant := none
  stale : Bool := false
  coolOk : Option Nat := none
  deriving DecidableEq, Repr

/-- A message ready on the management bus: 1 MCTP control, 2 PLDM answer, 3 LOG event, 4 SPDM answer, 5 sensor event (R826, R830). -/
structure MgMsg where
  kind : Nat
  body : List Byte
  deriving DecidableEq, Repr

/-- The management port. -/
structure MgmtSt where
  /-- The management controller runs: SECFW has started its firmware in this power session (R643, R862). -/
  run : Bool := false
  /-- Dynamic address on the tray bus; 0 when none (R824). -/
  tbAddr : Nat := 0
  /-- In-band interrupts enabled on MB (ENEC, DISEC; log 70). -/
  ibi : Bool := true
  /-- EID of the bus owner: it assigned this module's EID (R826, R837). -/
  busOwner : Nat := 0
  /-- EID of the event receiver; none while no receiver is set (R830). -/
  receiver : Option Nat := none
  /-- Thresholds by sensor ID: lowest and highest reading that raise no event (R830). -/
  thresholds : Table (Nat × Nat) := []
  /-- Sensors now outside their thresholds. -/
  outside : List Nat := []
  /-- Messages ready to be read, oldest first. -/
  queue : List MgMsg := []
  /-- FW_TACT (R828). -/
  tact : Nat := 0
  /-- Host's own hold of each port: the `DOWN_REQ` bits the host wrote (R839). -/
  hostHold : Nat := 0
  /-- Start of each port's disagreement, plus 1 (R840). -/
  disT : Table Nat := []
  /-- The firmware bundle received so far (R833). -/
  fwBuf : List Byte := []
  /-- The Punty buffer, in the always-on domain: what a handover has written to it, with its CRC (R787). -/
  punty : List Byte := []
  deriving DecidableEq, Repr

/-- The security controller. -/
structure SecSt where
  /-- The command that runs (R737). -/
  run : Option SecRun := none
  /-- The token window; an unlisted byte is 0 (R759). -/
  token : List Host.Cell := []
  /-- How far an SPDM connection has come: 1 version, 2 capabilities, 3 algorithms. -/
  spdm : Nat := 0
  /-- Transcripts for signatures: negotiation, certificates, measurements. -/
  transA : List Byte := []
  transB : List Byte := []
  transL : List Byte := []
  /-- The large response being fetched in chunks, its handle and the next chunk (R834). -/
  large : List Byte := []
  handle : Nat := 0
  chunk : Nat := 0
  deriving DecidableEq, Repr

/-- Firmware (Firmware images and activation). -/
structure FwSt where
  /-- The manifest in effect, and by component type its entry. -/
  manifest : List Byte := []
  entries : Table Nat := []
  /-- The manifest staged and its entries. -/
  staged : List Byte := []
  stagedEnt : List Nat := []
  /-- The path whose update is under way: 1 registers, 2 PLDM (R781). -/
  path : Nat := 0
  /-- The count that activation is armed for (R785). -/
  tAct : Nat := 0
  /-- The bundle that staging reads. -/
  bundle : List Byte := []
  /-- Start of an activation's pause (R785). -/
  pauseT : Nat := 0
  deriving DecidableEq, Repr

/-- The whole machine. -/
structure State where
  /-- Every register field, by its key; an unlisted field holds its power-up value. -/
  regs : Table Nat := []
  time : TimeSt := {}
  cfe : CfeSt := {}
  mem : MemSt := {}
  core : CoreSt := {}
  fab : FabSt := {}
  att : AttSt := {}
  coll : CollSt := {}
  spare : SpareSt := {}
  obs : ObsSt := {}
  boot : BootSt := {}
  pwr : PwrSt := {}
  fuse : FuseSt := {}
  mgmt : MgmtSt := {}
  /-- Lane firmware, by port. -/
  lane : Table LanePort := []
  sec : SecSt := {}
  fw : FwSt := {}
  /-- Draws made from the free values of Config (the model's own counter). -/
  freeCtr : Nat := 0
  /-- What the module has sent and answered, oldest first. -/
  out : List Out := []
  /-- The commands that wait, first in first out. -/
  pending : List Instr := []
  deriving DecidableEq, Repr

/-- The machine right after reset: no rail on, every register field at its power-up value, every memory, queue and table
empty, and every other field at the value its declaration names (R844, R847; logs 1, 2 and 12). -/
def State.reset : State := {}

end Sys2Proof.Machine
end

