-- ==== Sys2Proof/Machine/Ops.lean ====
section
/-! DEFINITION. The operations every family shares: register access with its ownership, world and partition rules, stamps,
the error log and its notices, MSI-X, free values, and what the module may do in its present power state. -/
set_option autoImplicit false
namespace Sys2Proof.Machine

/-- The answer of a meaning. -/
abbrev Res := Host.Outcome State Fault Refusal

/-- A command whose operands name units the module has acts; any other stops (no such command can reach the module). -/
def need (ok : Bool) (s : State) : Res := if ok then .next s else .fault .noSuchUnit

/-! ## Registers -/

/-- The key of field `f` of the register's element `i`. -/
def Fld.key (f : Fld) (i : Nat) : Nat := (f.reg.code * 65536 + i) * 1024 + f.lsb

/-- The field's bits in a written value. -/
def Fld.val (f : Fld) (v : Nat) : Nat := bitsOf v f.lsb f.w

/-- The field's bit in a written value. -/
def Fld.bit (f : Fld) (v : Nat) : Bool := v.testBit f.lsb

/-- What a register field holds. -/
def State.fget (s : State) (f : Fld) (i : Nat) : Nat := tget s.regs (f.key i) f.up

/-- Whether a one-bit field is 1. -/
def State.fon (s : State) (f : Fld) (i : Nat) : Bool := decide (s.fget f i = 1)

/-- The field set to `v`, taken modulo its width. -/
def State.fset (s : State) (f : Fld) (i v : Nat) : State :=
  { s with regs := tset s.regs (f.key i) (v % 2 ^ f.w) f.up }

/-- A one-bit field set. -/
def State.fput (s : State) (f : Fld) (i : Nat) (b : Bool) : State := s.fset f i (b2n b)

/-- A count that saturates at its field's largest value. -/
def State.fsat (s : State) (f : Fld) (i n : Nat) : State := s.fset f i (satAdd f.w (s.fget f i) n)

/-- The register's fields as one word; write-only fields read 0 and reserved bits read 0 (R15). -/
def State.regWord (s : State) (r : Reg) (i : Nat) : Nat :=
  r.fields.foldl (fun a f => if f.acc = .wo then a else a + (s.fget f i <<< f.lsb)) 0

/-- The register's RW fields as one word. -/
def State.rwWord (s : State) (r : Reg) (i : Nat) : Nat :=
  r.fields.foldl (fun a f => if f.acc = .rw then a + (s.fget f i <<< f.lsb) else a) 0

/-- Every RW field takes its bits of the written value. -/
def State.putRW (s : State) (r : Reg) (i v : Nat) : State :=
  r.fields.foldl (fun s f => if f.acc = .rw then s.fset f i (f.val v) else s) s

/-- Every W1C bit written as 1 clears. -/
def State.clrW1C (s : State) (r : Reg) (i v : Nat) : State :=
  r.fields.foldl (fun s f => if f.acc = .w1c then
    s.fset f i ((s.fget f i) &&& (2 ^ f.w - 1 - f.val v)) else s) s

/-- A status write: every RW field holds what is written and no W1S or WO bit is 1 (R873). -/
def State.isStatus (s : State) (r : Reg) (i v : Nat) : Bool :=
  r.fields.all (fun f => match f.acc with
    | .rw => decide (f.val v = s.fget f i)
    | .w1s | .wo => decide (f.val v = 0)
    | _ => true)

/-- The REJ bit that a rejected write of a register sets, where it has one. -/
def Reg.rejFld : Reg → Option Fld
  | .GCTL_ROLE => some GCTL_ROLE.REJ | .TIME_CTL => some TIME_CTL.REJ | .GCTL_SEQTAB => some GCTL_SEQTAB.REJ
  | .MEM_HOST => some MEM_HOST.REJ | .MEM_RGN => some MEM_RGN_STATUS.REJ | .MEM_FILL_CTL => some MEM_FILL_CTL.REJ
  | .MEM_REPAIR_CMD => some MEM_REPAIR_CMD.REJ | .CFE_RING_CMD => some CFE_RING_CMD.REJ
  | .CFE_RING_CPL => some CFE_RING_CMD.REJ | .CTX_CFG => some CTX_CFG.REJ | .CTX_CTL => some CTX_CFG.REJ
  | .FAB_EP => some FAB_EP.REJ | .FAB_CTL => some FAB_CTL.REJ | .FAB_LOCAL => some FAB_LOCAL.REJ
  | .FAB_RACK => some FAB_RACK.REJ | .FAB_XPORT => some FAB_XPORT.REJ | .LANE_PCTL => some LANE_PCTL.REJ
  | .COLL_GRP => some COLL_GRP.REJ | .SPARE_FENCE => some SPARE_FENCE.REJ | .SPARE_ABIND => some SPARE_ABIND.REJ
  | .SPARE_DUMP => some SPARE_DUMP.REJ | .SPARE_PAIR => some SPARE_PAIR.REJ | .SPARE_RESYNC => some SPARE_RESYNC.REJ
  | .GCTL_BOOT_CTL => some GCTL_BOOT_STAT.REJ | .PWR_POLICY => some PWR_POLICY.REJ
  | .PWR_PSTATE => some PWR_PSTATE.REJ | .SEC_CMD => some SEC_CMD.REJ | .SEC_FWU_CTL => some SEC_FWU_STAT.REJ
  | .OBS_TRACE => some OBS_TRACE.REJ | .OBS_DUMP => some OBS_DUMP.REJ | .OBS_FREEZE => some OBS_FREEZE.REJ
  | _ => none

/-- The register's REJ bit set; the region tables' entries share one (R297), and entry 0 of `FAB_EP` reads 0 (R382). -/
def State.setRej (s : State) (r : Reg) (i : Nat) : State :=
  match r.rejFld with
  | some f => if r = .FAB_EP ∧ i = 0 then s else s.fset f (if r = .MEM_RGN then 0 else i) 1
  | none => s

/-! ## Free values -/

/-- The next free value of `w` bits. -/
def State.freeV (s : State) (w : Nat) : Nat := Config.freeValue s.freeCtr % 2 ^ w

/-- The next free choice. -/
def State.freeB (s : State) : Bool := Config.freeBit s.freeCtr

/-- A free value has been used. -/
def State.drew (s : State) : State := { s with freeCtr := s.freeCtr + 1 }

/-- `n` bytes that the security controller made. -/
def State.secret (s : State) (n : Nat) : List Byte := (Config.secretBytes s.freeCtr ++ zeros n).take n

/-! ## Outputs -/

/-- What the module puts out. -/
def State.emit (s : State) (o : Out) : State := { s with out := s.out ++ [o] }

/-- An effect at the module's boundary (R7): kinds 0 lasers off, 1 drivers high-impedance, 2 rail off, 3 rail on, 4 stack in
self-refresh, 5 laser on, 6 copper receiver termination removed, 7 a lane's stressed sampling points set (R467). -/
def State.note (s : State) (k v : Nat) : State := s.emit (.note k v)

/-! ## Time -/

/-- The machine count (R61). -/
def State.count (s : State) : Nat := s.fget TIME_COUNT.COUNT 0

/-- Whether a stamp taken now carries the UNSYNCED flag: FREE and ACQUIRING (R74). -/
def State.unsync (s : State) : Bool := decide (s.fget TIME_STATUS.STATE 0 ≤ 1)

/-- The timebase enters a state; `UNSYNC` reads 1 while stamps carry the flag (R63, R74). -/
def State.setSync (s : State) (st : Nat) : State :=
  (s.fset TIME_STATUS.STATE 0 st).fput TIME_STATUS.UNSYNC 0 (decide (st ≤ 1))

/-- A stamp as an NS reader sees it: whole microseconds (R766). -/
def coarse (t : Nat) : Nat := t / 1000 * 1000

/-! ## Power state of the moment -/

/-- The module is powered and out of a trip and of PS4. -/
def State.up (s : State) : Bool :=
  s.pwr.on && decide (s.pwr.trip = 0) && decide (s.fget PWR_PSTATE.STATE 0 ≠ 4)

/-- Brown-out hold or flow hold gates every handshake (R675, R704). -/
def State.held (s : State) : Bool := s.fon PWR_STATUS.HOLD 0 || s.fon PWR_STATUS.FLOW_HOLD 0

/-- The hub's handshakes run. -/
def State.hubUp (s : State) : Bool := s.up && !s.held

/-- A debug freeze is in effect (R813). -/
def State.frozen (s : State) : Bool := decide (s.fget OBS_FREEZE.STATE 0 ≠ 0)

/-- Work may start: the hub runs and no freeze is in effect. -/
def State.live (s : State) : Bool := s.hubUp && !s.frozen

/-- An activation's pause is in force (R785). -/
def State.pausing (s : State) : Bool := decide (s.fget SEC_FWU_STAT.STATE 0 = 4)

/-- Lane training and lane-failure handling run: they wait until a pause ends (R786). -/
def State.lanesRun (s : State) : Bool := s.hubUp && !s.pausing

/-- Bring-up has reached READY, so the CFE may launch (R641). -/
def State.inService (s : State) : Bool := (s.fget GCTL_BOOT_STAT.PASSED 0).testBit 11

/-- Acts only while the condition holds; otherwise nothing happens. -/
def State.when (s : State) (b : Bool) (f : State → State) : State := if b then f s else s

/-! ## Security commands that run (R742) -/

/-- Whether a command scrubs: PART_CLOSE, SCRUB, UNLOCK, and SET_DL out of DL3 in PRODUCT or RETURN (R740). -/
def State.scrubs (s : State) (r : SecRun) : Bool :=
  decide (r.op = 2) || decide (r.op = 4) || decide (r.op = 6) ||
  (decide (r.op = 5) && decide (s.fget SEC_PART.DL r.dst = 3) && decide (r.dl ≠ 3) && decide (2 ≤ s.fget SEC_LIFE.LCS 0))

/-- A scrub of a partition runs (R742). -/
def State.scrubbing (s : State) (p : Nat) : Bool :=
  match s.sec.run with
  | some r => decide (r.dst = p) && s.scrubs r
  | none => false

/-! ## MSI-X (R356, R606) -/

/-- The message of a vector is sent, or its pending bit set while it is masked. -/
def State.msix (s : State) (v : Nat) : State :=
  if tget s.cfe.masked v 1 = 1 then { s with cfe := { s.cfe with msiPend := tset s.cfe.msiPend v 1 0 } }
  else s.emit (.msix v)

/-! ## Management events (R830) -/

/-- A message is ready on the management bus, and its interrupt is raised (R826). -/
def State.mgPut (s : State) (kind : Nat) (body : List Byte) : State :=
  let s := { s with mgmt := { s.mgmt with queue := s.mgmt.queue ++ [MgMsg.mk kind body] } }
  if s.mgmt.ibi then s.emit .ibi else s

/-- A PLDM event queued for the receiver, or discarded while none is set: kind 3 a LOG event, 5 a sensor event. -/
def State.pldmEvent (s : State) (kind : Nat) (body : List Byte) : State :=
  match s.mgmt.receiver with
  | none => s
  | some _ => s.mgPut kind body

/-- Codes whose entries the management port reports: power, thermal, firmware, security and management (R830, R841). -/
def pldmCode (code : Nat) : Bool :=
  decide (code / 256 = 4) || decide (code / 256 = 5) || decide (code / 256 = 6) || decide (code = 0x0212)

/-! ## The error log (R603 to R608) -/

/-- An event as it reaches the log. -/
structure Evt where
  code : Nat
  kind : Nat := 0
  unit : Nat := 0
  ctx  : Option Nat := none
  data : Nat := 0
  part : Nat := 0   -- of a party that has a partition and no context (R312)
  world : Nat := 0
  deriving DecidableEq, Repr

/-- Index of the newest entry. -/
def State.elogIdx (s : State) : Nat := wrapSub 32 (s.fget SPARE_ELOG_PTR.WCOUNT 0) 1 % 256

/-- Whether an event folds into the newest entry (R603). -/
def State.folds (s : State) (e : Evt) : Bool :=
  let i := s.elogIdx
  decide (s.fget SPARE_ELOG_PTR.WCOUNT 0 ≠ 0) && decide (s.fget ELOG.CODE i = e.code) &&
  decide (s.fget ELOG.KIND i = e.kind) && decide (s.fget ELOG.UNIT i = e.unit % 2 ^ 32) &&
  decide (s.fget ELOG.CTX_V i = b2n e.ctx.isSome) &&
  (match e.ctx with | some c => decide (s.fget ELOG.CTX i = c) | none => true) &&
  decide (s.fget ELOG.STAMP i ≤ s.count) && decide (s.count ≤ s.fget ELOG.STAMP i + 1000000)

/-- The new entry's fields (R607). -/
def State.elogWrite (s : State) (i n : Nat) (e : Evt) : State :=
  let s := ((((s.fset ELOG.STAMP i s.count).fput ELOG.UNSYNC i s.unsync).fset ELOG.CODE i e.code).fset ELOG.KIND i e.kind)
  let s := match e.ctx with
    | some c => (((s.fset ELOG.CTX_V i 1).fset ELOG.CTX i c).fset ELOG.PART i (s.fget CTX_CFG.PART c)).fset ELOG.WORLD i
        (s.fget CTX_CFG.WORLD c)
    | none => (((s.fset ELOG.CTX_V i 0).fset ELOG.CTX i 0).fset ELOG.PART i e.part).fset ELOG.WORLD i e.world
  (((s.fset ELOG.REPEAT i 0).fset ELOG.SEQ i n).fset ELOG.UNIT i e.unit).fset ELOG.DATA i e.data

/-- The notice of new entries: vector 0, at most once in each 10 µs (R606). -/
def State.elogNotice (s : State) : State :=
  if s.fon SPARE_ELOG_PTR.NOTIFY 0 then
    match s.spare.elogT with
    | some t => if s.time.now < t + 10000 then { s with spare := { s.spare with elogOwed := true } }
                else { s.msix 0 with spare := { s.spare with elogT := some s.time.now, elogOwed := false } }
    | none => { s.msix 0 with spare := { s.spare with elogT := some s.time.now, elogOwed := false } }
  else s

/-- A logged event: an entry, or one more repeat of the newest one (R603, R604, R606, R830). -/
def State.log (s : State) (e : Evt) : State :=
  if s.folds e then s.fsat ELOG.REPEAT s.elogIdx 1
  else
    let n := s.fget SPARE_ELOG_PTR.WCOUNT 0
    let i := n % 256
    let s := s.elogWrite i n e
    let s := s.fset SPARE_ELOG_PTR.WCOUNT 0 (n + 1)
    let s := s.elogNotice
    if pldmCode e.code then s.pldmEvent 3 (leBytes 64 (s.regWord .ELOG i)) else s

/-- A logged code that concerns no unit and no context. -/
def State.logC (s : State) (code : Nat) : State := s.log { code := code }

/-- A logged code of a context. -/
def State.logX (s : State) (code ctx data : Nat) : State := s.log { code := code, ctx := some ctx, data := data }

/-! ## Contexts and partitions -/

/-- The world of a context. -/
def State.ctxWorld (s : State) (c : Nat) : Nat := s.fget CTX_CFG.WORLD c

/-- The partition of a context. -/
def State.ctxPart (s : State) (c : Nat) : Nat := s.fget CTX_CFG.PART c

/-- The open partition whose ownership mask `f` holds a resource (R730). -/
def State.holder (s : State) (f : Fld) (bit : Nat) : Option Nat :=
  (List.range 16).find? (fun p => s.fon SEC_PART.VALID p && (s.fget f p).testBit bit)

/-- A resource held by a partition that NS software administers. -/
def State.nsHeld (s : State) (f : Fld) (bit : Nat) : Bool :=
  match s.holder f bit with
  | some p => decide (s.fget SEC_PART.PWORLD p = 0)
  | none => false

/-- The divergence counter of a context counts `n` choices (R82, R360). -/
def State.diverge (s : State) (c n : Nat) : State := s.fsat CTX_DIV.DIV c n

/-- The hang watchdog sees progress of a command: a descriptor of it fired or completed (R365). -/
def State.progress (s : State) (ring seq : Nat) : State :=
  { s with cfe := { s.cfe with cmds := s.cfe.cmds.map fun c =>
      if c.ring = ring ∧ c.seq = seq then { c with lastProg := s.time.run } else c } }

/-- A ring's context (Rings). -/
def ringCtx (r : Nat) : Nat := r / 32

/-! ## Who may write which register -/

/-- The owner bit of a shared block (R83). -/
def ownerFld : Blk → Option Fld
  | .pwr => some GCTL_OWNER.PWR | .obs => some GCTL_OWNER.OBS | .spare => some GCTL_OWNER.SPARE
  | .time => some GCTL_OWNER.TIME | _ => none

/-- What an NS requester may write (R726); a fill is judged under R727 and the OBS block under R769 by their own rows. -/
def State.nsMay (s : State) (r : Reg) (i v : Nat) : Bool :=
  match r with
  | .GCTL_SEQTAB => decide (s.fget SEC_PART.PWORLD i = 0)
  | .CFE_RING_CMD | .CFE_RING_CPL => s.nsHeld SEC_PART.CTXM (ringCtx i)
  | .CTX_CFG => s.nsHeld SEC_PART.CTXM i && decide (CTX_CFG.WORLD.val v = 0)
  | .CTX_CTL => s.nsHeld SEC_PART.CTXM i
  | .FAB_EP => s.nsHeld SEC_PART.EPM i && decide (FAB_EP.WORLD.val v = 0) &&
      decide (s.holder SEC_PART.EPM i = some (FAB_EP.PART.val v)) &&
      decide (s.holder SEC_PART.CTXM (FAB_EP.CTX.val v) = some (FAB_EP.PART.val v))
  | .COLL_GRP => decide (s.fget SEC_PART.PWORLD (COLL_GRP.PART.val v) = 0) && decide (COLL_GRP.WORLD.val v = 0) &&
      (!s.fon COLL_GRP.VALID i ||
        (decide (s.fget SEC_PART.PWORLD (s.fget COLL_GRP.PART i) = 0) && decide (s.fget COLL_GRP.WORLD i = 0)))
  | .MEM_RGN => decide (s.fget SEC_PART.PWORLD (i / 256) = 0) && decide (MEM_RGN.WORLD.val v = 0)
  | .MEM_FILL_CTL | .OBS_TRACE | .OBS_DUMP | .OBS_FREEZE => true
  | _ => false

/-- The blocks that the management controller reaches (R724). -/
def mcReaches (r : Reg) : Bool :=
  match r.pos.blk with
  | .pwr | .obs | .spare | .time => true
  | _ => decide (r = .GCTL_OWNER)

/-- A write rejected because the writer does not own the block (R85). -/
def State.ownerReject (s : State) (w : Who) : State :=
  match w with
  | .mc => (s.fset GCTL_OWNER.REJ_MC 0 1).emit (.reply [0x80])
  | _ => (s.fset GCTL_OWNER.REJ_HOST 0 1).logC 0x0701

/-- Whether the writer owns the block (R84, R86). -/
def State.owns (s : State) (w : Who) (b : Blk) : Bool :=
  match ownerFld b with
  | some f => decide (s.fon f 0 = decide (w = .mc))
  | none => true

/-- The registers that a write of the security controller or the hub firmware may change: those that Worlds and partitions, Device memory,
Bring-up, and Firmware images name as changed by those units (R729; log 89 gives each one's place). -/
def fwMay (r : Reg) : Bool :=
  match r.pos.blk with
  | .sec | .cal => true
  | _ => match r with
    | .GCTL_SERIAL | .GCTL_BOOT_STAT | .MEM_RGN | .MEM_RGN_STATUS | .MEM_FILL_CTL | .SPARE_CMAP | .CULLET | .SPARE_FENCE => true
    | _ => false

/-- Why a register write does not reach its register. -/
inductive Bar
  | none | world | reach | owner | part | filter
  deriving DecidableEq, Repr

/-- The rules every register write passes, in this order: the block's filter for firmware (R729), the block's world (R328), the
management controller's reach (R724), ownership (R84) and what NS may write (R726). A firmware write that its filter admits acts as
one of an S requester, whichever side owns the block (log 89). -/
def State.barred (s : State) (w : Who) (r : Reg) (i v : Nat) : Bar :=
  if w = .fw then (if fwMay r then .none else .filter)
  else if w = .ns ∧ r.pos.blk = .sec then .world
  else if w = .mc ∧ mcReaches r = false then .reach
  else if s.owns w r.pos.blk = false then .owner
  else if w = .ns ∧ s.nsMay r i v = false then .part
  else .none

/-- What becomes of a write that does not reach its register. -/
def State.bar (s : State) (w : Who) (r : Reg) (i : Nat) : Bar → State
  | .none => s
  | .reach => s
  | .world => s.logC 0x0503
  | .owner => s.ownerReject w
  | .part => (s.setRej r i).logC 0x0504
  | .filter => s.logC 0x050D

/-- A register write: the access rules, then a status write (R873), then the register's own rejection rule with what it brings
beside `REJ`, then its effect on the state with the written W1C bits cleared. -/
def State.regWriteOr (s : State) (w : Who) (r : Reg) (i v : Nat) (reject : State → Bool) (onRej eff : State → State) : State :=
  match s.barred w r i v with
  | .none =>
    if s.isStatus r i v then s.clrW1C r i v
    else if reject s then onRej (s.setRej r i)
    else eff (s.clrW1C r i v)
  | b => s.bar w r i b

/-- A register write whose rejection sets `REJ` and nothing else. -/
def State.regWrite (s : State) (w : Who) (r : Reg) (i v : Nat) (reject : State → Bool) (eff : State → State) : State :=
  s.regWriteOr w r i v reject id eff

/-- The link to the host die runs: the hub is up and a UCIe module has trained (R326). -/
def State.cxlUp (s : State) : Bool := s.hubUp && decide (s.cfe.ucie ≠ 0)

/-- Host requests need the link (R326); the management controller runs through every hold (R675); firmware needs the hub. -/
def State.reaches (s : State) (w : Who) : Bool :=
  match w with
  | .mc => s.pwr.on
  | .fw => s.hubUp
  | _ => s.cxlUp

/-- A write outside the registers that the world rules bar for NS requesters and the filters for firmware: a window, an area or a doorbell
(R726, R729). -/
def State.windowBar (s : State) (w : Who) : Option State :=
  match w with
  | .ns => some (s.logC 0x0504)
  | .fw => some (s.logC 0x050D)
  | _ => none

/-! ## The Cullet list (R574 to R576) -/

/-- Packed unit number of a core site, `576 × die + 24 × row + col`, under KIND CORE (R576). -/
def siteUnit (k : Nat) : Nat := k / 576 + ((k % 576 / 24) <<< 2) + ((k % 24) <<< 7)

/-- The site that a CORE unit names, if it names one. -/
def unitSite (u : Nat) : Option Nat :=
  let d := bitsOf u 0 2
  let r := bitsOf u 2 5
  let c := bitsOf u 7 5
  if u < 4096 ∧ r < 24 ∧ c < 24 then some (576 * d + 24 * r + c) else none

/-- Whether a unit is in the list, or fenced and still to be entered (R665). -/
def State.inCullet (s : State) (kind unit : Nat) : Bool :=
  ((List.range (s.fget SPARE_FENCE.CCOUNT 0)).any fun i =>
    decide (s.fget CULLET.KIND i = kind) && decide (s.fget CULLET.UNIT i = unit)) ||
  s.boot.pendList.any fun e => decide (e.1 = kind) && decide (e.2.1 = unit)

/-- `TSEC` of a fencing now: whole seconds of machine count, saturating; 0 for factory entries (R575). -/
def State.tsec (s : State) (origin : Nat) : Nat :=
  if origin = 0 then 0 else min (s.count / 1000000000) (2 ^ 24 - 1)

/-- One more entry of the Cullet list, or `CFULL` and one CULLET_FULL when the list is full (R574, R575). -/
def State.culletPut (s : State) (kind origin unit t : Nat) : State :=
  let n := s.fget SPARE_FENCE.CCOUNT 0
  if 4096 ≤ n then
    let s := s.fset SPARE_FENCE.CFULL 0 1
    if s.spare.fullLogged then s
    else { s with spare := { s.spare with fullLogged := true } }.logC 0x0309
  else
    ((((s.fset CULLET.KIND n kind).fset CULLET.ORIGIN n origin).fset CULLET.UNIT n unit).fset CULLET.TSEC n t).fset
      SPARE_FENCE.CCOUNT 0 (n + 1)

/-- A fencing is complete and recorded: in the list once a mapping stands, with `DONE` set (R570, log 56), before that for CULLET
to enter (R574, R665). -/
def State.recordFence (s : State) (kind origin unit : Nat) : State :=
  if s.boot.mapped then (s.culletPut kind origin unit (s.tsec origin)).fset SPARE_FENCE.DONE 0 1
  else { s with boot := { s.boot with pendList := s.boot.pendList ++ [(kind, unit, origin, s.tsec origin)] } }

end Sys2Proof.Machine
end

