-- ==== Sys2Proof/Machine/Sites.lean ====
section
/-! DEFINITION. Logical cores and the sites that serve them, through `SPARE_CMAP` (R43, R157 to R162). -/
set_option autoImplicit false
namespace Sys2Proof.Machine

/-- The member field of a logical cluster (R162). -/
def memberFld : Nat → Fld
  | 0 => SPARE_CMAP.M0 | 1 => SPARE_CMAP.M1 | 2 => SPARE_CMAP.M2 | 3 => SPARE_CMAP.M3
  | 4 => SPARE_CMAP.M4 | 5 => SPARE_CMAP.M5 | 6 => SPARE_CMAP.M6 | _ => SPARE_CMAP.M7

/-- The site at a position of a physical cluster of a die: `576 × die + 24 × row + col`. -/
def siteAt (die pcluster pos : Nat) : Nat :=
  576 * die + 24 * (3 * (pcluster / 8) + pos / 3) + 3 * (pcluster % 8) + pos % 3

/-- Die, physical cluster and position of a site. -/
def siteDie (k : Nat) : Nat := k / 576
/-- As above. -/
def sitePcluster (k : Nat) : Nat := k % 576 / 24 / 3 * 8 + k % 24 / 3
/-- As above. -/
def sitePos (k : Nat) : Nat := k % 576 / 24 % 3 * 3 + k % 24 % 3

/-- The site that serves a logical core; none for a hole, an absent cluster or before the mapping is built (R157, R162). -/
def State.coreSite (s : State) (c : Nat) : Option Nat :=
  let cl := c / 8
  let p := s.fget (memberFld (c % 8)) cl
  if s.fon SPARE_CMAP.VALID cl && !s.fon SPARE_CMAP.ABSENT cl && decide (p < 9) then
    some (siteAt (c / 512) (s.fget SPARE_CMAP.PCLUST cl) p)
  else none

/-- The logical core a site serves. -/
def State.siteCore (s : State) (k : Nat) : Option Nat :=
  ((List.range 512).map (512 * siteDie k + ·)).find? fun c => decide (s.coreSite c = some k)

/-- The logical cluster a site belongs to: the one mapped to its physical cluster. -/
def State.siteCluster (s : State) (k : Nat) : Option Nat :=
  ((List.range 64).map (64 * siteDie k + ·)).find? fun cl =>
    s.fon SPARE_CMAP.VALID cl && !s.fon SPARE_CMAP.ABSENT cl && decide (s.fget SPARE_CMAP.PCLUST cl = sitePcluster k)

/-- Whether a logical cluster is one of the `SERVE_CL` highest-numbered of its die that are not absent (R43). -/
def State.serving (s : State) (cl : Nat) : Bool :=
  let above := (List.range 64).filter fun c => decide (cl % 64 < c) && !s.fon SPARE_CMAP.ABSENT (cl / 64 * 64 + c)
  !s.fon SPARE_CMAP.ABSENT cl && decide (above.length < s.fget GCTL_ROLE.SERVE_CL 0)

end Sys2Proof.Machine
end

