-- ==== Sys2Proof/Machine/Flags.lean ====
section
/-! DEFINITION. The vector engine's FP32 operations with the arithmetic status flags each raises (R118 to R123). -/
set_option autoImplicit false
namespace Sys2Proof.Machine

/-- An FP32 code's value. -/
def f32 (x : Nat) : XV := elemVal 0 x

/-- The NaN and infinity flags an operand raises on entering an operation (R123). -/
def inFlags : XV → Nat
  | .nan => aNAN_IN
  | .inf _ => aINF_IN
  | _ => 0

/-- The sign of a value. -/
def XV.neg : XV → Bool
  | .nan => false
  | .inf n => n
  | .fin n _ _ => n

/-- The value with its sign turned. -/
def XV.negate : XV → XV
  | .nan => .nan
  | .inf n => .inf (!n)
  | .fin n a b => .fin (!n) a b

/-- Whether the value is a zero. -/
def XV.isZero : XV → Bool
  | .fin _ 0 _ => true
  | _ => false

/-- A value rounded to FP32 under RNE; an exact zero keeps the sign it carries (R118). -/
def toF32 : XV → FR
  | .nan => ⟨nanCode 0, 0⟩
  | .inf n => ⟨signBit 0 n + infCode 0, 0⟩
  | .fin n 0 _ => ⟨signBit 0 n, 0⟩
  | .fin n a b => roundFin 0 rne n a b

/-- Exact sum; the sign of an exact zero follows IEEE 754 under RNE. `none` for an invalid sum. -/
def xAdd : XV → XV → Option XV
  | .inf a, .inf b => if a = b then some (.inf a) else none
  | .inf a, .fin _ _ _ => some (.inf a)
  | .fin _ _ _, .inf b => some (.inf b)
  | .fin na a b, .fin nc c d =>
    let x : Int := (if na then -1 else 1) * ((a * d : Nat) : Int)
    let y : Int := (if nc then -1 else 1) * ((c * b : Nat) : Int)
    let s := x + y
    if s = 0 then some (.fin (na && nc && decide (a = 0) && decide (c = 0)) 0 1)
    else some (.fin (decide (s < 0)) s.natAbs (b * d))
  | _, _ => some .nan

/-- Exact product. `none` for zero times infinity. -/
def xMul : XV → XV → Option XV
  | .nan, _ => some .nan
  | _, .nan => some .nan
  | .fin na a b, .fin nc c d => some (.fin (xor na nc) (a * c) (b * d))
  | x, y => if x.isZero || y.isZero then none else some (.inf (xor x.neg y.neg))

/-- A result that needs no rounding flags but the operands' own and INVALID. -/
def invalidF (fl : Nat) : FR := ⟨nanCode 0, fl ||| aINVALID⟩

/-- Rounds an operation's exact result and adds the operands' flags; a NaN operand gives NaN (R118). -/
def finishF (fl : Nat) : Option XV → FR
  | none => invalidF fl
  | some v => let r := toF32 v; ⟨r.bits, fl ||| r.flags⟩

/-- FP32 addition (R118). -/
def fAdd (x y : Nat) : FR := finishF (inFlags (f32 x) ||| inFlags (f32 y)) (xAdd (f32 x) (f32 y))

/-- FP32 subtraction (R118). -/
def fSub (x y : Nat) : FR := finishF (inFlags (f32 x) ||| inFlags (f32 y)) (xAdd (f32 x) (f32 y).negate)

/-- FP32 multiplication (R118). -/
def fMul (x y : Nat) : FR := finishF (inFlags (f32 x) ||| inFlags (f32 y)) (xMul (f32 x) (f32 y))

/-- FP32 division, with DIV_ZERO for a finite nonzero dividend (R118, R123). -/
def fDiv (x y : Nat) : FR :=
  let a := f32 x; let b := f32 y
  let fl := inFlags a ||| inFlags b
  match a, b with
  | .nan, _ => ⟨nanCode 0, fl⟩
  | _, .nan => ⟨nanCode 0, fl⟩
  | .inf _, .inf _ => invalidF fl
  | .inf n, .fin m _ _ => ⟨signBit 0 (xor n m) + infCode 0, fl⟩
  | .fin n _ _, .inf m => ⟨signBit 0 (xor n m), fl⟩
  | .fin n p q, .fin m u v =>
    if u = 0 then
      (if p = 0 then invalidF fl else ⟨signBit 0 (xor n m) + infCode 0, fl ||| aDIV_ZERO⟩)
    else finishF fl (some (.fin (xor n m) (p * v) (q * u)))

/-- FP32 fused multiply-add `x × y + z`, rounded once (R118). -/
def fFma (x y z : Nat) : FR :=
  let a := f32 x; let b := f32 y; let c := f32 z
  let fl := inFlags a ||| inFlags b ||| inFlags c
  match xMul a b with
  | none => invalidF fl
  | some p => finishF fl (xAdd p c)

/-- The integer square root, by bits from `k` down. -/
def isqrtGo (n : Nat) : Nat → Nat → Nat
  | 0, r => r
  | k + 1, r => let t := r + (1 <<< k); isqrtGo n k (if t * t ≤ n then t else r)

/-- `floor(sqrt n)` for `n` below `2^(2·640)`. -/
def isqrt (n : Nat) : Nat := isqrtGo n 640 0

/-- A positive value known to lie strictly between `x / 2^p` and `(x+1) / 2^p`, written as a point between. -/
def between (neg : Bool) (x p : Nat) : XV := .fin neg (2 * x + 1) (1 <<< (p + 1))

/-- FP32 square root (R118). -/
def fSqrt (x : Nat) : FR :=
  let a := f32 x
  let fl := inFlags a
  match a with
  | .nan => ⟨nanCode 0, fl⟩
  | .inf n => if n then invalidF fl else ⟨infCode 0, fl⟩
  | .fin n p q =>
    if p = 0 then ⟨signBit 0 n, fl⟩
    else if n then invalidF fl
    else
      let t := (p <<< 512) / q
      let r := isqrt t
      finishF fl (some (if r * r = t ∧ (p <<< 512) % q = 0 then .fin false r (1 <<< 256) else between false r 256))

/-- Working precision of the transcendental functions, in bits after the point. -/
def fxP : Nat := 256

/-- `2^fxP × sum over k of 1 / (k × 2^k)`, which is `ln 2`. -/
def ln2Go : Nat → Nat → Nat → Nat
  | 0, _, acc => acc
  | n + 1, k, acc => ln2Go n (k + 1) (acc + (1 <<< (fxP + 64 - k)) / k)

/-- `ln 2` in fixed point. -/
def fxLn2 : Nat := ln2Go 300 1 0 >>> 64

/-- `2^fxP × e^(r / 2^fxP)` for `r` below `ln 2`, by the exponential series. -/
def fxExpGo (r : Nat) : Nat → Nat → Nat → Nat → Nat
  | 0, _, _, acc => acc
  | n + 1, k, t, acc => let t' := ((t * r) >>> fxP) / k; fxExpGo r n (k + 1) t' (acc + t')

/-- The exponential of a fraction. -/
def fxExp (r : Nat) : Nat := fxExpGo r 70 1 (1 <<< fxP) (1 <<< fxP)

/-- `x` times `2^k` from fixed point, as a value strictly between its neighbours. -/
def fxValue (x : Nat) (k : Int) : XV := (between false x fxP).scale k

/-- FP32 exp (R119). Beyond ±128 the result overflows or rounds to 0, which the two stand-in values show. -/
def fExp (x : Nat) : FR :=
  let a := f32 x
  let fl := inFlags a
  match a with
  | .nan => ⟨nanCode 0, fl⟩
  | .inf n => if n then ⟨0, fl⟩ else ⟨infCode 0, fl⟩
  | .fin n p q =>
    if p = 0 then ⟨0x3F800000, fl⟩
    else if 128 * q ≤ p then
      finishF fl (some (if n then .fin false 1 (1 <<< 300) else .fin false (1 <<< 300) 1))
    else
      let m := (p <<< fxP) / q
      let i : Int := if n then -(m : Int) else (m : Int)
      let k := i / (fxLn2 : Int)
      let r := (i - k * (fxLn2 : Int)).toNat
      finishF fl (some (fxValue (fxExp r) k))

/-- FP32 exp2 (R119). -/
def fExp2 (x : Nat) : FR :=
  let a := f32 x
  let fl := inFlags a
  match a with
  | .nan => ⟨nanCode 0, fl⟩
  | .inf n => if n then ⟨0, fl⟩ else ⟨infCode 0, fl⟩
  | .fin n p q =>
    if 256 * q ≤ p then
      finishF fl (some (if n then .fin false 1 (1 <<< 300) else .fin false (1 <<< 300) 1))
    else
      let m := (p <<< fxP) / q
      let i : Int := if n then -(m : Int) else (m : Int)
      let k := i / ((1 <<< fxP : Nat) : Int)
      let r := (i - k * ((1 <<< fxP : Nat) : Int)).toNat
      if r = 0 then finishF fl (some ((XV.fin false 1 1).scale k))
      else finishF fl (some (fxValue (fxExp ((r * fxLn2) >>> fxP)) k))

/-- `2^fxP × atanh(z / 2^fxP)` by its series. -/
def fxAtanhGo (z2 : Nat) : Nat → Nat → Nat → Nat → Nat
  | 0, _, _, acc => acc
  | n + 1, k, t, acc => fxAtanhGo z2 n (k + 2) ((t * z2) >>> fxP) (acc + t / k)

/-- `2^fxP × ln(t / 2^fxP)` for `t / 2^fxP` in [1, 2). -/
def fxLn (t : Nat) : Nat :=
  let one := 1 <<< fxP
  let z := ((t - one) <<< fxP) / (t + one)
  2 * fxAtanhGo ((z * z) >>> fxP) 90 1 z 0

/-- FP32 log2 (R119). The log of a zero is −infinity with DIV_ZERO (R123); of a negative number, invalid. -/
def fLog2 (x : Nat) : FR :=
  let a := f32 x
  let fl := inFlags a
  match a with
  | .nan => ⟨nanCode 0, fl⟩
  | .inf n => if n then invalidF fl else ⟨infCode 0, fl⟩
  | .fin n p q =>
    if p = 0 then ⟨signBit 0 true + infCode 0, fl ||| aDIV_ZERO⟩
    else if n then invalidF fl
    else
      let e := flog2 p q
      let s := scale2 p q (-e)
      let t := (s.1 <<< fxP) / s.2
      if t = 1 <<< fxP then finishF fl (some (.fin (decide (e < 0)) e.natAbs 1))
      else
        let l := (fxLn t <<< fxP) / fxLn2
        let v : Int := e * ((1 <<< fxP : Nat) : Int) + (l : Int)
        finishF fl (some (if v < 0 then between true ((-v).toNat - 1) fxP else between false v.toNat fxP))

/-- FP32 reciprocal (R119). -/
def fRcp (x : Nat) : FR :=
  let a := f32 x
  let fl := inFlags a
  match a with
  | .nan => ⟨nanCode 0, fl⟩
  | .inf n => ⟨signBit 0 n, fl⟩
  | .fin n p q => if p = 0 then ⟨signBit 0 n + infCode 0, fl ||| aDIV_ZERO⟩ else finishF fl (some (.fin n q p))

/-- FP32 reciprocal square root (R119). -/
def fRsqrt (x : Nat) : FR :=
  let a := f32 x
  let fl := inFlags a
  match a with
  | .nan => ⟨nanCode 0, fl⟩
  | .inf n => if n then invalidF fl else ⟨0, fl⟩
  | .fin n p q =>
    if p = 0 then ⟨signBit 0 n + infCode 0, fl ||| aDIV_ZERO⟩
    else if n then invalidF fl
    else
      let t := (q <<< 512) / p
      let r := isqrt t
      finishF fl (some (if r * r = t ∧ (q <<< 512) % p = 0 then .fin false r (1 <<< 256) else between false r 256))

/-- `x < y` of values that are not NaN, with −0 below +0 (R120). -/
def xLt : XV → XV → Bool
  | .inf a, .inf b => a && !b
  | .inf a, .fin _ _ _ => a
  | .fin _ _ _, .inf b => !b
  | .fin na a b, .fin nc c d =>
    if na then (if nc then decide (c * b < a * d) else true)
    else (if nc then false else decide (a * d < c * b))
  | _, _ => false

/-- MAX and MIN (R120). -/
def fMax (x y : Nat) : FR :=
  let fl := inFlags (f32 x) ||| inFlags (f32 y)
  match f32 x, f32 y with
  | .nan, _ => ⟨nanCode 0, fl⟩
  | _, .nan => ⟨nanCode 0, fl⟩
  | a, b => ⟨if xLt a b then y else x, fl⟩

/-- MIN (R120). -/
def fMin (x y : Nat) : FR :=
  let fl := inFlags (f32 x) ||| inFlags (f32 y)
  match f32 x, f32 y with
  | .nan, _ => ⟨nanCode 0, fl⟩
  | _, .nan => ⟨nanCode 0, fl⟩
  | a, b => ⟨if xLt b a then y else x, fl⟩

/-- `a < b` as IEEE 754 compares: false with a NaN, −0 equal to +0. -/
def ieeeLt : XV → XV → Bool
  | .nan, _ => false
  | _, .nan => false
  | a, b => if a.isZero && b.isZero then false else xLt a b

/-- One pass of the pairwise sum: neighbours at distance one are added, the lower first (R121). -/
def pairPass : List Nat → List FR
  | a :: b :: r => fAdd a b :: pairPass r
  | [a] => [⟨a, 0⟩]
  | [] => []

/-- The fixed pairwise sum over `2^k` lanes (R121), with the flags of every addition. -/
def pairSum : Nat → List Nat → Nat → FR
  | 0, l, fl => ⟨l.headD 0, fl⟩
  | k + 1, l, fl =>
    let p := pairPass l
    pairSum k (p.map (·.bits)) (p.foldl (fun a r => a ||| r.flags) fl)

end Sys2Proof.Machine
end

