-- ==== Sys2Proof/Machine/Packet.lean ====
section
/-! DEFINITION. Packets: their checks, the module's address and how the hub forms a header (R375 to R381, R660, R835). -/
set_option autoImplicit false
namespace Sys2Proof.Machine

/-- One bit of a CRC that takes bits most significant first. -/
def crcBit (w poly c : Nat) (b : Bool) : Nat :=
  let c' := (c <<< 1) % 2 ^ w
  if c.testBit (w - 1) = b then c' else c' ^^^ poly

/-- One byte, most significant bit first. -/
def crcByte (w poly c : Nat) (b : Byte) : Nat :=
  [7, 6, 5, 4, 3, 2, 1, 0].foldl (fun c i => crcBit w poly c (b.toNat.testBit i)) c

/-- A CRC that takes each byte most significant bit first. -/
def crcMsb (w poly init xor : Nat) (l : List Byte) : Nat := l.foldl (crcByte w poly) init ^^^ xor

/-- CRC-16 of a header (R379). -/
def crc16 (l : List Byte) : Nat := crcMsb 16 0x1021 0xFFFF 0 l

/-- CRC-64 of a trailer (R380). -/
def crc64 (l : List Byte) : Nat := crcMsb 64 0x42F0E1EBA9EA3693 0xFFFFFFFFFFFFFFFF 0xFFFFFFFFFFFFFFFF l

/-- CRC-8 of a coolant frame (R835). -/
def crc8 (l : List Byte) : Nat := crcMsb 8 0x07 0 0 l

/-- `HCRC` of a header, taken with `HCRC` 0 (R379). -/
def hcrcOf (h : Nat) : Nat := crc16 (leBytes 32 (PH.HCRC.put h 0))

/-- The trailer's CRC-64, with `VC`, `HOPS` and `HCRC` taken as 0 (R380). -/
def trailerOf (h : Nat) (pay : List Byte) : Nat :=
  crc64 (leBytes 32 (PH.HCRC.put (PH.HOPS.put (PH.VC.put h 0) 0) 0) ++ pay)

/-- The digest of compare-on-discard (R417). -/
def cmpDigest (p : Pkt) : Nat :=
  crc64 (leBytes 6 (PH.RADDR.of p.hdr) ++ leBytes 2 (PH.MSGID.of p.hdr) ++ leBytes 4 (PH.MTLEN.of p.hdr) ++
    leBytes 2 (PH.PLEN.of p.hdr) ++ p.pay)

/-- The header with `HCRC` computed again (R379). -/
def sealHdr (h : Nat) : Nat := PH.HCRC.put h (hcrcOf h)

/-- A packet from header fields and a payload: `PLEN`, `HCRC` and the trailer follow. -/
def mkPkt (fs : List (BF × Nat)) (pay : List Byte) : Pkt :=
  let h := packFields fs + PH.PLEN.mk1 pay.length
  ⟨sealHdr h, pay, trailerOf h pay, false⟩

/-- Flits of a packet (R375). -/
def flitsOf (p : Pkt) : Nat := ceilDiv (40 + p.pay.length) 64

/-! Packet types (R377). -/
/-- R377. -/
def tyPUT : Nat := 1
/-- R377. -/
def tyGETREQ : Nat := 2
/-- R377. -/
def tyGETRESP : Nat := 3
/-- R377. -/
def tyACK : Nat := 4
/-- R377. -/
def tyNACK : Nat := 5
/-- R377. -/
def tyATOMIC : Nat := 6
/-- R377. -/
def tyQUERY : Nat := 7
/-- R377. -/
def tyQRESP : Nat := 8
/-- R377. -/
def tyCOLL : Nat := 9
/-- R377. -/
def tyABORT : Nat := 10
/-- R377. -/
def tyMGMT : Nat := 11
/-- R377. -/
def tyTIME : Nat := 12

/-- Sequenced types (R377). -/
def sequenced (t : Nat) : Bool := [1, 2, 3, 6, 7, 8, 9, 11].contains t

/-- A module address: rack, tray, slot. -/
def modAddr (rack tray slot : Nat) : Nat := rack * 64 + tray * 4 + slot

/-- This module's address (R386). -/
def State.self (s : State) : Nat := modAddr (s.fget FAB_CTL.RACK 0) (s.fget FAB_CTL.TRAY 0) (s.fget FAB_CTL.SLOT 0)

/-- Module and endpoint as `DEST` and `SRC` hold them (R376). -/
def epAddr (m e : Nat) : Nat := m * 256 + e

/-- The module of an address with endpoint. -/
def epMod (a : Nat) : Nat := a / 256

/-- The endpoint of an address with endpoint. -/
def epNum (a : Nat) : Nat := a % 256

/-- A multicast sender or group packet's group. -/
def pktGroup (p : Pkt) : Nat := PH.DEST.of p.hdr % 4096

/-- This module is a member of a mirror pair (R617, R619). -/
def State.inPair (s : State) : Bool := s.fon SPARE_PAIR.VALID 0

/-- The `PAIR` flag of what this hub sends (R378). -/
def State.pairFlag (s : State) : Nat := if s.inPair then PFL.PAIR.mk1 1 else 0

/-- A packet handed to this hub's router. -/
def State.inject (s : State) (p : Pkt) : State := s.emit (.inject p)

/-! Port states that several families read. -/

/-- A port in LS0 (R63, R449). -/
def State.portLS0 (s : State) (p : Nat) : Bool := decide (s.fget LANE_PSTAT.LSTATE p = 0)

/-- A port in LS0 or LS1 (R871). -/
def State.portLS01 (s : State) (p : Nat) : Bool := decide (s.fget LANE_PSTAT.LSTATE p ≤ 1)

/-- In service: the link is up and nobody holds it down (R400). -/
def State.inServ (s : State) (p : Nat) : Bool := s.fon FAB_PORT.LINK_UP p && !s.fon FAB_PORT.DOWN_REQ p

end Sys2Proof.Machine
end

