-- ==== Sys2Proof/Machine/Dump.lean ====
section
/-! DEFINITION. The crash dump: what a capture holds and when one is taken or dropped (R609 to R614, R744). -/
set_option autoImplicit false
namespace Sys2Proof.Machine

/-- The slot of the dump key among the key generations (R306). -/
def dumpKeySlot : Nat := 63

/-- The lowest-numbered free capture slot (R609). -/
def State.freeSlot (s : State) : Option Nat :=
  (List.range 8).find? (fun k => !(s.fget SPARE_DUMP.USED 0).testBit k)

/-- A section's bytes: registers of one kind, in order. -/
def State.regBytes (s : State) (r : Reg) (n size : Nat) : List Byte :=
  (List.range n).flatMap fun i => leBytes size (s.regWord r i)

/-- The core section: of every work list resident on the captured sites its position with its open loops, its prefetched descriptors and
token counters, and what its engines and stream channels are at: each descriptor that runs, and the parts of it that have started,
finished and been told (R611, log 30). -/
def State.coreSection (s : State) (sites : List Nat) : List Byte :=
  (s.core.rsds.filter fun r => sites.contains r.site).flatMap fun r =>
    leBytes 2 r.site ++ leBytes 2 r.ring ++ leBytes 4 r.seq ++ leBytes 4 r.pos ++
    (r.loops.flatMap fun l => leBytes 4 l.1 ++ leBytes 4 l.2.1 ++ leBytes 4 l.2.2) ++
    (r.buf.flatMap fun e => leBytes 4 e.1 ++ leBytes 64 e.2) ++ r.ctrs.flatMap (leBytes 4 ·) ++
    r.flights.flatMap fun f =>
      leBytes 4 f.pos ++ leBytes 64 f.word ++ leBytes 4 f.started ++ leBytes 4 f.written.length ++ leBytes 4 f.told

/-- The indices of every enabled ring: its number, `CFE_RING_PTR` and `CFE_RING_CPTR` (R611, log 30). -/
def State.ringSection (s : State) : List Byte :=
  ((List.range 8192).filter fun r => s.fon CFE_RING_CMD.EN r).flatMap fun r =>
    leBytes 2 r ++ leBytes 8 (s.regWord .CFE_RING_PTR r) ++ leBytes 8 (s.regWord .CFE_RING_CPTR r)

/-- The hub section: launched commands, source streams, collective instances and shard queries (R611). -/
def State.hubSection (s : State) : List Byte :=
  ((s.cfe.cmds.filter (·.launched)).flatMap fun c => leBytes 2 c.ring ++ leBytes 4 c.seq) ++
  (s.fab.sstr.flatMap fun t => leBytes 1 t.ep ++ leBytes 2 t.dmod ++ leBytes 1 t.dep ++ leBytes 4 t.next) ++
  (s.coll.insts.flatMap fun i => leBytes 2 i.group ++ leBytes 2 i.cseq) ++
  s.att.shards.flatMap fun q => leBytes 4 q.qtag

/-- The sections of a capture in the order of R611, without the header. -/
def State.capSections (s : State) (sites : List Nat) (graph : List Byte) : List (List Byte) :=
  [s.regBytes .ELOG 256 64 ++ leBytes 4 (s.fget SPARE_ELOG_PTR.WCOUNT 0),
   s.regBytes .CTX_CFG 256 8 ++ s.regBytes .CTX_STATE 256 8 ++ s.regBytes .CTX_DIV 256 8 ++ s.ringSection,
   s.regBytes .CULLET 4096 8 ++ s.regBytes .SPARE_CMAP 256 8 ++ s.regBytes .SPARE_WEAR 2304 8 ++ s.regBytes .SPARE_REPLAY_STAT 1 8,
   s.coreSection sites, s.hubSection, graph]

/-- Offset and length of each section, from a first offset (log 30). -/
def sectionTable : Nat → List (List Byte) → List Byte
  | _, [] => []
  | o, x :: r => leBytes 4 o ++ leBytes 4 x.length ++ sectionTable (o + x.length) r

/-- A whole capture: the header of R611 in 128 bytes, then its sections. -/
def State.capBytes (s : State) (trig : Nat) (sites : List Nat) (smear : Bool) (graph : List Byte) : List Byte :=
  let secs := s.capSections sites graph
  let h := leBytes 4 0x4E4C4344 ++ leBytes 1 trig ++ leBytes 8 s.count ++ leBytes 1 (b2n s.unsync + 2 * b2n smear) ++
    sectionTable 128 secs
  h ++ zeros (128 - h.length) ++ secs.flatten

/-- A trigger of R609: a capture starts in the lowest free slot, or is dropped and counted (R610, R744). Trigger codes are
the rows of R609 from 0 (log 30). -/
def State.trigger (s : State) (trig : Nat) (sites : List Nat) (smear : Bool) (graph : List Byte) : State :=
  match s.freeSlot with
  | some k =>
    if s.fon SPARE_DUMP.BUSY 0 || decide (tget s.mem.keyGen dumpKeySlot 0 = 0) then s.fsat SPARE_DUMP.DROPPED 0 1
    else
      { s with mem := { s.mem with capNow := some ⟨k, trig, s.count, s.unsync, smear, s.capBytes trig sites smear graph⟩ } }.fset
        SPARE_DUMP.BUSY 0 1
  | none => s.fsat SPARE_DUMP.DROPPED 0 1

/-- Sites that hold resident work. -/
def State.workSites (s : State) : List Nat := (s.core.rsds.map (·.site)).eraseDups

end Sys2Proof.Machine
end

