-- ==== Sys2Proof/Machine/Aes.lean ====
section
/-! DEFINITION. AES-256 with the modes the module uses: XTS and CMAC for device memory, GCM for optical links and firmware images
(R301, R302, R751, R776; FIPS 197, NIST SP 800-38B, 38D and 38E, log 82). Bytes are numbers below 256. -/
set_option autoImplicit false
namespace Sys2Proof.Machine

/-! ## The cipher -/

/-- The substitution box, 32 bytes in each number, the first lowest. -/
def aesBox : List Nat :=
  [0xC072A49CAFA2D4ADF04759FA7DC982CA76ABD7FE2B670130C56F6BF27B777C63,
   0x75B227EBE28012079A059618C323C7041531D871F1E5A534CCF73F362693FDB7,
   0xCF584C4A39BECB6A5BB1FC20ED00D153842FE329B3D63B52A05A6E1B1A2C8309,
   0xD2F3FF1021DAB6BCF5389D928F40A351A89F3C507F02F94585334D43FBAAEFD0,
   0xDB0B5EDE14B8EE4688902A22DC4F816073195D643D7EA7C41744975FEC130CCD,
   0x08AE7A65EAF4566CA94ED58D6D37C8E779E4959162ACD3C25C2406490A3A32E0,
   0x9E1DC186B95735610EF6034866B53E708A8BBD4B1F74DDE8C6B4A61C2E2578BA,
   0x16BB54B00F2D99416842E6BF0D89A18CDF2855CEE9871E9B948ED9691198F8E1]

/-- A byte substituted. -/
def aesSub (x : Nat) : Nat := bitsOf (aesBox.getD (x / 32) 0) (8 * (x % 32)) 8

/-- A byte times x in the field of the cipher. -/
def aesX (b : Nat) : Nat := if 128 ≤ b then (2 * b - 256) ^^^ 0x1B else 2 * b

/-- Runs of bytes added. -/
def xorAll (a b : List Nat) : List Nat := (a.zip b).map fun e => e.1 ^^^ e.2

/-- The words of the key schedule from word `i` on, `n` more of them, the newest first. -/
def aesWords : Nat → Nat → Nat → List (List Nat) → List (List Nat)
  | 0, _, _, w => w
  | n + 1, i, rc, w =>
    let t := w.headD []
    let t := if i % 8 = 0 then xorAll ((t.drop 1 ++ t.take 1).map aesSub) [rc, 0, 0, 0] else if i % 8 = 4 then t.map aesSub else t
    aesWords n (i + 1) (if i % 8 = 0 then aesX rc else rc) (xorAll (w.getD 7 []) t :: w)

/-- The fifteen round keys of a 32-byte key. -/
def aesKeys (key : List Nat) : List (List Nat) :=
  let w := (aesWords 52 8 1 ((List.range 8).map fun i => slice key (4 * i) 4).reverse).reverse.flatten
  (List.range 15).map fun i => slice w (16 * i) 16

/-- Rows shifted: row r of the column-wise block by r places. -/
def aesRows (b : List Nat) : List Nat := (List.range 16).map fun i => b.getD ((i + 4 * (i % 4)) % 16) 0

/-- A column mixed. -/
def aesMix (c : List Nat) : List Nat :=
  (List.range 4).map fun i =>
    let at_ (k : Nat) : Nat := c.getD ((i + k) % 4) 0
    aesX (at_ 0) ^^^ (aesX (at_ 1) ^^^ at_ 1) ^^^ at_ 2 ^^^ at_ 3

/-- The rounds but the first key addition; the last mixes no columns. -/
def aesRounds : List (List Nat) → List Nat → List Nat
  | [], b => b
  | [k], b => xorAll (aesRows (b.map aesSub)) k
  | k :: r, b =>
    let b := aesRows (b.map aesSub)
    aesRounds r (xorAll ((List.range 4).flatMap fun c => aesMix (slice b (4 * c) 4)) k)

/-- A block enciphered under round keys. -/
def aesEnc (ks : List (List Nat)) (b : List Nat) : List Nat := aesRounds (ks.drop 1) (xorAll b (ks.headD []))

/-- Bytes cut into blocks of 16, `n` of them. -/
def blocks16 (n : Nat) (b : List Nat) : List (List Nat) := (List.range n).map fun i => slice b (16 * i) 16

/-- The bytes of a number, lowest first, and their number. -/
def numBytes (n v : Nat) : List Nat := (List.range n).map fun i => bitsOf v (8 * i) 8
/-- As above. -/
def bytesNum (l : List Nat) : Nat := l.foldr (fun b a => b + 256 * a) 0

/-- A block read as a number, its first byte highest. -/
def blockNum (l : List Nat) : Nat := l.foldl (fun a b => 256 * a + b) 0

/-- A number as a block, highest byte first. -/
def numBlock (v : Nat) : List Nat := (numBytes 16 v).reverse

/-! ## XTS (NIST SP 800-38E) -/

/-- The blocks of a data unit enciphered, under a tweak that doubles from block to block. -/
def xtsBlocks (ks : List (List Nat)) : Nat → List (List Nat) → List Nat
  | _, [] => []
  | t, b :: r =>
    let m := numBytes 16 t
    xorAll (aesEnc ks (xorAll b m)) m ++ xtsBlocks ks (if 2 ^ 127 ≤ t then (2 * t - 2 ^ 128) ^^^ 0x87 else 2 * t) r

/-- A data unit of whole blocks under two keys and a tweak. -/
def aesXts (k1 k2 : List Nat) (tweak : Nat) (b : List Nat) : List Nat :=
  xtsBlocks (aesKeys k1) (bytesNum (aesEnc (aesKeys k2) (numBytes 16 tweak))) (blocks16 (b.length / 16) b)

/-! ## CMAC (NIST SP 800-38B) -/

/-- A block doubled in the field of CMAC. -/
def cmacDouble (b : List Nat) : List Nat :=
  let v := blockNum b
  numBlock (if 2 ^ 127 ≤ v then (2 * v - 2 ^ 128) ^^^ 0x87 else 2 * v)

/-- CMAC of a message under a key. -/
def aesCmac (key : List Nat) (m : List Nat) : List Nat :=
  let ks := aesKeys key
  let k1 := cmacDouble (aesEnc ks (List.replicate 16 0))
  let n := max 1 (ceilDiv m.length 16)
  let last := m.drop (16 * (n - 1))
  let last := if last.length = 16 then xorAll last k1 else xorAll (last ++ [128] ++ List.replicate (15 - last.length) 0) (cmacDouble k1)
  aesEnc ks (xorAll ((blocks16 (n - 1) m).foldl (fun c b => aesEnc ks (xorAll c b)) (List.replicate 16 0)) last)

/-! ## GCM (NIST SP 800-38D) -/

/-- The product of two blocks in the field of GHASH, a block read with its first bit highest. -/
def ghashMul (x y : Nat) : Nat :=
  ((List.range 128).foldl (fun (a : Nat × Nat) i =>
    (if x.testBit (127 - i) then a.1 ^^^ a.2 else a.1, if a.2 % 2 = 1 then (a.2 / 2) ^^^ (0xE1 <<< 120) else a.2 / 2)) (0, y)).1

/-- GHASH of whole blocks. -/
def ghash (h : Nat) (bs : List (List Nat)) : Nat := bs.foldl (fun a b => ghashMul (a ^^^ blockNum b) h) 0

/-- A run padded with zeros to whole blocks. -/
def padded16 (b : List Nat) : List Nat := b ++ List.replicate ((16 - b.length % 16) % 16) 0

/-- The key stream from a counter block on, for `n` blocks. -/
def gcmStream (ks : List (List Nat)) (nonce : List Nat) (n : Nat) : List Nat :=
  (List.range n).flatMap fun i => aesEnc ks (nonce ++ (numBytes 4 (i + 2)).reverse)

/-- Bytes enciphered or deciphered under a key and a 12-byte nonce. -/
def gcmXor (key nonce b : List Nat) : List Nat := xorAll b (gcmStream (aesKeys key) nonce (ceilDiv b.length 16))

/-- The tag of a ciphertext with additional data. -/
def gcmTagWith (key nonce aad c : List Nat) : List Nat :=
  let ks := aesKeys key
  let h := blockNum (aesEnc ks (List.replicate 16 0))
  let p := padded16 aad ++ padded16 c
  let s := ghash h (blocks16 (p.length / 16) p ++ [numBlock ((8 * aad.length <<< 64) + 8 * c.length)])
  xorAll (numBlock s) (aesEnc ks (nonce ++ [0, 0, 0, 1]))

/-- The tag of a ciphertext with no additional data. -/
def gcmTag (key nonce c : List Nat) : List Nat := gcmTagWith key nonce [] c

end Sys2Proof.Machine
end

