-- ==== Sys2Proof/Machine/Sha256.lean ====
section
/-! DEFINITION. SHA-256 (FIPS 180-4), which the spec names for the calibration digest, measurements and hashes of keys, with HMAC and HKDF
over it (FIPS 198-1, RFC 5869; R749, R776). -/
set_option autoImplicit false
namespace Sys2Proof.Machine

/-- The greatest number of `k` binary digits, joined to `r`, whose power `e` does not exceed `x`: its digits from the highest down. -/
def rootDigits (e x : Nat) : Nat → Nat → Nat
  | 0, r => r
  | k + 1, r => rootDigits e x k (if (r + 2 ^ k) ^ e ≤ x then r + 2 ^ k else r)

/-- The first 32 bits of the fraction of the root `e` of a number below 512: FIPS 180-4 defines all constants of the hash so. -/
def rootFraction (e p : Nat) : Nat := rootDigits e (p <<< (32 * e)) 37 0 % 2 ^ 32

/-- The primes below 312, of which there are 64. -/
def shaPrimes : List Nat :=
  (List.range 312).filter fun p => decide (2 ≤ p) && (List.range 18).all fun d => decide (d < 2) || decide (p = d) || decide (p % d ≠ 0)

/-- The round constants, from the cube roots of the primes. -/
def shaK : List Nat := shaPrimes.map (rootFraction 3)

/-- A 32-bit rotation to the right. -/
def rotr (x n : Nat) : Nat := ((x >>> n) ||| (x <<< (32 - n))) % 2 ^ 32

/-- A 32-bit sum. -/
def add32 (a b : Nat) : Nat := (a + b) % 2 ^ 32

/-- The eight chaining words. -/
structure ShaH where
  a : Nat
  b : Nat
  c : Nat
  d : Nat
  e : Nat
  f : Nat
  g : Nat
  h : Nat

/-- The initial value, from the square roots of the first eight primes. -/
def shaH0 : ShaH :=
  let r (i : Nat) : Nat := rootFraction 2 (shaPrimes.getD i 0)
  ⟨r 0, r 1, r 2, r 3, r 4, r 5, r 6, r 7⟩

/-- The message schedule: the last 16 words, newest last, give the next one. -/
def shaNext (w : List Nat) : Nat :=
  let x := w.getD 14 0
  let y := w.getD 1 0
  let s1 := rotr x 17 ^^^ rotr x 19 ^^^ (x >>> 10)
  let s0 := rotr y 7 ^^^ rotr y 18 ^^^ (y >>> 3)
  add32 (add32 s1 (w.getD 9 0)) (add32 s0 (w.getD 0 0))

/-- One round with its word and constant. -/
def shaRound (v : ShaH) (w k : Nat) : ShaH :=
  let s1 := rotr v.e 6 ^^^ rotr v.e 11 ^^^ rotr v.e 25
  let ch := (v.e &&& v.f) ^^^ ((2 ^ 32 - 1 - v.e) &&& v.g)
  let t1 := add32 (add32 v.h s1) (add32 ch (add32 k w))
  let s0 := rotr v.a 2 ^^^ rotr v.a 13 ^^^ rotr v.a 22
  let mj := (v.a &&& v.b) ^^^ (v.a &&& v.c) ^^^ (v.b &&& v.c)
  ⟨add32 t1 (add32 s0 mj), v.a, v.b, v.c, add32 v.d t1, v.e, v.f, v.g⟩

/-- The rounds of one block over a sliding window of 16 words. -/
def shaRounds : List Nat → List Nat → ShaH → ShaH
  | [], _, v => v
  | k :: ks, w, v => shaRounds ks (w.drop 1 ++ [shaNext w]) (shaRound v (w.getD 0 0) k)

/-- The 16 words of a block. -/
def shaWords (b : List Byte) : List Nat := (List.range 16).map fun i => ofBE (slice b (4 * i) 4)

/-- One block. -/
def shaBlock (v : ShaH) (b : List Byte) : ShaH :=
  let r := shaRounds shaK (shaWords b) v
  ⟨add32 v.a r.a, add32 v.b r.b, add32 v.c r.c, add32 v.d r.d, add32 v.e r.e, add32 v.f r.f, add32 v.g r.g, add32 v.h r.h⟩

/-- The padded message. -/
def shaPad (m : List Byte) : List Byte :=
  m ++ [0x80] ++ zeros ((119 - m.length % 64) % 64) ++ (leBytes 8 (8 * m.length)).reverse

/-- Blocks one after another, `n` of them. -/
def shaBlocks : Nat → List Byte → ShaH → ShaH
  | 0, _, v => v
  | n + 1, m, v => shaBlocks n (m.drop 64) (shaBlock v (m.take 64))

/-- The 32 bytes of the digest. -/
def sha256 (m : List Byte) : List Byte :=
  let p := shaPad m
  let v := shaBlocks (p.length / 64) p shaH0
  [v.a, v.b, v.c, v.d, v.e, v.f, v.g, v.h].flatMap fun x => (leBytes 4 x).reverse

/-! ## HMAC and HKDF -/

/-- Bytes cut or padded to a length. -/
def fixLen (n : Nat) (b : List Byte) : List Byte := (b ++ zeros n).take n

/-- HMAC-SHA-256 under a key of at most 64 bytes (FIPS 198-1). -/
def hmac (key msg : List Byte) : List Byte :=
  let k := fixLen 64 key
  sha256 ((k.map (· ^^^ 0x5C)) ++ sha256 ((k.map (· ^^^ 0x36)) ++ msg))

/-- HKDF-Expand of 32 bytes (RFC 5869). -/
def hkdfExpand (prk info : List Byte) : List Byte := hmac prk (info ++ [1])

/-- Bytes of an ASCII label. -/
def ascii (t : String) : List Byte := t.toList.map fun c => BitVec.ofNat 8 c.toNat

end Sys2Proof.Machine
end

