-- ==== Sys2Proof/Machine/Memory.lean ====
section
/-! DEFINITION. Device memory: the address map, region checks, granules with their keys and failures, reads and writes
(R283 to R324, R870). -/
set_option autoImplicit false
namespace Sys2Proof.Machine

/-! ## Bytes of a memory in canonical form -/

/-- What is read at an address: 0 where nothing is listed. -/
def cellAt : List Host.Cell → Nat → Byte
  | [], _ => 0
  | (k, b) :: r, a => if k = a then b else cellAt r a

/-- `n` bytes from address `a` on, of cells that begin at or above it. -/
def cellsFrom : List Host.Cell → Nat → Nat → List Byte
  | _, _, 0 => []
  | [], a, n + 1 => 0 :: cellsFrom [] (a + 1) n
  | (k, b) :: r, a, n + 1 => if k = a then b :: cellsFrom r (a + 1) n else 0 :: cellsFrom ((k, b) :: r) (a + 1) n

/-- A range read. -/
def cellsRead (m : List Host.Cell) (a n : Nat) : List Byte :=
  cellsFrom (m.filter (fun c => decide (a ≤ c.1))) a n

/-- The cells that bytes from an address on make: bytes of 0 are not listed. -/
def cellsOf : Nat → List Byte → List Host.Cell
  | _, [] => []
  | a, b :: r => if b = 0 then cellsOf (a + 1) r else (a, b) :: cellsOf (a + 1) r

/-- A range written. -/
def cellsWrite (m : List Host.Cell) (a : Nat) (l : List Byte) : List Host.Cell :=
  m.filter (fun c => decide (c.1 < a)) ++ cellsOf a l ++ m.filter (fun c => decide (a + l.length ≤ c.1))

/-- A range set to 0. -/
def cellsClear (m : List Host.Cell) (a n : Nat) : List Host.Cell :=
  m.filter (fun c => decide (c.1 < a) || decide (a + n ≤ c.1))

/-- The canonical form: addresses strictly rising, and no byte of 0 listed. -/
def Memory.wf : List Host.Cell → Bool
  | [] => true
  | [c] => decide (c.2 ≠ 0)
  | c :: d :: r => decide (c.2 ≠ 0) && decide (c.1 < d.1) && Memory.wf (d :: r)

/-! ## The address map (R284 to R291) -/

/-- A frame is 2 MiB. -/
def frameOf (a : Nat) : Nat := a >>> 21

/-- A granule is 128 bytes. -/
def granOf (a : Nat) : Nat := a >>> 7

/-- First frame of the crash dump, and the first beyond memory (R286). -/
def dumpFrame : Nat := 261632
/-- Frames of device memory (R286). -/
def frames : Nat := 262144

/-- The stack that holds a frame (R287). -/
def stackOf (frame : Nat) : Nat := 3 * (frame / 65536) + frame % 65536 % 3

/-- The host region, first and last frame, while there is one (R289). -/
def State.hostRegion (s : State) : Option (Nat × Nat) :=
  if s.fon MEM_HOST.EN 0 then
    some (s.fget MEM_HOST.BASE 0, s.fget MEM_HOST.BASE 0 + s.fget MEM_HOST.SIZE_M1 0) else none

/-- Frames lo to hi lie wholly in the host region. -/
def State.inHost (s : State) (lo hi : Nat) : Bool :=
  match s.hostRegion with
  | some (a, b) => decide (a ≤ lo) && decide (hi ≤ b)
  | none => false

/-- `n` bytes at device address `a` lie wholly in the host region. -/
def State.spanInHost (s : State) (a n : Nat) : Bool := s.inHost (frameOf a) (frameOf (a + (n - 1)))

/-! ## Region checks (R293 to R299, R870) -/

/-- On whose behalf an access is made: partition, world (1 for S), context where there is one, and the reader's row in R311. -/
structure Party where
  part   : Nat
  world  : Nat
  ctx    : Option Nat
  reader : Nat
  deriving DecidableEq, Repr

/-- A region field as the checkers hold it (R299). -/
def State.rgn (s : State) (f : Fld) (i : Nat) : Nat := (tfind s.mem.pendRgn (f.key i)).getD (s.fget f i)

/-- The governing entry of a frame for a partition (R294). -/
def State.governing (s : State) (part frame : Nat) : Option Nat :=
  ((List.range 256).map (256 * part + ·)).find? fun i =>
    decide (s.rgn MEM_RGN.VALID i = 1) && decide (s.rgn MEM_RGN.BASE i ≤ frame) && decide (frame ≤ s.rgn MEM_RGN.LIMIT i)

/-- The key slot of a frame for a partition. -/
def State.keySlot (s : State) (part frame : Nat) : Nat :=
  match s.governing part frame with
  | some i => s.rgn MEM_RGN.KEY i
  | none => 0

/-- The code that refuses a frame, or 0: the order of R870. -/
def State.checkFrame (s : State) (a : Party) (right : Fld) (frame : Nat) : Nat :=
  if dumpFrame ≤ frame then 0x0104
  else match s.governing a.part frame with
    | none => 0x0101
    | some i =>
      if s.rgn MEM_RGN.WORLD i = 1 ∧ a.world = 0 then 0x0103
      else if s.rgn right i = 0 then 0x0102
      else if tget s.mem.keyGen (s.rgn MEM_RGN.KEY i) 0 = 0 then 0x0105
      else if s.fon MEM_STK_STATUS.FENCED (stackOf frame) then 0x0106
      else 0

/-- The frames that `n` bytes at an address touch, in ascending order. -/
def framesOf (addr n : Nat) : List Nat :=
  if n = 0 then [] else (List.range (frameOf (addr + n - 1) + 1 - frameOf addr)).map (frameOf addr + ·)

/-- The code of the first refused frame of an access, or 0 (R295, R296, R870). -/
def State.checkSpan (s : State) (a : Party) (right : Fld) (addr n : Nat) : Nat :=
  match ((framesOf addr n).map (s.checkFrame a right)).find? (fun c => decide (c ≠ 0)) with
  | some c => c
  | none => 0

/-- The code that refuses a frame to an access under key slot 0 that no region table governs, or 0 (R870). -/
def State.checkRawFrame (s : State) (frame : Nat) : Nat :=
  if tget s.mem.keyGen 0 0 = 0 then 0x0105 else if s.fon MEM_STK_STATUS.FENCED (stackOf frame) then 0x0106 else 0

/-- The check of an access under key slot 0 that no region table governs, frame by frame: the CFE's and CXL.mem's (R291, R301, R870). -/
def State.checkRaw (s : State) (addr n : Nat) : Nat :=
  match ((framesOf addr n).map s.checkRawFrame).find? (fun c => decide (c ≠ 0)) with
  | some c => c
  | none => 0

/-! ## Granules (R301 to R313) -/

/-- Slot and key generation under which a granule was written, if it was since memory lost its contents. -/
def State.granTag (s : State) (g : Nat) : Option (Nat × Nat) :=
  match tfind s.mem.tags g with
  | some t => some t
  | none =>
    match s.mem.fills.find? (fun f => decide (f.1 ≤ g / 16384) && decide (g / 16384 ≤ f.2.1)) with
    | some f => some (f.2.2.1, f.2.2.2)
    | none => none

/-- Key i of a load of a slot: the two XTS keys, then the MAC key (R301, R302). -/
def slotKey (gen i : Nat) : List Nat := (slice (Config.slotKeys gen) (32 * i) 32).map (·.toNat)

/-- The ciphertext that the stack holds of a granule written since its contents were lost: XTS under the keys it was written with, with
the granule index as tweak (R301). -/
def State.granCipher (s : State) (g : Nat) : Option (List Nat) :=
  (s.granTag g).map fun t =>
    aesXts (slotKey t.2 0) (slotKey t.2 1) g ((cellsRead s.mem.bytes (g * 128) 128).map (·.toNat))

/-- The tag of a ciphertext: the leftmost 64 bits of the CMAC over the granule index and it (R302). -/
def granMac (gen g : Nat) (c : List Nat) : List Nat := (aesCmac (slotKey gen 2) (numBytes 8 g ++ c)).take 8

/-- The tag that the tag area holds of a granule (R302). -/
def State.granMacHeld (s : State) (g : Nat) : Option (List Nat) :=
  match s.granTag g, s.granCipher g with
  | some t, some c => some (granMac t.2 g c)
  | _, _ => none

/-- Why a read of a granule under a key slot fails, or 0 (R303, R311). The tag computed from the stored ciphertext equals the stored one
where the reader's keys are those that made it; that other keys give the same 64 bits is left out (log 4). -/
def State.granFail (s : State) (slot g : Nat) : Nat :=
  match tget s.mem.bad g 0 with
  | 1 => 0x0111
  | 2 => 0x0112
  | _ => if s.granTag g = some (slot, tget s.mem.keyGen slot 0) then 0 else 0x0110

/-- The granules that `n` bytes at an address touch. -/
def gransOf (addr n : Nat) : List Nat :=
  if n = 0 then [] else (List.range (granOf (addr + n - 1) + 1 - granOf addr)).map (granOf addr + ·)

/-- `DATA` of a memory code: the address with its place, and the reader in the row order of R311; where an address lies within its stack is
the stack's own (R287, R608, log 86). -/
def faultData (addr reader : Nat) : Nat :=
  let at_ := Config.granPlace (granOf addr)
  addr % 2 ^ 48 + (if addr < 2 ^ 39 then stackOf (frameOf addr) * 2 ^ 48 + at_ % 64 * 2 ^ 52 + at_ / 64 % 2 ^ 20 * 2 ^ 58 else 0) +
    reader * 2 ^ 78

/-- A failed granule is logged with its address, place, reader, partition and context (R312). -/
def State.logGran (s : State) (a : Party) (code g : Nat) : State :=
  s.log { code := code, ctx := a.ctx, data := faultData (g * 128) a.reader, kind := 8, unit := stackOf (g / 16384), part := a.part,
          world := a.world }

/-- The failing granules of a range with their codes, lowest first; `slot` names each frame's key slot. -/
def State.failing (s : State) (slot : Nat → Nat) (addr n : Nat) : List (Nat × Nat) :=
  (gransOf addr n).filterMap fun g =>
    let c := s.granFail (slot (g / 16384)) g
    if c = 0 then none else some (g, c)

/-- The code of the lowest failing granule, or 0 (R870). -/
def firstCode : List (Nat × Nat) → Nat
  | [] => 0
  | (_, c) :: _ => c

/-- Every failing granule is logged (R312). -/
def State.logFails (s : State) (a : Party) (l : List (Nat × Nat)) : State := l.foldl (fun s e => s.logGran a e.2 e.1) s

/-- What a read answers: its code (0 when it succeeds), the bytes, and the state with its log. -/
structure MemRes where
  code : Nat
  bytes : List Byte
  st : State
  deriving DecidableEq, Repr

/-- A read of bytes whose frames have passed: no byte of a failing granule is delivered (R303, R311, R312). -/
def State.readGrans (s : State) (a : Party) (slot : Nat → Nat) (addr n : Nat) : MemRes :=
  match s.failing slot addr n with
  | [] => ⟨0, cellsRead s.mem.bytes addr n, s⟩
  | l => ⟨firstCode l, [], s.logFails a l⟩

/-- Whether bytes `lo` to `hi - 1` cover the whole granule. -/
def covers (lo hi g : Nat) : Bool := decide (lo ≤ g * 128) && decide (g * 128 + 128 ≤ hi)

/-- The granule now holds bytes under a slot's present keys, and can be read again (R304, R305). -/
def State.tagGran (s : State) (slot g : Nat) : State :=
  { s with mem := { s.mem with
      tags := tput s.mem.tags g (slot, tget s.mem.keyGen slot 0), bad := tset s.mem.bad g 0 0 } }

/-- Whether a frame is in the resynchronisation list (R628). -/
def State.listed (s : State) (f : Nat) : Bool :=
  (List.range (s.fget SPARE_RESYNC.NLIST_M1 0 + 1)).any fun j =>
    decide (s.fget SPARE_RSLIST.FIRST j ≤ f) && decide (f ≤ s.fget SPARE_RSLIST.LAST j)

/-- `DIRTY`: listed frames written since they were last copied, a later pass's frames not yet copied again among them (R628). -/
def State.setDirty (s : State) : State :=
  s.fset SPARE_RESYNC.DIRTY 0 (s.mem.dirty.length + if s.spare.firstPass then 0 else s.spare.toCopy.length)

/-- A listed frame written after it was copied is marked dirty (R631). -/
def State.dirtyFrame (s : State) (f : Nat) : State :=
  if s.fon SPARE_RESYNC.BUSY 0 && s.listed f && !s.spare.toCopy.contains f && !s.mem.dirty.contains f then
    { s with mem := { s.mem with dirty := s.mem.dirty ++ [f] } }.setDirty else s

/-- The part of a write that falls in one granule, written. -/
def State.putGran (s : State) (slot addr : Nat) (l : List Byte) (g : Nat) : State :=
  let lo := max addr (g * 128)
  let hi := min (addr + l.length) (g * 128 + 128)
  ({ s with mem := { s.mem with bytes := cellsWrite s.mem.bytes lo (slice l (lo - addr) (hi - lo)) } }.tagGran slot g).dirtyFrame
    (g / 16384)

/-- A write of bytes whose frames have passed, granule by granule: a partial granule that cannot be read is left as it was
(R304, R305, R312). -/
def State.writeGrans (s : State) (a : Party) (slot : Nat → Nat) (addr : Nat) (l : List Byte) : MemRes :=
  let hi := addr + l.length
  let part := (s.failing slot addr l.length).filter (fun e => !covers addr hi e.1)
  let okG := (gransOf addr l.length).filter (fun g => !(part.any (fun e => decide (e.1 = g))))
  let s := okG.foldl (fun s g => s.putGran (slot (g / 16384)) addr l g) s
  ⟨firstCode part, [], s.logFails a part⟩

/-! ## A fill under way (R307 to R310) -/

/-- Whether the fill under way has not yet reached a granule of its range. -/
def State.awaitsFill (s : State) (g : Nat) : Bool :=
  let lo := s.fget MEM_FILL_CTL.FIRST 0
  decide (lo ≤ g / 16384) && decide (g / 16384 ≤ lo + s.fget MEM_FILL_CTL.NUM_M1 0) && !s.mem.filled.contains g

/-- The fill engine reaches a granule: zeros and their tag under the fill's key slot. -/
def State.fillGran (s : State) (g : Nat) : State :=
  ({ s with mem := { s.mem with bytes := cellsClear s.mem.bytes (g * 128) 128, filled := g :: s.mem.filled } }.tagGran
    (s.fget MEM_FILL_CTL.KEY 0) g).dirtyFrame (g / 16384)

/-- What an access meets of the fill under way: each granule it touches has been filled before it or has not, a free choice granule by
granule (R310). -/
def State.fillMet (s : State) (addr n : Nat) : State :=
  if s.fon MEM_FILL_CTL.BUSY 0 then
    let gs := (gransOf addr n).filter s.awaitsFill
    let v := s.freeV gs.length
    ((gs.zipIdx.filter fun e => v.testBit e.2).foldl (fun s e => s.fillGran e.1) s).drew
  else s

/-! ## The host die's caches (R327) -/

/-- The lines of a range that the host die may hold. -/
def State.heldLines (s : State) (addr n : Nat) : List Nat :=
  s.mem.hostLines.filter fun l => decide (addr < 64 * l + 64) && decide (64 * l < addr + n)

/-- Before the module reads or writes bytes, the lines of them that the host die may hold are snooped: for a read it gives up their value,
which it sends as a CXL.mem write ahead of the command whose effect reads it, and for a write it drops them (R327, log 87). -/
def State.snoop (s : State) (inv : Bool) (addr n : Nat) : State :=
  let l := s.heldLines addr n
  let s := l.foldl (fun s a => s.emit (.snoop a inv)) s
  if inv then { s with mem := { s.mem with hostLines := s.mem.hostLines.filter fun a => !l.contains a } } else s

/-! ## Reads and writes -/

/-- A read through the region table (R294 to R296, R303). -/
def State.memRead (s : State) (a : Party) (right : Fld) (addr n : Nat) : MemRes :=
  match s.checkSpan a right addr n with
  | 0 => ((s.snoop false addr n).fillMet addr n).readGrans a (s.keySlot a.part) addr n
  | c => ⟨c, [], s⟩

/-- The host die's read under key slot 0, which no region table governs (R291, R292). -/
def State.hostRead (s : State) (a : Party) (addr n : Nat) : MemRes :=
  match s.checkRaw addr n with
  | 0 => (s.fillMet addr n).readGrans a (fun _ => 0) addr n
  | c => ⟨c, [], s⟩

/-- A read of the module's own under key slot 0. -/
def State.rawRead (s : State) (a : Party) (addr n : Nat) : MemRes := (s.snoop false addr n).hostRead a addr n

/-- The write of an act that has just read the same bytes: no fill comes between (R305). -/
def State.memPut (s : State) (a : Party) (right : Fld) (addr : Nat) (l : List Byte) : MemRes :=
  match s.checkSpan a right addr l.length with
  | 0 => (s.snoop true addr l.length).writeGrans a (s.keySlot a.part) addr l
  | c => ⟨c, [], s⟩

/-- A write through the region table. -/
def State.memWrite (s : State) (a : Party) (right : Fld) (addr : Nat) (l : List Byte) : MemRes :=
  match s.checkSpan a right addr l.length with
  | 0 => ((s.snoop true addr l.length).fillMet addr l.length).writeGrans a (s.keySlot a.part) addr l
  | c => ⟨c, [], s⟩

/-- `n` bytes at an address that the party may write become undefined: free values, in the granules that can be read (log 39). -/
def State.undefine (s : State) (a : Party) (addr n : Nat) : State :=
  if n = 0 ∨ s.checkSpan a MEM_RGN.WR addr n ≠ 0 then s
  else
    let s := (s.snoop true addr n).fillMet addr n
    let slot := s.keySlot a.part
    let l := leBytes n (s.freeV (8 * n))
    (((gransOf addr n).filter fun g => decide (s.granFail (slot (g / 16384)) g = 0)).foldl
      (fun s g => s.putGran (slot (g / 16384)) addr l g) s).drew

/-- Bytes under key slot 0 that no region table governs replaced by what `f` makes of them, for the host die. -/
def State.hostUpdate (s : State) (a : Party) (addr n : Nat) (f : List Byte → List Byte) : MemRes :=
  match s.checkRaw addr n with
  | 0 =>
    let s := s.fillMet addr n
    s.writeGrans a (fun _ => 0) addr (f (cellsRead s.mem.bytes addr n))
  | c => ⟨c, [], s⟩

/-- A write of the module's own under key slot 0. -/
def State.rawWrite (s : State) (a : Party) (addr : Nat) (l : List Byte) : MemRes :=
  (s.snoop true addr l.length).hostUpdate a addr l.length fun _ => l

/-- Granules that the stack reports uncorrectable from now on until each is written whole (R311, R312). -/
def State.markBad (s : State) (v : Nat) (gs : List Nat) : State :=
  gs.foldl (fun s g => { s with mem := { s.mem with bad := tset s.mem.bad g v 0 } }) s

/-- Fresh keys in a slot (R744): what was written under the old ones fails its check. -/
def State.loadKey (s : State) (slot : Nat) : State :=
  { s with mem := { s.mem with gens := s.mem.gens + 1, keyGen := tset s.mem.keyGen slot (s.mem.gens + 1) 0 } }

/-- Zeros with tags in every granule of frames lo to hi but those of `kept`, under a slot's present keys (R309). -/
def State.fillFrames (s : State) (lo hi slot : Nat) (kept : List Nat) : State :=
  let keep (g : Nat) : Bool := decide (g / 16384 < lo) || decide (hi < g / 16384) || kept.contains g
  let s := if s.fon SPARE_RESYNC.BUSY 0 then (List.range (hi + 1 - lo)).foldl (fun s i => s.dirtyFrame (lo + i)) s else s
  { s with mem := { s.mem with
      bytes := s.mem.bytes.filter (fun c => keep (granOf c.1))
      tags := s.mem.tags.filter (fun e => keep e.1)
      bad := s.mem.bad.filter (fun e => keep e.1)
      fills := (lo, hi, slot, tget s.mem.keyGen slot 0) :: s.mem.fills } }

/-- The access of a context's engines (R724). -/
def State.accOf (s : State) (c reader : Nat) : Party := ⟨s.ctxPart c, s.ctxWorld c, some c, reader⟩

/-! ## Core store bytes -/

/-- Bytes of core store on a site. -/
def State.csRead (s : State) (site addr n : Nat) : List Byte := cellsRead s.core.cs (site * 2097152 + addr) n

/-- Bytes of core store on a site written. -/
def State.csWrite (s : State) (site addr : Nat) (l : List Byte) : State :=
  { s with core := { s.core with cs := cellsWrite s.core.cs (site * 2097152 + addr) l } }

/-- A site's core store zero-filled. -/
def State.csZero (s : State) (site : Nat) : State :=
  { s with core := { s.core with cs := cellsClear s.core.cs (site * 2097152) 2097152 } }

/-! ## The calibration area (R647 to R656) -/

/-- The five sections: offset in the calibration area and length (R649). -/
def calSections : List (Nat × Nat) := [(0x0, 16384), (0x4000, 4096), (0x5000, 1760), (0x6000, 600), (0x7000, 69216)]

/-- Calibration closes: `OPEN` falls and `DIGEST` is taken over the five sections (R654, R656). -/
def State.calClose (s : State) : State :=
  if s.fon CAL_STAT.OPEN 0 then
    let d := sha256 (calSections.flatMap fun e => cellsRead s.boot.cal e.1 e.2)
    (List.range 4).foldl (fun s k => s.fset CAL_DIGEST.DIGEST k (leAt d (8 * k) 8)) (s.fset CAL_STAT.OPEN 0 0)
  else s

end Sys2Proof.Machine
end

