-- ==== Sys2Proof/Machine/Lines.lean ====
section
/-! DEFINITION. A port's lanes as a line: what it puts on them as characters, whole sequences, training blocks, patterns and
packets, with SKIP columns and the spare lane, and how it reads what arrives (R435 to R447, R454, R457, R469, R482, R484, R490,
R751). -/
set_option autoImplicit false
namespace Sys2Proof.Machine

/-! ## A port's record -/

/-- A receive lane that has not begun. -/
def RxLane.fresh : RxLane :=
  { det := none, slip := 0, slips := 0, blocks := 0, aligned := false, out := false, reqs := 0, reqT := 0, pend := false,
    eqDone := false, adapt := 0, skewed := false, delay := 0, rd := false }

/-- A port that has not begun; patterns start from all ones (log 83). -/
def LanePort.fresh : LanePort :=
  { rx := List.replicate 5 RxLane.fresh, txDone := List.replicate 5 false, useRet := false, full := false, gate := false,
    firstDet := none, pid := (0, 0, 0), pstage := 0, rxIn := false, txIn := false, want := none, asked := [], prev := 0,
    laser := false, session := false, agree := none, opt := List.replicate 5 0, ebuf := [], txRd := List.replicate 5 false,
    skipIn := 0, prbs := List.replicate 5 (2 ^ 7 - 1), prbs31 := List.replicate 5 (2 ^ 31 - 1), rxp := .idle, lastFz := none,
    looped := [], txKey := [], rxKey := [], ret := none }

/-- The record of a port. -/
def State.lp (s : State) (p : Nat) : LanePort := tget s.lane p LanePort.fresh

/-- The record replaced. -/
def State.setLp (s : State) (p : Nat) (x : LanePort) : State := { s with lane := tset s.lane p x LanePort.fresh }

/-- Index of lane l of port p in the lane registers (R478). -/
def laneIx (p l : Nat) : Nat := 5 * p + l

/-- A receive lane. -/
def LanePort.lane (x : LanePort) (l : Nat) : RxLane := x.rx.getD l RxLane.fresh

/-- A receive lane replaced. -/
def LanePort.setLane (x : LanePort) (l : Nat) (r : RxLane) : LanePort := { x with rx := x.rx.set l r }

/-- Whether a training runs from retained settings. -/
def LanePort.fast (x : LanePort) : Bool := x.useRet && !x.full

/-- A G port (R371). -/
def isG (p : Nat) : Bool := decide (18 ≤ p) && decide (p < 22)

/-- STAGE of a port. -/
def State.stage (s : State) (p : Nat) : Nat := s.fget LANE_PSTAT.STAGE p

/-- LSTATE of a port. -/
def State.lstate (s : State) (p : Nat) : Nat := s.fget LANE_PSTAT.LSTATE p

/-- The physical lanes of a direction (R434). -/
def fiveLanes : List Nat := [0, 1, 2, 3, 4]

/-- Lanes that carry what goes on every active lane: those of the map in force, and before one is in force all five (log 84). -/
def State.txLanes (s : State) (p : Nat) : List Nat := if (s.lp p).txIn then onesOf 5 (s.fget LANE_PSTAT.TX_MAP p) else fiveLanes

/-- The same of the receive direction. -/
def State.rxLanes (s : State) (p : Nat) : List Nat := if (s.lp p).rxIn then onesOf 5 (s.fget LANE_PSTAT.RX_MAP p) else fiveLanes

/-- The transmit direction's spare as the transmitter knows it: a lane outside the map whose taps the partner has finished with
(R490, R495, log 62). -/
def State.txSpare (s : State) (p : Nat) : Option Nat :=
  if !(s.lp p).txIn then none
  else fiveLanes.find? fun l => !(s.fget LANE_PSTAT.TX_MAP p).testBit l && ((s.lp p).txDone.getD l false || (s.lp p).fast)

/-! ## Loopbacks (R484) -/

/-- A near-end loopback brings this port's output back to its receiver. -/
def State.nearEnd (s : State) (p : Nat) : Bool :=
  decide (s.stage p = 10) && (decide (s.fget LANE_PCTL.LOOP p = 1) || decide (s.fget LANE_PCTL.LOOP p = 2))

/-- This port is the partner of a far-end loopback: its transmitter returns what it receives. -/
def State.returns (s : State) (p : Nat) : Bool := decide (s.stage p = 10) && decide (s.fget LANE_PCTL.LOOP p = 0)

/-- Nothing of this port's own goes out: a near-end serial loopback has the output off, and a far-end one has it busy. -/
def State.muted (s : State) (p : Nat) : Bool :=
  decide (s.stage p = 10) && (decide (s.fget LANE_PCTL.LOOP p = 1) || decide (s.fget LANE_PCTL.LOOP p = 0))

/-! ## Sending -/

/-- Symbols put on lanes, each lane's as characters at its own running disparity (R438). -/
def State.putLanes (s : State) (p : Nat) (l : List (Nat × List Sym)) : State :=
  let x := s.lp p
  let e := l.map fun a => (a.1, encSyms (x.txRd.getD a.1 false) a.2)
  let chars := e.map fun a => (a.1, a.2.1)
  let s := s.setLp p { x with
    txRd := e.foldl (fun t a => t.set a.1 a.2.2) x.txRd
    looped := if s.nearEnd p then x.looped ++ chars else x.looped }
  if s.muted p then s else s.emit (.lanes p chars)

/-- Pieces of columns one after another, none of them cut, with a SKIP column before one that would make the columns since the last
SKIP 2,048 (R454); and the columns then since the last. -/
def withSkips (sent : Nat) : List (List (List Sym)) → List (List Sym) × Nat
  | [] => ([], sent)
  | a :: r =>
    let due := decide (2048 ≤ sent + a.length)
    let t := withSkips (if due then a.length else sent + a.length) r
    ((if due then [wideCol (.k kSKIP)] else []) ++ a ++ t.1, t.2)

/-- Columns go out on the active lanes, by logical lane, with COMMA on the spare in step (R435, R490). -/
def State.putCols (s : State) (p : Nat) (pieces : List (List (List Sym))) : State :=
  let x := s.lp p
  let r := withSkips x.skipIn pieces
  let own := (s.txLanes p).zipIdx.map fun a => (a.1, r.1.map fun c => c.getD a.2 (Sym.d 0))
  let spare := match s.txSpare p with
    | some k => [(k, List.replicate r.1.length (Sym.k kCOMMA))]
    | none => []
  (s.setLp p { x with skipIn := r.2 }).putLanes p (own ++ spare)

/-- A port in LS1 leaves it before it sends: COMMA columns, then WAKE (R482). -/
def State.leaveLs1 (s : State) (p : Nat) : State :=
  if s.stage p = 8 ∧ s.lstate p = 1 then
    ((s.fset LANE_PSTAT.LSTATE p 0).emit (.ctl p 5 [7, 0])).putCols p [[wideCol (.k kCOMMA)], wideSeq kNOTICE (noticeData 7 0)]
  else s

/-- A column-wide control sequence goes out (R441): its kind in `Out.ctl`, its numbers, its symbol and its data characters. -/
def State.sendSeq (s : State) (p kind : Nat) (b : List Nat) (k : Nat) (data : List Nat) : State :=
  ((s.leaveLs1 p).emit (.ctl p kind b)).putCols p [wideSeq k data]

/-- TIMING (R447). -/
def State.timing (s : State) (p kind num count : Nat) : State :=
  s.sendSeq p 1 [kind, num, count] kTIMING (timingData kind num count)

/-- FREEZE (R447). -/
def State.freezeSeq (s : State) (p id : Nat) : State := s.sendSeq p 2 [id] kFREEZE (freezeData id)

/-- NOTICE: code and argument (R447, R452). -/
def State.notice (s : State) (p code arg : Nat) : State := s.sendSeq p 5 [code, arg] kNOTICE (noticeData code arg)

/-- CREDIT: a pool and its running total (R447). -/
def State.creditSeq (s : State) (p pool total : Nat) : State := s.sendSeq p 6 [pool, total] kCREDIT (creditData pool total)

/-- The STATUS that a port sends on a transmit lane (R447). -/
def State.statusOn (s : State) (p l : Nat) : List Nat :=
  statusData s.self p l (s.fget LANE_PSTAT.TX_MAP p) (s.stage p) (s.fget LANE_PSTAT.GATE_DONE p)

/-- STATUS goes out in the same columns of every lane that carries traffic, each its own (R441). -/
def State.sendStatus (s : State) (p : Nat) : State :=
  let lanes := s.txLanes p
  let cols := (List.range 7).map fun i => lanes.map fun l => (seqSyms kSTATUS (s.statusOn p l)).getD i (Sym.d 0)
  (lanes.foldl (fun s l => s.emit (.ctl p 3 (s.statusOn p l))) s).putCols p [cols]

/-- Every lane sends a piece of its own, all of one length, with a SKIP first when one is due (R454, R457). -/
def State.putEach (s : State) (p n : Nat) (f : Nat → List Sym) : State :=
  let x := s.lp p
  let due := decide (2048 ≤ x.skipIn + n)
  (s.setLp p { x with skipIn := if due then n else x.skipIn + n }).putLanes p
    (fiveLanes.map fun l => (l, (if due then [Sym.k kSKIP] else []) ++ f l))

/-- A training block goes out on every lane, with a TRAIN (R457, R463). -/
def State.sendBlocks (s : State) (p : Nat) (train : List Nat) : State :=
  let x := s.lp p
  let gen := x.prbs.map (prbs7 117)
  (s.setLp p { x with prbs := gen.map (·.2) }).putEach p 128 fun l => blockSyms (s.statusOn p l) train (gen.getD l ([], 0)).1

/-- A stretch of PRBS-31 goes out on every lane (R467, R469, R476, log 83). -/
def State.sendPattern (s : State) (p : Nat) : State :=
  let x := s.lp p
  let gen := x.prbs31.map (prbs31 128)
  (s.setLp p { x with prbs31 := gen.map (·.2) }).putEach p 128 fun l => (gen.getD l ([], 0)).1.map Sym.d

/-- A TRAIN for a lane, in a training block on every lane: target, command, argument (R447, R462, R463). -/
def State.train (s : State) (p l cmd arg : Nat) : State := (s.emit (.ctl p 4 [l, cmd, arg])).sendBlocks p (trainData l cmd arg)

/-! ### Packets -/

/-- The bytes of a packet, whole flits of them (R375). -/
def pktBytes (k : Pkt) : List Nat :=
  let b := (leBytes 32 k.hdr ++ k.pay ++ leBytes 8 k.dig).map BitVec.toNat
  b ++ List.replicate ((64 - b.length % 64) % 64) 0

/-- The nonce of a link packet by its counter's bytes (R751). -/
def linkNonce (ctr : List Nat) : List Nat := List.replicate 4 0 ++ ctr

/-- Bytes as a session's link carries them: the counter, the ciphertext and the tag (R751). -/
def sealLink (key : List Byte) (ctr : Nat) (b : List Nat) : List Nat :=
  let c := numBytes 8 ctr
  let k := key.map BitVec.toNat
  let e := gcmXor k (linkNonce c) b
  c ++ e ++ gcmTag k (linkNonce c) e

/-- A packet's bytes go out on a port as columns, ended bad where it is (R444, R446); in a link session they are sealed, under a
counter that rises by one (R751). -/
def State.sendBytes (s : State) (p : Nat) (k : Pkt) (b : List Nat) : State :=
  let s := s.leaveLs1 p
  let x := s.lp p
  let n := tget s.fab.linkTx p 0 + 1
  let sealed := isG p && x.session
  let s := if sealed then { s with fab := { s.fab with linkTx := tset s.fab.linkTx p n 0 } } else s
  let b := if sealed then sealLink x.txKey n b else b
  (s.emit (.fwd p k)).putCols p ((packetCols (s.txLanes p).length b k.bad).map fun c => [c])

/-- A packet goes out on a port. -/
def State.sendPkt (s : State) (p : Nat) (k : Pkt) : State := s.sendBytes p k (pktBytes k)

/-! ## Receiving -/

/-- The receiver decodes: the port trains, is in service, or is in a loopback. -/
def State.hears (s : State) (p : Nat) : Bool :=
  (decide (1 ≤ s.stage p) && decide (s.stage p ≤ 8)) || decide (s.stage p = 10)

/-- Characters arrive on some receive lanes, of a list for each: they are read at the lane's disparity and their violations counted
(R439). A near-end loopback brings what this port sent in their place, and a far-end one returns them (R484). -/
def State.hear (s : State) (p : Nat) (ls : List Nat) (rx : List (List Nat)) : List (List ReadChar) × State :=
  let x := s.lp p
  let near := s.nearEnd p
  let got := if near then ls.map fun l => (x.looped.filter fun a => decide (a.1 = l)).flatMap (·.2) else rx
  let e := (ls.zip got).map fun a => (a.1, readChars (x.lane a.1).rd a.2)
  let x := e.foldl (fun x a => x.setLane a.1 { x.lane a.1 with rd := a.2.2 })
    { x with looped := if near then x.looped.filter (fun a => !ls.contains a.1) else x.looped }
  let s := e.foldl (fun s a => s.fsat LANE_MON.CV (laneIx p a.1) (violations a.2.1)) (s.setLp p x)
  (e.map (·.2.1), if s.returns p then s.emit (.lanes p (ls.zip got)) else s)

/-- A sequence other than FREEZE, or a packet, has come (R450). -/
def State.noFreeze (s : State) (p : Nat) : State := s.setLp p { s.lp p with lastFz := none }

/-- A column-wide sequence arrives with symbol `k` and `n` data characters: the port acts on it when its lanes agree, and discards and
counts it when they do not (R442). -/
def State.wide (s : State) (p k n : Nat) (rx : List (List Nat)) (f : List Nat → State → State) : State :=
  if s.hears p then
    let h := s.hear p (s.rxLanes p) rx
    match agreed (h.1.map cleanSyms) with
    | none => h.2.fsat LANE_PSTAT.CTRL_DISC p 1
    | some l =>
      match seqData k n l with
      | some d => f d (if k = kFREEZE then h.2 else h.2.noFreeze p)
      | none => h.2
  else s

/-- A NOTICE with a code arrives; what follows takes its argument (R452). -/
def State.noticed (s : State) (p code : Nat) (rx : List (List Nat)) (f : Nat → State → State) : State :=
  s.wide p kNOTICE 2 rx fun d s => if d.getD 0 0 = code then f (d.getD 1 0) s else s

/-- Characters arrive on one lane: their symbols, where none is a violation. -/
def State.oneLane (s : State) (p l : Nat) (chars : List Nat) (f : Option (List Sym) → State → State) : State :=
  if s.hears p then
    let h := s.hear p [l] [chars]
    f (h.1.head?.bind cleanSyms) h.2
  else s

/-- Columns as they arrive, from what each lane read. -/
def colsOf (l : List (List ReadChar)) : List Col :=
  (List.range ((l.map (·.length)).foldl max 0)).map fun i => colOf (l.map fun r => r.getD i ⟨none, true, false⟩)

/-- Data characters of a lane that are not those of PRBS-31 after the first four (R467, R476, log 83). -/
def patternErrs (l : List ReadChar) : Nat :=
  let b := l.filterMap fun r => symByte r.sym
  let seed := (b.take 4).foldl (fun st c => (List.range 8).foldl (fun st i => (2 * st + bitsOf c i 1) % 2 ^ 31) st) 0
  let rest := b.drop 4
  ((rest.zip (prbs31 rest.length seed).1).filter fun e => decide (e.1 ≠ e.2)).length

end Sys2Proof.Machine
end

