-- ==== Sys2Proof/Machine/Ports.lean ====
section
/-! DEFINITION. A port as a way out of the router: where it leads, the filters, channels and credits on it, and a packet's passage
(R371 to R373, R394 to R400, R424, R426). -/
set_option autoImplicit false
namespace Sys2Proof.Machine

/-- The number that stands for this hub where an arrival port is named. -/
def hubPort : Nat := 22

/-- The module that a port is joined to; none for a G port joined to nothing (R372, R373). -/
def State.joined (s : State) (p : Nat) : Option Nat :=
  let rack := s.fget FAB_CTL.RACK 0
  let t := s.fget FAB_CTL.TRAY 0
  let sl := s.fget FAB_CTL.SLOT 0
  if p < 3 then some (modAddr rack t ((sl + p + 1) % 4))
  else if p < 18 then some (modAddr rack ((t + (p - 3) + 1) % 16) sl)
  else
    let q := 16 * t + 4 * sl + (p - 18)
    if q = 0 ∨ s.fget FAB_CTL.NRACK_M1 0 < rack ^^^ q then none else some (modAddr (rack ^^^ q) t sl)

/-- The partner's port number for a port (R372, R459). -/
def partnerPort (p : Nat) : Nat := if p < 3 then 2 - p else if p < 18 then 20 - p else p

/-- Lasers of a G port turned on or off (R494). -/
def State.setLaser (s : State) (p : Nat) (on : Bool) : State :=
  if isG p then (s.setLp p { s.lp p with laser := on }).note (if on then 5 else 0) p else s

/-- `DATA` of a fabric code (R608). -/
def fabData (src dst sseq msgid : Nat) : Nat :=
  epMod src + (epNum src <<< 14) + (epMod dst <<< 22) + (epNum dst <<< 36) + (sseq <<< 44) + (msgid <<< 76)

/-- `DATA` of a fabric code about one packet. -/
def pktData (p : Pkt) : Nat := fabData (PH.SRC.of p.hdr) (PH.DEST.of p.hdr) (PH.SSEQ.of p.hdr) (PH.MSGID.of p.hdr)

/-! ## Channels and filters (R395, R399) -/

/-- The channel a packet takes on its next link (R395). `arr` is where it came from: none for injection here, else whether
the port is a G port, with its channel. -/
def nextVc (arr : Option (Bool × Nat)) (outG detour : Bool) : Option Nat :=
  match arr with
  | none => if outG then some (if detour then 0 else 1) else some 0
  | some (false, vc) =>
    if outG then (if vc ≤ 1 then some 1 else none) else if vc ≤ 2 then some (vc + 1) else none
  | some (true, vc) =>
    if vc = 0 then some (if outG then 1 else 0) else if vc = 1 ∧ outG = false then some 2 else none

/-- How a packet reached this router, as R395 reads it: injected, or by a G or another port with its channel. -/
def arrivedBy (arr : Nat) (p : Pkt) : Option (Bool × Nat) := if arr < hubPort then some (isG arr, PH.VC.of p.hdr) else none

/-- Whether a packet may cross a port (R399). -/
def State.mayCross (s : State) (p : Nat) (k : Pkt) : Bool :=
  let ty := PH.TYPE.of k.hdr
  decide (ty = tyMGMT) || decide (ty = tyTIME) ||
  ((s.fget FAB_PORT.PMASK p).testBit (PH.PART.of k.hdr) && (!PH.WORLD.on k.hdr || s.fon FAB_PORT.S_OK p))

/-- A packet as it leaves on a link: channel, one more hop, `HCRC` again (R379, R395). -/
def outPkt (k : Pkt) (vc : Nat) : Pkt :=
  { k with hdr := sealHdr (PH.HOPS.put (PH.VC.put k.hdr vc) (PH.HOPS.of k.hdr + 1)) }

/-- A count of an arrival port; injection here has no port to count at (R394, R795). -/
def State.countPort (s : State) (f : Fld) (arr : Nat) : State := if arr < hubPort then s.fsat f arr 1 else s

/-- A packet dropped by a filter, which is logged (R394, R399). -/
def State.filterDrop (s : State) (port : Nat) (p : Pkt) : State :=
  (s.countPort OBS_PORT.FILT_DROP port).log { code := 0x020E, data := pktData p }

/-- A packet that breaks the hop limit or the channel rule, dropped, counted and logged (R394). -/
def State.routeDrop (s : State) (arr : Nat) (p : Pkt) : State :=
  (s.countPort OBS_PORT.ROUTE_DROP arr).log { code := 0x020B, data := pktData p }

/-! ## Credits (R397) -/

/-- Flits of an input buffer that every channel may use (R397). -/
def sharedFlits (p : Nat) : Nat := if isG p then 960 else 192

/-- Credits held for a pool of a port: 0 to 3 the reserved shares, 4 the shared part (R397). -/
def State.credit (s : State) (o pool : Nat) : Nat := tget s.fab.credits (o * 8 + pool) 0

/-- Credits of a pool set. -/
def State.setCredit (s : State) (o pool n : Nat) : State :=
  { s with fab := { s.fab with credits := tset s.fab.credits (o * 8 + pool) n 0 } }

/-- As many credits as there are for `n` flits on a channel, taken from its reserved share first (log 52). -/
def State.takeCredit (s : State) (o vc n : Nat) : Nat × State :=
  let own := min n (s.credit o vc)
  let rest := min (n - own) (s.credit o 4)
  (own + rest, (s.setCredit o vc (s.credit o vc - own)).setCredit o 4 (s.credit o 4 - rest))

/-- Flits freed in an input port's buffer, as the running totals that its CREDITs carry. Which of the two pools a flit stood in
is the sender's choice, which no field tells: a free value (R397, R448, log 52). -/
def State.freed (s : State) (arr : Nat) (p : Pkt) : State :=
  if arr < hubPort then
    let n := flitsOf p
    let k := s.freeV 8 % (n + 1)
    let key (pool : Nat) : Nat := arr * 8 + pool
    let vc := PH.VC.of p.hdr
    let t := tset s.fab.credTx (key vc) (wrapAdd 12 (tget s.fab.credTx (key vc) 0) k) 0
    let t := tset t (key 4) (wrapAdd 12 (tget t (key 4) 0) (n - k)) 0
    { s with fab := { s.fab with credTx := t } }.drew
  else s

/-! ## Leaving on a port (R392, R397, R446) -/

/-- A packet is in the course of leaving on a port. -/
def State.crossing (s : State) (o : Nat) : Bool := s.fab.cross.any fun c => decide (c.port = o)

/-- The packet on a port is gone from it. -/
def State.uncross (s : State) (o : Nat) : State :=
  { s with fab := { s.fab with cross := s.fab.cross.filter fun c => decide (c.port ≠ o) } }

/-- A header is granted a free port that has credit on its channel; its flits follow there, each against a credit, and free the buffer of
port `frees` once all have gone; a copy of a packet that stands whole in the router frees none, and has 32 added to the port it came by.
None where it is not granted (R392, R397, R424). -/
def State.grant (s : State) (o vc : Nat) (p : Pkt) (since frees : Nat) : Option State :=
  if s.crossing o then none
  else
    let t := s.takeCredit o vc (flitsOf p)
    if t.1 = 0 then none
    else if t.1 = flitsOf p then some ((t.2.sendPkt o (outPkt p vc)).freed frees p)
    else some { t.2 with fab := { t.2.fab with cross := t.2.fab.cross ++ [⟨o, vc, p, flitsOf p - t.1, since, frees⟩] } }

/-- A header that waits (R392). -/
def State.wait (s : State) (p : Pkt) (arr since : Nat) : State :=
  { s with fab := { s.fab with waiting := s.fab.waiting ++ [(p, arr, since)] } }

/-- One branch of a packet to a port it may leave on: filtered, granted, or waiting as `asArr` (R392, R394, R399). -/
def State.branch (s : State) (arr o : Nat) (detour : Bool) (p : Pkt) (asArr since frees : Nat) : State :=
  match nextVc (arrivedBy arr p) (isG o) detour with
  | none => s
  | some vc =>
    if !s.mayCross o p then (s.filterDrop o p).freed frees p
    else (s.grant o vc p since frees).getD (s.wait p asArr since)

/-- The arrival port that a waiting copy for port `o` is kept under. -/
def copyArr (arr o : Nat) : Nat := arr + 32 * (o + 1)

/-- Credit has come: the packet on the port goes on as far as it reaches. -/
def State.crossOn (s : State) (o : Nat) : State :=
  match s.fab.cross.find? fun c => decide (c.port = o) with
  | none => s
  | some c =>
    let t := s.takeCredit o c.vc c.left
    let s := t.2.uncross o
    if t.1 = c.left then (s.sendPkt o (outPkt c.pkt c.vc)).freed c.frees c.pkt
    else { s with fab := { s.fab with cross := s.fab.cross ++ [{ c with left := c.left - t.1 }] } }

/-- A packet on a port is given up: what has gone of it is ended bad downstream (R394, R446). -/
def State.cutShort (s : State) (c : Crossing) : State :=
  let n := 64 * (flitsOf c.pkt - c.left)
  let k := outPkt c.pkt c.vc
  ((s.uncross c.port).sendBytes c.port { k with pay := k.pay.take (n - 32), bad := true } ((pktBytes k).take n)).freed c.frees c.pkt

/-- What is on a port, and the packets that have not left it, when the port leaves service (R491). -/
def State.cutPort (s : State) (o : Nat) : State :=
  let l := s.fab.cross.filter fun c => decide (c.port = o)
  l.foldl (fun s c => s.freed c.frees c.pkt)
    { s.uncross o with fab := { (s.uncross o).fab with abortWait := s.fab.abortWait.filter fun a => decide (a.2.1 ≠ o) } }

/-! ## ABORT copies (R426) -/

/-- Copies of an ABORT leave on a port, each against a credit; those that cannot yet are held, one ABORT for each group and port (R426,
log 58). -/
def State.abortOut (s : State) (g o : Nat) (k : Pkt) : Nat → State
  | 0 => s
  | n + 1 =>
    let t := s.takeCredit o (PH.VC.of k.hdr) 1
    if s.crossing o || decide (t.1 = 0) then
      if s.fab.abortWait.any fun a => decide (a.1 = g) && decide (a.2.1 = o) then s
      else { s with fab := { s.fab with abortWait := s.fab.abortWait ++ [(g, o, k, n + 1)] } }
    else (t.2.sendPkt o k).abortOut g o k n

/-- The ABORTs held for a port go on. -/
def State.abortOn (s : State) (o : Nat) : State :=
  (s.fab.abortWait.filter fun a => decide (a.2.1 = o)).foldl (fun s a => s.abortOut a.1 o a.2.2.1 a.2.2.2)
    { s with fab := { s.fab with abortWait := s.fab.abortWait.filter fun a => decide (a.2.1 ≠ o) } }

end Sys2Proof.Machine
end

