-- ==== Sys2Proof/WellFormed.lean ====
section
/-! DEFINITION. Which commands name units the module has. A port is 0 to 21 (R371), a context 0 to 255 (R357), a ring 0 to
8,191, a logical core 0 to 2,047 (R157), a stack 0 to 11 (R284), a compute die 0 to 3. -/
set_option autoImplicit false
namespace Sys2Proof

/-- A port number (R371). -/
def wfPort (p : Nat) : Bool := decide (p < 22)
/-- An optical port, G0 to G3 (R371). -/
def wfGPort (p : Nat) : Bool := decide (18 ≤ p) && decide (p < 22)
/-- A lane of a port: four active and one spare (R563). -/
def wfLane (l : Nat) : Bool := decide (l < 5)
/-- A logical core number (R157). -/
def wfCore (c : Nat) : Bool := decide (c < 2048)
/-- A context. -/
def wfCtx (c : Nat) : Bool := decide (c < 256)
/-- A ring. -/
def wfRing (r : Nat) : Bool := decide (r < 8192)
/-- A partition. -/
def wfPart (p : Nat) : Bool := decide (p < 16)
/-- A stack (R284). -/
def wfStack (k : Nat) : Bool := decide (k < 12)
/-- A compute die. -/
def wfDie (d : Nat) : Bool := decide (d < 4)
/-- A physical core site, `576 × die + 24 × row + col` (R569). -/
def wfSite (k : Nat) : Bool := decide (k < 2304)
/-- A group. -/
def wfGroup (g : Nat) : Bool := decide (g < 4096)
/-- A rail (R576). -/
def wfRail (r : Nat) : Bool := decide (r < 11)

/-- Whether every operand of a command names a unit the module has. -/
def Instr.wf : Instr → Bool
  | .enRise => true
  | .enFall => true
  | .powerGood _ _ _ _ => true
  | .secfw _ _ => true
  | .identity _ _ => true
  | .record _ _ => true
  | .recordSafe _ _ => true
  | .gather _ _ => true
  | .selftest _ _ => true
  | .cullet _ _ => true
  | .ready _ _ => true
  | .bootStepEnd _ => true
  | .wreset _ _ => true
  | .stagingWrite _ _ _ => true
  | .calibrationWrite _ _ _ => true
  | .timingSyncSend p => wfPort p
  | .timingSync p _ _ => wfPort p
  | .timingReq p _ => wfPort p
  | .timingResp p _ => wfPort p
  | .holdoverEntry => true
  | .holdoverTimeout => true
  | .timePacketSend p => wfPort p
  | .timeReceive p _ => wfPort p
  | .depthTimeout => true
  | .timeCtlWrite _ _ => true
  | .replicaCorrect d => wfDie d
  | .rateSample _ => true
  | .armedAction _ => true
  | .gctlOwnerWrite _ _ => true
  | .gctlRoleWrite _ _ => true
  | .roleTakesEffect => true
  | .commandDoorbell _ page _ => wfRing page
  | .completionDoorbell _ page _ => wfRing page
  | .commandRead r _ => wfRing r
  | .nop ring _ => wfRing ring
  | .launch ring _ => wfRing ring
  | .allreduce ring _ _ => wfRing ring
  | .reduceScatter ring _ _ => wfRing ring
  | .allgather ring _ _ => wfRing ring
  | .triggered ring _ _ => wfRing ring
  | .coreDone lcore ring _ => wfCore lcore && wfRing ring
  | .doneMessage lcore ring _ => wfCore lcore && wfRing ring
  | .cfeRingCmdWrite _ r _ => wfRing r
  | .cfeRingCplWrite _ r _ => wfRing r
  | .ctxCfgWrite _ c _ => wfCtx c
  | .ctxCtlReset _ c => wfCtx c
  | .ctxCtlResume _ c => wfCtx c
  | .divClr _ c => wfCtx c
  | .hangTimeout ring _ => wfRing ring
  | .contextResetDone c => wfCtx c
  | .tmma lcore ring _ _ => wfCore lcore && wfRing ring
  | .vprog lcore ring _ _ => wfCore lcore && wfRing ring
  | .osmUpdate lcore ring _ _ => wfCore lcore && wfRing ring
  | .osmMerge lcore ring _ _ => wfCore lcore && wfRing ring
  | .osmNorm lcore ring _ _ => wfCore lcore && wfRing ring
  | .smove lcore ring _ _ => wfCore lcore && wfRing ring
  | .smovePartStart lcore ring _ _ _ => wfCore lcore && wfRing ring
  | .smovePartWritten lcore ring _ _ => wfCore lcore && wfRing ring
  | .satomAdd lcore ring _ _ => wfCore lcore && wfRing ring
  | .satomFadd lcore ring _ _ => wfCore lcore && wfRing ring
  | .satomSwap lcore ring _ _ => wfCore lcore && wfRing ring
  | .satomCas lcore ring _ _ => wfCore lcore && wfRing ring
  | .satomUmax lcore ring _ _ => wfCore lcore && wfRing ring
  | .tsig lcore ring _ _ => wfCore lcore && wfRing ring
  | .tsigall lcore ring _ _ => wfCore lcore && wfRing ring
  | .tread lcore ring _ _ => wfCore lcore && wfRing ring
  | .loopb lcore ring _ _ => wfCore lcore && wfRing ring
  | .loope lcore ring _ _ => wfCore lcore && wfRing ring
  | .skip lcore ring _ _ => wfCore lcore && wfRing ring
  | .endList lcore ring _ _ => wfCore lcore && wfRing ring
  | .fail lcore ring _ _ => wfCore lcore && wfRing ring
  | .stamp lcore ring _ _ => wfCore lcore && wfRing ring
  | .aselect lcore ring _ _ => wfCore lcore && wfRing ring
  | .agather lcore ring _ _ => wfCore lcore && wfRing ring
  | .aquery lcore ring _ _ => wfCore lcore && wfRing ring
  | .akvship lcore ring _ _ => wfCore lcore && wfRing ring
  | .descComplete lcore ring _ _ _ => wfCore lcore && wfRing ring
  | .tokenSignal _ => true
  | .spareSubstitution site => wfSite site
  | .handshakeStall site ring _ _ _ => wfSite site && wfRing ring
  | .microcodeCheck site ring _ _ _ => wfSite site && wfRing ring
  | .hubEngineFault _ => true
  | .replayCommandEnd _ => true
  | .replayTmo => true
  | .packetRoute arr _ _ => decide (arr ≤ 22)
  | .headerWaitTimeout _ => true
  | .packetSend _ _ _ => true
  | .put _ _ => true
  | .getReq _ => true
  | .getServe _ => true
  | .getResp _ _ => true
  | .ack _ => true
  | .nack _ _ _ => true
  | .atomic _ _ => true
  | .mgmt _ => true
  | .rtoTimeout _ _ _ _ _ _ => true
  | .windowStall _ _ _ => true
  | .voidStall _ _ _ => true
  | .streamIdle _ _ _ => true
  | .sourceStreamRelease _ _ _ => true
  | .fabCtlWrite _ _ => true
  | .query _ _ => true
  | .queryServe _ _ => true
  | .queryStaleTimeout _ => true
  | .shardQuerySend _ => true
  | .qrespPartial _ => true
  | .qtoExpiry _ => true
  | .kvShipment _ _ => true
  | .kvack _ => true
  | .gctlSeqtabWrite _ p _ => wfPart p
  | .memHostWrite _ _ => true
  | .cxlMemRead _ _ => true
  | .cxlMemWrite _ _ _ => true
  | .regionEntryWrite _ e k _ => decide (e < 4096) && decide (k < 2)
  | .regionChangeApplied => true
  | .memFillGo _ _ => true
  | .fillDone => true
  | .repairRemapRow _ stack pc row => wfStack stack && decide (pc < 64) && decide (row < 2 ^ 20)
  | .repairSubstitutePc _ stack pc => wfStack stack && decide (pc < 64)
  | .repairLoadRowRemap _ stack pc row => wfStack stack && decide (pc < 64) && decide (row < 2 ^ 20)
  | .repairDone _ _ => true
  | .memTrainGo _ _ => true
  | .trainStackDone k _ _ _ => wfStack k
  | .hbmRefresh k _ => wfStack k
  | .memStkStatusRead _ k _ => wfStack k
  | .trainGo _ p _ _ => wfPort p
  | .forceOut _ p _ _ => wfPort p
  | .laserSwap _ p _ _ => wfPort p
  | .loop _ p _ _ => wfPort p
  | .laneLs2Req _ p _ _ => wfPort p
  | .signalDetect p l => wfPort p && wfLane l
  | .alignTimeout p l => wfPort p && wfLane l
  | .status p l _ => wfPort p && wfLane l
  | .statusSend p => wfPort p
  | .train p l _ => wfPort p && wfLane l
  | .equaliseTimeout p l => wfPort p && wfLane l
  | .deskew p _ => wfPort p
  | .gateEnd p _ => wfPort p
  | .mapReq p _ => wfPort p
  | .mapSwitch p _ => wfPort p
  | .ls1Idle p _ => wfPort p
  | .ls1Req p _ _ => wfPort p
  | .ls1Ack p _ => wfPort p
  | .ls1Exit p => wfPort p
  | .wake p _ => wfPort p
  | .ls2Req p _ => wfPort p
  | .ls2Ack p _ => wfPort p
  | .feReq p _ => wfPort p
  | .feAck p _ => wfPort p
  | .feRefuse p _ => wfPort p
  | .feEnd p _ => wfPort p
  | .retrain p _ => wfPort p
  | .noticeLaserSwap p _ _ => wfPort p
  | .noticeRepeat p _ => wfPort p
  | .laneCredit p _ _ => wfPort p
  | .creditSend p _ => wfPort p
  | .laneFail p l _ _ => wfPort p && wfLane l
  | .lanePstatRead _ p => wfPort p
  | .laneMonRead _ p l _ => wfPort p && wfLane l
  | .eyeMeasure p l _ _ => wfPort p && wfLane l
  | .optMonitor p l _ _ _ _ => wfPort p && wfLane l
  | .hello p _ => wfPort p
  | .encapsulationKey p _ _ => wfPort p
  | .kemCiphertext p _ _ => wfPort p
  | .finished p _ => wfPort p
  | .linkRekey p => wfPort p
  | .collGrpWrite _ g k _ => decide (g < 4096) && decide (k < 2)
  | .pieceSend g _ _ _ _ => wfGroup g
  | .rsData _ _ => true
  | .agData _ => true
  | .pieceWrite g _ _ _ _ => wfGroup g
  | .collReady _ => true
  | .collCredit _ => true
  | .collTput _ _ => true
  | .collTsig _ => true
  | .topNop g _ _ => wfGroup g
  | .topPut g _ _ _ => wfGroup g
  | .topGet g _ _ _ => wfGroup g
  | .topReduce g _ _ _ => wfGroup g
  | .topSignal g _ _ _ => wfGroup g
  | .topComplete g _ _ => wfGroup g
  | .collStall g _ => wfGroup g
  | .earlyEntryExpiry _ => true
  | .wearReading site _ _ => wfSite site
  | .spareFenceGo _ _ => true
  | .spareFenceCancel _ _ => true
  | .drainComplete site => wfSite site
  | .spareAbindWrite _ g _ => wfGroup g
  | .abort arr _ => wfPort arr
  | .elogNotify => true
  | .dumpTake _ _ => true
  | .captureDone => true
  | .dumpUsedClear _ _ => true
  | .dumpXgo _ _ => true
  | .dumpCopyDone => true
  | .sparePairWrite _ _ => true
  | .renewSend => true
  | .renew _ => true
  | .grant _ => true
  | .leaseExpiry => true
  | .promotionTimeout => true
  | .resyncGo _ _ _ => true
  | .resyncFrame _ => true
  | .resyncPass => true
  | .resyncSwitch _ _ => true
  | .resyncSwitchDone _ => true
  | .resyncFail _ => true
  | .vinSample _ _ _ => true
  | .holdTimeout => true
  | .railLimit r => wfRail r
  | .phaseFenced r _ => wfRail r
  | .railFault r => wfRail r
  | .pwrPolicyWrite _ _ => true
  | .heartbeatLoss => true
  | .floorRecompute _ => true
  | .thermalUpdate => true
  | .throttle d => wfDie d
  | .sensorSample h _ _ _ _ => decide (h < 73)
  | .thermTrip h => decide (h < 72)
  | .adaptChoice _ => true
  | .loadHint _ _ _ => true
  | .coolStale => true
  | .trayFrame _ => true
  | .idleEntry _ _ _ => true
  | .powerWake => true
  | .ps4Req _ _ => true
  | .pwrRailRead _ r _ _ => wfRail r
  | .pwrEvtRead _ => true
  | .partOpen _ _ => true
  | .partClose _ _ => true
  | .moveCluster _ _ => true
  | .moveContext _ _ => true
  | .moveEndpoint _ _ => true
  | .moveKeyslot _ _ => true
  | .scrub _ _ => true
  | .setDl _ _ => true
  | .unlock _ _ => true
  | .ownerLock _ _ => true
  | .ownerBind _ _ => true
  | .lifecycle _ _ => true
  | .secCmdDone => true
  | .secClWorldWrite _ k _ => decide (k < 4)
  | .trngHealthFail => true
  | .getVersion _ => true
  | .getCapabilities _ => true
  | .negotiateAlgorithms _ => true
  | .getDigests _ => true
  | .getCertificate _ => true
  | .challenge _ => true
  | .getMeasurements _ => true
  | .chunkGet _ => true
  | .fwuStage _ _ => true
  | .stagingDone _ => true
  | .fwuActivate _ _ => true
  | .fwuAbandon _ _ => true
  | .svnCommit _ _ => true
  | .activation _ _ => true
  | .actTimeout => true
  | .traceSlotWrite _ k j _ => decide (k < 4) && decide (j < 3)
  | .dumpSlotWrite _ k j _ => decide (k < 8) && decide (j < 4)
  | .freezeGo _ _ => true
  | .freeze p _ => wfPort p
  | .frozen => true
  | .freezeTimeout => true
  | .freezeResume _ _ => true
  | .obsPortRead _ p => wfPort p
  | .obsHubRead _ => true
  | .setdasa _ _ _ => true
  | .entdaa _ _ => true
  | .rstdaa _ => true
  | .getpid _ => true
  | .getbcr _ => true
  | .getdcr _ => true
  | .getmrl _ => true
  | .getmwl _ => true
  | .enec _ _ => true
  | .disec _ _ => true
  | .setEndpointId _ _ _ => true
  | .mctpControl _ _ => true
  | .messageRead => true
  | .getSensorReading _ _ => true
  | .setSensorThresholds _ _ _ => true
  | .setEventReceiver _ _ => true
  | .heartbeat _ _ => true
  | .rcap _ => true
  | .owner _ => true
  | .warmReset _ _ => true
  | .ps4Exit _ => true
  | .fwTact _ => true
  | .portMgmt p _ => wfPort p
  | .requestFirmwareData _ _ _ => true
  | .verifyComplete => true
  | .activateFirmware => true
  | .pathDisagree p => wfPort p
  | .registerWrite _ _ _ _ _ => true
  | .skipColumn p _ => wfPort p
  | .ucieModuleFail m => decide (m < 4)
  | .trngStartupPass => true
  | .substitutionDone site _ => wfSite site
  | .investigationSelftestDone _ => true

end Sys2Proof
end

