-- ==== Sys2Proof/Machine/Timebase.lean ====
section
/-! DEFINITION. The timebase: the count and its slewing, the exchange with the parent, the sync tree's depth, replicas, the
rate reading, armed actions and block ownership (R52 to R86, R871, R872). -/
set_option autoImplicit false
namespace Sys2Proof.Machine

/-- The registers as they stand at each multiple of 10 ms, held for what NS readers see of counters, power and energy (R766, R794). -/
def State.hold10ms (s : State) : State := { s with obs := { s.obs with held := s.regs, heldT := s.count } }

/-- The clocks that timers count on move `n` counts: `run` outside brown-out hold, flow hold and debug freeze, `thaw` outside
debug freeze alone (R819). -/
def State.runOn (s : State) (n : Nat) : State :=
  { s with time := { s.time with
      run := if s.hubUp && !s.frozen then s.time.run + n else s.time.run,
      thaw := if s.frozen then s.time.thaw else s.time.thaw + n } }

/-- The count `n` on, with the clocks, and the readings of a multiple of 10 ms taken when it reaches one. -/
def State.countOn (s : State) (n : Nat) : State :=
  let s := (s.fset TIME_COUNT.COUNT 0 (s.count + n)).runOn n
  if n ≠ 0 ∧ s.count % 10000000 = 0 then s.hold10ms else s

/-- Whether a slew moves the count at this nanosecond: one count in every 5,000, which is 200 ppm (R61, R66). -/
def State.slewDue (s : State) : Bool := decide (s.time.now % 5000 = 0)

/-- What the machine does while no command waits (log 5): a nanosecond passes and the count takes one step, or none where a slew
runs it slow; where a slew runs it fast, the count first takes its extra step within the nanosecond, so that it never skips a
value (R66). Nothing counts while the module has no power. -/
def State.tick (s : State) : State :=
  let t := s.time
  if !s.pwr.on then { s with time := { t with now := t.now + 1 } }
  else if s.slewDue && decide (t.slew < 0) && !t.extra then { s with time := { t with slew := t.slew + 1, extra := true } }.countOn 1
  else if s.slewDue && decide (0 < t.slew) then { s with time := { t with now := t.now + 1, slew := t.slew - 1, extra := false } }
  else { s with time := { t with now := t.now + 1, extra := false } }.countOn 1

/-- Hops from the root, by the parent's latest report (R871, R872). -/
def State.depthNow (s : State) : Nat :=
  if s.fon TIME_CTL.ROOT 0 then 0
  else match s.time.parent with
    | some (st, d, t) =>
      if 2 ≤ s.fget TIME_STATUS.STATE 0 ∧ (st = 2 ∨ st = 3) ∧ s.time.now ≤ t + 3000000 then min 7 (d + 1) else 7
    | none => 7

/-- `DEPTH` follows the sync tree (R63, R871). -/
def State.redepth (s : State) : State := s.fset TIME_STATUS.DEPTH 0 s.depthNow

/-- Enter ACQUIRING: one load is to come (R65). -/
def State.acquire (s : State) : State :=
  ({ s with time := { s.time with loaded := false, good := 0, slew := 0 } }.setSync 1).redepth

/-- Enter LOCKED. -/
def State.lockSync (s : State) : State := (s.setSync 2).redepth

/-- Enter HOLDOVER (R64). -/
def State.holdover (s : State) : State :=
  ({ s with time := { s.time with holdT := s.time.now } }.setSync 3).redepth

/-- A module with `ROOT` 1 is LOCKED on its own count (R872). -/
def State.rootLock (s : State) : State :=
  let s := { s with time := { s.time with slew := 0, ex := none } }
  (((s.setSync 2).fset TIME_STATUS.DEPTH 0 0).fset TIME_STATUS.OFFSET 0 0).fset TIME_STATUS.DELAY 0 0

/-- Whether this module exchanges as a child on a port (R62, R872). -/
def State.childOn (s : State) (p : Nat) : Bool :=
  s.up && s.fon TIME_CTL.SYNC_EN 0 && !s.fon TIME_CTL.ROOT 0 && decide (s.fget TIME_CTL.PARENT 0 = p) && s.portLS0 p

/-- A parent's SYNC, with t1 its count as the symbol leaves; an exchange that is due wakes a port in LS1 (R65, R447, R449, R482). -/
def timingSyncSendStep (p : Nat) (s : State) : State :=
  s.when (s.up && s.fon TIME_CTL.SYNC_EN 0 && s.portLS01 p) fun s =>
    { s with time := { s.time with exNum := (s.time.exNum + 1) % 256 } }.timing p 1 s.time.exNum s.count

/-- The TIMING_SYNC_SEND row. -/
def execTimingSyncSend (p : Nat) (s : State) : Res := need (wfPort p) (timingSyncSendStep p s)

/-- A TIMING of a kind arrives: what follows takes its number and its count (R447). -/
def State.timed (s : State) (p kind : Nat) (rx : List (List Nat)) (f : Nat → Nat → State → State) : State :=
  s.when s.up fun s => s.wide p kTIMING 10 rx fun d s => if d.getD 0 0 = kind then f (d.getD 1 0) (dataNum (d.drop 2)) s else s

/-- A child stamps t2 on the SYNC and t3 on its REQ, `turn` ns later (R449). -/
def timingSyncStep (p : Nat) (rx : List (List Nat)) (turn : Nat) (s : State) : State :=
  s.timed p 1 rx fun num t1 s => s.when (s.childOn p) fun s =>
    { s with time := { s.time with ex := some (num, t1, s.count, s.count + turn) } }.timing p 2 num 0

/-- The TIMING_SYNC row. -/
def execTimingSync (p : Nat) (rx : List (List Nat)) (turn : Nat) (s : State) : Res := need (wfPort p) (timingSyncStep p rx turn s)

/-- A parent stamps t4 on a REQ and returns it (R449). -/
def timingReqStep (p : Nat) (rx : List (List Nat)) (s : State) : State :=
  s.timed p 2 rx fun num _ s => s.when (s.fon TIME_CTL.SYNC_EN 0 && s.portLS0 p) fun s => s.timing p 3 num s.count

/-- The TIMING_REQ row. -/
def execTimingReq (p : Nat) (rx : List (List Nat)) (s : State) : Res := need (wfPort p) (timingReqStep p rx s)

/-- The calibrated asymmetry word of a port's lane 0 (R651 LANE_CAL bytes 5 and 6), and what it takes off. -/
def State.asymNs (s : State) (p : Nat) : Int :=
  let at_ (o : Nat) : Nat := ((tfind s.boot.cal (0x5000 + 16 * (5 * p) + o)).getD 0).toNat
  let w := at_ 5 + 256 * at_ 6
  if s.fon GCTL_BOOT_STAT.SAFE_MODE 0 || decide (w = 0) then 0 else Config.asymmetryNs w

/-- `delay` and `offset` of an exchange; pseudocode divides as C does (Conventions). -/
def delayOffset (t1 t2 t3 t4 asym : Int) : Int × Int :=
  (((t2 - t1) + (t4 - t3)).tdiv 2, ((t2 - t1) - (t4 - t3) - asym).tdiv 2)

/-- The count takes its one load, forward or backward (R65). What counts machine time moves with it, no further back than its own
start (log 25). -/
def State.loadCount (s : State) (offset : Int) : State :=
  { s.fset TIME_COUNT.COUNT 0 (wrapInt 64 ((s.count : Int) - offset)) with time := { s.time with
      loaded := true, good := 0, run := ((s.time.run : Int) - offset).toNat, thaw := ((s.time.thaw : Int) - offset).toNat } }

/-- The state after an exchange measured `offset` (R65 to R68). -/
def State.afterExchange (s : State) (offset : Int) : State :=
  match s.fget TIME_STATUS.STATE 0 with
  | 0 => s.acquire
  | 1 =>
    if !s.time.loaded then s.loadCount offset
    else
      let g := if offset.natAbs ≤ 5 then s.time.good + 1 else 0
      let s := { s with time := { s.time with good := g, slew := offset } }
      if 4 ≤ g then s.lockSync else s
  | 2 => if 1000 < offset.natAbs then s.acquire else { s with time := { s.time with slew := offset } }
  | _ => { s with time := { s.time with slew := offset } }.lockSync

/-- A child completes an exchange with t4 (R65 to R71). -/
def State.exchanged (s : State) (num t4 : Nat) : State :=
  match s.time.ex with
  | some (n, t1, t2, t3) =>
    if n = num then
      let (delay, offset) := delayOffset t1 t2 t3 t4 (s.asymNs (s.fget TIME_CTL.PARENT 0))
      let s := { s with time := { s.time with ex := none, lastEx := s.time.now } }
      let s := s.fset TIME_STATUS.OFFSET 0 (wrapInt 16 (max (-32767) (min 32767 offset)))
      let s := s.fset TIME_STATUS.DELAY 0 (wrapInt 16 delay)
      s.afterExchange offset
    else s
  | none => s

/-- A parent's RESP arrives. -/
def timingRespStep (p : Nat) (rx : List (List Nat)) (s : State) : State :=
  s.timed p 3 rx fun num t4 s => s.when (s.childOn p) fun s => s.exchanged num t4

/-- The TIMING_RESP row. -/
def execTimingResp (p : Nat) (rx : List (List Nat)) (s : State) : Res := need (wfPort p) (timingRespStep p rx s)

/-- No valid exchange for more than 300 µs (R64). -/
def execHoldoverEntry (s : State) : Res :=
  .next (s.when (s.pwr.on && decide (s.fget TIME_STATUS.STATE 0 = 2) && !s.fon TIME_CTL.ROOT 0 &&
    decide (s.time.lastEx + 300000 < s.time.now)) State.holdover)

/-- 10 ms of HOLDOVER (R68). -/
def execHoldoverTimeout (s : State) : Res :=
  .next (s.when (s.pwr.on && decide (s.fget TIME_STATUS.STATE 0 = 3) && !s.fon TIME_CTL.ROOT 0 &&
    decide (s.time.holdT + 10000000 ≤ s.time.now)) State.acquire)

/-- The payload of a TIME packet (R871). -/
def State.timePayload (s : State) : List Byte :=
  leBytes 32 (s.fget TIME_STATUS.STATE 0 + 4 * s.fget TIME_STATUS.DEPTH 0 + 32 * s.fget TIME_CTL.ROOT 0)

/-- A TIME packet to a port's partner (R871); it is of the hub's own firmware, so of the S world (R724). -/
def State.timePacket (s : State) (p : Nat) : Pkt :=
  mkPkt [(PH.TYPE, tyTIME), (PH.DEST, epAddr (s.fget FAB_PORT.PARTNER p) 0), (PH.SRC, epAddr s.self 0), (PH.WORLD, 1),
    (PH.MTLEN, 32)] s.timePayload

/-- TIME goes to the partner of a port in LS0 or LS1 while `SYNC_EN` is 1, on the channel and against the credit of any packet
injected here (R395, R397, R871). -/
def timePacketSendStep (p : Nat) (s : State) : State :=
  s.when (s.up && s.fon TIME_CTL.SYNC_EN 0 && s.portLS01 p) fun s =>
    s.branch hubPort p false (s.timePacket p) (copyArr hubPort p) s.time.run (32 + hubPort)

/-- The TIME_PACKET_SEND row. -/
def execTimePacketSend (p : Nat) (s : State) : Res := need (wfPort p) (timePacketSendStep p s)

/-- A packet that arrived whole: both checks hold (R379, R380). -/
def pktSound (p : Pkt) : Bool :=
  !p.bad && decide (PH.HCRC.of p.hdr = hcrcOf p.hdr) && decide (p.dig = trailerOf p.hdr p.pay) &&
  decide (PH.PLEN.of p.hdr = p.pay.length)

/-- A TIME packet from the parent updates the child's `DEPTH` (R871). -/
def timeReceiveStep (p : Nat) (k : Pkt) (s : State) : State :=
  s.when (s.up && pktSound k && decide (PH.TYPE.of k.hdr = tyTIME) && decide (s.fget TIME_CTL.PARENT 0 = p)) fun s =>
    let w := leAt k.pay 0 1
    { s with time := { s.time with parent := some (bitsOf w 0 2, bitsOf w 2 3, s.time.now) } }.redepth

/-- The TIME_RECEIVE row. -/
def execTimeReceive (p : Nat) (k : Pkt) (s : State) : Res := need (wfPort p) (timeReceiveStep p k s)

/-- No TIME packet for 3 ms: `DEPTH` reads 7 (R871). -/
def execDepthTimeout (s : State) : Res :=
  .next (s.when (s.pwr.on && !s.fon TIME_CTL.ROOT 0 &&
    (match s.time.parent with | some (_, _, t) => decide (t + 3000000 < s.time.now) | none => true))
    fun s => s.fset TIME_STATUS.DEPTH 0 7)

/-- What a TIME_CTL write does once accepted (R62, R872). -/
def timeCtlEff (v : Nat) (s : State) : State :=
  let was := s.fon TIME_CTL.ROOT 0
  let oldP := s.fget TIME_CTL.PARENT 0
  let s := s.putRW .TIME_CTL 0 v
  let s := if s.fget TIME_CTL.PARENT 0 = oldP then s
    else { s with time := { s.time with parent := none, ex := none } }.redepth
  if s.fon TIME_CTL.ROOT 0 then (if was then s else s.rootLock)
  else if was then s.holdover else s

/-- A write to `TIME_CTL`: a port above 21 other than 0x1F is rejected (R62, R84, R872). -/
def timeCtlWriteStep (w : Who) (v : Nat) (s : State) : State :=
  s.when (s.reaches w) fun s =>
    s.regWrite w .TIME_CTL 0 v (fun _ => decide (21 < TIME_CTL.PARENT.val v) && decide (TIME_CTL.PARENT.val v ≠ 31))
      (timeCtlEff v)

/-- The TIME_CTL_WRITE row. -/
def execTimeCtlWrite (w : Who) (v : Nat) (s : State) : Res := .next (timeCtlWriteStep w v s)

/-- A replica is corrected: it lands within ±2 ns of the hub count, where is a free value (R72). -/
def replicaCorrectStep (d : Nat) (s : State) : State :=
  s.when s.pwr.on fun s =>
    { s with time := { s.time with replica := s.time.replica.set d ((s.freeV 16 % 5 : Nat) - 2 : Int) } }.drew

/-- The REPLICA_CORRECT row. -/
def execReplicaCorrect (d : Nat) (s : State) : Res := need (wfDie d) (replicaCorrectStep d s)

/-- The count of a die's replica (R72, R73). -/
def State.replicaCount (s : State) (d : Nat) : Nat := wrapInt 64 ((s.count : Int) + s.time.replica.getD d 0)

/-- The least of a list, 0 of none. -/
def leastOf : List Nat → Nat
  | [] => 0
  | a :: r => r.foldl min a

/-- The rate field of a die (R57). -/
def rateFld : Nat → Fld
  | 0 => TIME_RATE.CD0 | 1 => TIME_RATE.CD1 | 2 => TIME_RATE.CD2 | _ => TIME_RATE.CD3

/-- The compute dies are in retention or without power. -/
def State.diesOff (s : State) : Bool :=
  !s.up || decide (s.fget PWR_PSTATE.STATE 0 = 2) || decide (s.fget PWR_PSTATE.STATE 0 = 3)

/-- The rate fields as the dies' state and the clusters' measurements give them: a die in retention or off reads 0 (R57). -/
def State.setRates (s : State) (m : List (List Nat)) : State :=
  (List.range 4).foldl (fun s d => s.fset (rateFld d) 0 (if s.diesOff then 0 else leastOf (m.getD d []))) s

/-- The dies have lost their rate: the fields read 0 at once (R57). -/
def State.ratesOff (s : State) : State := (List.range 4).foldl (fun s d => s.fset (rateFld d) 0 0) s

/-- Every rate replica was sampled: `m` holds, per die, what its clusters measured in M steps/s (R56, R57). -/
def rateSampleStep (m : List (List Nat)) (s : State) : State := s.when s.pwr.on fun s => s.setRates m

/-- The RATE_SAMPLE row. -/
def execRateSample (m : List (List Nat)) (s : State) : Res := .next (rateSampleStep m s)

/-- An action is armed for a count; a count already passed starts it at once with `LATE` (R77, R78). -/
def State.arm (s : State) (t kind ring seq : Nat) : State :=
  let late := decide (t < s.count)
  let s := { s with time := { s.time with armed := s.time.armed ++ [⟨t, kind, ring, seq, late⟩] } }
  if late then s.fset TIME_STATUS.LATE 0 1 else s

/-! ## Register ownership -/

/-- Whether a `GCTL_OWNER` write changes only owner bits that the writer owns (R84). -/
def State.ownerMay (s : State) (w : Who) (v : Nat) : Bool :=
  [GCTL_OWNER.PWR, GCTL_OWNER.OBS, GCTL_OWNER.SPARE, GCTL_OWNER.TIME].all fun f =>
    decide (f.val v = s.fget f 0) || decide (s.fon f 0 = decide (w = .mc))

/-- A write to `GCTL_OWNER` (R83 to R86). -/
def gctlOwnerWriteStep (w : Who) (v : Nat) (s : State) : State :=
  s.when (s.reaches w) fun s =>
    match s.barred w .GCTL_OWNER 0 v with
    | .none =>
      if s.ownerMay w v then (s.clrW1C .GCTL_OWNER 0 v).putRW .GCTL_OWNER 0 v else s.ownerReject w
    | b => s.bar w .GCTL_OWNER 0 b

/-- The GCTL_OWNER_WRITE row. -/
def execGctlOwnerWrite (w : Who) (v : Nat) (s : State) : Res := .next (gctlOwnerWriteStep w v s)

end Sys2Proof.Machine
end

