-- ==== Sys2Proof/Machine/FabricOps.lean ====
section
/-! DEFINITION. The fabric ends: source streams and transfers, what abandoning one sends, the destination's stream entries and
messages, and the steps every arriving sequenced packet takes (R384, R385, R402 to R419). -/
set_option autoImplicit false
namespace Sys2Proof.Machine

/-! ## What the hub sends -/

/-- Packets that no freeze holds (R814). -/
def passesFreeze (p : Pkt) : Bool := [tyMGMT, tyTIME, tyABORT].contains (PH.TYPE.of p.hdr)

/-- A packet handed to the router, or owed until a debug freeze resumes (R813, R814). -/
def State.hubSend (s : State) (p : Pkt) : State :=
  if s.frozen && !passesFreeze p then { s with fab := { s.fab with owed := s.fab.owed ++ [p] } } else s.inject p

/-! ## Endpoints and source streams -/

/-- The endpoint a context sends from (R384). -/
def State.ctxEp (s : State) (c : Nat) : Option Nat :=
  ((List.range 255).map (· + 1)).find? fun e => s.fon FAB_EP.VALID e && decide (s.fget FAB_EP.CTX e = c)

/-- The source stream of a triple (R385). -/
def State.stream (s : State) (ep dmod dep : Nat) : Option SStream :=
  s.fab.sstr.find? fun t => decide (t.ep = ep) && decide (t.dmod = dmod) && decide (t.dep = dep)

/-- Two entries of one source stream. -/
def SStream.same (t u : SStream) : Bool := decide (t.ep = u.ep) && decide (t.dmod = u.dmod) && decide (t.dep = u.dep)

/-- A source stream entry replaced, or added. -/
def State.setStream (s : State) (t : SStream) : State :=
  let l := if s.fab.sstr.any (t.same ·) then s.fab.sstr.map (fun u => if t.same u then t else u) else s.fab.sstr ++ [t]
  { s with fab := { s.fab with sstr := l } }

/-- A new source stream entry: sequence number 0, its first packet to be marked `OPEN` (R414). -/
def State.freshStream (s : State) (ep dmod dep : Nat) : SStream := ⟨ep, dmod, dep, 0, 0, true, s.time.now, []⟩

/-- The entry of a triple, as it stands or as a new one. -/
def State.streamOr (s : State) (ep dmod dep : Nat) : SStream := (s.stream ep dmod dep).getD (s.freshStream ep dmod dep)

/-- A transfer by its number. -/
def State.xfer (s : State) (id : Nat) : Option Xfer := s.fab.xfers.find? fun x => decide (x.id = id)

/-- A transfer replaced. -/
def State.setXfer (s : State) (x : Xfer) : State :=
  { s with fab := { s.fab with xfers := s.fab.xfers.map fun y => if y.id = x.id then x else y } }

/-- Transfers removed, with the stamps of their VOIDs (R419). -/
def State.dropXfers (s : State) (f : Xfer → Bool) : State :=
  let l := s.fab.xfers.filter fun x => !f x
  { s with fab := { s.fab with xfers := l, voids := s.fab.voids.filter fun v => l.any fun x => decide (x.id = v.1) } }

/-- A transfer to begin: what its sender names. -/
def mkXfer (owner : Owner) (ctx : Option Nat) (ep dmod dep typ part world raddr total : Nat) (src : Src) : Xfer :=
  { id := 0, owner := owner, ctx := ctx, ep := ep, dmod := dmod, dep := dep, typ := typ, msgid := 0, part := part,
    world := world, raddr := raddr, total := total, mtlen := total, pre := [], lead := [], src := src, dst := none, psize := 0, slots := 0,
    sent := 0, avail := total, acked := 0, acks := [], failed := false, rest := 0, req := 0 }

/-- A transfer begins: it takes the stream's next message identifier, but for a GET_RESP, which keeps the request's (R420).
None when a pair member would need an entry beyond 65,536 (R617). -/
def State.begin (s : State) (x : Xfer) : Option State :=
  if (s.stream x.ep x.dmod x.dep).isNone && s.inPair && decide (65536 ≤ s.fab.sstr.length) then none
  else
    let t := s.streamOr x.ep x.dmod x.dep
    let x := { x with id := s.fab.nextXfer, msgid := if x.typ = tyGETRESP then x.msgid else t.msg % 65536 }
    let t := if x.typ = tyGETRESP then t else { t with msg := (t.msg + 1) % 65536 }
    let s := s.setStream t
    some { s with fab := { s.fab with xfers := s.fab.xfers ++ [x], nextXfer := s.fab.nextXfer + 1 } }

/-- A message of the hub's own begins where a stream entry is to be had. -/
def State.beginHub (s : State) (x : Xfer) : State := (s.begin x).getD s

/-- Retransmission timeout in µs (R401). -/
def State.rto (s : State) : Nat := s.fget FAB_XPORT.RTO 0

/-- `STALL` in ns. -/
def State.stallNs (s : State) : Nat := s.fget FAB_XPORT.STALL 0 * 1000000

/-! ## Packets of a transfer -/

/-- Destination address of the byte at an offset (R218, R376). -/
def Xfer.addrAt (x : Xfer) (off : Nat) : Nat :=
  if x.slots = 0 then x.raddr + off else x.raddr + off / x.psize % x.slots * x.psize + off % x.psize

/-- The destination and flag fields of a transfer's packets. -/
def Xfer.destFields (x : Xfer) : List (BF × Nat) :=
  if 16384 ≤ x.dmod then [(PH.DEST, x.dmod - 16384), (PH.MCAST, 1)] else [(PH.DEST, epAddr x.dmod x.dep)]

/-- A packet of a transfer (R376, R381). -/
def State.xferPkt (s : State) (x : Xfer) (seq raddr flags : Nat) (pay : List Byte) : Pkt :=
  mkPkt (x.destFields ++ [(PH.TYPE, x.typ), (PH.FLAGS, flags + s.pairFlag), (PH.SRC, epAddr s.self x.ep), (PH.PART, x.part),
    (PH.WORLD, x.world), (PH.SSEQ, seq), (PH.RADDR, raddr), (PH.MSGID, x.msgid), (PH.MTLEN, x.mtlen)]) pay

/-- The reader's row of R311 of a transfer: an engine, the collective engine or an inbound request. -/
def Owner.reader : Owner → Nat
  | .flight .. => 0
  | .piece .. => 3
  | .top .. => 3
  | .query _ => 0
  | .hub => 5

/-- Bytes read from a transfer's source. -/
def State.srcBytes (s : State) (x : Xfer) (off len : Nat) : MemRes :=
  match x.src with
  | .lit b => ⟨0, slice b off len, s⟩
  | .cs site a => ⟨0, s.csRead site (a + off) len, s⟩
  | .dm part world a =>
    s.memRead ⟨part, world, x.ctx, x.owner.reader⟩ (if x.typ = tyGETRESP then MEM_RGN.FGET else MEM_RGN.RD) (a + off) len

/-- Bytes of a transfer: those that lead it, then its source's, read as they are each time the packet is sent (R151, R246, R251, R405). -/
def State.srcRead (s : State) (x : Xfer) (off len : Nat) : MemRes :=
  let h := slice x.lead off len
  let m := s.srcBytes x (off - x.lead.length) (len - h.length)
  { m with bytes := h ++ m.bytes }

/-- Payload bytes of a stream sent and not yet acknowledged (R402). -/
def SStream.inFlight (t : SStream) : Nat := (t.out.map (·.plen)).foldl (· + ·) 0

/-- Length of a transfer's next packet: at most 8 KiB, within what has started, and within one slot (R218, R375). -/
def Xfer.nextLen (x : Xfer) : Nat :=
  let n := min (8192 - x.pre.length) (x.avail - x.sent)
  if x.slots = 0 then n else min n (x.psize - x.sent % x.psize)

/-- The flags of a packet sent first: `LAST` when it holds the final bytes, `OPEN` on a new entry (R378). -/
def firstFlags (x : Xfer) (t : SStream) (n : Nat) : Nat :=
  PFL.LAST.mk1 (b2n (decide (x.sent + n = x.total))) + PFL.OPEN.mk1 (b2n t.fresh)

/-- The next packet of a transfer goes out, its bytes read. -/
def State.sendNext (s : State) (x : Xfer) (t : SStream) (n : Nat) (b : List Byte) : State :=
  let pay := x.pre ++ b
  let p := s.xferPkt x t.next (x.addrAt x.sent) (firstFlags x t n) pay
  let o : OutPkt := ⟨t.next, x.id, x.sent, n, pay.length, t.fresh, false, 0, s.time.run, s.time.now, s.rto, 0, 0, false, []⟩
  let s := s.setStream { t with next := (t.next + 1) % 2 ^ 32, fresh := false, last := s.time.now, out := t.out ++ [o] }
  (s.setXfer { x with sent := x.sent + n, req := if x.typ = tyGETREQ then t.next else x.req }).hubSend p

/-- A VOID for one outstanding packet, or for bytes never sent: `PLEN` 0 and the claimed count in `RADDR` (R418). -/
def State.voidPkt (s : State) (x : Xfer) (seq claim flags : Nat) : Pkt :=
  s.xferPkt x seq (claim % 2 ^ 32) (PFL.VOID.mk1 1 + flags) []

/-- A transfer's outstanding packets become VOIDs. -/
def State.voidOut (s : State) (x : Xfer) (t : SStream) : SStream :=
  { t with out := t.out.map fun o =>
      if o.xfer = x.id ∧ o.void = false then
        { o with void := true, claim := o.plen, plen := 0, t0 := s.time.run, tSent := s.time.now, rto := s.rto, retry := false }
      else o }

/-- The count claimed for bytes never sent: with the header that each of their packets would have carried (R418, R536). -/
def Xfer.restClaim (x : Xfer) : Nat :=
  x.total - x.sent + x.pre.length * ceilDiv (x.total - x.sent) (8192 - x.pre.length)

/-- The stamp from which an abandoned transfer's VOIDs wait (R419). -/
def State.stampVoids (s : State) (id : Nat) : State :=
  { s with fab := { s.fab with voids := s.fab.voids.filter (fun v => decide (v.1 ≠ id)) ++ [(id, s.time.run)] } }

/-- Whether a stream has fewer than 256 packets out (R402). -/
def SStream.room (t : SStream) : Bool := decide (t.out.length < 256)

/-- The VOID for the bytes of an abandoned transfer never sent goes out, under a new number, once the window has room for a packet
(R402, R418). -/
def State.voidRest (s : State) (x : Xfer) : State :=
  let t := s.streamOr x.ep x.dmod x.dep
  if x.rest = 0 ∨ t.room = false then s
  else
    let o : OutPkt := ⟨t.next, x.id, x.sent, 0, 0, t.fresh, true, x.rest, s.time.run, s.time.now, s.rto, 0, 0, false, []⟩
    let s := s.setStream { t with next := (t.next + 1) % 2 ^ 32, fresh := false, last := s.time.now, out := t.out ++ [o] }
    ((s.setXfer { x with rest := 0 }).stampVoids x.id).hubSend (s.voidPkt x t.next x.rest (PFL.OPEN.mk1 (b2n t.fresh)))

/-- Abandons a transfer: a VOID for each packet outstanding, and one with a new number for the bytes never sent (R418). -/
def State.abandon (s : State) (x : Xfer) : State :=
  if x.failed then s
  else
    let t := s.streamOr x.ep x.dmod x.dep
    let mine := t.out.filter fun o => decide (o.xfer = x.id)
    let s := (mine.filter fun o => !o.void).foldl (fun s o => s.hubSend (s.voidPkt x o.seq o.plen (PFL.OPEN.mk1 (b2n o.first)))) s
    let t := s.voidOut x t
    let s := s.setStream (if mine.isEmpty then t else { t with last := s.time.now })
    let x := { x with failed := true, rest := x.restClaim }
    if mine.isEmpty && decide (x.rest = 0) then s.dropXfers fun y => decide (y.id = x.id)
    else ((s.setXfer x).stampVoids x.id).voidRest x

/-- Every transfer that satisfies `f` is abandoned. -/
def State.abandonAll (s : State) (f : Xfer → Bool) : State := (s.fab.xfers.filter f).foldl (fun s x => s.abandon x) s

/-! ## Acknowledgement at the source (R403, R409, R425) -/

/-- Whether an ACK of a base and a bitmap covers a number. -/
def ackCovers (base bits seq : Nat) : Bool :=
  let d := wrapSub 32 seq base
  decide (2 ^ 31 ≤ d) || (decide (d < 256) && bits.testBit d)

/-- Whether an ACK releases a packet: a unicast at once, a multicast once every member has acknowledged it (R425). -/
def State.released (s : State) (t : SStream) (o : OutPkt) : Bool :=
  decide (t.dmod < 16384) || decide (s.fget FAB_MCG.NMEMB_M1 (t.dmod - 16384) + 1 ≤ o.members.length)

/-- A transfer learns that one of its packets was acknowledged. -/
def Xfer.ackPkt (x : Xfer) (o : OutPkt) : Xfer :=
  if o.void || decide (x.typ = tyGETREQ) then x else { x with acked := x.acked + o.len, acks := x.acks ++ [(o.off, o.len)] }

/-- A failed transfer with nothing of it outstanding on its stream, nor to send. -/
def Xfer.over (x : Xfer) (t : SStream) : Bool :=
  x.failed && decide (x.rest = 0) && !t.out.any (fun o => decide (o.xfer = x.id))

/-- The released packets leave the stream, and their transfers count them. A hub message fully acknowledged and a failed
transfer with no VOID outstanding are gone. -/
def State.release (s : State) (t : SStream) (base bits midx : Nat) : State :=
  let out := t.out.map fun o => if ackCovers base bits o.seq && !o.members.contains midx then
    { o with members := o.members ++ [midx] } else o
  let gone := out.filter fun o => ackCovers base bits o.seq && s.released t o
  let t := { t with out := out.filter fun o => !(ackCovers base bits o.seq && s.released t o) }
  let s := s.setStream t
  let xs := s.fab.xfers.map fun x => (gone.filter fun o => decide (o.xfer = x.id)).foldl Xfer.ackPkt x
  State.dropXfers { s with fab := { s.fab with xfers := xs } } fun x =>
    (x.over t && gone.any (fun o => decide (o.xfer = x.id))) ||
    (decide (x.owner = .hub) && !x.failed && decide (x.total ≤ x.acked))

/-- The source streams that an ACK or NACK can be about: the sender's own as its destination, else the multicast streams of
the endpoint (log 40). -/
def State.ackStreams (s : State) (p : Pkt) : List SStream :=
  let ep := epNum (PH.DEST.of p.hdr)
  let src := PH.SRC.of p.hdr
  match s.stream ep (epMod src) (epNum src) with
  | some t => if t.out.isEmpty then s.fab.sstr.filter (fun t => decide (t.ep = ep) && decide (16384 ≤ t.dmod)) else [t]
  | none => s.fab.sstr.filter fun t => decide (t.ep = ep) && decide (16384 ≤ t.dmod)

/-! ## The destination's stream entries (R410, R414, R417) -/

/-- The source module of a stream key: the lower of a mirror pair's two addresses (R385). -/
def State.foldMod (s : State) (m : Nat) : Nat :=
  if s.fon FAB_PAIR.VALID m then min m (s.fget FAB_PAIR.PARTNER m) else m

/-- The destination endpoint of an arriving packet: the group's local endpoint for a multicast (R423). -/
def State.depOf (s : State) (p : Pkt) : Nat :=
  if PH.MCAST.on p.hdr then s.fget FAB_MCG.LEP (pktGroup p) else epNum (PH.DEST.of p.hdr)

/-- Sending module and endpoint of a packet, and its key's source module. -/
def pktMod (p : Pkt) : Nat := epMod (PH.SRC.of p.hdr)
/-- R376. -/
def pktEp (p : Pkt) : Nat := epNum (PH.SRC.of p.hdr)

/-- Whether an entry is the one of a packet's stream key. -/
def State.ofKey (s : State) (p : Pkt) (t : DStream) : Bool :=
  decide (t.smod = s.foldMod (pktMod p)) && decide (t.sep = pktEp p) && decide (t.dep = s.depOf p)

/-- The entry of a packet's stream. -/
def State.dstream (s : State) (p : Pkt) : Option DStream := s.fab.dstr.find? (s.ofKey p)

/-- A destination entry replaced, or added. -/
def State.setDstream (s : State) (t : DStream) : State :=
  let same (u : DStream) : Bool := decide (t.smod = u.smod) && decide (t.sep = u.sep) && decide (t.dep = u.dep)
  let l := if s.fab.dstr.any same then s.fab.dstr.map (fun u => if same u then t else u) else s.fab.dstr ++ [t]
  { s with fab := { s.fab with dstr := l } }

/-- Whether a stream has an open message. -/
def State.hasOpen (s : State) (smod sep dep : Nat) : Bool :=
  s.fab.msgs.any fun m => decide (m.smod = smod) && decide (m.sep = sep) && decide (m.dep = dep)

/-- The duplicate test (R410). -/
def DStream.isDup (t : DStream) (seq : Nat) : Bool :=
  let b := wrapSub 32 t.base seq
  let d := wrapSub 32 seq t.base
  (decide (1 ≤ b) && decide (b ≤ 2 ^ 31)) || (decide (d < 256) && t.bits.testBit d)

/-- The base advanced over set bits. -/
def advanceBase : Nat → Nat → Nat → Nat × Nat
  | 0, base, bits => (base, bits)
  | n + 1, base, bits => if bits.testBit 0 then advanceBase n ((base + 1) % 2 ^ 32) (bits / 2) else (base, bits)

/-- A number received: its bit set, and the base advanced (R411). -/
def DStream.mark (t : DStream) (seq : Nat) : DStream :=
  let r := advanceBase 256 t.base (t.bits ||| 2 ^ wrapSub 32 seq t.base)
  { t with base := r.1, bits := r.2 }

/-- The entry for a packet as step 2 of R411 leaves it; none when no entry is free, or the number lies beyond the bitmap of
the entry (R410). A new entry starts at number 0, an `OPEN` at its own. An `OPEN` resets a live entry that has no open message, and only
one that has had no packet for 36 ms: its source sends nothing for 50 ms before it makes an entry anew, and a packet lives at most
14 ms, so that every such `OPEN` comes that late, and one that comes sooner is a packet sent again or a pair's second copy, which step 3
is to find a duplicate (R411, R414, R416, log 41). -/
def State.entryFor (s : State) (p : Pkt) : Option DStream :=
  let seq := PH.SSEQ.of p.hdr
  let isOpen := PFL.OPEN.on (PH.FLAGS.of p.hdr)
  let t := match s.dstream p with
    | some t => if isOpen && !s.hasOpen t.smod t.sep t.dep && decide (t.last + 36000000 ≤ s.time.now) then
        some { t with base := seq, bits := 0, digs := [], dead := [] } else some t
    | none => if 65536 ≤ s.fab.dstr.length then none
      else some ⟨s.foldMod (pktMod p), pktEp p, s.depOf p, if isOpen then seq else 0, 0, [], [], s.time.now⟩
  match t with
  | some t => if !t.isDup seq && decide (256 ≤ wrapSub 32 seq t.base) then none else some { t with last := s.time.now }
  | none => none

/-- Partition and world of what an endpoint sends; endpoint 0 is of the hub's own firmware (R381, R724, log 35). -/
def State.epParty (s : State) (e : Nat) : Nat × Nat := if e = 0 then (0, 1) else (s.fget FAB_EP.PART e, s.fget FAB_EP.WORLD e)

/-- The response header fields of a packet's stream: back to its physical sender, in the name of the endpoint that answers (R381). -/
def State.backFields (s : State) (p : Pkt) (typ : Nat) : List (BF × Nat) :=
  let me := s.epParty (s.depOf p)
  [(PH.TYPE, typ), (PH.DEST, PH.SRC.of p.hdr), (PH.SRC, epAddr s.self (s.depOf p)), (PH.PART, me.1), (PH.WORLD, me.2),
   (PH.MSGID, PH.MSGID.of p.hdr), (PH.MTLEN, 32)]

/-- An ACK of a stream's base and bitmap; a member of a multicast names its index (R403, R425). -/
def State.sendAck (s : State) (p : Pkt) (t : DStream) (dup : Bool) : State :=
  let midx := if PH.MCAST.on p.hdr then s.fget FAB_MCG.MIDX (pktGroup p) else 0
  s.hubSend (mkPkt (s.backFields p tyACK ++ [(PH.FLAGS, PFL.DUP.mk1 (b2n dup) + s.pairFlag), (PH.SSEQ, t.base),
    (PH.RADDR, midx)]) (leBytes 32 t.bits))

/-- A NACK of one packet with a status (R404). -/
def State.sendNack (s : State) (p : Pkt) (code : Nat) : State :=
  s.hubSend (mkPkt (s.backFields p tyNACK ++ [(PH.FLAGS, s.pairFlag), (PH.SSEQ, PH.SSEQ.of p.hdr)])
    (leBytes 2 code ++ zeros 30))

/-- A duplicate is acknowledged with `DUP`, and compared where its pair's entry asks for it. A mismatch is logged with the
stream and number under a code of the fabric area (R18) that the spec does not give, so a free value (R411, R417, log 42). -/
def State.dupPkt (s : State) (p : Pkt) (t : DStream) : State :=
  let s := (s.setDstream t).sendAck p t true
  if s.fon FAB_PAIR.VALID (pktMod p) && s.fon FAB_PAIR.CMP (pktMod p) then
    match t.digs.find? (fun d => decide (d.1 = PH.SSEQ.of p.hdr)) with
    | some d => if d.2 = cmpDigest p then s
      else ((s.fset FAB_CMP_MISMATCH.COUNT 0 (s.fget FAB_CMP_MISMATCH.COUNT 0 + 1)).log
        { code := 0x0200 + s.freeV 8, data := pktData p }).drew
    | none => s
  else s

/-- Why the endpoint refuses a packet, or 0 (R411 steps 4 and 5, R594). -/
def State.endpointCode (s : State) (p : Pkt) : Nat :=
  let e := s.depOf p
  let ty := PH.TYPE.of p.hdr
  let pairBad := PFL.PAIR.on (PH.FLAGS.of p.hdr) && !s.fon FAB_PAIR.VALID (pktMod p)
  if pairBad then 0x0204
  else if e = 0 then (if ty = tyMGMT then 0 else 0x0204)
  else if ty = tyMGMT then 0x0204
  else if s.fon SPARE_ESC.WITHDRAWN 0 && decide (ty ≠ tyQUERY) then 0x0204
  else if !s.fon FAB_EP.VALID e then 0x0204
  else if [tyPUT, tyGETREQ, tyATOMIC, tyCOLL].contains ty && !s.fon FAB_EP.RX_EN e then 0x0204
  else if PH.PART.of p.hdr ≠ s.fget FAB_EP.PART e ∨ PH.WORLD.of p.hdr ≠ s.fget FAB_EP.WORLD e then 0x0205
  else 0

/-- The digests kept for compare-on-discard (R417). -/
def State.keepDigest (s : State) (p : Pkt) (t : DStream) : DStream :=
  if s.fon FAB_PAIR.VALID (pktMod p) && s.fon FAB_PAIR.CMP (pktMod p) then
    { t with digs := (t.digs ++ [(PH.SSEQ.of p.hdr, cmpDigest p)]).drop (t.digs.length + 1 - 256) } else t

/-- The packet is done with: its bit is set, the base advances, and it is acknowledged, and its digest kept, or refused for good with a
code (R411, R417). -/
def State.finish (s : State) (p : Pkt) (t : DStream) (code : Nat) : State :=
  let t := (if code = 0 then s.keepDigest p t else t).mark (PH.SSEQ.of p.hdr)
  let s := s.setDstream t
  if code = 0 then s.sendAck p t false else s.sendNack p code

/-- An endpoint belongs to a partition that a scrub runs on (R742). -/
def State.scrubbingEp (s : State) (e : Nat) : Bool :=
  match s.holder SEC_PART.EPM e with
  | some p => s.scrubbing p
  | none => false

/-- Steps 1 to 5 of R411: what a packet that passes them is then handled with, or the state after its refusal. -/
def State.arrive (s : State) (p : Pkt) (k : DStream → State → State) : State :=
  if !s.hubUp || !s.fon FAB_CTL.EN 0 then s
  else if !pktSound p then s.sendNack p 0x0210
  else if s.depOf p ≠ 0 ∧ (s.fget SPARE_PAIR_STATE.ROLE 0 = 4 ∨ s.scrubbingEp (s.depOf p) = true) then s.sendNack p 0x0211
  else match s.entryFor p with
    | none => s.sendNack p 0x0211
    | some t =>
      if t.isDup (PH.SSEQ.of p.hdr) then s.dupPkt p t
      else match s.endpointCode p with
        | 0 => k t s
        | c => (if c = 0x0205 then s.log { code := 0x0205, data := pktData p } else s).finish p t c

/-! ## Messages (R411 step 6, R412, R413) -/

/-- Whether a message is the one a packet belongs to. -/
def Msg.isOf (m : Msg) (t : DStream) (msgid : Nat) (resp : Bool) : Bool :=
  decide (m.smod = t.smod) && decide (m.sep = t.sep) && decide (m.dep = t.dep) && decide (m.msgid = msgid) && decide (m.resp = resp)

/-- Two records of one message. -/
def Msg.same (n m : Msg) : Bool :=
  decide (n.smod = m.smod) && decide (n.sep = m.sep) && decide (n.dep = m.dep) && decide (n.msgid = m.msgid) && decide (n.resp = m.resp)

/-- Whether a packet counts among the responses (R411 step 6). -/
def isResp (p : Pkt) : Bool := decide (PH.TYPE.of p.hdr = tyGETRESP)

/-- The message of a packet: open, or a new one. -/
def State.msgOf (s : State) (p : Pkt) (t : DStream) : Msg :=
  (s.fab.msgs.find? (·.isOf t (PH.MSGID.of p.hdr) (isResp p))).getD
    ⟨t.smod, t.sep, t.dep, PH.MSGID.of p.hdr, isResp p, PH.MTLEN.of p.hdr, 0, false, [], p.hdr⟩

/-- The message replaced, or added. -/
def State.setMsg (s : State) (m : Msg) : State :=
  let l := if s.fab.msgs.any (·.same m) then s.fab.msgs.map (fun n => if n.same m then m else n) else s.fab.msgs ++ [m]
  { s with fab := { s.fab with msgs := l } }

/-- The message removed. -/
def State.dropMsg (s : State) (m : Msg) : State :=
  { s with fab := { s.fab with msgs := s.fab.msgs.filter fun n => !n.same m } }

/-- A message that closes is counted at its endpoint (R383, R413). -/
def State.closeMsg (s : State) (m : Msg) : State :=
  let s := s.dropMsg m
  if m.failed then s.fset FAB_EPCNT.FAILED m.dep (s.fget FAB_EPCNT.FAILED m.dep + 1)
  else s.fset FAB_EPCNT.DONE m.dep (s.fget FAB_EPCNT.DONE m.dep + 1)

/-- What accounting a packet to its message leaves: the state, and the message if it closed. -/
structure Accounted where
  st : State
  closed : Option Msg

/-- `n` bytes accounted to a message, with whether they were written (R412). A message that receives more than `MTLEN` closes
failed and logs MSG_LENGTH. -/
def State.account (s : State) (p : Pkt) (m : Msg) (n : Nat) (ok : Bool) : Accounted :=
  let m := { m with acc := m.acc + n, failed := m.failed || !ok }
  if m.acc < m.total then ⟨s.setMsg m, none⟩
  else if m.acc = m.total then ⟨s.closeMsg m, some m⟩
  else
    let m := { m with failed := true }
    ⟨(s.closeMsg m).log { code := 0x0206, data := pktData p }, some m⟩

/-- Whether a packet is a VOID (R378). -/
def isVoid (p : Pkt) : Bool := PFL.VOID.on (PH.FLAGS.of p.hdr)

/-- A message that closed failed is remembered in its stream (R413). -/
def DStream.bury (t : DStream) (m : Option Msg) : DStream :=
  match m with
  | some m => if m.failed then { t with dead := (t.dead ++ [(m.msgid, m.resp)]).drop (t.dead.length + 1 - 256) } else t
  | none => t

/-- Dead messages whose identifier the stream has left so far behind that a new one may carry it: identifiers are taken in order, and
no packet of the old message can still come (R413, R414, log 43). -/
def DStream.exhume (t : DStream) (msgid : Nat) : DStream :=
  { t with dead := t.dead.filter fun d => decide (wrapSub 16 msgid d.1 < 32768) || decide (65024 ≤ wrapSub 16 msgid d.1) }

/-- The end of a packet whose bytes are accounted: its answer, and what follows from a message that closed. -/
def State.settle (p : Pkt) (t : DStream) (a : Accounted) (code : Nat) (after : Msg → State → State) : State :=
  let s := a.st.finish p (t.bury a.closed) code
  match a.closed with
  | some m => after m s
  | none => s

/-- Step 6 of R411 and the accounting: a packet whose message is found runs `k` with it, which answers the state and the code
that refuses the packet, or 0 when its bytes were written. A packet refused at steps 7 and 8 is accounted as not written
(log 43), and so are a VOID and one that is `lost`, whose bytes have nowhere to go. `after` acts on a message that closes. -/
def State.withMsg (s : State) (p : Pkt) (t : DStream) (lost : Bool) (k : Msg → State → MemRes) (after : Msg → State → State) :
    State :=
  let here (s : State) : Option Msg := s.fab.msgs.find? (·.isOf t (PH.MSGID.of p.hdr) (isResp p))
  let m := s.msgOf p t
  let t := t.exhume (PH.MSGID.of p.hdr)
  if t.dead.contains (PH.MSGID.of p.hdr, isResp p) then s.finish p t 0
  else if (here s).isNone && decide (16384 ≤ s.fab.msgs.length) then s.sendNack p 0x0211
  else if m.total ≠ PH.MTLEN.of p.hdr then s.finish p t 0x0206
  else if isVoid p then State.settle p t (s.account p m (PH.RADDR.of p.hdr % 2 ^ 32) false) 0 after
  else if lost then State.settle p t (s.account p m p.pay.length false) 0 after
  else
    let r := k m s
    State.settle p t (r.st.account p ((here r.st).getD m) p.pay.length (decide (r.code = 0))) r.code after

/-- The GET_REQ that a GET_RESP answers (R420). -/
def State.requestOf (s : State) (p : Pkt) (t : DStream) : Option Xfer :=
  s.fab.xfers.find? fun x => decide (x.typ = tyGETREQ) && !x.failed && decide (x.ep = t.dep) &&
    decide (s.foldMod x.dmod = t.smod) && decide (x.dep = t.sep) && decide (x.msgid = PH.MSGID.of p.hdr)

end Sys2Proof.Machine
end

