-- ==== Sys2Proof/Machine/Context.lean ====
section
/-! DEFINITION. How a command completes, and the context reset that removes a context's work from every unit: its ABORTs, the
answers to held queries, escalation and withdrawal (R273, R280, R351 to R356, R363, R418, R543, R577 to R581, R593 to R602). -/
set_option autoImplicit false
namespace Sys2Proof.Machine

/-! ## Completion records -/

/-- Whether a context's world is NS. -/
def State.ctxNs (s : State) (c : Nat) : Bool := decide (s.ctxWorld c = 0)

/-- Whether the stamps of an NS context's records, traces and dumps are coarsened: R769 lifts it at DL3 (R766). -/
def State.coarseCtx (s : State) (c : Nat) : Bool := s.ctxNs c && decide (s.fget SEC_PART.DL (s.ctxPart c) ≠ 3)

/-- Whether NS power and energy readings are coarsened: while some valid partition is below DL3 (R766, R769). -/
def State.coarsePower (s : State) : Bool :=
  (List.range 16).any fun p => s.fon SEC_PART.VALID p && decide (s.fget SEC_PART.DL p ≠ 3)

/-- Module input energy as a context's records see it: a coarsened record takes the reading held since the last 10 ms (R766). -/
def State.energyFor (s : State) (c : Nat) : Nat :=
  if s.ctxNs c && s.coarsePower then tget s.obs.held (PWR_ENERGY.ENERGY.key 0) 0 else s.fget PWR_ENERGY.ENERGY 0

/-- Latched counters of a cluster: `TBUSY`, `TWAIT` and `CE` (R793). -/
def State.clCounters (s : State) (cl : Nat) : Nat × Nat × Nat × Nat :=
  (cl, s.fget OBS_CL.TBUSY cl, s.fget OBS_CL.TWAIT cl, s.fget OBS_CL.CE cl)

/-- Clusters that hold a core of a launch table (R353). -/
def clustersOf (lt : List Nat) : List Nat := (lt.map fun e => LTE.LCORE.of e / 8).eraseDups

/-- Sum over the latched clusters of a difference modulo `2^w`. -/
def sumDiff (w : Nat) (l : List (Nat × Nat)) : Nat := (l.map fun p => wrapSub w p.1 p.2).foldl (· + ·) 0

/-- A completion record (R352, R353, R354, R766). -/
def State.cplWord (s : State) (c : Cmd) (status : Nat) : Nat :=
  let ctx := ringCtx c.ring
  let t (n : Nat) : Nat := if s.coarseCtx ctx then coarse n else n
  let i := s.fget CFE_RING_CPTR.CTAIL c.ring
  let e := if c.launched then s.energyFor ctx - c.energy0 else 0
  packFields [(CPL.PHASE, 1 - (i >>> s.fget CFE_RING_CPL.J c.ring) % 2), (CPL.ERR, b2n (decide (status ≠ 0))),
    (CPL.UNSYNC, b2n (c.uStart || s.unsync)), (CPL.RING, c.ring), (CPL.CMD_SEQ, c.seq),
    (CPL.USER_TAG, CMD.USER_TAG.of c.word), (CPL.STATUS, status), (CPL.ARITH, c.arith), (CPL.DIV, s.fget CTX_DIV.DIV ctx),
    (CPL.T_START, t c.tStart), (CPL.T_END, t s.count), (CPL.NDONE, c.ndone),
    (CPL.TBUSY, min (2 ^ 32 - 1) (sumDiff 48 (c.cnt0.map fun l => (s.fget OBS_CL.TBUSY l.1, l.2.1)) / 1024)),
    (CPL.TWAIT, min (2 ^ 32 - 1) (sumDiff 48 (c.cnt0.map fun l => (s.fget OBS_CL.TWAIT l.1, l.2.2.1)) / 1024)),
    (CPL.ENERGY, min (2 ^ 32 - 1) (if s.ctxNs ctx && s.coarsePower then e / 50 * 50 else e)),
    (CPL.CE, min (2 ^ 16 - 1) (sumDiff 16 (c.cnt0.map fun l => (s.fget OBS_CL.CE l.1, l.2.2.2))))]

/-- Whether a command is the one of a ring and sequence number. -/
def Cmd.is (c : Cmd) (ring seq : Nat) : Bool := decide (c.ring = ring) && decide (c.seq = seq)

/-- A command's work leaves every core: its place and its counters there are free again (R27, R191). -/
def State.dropWork (s : State) (ring seq : Nat) : State :=
  { s with core := { s.core with rsds := s.core.rsds.filter fun r => !(decide (r.ring = ring) && decide (r.seq = seq)) } }

/-- A command completes: one record at `CTAIL`, then the notification (R351, R355, R356). -/
def State.complete (s : State) (c : Cmd) (status : Nat) : State :=
  let i := s.fget CFE_RING_CPTR.CTAIL c.ring
  let addr := (s.fget CFE_RING_CPL.BASE c.ring <<< 12) + 64 * (i % 2 ^ s.fget CFE_RING_CPL.J c.ring)
  let ctx := ringCtx c.ring
  let s := (s.rawWrite (s.accOf ctx 2) addr (leBytes 64 (s.cplWord c status))).st
  let s := s.fset CFE_RING_CPTR.CTAIL c.ring (i + 1)
  let s := (s.dropWork c.ring c.seq)
  let s := { s with cfe := { s.cfe with
    cmds := s.cfe.cmds.filter (fun d => !d.is c.ring c.seq)
    dones := s.cfe.dones.filter (fun d => !(decide (d.1 = c.ring) && decide (d.2.1 = c.seq))) } }
  if s.fon CFE_RING_CPL.NOTIFY_EN c.ring && (CMD.NOTIFY.on c.word || decide (status ≠ 0)) then
    s.msix (s.fget CFE_RING_CPL.VEC c.ring) else s

/-! ## Answers to remote queries (R269, R273, R618) -/

/-- The modules that an answer goes to: both members of a mirror pair (R618). -/
def State.answerTo (s : State) (m : Nat) : List Nat :=
  if s.fon FAB_PAIR.VALID m then [m, s.fget FAB_PAIR.PARTNER m] else [m]

/-- A response header (R269). -/
def qrHdr (tag status kind g d nsel : Nat) : List Byte :=
  leBytes 64 (packFields [(QR.TAG, tag), (QR.STATUS, status), (QR.KIND, kind), (QR.G_M1, g), (QR.D_CODE, d), (QR.NSEL, nsel)])

/-- A QRESP to a requester (R269). -/
def State.qresp (s : State) (smod sep dep part world : Nat) (body : List Byte) : State :=
  (s.answerTo smod).foldl (fun s m => s.beginHub (mkXfer .hub none dep m sep tyQRESP part world 0 body.length (.lit body))) s

/-- A query answered with a status and no state (R42, R270). -/
def State.qrespErr (s : State) (q : QHeld) (status : Nat) : State :=
  s.qresp q.smod q.sep q.dep q.part q.world (qrHdr (QH.QTAG.of q.hdr) status 0 (QH.G_M1.of q.hdr) (QH.D_CODE.of q.hdr) 0)

/-- Every held query on the sequences of a service context is answered with SERVICE_RESET (R273). -/
def State.endService (s : State) (ctx : Nat) : State :=
  let l := s.att.queries.filter fun q => decide (q.sctx = ctx)
  let s := { s with att := { s.att with queries := s.att.queries.filter fun q => decide (q.sctx ≠ ctx) } }
  l.foldl (fun s q => s.qrespErr q 0x080A) s

/-! ## ABORT (R426, R599 to R601) -/

/-- An ABORT leaves twice on every tree port but the one it came by, where R395, R399 and the hop limit let it (R424, R426). -/
def State.spreadAbort (s : State) (g : Nat) (k : Pkt) (from_ : Option Nat) : State :=
  let arr := from_.map fun p => (isG p, PH.VC.of k.hdr)
  ((onesOf 22 (s.fget FAB_MCG.TREE g)).filter fun p => decide (some p ≠ from_) && s.inServ p && s.mayCross p k).foldl
    (fun s p => match nextVc arr (isG p) false with
      | some vc => if PH.HOPS.of k.hdr < 7 then s.abortOut g p (outPkt k vc) 2 else s
      | none => s) s

/-- The pair of an ABORT is recorded for its group (R601). -/
def State.recordAbort (s : State) (g origin anum : Nat) : State :=
  { s with fab := { s.fab with abortSeen := tput s.fab.abortSeen g (origin, anum, s.time.now) } }

/-- An ABORT for a group, of a context's partition and world (R599, R600). -/
def State.sendAbort (s : State) (g part world code : Nat) : State :=
  let n := s.spare.anum
  let body := packFields [(ABP.GROUP, g), (ABP.ORIGIN, s.self), (ABP.ANUM, n), (ABP.CODE, code)]
  let k := mkPkt [(PH.TYPE, tyABORT), (PH.FLAGS, s.pairFlag), (PH.DEST, g), (PH.SRC, epAddr s.self 0), (PH.PART, part),
    (PH.WORLD, world), (PH.MCAST, 1), (PH.MTLEN, 16)] (leBytes 16 body)
  let s := { s with spare := { s.spare with anum := (n + 1) % 65536 } }
  (s.recordAbort g s.self n).spreadAbort g k none

/-- The groups that a reset of a context aborts: those bound to it with `TX`, and those of its collective instances whose
tree stands (R543, R599). -/
def State.abortGroups (s : State) (ctx : Nat) : List Nat :=
  let bound := (List.range 4096).filter fun g => s.fon SPARE_ABIND.VALID g && s.fon SPARE_ABIND.TX g &&
    decide (s.fget SPARE_ABIND.CTX g = ctx)
  let coll := ((s.coll.insts.filter fun i => decide (i.ctx = ctx)).map (·.group)).filter fun g => s.fon FAB_MCG.VALID g
  (bound ++ coll).eraseDups

/-! ## Buffers of a collective (R517, R521) -/

/-- Bytes of an element the engine moves. -/
def collBytes (f : Nat) : Nat := if f = BF16 then 2 else 4

/-- The output format of a reduction (R517). -/
def reduceOut (f rop : Nat) : Nat := if f = BF16 ∧ rop = 0 then FP32 else f

/-- The output format of a collective. -/
def collOut (kind f rop : Nat) : Nat := if kind = 2 then f else reduceOut f rop

/-- Output format of an instance. -/
def Inst.out (i : Inst) : Nat := collOut i.ckind i.dfmt i.rop

/-- Bytes of a ring's destination buffer (R521). -/
def Inst.dstLen (i : Inst) : Nat := i.n * i.count * collBytes i.out

/-- The parts of a ring's destination that are no result of it are undefined: all but chunk `MYIDX` of a REDUCE_SCATTER (R521,
log 39). -/
def State.undefRest (s : State) (i : Inst) : State :=
  let n := i.count * collBytes i.out
  let a := s.accOf i.ctx 3
  if i.ckind = 1 then (s.undefine a i.dst (i.my * n)).undefine a (i.dst + (i.my + 1) * n) ((i.n - (i.my + 1)) * n) else s

/-- Key of a piece: phase 0 reduce-scatter, 1 all-gather. -/
def pieceKey (phase chunk p : Nat) : Nat := phase * 2 ^ 40 + chunk * 2 ^ 20 + p

/-- Pieces of a chunk (R511). -/
def Inst.pieces (i : Inst) : Nat := ceilDiv i.count i.pcs

/-- Elements of piece p: the last takes the remainder. -/
def Inst.lenOf (i : Inst) (p : Nat) : Nat := min i.pcs (i.count - p * i.pcs)

/-- Address of a piece of a destination chunk. -/
def Inst.dstAt (i : Inst) (k p : Nat) : Nat := i.dst + (k * i.count + p * i.pcs) * collBytes i.out

/-- After a failure or abort a ring's destination is undefined; the pieces already written stay written when an ABORT ended it (R544,
Buffers, log 39). -/
def State.undefDst (s : State) (i : Inst) (abort : Bool) : State :=
  let a := s.accOf i.ctx 3
  if 3 ≤ i.ckind then s
  else if abort = false then s.undefine a i.dst i.dstLen
  else
    (List.range i.n).foldl (fun s k => (List.range i.pieces).foldl (fun s p =>
      if i.wrote.contains (pieceKey 0 k p) || i.wrote.contains (pieceKey 1 k p) then s
      else s.undefine a (i.dstAt k p) (i.lenOf p * collBytes i.out)) s) s

/-! ## Context reset -/

/-- A collective instance is over: its key is remembered, its transfers are abandoned, and its destination is undefined (R418,
R539, R543). -/
def State.endInst (s : State) (i : Inst) (abort : Bool) : State :=
  let s := s.undefDst i abort
  let s := { s with coll := { s.coll with
    insts := s.coll.insts.filter (fun j => !(decide (j.group = i.group) && decide (j.cseq = i.cseq)))
    ended := s.coll.ended ++ [(i.group, i.cseq, s.time.now)] } }
  s.abandonAll fun x => match x.owner with
    | .piece g q _ => decide (g = i.group) && decide (q = i.cseq)
    | .top g q _ => decide (g = i.group) && decide (q = i.cseq)
    | _ => false

/-- A tensor or vector descriptor is stopped as it runs: any part of its output bytes may already be written, and which is a free choice
for every byte (R577). -/
def State.stopFlight (s : State) (f : Flight) : State :=
  f.undo.foldl (fun s c =>
    (if s.freeB then s else { s with core := { s.core with cs := cellsWrite s.core.cs c.1 [c.2] } }).drew) s

/-- The tensor and vector engines stop what they run of a context (R577). -/
def State.stopEngines (s : State) (ctx : Nat) : State :=
  (s.core.rsds.filter fun r => decide (r.ctx = ctx) && !r.dead).foldl (fun s r => r.flights.foldl (fun s f => s.stopFlight f) s) s

/-- The cores discard a context's work: nothing of it fires, signals or writes any more, and its accumulator chain closes
(R577). Its counters stay allocated until the CFE completes the command (R191). -/
def State.killWork (s : State) (ctx : Nat) : State :=
  { s with core := { s.core with
    rsds := s.core.rsds.map fun r => if r.ctx = ctx then
      { r with dead := true, flights := [], buf := [], next := none, won := none, waitT0 := none } else r
    sigs := s.core.sigs.filter fun g => decide (ringCtx g.ring ≠ ctx)
    chain := s.core.chain.filter fun e => decide (e.2 ≠ ctx + 1) } }

/-- The query dispatcher discards a context's queries, and its shipments await nothing (R280). -/
def State.dropQueries (s : State) (ctx : Nat) : State :=
  { s with att := { s.att with
    shards := s.att.shards.filter fun q => decide (q.ctx ≠ ctx)
    ships := s.att.ships.filter fun k => decide (ringCtx k.ring ≠ ctx) } }

/-- A context reset begins with a code (R363, R577). -/
def State.beginReset (s : State) (ctx code data : Nat) : State :=
  let s := s.fset CTX_STATE.STATE ctx 2
  let s := { s with cfe := { s.cfe with rst := tput s.cfe.rst ctx code } }
  let s := s.logX code ctx data
  let groups := s.abortGroups ctx
  let s := ((s.cfe.cmds.filter fun c => decide (ringCtx c.ring = ctx) && !c.launched).foldl (fun s c => s.complete c 0x0707) s)
  let s := { ((s.stopEngines ctx).killWork ctx).dropQueries ctx with
    cfe := { s.cfe with dones := s.cfe.dones.filter fun d => decide (ringCtx d.1 ≠ ctx) } }
  let s := (s.coll.insts.filter fun i => decide (i.ctx = ctx)).foldl (fun s i => s.endInst i (decide (code = 0x070C))) s
  let s := s.abandonAll fun x => decide (x.ctx = some ctx)
  let s := s.endService ctx
  if code = 0x070C then s
  else groups.foldl (fun s g => s.sendAbort g (s.ctxPart ctx) (s.ctxWorld ctx) code) s

/-- A cause of a context reset: it begins one in RUN, is only logged in RESETTING (R581), and waits for the resume during a
debug freeze (R814). -/
def State.resetOnce (s : State) (ctx code data : Nat) : State :=
  if s.frozen then { s with cfe := { s.cfe with rstHeld := s.cfe.rstHeld ++ [(ctx, code, data)] } }
  else match s.fget CTX_STATE.STATE ctx with
    | 1 => s.beginReset ctx code data
    | 2 => s.logX code ctx data
    | _ => s

/-- The stamps of escalation events within the window (R594). -/
def State.inWindow (s : State) (l : List Nat) : List Nat :=
  l.filter fun t => decide (s.count < t + s.fget SPARE_ESC.WINDOW 0 * 1000000000)

/-- The module withdraws itself from service with a code (R594, R788). -/
def State.withdraw (s : State) (code : Nat) : State :=
  let s := (s.fset SPARE_ESC.WITHDRAWN 0 1).logC code
  let sites := s.workSites
  let s := (List.range 256).foldl (fun s c => if s.fget CTX_STATE.STATE c = 1 then s.resetOnce c code 0 else s) s
  let s := ((s.fset SPARE_PAIR_STATE.ROLE 0 0).fset SPARE_PAIR_STATE.LEASED 0 0).fset SPARE_PAIR_STATE.ARMED 0 0
  s.trigger 3 sites false []

/-- One escalation event (R593, R594). -/
def State.escalate (s : State) : State :=
  let l := s.inWindow (s.spare.escs ++ [s.count])
  let s := { s with spare := { s.spare with escs := l } }.fset SPARE_ESC.COUNT 0 (min 255 l.length)
  let lim := s.fget SPARE_ESC.LIMIT 0
  if decide (lim ≠ 0) && decide (lim ≤ l.length) && !s.fon SPARE_ESC.WITHDRAWN 0 then s.withdraw 0x0305 else s

/-- The codes whose resets count as escalation events (R593). -/
def escCode (c : Nat) : Bool := [0x0311, 0x0312, 0x0111, 0x0112].contains c

/-- A fault that resets one context. -/
def State.ctxReset (s : State) (ctx code data : Nat) : State :=
  let s := s.resetOnce ctx code data
  if escCode code then s.escalate else s

/-- One fault that resets several contexts counts once (R593); each has its own `DATA`. -/
def State.resetMany (s : State) (ctxs : List Nat) (code : Nat) (data : Nat → Nat) : State :=
  let s := ctxs.foldl (fun s c => s.resetOnce c code (data c)) s
  if escCode code && !ctxs.isEmpty then s.escalate else s

/-- Contexts with work on a site. -/
def State.siteCtxs (s : State) (site : Nat) : List Nat :=
  ((s.core.rsds.filter fun r => decide (r.site = site) && !r.dead).map (·.ctx)).eraseDups

/-- The iteration index: the innermost open loop's, or 0 (R196). -/
def Rsd.iter (r : Rsd) : Nat := match r.loops with | [] => 0 | l :: _ => l.2.2

/-- `DATA` of a code about a core: the logical core, where the list stands, an address, a program's code, and the command (R608). -/
def Rsd.errData (r : Rsd) (addr ucode : Nat) : Nat :=
  r.lcore + (r.pos <<< 11) + (r.iter <<< 31) + ((addr % 2 ^ 21) <<< 63) + ((ucode % 2 ^ 16) <<< 84) + (r.seq <<< 100) +
    (r.ring <<< 132)

/-- The codes whose `DATA` names a core and a descriptor (R608). -/
def coreCode (c : Nat) : Bool :=
  decide (c = 0x0302) || decide (c = 0x0303) || (decide (0x0310 ≤ c) && decide (c ≤ 0x0314)) ||
  (decide (0x0320 ≤ c) && decide (c ≤ 0x0328)) || (decide (0x0340 ≤ c) && decide (c ≤ 0x0343))

/-- The codes whose `DATA` names a packet (R608). -/
def fabCode (c : Nat) : Bool := decide (0x0201 ≤ c) && decide (c ≤ 0x0211)

/-- `DATA` for a context that a fault of a site resets: where its work on the site stands, of logical core `l` (R608). -/
def State.siteData (s : State) (site l ctx : Nat) : Nat :=
  match s.core.rsds.find? fun r => decide (r.site = site) && decide (r.ctx = ctx) && !r.dead with
  | some r => r.errData 0 0
  | none => l

/-- A collective instance fails: its context is reset with the code (R543). -/
def State.failInst (s : State) (i : Inst) (code data : Nat) : State := s.ctxReset i.ctx code data

end Sys2Proof.Machine
end

