-- ==== Sys2Proof/Machine/FenceOps.lean ====
section
/-! DEFINITION. Taking a core site or a core-store row out of service, and what SEC-DED finds in core store (R139, R140, R164,
R563 to R574). -/
set_option autoImplicit false
namespace Sys2Proof.Machine

/-- Packed unit number of a core-store row of a site (R576). -/
def rowUnit (site addr : Nat) : Nat := siteUnit site + (bitsOf addr 5 5 <<< 12) + (bitsOf addr 10 11 <<< 17)

/-- Commands that name a logical core are held back by one more holder (R164). -/
def State.holdCore (s : State) (lcore : Nat) : State :=
  { s with cfe := { s.cfe with held := tset s.cfe.held lcore (tget s.cfe.held lcore 0 + 1) 0 } }

/-- One holder of a logical core is gone. -/
def State.freeCore (s : State) (lcore : Nat) : State :=
  { s with cfe := { s.cfe with held := tset s.cfe.held lcore (tget s.cfe.held lcore 0 - 1) 0 } }

/-- The cluster whose unused spare a site is. -/
def State.spareOf (s : State) (site : Nat) : Option Nat :=
  match s.siteCluster site with
  | some cl => if s.fget SPARE_CMAP.SPARE_POS cl = sitePos site then some cl else none
  | none => none

/-- `BUSY`: a fencing or drain is in progress (R570). -/
def State.fenceBusy (s : State) : State := s.fput SPARE_FENCE.BUSY 0 (!s.spare.fencing.isEmpty)

/-- A fencing or drain begins. -/
def State.addFencing (s : State) (f : Fencing) : State :=
  { s with spare := { s.spare with fencing := s.spare.fencing ++ [f] } }.fenceBusy

/-- A site's fencing or drain is over. -/
def State.dropFencing (s : State) (site : Nat) : State :=
  { s with spare := { s.spare with fencing := s.spare.fencing.filter fun f => decide (f.site ≠ site) } }.fenceBusy

/-- A site's handshakes are gated and it is out of service (R564). -/
def State.gateSite (s : State) (site : Nat) : State :=
  { s with spare := { s.spare with fenced := s.spare.fenced ++ [site] } }.fset SPARE_WEAR.USE site 2

/-- A site is fenced: a core begins its substitution and its contexts are reset with CORE_FAULT; a spare is used up; any other
site is only recorded (steps 1 to 3 of the spare substitution, R164, R572, R593). -/
def State.fenceSite (s : State) (site origin : Nat) : State :=
  if s.spare.fenced.contains site then s
  else
    let cs := s.siteCtxs site
    match s.siteCore site with
    | some l =>
      (((s.gateSite site).holdCore l).addFencing ⟨l, site, origin, false⟩).resetMany cs 0x0312 (s.siteData site l)
    | none =>
      let s := match s.spareOf site with
        | some cl => s.fset SPARE_CMAP.SPARE_POS cl 15
        | none => s
      (s.gateSite site).recordFence 1 origin (siteUnit site)

/-- Redundant rows of each bank (R139). -/
def spareRows : Nat := 16

/-- Key of the bank of a core-store address. -/
def bankKey (site addr : Nat) : Nat := site * 32 + bitsOf addr 5 5

/-- A core-store row is repaired into a redundant row of its bank; with none left, its site is fenced (R573). -/
def State.repairRow (s : State) (site addr origin : Nat) : State :=
  let used := tget s.core.rowUsed (bankKey site addr) 0
  if used < spareRows then
    { s with core := { s.core with
      rowUsed := tset s.core.rowUsed (bankKey site addr) (used + 1) 0
      rowCe := tset s.core.rowCe (rowUnit site addr) 0 0 } }.recordFence 3 origin (rowUnit site addr)
  else s.fenceSite site 2

/-- A corrected error is counted in the cluster and on its row; the sixteenth repairs the row (R139, R573). -/
def State.eccCorrected (s : State) (site addr : Nat) : State :=
  let s := match s.siteCluster site with
    | some cl => s.fset OBS_CL.CE cl (s.fget OBS_CL.CE cl + 1)
    | none => s
  let n := tget s.core.rowCe (rowUnit site addr) 0 + 1
  if 16 ≤ n then s.repairRow site addr 2
  else { s with core := { s.core with rowCe := tset s.core.rowCe (rowUnit site addr) n 0 } }

/-- An uncorrectable error is counted, and the context that read takes a reset; the row is repaired (R140, R573, R791). -/
def State.eccUncorr (s : State) (site ctx addr data : Nat) : State :=
  let s := match s.siteCluster site with
    | some cl => s.fset OBS_CL.UE cl (s.fget OBS_CL.UE cl + 1)
    | none => s
  (s.ctxReset ctx 0x0311 data).repairRow site addr 2

end Sys2Proof.Machine
end

