-- ==== Sys2Proof/Machine/ObsOps.lean ====
section
/-! DEFINITION. What observation writes while work runs: sync-trace entries and tensor dumps (R797 to R807). -/
set_option autoImplicit false
namespace Sys2Proof.Machine

/-- Whether a trace slot follows a context. -/
def State.traces (s : State) (k ctx : Nat) : Bool := s.fon OBS_TRACE.EN k && decide (s.fget OBS_TRACE.CTX k = ctx)

/-- Whether some slot follows a context. -/
def State.traced (s : State) (ctx : Nat) : Bool := (List.range 4).any fun k => s.traces k ctx

/-- The count that a list's core stamps with: its die's replica (R72, R73). -/
def State.stampOf (s : State) (r : Rsd) : Nat := s.replicaCount (siteDie r.site)

/-- A trace entry: `t0` is the wait's start with the UNSYNCED flag of that moment, and the counter is read as on the firing read
(R799, R801). -/
def State.traceWord (s : State) (k : Nat) (r : Rsd) (t0 : Nat × Bool) (w : Won) (iter : Nat) (wany : Bool) : Nat :=
  let co := s.obs.nsArmed.contains k && decide (s.fget SEC_PART.DL (s.ctxPart r.ctx) ≠ 3)
  let c (n : Nat) : Nat := if co then coarse n else n
  packFields [(TRE.T0, c t0.1), (TRE.DUR, min (2 ^ 32 - 1) (c (s.stampOf r - t0.1))), (TRE.WAITER, r.lcore), (TRE.CTX, r.ctx),
    (TRE.CTR, w.sig.1), (TRE.PRODUCER, w.sig.2.1), (TRE.SKIND, w.sig.2.2), (TRE.UNSYNC, b2n t0.2),
    (TRE.WANY, b2n wany), (TRE.DIDX, r.pos), (TRE.ITER, iter), (TRE.VALUE, w.val)]

/-! ## The throttle (R807) -/

/-- Bytes that observation may write to a stack in 10 µs: 123 GB/s (R807). -/
def obsMost : Nat := 1230000

/-- Bytes that it may still write to a stack now. -/
def State.obsRoom (s : State) (k : Nat) : Nat :=
  obsMost - (s.obs.wrote.filter fun e => decide (e.1 = k) && decide (s.time.now < e.2.1 + 10000)).foldl (fun a e => a + e.2.2) 0

/-- Writes of so many bytes to stacks count against the throttle. -/
def State.obsSpend (s : State) (l : List (Nat × Nat)) : State :=
  { s with obs := { s.obs with
    wrote := (s.obs.wrote.filter fun e => decide (s.time.now < e.2.1 + 10000)) ++ l.map fun e => (e.1, s.time.now, e.2) } }

/-- What `n` bytes at an address put on each stack. -/
def stackLoads (addr n : Nat) : List (Nat × Nat) :=
  ((List.range 12).map fun k =>
    (k, (List.range (n / 2 ^ 21 + 2)).foldl (fun a j =>
      let f := addr / 2 ^ 21 + j
      if stackOf f = k then a + (min (addr + n) ((f + 1) * 2 ^ 21) - max addr (f * 2 ^ 21)) else a) 0)).filter fun e => decide (0 < e.2)

/-- A dump or capture is written: what it puts beyond the throttle has waited, at the throttle's rate, and `OBS_WAIT` counts the µs of
the stack that waited longest (R795, R807; log 93). -/
def State.obsStall (s : State) (addr n : Nat) : State :=
  let l := stackLoads addr n
  let us := l.foldl (fun m e => max m (ceilDiv (e.2 - s.obsRoom e.1) 123000)) 0
  (s.fsat OBS_HUB.OBS_WAIT 0 us).obsSpend l

/-- One entry written in a slot's ring, dropped and counted when it would exceed the throttle, or the slot disarmed when the write is
refused (R800, R807). -/
def State.traceOne (s : State) (k : Nat) (r : Rsd) (t0 : Nat × Bool) (w : Won) (iter : Nat) (wany : Bool) : State :=
  let n := s.fget OBS_TRACE.WCOUNT k
  let addr := (s.fget OBS_TRACE.BASE k <<< 12) + 32 * (n % 2 ^ s.fget OBS_TRACE.K k)
  let m := s.memWrite (s.accOf r.ctx 0) MEM_RGN.WR addr (leBytes 32 (s.traceWord k r t0 w iter wany))
  if m.code = 0 then
    if s.obsRoom (stackOf (addr >>> 21)) < 32 then
      (s.fsat OBS_HUB.TRACE_DROP 0 1).fset OBS_TRACE.LOST k (s.fget OBS_TRACE.LOST k + 1)
    else (m.st.fset OBS_TRACE.WCOUNT k (n + 1)).obsSpend [(stackOf (addr >>> 21), 32)]
  else (((m.st.fset OBS_TRACE.EN k 0).fset OBS_TRACE.LOST k (s.fget OBS_TRACE.LOST k + 1)).logX 0x0331 r.ctx 0)

/-- The wait of a descriptor that fires now is recorded in every slot that follows its context (R798). -/
def State.traceFire (s : State) (r : Rsd) (iter : Nat) (wany : Bool) : State :=
  match r.waitT0, r.won with
  | some t0, some w =>
    ((List.range 4).filter fun k => s.traces k r.ctx && decide (s.fget OBS_TRACE.MIN_NS k ≤ s.stampOf r - t0.1)).foldl
      (fun s k => s.traceOne k r t0 w iter wany) s
  | _, _ => s

/-- A dump record: its header, stamped by the core's die, and the captured bytes (R73, R804). -/
def State.dumpRecord (s : State) (r : Rsd) (f : Flight) : List Byte :=
  let t := if s.coarseCtx r.ctx then coarse (s.stampOf r) else s.stampOf r
  let tail := r.ctx + (r.lcore <<< 8) + (DESC.TAG.of f.word <<< 19) + (f.occ <<< 35) + (DESC.OPCODE.of f.word <<< 63) +
    (f.pos <<< 71) + (f.iter <<< 91) + (f.out.length <<< 123)
  leBytes 8 0x4E4C5444 ++ leBytes 8 t ++ leBytes 1 (b2n s.unsync) ++ leBytes 47 tail ++ f.out

/-- Whether an armed dump slot matches a descriptor (R803). -/
def State.dumpMatches (s : State) (k : Nat) (r : Rsd) (f : Flight) : Bool :=
  s.fon OBS_DUMP.EN k && decide (s.fget OBS_DUMP.CTX k = r.ctx) && decide (s.fget OBS_DUMP.LCORE k = r.lcore) &&
  decide (s.fget OBS_DUMP.TAG k = DESC.TAG.of f.word) && decide (DESC.TAG.of f.word ≠ 0) &&
  decide (s.fget OBS_DUMP.OCC k = f.occ) && decide (tget s.obs.dumpT k 0 ≤ r.launchT)

/-- A matched slot captures what the descriptor wrote (R803, R804, R806). -/
def State.dumpOne (s : State) (k : Nat) (r : Rsd) (f : Flight) : State :=
  let s := s.fset OBS_DUMP.EN k 0
  if f.out.isEmpty then s.fset OBS_DUMP.STATUS k 2
  else
    let rec_ := s.dumpRecord r f
    let n := min rec_.length (s.fget OBS_DUMP.MAXLEN k)
    let m := s.memWrite (s.accOf r.ctx 0) MEM_RGN.WR (s.fget OBS_DUMP.DST k) (rec_.take n)
    if m.code = 0 then
      (((m.st.fset OBS_DUMP.STATUS k 1).fput OBS_DUMP.TRUNC k (decide (n < rec_.length))).fset OBS_DUMP.LEN k n).obsStall
        (s.fget OBS_DUMP.DST k) n
    else (m.st.fset OBS_DUMP.STATUS k 3).logX 0x0331 r.ctx 0

/-- The dump slots that match a descriptor as it completes. -/
def State.dumpTensor (s : State) (r : Rsd) (f : Flight) : State :=
  ((List.range 8).filter fun k => s.dumpMatches k r f).foldl (fun s k => s.dumpOne k r f) s

end Sys2Proof.Machine
end

