-- ==== Sys2Proof/Machine/Operands.lean ====
section
/-! DEFINITION. Work descriptors: fetch, iteration addressing, the checks of R868, token conditions, firing, signals and
completion (R137, R172 to R199, R227 to R232, R262, R267, R869). -/
set_option autoImplicit false
namespace Sys2Proof.Machine

/-! ## Work lists -/

/-- The work list of a command on a core. -/
def State.rsd (s : State) (lcore ring seq : Nat) : Option Rsd :=
  s.core.rsds.find? fun r => decide (r.lcore = lcore) && decide (r.ring = ring) && decide (r.seq = seq)

/-- Two records of one work list. -/
def Rsd.same (r q : Rsd) : Bool := decide (r.lcore = q.lcore) && decide (r.ring = q.ring) && decide (r.seq = q.seq)

/-- A work list replaced. -/
def State.setRsd (s : State) (r : Rsd) : State :=
  { s with core := { s.core with rsds := s.core.rsds.map fun q => if r.same q then r else q } }

/-- The command that a replay is running (R584). -/
def State.replaying (s : State) (ring seq : Nat) : Bool :=
  match s.spare.inv with
  | some i => i.running && (i.todo.head?.any fun c => c.is ring seq)
  | none => false

/-- Whether a command's descriptors fire: its context is in RUN, or it is being replayed. -/
def State.runs (s : State) (r : Rsd) : Bool := decide (s.fget CTX_STATE.STATE r.ctx = 1) || s.replaying r.ring r.seq

/-- A replay stops without result: its work leaves the cores (R586). -/
def State.stopReplay (s : State) (ring seq : Nat) : State :=
  let s := s.dropWork ring seq
  let s := { s with core := { s.core with sigs := s.core.sigs.filter fun g => !(decide (g.ring = ring) && decide (g.seq = seq)) } }
  match s.spare.inv with
  | some i => { s with spare := { s.spare with inv := some { i with open_ := true } } }
  | none => s

/-- A descriptor fails: it and its list end, and its context is reset; a replay stops there (R176, R585). -/
def State.failData (s : State) (r : Rsd) (code data : Nat) : State :=
  if s.replaying r.ring r.seq then s.stopReplay r.ring r.seq else s.ctxReset r.ctx code data

/-- `DATA` for a descriptor that fails: where it stands, for a core's codes; the module's own endpoint, for a fabric code before any packet
is formed; nothing, for the codes of which no chapter sets anything out (R608; log 58). -/
def State.codeData (s : State) (r : Rsd) (code addr : Nat) : Nat :=
  if coreCode code then r.errData addr 0
  else if fabCode code then fabData (epAddr s.self ((s.ctxEp r.ctx).getD 0)) 0 0 0
  else 0

/-- A descriptor fails with a code and, where the code has one, a core-store address (R608). -/
def State.failDesc (s : State) (r : Rsd) (code addr : Nat) : State := s.failData r code (s.codeData r code addr)

/-- A memory access for a descriptor failed: `DATA` names the address (R311, R608). -/
def State.failMem (s : State) (r : Rsd) (reader code addr : Nat) : State := s.failData r code (faultData addr reader)

/-- Divergence counted for a descriptor's context; a replay leaves it (R187, R585). -/
def State.divergeFor (s : State) (r : Rsd) (n : Nat) : State := if s.replaying r.ring r.seq then s else s.diverge r.ctx n

/-- Arithmetic status flags added to a command's (R123). -/
def State.addArith (s : State) (ring seq fl : Nat) : State :=
  { s with cfe := { s.cfe with cmds := s.cfe.cmds.map fun c => if c.is ring seq then { c with arith := c.arith ||| fl } else c } }

/-- Descriptors of a list read from device memory with the `FETCH` right, from position `p` (R172). -/
def State.fetchAt (s : State) (r : Rsd) (p n : Nat) : MemRes :=
  s.memRead (s.accOf r.ctx 1) MEM_RGN.FETCH (r.wlAddr + 64 * p) (64 * n)

/-! ## Iteration addressing (R197, R198, R262) -/

/-- How far the selected addresses are stepped, in 32-byte units. -/
def stepOf (d iter : Nat) : Nat :=
  DESC.IA_STEP.of d * (if DESC.IA_MOD.of d = 0 then iter else iter % DESC.IA_MOD.of d)

/-- An address field in 32-byte units as it is used; `b` is its group's bit of `IA_SEL`. -/
def unitAddr (d iter : Nat) (f : BF) (b : Nat) : Nat :=
  f.of d + (if (DESC.IA_SEL.of d).testBit b then stepOf d iter else 0)

/-- An address field in bytes as it is used. -/
def byteAddr (d iter : Nat) (f : BF) (b : Nat) : Nat :=
  f.of d + (if (DESC.IA_SEL.of d).testBit b then 32 * stepOf d iter else 0)

/-- Groups that `IA_SEL` may name, by opcode (R198, R262). -/
def iaAllowed : Nat → Nat
  | 0x10 => 15 | 0x20 => 15 | 0x21 => 15 | 0x22 => 15 | 0x23 => 15
  | 0x30 => 3 | 0x31 => 3 | 0x42 => 1 | 0x55 => 1
  | 0x60 => 3 | 0x61 => 3 | 0x62 => 7 | 0x63 => 1
  | _ => 0

/-! ## Bodies of token and control descriptors (R222) -/

/-- R222. -/
def TREAD.T_CTR : BF := ⟨192, 6⟩
/-- R222. -/
def TREAD.RES_ADDR : BF := ⟨198, 16⟩
/-- R222. -/
def LOOPB.COUNT : BF := ⟨192, 32⟩
/-- R222. -/
def SKIPD.COND : BF := ⟨192, 4⟩
/-- R222. -/
def SKIPD.N : BF := ⟨196, 8⟩
/-- R222. -/
def SKIPD.C_ADDR : BF := ⟨204, 16⟩
/-- R222. -/
def FAILD.UCODE : BF := ⟨192, 16⟩
/-- R222. -/
def STAMPD.RES_ADDR : BF := ⟨192, 16⟩

/-- Bits of the body that an opcode defines; the others are reserved (R200, R208, R213, R214, R219, R222, R243, R257 to R264). -/
def bodyReserved : Nat → Nat
  | 0x10 => TEN.reserved | 0x20 => VP.reserved | 0x21 => OS.reserved | 0x22 => OS.reserved | 0x23 => OS.reserved
  | 0x30 => SM.reserved | 0x31 => SA.reserved | 0x60 => ASEL.reserved | 0x61 => AGA.reserved | 0x62 => AQ.reserved
  | 0x63 => SHIP.reserved
  | 0x42 => (2 ^ 298 - 1) <<< 214
  | 0x50 => (2 ^ 288 - 1) <<< 224
  | 0x52 => (2 ^ 292 - 1) <<< 220
  | 0x54 => (2 ^ 304 - 1) <<< 208
  | 0x55 => (2 ^ 304 - 1) <<< 208
  | _ => (2 ^ 320 - 1) <<< 192

/-- The opcodes of R180. -/
def opcodeKnown (o : Nat) : Bool :=
  [0x10, 0x20, 0x21, 0x22, 0x23, 0x30, 0x31, 0x40, 0x41, 0x42, 0x50, 0x51, 0x52, 0x53, 0x54, 0x55, 0x60, 0x61, 0x62, 0x63].contains o

/-! ## Row operations of VPROG (R208 to R211) -/

/-- The four row operations in order. -/
def vops (d : Nat) : List Nat := [VP.OP0.of d, VP.OP1.of d, VP.OP2.of d, VP.OP3.of d]

/-- Base of pointer p as it is used on row 0, and its stride. -/
def vpointer (d iter p : Nat) : Nat × Nat :=
  let f : BF := match p with
    | 0 => ⟨248, 16⟩ | 1 => ⟨280, 16⟩ | 2 => ⟨312, 16⟩ | _ => ⟨344, 16⟩
  (unitAddr d iter f p, (BF.mk (f.lsb + 16) 16).of d)

/-- LD, ST and LDS. -/
def vopMem (v : Nat) : Bool := [1, 2, 3].contains v

/-- A row operation with a reserved code, a reserved bit, or a pointer number above 3 that it uses (R179, R209, R210). -/
def vopInvalid (o : Nat) : Bool :=
  let v := VROW.VOP.of o
  let mx := fmtMx (VROW.FMT.of o)
  decide (0x17 ≤ v) || decide (o &&& VROW.reserved ≠ 0) || (vopMem v && decide (3 < VROW.SA.of o)) ||
  ((decide (v = 1) || decide (v = 3)) && mx && decide (3 < VROW.SB.of o)) ||
  (decide (v = 2) && mx && decide (3 < VROW.SC.of o))

/-- A row operation that breaks the format rules of R211. -/
def vopFormat (o : Nat) : Bool :=
  let v := VROW.VOP.of o
  ([1, 2, 3, 0x16].contains v && decide (9 ≤ VROW.FMT.of o)) ||
  ((decide (v = 2) || decide (v = 0x16)) && decide (6 ≤ VROW.RMODE.of o))

/-! ## The checks of R868, step by step -/

/-- The effective threshold of a condition (R184). -/
def effThr (d iter : Nat) (thr step : BF) : Nat := thr.of d + step.of d * iter

/-- Step 1: values that the descriptor's own fields may not hold. -/
def bodyInvalid (d : Nat) : Bool :=
  match DESC.OPCODE.of d with
  | 0x10 => decide (2 ^ 27 < TEN.K.of d) || (TEN.ROUND.on d && TEN.SPILL.on d)
  | 0x20 => (vops d).any vopInvalid
  | 0x30 =>
    let a := SM.SRC_SP.of d
    let b := SM.DST_SP.of d
    decide (2 ≤ a) && decide (2 ≤ b)
  | 0x31 => decide (4 < SA.AOP.of d)
  | 0x50 => decide (LOOPB.COUNT.of d = 0)
  | 0x52 => decide (6 < SKIPD.COND.of d) || decide (SKIPD.N.of d = 0)
  | _ => false

/-- Step 1 of R868. -/
def descInvalid (d iter : Nat) : Bool :=
  let o := DESC.OPCODE.of d
  decide (d &&& DESC.reserved ≠ 0) || !opcodeKnown o || decide (d &&& bodyReserved o ≠ 0) ||
  (DESC.S_EN.on d && decide (DESC.S_INC.of d = 0)) || decide (DESC.IA_SEL.of d &&& (15 - iaAllowed o) ≠ 0) ||
  (DESC.W0_EN.on d && decide (2 ^ 32 ≤ effThr d iter DESC.W0_THR DESC.W0_STEP)) ||
  (DESC.W1_EN.on d && decide (2 ^ 32 ≤ effThr d iter DESC.W1_THR DESC.W1_STEP)) || bodyInvalid d

/-- The operand pairs of R88, in either order. -/
def pairAccepted (a b : Nat) : Bool :=
  let fp8 (f : Nat) : Bool := decide (f = E4M3) || decide (f = E5M2)
  (decide (a = TERN5) && fp8 b) || (fp8 a && decide (b = TERN5)) || (fmtMx a && fmtMx b) ||
  (decide (a = INT8) && decide (b = INT8)) || (decide (a = BF16) && decide (b = BF16))

/-- Block length of an operand format along the contraction (R96). -/
def blockLen (f : Nat) : Nat := if fmtMx f then 32 else if f = TERN5 then 160 else 1

/-- Step 2 of R868: 0x0341 FORMAT_COMBO, then 0x0343 BLOCK_ALIGN, or 0. -/
def formatCode (d : Nat) : Nat :=
  match DESC.OPCODE.of d with
  | 0x10 =>
    let k := TEN.K.of d
    let o := TEN.O_FMT.of d
    if (decide (k ≠ 0) && !pairAccepted (TEN.A_FMT.of d) (TEN.B_FMT.of d)) ||
       (TEN.ROUND.on d && (decide (9 ≤ o) || decide (6 ≤ TEN.RMODE.of d))) ||
       (decide (TEN.INIT.of d = 2) && decide (1 < TEN.I_FMT.of d)) then 0x0341
    else if (decide (k % blockLen (TEN.A_FMT.of d) ≠ 0) && decide (k ≠ 0)) ||
       (decide (k % blockLen (TEN.B_FMT.of d) ≠ 0) && decide (k ≠ 0)) ||
       (TEN.ROUND.on d && fmtMx o && decide (TEN.N_M1.of d ≠ 31)) then 0x0343
    else 0
  | 0x20 =>
    if (vops d).any vopFormat then 0x0341
    else if decide ((VP.WIDTH_M1.of d + 1) % 32 ≠ 0) &&
        (vops d).any (fun o => [1, 2, 0x16].contains (VROW.VOP.of o) && fmtMx (VROW.FMT.of o)) then 0x0343
    else 0
  | 0x21 => if 1 < OS.V_FMT.of d then 0x0341 else 0
  | 0x23 =>
    if 9 ≤ OS.O_FMT.of d ∨ 6 ≤ OS.RMODE.of d then 0x0341
    else if fmtMx (OS.O_FMT.of d) ∧ (OS.D_M1.of d + 1) % 32 ≠ 0 then 0x0343 else 0
  | _ => 0

/-- The counter indices that a descriptor uses (R182). -/
def usedCtrs (d : Nat) : List Nat :=
  let o := DESC.OPCODE.of d
  (if DESC.W0_EN.on d then [DESC.W0_CTR.of d] else []) ++ (if DESC.W1_EN.on d then [DESC.W1_CTR.of d] else []) ++
  (if DESC.S_EN.on d then [DESC.S_CTR.of d] else []) ++
  (if o = 0x30 then (if SM.P_EN.on d then [SM.P_CTR.of d] else []) ++ (if SM.C_EN.on d then [SM.C_CTR.of d] else []) else []) ++
  (if o = 0x61 then (if AGA.P_EN.on d then [AGA.P_CTR.of d] else []) ++ (if AGA.C_EN.on d then [AGA.C_CTR.of d] else []) else []) ++
  (if o = 0x42 then [TREAD.T_CTR.of d] else [])

/-- The alignment codes of step 5 (R145, R220, R243). -/
def alignCode (d iter : Nat) : Nat :=
  match DESC.OPCODE.of d with
  | 0x30 =>
    if byteAddr d iter SM.SRC_ADDR 0 % 32 ≠ 0 ∨ byteAddr d iter SM.DST_ADDR 1 % 32 ≠ 0 ∨ SM.LEN.of d % 32 ≠ 0 ∨ SM.LEN.of d = 0
    then 0x0313 else 0
  | 0x63 => if byteAddr d iter SHIP.SRC_ADDR 0 % 32 ≠ 0 then 0x0313 else 0
  | 0x31 => if byteAddr d iter SA.A_DADDR 0 % 8 ≠ 0 then 0x0326 else 0
  | _ => 0

/-- The logical cores that a descriptor uses beside its own (R189). -/
def usedCores (d : Nat) : List Nat :=
  let o := DESC.OPCODE.of d
  (if DESC.S_EN.on d && DESC.S_REM.on d && decide (o ≠ 0x41) then [DESC.S_CORE.of d] else []) ++
  (if o = 0x30 ∧ SM.SRC_SP.of d = 2 then [SM.SRC_CORE.of d] else []) ++
  (if o = 0x30 ∧ SM.DST_SP.of d = 2 then [SM.DST_CORE.of d] else [])

/-- Whether a descriptor sends fabric traffic (R384). -/
def sendsFabric (d : Nat) : Bool :=
  match DESC.OPCODE.of d with
  | 0x30 => decide (SM.SRC_SP.of d = 3) || decide (SM.DST_SP.of d = 3)
  | 0x62 => true
  | 0x63 => !SHIP.LOCAL.on d
  | _ => false

/-- Step 6 of R868 (R189, R384). -/
def State.targetCode (s : State) (r : Rsd) (d : Nat) : Nat :=
  if (usedCores d).any (fun c => (s.coreSite c).isNone) then 0x0314
  else if (usedCores d).any (fun c => (s.rsd c r.ring r.seq).isNone) then 0x0328
  else if sendsFabric d && (s.ctxEp r.ctx).isNone then 0x0207
  else 0

/-! ## Core-store spans (step 7) -/

/-- Bytes of a core's store that a descriptor accesses: the core, none for its own; the first byte, which a negative scale
offset may put below 0; and how many. -/
structure Span where
  core : Option Nat
  at_  : Int
  len  : Nat

/-- A span of the descriptor's own core from an address in bytes. -/
def own (a : Int) (n : Nat) : Span := ⟨none, a, n⟩

/-- The span of `n` rows of `len` bytes whose starts lie `stride` 32-byte units apart. -/
def rowsSpan (start stride n len : Nat) : Span := own ((32 * start : Nat) : Int) (32 * stride * (n - 1) + len)

/-- A byte address in core store from a line and an offset in two's complement of 16 bits. -/
def offByte (line off : Nat) : Int := 32 * ((line : Int) + sext 16 off)

/-- What a tensor descriptor accesses (R200 to R206). -/
def tmmaSpans (d iter : Nat) : List Span :=
  let M := TEN.M_M1.of d + 1
  let N := TEN.N_M1.of d + 1
  let k := TEN.K.of d
  let o := unitAddr d iter TEN.O_ADDR 2
  let i := unitAddr d iter TEN.I_ADDR 3
  let opnd (f a st so n : Nat) : List Span :=
    rowsSpan a st n (fmtBytes f k) :: (if blockLen f = 1 then [] else [own (offByte a so) (n * (k / blockLen f))])
  (if k = 0 then [] else
    opnd (TEN.A_FMT.of d) (unitAddr d iter TEN.A_ADDR 0) (TEN.A_STRIDE.of d) (TEN.A_SOFF.of d) M ++
    opnd (TEN.B_FMT.of d) (unitAddr d iter TEN.B_ADDR 1) (TEN.B_STRIDE.of d) (TEN.B_SOFF.of d) N) ++
  (if TEN.INIT.of d = 2 then [rowsSpan i (TEN.O_STRIDE.of d) M (fmtBytes (TEN.I_FMT.of d) N)]
   else if TEN.INIT.of d = 3 then [rowsSpan i 0 1 81920] else []) ++
  (if TEN.ROUND.on d then
    rowsSpan o (TEN.O_STRIDE.of d) M (fmtBytes (TEN.O_FMT.of d) N) ::
      (if fmtMx (TEN.O_FMT.of d) then [own (offByte o (TEN.O_SOFF.of d)) M] else [])
   else if TEN.SPILL.on d then [rowsSpan o 0 1 81920] else [])

/-- What a row operation accesses over all rows (R208 to R211). -/
def vopSpans (d iter o : Nat) : List Span :=
  let v := VROW.VOP.of o
  let rows := VP.ROWS_M1.of d + 1
  let w := if v = 3 then 1 else VP.WIDTH_M1.of d + 1
  let f := VROW.FMT.of o
  let ptr (p n : Nat) : Span := let q := vpointer d iter p; rowsSpan q.1 q.2 rows n
  if vopMem v then
    ptr (VROW.SA.of o) (fmtBytes f w) ::
      (if fmtMx f then [ptr (if v = 2 then VROW.SC.of o else VROW.SB.of o) (ceilDiv w 32)] else [])
  else []

/-- Bytes of an output row of OSM_NORM, scales included (R213). -/
def osmOutLen (d : Nat) : Nat :=
  let f := OS.O_FMT.of d
  let n := OS.D_M1.of d + 1
  fmtBytes f n + (if fmtMx f then n / 32 else 0)

/-- What an online-softmax primitive accesses (R213). -/
def osmSpans (d iter : Nat) : List Span :=
  let dd := OS.D_M1.of d + 1
  let st := rowsSpan (unitAddr d iter OS.ST_ADDR 0) 0 1 (32 + 4 * dd)
  match DESC.OPCODE.of d with
  | 0x21 => [st, rowsSpan (unitAddr d iter OS.S_ADDR 1) 0 1 (4 * (OS.N_M1.of d + 1)),
      rowsSpan (unitAddr d iter OS.V_ADDR 2) (OS.V_STRIDE.of d) (OS.N_M1.of d + 1) (fmtBytes (OS.V_FMT.of d) dd)]
  | 0x22 => [st, rowsSpan (OS.ST2_ADDR.of d) 0 1 (32 + 4 * dd)]
  | _ => [st, rowsSpan (unitAddr d iter OS.OUT_ADDR 3) 0 1 (osmOutLen d)]

/-- Part size of a transfer in bytes (R146, R214). -/
def partSize (d : Nat) : Nat := 256 * (SM.PART_M1.of d + 1)

/-- Parts of a transfer. -/
def partCount (d : Nat) : Nat := ceilDiv (SM.LEN.of d) (partSize d)

/-- Bytes that a transfer spans at its destination: all of it, or its slots (R218). -/
def dstExtent (d : Nat) : Nat :=
  if SM.C_EN.on d && decide (SM.SLOTS_M1.of d + 1 < partCount d) then (SM.SLOTS_M1.of d + 1) * partSize d else SM.LEN.of d

/-- What a transfer accesses in core store (R214 to R216). -/
def smoveSpans (d iter : Nat) : List Span :=
  let a := byteAddr d iter SM.SRC_ADDR 0
  let b := byteAddr d iter SM.DST_ADDR 1
  (if SM.SRC_SP.of d = 0 then [own a (SM.LEN.of d)]
   else if SM.SRC_SP.of d = 2 then [⟨some (SM.SRC_CORE.of d), a, SM.LEN.of d⟩] else []) ++
  (if SM.DST_SP.of d = 0 then [own b (dstExtent d)] else if SM.DST_SP.of d = 2 then [⟨some (SM.DST_CORE.of d), b, dstExtent d⟩] else [])

/-- FADD, SWAP and CAS return the old value (R219). -/
def satomReturns (d : Nat) : Bool := [1, 2, 3].contains (SA.AOP.of d)

/-- Head dimension of a code (R235). -/
def dimOf (c : Nat) : Nat := 32 * (c + 1)

/-- Bytes of a key or query row: E4M3 or BF16 (R239). -/
def keyRowLen (kvf : Bool) (D : Nat) : Nat := if kvf then D else 2 * D

/-- A length padded to 32 bytes. -/
def pad32 (n : Nat) : Nat := ceilDiv n 32 * 32

/-- Source bytes of a shipment (R244). -/
def shipLen (kvf : Bool) (D h nt : Nat) : Nat :=
  h * (pad32 (nt * keyRowLen kvf D) + (if kvf then pad32 (nt * (D / 32)) else 0) + pad32 (nt * (2 * D)))

/-- Source bytes of an AKVSHIP. -/
def akvLen (d : Nat) : Nat := shipLen (SHIP.KVF.on d) (dimOf (SHIP.D_CODE.of d)) (SHIP.H_M1.of d + 1) (SHIP.NT_M1.of d + 1)

/-- Query rows and, in E4M3, their scales, from a line and an offset (R257). -/
def querySpans (line off g D : Nat) (kvf : Bool) : List Span :=
  rowsSpan line 0 1 (g * keyRowLen kvf D) :: (if kvf then [own (offByte line off) (g * (D / 32))] else [])

/-- Bytes of a state (R266). -/
def stateLen (D : Nat) : Nat := 32 + 4 * D

/-- What an AQUERY accesses (R264, R266). -/
def aquerySpans (d iter : Nat) : List Span :=
  let g := AQ.G_M1.of d + 1
  let D := dimOf (AQ.D_CODE.of d)
  let n := AQ.NSH_M1.of d + 1
  querySpans (unitAddr d iter AQ.Q_ADDR 0) (AQ.Q_SOFF.of d) g D (AQ.KVF.on d) ++
  [rowsSpan (unitAddr d iter AQ.SL_ADDR 2) 0 1 (32 * n), rowsSpan (unitAddr d iter AQ.RES_ADDR 1) 0 1 (n * g * stateLen D + 8 * n)]

/-- Where the slots of an AGATHER lie for `n` pages of a head dimension and key format: key rows, scales, value rows and masks of
slots 0 to min(S, n) − 1 (R260). -/
def agaSlotSpans (d iter n D : Nat) (kvf : Bool) : List Span :=
  let base := unitAddr d iter AGA.DST_ADDR 1
  let m := min (AGA.SLOTS_M1.of d + 1) n
  if m = 0 then [] else
    let last := base + (m - 1) * AGA.PG_STEP.of d
    [base, last].flatMap fun b =>
      [rowsSpan b (AGA.K_STRIDE.of d) 64 (keyRowLen kvf D), rowsSpan (b + AGA.V_OFF.of d) (AGA.V_STRIDE.of d) 64 (2 * D),
       rowsSpan (b + AGA.M_OFF.of d) 0 1 256] ++
      (if kvf then [rowsSpan (b + 64 * AGA.K_STRIDE.of d) 0 1 (64 * (D / 32))] else [])

/-- The spans that a descriptor's own fields fix. What depends on the sequence is checked when ASELECT and AGATHER run; here
their smallest head dimension stands (R137, R868). -/
def descSpans (d iter : Nat) : List Span :=
  match DESC.OPCODE.of d with
  | 0x10 => tmmaSpans d iter
  | 0x20 => (vops d).flatMap (vopSpans d iter)
  | 0x21 => osmSpans d iter
  | 0x22 => osmSpans d iter
  | 0x23 => osmSpans d iter
  | 0x30 => smoveSpans d iter
  | 0x31 => if satomReturns d then [rowsSpan (unitAddr d iter SA.RES_ADDR 1) 0 1 32] else []
  | 0x42 => [rowsSpan (unitAddr d iter TREAD.RES_ADDR 0) 0 1 32]
  | 0x52 => if 5 ≤ SKIPD.COND.of d then [rowsSpan (SKIPD.C_ADDR.of d) 0 1 32] else []
  | 0x55 => [rowsSpan (unitAddr d iter STAMPD.RES_ADDR 0) 0 1 32]
  | 0x60 => [rowsSpan (unitAddr d iter ASEL.Q_ADDR 0) 0 1 ((ASEL.G_M1.of d + 1) * 32), rowsSpan (unitAddr d iter ASEL.OUT_ADDR 1) 0 1 4]
  | 0x61 =>
    if AGA.RANGE.on d then agaSlotSpans d iter (AGA.NP_M1.of d + 1) 32 false
    else [rowsSpan (unitAddr d iter AGA.LIST_ADDR 0) 0 1 4]
  | 0x62 => aquerySpans d iter
  | 0x63 => if SHIP.SRC_DM.on d then [] else [own (byteAddr d iter SHIP.SRC_ADDR 0) (akvLen d)]
  | _ => []

/-- Whether a span lies in a list's window, and in core store (R137). -/
def Rsd.holds (r : Rsd) (p : Span) : Bool :=
  decide ((r.winBase : Int) ≤ p.at_) && decide (p.at_ + p.len ≤ (r.winBase + r.winLen : Nat)) && decide (p.at_ + p.len ≤ 2097152)

/-- Whether a span lies in the window of its core for the command (R137, R216). -/
def State.spanOk (s : State) (r : Rsd) (p : Span) : Bool :=
  match p.core with
  | none => r.holds p
  | some c => match s.rsd c r.ring r.seq with
    | some q => q.holds p
    | none => false

/-- The first span outside its window. -/
def State.badSpan (s : State) (r : Rsd) (l : List Span) : Option Span := l.find? fun p => !s.spanOk r p

/-- Steps 1 and 2 of R869: the role, then the fields judged alone (R245, R267). -/
def State.attCode (s : State) (d : Nat) : Nat :=
  let role := s.fget GCTL_ROLE.ROLE_ACT 0
  let ntokBad (n : Nat) : Bool := decide (n = 0) || decide (2 ^ 24 < n)
  match DESC.OPCODE.of d with
  | 0x60 => if 13 < ASEL.G_M1.of d ∨ ntokBad (ASEL.NTOK.of d) then 0x0808 else 0
  | 0x61 => if ntokBad (AGA.NTOK.of d) then 0x0808 else 0
  | 0x62 =>
    if role ≠ 2 then 0x0801
    else
      let x := AQ.SM_SCALE.of d
      let bad := x.testBit 31 || decide (x % 2 ^ 31 = 0) || decide (0x7F800000 ≤ x % 2 ^ 31)
      if 13 < AQ.G_M1.of d ∨ ntokBad (AQ.NTOK.of d) ∨ AQ.QTO.of d = 0 ∨ bad then 0x0808 else 0
  | 0x63 => if !SHIP.LOCAL.on d && decide (role ≠ if SHIP.KIND.on d then 1 else 2) then 0x0801 else 0
  | _ => 0

/-- What judging a descriptor found: 0 or a code, and for 0x0310 the core-store address. -/
structure Judged where
  code : Nat
  addr : Nat := 0
  deriving DecidableEq, Repr

/-- Whether a descriptor's opcode is a loop marker's, LOOPB or LOOPE. -/
def isMarker (o : Nat) : Bool := decide (o = 0x50) || decide (o = 0x51)

/-- What a SKIP's range holds, as far as it lies in the list: from the prefetch buffer, else from memory. A descriptor of it that
cannot be read is not judged; a read that fails then has no effect, and the list meets it if it comes to be next (R199, log 32). -/
def State.markerIn (s : State) (r : Rsd) (n : Nat) : Bool :=
  (List.range (min n (r.wlLen - (r.pos + 1)))).any fun k =>
    let p := r.pos + 1 + k
    match tfind r.buf p with
    | some d => isMarker (DESC.OPCODE.of d)
    | none =>
      let m := s.fetchAt r p 1
      decide (m.code = 0) && isMarker (leAt m.bytes 0 1)

/-- Step 4 of R868 for a SKIP: a condition on a loop needs one, no loop marker stands in its range, and its range lies within the
list (R199, R223). -/
def State.skipCode (s : State) (r : Rsd) (d : Nat) : Nat :=
  let n := SKIPD.N.of d
  let c := SKIPD.COND.of d
  if (decide (1 ≤ c) && decide (c ≤ 4) && r.loops.isEmpty) || s.markerIn r n then 0x0323
  else if r.wlLen < r.pos + 1 + n then 0x0324
  else 0

/-- Step 4 of R868 (R195, R199, R223). -/
def State.loopCode (s : State) (r : Rsd) (d : Nat) : Nat :=
  match DESC.OPCODE.of d with
  | 0x50 => if 4 ≤ r.loops.length then 0x0323 else 0
  | 0x51 => if r.loops.isEmpty then 0x0323 else 0
  | 0x53 => if r.loops.isEmpty then 0 else 0x0323
  | 0x52 => s.skipCode r d
  | _ => 0

/-- The first code of a list that is not 0, or 0. -/
def firstOf (l : List Nat) : Nat := (l.find? fun c => decide (c ≠ 0)).getD 0

/-- Steps 1 to 6 of R868. -/
def State.formCode (s : State) (r : Rsd) (d : Nat) : Nat :=
  firstOf [if descInvalid d r.iter then 0x0320 else 0, formatCode d,
    if (usedCtrs d).any (fun c => decide (r.ctrs.length ≤ c)) then 0x0321 else 0,
    s.loopCode r d, alignCode d r.iter, s.targetCode r d]

/-- Steps 1 to 8 of R868. -/
def State.descCheck (s : State) (r : Rsd) (d : Nat) : Judged :=
  match s.formCode r d with
  | 0 =>
    match s.badSpan r (descSpans d r.iter) with
    | some p => ⟨0x0310, (p.at_ % 2097152).toNat⟩
    | none => ⟨s.attCode d, 0⟩
  | c => ⟨c, 0⟩

/-! ## Conditions and engines -/

/-- Whether one condition holds (R184). -/
def Rsd.condHolds (r : Rsd) (d : Nat) (ctr thr step : BF) : Bool := decide (effThr d r.iter thr step ≤ r.ctrs.getD (ctr.of d) 0)

/-- Which of the two conditions hold, a disabled one as true. -/
def Rsd.conds (r : Rsd) (d : Nat) : Bool × Bool :=
  (!DESC.W0_EN.on d || r.condHolds d DESC.W0_CTR DESC.W0_THR DESC.W0_STEP,
   !DESC.W1_EN.on d || r.condHolds d DESC.W1_CTR DESC.W1_THR DESC.W1_STEP)

/-- A wait-any with both conditions enabled (R186). -/
def isWany (d : Nat) : Bool := DESC.WANY.on d && DESC.W0_EN.on d && DESC.W1_EN.on d

/-- Whether a descriptor's conditions hold (R186). -/
def Rsd.met (r : Rsd) (d : Nat) : Bool :=
  let c := r.conds d
  if isWany d then c.1 || c.2 else c.1 && c.2

/-- Whether a descriptor that fires on the read its list has kept makes the choice that R187 counts. -/
def Rsd.chooses (r : Rsd) (d : Nat) : Bool :=
  match r.won with
  | some w => isWany d && (w.c0 != w.c1)
  | none => false

/-- The engine of an opcode: 1 tensor, 2 vector, 3 stream, 0 the descriptor engine itself (R127, R128). -/
def engineOf (o : Nat) : Nat :=
  if o = 0x10 then 1 else if 0x20 ≤ o ∧ o ≤ 0x23 then 2 else if o = 0x30 ∨ o = 0x31 ∨ (0x60 ≤ o ∧ o ≤ 0x63) then 3 else 0

/-- Descriptors in flight on a core in an engine. -/
def State.inEngine (s : State) (lcore e : Nat) : Nat :=
  ((s.core.rsds.filter fun r => decide (r.lcore = lcore)).map fun r =>
    (r.flights.filter fun f => decide (engineOf (DESC.OPCODE.of f.word) = e)).length).foldl (· + ·) 0

/-- Whether the engine can accept a descriptor (R105, R128). -/
def State.accepts (s : State) (r : Rsd) (d : Nat) : Bool :=
  match engineOf (DESC.OPCODE.of d) with
  | 1 => decide (s.inEngine r.lcore 1 = 0) && (decide (tget s.core.chain r.site 0 = 0) || decide (tget s.core.chain r.site 0 = r.ctx + 1))
  | 2 => decide (s.inEngine r.lcore 2 = 0)
  | 3 => decide (s.inEngine r.lcore 3 < 16)
  | _ => true

/-- Descriptors before which a replay stops (R586). -/
def replayStops (r : Rsd) (d : Nat) : Bool :=
  decide (DESC.OPCODE.of d = 0x31) || sendsFabric d || r.chooses d

/-! ## Becoming next (R172, R176, R185, R798) -/

/-- Whether the descriptor engine works on a list now. -/
def State.mayFire (s : State) (r : Rsd) : Bool := s.live && !r.dead && !r.ended && s.runs r

/-- How far past the next descriptor the engine fetches (R172; that it always fetches so far is log 32). -/
def ahead : Nat := 32

/-- The descriptors that the prefetch buffer lacks from position `p` on, at most `n` places further: it stops at the end of the list, at
an END, and at a read that fails, which has no effect until that descriptor is next (R172, R224, log 32). -/
def State.fetched (s : State) (r : Rsd) : Nat → Nat → List (Nat × Nat)
  | 0, _ => []
  | n + 1, p =>
    if r.wlLen ≤ p then []
    else match tfind r.buf p with
      | some d => if DESC.OPCODE.of d = 0x53 then [] else s.fetched r n (p + 1)
      | none =>
        let m := s.fetchAt r p 1
        if m.code ≠ 0 then []
        else
          let d := ofLE m.bytes
          (p, d) :: if DESC.OPCODE.of d = 0x53 then [] else s.fetched r n (p + 1)

/-- A load hint reaches the power controller: at its descriptor's fetch, or with lead code 15 at its firing (R230). -/
def State.passHint (s : State) (r : Rsd) (d : Nat) (firing : Bool) : State :=
  let h := DESC.HINT.of d
  if decide (h = 0) || decide ((bitsOf h 4 4 = 15) ≠ (firing = true)) then s
  else { s with core := { s.core with hints := s.core.hints ++ [(r.lcore / 512, h, s.time.now)] } }

/-- The prefetch buffer is filled, and each descriptor fetched passes its hint on (R172, R230). -/
def State.fillBuf (s : State) (r : Rsd) : State × Rsd :=
  let l := s.fetched r (ahead + 1) r.pos
  (l.foldl (fun s e => s.passHint r e.2 false) s, { r with buf := r.buf ++ l })

/-- How a next descriptor failed: its list, the code with an address, and whether it was the list's own fetch that failed. -/
structure Failure where
  list : Rsd
  code : Nat
  addr : Nat
  mem  : Bool
  deriving DecidableEq, Repr

/-- The next descriptor of a list judged (R176, R224): the descriptor, or how it failed with the state its fetch left. -/
def State.judge (s : State) (r : Rsd) : Except (Failure × State) Nat :=
  if r.wlLen ≤ r.pos then .error (⟨r, 0x0324, 0, false⟩, s)
  else match tfind r.buf r.pos with
    | some d =>
      let j := s.descCheck r d
      if j.code = 0 then .ok d else .error (⟨r, j.code, j.addr, false⟩, s)
    | none =>
      let m := s.fetchAt r r.pos 1
      .error (⟨r, m.code, r.wlAddr + 64 * r.pos, true⟩, m.st)

/-- The counters of the next descriptor are read, unless a read has satisfied it: the first read at which its conditions hold is kept
(R185). -/
def Rsd.readCtrs (r : Rsd) (d : Nat) : Rsd :=
  if r.won.isSome || !r.met d then r
  else { r with won := some ⟨(r.conds d).1, (r.conds d).2, r.lastSig, r.ctrs.getD r.lastSig.1 0⟩ }

/-- A list whose next descriptor has its engine free and its conditions unmet has begun to wait (R798). -/
def State.noteWait (s : State) (r : Rsd) (d : Nat) : Rsd :=
  if r.waitT0.isNone && r.won.isNone && s.accepts r d then { r with waitT0 := some (s.stampOf r, s.unsync) } else r

/-- The descriptor engine attends to one list: it fetches ahead, judges the descriptor that has become next, reads its counters and notes
its wait. The failure, if the descriptor failed. -/
def State.attend (s : State) (r : Rsd) : State × List Failure :=
  if !s.mayFire r then (s, [])
  else
    let (s, r) := s.fillBuf r
    let go (d : Nat) : Rsd := s.noteWait (({ r with next := some d } : Rsd).readCtrs d) d
    match r.next with
    | some d => (s.setRsd (go d), [])
    | none =>
      match s.judge r with
      | .ok d => (s.setRsd (go d), [])
      | .error (f, t) => (t.setRsd r, [f])

/-- A next descriptor's failure is reported: a context's first report resets it, and those that come at the same time are logged alone
(R176, R177, R581; which comes first is log 79). -/
def State.report (s : State) (f : Failure) : State :=
  if f.mem then s.failMem f.list 1 f.code f.addr else s.failDesc f.list f.code f.addr

/-- Every descriptor engine attends to every list resident on its core, and then the failures found are reported. -/
def State.engines (s : State) : State :=
  let w := s.core.rsds.foldl (fun (w : State × List Failure) r => let t := w.1.attend r; (t.1, w.2 ++ t.2)) (s, [])
  w.2.foldl State.report w.1

/-! ## Firing (R172 to R187) -/

/-- What is left of a firing's own effect: the list's record and the descriptor. -/
abbrev Effect := Rsd → Nat → State → State

/-- The list after its next descriptor has fired: the position moves on, the occurrence is counted, the wait is over (R174,
R229). -/
def Rsd.fired (r : Rsd) (d : Nat) : Rsd :=
  let t := DESC.TAG.of d
  { r with
    pos := r.pos + 1, buf := r.buf.filter (fun e => decide (r.pos < e.1)), next := none, won := none, waitT0 := none,
    occ := if t = 0 then r.occ else tset r.occ t (tget r.occ t 0 + 1) 0 }

/-- Steps of waiting are counted in the core's cluster (R791). -/
def State.addTwait (s : State) (site n : Nat) : State :=
  match s.siteCluster site with
  | some cl => s.fset OBS_CL.TWAIT cl (s.fget OBS_CL.TWAIT cl + n)
  | none => s

/-- A command as a turn names it. -/
def Rsd.turnKey (r : Rsd) : Nat := 1 + r.ring * 2 ^ 32 + r.seq

/-- Whether a list's next descriptor may fire: its conditions held on a read and its engine can accept it (R174). -/
def State.ready (s : State) (r : Rsd) : Bool :=
  s.mayFire r && r.won.isSome && (match r.next with | some d => s.accepts r d | none => false)

/-- The list that a core grants among those that are ready: the first in the round from the one after the command granted last
(R27). -/
def State.granted (s : State) (lcore : Nat) : Option Rsd :=
  let l := s.core.rsds.filter fun r => decide (r.lcore = lcore)
  let n := match l.findIdx? (fun r => decide (r.turnKey = tget s.core.turn lcore 0)) with | some i => i + 1 | none => 0
  (l.drop n ++ l.take n).find? s.ready

/-- What every firing does, whatever the opcode: the turn, divergence, the trace, the hint, the watchdog and the list's record (R27,
R187, R230, R365, R798). -/
def State.fireCommon (s : State) (r : Rsd) (d twait : Nat) : State :=
  let s := { s with core := { s.core with turn := tset s.core.turn r.lcore r.turnKey 0 } }
  let s := if r.chooses d then s.divergeFor r 1 else s
  let s := (s.traceFire r r.iter (DESC.WANY.on d)).passHint r d true
  ((s.addTwait r.site twait).progress r.ring r.seq).setRsd (r.fired d)

/-- The core-store bytes in which two states differ, as they stand in the first. -/
def cellsUndo (old new : List Host.Cell) : List Host.Cell :=
  (old.filter fun c => !new.contains c) ++
  ((new.filter fun c => !old.any fun o => decide (o.1 = c.1)).map fun c => (c.1, 0))

/-- What the work of one firing of a list changed in core store. -/
def Rsd.setUndo (r : Rsd) (fid : Nat) (u : List Host.Cell) : Rsd :=
  { r with flights := r.flights.map fun f => if f.fid = fid then { f with undo := u } else f }

/-- What a tensor or vector descriptor that has just fired changed in core store is kept with it while it runs (R577). -/
def State.keepUndo (s before : State) (r : Rsd) (d : Nat) : State :=
  let e := engineOf (DESC.OPCODE.of d)
  if e = 1 ∨ e = 2 then
    let u := cellsUndo before.core.cs s.core.cs
    let l := s.core.rsds.map fun q => if r.same q then q.setUndo before.core.fires u else q
    { s with core := { s.core with rsds := l } }
  else s

/-- A judged descriptor fires when it is the row's, is ready and has its core's turn (R27, R174, R186). -/
def State.fireNext (s : State) (r : Rsd) (d : Nat) (fits : Bool) (f : FireIn) (k : Effect) : State :=
  if fits = false ∨ s.granted r.lcore ≠ some r then s
  else if s.replaying r.ring r.seq && replayStops r d then s.stopReplay r.ring r.seq
  else ((k (r.fired d) d (s.fireCommon r d f.twait)).keepUndo s r d).engines

/-- A firing row: the engine attends first to a list whose next descriptor is not judged yet (R176). -/
def State.fireIf (s : State) (lcore ring seq : Nat) (fits : Nat → Bool) (f : FireIn) (k : Effect) : State :=
  match s.rsd lcore ring seq with
  | none => s
  | some r =>
    if !s.mayFire r then s
    else
      let s := s.markBad 1 f.hbm
      match r.next with
      | some d => s.fireNext r d (fits d) f k
      | none =>
        let s := s.engines
        match s.rsd lcore ring seq with
        | some r =>
          match r.next with
          | some d => s.fireNext r d (fits d) f k
          | none => s
        | none => s

/-- A firing row of one opcode. -/
def State.fire (s : State) (lcore ring seq op : Nat) (f : FireIn) (k : Effect) : State :=
  s.fireIf lcore ring seq (fun d => decide (DESC.OPCODE.of d = op)) f k

/-! ## Signals and completion -/

/-- A signal goes on its way to a counter (R188). -/
def State.sendSig (s : State) (g : Sig) : State := { s with core := { s.core with sigs := s.core.sigs ++ [g] } }

/-- The header signal of a descriptor that completes (R181, R188). -/
def State.headerSig (s : State) (r : Rsd) (d pos iter : Nat) : State :=
  if DESC.S_EN.on d then
    s.sendSig ⟨r.ring, r.seq, if DESC.S_REM.on d then DESC.S_CORE.of d else r.lcore, DESC.S_CTR.of d, DESC.S_INC.of d, r.lcore,
      pos, iter, 0⟩
  else s

/-- Position and iteration index at which a descriptor fired, from its list just after. -/
def Rsd.lastPos (r : Rsd) : Nat := r.pos - 1

/-- The firing takes its place in its engine, with a number of its own (R128). -/
def State.launchFlight (s : State) (r : Rsd) (d : Nat) (fl : Flight → Flight) : State :=
  let n := s.core.fires
  let t := DESC.TAG.of d
  let f : Flight := ⟨n, r.lastPos, r.iter, d, if t = 0 then 0 else tget r.occ t 0 - 1, 0, [], 0, [], [], false, 0, [], []⟩
  let s := s.setRsd { r with flights := r.flights ++ [fl f] }
  { s with core := { s.core with fires := n + 1 } }

/-- A flight of a list replaced. -/
def Rsd.setFlight (r : Rsd) (f : Flight) : Rsd := { r with flights := r.flights.map fun g => if g.fid = f.fid then f else g }

/-- A flight by the number of its firing. -/
def Rsd.flight (r : Rsd) (fid : Nat) : Option Flight := r.flights.find? fun f => decide (f.fid = fid)

/-- Corrected errors in the lines of a site, each counted (R139). -/
def State.eccCounts (s : State) (site : Nat) (l : List Nat) : State := l.foldl (fun s a => s.eccCorrected site (a % 2097152)) s

/-- The outcome of SEC-DED on the lines a descriptor reads: corrected errors are counted, and an uncorrectable one resets its context and
delivers nothing (R139, R140). -/
def State.withEcc (s : State) (r : Rsd) (e : Ecc) (k : State → State) : State :=
  match e with
  | .clean => k s
  | .corrected l => k (s.eccCounts r.site l)
  | .uncorr l a =>
    let s := s.eccCounts r.site l
    if s.replaying r.ring r.seq then s.stopReplay r.ring r.seq
    else s.eccUncorr r.site r.ctx (a % 2097152) (r.errData (a % 2097152) 0)

/-- Steps that an engine ran a descriptor are counted in its cluster (R791). -/
def State.addBusy (s : State) (site o steps : Nat) : State :=
  match s.siteCluster site with
  | some cl =>
    if engineOf o = 1 then s.fset OBS_CL.TBUSY cl (s.fget OBS_CL.TBUSY cl + steps)
    else if engineOf o = 2 then s.fset OBS_CL.VBUSY cl (s.fget OBS_CL.VBUSY cl + steps) else s
  | none => s

/-- A descriptor completes: it leaves its engine, a matching dump slot captures its output, and its header signal goes out
(R181, R188, R803). -/
def State.endFlight (s : State) (r : Rsd) (f : Flight) : State :=
  let r' := { r with flights := r.flights.filter fun g => decide (g.fid ≠ f.fid) }
  (((s.setRsd r').dumpTensor r f).progress r.ring r.seq).headerSig r f.word f.pos f.iter

end Sys2Proof.Machine
end

