-- ==== Sys2Proof/Machine/TensorRows.lean ====
section
/-! DEFINITION. The tensor engine: exact accumulators, products, initialisation, the rounding point and spills (R88 to R117, R130
to R132, R200 to R207). -/
set_option autoImplicit false
namespace Sys2Proof.Machine

/-! ## Accumulators (R100 to R107) -/

/-- An accumulator (R100). -/
structure Accum where
  i     : Int
  nan   : Bool
  pinf  : Bool
  ninf  : Bool
  count : Nat
  deriving DecidableEq, Repr

/-- The empty accumulator. -/
def Accum.zero : Accum := ⟨0, false, false, false, 0⟩

/-- An accumulator from its 640-bit record (R106). -/
def Accum.ofRec (x : Nat) : Accum := ⟨sext 600 (ACC.I.of x), ACC.NAN.on x, ACC.PINF.on x, ACC.NINF.on x, ACC.COUNT.of x⟩

/-- The record of an accumulator (R106). -/
def Accum.toRec (a : Accum) : Nat :=
  packFields [(ACC.I, wrapInt 600 a.i), (ACC.NAN, b2n a.nan), (ACC.PINF, b2n a.pinf), (ACC.NINF, b2n a.ninf), (ACC.COUNT, a.count)]

/-- The largest product count (R102). -/
def accLimit : Nat := 2 ^ 27

/-- An infinity enters an accumulator: both signs in one chain make it NaN, once (R103). -/
def Accum.addInf (a : Accum) (neg : Bool) : Accum × Nat :=
  let new := if neg then !a.ninf else !a.pinf
  let a' := if neg then { a with ninf := true } else { a with pinf := true }
  if new && a'.pinf && a'.ninf then ({ a' with nan := true }, aINVALID) else (a', 0)

/-- An integer as the 600 bits of an accumulator hold it (R100). -/
def acc600 (x : Int) : Int := sext 600 (wrapInt 600 x)

/-- A finite value in units of `2^-286` (R100). -/
def accUnits (neg : Bool) (num den : Nat) : Int :=
  let q := (num <<< 286) / den
  if neg then -(q : Int) else q

/-- One product added, with the flags it raises; the count rises (R101 to R103). -/
def Accum.addProd (a : Accum) (x y : XV) : Accum × Nat :=
  let a := { a with count := a.count + 1 }
  match x, y with
  | .nan, _ => ({ a with nan := true }, 0)
  | _, .nan => ({ a with nan := true }, 0)
  | .fin na p q, .fin nb u v => ({ a with i := acc600 (a.i + accUnits (xor na nb) (p * u) (q * v)) }, 0)
  | x, y => if x.isZero || y.isZero then ({ a with nan := true }, aINVALID) else a.addInf (xor x.neg y.neg)

/-- A loaded value (R104). -/
def Accum.ofVal (v : XV) : Accum :=
  match v with
  | .nan => { Accum.zero with nan := true, count := 1 }
  | .inf n => { Accum.zero with pinf := !n, ninf := n, count := 1 }
  | .fin n p q => { Accum.zero with i := accUnits n p q, count := 1 }

/-- The products of two rows added in ascending order of the contraction (R101). -/
def Accum.addRow (a : Accum) (x y : List XV) : Accum × Nat :=
  (x.zip y).foldl (fun m p => let n := m.1.addProd p.1 p.2; (n.1, m.2 ||| n.2)) (a, 0)

/-- The exact value of an accumulator under a shift (R108). -/
def Accum.value (a : Accum) (shift : Int) : XV :=
  if a.nan || (a.pinf && a.ninf) then .nan
  else if a.pinf then .inf false
  else if a.ninf then .inf true
  else (XV.fin (decide (a.i < 0)) a.i.natAbs 1).scale (shift - 286)

/-! ## Operands (R90 to R99, R201) -/

/-- Values of an operand row of `k` elements with its block scales, and the flags of what it holds (R95, R97 to R99, R123). -/
def operandRow (f : Nat) (row scales : List Byte) (k : Nat) : List XV × Nat :=
  let sc (b : Nat) : Nat := (scales.getD b 0).toNat
  if f = TERN5 then
    ((row.zipIdx.flatMap fun e => (ternTrits e.1.toNat).map fun t => tritVal t (sc (e.2 / 32))).take k,
     if row.any (fun b => decide (243 ≤ b.toNat)) then aTERN_INV else 0)
  else ((List.range k).map fun i => scaledVal f (elemCode f row i) (sc (i / 32)), 0)

/-- The flags of special elements that enter an operation. -/
def enterFlags (l : List XV) : Nat := l.foldl (fun a v => a ||| inFlags v) 0

/-- Row `n` of an operand read from core store. -/
def State.readOperand (s : State) (site f addr stride soff n k : Nat) : List XV × Nat :=
  let row := s.csRead site (32 * (addr + n * stride)) (fmtBytes f k)
  let per := k / blockLen f
  let scales := if blockLen f = 1 then [] else s.csRead site ((offByte addr soff).toNat + n * per) per
  let r := operandRow f row scales k
  (r.1, r.2 ||| enterFlags r.1)

/-- The rows of an operand. -/
def State.readOperands (s : State) (site f addr stride soff rows k : Nat) : List (List XV) × Nat :=
  let l := (List.range rows).map fun n => s.readOperand site f addr stride soff n k
  (l.map (·.1), l.foldl (fun a r => a ||| r.2) 0)

/-! ## The tile -/

/-- The 1,024 accumulators of a site in row-major order. -/
def State.accsOf (s : State) (site : Nat) : List Accum :=
  (List.range 1024).map fun k => Accum.ofRec (tget s.core.accs (site * 1024 + k) 0)

/-- The accumulators of a site replaced. -/
def State.setAccs (s : State) (site : Nat) (l : List Accum) : State :=
  let lo := site * 1024
  let new := (l.zipIdx.map fun e => (lo + e.2, e.1.toRec)).filter fun e => decide (e.2 ≠ 0)
  { s with core := { s.core with accs :=
      (s.core.accs.filter fun e => decide (e.1 < lo)) ++ new ++ s.core.accs.filter fun e => decide (lo + 1024 ≤ e.1) } }

/-- Accumulators named by M and N, as a test on an index. -/
def inTile (M N k : Nat) : Bool := decide (k / 32 < M) && decide (k % 32 < N)

/-- The records of a fill (R205). -/
def State.fillRecords (s : State) (site addr : Nat) : List Nat :=
  let b := s.csRead site (32 * addr) 81920
  (List.range 1024).map fun k => leAt b (80 * k) 80

/-- A record that a fill may not load (R107). -/
def recBad (x : Nat) : Bool := decide (x &&& ACC.reserved ≠ 0) || decide (accLimit < ACC.COUNT.of x)

/-- The loaded tile, with its flags (R204). -/
def State.loadTile (s : State) (site addr stride f M N : Nat) : List Accum × Nat :=
  let rows := (List.range M).map fun r => s.csRead site (32 * (addr + r * stride)) (fmtBytes f N)
  let vals := rows.map fun row => (List.range N).map fun c => elemVal f (elemCode f row c)
  ((List.range 1024).map fun k => if inTile M N k then Accum.ofVal ((vals.getD (k / 32) []).getD (k % 32) XV.zero) else Accum.zero,
   vals.foldl (fun a l => a ||| enterFlags l) 0)

/-- The tile as `INIT` leaves it: code, accumulators, flags (R104, R107, R203, R204). -/
def State.initTile (s : State) (r : Rsd) (d : Nat) : Nat × List Accum × Nat :=
  let i := unitAddr d r.iter TEN.I_ADDR 3
  match TEN.INIT.of d with
  | 0 => (0, s.accsOf r.site, 0)
  | 1 => (0, List.replicate 1024 Accum.zero, 0)
  | 2 =>
    let t := s.loadTile r.site i (TEN.O_STRIDE.of d) (TEN.I_FMT.of d) (TEN.M_M1.of d + 1) (TEN.N_M1.of d + 1)
    (0, t.1, t.2)
  | _ =>
    let l := s.fillRecords r.site i
    (if l.any recBad then 0x0342 else 0, l.map Accum.ofRec, 0)

/-- Whether some accumulator would pass its limit (R102). -/
def limitBad (l : List Accum) (M N k : Nat) : Bool :=
  l.zipIdx.any fun e => inTile M N e.2 && decide (k ≠ 0) && decide (accLimit < e.1.count + k)

/-- The products of a tensor descriptor added to a tile (R101, R202). -/
def State.mulTile (s : State) (r : Rsd) (d : Nat) (l : List Accum) : List Accum × Nat :=
  let M := TEN.M_M1.of d + 1
  let N := TEN.N_M1.of d + 1
  let k := TEN.K.of d
  if k = 0 then (l, 0)
  else
    let a := s.readOperands r.site (TEN.A_FMT.of d) (unitAddr d r.iter TEN.A_ADDR 0) (TEN.A_STRIDE.of d) (TEN.A_SOFF.of d) M k
    let b := s.readOperands r.site (TEN.B_FMT.of d) (unitAddr d r.iter TEN.B_ADDR 1) (TEN.B_STRIDE.of d) (TEN.B_SOFF.of d) N k
    let t := l.zipIdx.map fun e =>
      if inTile M N e.2 then e.1.addRow (a.1.getD (e.2 / 32) []) (b.1.getD (e.2 % 32) []) else (e.1, 0)
    (t.map (·.1), t.foldl (fun x e => x ||| e.2) (a.2 ||| b.2))

/-! ## The rounding point (R108 to R117, R206, R207) -/

/-- A row of output: its bytes, its scale byte for an MX format, and the flags raised. -/
structure RowOut where
  bytes : List Byte
  scale : List Byte
  flags : Nat

/-- A row of exact values written in a format, each element with its index (R108 to R117, R206). -/
def outRow (f mode : Nat) (sat : Bool) (seed : Nat) (vs : List (XV × Nat)) : RowOut :=
  if fmtMx f then
    let m := mxBlock f mode sat seed vs
    ⟨packCodes f m.codes, [BitVec.ofNat 8 m.scale], m.flags⟩
  else
    let l := vs.map fun v => roundPlain f ⟨mode, sat, srBits seed v.2⟩ v.1
    ⟨packCodes f (l.map (·.bits)), [], l.foldl (fun a x => a ||| x.flags) 0⟩

/-- The output rows of a tile. -/
def tileRows (d : Nat) (l : List Accum) : List RowOut :=
  (List.range (TEN.M_M1.of d + 1)).map fun r =>
    outRow (TEN.O_FMT.of d) (TEN.RMODE.of d) (TEN.SAT.on d) (TEN.SEED.of d)
      ((List.range (TEN.N_M1.of d + 1)).map fun c =>
        ((l.getD (32 * r + c) Accum.zero).value (sext 8 (TEN.SHIFT.of d)), TEN.IDX_BASE.of d + r * TEN.IDX_LD.of d + c))

/-- The rows written in core store, and the scale bytes of an MX output (R206). -/
def State.writeTile (s : State) (r : Rsd) (d : Nat) (rows : List RowOut) : State :=
  let o := unitAddr d r.iter TEN.O_ADDR 2
  let s := rows.zipIdx.foldl (fun s e => s.csWrite r.site (32 * (o + e.2 * TEN.O_STRIDE.of d)) e.1.bytes) s
  s.csWrite r.site (offByte o (TEN.O_SOFF.of d)).toNat (rows.flatMap (·.scale))

/-- The records of a spill (R205). -/
def spillBytes (l : List Accum) : List Byte := l.flatMap fun a => leBytes 80 a.toRec

/-- The list as it was when the descriptor fired: what an error of it reports. -/
def Rsd.back (r : Rsd) : Rsd := { r with pos := r.lastPos }

/-- The chain of a site after a tensor descriptor: closed by `ROUND` or `SPILL`, else the context's (R105, R203). -/
def State.setChain (s : State) (r : Rsd) (d : Nat) : State :=
  let v := if TEN.ROUND.on d || TEN.SPILL.on d then 0 else r.ctx + 1
  { s with core := { s.core with chain := tset s.core.chain r.site v 0 } }

/-- A tensor descriptor's tile rounded or spilled, and its place in the engine (R202). -/
def State.finishTile (s : State) (r : Rsd) (d : Nat) (l : List Accum) : State :=
  if TEN.ROUND.on d then
    let rows := tileRows d l
    let s := (s.writeTile r d rows).addArith r.ring r.seq (rows.foldl (fun a x => a ||| x.flags) 0)
    s.launchFlight r d fun f => { f with out := rows.flatMap (·.bytes) ++ rows.flatMap (·.scale), ready := true }
  else if TEN.SPILL.on d then
    let b := spillBytes l
    (s.csWrite r.site (32 * unitAddr d r.iter TEN.O_ADDR 2) b).launchFlight r d fun f => { f with out := b, ready := true }
  else s.launchFlight r d fun f => { f with ready := true }

/-- The tensor engine runs a descriptor: its chain and its counts (step 9 of R868), then the records of a fill, initialisation, products
and the end (R101 to R109, R202 to R207). -/
def tmmaEffect (e : Ecc) : Effect := fun r d s =>
  let M := TEN.M_M1.of d + 1
  let N := TEN.N_M1.of d + 1
  if decide (TEN.INIT.of d = 0) && decide (tget s.core.chain r.site 0 ≠ r.ctx + 1) then s.failDesc r.back 0x0327 0
  else
    let t := s.initTile r d
    if limitBad t.2.1 M N (TEN.K.of d) then s.failDesc r.back 0x0340 0
    else if t.1 ≠ 0 then s.failDesc r.back t.1 0
    else s.withEcc r.back e fun s =>
      let p := s.mulTile r d t.2.1
      (((s.setAccs r.site p.1).setChain r d).addArith r.ring r.seq (t.2.2 ||| p.2)).finishTile r d p.1

/-- A tensor descriptor fires. -/
def tmmaStep (lcore ring seq : Nat) (f : FireIn) (s : State) : State := s.fire lcore ring seq 0x10 f (tmmaEffect f.ecc)

/-- The TMMA row. -/
def execTmma (lcore ring seq : Nat) (f : FireIn) (s : State) : Res :=
  need (wfCore lcore && wfRing ring) (tmmaStep lcore ring seq f s)

end Sys2Proof.Machine
end

