-- ==== Sys2Proof/Machine/VectorRows.lean ====
section
/-! DEFINITION. The vector engine: VPROG's row operations and the online-softmax primitives (R118 to R122, R141 to R144, R208 to
R213, R874). -/
set_option autoImplicit false
namespace Sys2Proof.Machine

/-! ## Row operations (R208 to R212, R874) -/

/-- A VPROG as it runs: sixteen registers of lanes, the flags so far, the bytes stored, and the state. -/
structure VSt where
  regs  : List (List Nat)
  flags : Nat
  out   : List Byte
  st    : State

/-- The registers as a descriptor starts: every lane an undefined value (R212). -/
def freeRegs (ctr w : Nat) : List (List Nat) :=
  (List.range 16).map fun k => (List.range w).map fun d => Config.freeValue (ctr + k * 128 + d) % 2 ^ 32

/-- A register. -/
def VSt.reg (v : VSt) (k : Nat) : List Nat := v.regs.getD k []

/-- A register written, with the flags of the operation. -/
def VSt.put (v : VSt) (k : Nat) (l : List FR) : VSt :=
  { v with regs := v.regs.set k (l.map (·.bits)), flags := l.foldl (fun a x => a ||| x.flags) v.flags }

/-- A lane-wise operation of one operand. -/
def VSt.map1 (v : VSt) (o : Nat) (f : Nat → FR) : VSt := v.put (VROW.DST.of o) ((v.reg (VROW.SA.of o)).map f)

/-- A lane-wise operation of two operands. -/
def VSt.map2 (v : VSt) (o : Nat) (f : Nat → Nat → FR) : VSt :=
  v.put (VROW.DST.of o) (((v.reg (VROW.SA.of o)).zip (v.reg (VROW.SB.of o))).map fun p => f p.1 p.2)

/-- A lane-wise operation of three operands. -/
def VSt.map3 (v : VSt) (o : Nat) (f : Nat → Nat → Nat → FR) : VSt :=
  v.put (VROW.DST.of o)
    (((v.reg (VROW.SA.of o)).zip ((v.reg (VROW.SB.of o)).zip (v.reg (VROW.SC.of o)))).map fun p => f p.1 p.2.1 p.2.2)

/-- A source element as FP32: taken exactly with its scale, rounded once where FP32 does not hold it (R874). -/
def loadVal (v : XV) : FR := let r := toF32 v; ⟨r.bits, r.flags ||| inFlags v⟩

/-- Byte address of a pointer's row. -/
def vrowAddr (d iter p r : Nat) : Nat := let q := vpointer d iter p; 32 * (q.1 + r * q.2)

/-- `n` elements of a row with their scales, as FP32. -/
def State.vload (s : State) (site d iter o r n : Nat) : List FR :=
  let f := VROW.FMT.of o
  let row := s.csRead site (vrowAddr d iter (VROW.SA.of o) r) (fmtBytes f n)
  let scales := if fmtMx f then s.csRead site (vrowAddr d iter (VROW.SB.of o) r) (ceilDiv n 32) else []
  (List.range n).map fun i => loadVal (scaledVal f (elemCode f row i) ((scales.getD (i / 32) 0).toNat))

/-- Lanes as exact values with their element indices (R212). -/
def laneVals (l : List Nat) (r : Nat) : List (XV × Nat) := l.zipIdx.map fun e => (f32 e.1, r * 128 + e.2)

/-- A list cut into blocks of 32. -/
def blocks32 {α : Type} (l : List α) : List (List α) :=
  (List.range (ceilDiv l.length 32)).map fun b => slice l (32 * b) 32

/-- Lanes converted to a format: element codes, block scales and flags (R122, R123). In FP32 the codes are `raw`. -/
def convLanes (f mode : Nat) (sat : Bool) (seed : Nat) (vs : List (XV × Nat)) (raw : List Nat) : List Nat × List Nat × Nat :=
  let fin := vs.foldl (fun a v => a ||| inFlags v.1) 0
  if f = FP32 then (raw, [], fin)
  else if fmtMx f then
    let bs := (blocks32 vs).map (mxBlock f mode sat seed)
    (bs.flatMap (·.codes), bs.map (·.scale), bs.foldl (fun a b => a ||| b.flags) fin)
  else
    let l := vs.map fun v => roundPlain f ⟨mode, sat, srBits seed v.2⟩ v.1
    (l.map (·.bits), [], l.foldl (fun a x => a ||| x.flags) fin)

/-- ST: a register's lanes written at a pointer's row, with block scales where the format has them; an FP32 register is written as it
stands (R211, R212). -/
def VSt.store (v : VSt) (site d iter o r : Nat) : VSt :=
  let f := VROW.FMT.of o
  let l := v.reg (VROW.SB.of o)
  let c := convLanes f (VROW.RMODE.of o) (VROW.SAT.on o) (VP.SEED.of d) (laneVals l r) l
  let row := packCodes f c.1
  let scales := c.2.1.map (BitVec.ofNat 8)
  let s := v.st.csWrite site (vrowAddr d iter (VROW.SA.of o) r) row
  let s := if scales.isEmpty then s else s.csWrite site (vrowAddr d iter (VROW.SC.of o) r) scales
  { v with st := s, flags := v.flags ||| c.2.2, out := v.out ++ row ++ scales }

/-- CVT: rounded to a format and taken back to FP32; in FP32 itself a zero loses its sign and a NaN is canonical (R113, R115, R210,
R874). -/
def VSt.cvt (v : VSt) (d o r : Nat) : VSt :=
  let f := VROW.FMT.of o
  let l := v.reg (VROW.SA.of o)
  let c := convLanes f (VROW.RMODE.of o) (VROW.SAT.on o) (VP.SEED.of d) (laneVals l r) (l.map fun x => (roundPlain FP32 rne (f32 x)).bits)
  let back := c.1.zipIdx.map fun e => toF32 (scaledVal f e.1 (c.2.1.getD (e.2 / 32) 0))
  { v with flags := v.flags ||| c.2.2 }.put (VROW.DST.of o) back

/-- Sum of lanes in the fixed order, lanes beyond the width +0 (R121, R141). -/
def hsum (l : List Nat) : FR := pairSum 7 (l ++ List.replicate (128 - l.length) 0) 0

/-- Maximum of lanes, lanes beyond the width −infinity (R141); its flags are those of the lanes. -/
def hmax (l : List Nat) : FR :=
  ⟨l.foldl (fun a x => (fMax a x).bits) 0xFF800000, l.foldl (fun a x => a ||| inFlags (f32 x)) 0⟩

/-- CMPLT: a NaN sets only NAN_IN (R210). -/
def cmplt (x y : Nat) : FR :=
  let fl := inFlags (f32 x) ||| inFlags (f32 y)
  ⟨if ieeeLt (f32 x) (f32 y) then 0x3F800000 else 0, if fl &&& aNAN_IN ≠ 0 then aNAN_IN else fl⟩

/-- SEL chooses by its first operand; what enters it is reported (R123, R210). -/
def fsel (a b c : Nat) : FR :=
  ⟨if (f32 a).isZero then c else b, inFlags (f32 a) ||| inFlags (f32 b) ||| inFlags (f32 c)⟩

/-- One row operation on one row (R210). -/
def VSt.op (site d iter r : Nat) (v : VSt) (o : Nat) : VSt :=
  let w := VP.WIDTH_M1.of d + 1
  match VROW.VOP.of o with
  | 0x00 => v
  | 0x01 => v.put (VROW.DST.of o) (v.st.vload site d iter o r w)
  | 0x02 => v.store site d iter o r
  | 0x03 => v.put (VROW.DST.of o) ((v.st.vload site d iter o r 1).flatMap (List.replicate w))
  | 0x04 => v.put (VROW.DST.of o) (List.replicate w ⟨0, 0⟩)
  | 0x05 => v.map2 o fAdd
  | 0x06 => v.map2 o fSub
  | 0x07 => v.map2 o fMul
  | 0x08 => v.map2 o fDiv
  | 0x09 => v.map1 o fSqrt
  | 0x0A => v.map3 o fFma
  | 0x0B => v.map2 o fMax
  | 0x0C => v.map2 o fMin
  | 0x0D => v.map2 o cmplt
  | 0x0E => v.map3 o fsel
  | 0x0F => v.map1 o fExp
  | 0x10 => v.map1 o fExp2
  | 0x11 => v.map1 o fLog2
  | 0x12 => v.map1 o fRcp
  | 0x13 => v.map1 o fRsqrt
  | 0x14 => v.put (VROW.DST.of o) (List.replicate w (hsum (v.reg (VROW.SA.of o))))
  | 0x15 => v.put (VROW.DST.of o) (List.replicate w (hmax (v.reg (VROW.SA.of o))))
  | 0x16 => v.cvt d o r
  | _ => v

/-- All rows of a VPROG, the four operations in order on each. -/
def runVprog (site d iter : Nat) (v : VSt) : VSt :=
  (List.range (VP.ROWS_M1.of d + 1)).foldl (fun v r => (vops d).foldl (VSt.op site d iter r) v) v

/-- A vector descriptor's output is written; it takes the engine until it completes. -/
def State.vectorDone (s : State) (r : Rsd) (d fl : Nat) (out : List Byte) : State :=
  (s.addArith r.ring r.seq fl).launchFlight r d fun f => { f with out := out, ready := true }

/-- The vector engine runs a VPROG. -/
def vprogEffect (e : Ecc) : Effect := fun r d s =>
  s.withEcc r.back e fun s =>
    let v := runVprog r.site d r.iter ⟨freeRegs s.freeCtr (VP.WIDTH_M1.of d + 1), 0, [], { s with freeCtr := s.freeCtr + 2048 }⟩
    v.st.vectorDone r d v.flags v.out

/-- A VPROG fires. -/
def vprogStep (lcore ring seq : Nat) (f : FireIn) (s : State) : State := s.fire lcore ring seq 0x20 f (vprogEffect f.ecc)

/-- The VPROG row. -/
def execVprog (lcore ring seq : Nat) (f : FireIn) (s : State) : Res :=
  need (wfCore lcore && wfRing ring) (vprogStep lcore ring seq f s)

/-! ## Online softmax (R142 to R144, R213) -/

/-- An attention state: running maximum, running sum and weighted values, all FP32, with the flags raised in forming it. -/
structure AttState where
  m : Nat
  l : Nat
  o : List Nat
  flags : Nat
  deriving DecidableEq, Repr

/-- FP32 words of a run of bytes. -/
def wordsOf (b : List Byte) (n : Nat) : List Nat := (List.range n).map fun i => leAt b (4 * i) 4

/-- A state from its bytes (R213). -/
def attState (b : List Byte) (D : Nat) : AttState := ⟨leAt b 0 4, leAt b 4 4, wordsOf (b.drop 32) D, 0⟩

/-- −infinity in FP32. -/
def negInf : Nat := 0xFF800000
/-- 1.0 in FP32. -/
def oneF : Nat := 0x3F800000

/-- The bits of a result and its flags gathered. -/
def FR.also (a : FR) (fl : Nat) : FR := ⟨a.bits, a.flags ||| fl⟩

/-- A product or sum of a computed operand: flags of both. -/
def fExpSub (x y : Nat) : FR := let a := fSub x y; (fExp a.bits).also a.flags

/-- OSM_UPDATE of a state by `n` scores and their value rows, values as FP32 (R142). -/
def osmUpdate (st : AttState) (sc : List Nat) (v : List (List Nat)) : AttState :=
  let mb := hmax sc
  let mn := fMax st.m mb.bits
  let dead := decide (mn.bits = negInf)
  let c : FR := if dead then ⟨oneF, 0⟩ else fExpSub st.m mn.bits
  let p : List FR := if dead then sc.map (fun _ => ⟨0, 0⟩) else sc.map fun x => fExpSub x mn.bits
  let t := hsum (p.map (·.bits))
  let l := fFma st.l c.bits t.bits
  let o0 := st.o.map fun x => fMul x c.bits
  let o := (p.zip v).foldl (fun (o : List FR) e =>
    (o.zip e.2).map fun q => (fFma e.1.bits q.2 q.1.bits).also q.1.flags) o0
  ⟨mn.bits, l.bits, o.map (·.bits),
    (o ++ p ++ o0).foldl (fun a x => a ||| x.flags) (st.flags ||| mb.flags ||| inFlags (f32 st.m) ||| c.flags ||| t.flags ||| l.flags)⟩

/-- OSM_MERGE of two states, the first in the program's order first (R143). -/
def osmMerge (a b : AttState) : AttState :=
  let mn := fMax a.m b.m
  let dead := decide (mn.bits = negInf)
  let c1 : FR := if dead then ⟨oneF, 0⟩ else fExpSub a.m mn.bits
  let c2 : FR := if dead then ⟨0, 0⟩ else fExpSub b.m mn.bits
  let mix (x y : Nat) : FR := let p := fMul x c1.bits; (fFma y c2.bits p.bits).also p.flags
  let l := mix a.l b.l
  let o := (a.o.zip b.o).map fun q => mix q.1 q.2
  ⟨mn.bits, l.bits, o.map (·.bits),
    o.foldl (fun x y => x ||| y.flags) (a.flags ||| b.flags ||| mn.flags ||| c1.flags ||| c2.flags ||| l.flags)⟩

/-- The exact quotient of OSM_NORM with its flags (R144). -/
def osmQuot (x l : XV) : XV × Nat :=
  match x, l with
  | .nan, _ => (.nan, aNAN_IN ||| inFlags l)
  | _, .nan => (.nan, aNAN_IN ||| inFlags x)
  | .inf _, .inf _ => (.nan, aINF_IN ||| aINVALID)
  | .inf a, y => (.inf (xor a y.neg), aINF_IN)
  | .fin a _ _, .inf b => (.fin (xor a b) 0 1, aINF_IN)
  | .fin a p q, .fin b u v =>
    if u = 0 then (if p = 0 then (.nan, aINVALID) else (.inf (xor a b), aDIV_ZERO))
    else (.fin (xor a b) (p * v) (q * u), 0)

/-- A lane of OSM_NORM in a format without scales; under RNE an FP32 lane is the IEEE quotient, with its zero's sign (R144). -/
def normLane (f mode : Nat) (sat : Bool) (seed : Nat) (v : XV × Nat) : FR :=
  match v.1 with
  | .fin n 0 _ => if f = FP32 ∧ mode = 0 then ⟨signBit 0 n, 0⟩ else ⟨0, 0⟩
  | x => roundPlain f ⟨mode, sat, srBits seed v.2⟩ x

/-- OSM_NORM of a state: the bytes it writes and its flags (R144, R213). -/
def osmNorm (f mode : Nat) (sat : Bool) (seed : Nat) (st : AttState) : List Byte × Nat :=
  let q := st.o.map fun x => osmQuot (f32 x) (f32 st.l)
  let fl := q.foldl (fun a x => a ||| x.2) 0
  let vs := q.zipIdx.map fun e => (e.1.1, e.2)
  if fmtMx f then
    let bs := (blocks32 vs).map (mxBlock f mode sat seed)
    (packCodes f (bs.flatMap (·.codes)) ++ bs.map (fun b => BitVec.ofNat 8 b.scale), bs.foldl (fun a b => a ||| b.flags) fl)
  else
    let l := vs.map (normLane f mode sat seed)
    (packCodes f (l.map (·.bits)), l.foldl (fun a x => a ||| x.flags) fl)

/-- The state's three parts written where they lie: m, l, then o from byte 32 (R213). -/
def State.putAtt (s : State) (site addr : Nat) (a : AttState) : State :=
  (s.csWrite site addr (leBytes 4 a.m ++ leBytes 4 a.l)).csWrite site (addr + 32) (a.o.flatMap (leBytes 4))

/-- Width of a state's value vector. -/
def osmDim (d : Nat) : Nat := OS.D_M1.of d + 1

/-- The state at `ST_ADDR`, from its byte address. -/
def State.attAt (s : State) (site addr D : Nat) : AttState := attState (s.csRead site addr (32 + 4 * D)) D

/-- The state after OSM_UPDATE or OSM_MERGE is written over the state at `ST_ADDR`; a dump captures it whole (R213, R803). -/
def State.putState (s : State) (r : Rsd) (d : Nat) (a : AttState) : State :=
  let at_ := 32 * unitAddr d r.iter OS.ST_ADDR 0
  let s := s.putAtt r.site at_ a
  s.vectorDone r d a.flags (s.csRead r.site at_ (32 + 4 * osmDim d))

/-- A value row of OSM_UPDATE as FP32 words: BF16 widens exactly (R213). -/
def valueRow (f : Nat) (row : List Byte) (D : Nat) : List Nat :=
  (List.range D).map fun i => if f = BF16 then elemCode f row i <<< 16 else elemCode f row i

/-- The vector engine runs OSM_UPDATE. -/
def osmUpdateEffect (e : Ecc) : Effect := fun r d s =>
  s.withEcc r.back e fun s =>
    let D := osmDim d
    let n := OS.N_M1.of d + 1
    let f := OS.V_FMT.of d
    let sc := wordsOf (s.csRead r.site (32 * unitAddr d r.iter OS.S_ADDR 1) (4 * n)) n
    let va := unitAddr d r.iter OS.V_ADDR 2
    let v := (List.range n).map fun i => valueRow f (s.csRead r.site (32 * (va + i * OS.V_STRIDE.of d)) (fmtBytes f D)) D
    s.putState r d (osmUpdate (s.attAt r.site (32 * unitAddr d r.iter OS.ST_ADDR 0) D) sc v)

/-- An OSM_UPDATE fires. -/
def osmUpdateStep (lcore ring seq : Nat) (f : FireIn) (s : State) : State := s.fire lcore ring seq 0x21 f (osmUpdateEffect f.ecc)

/-- The OSM_UPDATE row. -/
def execOsmUpdate (lcore ring seq : Nat) (f : FireIn) (s : State) : Res :=
  need (wfCore lcore && wfRing ring) (osmUpdateStep lcore ring seq f s)

/-- The vector engine runs OSM_MERGE: the state at `ST_ADDR` first. -/
def osmMergeEffect (e : Ecc) : Effect := fun r d s =>
  s.withEcc r.back e fun s =>
    let D := osmDim d
    s.putState r d (osmMerge (s.attAt r.site (32 * unitAddr d r.iter OS.ST_ADDR 0) D) (s.attAt r.site (32 * OS.ST2_ADDR.of d) D))

/-- An OSM_MERGE fires. -/
def osmMergeStep (lcore ring seq : Nat) (f : FireIn) (s : State) : State := s.fire lcore ring seq 0x22 f (osmMergeEffect f.ecc)

/-- The OSM_MERGE row. -/
def execOsmMerge (lcore ring seq : Nat) (f : FireIn) (s : State) : Res :=
  need (wfCore lcore && wfRing ring) (osmMergeStep lcore ring seq f s)

/-- The vector engine runs OSM_NORM. -/
def osmNormEffect (e : Ecc) : Effect := fun r d s =>
  s.withEcc r.back e fun s =>
    let a := s.attAt r.site (32 * unitAddr d r.iter OS.ST_ADDR 0) (osmDim d)
    let q := osmNorm (OS.O_FMT.of d) (OS.RMODE.of d) (OS.SAT.on d) (OS.SEED.of d) a
    (s.csWrite r.site (32 * unitAddr d r.iter OS.OUT_ADDR 3) q.1).vectorDone r d q.2 q.1

/-- An OSM_NORM fires. -/
def osmNormStep (lcore ring seq : Nat) (f : FireIn) (s : State) : State := s.fire lcore ring seq 0x23 f (osmNormEffect f.ecc)

/-- The OSM_NORM row. -/
def execOsmNorm (lcore ring seq : Nat) (f : FireIn) (s : State) : Res :=
  need (wfCore lcore && wfRing ring) (osmNormStep lcore ring seq f s)

end Sys2Proof.Machine
end

