-- ==== Sys2Proof/Machine/AttOps.lean ====
section
/-! DEFINITION. Sequences, summaries, block selection, pages, shipments and the reference partial: what the local descriptors
and the query service share (R233 to R261, R869, R875). -/
set_option autoImplicit false
namespace Sys2Proof.Machine

/-! ## Results that may fail -/

/-- A value, or a code with the device address it concerns, and the state after. -/
abbrev Got (α : Type) := Except (Nat × Nat) α × State

/-- The next act on what was got. -/
def Got.then {α β : Type} (g : Got α) (k : α → State → Got β) : Got β :=
  match g.1 with
  | .ok a => k a g.2
  | .error e => (.error e, g.2)

/-- A failure with an attention code. -/
def attBad {α : Type} (code : Nat) (s : State) : Got α := (.error (code, 0), s)

/-- Every act of a list in order, up to the first that fails. -/
def gotAll {α β : Type} (l : List α) (k : α → State → Got β) (s : State) : Got (List β) :=
  match l with
  | [] => (.ok [], s)
  | a :: r => (k a s).then fun b s => (gotAll r k s).then fun bs s => (.ok (b :: bs), s)

/-- Bytes read with `RD` (R875). -/
def State.attRead (s : State) (a : Party) (addr n : Nat) : Got (List Byte) :=
  let m := s.memRead a MEM_RGN.RD addr n
  if m.code = 0 then (.ok m.bytes, m.st) else (.error (m.code, addr), m.st)

/-- Bytes written with a right (R875). -/
def State.attWrite (s : State) (a : Party) (right : Fld) (addr : Nat) (b : List Byte) : Got Unit :=
  let m := s.memWrite a right addr b
  if m.code = 0 then (.ok (), m.st) else (.error (m.code, addr), m.st)

/-- Bytes written in one act with the read of them before (R242, R305, R875). -/
def State.attPut (s : State) (a : Party) (right : Fld) (addr : Nat) (b : List Byte) : Got Unit :=
  let m := s.memPut a right addr b
  if m.code = 0 then (.ok (), m.st) else (.error (m.code, addr), m.st)

/-- A region check alone. -/
def State.attCheck (s : State) (a : Party) (right : Fld) (addr n : Nat) : Got Unit :=
  let c := s.checkSpan a right addr n
  if c = 0 then (.ok (), s) else (.error (c, addr), s)

/-! ## Sequences (R233 to R240) -/

/-- Highest position of a context, plus 1. -/
def posMax : Nat := 2 ^ 24

/-- Pages of a stream, and positions of the shard (R235). -/
def seqPages (q : Nat) : Nat := SEQD.MAXP_M1.of q + 1
/-- R235. -/
def seqCap (q : Nat) : Nat := 64 * seqPages q
/-- Heads of a sequence. -/
def seqHeads (q : Nat) : Nat := SEQD.H_M1.of q + 1
/-- Head dimension of a sequence. -/
def seqDim (q : Nat) : Nat := dimOf (SEQD.D_CODE.of q)
/-- First position of the shard. -/
def seqFirst (q : Nat) : Nat := SEQD.FIRST.of q

/-- Whether a sequence descriptor may not be used (R236). -/
def seqBad (q id : Nat) : Bool :=
  !SEQD.VALID.on q || decide (SEQD.SEQ_ID.of q ≠ id) || decide (seqFirst q % 64 ≠ 0) || decide (posMax < seqFirst q + seqCap q) ||
  decide (q &&& SEQD.reserved ≠ 0)

/-- A lookup in a partition's sequence table (R233, R236). -/
def State.seqLookup (s : State) (a : Party) (slot id : Nat) : Got Nat :=
  if !s.fon GCTL_SEQTAB.EN a.part || decide (s.fget GCTL_SEQTAB.N_M1 a.part < slot) then attBad 0x0802 s
  else (s.attRead a ((s.fget GCTL_SEQTAB.BASE a.part <<< 6) + 64 * slot) 64).then fun b s =>
    let q := ofLE b
    if seqBad q id then attBad 0x0802 s else (.ok q, s)

/-- Entry of page p of a stream in the page list (R238). -/
def pageEntry (q layer head p : Nat) : Nat := (layer * seqHeads q + head) * seqPages q + p

/-- Where a page's slot lies: its entry must be present (R238). -/
def State.pageSlot (s : State) (a : Party) (q layer head p : Nat) : Got Nat :=
  (s.attRead a (SEQD.PL_BASE.of q + 8 * pageEntry q layer head p) 8).then fun b s =>
    let e := ofLE b
    if e.testBit 63 then (.ok (bitsOf e 0 36 <<< 12), s) else attBad 0x0805 s

/-- Address of a layer's count entry (R240). -/
def countAddr (q layer : Nat) : Nat := SEQD.CT_BASE.of q + 64 * layer

/-- A layer's `COUNT` and `AHEAD` (R240). -/
def State.seqCount (s : State) (a : Party) (q layer : Nat) : Got Nat :=
  (s.attRead a (countAddr q layer) 64).then fun b s => (.ok (ofLE b), s)

/-- `COUNT` of a count entry. -/
def countOf (c : Nat) : Nat := bitsOf c 0 32

/-- Superblocks of a stream (Summaries). -/
def seqSupers (q : Nat) : Nat := ceilDiv (seqPages q) 64

/-- Address of a page's summary, and of a superblock's. -/
def pageSum (q layer head p : Nat) : Nat := SEQD.SM_BASE.of q + 4 * seqDim q * pageEntry q layer head p
/-- As above. -/
def superSum (q layer head sb : Nat) : Nat :=
  SEQD.SM_BASE.of q + 4 * seqDim q *
    ((SEQD.L_M1.of q + 1) * seqHeads q * seqPages q + (layer * seqHeads q + head) * seqSupers q + sb)

/-- Offset of the value rows in a page slot (R239). -/
def valueOff (kvf : Bool) (D : Nat) : Nat := if kvf then 66 * D else 128 * D

/-- The last position attended in the shard, plus 1, and the pages below it (R254). -/
def seqEnd (q ntok : Nat) : Nat := min ntok (seqFirst q + seqCap q)
/-- R254. -/
def seqNp (q ntok : Nat) : Nat := ceilDiv (seqEnd q ntok - seqFirst q) 64

/-- The parameters judged against the sequence (R261, R869). -/
def seqParamBad (q layer head : Nat) : Bool := decide (seqHeads q ≤ head) || decide (SEQD.L_M1.of q < layer)

/-- Whether a layer's count does not cover a request (R261, R271). -/
def seqStale (q c ntok : Nat) : Bool := decide (seqFirst q + countOf c < seqEnd q ntok)

/-- The lookup's last judgement: KV_STALE (R869). -/
def State.freshSeq (s : State) (a : Party) (q layer ntok : Nat) : Got Unit :=
  (s.seqCount a q layer).then fun c s => if seqStale q c ntok then attBad 0x0804 s else (.ok (), s)

/-! ## Query rows -/

/-- Values of `g` query rows from their bytes and scale bytes (R257). -/
def queryVals (kvf : Bool) (g D : Nat) (rows scales : List Byte) : List (List XV) :=
  (List.range g).map fun k =>
    let row := slice rows (k * keyRowLen kvf D) (keyRowLen kvf D)
    (List.range D).map fun i =>
      if kvf then scaledVal E4M3 (elemCode E4M3 row i) (scales.getD (k * (D / 32) + i / 32) 0).toNat
      else elemVal BF16 (elemCode BF16 row i)

/-- A byte address in core store from a line and a signed offset. -/
def csByte (line off : Nat) : Nat := (offByte line off).toNat

/-- Query rows and their scales from core store (R257). -/
def State.queryBytes (s : State) (site line off g D : Nat) (kvf : Bool) : List Byte × List Byte :=
  (s.csRead site (32 * line) (g * keyRowLen kvf D), if kvf then s.csRead site (csByte line off) (g * (D / 32)) else [])

/-! ## Block selection (R253 to R255) -/

/-- A product in which a zero factor gives zero (R253). -/
def zeroMul (x y : XV) : XV :=
  match x, y with
  | .nan, _ => .nan
  | _, .nan => .nan
  | x, y => if x.isZero || y.isZero then XV.zero else (xMul x y).getD .nan

/-- The larger of two products; NaN where either is. -/
def prodMax (x y : XV) : XV :=
  match x, y with
  | .nan, _ => .nan
  | _, .nan => .nan
  | a, b => if xLt a b then b else a

/-- A bound's exact sum, rounded to FP32 upward (R253). -/
def boundRow (q kmax kmin : List XV) : Nat :=
  let ps := (q.zip (kmax.zip kmin)).map fun e => prodMax (zeroMul e.1 e.2.1) (zeroMul e.1 e.2.2)
  let a := ps.foldl (fun (a : Accum) v => match v with
    | .nan => { a with nan := true }
    | .inf n => (a.addInf n).1
    | .fin n p d => { a with i := a.i + accUnits n p d }) Accum.zero
  (roundPlain FP32 ⟨3, false, 0⟩ (a.value 0)).bits

/-- A page's bound: the largest over the query rows (R253). -/
def boundOf (qs : List (List XV)) (D : Nat) (sum : List Byte) : Nat :=
  let v (i : Nat) : XV := elemVal BF16 (elemCode BF16 sum i)
  let kmax := (List.range D).map v
  let kmin := (List.range D).map fun i => v (D + i)
  match qs.map fun q => boundRow q kmax kmin with
  | [] => negInf
  | b :: r => r.foldl (fun a x => (fMax a x).bits) b

/-- Whether a ranked item comes before another: NaN first, then the larger bound, then the lower index (R253). -/
def ranksBefore (a b : Nat × Nat) : Bool :=
  let nan (x : Nat) : Bool := decide (f32 x = .nan)
  if nan a.2 != nan b.2 then nan a.2
  else if nan a.2 then decide (a.1 < b.1)
  else if ieeeLt (f32 b.2) (f32 a.2) then true
  else if ieeeLt (f32 a.2) (f32 b.2) then false
  else decide (a.1 < b.1)

/-- An item put in its rank. -/
def rankIn (x : Nat × Nat) : List (Nat × Nat) → List (Nat × Nat)
  | [] => [x]
  | y :: r => if ranksBefore x y then x :: y :: r else y :: rankIn x r

/-- The top k of a set of items with their bounds (R253). -/
def takeTop (k : Nat) (l : List (Nat × Nat)) : List Nat := ((l.foldl (fun a x => rankIn x a) []).take k).map (·.1)

/-- What a selection is asked (R254). -/
structure Sel where
  layer : Nat
  head  : Nat
  ntok  : Nat
  b     : Nat
  sbk   : Nat
  sink  : Nat
  win   : Nat
  exact : Bool
  page  : Bool   -- ASELECT: the page-list entry of each page it ranks is read (R261)
  deriving DecidableEq, Repr

/-- The tail page, when the shard holds it (R254). -/
def tailPage (q ntok : Nat) : Option Nat :=
  if seqFirst q < ntok ∧ ntok ≤ seqFirst q + seqCap q then some ((ntok - 1 - seqFirst q) / 64) else none

/-- Whether a page is forced (R254). -/
def forcedPage (q : Nat) (x : Sel) (p : Nat) : Bool :=
  let P := seqFirst q / 64 + p
  let n := ceilDiv x.ntok 64
  decide (P < x.sink) || (decide (n ≤ P + x.win) && decide (P < n)) || decide (tailPage q x.ntok = some p)

/-- Bounds of items whose summaries lie at `at_` (R253, R255). -/
def State.bounds (s : State) (a : Party) (q : Nat) (qs : List (List XV)) (at_ : Nat → Nat) (l : List Nat) : Got (List (Nat × Nat)) :=
  gotAll l (fun i s => (s.attRead a (at_ i) (4 * seqDim q)).then fun b s => (.ok (i, boundOf qs (seqDim q) b), s)) s

/-- A page that a selection ranks must be present where ASELECT asks (R261): a page it reads is one whose summary it reads (DEDUCED, log
85). -/
def State.present (s : State) (a : Party) (q : Nat) (x : Sel) (p : Nat) : Got Unit :=
  if x.page then (s.pageSlot a q x.layer x.head p).then fun _ s => (.ok (), s) else (.ok (), s)

/-- The pages chosen of one stream, in ascending order (R254). -/
def State.selectPages (s : State) (a : Party) (q : Nat) (qs : List (List XV)) (x : Sel) : Got (List Nat) :=
  let np := seqNp q x.ntok
  if x.exact then (.ok (List.range np), s)
  else
    let tsb := (tailPage q x.ntok).map (· / 64)
    let sbs := (List.range (ceilDiv np 64)).filter fun i => decide (tsb ≠ some i)
    (s.bounds a q qs (superSum q x.layer x.head) sbs).then fun l s =>
      let chosen := takeTop x.sbk l ++ tsb.toList
      let cand := (List.range np).filter fun p => !forcedPage q x p && chosen.contains (p / 64)
      (gotAll cand (fun p s => (s.present a q x p).then fun _ s => s.bounds a q qs (pageSum q x.layer x.head) [p]) s).then fun l s =>
        let l := l.flatten
        let top := takeTop x.b l
        (.ok ((List.range np).filter fun p => forcedPage q x p || top.contains p), s)

/-! ## Pages (R239, R260) -/

/-- A page's rows below NTOK: key rows, key scales and value rows, with how many there are. -/
structure Page where
  nv     : Nat
  keys   : List Byte
  scales : List Byte
  vals   : List Byte

/-- Page p of a stream read: rows at or above NTOK are not read (R239, R260). -/
def State.readPage (s : State) (a : Party) (q layer head ntok p : Nat) : Got Page :=
  let D := seqDim q
  let kvf := SEQD.KVF.on q
  let nv := min 64 (ntok - (seqFirst q + 64 * p))
  (s.pageSlot a q layer head p).then fun at_ s =>
    (s.attRead a at_ (nv * keyRowLen kvf D)).then fun keys s =>
      (if kvf then s.attRead a (at_ + 64 * D) (nv * (D / 32)) else (.ok [], s) : Got (List Byte)).then fun sc s =>
        (s.attRead a (at_ + valueOff kvf D) (nv * (2 * D))).then fun vals s => (.ok ⟨nv, keys, sc, vals⟩, s)

/-- The mask lanes of a page (R260). -/
def maskRow (nv : Nat) : List Byte := (List.range 64).flatMap fun i => leBytes 4 (if i < nv then 0 else negInf)

/-- Rows of `len` bytes at a stride from a core-store byte address; rows past those given are zero (R260). -/
def State.putRows (s : State) (site addr stride len : Nat) (b : List Byte) : State :=
  (List.range 64).foldl (fun s i =>
    let row := slice b (i * len) len
    s.csWrite site (addr + i * stride) (row ++ zeros (len - row.length))) s

/-- A gathered page written into its core-store slot (R260). The scale bytes of a row at or above NTOK are written as zero, of which the
rule says nothing (DESIGN CHOICE, log 85). -/
def State.putPage (s : State) (site d iter j q : Nat) (g : Page) : State :=
  let D := seqDim q
  let kvf := SEQD.KVF.on q
  let base := 32 * (unitAddr d iter AGA.DST_ADDR 1 + j % (AGA.SLOTS_M1.of d + 1) * AGA.PG_STEP.of d)
  let s := s.putRows site base (32 * AGA.K_STRIDE.of d) (keyRowLen kvf D) g.keys
  let s := if kvf then s.putRows site (base + 2048 * AGA.K_STRIDE.of d) (D / 32) (D / 32) g.scales else s
  let s := s.putRows site (base + 32 * AGA.V_OFF.of d) (32 * AGA.V_STRIDE.of d) (2 * D) g.vals
  s.csWrite site (base + 32 * AGA.M_OFF.of d) (maskRow g.nv)

/-! ## The reference partial (R252) -/

/-- Value row i of a page as FP32 words; zero beyond the rows read. -/
def pageVals (D : Nat) (g : Page) (i : Nat) : List Nat :=
  if i < g.nv then valueRow BF16 (slice g.vals (i * (2 * D)) (2 * D)) D else List.replicate D 0

/-- The exact dot product rounded once to FP32 with a shift. -/
def tmmaRound (x y : List XV) (shift : Int) : Nat := (roundPlain FP32 rne ((Accum.zero.addRow x y).1.value shift)).bits

/-- The empty state (R252). -/
def emptyAtt (D : Nat) : AttState := ⟨negInf, 0, List.replicate D 0, 0⟩

/-- One page added to the partial of one query row. -/
def addPage (kvf : Bool) (D : Nat) (qrow : List XV) (shift : Int) (scale : Nat) (st : AttState) (g : Page) : AttState :=
  let keys := queryVals kvf g.nv D g.keys g.scales
  let key (i : Nat) : List XV := if i < g.nv then keys.getD i [] else List.replicate D XV.zero
  let sc := (List.range 64).map fun i =>
    (fAdd (fMul (tmmaRound qrow (key i) shift) scale).bits (if i < g.nv then 0 else negInf)).bits
  osmUpdate st sc ((List.range 64).map (pageVals D g))

/-- The partials of every query row over the selected pages (R252). -/
def partials (kvf : Bool) (D : Nat) (qs : List (List XV)) (shift : Int) (scale : Nat) (pages : List Page) : List AttState :=
  qs.map fun q => pages.foldl (addPage kvf D q shift scale) (emptyAtt D)

/-- A state as it travels and lies in results: bytes 8 to 31 zero (R266). -/
def stateBytes (a : AttState) : List Byte := leBytes 4 a.m ++ leBytes 4 a.l ++ zeros 24 ++ a.o.flatMap (leBytes 4)

/-! ## Shipments (R242 to R249) -/

/-- What a shipment names; its source bytes are beside it (R243, R246). -/
structure Ship where
  slot  : Nat
  id    : Nat
  layer : Nat
  pos   : Nat
  nt    : Nat
  page  : Bool
  hm1   : Nat
  dcode : Nat
  kvf   : Bool
  deriving DecidableEq, Repr

/-- The shipment of a descriptor. -/
def Ship.ofDesc (d : Nat) : Ship :=
  ⟨SHIP.SEQ_SLOT.of d, SHIP.SEQ_ID.of d, SHIP.LAYER.of d, SHIP.POS.of d, SHIP.NT_M1.of d + 1, SHIP.KIND.on d, SHIP.H_M1.of d,
    SHIP.D_CODE.of d, SHIP.KVF.on d⟩

/-- The shipment of a header (R246). -/
def Ship.ofHdr (h : Nat) : Ship :=
  ⟨SHH.SEQ_SLOT.of h, SHH.SEQ_ID.of h, SHH.LAYER.of h, SHH.POS.of h, SHH.NT_M1.of h + 1, SHH.KIND.on h, SHH.H_M1.of h,
    SHH.D_CODE.of h, SHH.KVF.on h⟩

/-- The header of a shipment (R246). -/
def Ship.toHdr (x : Ship) (tag : Nat) : Nat :=
  packFields [(SHH.KTAG, tag), (SHH.SEQ_SLOT, x.slot), (SHH.SEQ_ID, x.id), (SHH.LAYER, x.layer), (SHH.POS, x.pos),
    (SHH.NT_M1, x.nt - 1), (SHH.KIND, b2n x.page), (SHH.H_M1, x.hm1), (SHH.D_CODE, x.dcode), (SHH.KVF, b2n x.kvf)]

/-- Bytes of a shipment's source (R244). -/
def Ship.len (x : Ship) : Nat := shipLen x.kvf (dimOf x.dcode) (x.hm1 + 1) x.nt

/-- A shipment that does not match its sequence (R247). -/
def Ship.paramBad (x : Ship) (q : Nat) : Bool :=
  decide (x.hm1 ≠ SEQD.H_M1.of q) || decide (x.dcode ≠ SEQD.D_CODE.of q) || (x.kvf != SEQD.KVF.on q) ||
  decide (SEQD.L_M1.of q < x.layer) || (x.page && decide (x.pos % 64 ≠ 0))

/-- Positions outside the shard, the page or the look-ahead (R247). -/
def Ship.posBad (x : Ship) (q c : Nat) : Bool :=
  decide (x.pos < seqFirst q) || decide (x.pos / 64 ≠ (x.pos + x.nt - 1) / 64) ||
  decide (seqFirst q + seqCap q < x.pos + x.nt) || decide (seqFirst q + countOf c + 257 < x.pos + x.nt)

/-- The rows of one head that a shipment writes: keys, scales and values of its last `n` rows (R244, R248). -/
def Ship.rows (x : Ship) (b : List Byte) (head n : Nat) : Page :=
  let D := dimOf x.dcode
  let kr := keyRowLen x.kvf D
  let kpart := pad32 (x.nt * kr)
  let spart := if x.kvf then pad32 (x.nt * (D / 32)) else 0
  let blk := kpart + spart + pad32 (x.nt * (2 * D))
  let o := head * blk
  let k := x.nt - n
  ⟨n, slice b (o + k * kr) (n * kr), if x.kvf then slice b (o + kpart + k * (D / 32)) (n * (D / 32)) else [],
    slice b (o + kpart + spart + k * (2 * D)) (n * (2 * D))⟩

/-- A bound raised or lowered by a key's value; NaN sets it and stays (R242). -/
def boundStep (up : Bool) (old : Nat) (v : XV) : Nat :=
  let o := elemVal BF16 old
  let n := (roundPlain BF16 ⟨if up then 3 else 2, false, 0⟩ v).bits
  match o, v with
  | .nan, _ => 0x7FC0
  | _, .nan => 0x7FC0
  | o, _ => if (if up then xLt o (elemVal BF16 n) else xLt (elemVal BF16 n) o) then n else old

/-- A summary after rows are written (R242). -/
def raiseSum (D : Nat) (sum : List Byte) (rows : List (List XV)) : List Byte :=
  (List.range (2 * D)).flatMap fun i =>
    leBytes 2 (rows.foldl (fun a row => boundStep (decide (i < D)) a (row.getD (i % D) XV.zero)) (leAt sum (2 * i) 2))

/-- `COUNT` and `AHEAD` after positions `lo` to `hi - 1` are written (R248). -/
def advanceCount (c first lo hi : Nat) : Nat :=
  let n := countOf c
  let w := (List.range (hi - lo)).foldl (fun w i => w ||| 2 ^ (lo + i - (first + n))) (bitsOf c 64 256 <<< 1)
  let go := (List.range 257).foldl (fun (e : Nat × Nat) _ => if e.2.testBit 0 then (e.1 + 1, e.2 / 2) else e) (n, w)
  putBits (putBits c 0 32 go.1) 64 256 (go.2 / 2)

/-- One head of a shipment: where its rows go and the two summaries they raise. -/
structure ShipHead where
  slot : Nat
  page : Nat
  sup  : Nat
  psum : List Byte
  ssum : List Byte
  rows : Page

/-- Every access of a shipment to one head, whose page slot is known, is checked, and what it needs is read, before anything is written
(R875). -/
def State.shipCheck (s : State) (a : Party) (right : Fld) (x : Ship) (q p row n : Nat) (b : List Byte) (h at_ : Nat) : Got ShipHead :=
  let D := seqDim q
  let kr := keyRowLen x.kvf D
  (s.attCheck a right (at_ + row * kr) (n * kr)).then fun _ s =>
    (if x.kvf then s.attCheck a right (at_ + 64 * D + row * (D / 32)) (n * (D / 32)) else (.ok (), s) : Got Unit).then fun _ s =>
      (s.attCheck a right (at_ + valueOff x.kvf D + row * (2 * D)) (n * (2 * D))).then fun _ s =>
        let ps := pageSum q x.layer h p
        let ss := superSum q x.layer h (p / 64)
        (s.attCheck a right ps (4 * D)).then fun _ s =>
          (s.attCheck a right ss (4 * D)).then fun _ s =>
            (s.attRead a ps (4 * D)).then fun pb s =>
              (s.attRead a ss (4 * D)).then fun sb s => (.ok ⟨at_, ps, ss, pb, sb, x.rows b h n⟩, s)

/-- One head of a shipment written: rows, scales, values and both summaries (R242, R248). -/
def State.shipWrite (s : State) (a : Party) (right : Fld) (q row : Nat) (e : ShipHead) : Got Unit :=
  let D := seqDim q
  let kvf := SEQD.KVF.on q
  let vals := queryVals kvf e.rows.nv D e.rows.keys e.rows.scales
  (s.attWrite a right (e.slot + row * keyRowLen kvf D) e.rows.keys).then fun _ s =>
    (if kvf then s.attWrite a right (e.slot + 64 * D + row * (D / 32)) e.rows.scales else (.ok (), s) : Got Unit).then fun _ s =>
      (s.attWrite a right (e.slot + valueOff kvf D + row * (2 * D)) e.rows.vals).then fun _ s =>
        (s.attPut a right e.page (raiseSum D e.psum vals)).then fun _ s =>
          s.attPut a right e.sup (raiseSum D e.ssum vals)

/-- A shipment judged against its sequence in the row order of R247, and written (R248): the page entries of every head come before any
access to what they name, and the source's bytes `b` are the first of those accesses. -/
def State.shipTo (s : State) (x : Ship) (q : Nat) (a : Party) (right : Fld) (b : State → Got (List Byte)) : Got Unit :=
  if x.paramBad q then attBad 0x0808 s
  else (s.seqCount a q x.layer).then fun c s =>
    if x.posBad q c then attBad 0x0807 s
    else
      let first := seqFirst q
      let p := (x.pos - first) / 64
      let lo := max x.pos (first + countOf c)
      let hi := x.pos + x.nt
      let n := hi - lo
      let row := lo - first - 64 * p
      (gotAll (List.range (x.hm1 + 1)) (fun h s => s.pageSlot a q x.layer h p) s).then fun slots s =>
        (b s).then fun b s =>
          if n = 0 then (.ok (), s)
          else (gotAll slots.zipIdx (fun e s => s.shipCheck a right x q p row n b e.2 e.1) s).then fun l s =>
            (s.attCheck a right (countAddr q x.layer) 64).then fun _ s =>
              (gotAll l (fun e s => s.shipWrite a right q row e) s).then fun _ s =>
                s.attPut a right (countAddr q x.layer) (leBytes 64 (advanceCount c first lo hi))

end Sys2Proof.Machine
end

