-- ==== Sys2Proof/Machine/Mesh.lean ====
section
/-! DEFINITION. The meshes and the bridges: the way a message takes, the order it keeps, and the bridges that carry a transfer between
dies (R22, R168, R169). -/
set_option autoImplicit false
namespace Sys2Proof.Machine

/-! ## The mesh of a die (R168) -/

/-- A stop of a die's mesh: die, row and column of its cluster among 8 × 8. -/
structure Stop where
  die : Nat
  row : Nat
  col : Nat
  deriving DecidableEq, Repr

/-- The stop that a site's cluster shares. -/
def stopOf (site : Nat) : Stop := ⟨siteDie site, sitePcluster site / 8, sitePcluster site % 8⟩

/-- The numbers from `a` towards `b`, `b` among them and `a` not. -/
def towards (a b : Nat) : List Nat :=
  if a ≤ b then (List.range (b - a)).map (a + 1 + ·) else (List.range (a - b)).map (a - 1 - ·)

/-- The stops that a message passes from stop `a` to stop `b` of one die: first along its row, then along its column (R168). -/
def meshPath (a b : Stop) : List Stop :=
  a :: (towards a.col b.col).map (fun c => ⟨a.die, a.row, c⟩) ++ (towards a.row b.row).map (fun r => ⟨a.die, r, b.col⟩)

/-- The way of a signal on the mesh's channel for requests: none for one that stays on its core, one of a hub unit, which enters at a
die's edge, and one that crosses to another die. -/
def State.sigPath (s : State) (g : Sig) : List Stop :=
  match s.coreSite g.src, s.coreSite g.lcore with
  | some a, some b => if g.src = g.lcore ∨ siteDie a ≠ siteDie b then [] else meshPath (stopOf a) (stopOf b)
  | _, _ => []

/-- Whether the n-th signal on its way has none before it on the same way: messages from one stop to one stop arrive in the order in
which they were sent (R168). -/
def State.sigFirst (s : State) (n : Nat) (g : Sig) : Bool :=
  (s.sigPath g).isEmpty || !((s.core.sigs.take n).any fun h => decide (s.sigPath h = s.sigPath g))

/-! ## The bridges (R169) -/

/-- Whether a die's bridge is out of service. -/
def State.bridgeOut (s : State) (die b : Nat) : Bool := s.inCullet 7 (die + 4 * b)

/-- The bridge of a die that carries what bridge `b` is to carry: the other when that one is out (R169). -/
def State.bridgeOf (s : State) (die b : Nat) : Nat := if s.bridgeOut die b then 1 - b else b

/-- The bridges, die and number, that traffic between two dies crosses: one at each end (R22). -/
def State.crossings (s : State) (a b k : Nat) : List (Nat × Nat) :=
  if a = b then [] else [(a, s.bridgeOf a k), (b, s.bridgeOf b k)]

/-- The compute die that owns a device-memory address (R284). -/
def dieOf (addr : Nat) : Nat := bitsOf addr 37 2

/-- The bridges between a die and a span of device memory: each 4 KiB goes by the bridge of its address bit 12 (R169). -/
def State.dmBridges (s : State) (die addr n : Nat) : List (Nat × Nat) :=
  ((List.range (if n = 0 then 0 else (addr + n - 1) / 4096 + 1 - addr / 4096)).flatMap fun k =>
    let a := 4096 * (addr / 4096 + k)
    s.crossings die (dieOf a) (bitsOf a 12 1)).eraseDups

/-- The bridges between a die and a logical core: that of bit 3 of its number (R169). -/
def State.coreBridges (s : State) (die core : Nat) : List (Nat × Nat) := s.crossings die (core / 512) (bitsOf core 3 1)

/-- The bridges that the stream engine of a list sends `n` bytes by, to or from one end of a transfer: space, other core and address. -/
def State.endBridges (s : State) (r : Rsd) (sp core addr n : Nat) : List (Nat × Nat) :=
  if sp = 1 then s.dmBridges (siteDie r.site) addr n else if sp = 2 then s.coreBridges (siteDie r.site) core else []

/-- A firing's record of the bridges that have carried it, with more of them. -/
def Flight.crossed (f : Flight) (l : List (Nat × Nat)) : Flight := { f with via := (f.via ++ l).eraseDups }

end Sys2Proof.Machine
end

