-- ==== Sys2Proof/Machine/StreamRows.lean ====
section
/-! DEFINITION. The stream engine: transfers and gathers with their parts, and the atomics on device memory (R145 to R153, R214 to
R221, R260). -/
set_option autoImplicit false
namespace Sys2Proof.Machine

/-! ## Transfers -/

/-- First byte and length of part k of a transfer (R146). -/
def partOff (d k : Nat) : Nat := k * partSize d
/-- R146. -/
def partLen (d k : Nat) : Nat := min (partSize d) (SM.LEN.of d - partOff d k)

/-- Slots of a transfer that it returns to, or 0 when its parts lie one after another (R152, R218). -/
def slotsOf (d : Nat) : Nat :=
  if SM.C_EN.on d && decide (SM.SLOTS_M1.of d + 1 < partCount d) then SM.SLOTS_M1.of d + 1 else 0

/-- Where part k lies at its destination: in slot k mod S of a credited transfer (R152, R218). -/
def dstOff (d k : Nat) : Nat := if slotsOf d = 0 then partOff d k else k % slotsOf d * partSize d

/-- Whether the credit for part k is there: at least k − S + 1 (R152). -/
def Rsd.credited (r : Rsd) (d k : Nat) : Bool :=
  !SM.C_EN.on d || decide (k + 1 ≤ r.ctrs.getD (SM.C_CTR.of d) 0 + (SM.SLOTS_M1.of d + 1))

/-- The site whose core store an end of a transfer names: its own, or the other core's for the same command (R214). -/
def State.endSite (s : State) (r : Rsd) (sp core : Nat) : Nat :=
  if sp = 2 then ((s.rsd core r.ring r.seq).map (·.site)).getD r.site else r.site

/-- A message of a flight to a fabric end, in the context's partition and world (R384). -/
def State.flightXfer (s : State) (r : Rsd) (fid dmod dep typ raddr total : Nat) (src : Src) : Xfer :=
  mkXfer (.flight r.lcore r.ring r.seq fid) (some r.ctx) ((s.ctxEp r.ctx).getD 0) dmod dep typ (s.ctxPart r.ctx)
    (s.ctxWorld r.ctx) raddr total src

/-- A transfer begins on the fabric, or fails its descriptor when its pair member has no stream entry left (R617). -/
def State.beginFor (s : State) (r : Rsd) (x : Xfer) : State :=
  match s.begin x with
  | some s => s
  | none => s.failDesc r 0x030A 0

/-- Where a flight's bytes are read from on this module (R151, R214). -/
def State.smoveSrc (s : State) (r : Rsd) (f : Flight) : Src :=
  let a := byteAddr f.word f.iter SM.SRC_ADDR 0
  if SM.SRC_SP.of f.word = 1 then .dm (s.ctxPart r.ctx) (s.ctxWorld r.ctx) a else .cs r.site a

/-- Where a flight's bytes go on this module, from an offset on. -/
def State.smoveDst (s : State) (r : Rsd) (f : Flight) (off : Nat) : Src :=
  let b := byteAddr f.word f.iter SM.DST_ADDR 1 + off
  if SM.DST_SP.of f.word = 1 then .dm (s.ctxPart r.ctx) (s.ctxWorld r.ctx) b
  else .cs (s.endSite r (SM.DST_SP.of f.word) (SM.DST_CORE.of f.word)) b

/-- The address that a GET_REQ gives for its answer: the device-memory or core-store address of its sink (R420). -/
def Src.addr : Src → Nat
  | .cs _ a => a
  | .dm _ _ a => a
  | .lit _ => 0

/-- The one message of a transfer to the fabric, none of whose parts has started (R151, R217, R218). -/
def State.smovePut (s : State) (r : Rsd) (f : Flight) : State :=
  let d := f.word
  let x := s.flightXfer r f.fid (SM.REM_MOD.of d) (SM.REM_EP.of d) tyPUT (byteAddr d f.iter SM.DST_ADDR 1) (SM.LEN.of d)
    (s.smoveSrc r f)
  s.beginFor r { x with avail := 0, psize := partSize d, slots := slotsOf d }

/-- A get of `n` bytes at an offset of the remote source, to an offset of the sink (R420). -/
def State.smoveGet (s : State) (r : Rsd) (f : Flight) (off doff n : Nat) : State :=
  let d := f.word
  let sink := s.smoveDst r f doff
  let x := s.flightXfer r f.fid (SM.REM_MOD.of d) (SM.REM_EP.of d) tyGETREQ (byteAddr d f.iter SM.SRC_ADDR 0 + off) n
    (.lit (leBytes 32 sink.addr))
  s.beginFor r { x with dst := some sink }

/-- The stream engine takes a transfer: it holds a channel from now on, and a transfer to the fabric begins its message
(R128, R146, R151). -/
def smoveEffect : Effect := fun r d s =>
  let s := s.launchFlight r d id
  if SM.DST_SP.of d = 3 then
    match (s.rsd r.lcore r.ring r.seq).bind (·.flights.getLast?) with
    | some f => s.smovePut r f
    | none => s
  else s

/-- An SMOVE fires. -/
def smoveStep (lcore ring seq : Nat) (f : FireIn) (s : State) : State := s.fire lcore ring seq 0x30 f smoveEffect

/-- The SMOVE row. -/
def execSmove (lcore ring seq : Nat) (f : FireIn) (s : State) : Res :=
  need (wfCore lcore && wfRing ring) (smoveStep lcore ring seq f s)

/-- A flight of a list replaced in the state. -/
def State.setFlight (s : State) (r : Rsd) (f : Flight) : State := s.setRsd (r.setFlight f)

/-- The bytes of a part, read on this module: the region check of R296 comes first. -/
def State.partRead (s : State) (r : Rsd) (f : Flight) (off n : Nat) : MemRes :=
  let a := byteAddr f.word f.iter SM.SRC_ADDR 0 + off
  let sp := SM.SRC_SP.of f.word
  if sp = 1 then s.memRead (s.accOf r.ctx 0) MEM_RGN.RD a n
  else ⟨0, s.csRead (s.endSite r sp (SM.SRC_CORE.of f.word)) a n, s⟩

/-- The bytes of a part written on this module. -/
def State.partWrite (s : State) (r : Rsd) (sink : Src) (b : List Byte) : MemRes :=
  match sink with
  | .dm _ _ a => s.memWrite (s.accOf r.ctx 0) MEM_RGN.WR a b
  | .cs site a => ⟨0, [], s.csWrite site a b⟩
  | .lit _ => ⟨0, [], s⟩

/-- The bridges that part k crosses: to its source's die and to its destination's (R169). -/
def State.partBridges (s : State) (r : Rsd) (f : Flight) (k : Nat) : List (Nat × Nat) :=
  let d := f.word
  let n := partLen d k
  s.endBridges r (SM.SRC_SP.of d) (SM.SRC_CORE.of d) (byteAddr d f.iter SM.SRC_ADDR 0 + partOff d k) n ++
    s.endBridges r (SM.DST_SP.of d) (SM.DST_CORE.of d) (byteAddr d f.iter SM.DST_ADDR 1 + dstOff d k) n

/-- A part moves between two ends on this module; each end is checked before it moves (R146, R296). -/
def State.partCopy (s : State) (r : Rsd) (f : Flight) (k : Nat) : State :=
  let m := s.partRead r f (partOff f.word k) (partLen f.word k)
  let src := byteAddr f.word f.iter SM.SRC_ADDR 0 + partOff f.word k
  if m.code ≠ 0 then m.st.failMem r 0 m.code src
  else
    let sink := s.smoveDst r f (dstOff f.word k)
    let w := m.st.partWrite r sink m.bytes
    if w.code ≠ 0 then w.st.failMem r 0 w.code sink.addr
    else w.st.setFlight r { f.crossed (s.partBridges r f k) with started := k + 1, written := f.written ++ [k] }

/-- A part of a transfer to the fabric starts: its bytes may be sent (R151). -/
def State.partSend (s : State) (r : Rsd) (f : Flight) (k : Nat) : State :=
  let n := partOff f.word k + partLen f.word k
  let xs := s.fab.xfers.map fun x =>
    if x.owner = .flight r.lcore r.ring r.seq f.fid then { x with avail := n } else x
  { s with fab := { s.fab with xfers := xs } }.setFlight r { f with started := k + 1 }

/-- A part of a transfer from the fabric starts: a credited transfer requests it, any other requests all its bytes at once
(R152, R420). -/
def State.partGet (s : State) (r : Rsd) (f : Flight) (k : Nat) : State :=
  let d := f.word
  if SM.C_EN.on d then
    (s.setFlight r { f with started := k + 1 }).smoveGet r f (partOff d k) (dstOff d k) (partLen d k)
  else (s.setFlight r { f with started := partCount d }).smoveGet r f 0 0 (SM.LEN.of d)

/-- The k-th flight of a list, oldest first, and the list. -/
def State.flightAt (s : State) (lcore ring seq k : Nat) : Option (Rsd × Flight) :=
  match s.rsd lcore ring seq with
  | some r => if r.dead then none else (r.flights[k]?).map fun f => (r, f)
  | none => none

/-- A descriptor's act on a sequence failed: with a memory code and its address, or with a code of its own (R282). -/
def State.attFail (s : State) (r : Rsd) (e : Nat × Nat) : State :=
  if e.1 < 0x0200 then s.failMem r 0 e.1 e.2 else s.failDesc r e.1 e.2

/-- A page of a gather starts, when its credit is there: it is read and written into its slot (R152, R259, R260). -/
def State.gatherPart (s : State) (r : Rsd) (f : Flight) (hbm : List Nat) : State :=
  let d := f.word
  let k := f.started
  let credit := !AGA.C_EN.on d || decide (k + 1 ≤ r.ctrs.getD (AGA.C_CTR.of d) 0 + (AGA.SLOTS_M1.of d + 1))
  match f.list[k]? with
  | none => s
  | some p =>
    if !credit then s
    else
      let g := (s.markBad 1 hbm).readPage (s.accOf r.ctx 0) f.aux (AGA.LAYER.of d) (AGA.HEAD.of d) (AGA.NTOK.of d) p
      match g.1 with
      | .error e => g.2.attFail r e
      | .ok pg => (g.2.putPage r.site d f.iter k f.aux pg).setFlight r { f with started := k + 1, written := f.written ++ [k] }

/-- A part of a transfer moves, or is asked for (R152, R153). -/
def State.movePart (s : State) (r : Rsd) (fl : Flight) (lcore ring seq k : Nat) (f : FireIn) : State :=
  let d := fl.word
  let n := fl.started
  if partCount d ≤ n ∨ r.credited d n = false then s
  else
    let s := s.markBad 1 f.hbm
    if SM.DST_SP.of d = 3 then s.partSend r fl n
    else if SM.SRC_SP.of d = 3 then s.partGet r fl n
    else s.withEcc { r with site := s.endSite r (SM.SRC_SP.of d) (SM.SRC_CORE.of d) } f.ecc fun s =>
      match s.flightAt lcore ring seq k with
      | some (r, fl) => s.partCopy r fl n
      | none => s

/-- The next part of a transfer, or page of a gather, starts when its credit is there (R152, R153). -/
def smovePartStartStep (lcore ring seq k : Nat) (f : FireIn) (s : State) : State :=
  s.when s.hubUp fun s =>
    match s.flightAt lcore ring seq k with
    | none => s
    | some (r, fl) =>
      if DESC.OPCODE.of fl.word = 0x30 then s.movePart r fl lcore ring seq k f
      else if DESC.OPCODE.of fl.word = 0x61 then s.gatherPart r fl f.hbm
      else s

/-- The SMOVE_PART_START row. -/
def execSmovePartStart (lcore ring seq k : Nat) (f : FireIn) (s : State) : Res :=
  need (wfCore lcore && wfRing ring) (smovePartStartStep lcore ring seq k f s)

/-- Whether disjoint ranges cover the first `n` bytes. -/
def coversTo (l : List (Nat × Nat)) (n : Nat) : Bool :=
  decide (n ≤ (l.map fun e => min n (e.1 + e.2) - min n e.1).foldl (· + ·) 0)

/-- Messages of a flight, oldest first. -/
def State.flightXfers (s : State) (r : Rsd) (f : Flight) : List Xfer :=
  s.fab.xfers.filter fun x => decide (x.owner = .flight r.lcore r.ring r.seq f.fid)

/-- Whether parts 0 to k of a transfer are all fully written at its destination (R146, R147, R217). -/
def State.partsDone (s : State) (r : Rsd) (f : Flight) (k : Nat) : Bool :=
  let d := f.word
  let n := partOff d k + partLen d k
  let xs := s.flightXfers r f
  if SM.DST_SP.of d = 3 then xs.any fun x => coversTo x.acks n
  else if SM.SRC_SP.of d = 3 then
    (if SM.C_EN.on d then decide (k < xs.length) && (xs.take (k + 1)).all (fun x => coversTo x.acks x.total)
     else xs.any fun x => coversTo x.acks n)
  else (List.range (k + 1)).all f.written.contains

/-- The token of a part: on the destination's core for an RCS end, else on its own (R147, R148, R216, R259). -/
def State.partToken (s : State) (r : Rsd) (f : Flight) : State :=
  let d := f.word
  let sig (en ctr : BF) (core : Nat) : State :=
    if en.on d then s.sendSig ⟨r.ring, r.seq, core, ctr.of d, 1, r.lcore, f.pos, f.iter, 1⟩ else s
  if DESC.OPCODE.of d = 0x30 then sig SM.P_EN SM.P_CTR (if SM.DST_SP.of d = 2 then SM.DST_CORE.of d else r.lcore)
  else sig AGA.P_EN AGA.P_CTR r.lcore

/-- Parts of a transfer, or pages of a gather. -/
def Flight.parts (f : Flight) : Nat := if DESC.OPCODE.of f.word = 0x30 then partCount f.word else f.list.length

/-- Parts 0 to k of a transfer, or pages of a gather, are fully written: the part's token is signalled, and after the last part
its work is done (R147). -/
def smovePartWrittenStep (lcore ring seq k : Nat) (s : State) : State :=
  s.when s.hubUp fun s =>
    match s.flightAt lcore ring seq k with
    | none => s
    | some (r, f) =>
      let n := f.told
      let done := if DESC.OPCODE.of f.word = 0x30 then s.partsDone r f n
        else decide (DESC.OPCODE.of f.word = 0x61) && f.written.contains n
      if f.started ≤ n ∨ done = false then s
      else (s.setFlight r { f with told := n + 1, ready := decide (n + 1 = f.parts) }).partToken r f

/-- The SMOVE_PART_WRITTEN row. -/
def execSmovePartWritten (lcore ring seq k : Nat) (s : State) : Res :=
  need (wfCore lcore && wfRing ring) (smovePartWrittenStep lcore ring seq k s)

/-! ## Atomics (R219 to R221) -/

/-- What an atomic leaves at its address (R220). -/
def atomNew (op old opnd cmp : Nat) : Nat :=
  match op with
  | 0 => wrapAdd 64 old opnd
  | 1 => wrapAdd 64 old opnd
  | 2 => opnd
  | 3 => if old = cmp then opnd else old
  | _ => max old opnd

/-- An atomic at the memory controller of its stack: its read and its write are one act, under `ATOM` (R219 to R221). -/
def State.atomAt (s : State) (a : Party) (addr op opnd cmp : Nat) : MemRes :=
  let m := s.memRead a MEM_RGN.ATOM addr 8
  if m.code ≠ 0 then m
  else
    let w := m.st.memPut a MEM_RGN.ATOM addr (leBytes 8 (atomNew op (ofLE m.bytes) opnd cmp))
    ⟨w.code, m.bytes, w.st⟩

/-- The atomic of a descriptor that has fired. One that returns the old value keeps it until it completes, and counts one
divergence (R181, R221). -/
def satomEffect (aop : Nat) : Effect := fun r d s =>
  let addr := byteAddr d r.iter SA.A_DADDR 0
  let m := s.atomAt (s.accOf r.ctx 0) addr aop (SA.OPND.of d) (SA.CMP.of d)
  if m.code ≠ 0 then m.st.failMem r.back 0 m.code addr
  else
    (if satomReturns d then m.st.divergeFor r 1 else m.st).launchFlight r d fun f =>
      { f.crossed (s.dmBridges (siteDie r.site) addr 8) with aux := ofLE m.bytes, ready := true }

/-- A SATOM of one operation fires. -/
def State.fireAtom (s : State) (lcore ring seq aop : Nat) (f : FireIn) : State :=
  s.fireIf lcore ring seq (fun d => decide (DESC.OPCODE.of d = 0x31) && decide (SA.AOP.of d = aop)) f (satomEffect aop)

/-- A SATOM ADD fires. -/
def satomAddStep (lcore ring seq : Nat) (f : FireIn) (s : State) : State := s.fireAtom lcore ring seq 0 f
/-- A SATOM FADD fires. -/
def satomFaddStep (lcore ring seq : Nat) (f : FireIn) (s : State) : State := s.fireAtom lcore ring seq 1 f
/-- A SATOM SWAP fires. -/
def satomSwapStep (lcore ring seq : Nat) (f : FireIn) (s : State) : State := s.fireAtom lcore ring seq 2 f
/-- A SATOM CAS fires. -/
def satomCasStep (lcore ring seq : Nat) (f : FireIn) (s : State) : State := s.fireAtom lcore ring seq 3 f
/-- A SATOM UMAX fires. -/
def satomUmaxStep (lcore ring seq : Nat) (f : FireIn) (s : State) : State := s.fireAtom lcore ring seq 4 f

/-- The SATOM_ADD row. -/
def execSatomAdd (lcore ring seq : Nat) (f : FireIn) (s : State) : Res :=
  need (wfCore lcore && wfRing ring) (satomAddStep lcore ring seq f s)
/-- The SATOM_FADD row. -/
def execSatomFadd (lcore ring seq : Nat) (f : FireIn) (s : State) : Res :=
  need (wfCore lcore && wfRing ring) (satomFaddStep lcore ring seq f s)
/-- The SATOM_SWAP row. -/
def execSatomSwap (lcore ring seq : Nat) (f : FireIn) (s : State) : Res :=
  need (wfCore lcore && wfRing ring) (satomSwapStep lcore ring seq f s)
/-- The SATOM_CAS row. -/
def execSatomCas (lcore ring seq : Nat) (f : FireIn) (s : State) : Res :=
  need (wfCore lcore && wfRing ring) (satomCasStep lcore ring seq f s)
/-- The SATOM_UMAX row. -/
def execSatomUmax (lcore ring seq : Nat) (f : FireIn) (s : State) : Res :=
  need (wfCore lcore && wfRing ring) (satomUmaxStep lcore ring seq f s)

end Sys2Proof.Machine
end

