-- ==== Sys2Proof/Machine/Router.lean ====
section
/-! DEFINITION. The router: how a packet's output port is chosen, channels, credits, filters and drops, and the default
tables (R371 to R373, R388 to R400, R424, R429). -/
set_option autoImplicit false
namespace Sys2Proof.Machine

/-- What the router does with a unicast packet (R391). -/
inductive Route
  | eject
  | nack (code : Nat)
  | drop
  | ports (l : List Nat) (detour : Bool)
  deriving DecidableEq, Repr

/-- Whether R395 and the hop limit let a packet leave on a port (R394, R395). -/
def vcOk (arr : Nat) (p : Pkt) (detour : Bool) (o : Nat) : Bool :=
  (nextVc (arrivedBy arr p) (isG o) detour).isSome && decide (PH.HOPS.of p.hdr < 7)

/-- Candidate ports as a mask, and whether the route is a detour; none when the table has no route (R391). -/
def State.candidates (s : State) (arr rack pos : Nat) : Option (Nat × Bool) :=
  if rack = s.self / 64 then some (s.fget FAB_LOCAL.MASK pos, false)
  else if !s.fon FAB_RACK.VALID rack then none
  else if s.fon FAB_RACK.DETOUR rack && decide (arr = hubPort) then some (s.fget FAB_RACK.DGMASK rack <<< 18, true)
  else if s.fget FAB_RACK.EXIT_POS rack = s.self % 64 then some (2 ^ (18 + s.fget FAB_RACK.EXIT_G rack), false)
  else some (s.fget FAB_LOCAL.MASK (s.fget FAB_RACK.EXIT_POS rack), false)

/-- The route of a unicast packet (R391). -/
def State.route (s : State) (arr : Nat) (p : Pkt) : Route :=
  let m := epMod (PH.DEST.of p.hdr)
  if s.fget FAB_CTL.NRACK_M1 0 < m / 64 then .nack 0x0208
  else if m = s.self then .eject
  else match s.candidates arr (m / 64) (m % 64) with
    | none => .nack 0x0203
    | some (mask, detour) =>
      let cand := (onesOf 22 mask).filter fun o => s.inServ o
      let ok := cand.filter (vcOk arr p detour)
      if cand.isEmpty then .nack 0x0203 else if ok.isEmpty then .drop else .ports ok detour

/-- The lowest-numbered port with the least depth (R391). -/
def State.shallowest (s : State) : List Nat → Option Nat
  | [] => none
  | o :: r =>
    match s.shallowest r with
    | none => some o
    | some b => if tget s.fab.qdepth b 0 < tget s.fab.qdepth o 0 then some b else some o

/-- A NACK of a router to a packet's sender; never for an ACK, NACK, ABORT or TIME (R394). It is of this hub's own, so in its own name;
it keeps the packet's partition and world, under which alone R399 lets it back the way the packet came (R381, log 35). -/
def State.routerNack (s : State) (p : Pkt) (code : Nat) : State :=
  if [tyACK, tyNACK, tyABORT, tyTIME].contains (PH.TYPE.of p.hdr) then s
  else s.hubSend (mkPkt [(PH.TYPE, tyNACK), (PH.FLAGS, s.pairFlag), (PH.DEST, PH.SRC.of p.hdr), (PH.SRC, epAddr s.self 0),
    (PH.PART, PH.PART.of p.hdr), (PH.WORLD, PH.WORLD.of p.hdr), (PH.SSEQ, PH.SSEQ.of p.hdr), (PH.MSGID, PH.MSGID.of p.hdr),
    (PH.MTLEN, 32)] (leBytes 2 code ++ zeros 30))

/-- A unicast packet is routed, or waits (R391, R392, R394). -/
def State.routeUni (s : State) (arr : Nat) (p : Pkt) (since : Nat) : State :=
  match s.route arr p with
  | .eject => (s.freed arr p).emit (.eject p)
  | .nack c => (s.freed arr p).routerNack p c
  | .drop => (s.freed arr p).routeDrop arr p
  | .ports l detour =>
    match s.shallowest l with
    | some o => s.branch arr o detour p arr since arr
    | none => s

/-- A multicast packet, stored whole: a copy to each tree port but its arrival port, and one to this hub when it is a member
(R424). A branch that the hop limit or R395 does not let go is dropped, counted and logged (R394). -/
def State.routeMulti (s : State) (arr : Nat) (p : Pkt) : State :=
  let g := pktGroup p
  let s := s.freed arr p
  if !s.fon FAB_MCG.VALID g then s
  else
    let outs := (onesOf 22 (s.fget FAB_MCG.TREE g)).filter fun o => decide (o ≠ arr) && s.inServ o
    let s := outs.foldl (fun s o =>
      if vcOk arr p false o then s.branch arr o false p (copyArr arr o) s.time.run (32 + arr) else s.routeDrop arr p) s
    if s.fon FAB_MCG.LOCAL g then s.emit (.eject p) else s

/-- A packet whose header passed the checks on arrival (R377, R424, R426). -/
def State.routeOne (s : State) (arr : Nat) (p : Pkt) : State :=
  let ty := PH.TYPE.of p.hdr
  if ty = tyTIME ∨ ty = tyABORT then (s.freed arr p).emit (.eject p)
  else if PH.MCAST.on p.hdr then s.routeMulti arr p
  else s.routeUni arr p s.time.run

/-- A packet arrives at the router: its own checks, then its route (R394, R399). -/
def State.routeIn (s : State) (arr : Nat) (p : Pkt) : State :=
  let s := if p.bad then s.countPort OBS_PORT.BAD_END arr else s
  let ty := PH.TYPE.of p.hdr
  if PH.HCRC.of p.hdr ≠ hcrcOf p.hdr ∨ ty = 0 ∨ 13 ≤ ty then (s.freed arr p).countPort OBS_PORT.HCRC_DROP arr
  else if arr < hubPort ∧ s.mayCross arr p = false then (s.freed arr p).filterDrop arr p
  else s.routeOne arr p

/-- A waiting header makes its choice again (R392); a copy keeps its port, while it is in service or, for TIME, while its link is up. -/
def State.routeAgain (s : State) (e : Pkt × Nat × Nat) : State :=
  let arr := e.2.1 % 32
  if 32 ≤ e.2.1 then
    let o := e.2.1 / 32 - 1
    if s.inServ o || (decide (PH.TYPE.of e.1.hdr = tyTIME) && s.portLS01 o) then s.branch arr o false e.1 e.2.1 e.2.2 (32 + arr) else s
  else s.routeUni arr e.1 e.2.2

/-- Every waiting header makes its choice again, oldest first. -/
def State.routeWaiting (s : State) : State :=
  s.fab.waiting.foldl (fun s e => s.routeAgain e) { s with fab := { s.fab with waiting := [] } }

/-- Credit has come for a port: what is on it goes on, then held ABORTs, then the headers that wait (R392, R397, R426). -/
def State.creditCame (s : State) (o : Nat) : State := ((s.crossOn o).abortOn o).routeWaiting

/-- The flits queued for each port, as they stand (R391). -/
def State.setDepths (s : State) (q : List Nat) : State :=
  { s with fab := { s.fab with qdepth := q.zipIdx.foldl (fun t e => tset t e.2 e.1 0) [] } }

/-- The n-th header that waits at this router, or beyond those the packet of the header granted and not yet gone, has been here more
than 2 ms: the rest is dropped, what has gone is ended bad downstream, and it is counted (R394, R446). -/
def headerWaitTimeoutStep (n : Nat) (s : State) : State :=
  s.when s.hubUp fun s =>
    match s.fab.waiting[n]? with
    | some e =>
      if e.2.2 + 2000000 < s.time.run then
        let s := { s with fab := { s.fab with waiting := s.fab.waiting.eraseIdx n } }
        (if 32 ≤ e.2.1 then s else s.freed e.2.1 e.1).countPort OBS_PORT.ROUTE_DROP (e.2.1 % 32)
      else s
    | none =>
      match s.fab.cross[n - s.fab.waiting.length]? with
      | some c =>
        if c.since + 2000000 < s.time.run then (((s.cutShort c).countPort OBS_PORT.ROUTE_DROP (c.frees % 32)).abortOn c.port).routeWaiting
        else s
      | none => s

/-- The HEADER_WAIT_TIMEOUT row. -/
def execHeaderWaitTimeout (n : Nat) (s : State) : Res := .next (headerWaitTimeoutStep n s)

/-! ## FAB_CTL and the tables (R386 to R390, R429) -/

/-- Port of the tray link from slot s to slot s2, and of the backplane link from tray t to tray t2 (R371, R390). -/
def trayPort (s s2 : Nat) : Nat := (s2 + 4 - s - 1) % 4
/-- R390. -/
def backPort (t t2 : Nat) : Nat := 3 + (t2 + 16 - t - 1) % 16

/-- The default mask for a position of the rack (R390); a module's own position needs no route. -/
def defaultMask (t s pos : Nat) : Nat :=
  let t2 := pos / 4
  let s2 := pos % 4
  if t2 = t ∧ s2 = s then 0
  else if t2 = t then 2 ^ trayPort s s2
  else if s2 = s then 2 ^ backPort t t2
  else 2 ^ trayPort s s2 + 2 ^ backPort t t2

/-- The default tables (R390). -/
def State.defaultTables (s : State) : State :=
  let t := s.fget FAB_CTL.TRAY 0
  let sl := s.fget FAB_CTL.SLOT 0
  let rack := s.fget FAB_CTL.RACK 0
  let s := (List.range 64).foldl (fun s p => s.fset FAB_LOCAL.MASK p (defaultMask t sl p)) s
  (List.range 256).foldl (fun s r =>
    let q := rack ^^^ r
    (((s.fset FAB_RACK.EXIT_POS r (q >>> 2)).fset FAB_RACK.EXIT_G r (q % 4)).fput FAB_RACK.VALID r (decide (r ≠ rack))).fset
      FAB_RACK.DETOUR r 0) s

/-- Ports by which another position is reached in one hop more when its default ports are out: another port of the one dimension in which
it differs, or any where it differs in both (R430). -/
def otherMask (t s pos : Nat) : Nat :=
  if pos / 4 = t ∧ pos % 4 = s then 0
  else if pos / 4 = t then 0x7
  else if pos % 4 = s then 0x3FFF8
  else 0x3FFFF

/-- A part of a set that a free value picks, empty only where the set is. -/
def partOf (v m : Nat) : Nat := if v &&& m = 0 then m else v &&& m

/-- The ports in service, as a mask. -/
def State.inServMask (s : State) : Nat := ((List.range 22).filter s.inServ).foldl (fun m p => m + 2 ^ p) 0

/-- The mask of fault-closing mode for a position (R430, log 53): ports in service among the default ones, or with none of them among the
others. Which of them is firmware's choice, a free value. -/
def State.faultMask (s : State) (v pos : Nat) : Nat :=
  let t := s.fget FAB_CTL.TRAY 0
  let sl := s.fget FAB_CTL.SLOT 0
  let d := defaultMask t sl pos &&& s.inServMask
  partOf v (if d = 0 then otherMask t sl pos &&& s.inServMask else d)

/-- The entry of fault-closing mode for a rack (R430, log 53): the default exit; where its link is lost, a detour by own optical ports in
service, or with none of them unreachable. Of another module's link the notices tell, whose form the spec does not give: a free value. -/
def State.faultRack (s : State) (v r : Nat) : State :=
  let q := s.fget FAB_CTL.RACK 0 ^^^ r
  let up := s.inServMask
  let own := up >>> 18
  let lost := if q >>> 2 = s.self % 64 then !up.testBit (18 + q % 4) else v.testBit 0
  let s := (s.fset FAB_RACK.EXIT_POS r (q >>> 2)).fset FAB_RACK.EXIT_G r (q % 4)
  let s := (s.fput FAB_RACK.VALID r (decide (q ≠ 0) && (!lost || decide (own ≠ 0)))).fput FAB_RACK.DETOUR r (lost && decide (q ≠ 0))
  s.fset FAB_RACK.DGMASK r (partOf (bitsOf v 1 4) own)

/-- In fault-closing mode hub firmware recomputes both tables when a port's service changes, each entry in one write (R429, R430). -/
def State.reshape (s : State) : State :=
  if s.fon FAB_CTL.EN 0 && s.fon FAB_CTL.MODE 0 then
    let v := s.freeV (64 * 22 + 256 * 5)
    let s := (List.range 64).foldl (fun s p => s.fset FAB_LOCAL.MASK p (s.faultMask (bitsOf v (22 * p) 22) p)) s
    ((List.range 256).foldl (fun s r => s.faultRack (bitsOf v (1408 + 5 * r) 5) r) s).drew
  else s

/-- Whether a write to `FAB_CTL` is rejected (R387). -/
def State.fabCtlBad (s : State) (v : Nat) : Bool :=
  let moves (f : Fld) : Bool := decide (f.val v ≠ s.fget f 0)
  (s.fon FAB_CTL.EN 0 && (moves FAB_CTL.RACK || moves FAB_CTL.NRACK_M1 || moves FAB_CTL.MODE)) ||
  (FAB_CTL.EN.bit v && decide (FAB_CTL.NRACK_M1.val v < FAB_CTL.RACK.val v))

/-- The lasers of the G ports that are joined to nothing go off (R373, R494). -/
def State.darken (s : State) : State :=
  [18, 19, 20, 21].foldl (fun s p => if (s.joined p).isNone && (s.lp p).laser then s.setLaser p false else s) s

/-- An accepted write to `FAB_CTL`: `EN` becoming 1 fills the default tables, and ports that now lead nowhere are dark. -/
def fabCtlEff (v : Nat) (s : State) : State :=
  let was := s.fon FAB_CTL.EN 0
  let s := (s.putRW .FAB_CTL 0 v).darken
  if s.fon FAB_CTL.EN 0 && !was then s.defaultTables else s

/-- A write to `FAB_CTL`. -/
def fabCtlWriteStep (w : Who) (v : Nat) (s : State) : State :=
  s.when (s.reaches w) fun s => s.regWrite w .FAB_CTL 0 v (fun s => s.fabCtlBad v) (fabCtlEff v)

/-- The FAB_CTL_WRITE row. -/
def execFabCtlWrite (w : Who) (v : Nat) (s : State) : Res := .next (fabCtlWriteStep w v s)

end Sys2Proof.Machine
end

