-- ==== Sys2Proof/Machine/LaneOps.lean ====
section
/-! DEFINITION. A port's lanes: the topology, training from DETECT to READY, lane maps, lane failures, link states and retained
settings (R371 to R374, R434 to R437, R456 to R475, R480 to R491). -/
set_option autoImplicit false
namespace Sys2Proof.Machine

/-! ## Lanes that stay out (R487) -/

/-- Unit number of a lane (R576). -/
def laneUnit (p l : Nat) : Nat := p + (l <<< 5)

/-- A lane that a LANE entry of DEFECT_MAP or of the Cullet list keeps out for the power session (R487). -/
def State.laneBarred (s : State) (p l : Nat) : Bool :=
  s.inCullet 4 (laneUnit p l) ||
  s.boot.defects.any fun e => decide (bitsOf e 0 4 = 4) && decide (bitsOf e 8 32 = laneUnit p l)

/-! ## Two views of one port (R839, R840) -/

/-- A port is in disagreement. -/
def State.disagrees (s : State) (p : Nat) : Bool :=
  decide (s.stage p ≠ 0) && (s.joined p).isSome && (((s.fget GCTL_MGMT.SERVE 0).testBit p) != s.fon FAB_PORT.LINK_UP p)

/-- A view of a port has changed: a disagreement begins, goes on, or ends with its `DISAGREE` bit. -/
def State.viewCheck (s : State) (p : Nat) : State :=
  if s.disagrees p then
    (if tget s.mgmt.disT p 0 = 0 then { s with mgmt := { s.mgmt with disT := tset s.mgmt.disT p (s.time.now + 1) 0 } } else s)
  else
    let d := s.fget GCTL_MGMT.DISAGREE 0
    let s := { s with mgmt := { s.mgmt with disT := tset s.mgmt.disT p 0 0 } }
    if d.testBit p then s.fset GCTL_MGMT.DISAGREE 0 (d - 2 ^ p) else s

/-- STAGE set. -/
def State.setStage (s : State) (p v : Nat) : State := (s.fset LANE_PSTAT.STAGE p v).viewCheck p

/-- A stage of training entered: from DETECT to EQUALISE training blocks go out, with no request in them (R457, R462). -/
def State.enter (s : State) (p v : Nat) : State :=
  let s := s.setStage p v
  if 1 ≤ v ∧ v ≤ 4 then s.sendBlocks p (trainData 0 0 0) else s

/-! ## Service (R400, R429, R470) -/

/-- A notice that a port's service has changed goes to every other module of the rack; its form is the firmware's, so 32 free bytes
(R429, log 53). -/
def State.floodNotice (s : State) : State :=
  let b := leBytes 32 (s.freeV 256)
  let rack := s.self / 64 * 64
  ((List.range 64).filter fun p => decide (p ≠ s.self % 64)).foldl
    (fun s p => s.beginHub (mkXfer .hub none 0 (rack + p) 0 tyMGMT 0 1 0 32 (.lit b))) s.drew

/-- `INSERV` follows `LINK_UP` and `DOWN_REQ`; in fault-closing mode a change goes round the rack and reshapes the tables (R400, R429). -/
def State.portService (s : State) (p : Nat) : State :=
  let now := s.inServ p
  if s.fon FAB_PORT.INSERV p = now then s
  else
    let s := s.fput FAB_PORT.INSERV p now
    if s.fon FAB_CTL.EN 0 && s.fon FAB_CTL.MODE 0 then s.floodNotice.reshape else s

/-- `LINK_UP` set or cleared; what was leaving on a port that goes down is cut (R491). -/
def State.linkUp (s : State) (p : Nat) (up : Bool) : State :=
  let s := if up then s else s.cutPort p
  ((s.fput FAB_PORT.LINK_UP p up).viewCheck p).portService p

/-- Lanes in a map. -/
def mapCount (m : Nat) : Nat := (onesOf 5 m).length

/-- A map of a list of lanes. -/
def mapOf (l : List Nat) : Nat := (l.map (2 ^ ·)).foldl (· + ·) 0

/-- A sender's full credit, with every CREDIT total 0 (R470). -/
def State.fullCredit (s : State) (p : Nat) : State :=
  let pools := [0, 1, 2, 3, 4]
  let clr (t : Table Nat) : Table Nat := pools.foldl (fun t k => tset t (p * 8 + k) 0 0) t
  let s := { s with fab := { s.fab with credRx := clr s.fab.credRx, credTx := clr s.fab.credTx } }
  let s := [0, 1, 2, 3].foldl (fun s k => s.setCredit p k 16) s
  s.setCredit p 4 (sharedFlits p)

/-- The settings are copied to the always-on domain (R473). -/
def State.retain (s : State) (p : Nat) : State :=
  let x := s.lp p
  let r : Retained := {
    taps := fiveLanes.map fun l => s.regWord .LANE_TAPS (laneIx p l)
    rx := x.rx.map fun r => (r.adapt, r.slip, r.delay)
    txMap := s.fget LANE_PSTAT.TX_MAP p
    rxMap := s.fget LANE_PSTAT.RX_MAP p
    failed := mapOf (fiveLanes.filter fun l => s.fon LANE_MON.FAILED (laneIx p l))
    pmod := s.fget FAB_PORT.PARTNER p
    pport := x.pid.2.1 }
  (s.setLp p { x with ret := some r }).fset LANE_PSTAT.RETAINED p 1

/-- The fields of a transmit lane's taps. -/
def tapFields : List Fld := [LANE_TAPS.PRE2, LANE_TAPS.PRE1, LANE_TAPS.MAIN, LANE_TAPS.POST1, LANE_TAPS.POST2]

/-- The retained settings are put back: taps, both maps, and each receive lane's adaptation, slip and delay (R474). -/
def State.restore (s : State) (p : Nat) (r : Retained) : State :=
  let x := s.lp p
  let s := s.setLp p { x with rx := (x.rx.zip r.rx).map fun e =>
    { e.1 with adapt := e.2.1, slip := e.2.2.1, delay := e.2.2.2 } }
  let s := (s.fset LANE_PSTAT.TX_MAP p r.txMap).fset LANE_PSTAT.RX_MAP p r.rxMap
  (fiveLanes.zip r.taps).foldl (fun s e =>
    (LANE_TAPS.PRESET :: tapFields).foldl (fun s f => s.fset f (laneIx p e.1) (f.val e.2)) s) s

/-- Logical lane numbers of a receive map (R435). -/
def State.setLogical (s : State) (p m : Nat) : State :=
  fiveLanes.foldl (fun s l =>
    s.fset LANE_MON.LOGICAL (laneIx p l) (if m.testBit l then (onesOf l m).length else 7)) s

/-! ## Notices that are repeated until answered (R453) -/

/-- A request notice goes out and is repeated until its answer. -/
def State.ask (s : State) (p code arg : Nat) : State :=
  let x := s.lp p
  (s.setLp p { x with asked := x.asked.filter (fun e => decide (e.1 ≠ code)) ++ [(code, arg, s.time.now)] }).notice p code arg

/-- The answers to some requests have arrived. -/
def State.answered (s : State) (p : Nat) (codes : List Nat) : State :=
  let x := s.lp p
  s.setLp p { x with asked := x.asked.filter fun e => !codes.contains e.1 }

/-- The receiver asks for a map (R468, R488). -/
def State.askMap (s : State) (p m : Nat) : State := (s.setLp p { s.lp p with want := some m }).ask p 1 m

/-- The port enters READY once a map is in force both ways (R470); with `LS2_REQ` 1 it asks for LS2 from there (R483). -/
def State.tryReady (s : State) (p : Nat) : State :=
  let x := s.lp p
  if x.rxIn && x.txIn && decide (5 ≤ s.stage p) && decide (s.stage p ≤ 7) then
    let s := (s.setStage p 8).fset LANE_PSTAT.LSTATE p 0
    let s := (s.setLp p { x with asked := [], want := none }).fullCredit p
    let s := (s.retain p).linkUp p true
    if s.fon LANE_PCTL.LS2_REQ p then s.ask p 5 0 else s
  else s

/-! ## Training (R456 to R475) -/

/-- Training starts: the link goes down, each lane begins again, and only the lanes barred for the session stay failed (R472,
R474, R487). A link session and its keys are kept through LS2 alone (R483). -/
def State.trainStart (s : State) (p : Nat) (useRet gate : Bool) : State :=
  let back := useRet && !s.fon LANE_PSTAT.RETAINED p
  let x := s.lp p
  let keep := decide (s.lstate p = 2) && x.session
  let y := { LanePort.fresh with
    useRet := useRet, full := back, gate := gate || back, laser := x.laser, opt := x.opt, ret := x.ret, txRd := x.txRd,
    skipIn := x.skipIn, session := keep, txKey := if keep then x.txKey else [], rxKey := if keep then x.rxKey else [] }
  let s := (s.setLp p y).linkUp p false
  let s := match x.ret with
    | some r => if y.fast then s.restore p r else s
    | none => s
  let s := fiveLanes.foldl (fun s l => s.fput LANE_MON.FAILED (laneIx p l) (s.laneBarred p l)) s
  let s := (s.fset LANE_PSTAT.LSTATE p 3).fput LANE_PSTAT.FULL p back
  (if (s.joined p).isSome then s.setLaser p true else s).enter p 1

/-- A training fails, or a port goes down: it is out of service, not trained, until `GO` (R456, R477, R488). -/
def State.trainFail (s : State) (p : Nat) : State := (s.setStage p 11).fset LANE_PSTAT.LSTATE p 3

/-- The training falls back to a full one, with the gate (R474). -/
def State.fallBack (s : State) (p : Nat) : State :=
  (s.setLp p { s.lp p with full := true, gate := true }).fset LANE_PSTAT.FULL p 1

/-- Training as `LANE_PCTL` has it (R472). -/
def State.trainAgain (s : State) (p : Nat) : State := s.trainStart p (s.fon LANE_PCTL.USE_RET p) (s.fon LANE_PCTL.GATE p)

/-- Lanes that go on in this training. -/
def State.going (s : State) (p : Nat) : List Nat :=
  let x := s.lp p
  fiveLanes.filter fun l => (x.lane l).aligned && !(x.lane l).out && !s.fon LANE_MON.FAILED (laneIx p l)

/-- A lane fails this training, logged with a code; an active lane of retained settings makes the training a full one (R458, R464,
R465, R474, R496). -/
def State.laneOut (s : State) (p l code : Nat) : State :=
  let x := s.lp p
  let s := (s.setLp p (x.setLane l { x.lane l with out := true })).log { code := code, kind := 4, unit := laneUnit p l }
  if x.fast && (s.fget LANE_PSTAT.RX_MAP p).testBit l then s.fallBack p else s

/-- ALIGN ends when every lane is aligned or out (R458). -/
def State.alignDone (s : State) (p : Nat) : State :=
  let x := s.lp p
  let rest := fiveLanes.any fun l =>
    !s.fon LANE_MON.FAILED (laneIx p l) && !(x.lane l).aligned && !(x.lane l).out
  if s.stage p ≠ 2 ∨ rest = true then s
  else if (s.going p).isEmpty then s.trainFail p
  else (s.setLp p { x with pid := (0, 0, 0) }).enter p 3

/-- First preset request of a lane (R464, R657). -/
def State.firstPreset (s : State) (p l : Nat) : Nat :=
  if s.fon GCTL_BOOT_STAT.SAFE_MODE 0 then 4 else (cellAt s.boot.cal (0x5000 + 16 * laneIx p l)).toNat % 8

/-- A request for a lane goes out and is counted; until its answer the receiver makes no other for that lane (R463). -/
def State.request (s : State) (p l cmd arg : Nat) : State :=
  let x := s.lp p
  let r := x.lane l
  (s.setLp p (x.setLane l { r with
    reqs := r.reqs + 1, reqT := if r.reqs = 0 then s.time.now else r.reqT, pend := true })).train p l cmd arg

/-- EQUALISE begins: each lane's first request is its PRESET (R464). -/
def State.equalise (s : State) (p : Nat) : State :=
  let s := fiveLanes.foldl (fun s l => s.fset LANE_TAPS.REQS (laneIx p l) 0) (s.enter p 4)
  (s.going p).foldl (fun s l => s.request p l 1 (s.firstPreset p l)) s

/-- EQUALISE ends when every lane that goes on has its DONE_ACK. -/
def State.equalised (s : State) (p : Nat) : State :=
  if s.stage p ≠ 4 then s
  else if (s.going p).isEmpty then s.trainFail p
  else if (s.going p).all fun l => ((s.lp p).lane l).eqDone then s.setStage p 5
  else s

/-- The gate begins: each lane's stressed sampling points are set from its margins, phase earlier and later, threshold up and down
(R467, R651). -/
def State.enterGate (s : State) (p : Nat) : State :=
  (s.going p).foldl (fun s l => s.note 7 (laneUnit p l + (ofLE (cellsRead s.boot.cal (0x5000 + 16 * laneIx p l + 1) 4) <<< 16)))
    (s.setStage p 7)

/-- After the keys: the gate, or without it the map that R468 asks for then; a retained map with a lane that did not come up cannot be
asked for (log 62). -/
def State.afterKeys (s : State) (p : Nat) : State :=
  let x := s.lp p
  if x.gate then s.enterGate p
  else
    let up := (s.going p).filter fun l => (x.lane l).skewed
    let low := mapOf (up.take 4)
    if up.isEmpty then s.trainFail p
    else s.askMap p (match x.ret with
      | some r => if r.rxMap ≠ 0 ∧ (onesOf 5 r.rxMap).all up.contains = true then r.rxMap else low
      | none => low)

/-! ## Lane failures and maps (R487 to R490) -/

/-- Whether a lane can be the direction's spare: it passed training, has not failed, and is not in the map (R435, R490). -/
def State.spareLane (s : State) (p m : Nat) : Option Nat :=
  fiveLanes.find? fun l => !m.testBit l && ((s.lp p).lane l).skewed && !s.fon LANE_MON.FAILED (laneIx p l) &&
    (!(s.lp p).gate || s.fon LANE_MON.GATE_OK (laneIx p l))

/-- A receive lane fails: it is logged, and where the map in force or asked for holds it, the spare replaces it there, or it is left out,
or with no lane left the port goes down (R487, R488). -/
def State.laneFail (s : State) (p l reading : Nat) : State :=
  if s.fon LANE_MON.FAILED (laneIx p l) then s
  else
    let s := (s.fset LANE_MON.FAILED (laneIx p l) 1).log { code := 0x0220, kind := 4, unit := laneUnit p l, data := reading }
    let x := s.lp p
    let m := match x.want with | some w => w | none => if x.rxIn then s.fget LANE_PSTAT.RX_MAP p else 0
    if m.testBit l = true ∧ s.hears p = true then
      let m2 := m - 2 ^ l + (match s.spareLane p m with | some k => 2 ^ k | none => 0)
      if m2 = 0 then ((s.linkUp p false).trainFail p).logC 0x0223
      else s.askMap p m2
    else s

/-- The receive map changes at a MAP_SWITCH (R489). -/
def State.newRxMap (s : State) (p m : Nat) : State :=
  let old := s.fget LANE_PSTAT.RX_MAP p
  let s := (s.fset LANE_PSTAT.RX_MAP p m).setLogical p m
  let s := (s.setLp p { s.lp p with rxIn := true, want := none }).answered p [1, 13]
  if s.stage p = 8 then
    let s := if mapCount m < mapCount old then s.logC 0x0222
      else
        match fiveLanes.find? fun l => m.testBit l && !old.testBit l with
        | some l => s.log { code := 0x0221, kind := 4, unit := laneUnit p l }
        | none => s
    s.retain p
  else s.tryReady p

/-- The transmit map changes: MAP_SWITCH goes out, and `LANES` counts the lanes; a lane that the partner leaves out of a running map
is no spare (R436, R489, log 62). -/
def State.newTxMap (s : State) (p m : Nat) : State :=
  let old := s.fget LANE_PSTAT.TX_MAP p
  let x := s.lp p
  let good := if s.stage p = 8 then (x.txDone.zipIdx).map fun e => e.1 && (m.testBit e.2 || !old.testBit e.2) else x.txDone
  let s := ((s.notice p 2 m).fset LANE_PSTAT.TX_MAP p m).fset FAB_PORT.LANES p (mapCount m)
  let s := s.setLp p { x with txIn := true, txDone := good }
  if s.stage p = 8 then s.retain p else s.tryReady p

/-! ## Link states (R480 to R483) -/

/-- The port enters LS2: `LINK_UP` falls and the lasers go off (R483, R494). -/
def State.enterLs2 (s : State) (p : Nat) : State :=
  ((((s.linkUp p false).setStage p 9).fset LANE_PSTAT.LSTATE p 2).setLaser p false).answered p [5]

/-- The port leaves LS2: it trains from its retained settings, without the gate, whose time its bound leaves out (R480, R483, log 63). -/
def State.leaveLs2 (s : State) (p : Nat) : State := if s.lstate p = 2 then s.trainStart p true false else s

end Sys2Proof.Machine
end

