-- ==== Sys2Proof/Machine/Wake.lean ====
section
/-! DEFINITION. Waking to PS0, which doorbells, due counts, packets that need a core, signal on a port and the management port all do
(R369, R718). -/
set_option autoImplicit false
namespace Sys2Proof.Machine

/-- The stacks in use enter self-refresh or leave it (R323). -/
def State.selfRefresh (s : State) (b : Bool) : State :=
  (List.range 12).foldl (fun s k =>
    if s.fon MEM_STK_STATUS.TRAINED k && !s.fon MEM_STK_STATUS.FENCED k then s.fput MEM_STK_STATUS.SREF k b else s) s

/-- The ports that LS2_REQ does not hold there leave LS2 (R483, R718). -/
def State.portsWake (s : State) : State :=
  (List.range 22).foldl (fun s p => if s.fon LANE_PCTL.LS2_REQ p then s else (s.answered p [5]).leaveLs2 p) s

/-- A wake to PS0: heaters stop, and from PS3 stacks leave self-refresh and ports LS2 (R718, R721). -/
def State.wake (s : State) : State :=
  if 1 ≤ s.fget PWR_PSTATE.STATE 0 ∧ s.fget PWR_PSTATE.STATE 0 ≤ 3 then
    let s := if s.fget PWR_PSTATE.STATE 0 = 3 then (s.selfRefresh false).portsWake else s
    ((s.fset PWR_PSTATE.STATE 0 0).fset PWR_PSTATE.LEHR_W 0 0).fset PWR_PSTATE.LEHR_SHORT 0 0
  else s

/-- A module in PS0, or not in service at all, needs no wake. -/
def State.awake (s : State) : Bool := decide (s.fget PWR_PSTATE.STATE 0 = 0)

end Sys2Proof.Machine
end

