-- ==== Sys2Proof/Machine/Attention.lean ====
section
/-! DEFINITION. Attention: the local descriptors, shipments, the query dispatcher and the query service (R233 to R282, R735,
R869, R875). -/
set_option autoImplicit false
namespace Sys2Proof.Machine

/-- A write to a partition's sequence-table register (R233, R234). -/
def gctlSeqtabWriteStep (w : Who) (p v : Nat) (s : State) : State :=
  s.when (s.reaches w) fun s =>
    s.regWrite w .GCTL_SEQTAB p v
      (fun s => s.fon GCTL_SEQTAB.EN p && (decide (GCTL_SEQTAB.BASE.val v ≠ s.fget GCTL_SEQTAB.BASE p) ||
        decide (GCTL_SEQTAB.N_M1.val v ≠ s.fget GCTL_SEQTAB.N_M1 p)))
      fun s => s.putRW .GCTL_SEQTAB p v

/-- The GCTL_SEQTAB_WRITE row. -/
def execGctlSeqtabWrite (w : Who) (p v : Nat) (s : State) : Res := need (wfPart p) (gctlSeqtabWriteStep w p v s)

/-! ## Local attention -/

/-- What a descriptor got, or its failure. -/
def State.orFail {α : Type} (r : Rsd) (g : Got α) (k : α → State → State) : State :=
  match g.1 with
  | .ok a => k a g.2
  | .error e => g.2.attFail r.back e

/-- A span outside its window fails the descriptor (R137). -/
def State.window {α : Type} (s : State) (r : Rsd) (l : List Span) (k : State → Got α) : Got α :=
  match s.badSpan r l with
  | some p => (.error (0x0310, (p.at_ % 2097152).toNat), s)
  | none => k s

/-- What an ASELECT asks. -/
def Sel.ofDesc (d : Nat) : Sel :=
  ⟨ASEL.LAYER.of d, ASEL.HEAD.of d, ASEL.NTOK.of d, ASEL.B_M1.of d + 1, ASEL.SBK_M1.of d + 1, ASEL.SINK.of d,
    ASEL.WIN.of d, false, true⟩

/-- The page list of an ASELECT: lookup, the checks of R869 in their order, selection, and its window (R254, R258, R261). -/
def State.aselect (s : State) (r : Rsd) (d : Nat) : Got (List Nat) :=
  let a := s.accOf r.ctx 0
  let g := ASEL.G_M1.of d + 1
  let line := unitAddr d r.iter ASEL.Q_ADDR 0
  (s.seqLookup a (ASEL.SEQ_SLOT.of d) (ASEL.SEQ_ID.of d)).then fun q s =>
    let D := seqDim q
    let kvf := SEQD.KVF.on q
    s.window r (querySpans line (ASEL.Q_SOFF.of d) g D kvf) fun s =>
      if seqParamBad q (ASEL.LAYER.of d) (ASEL.HEAD.of d) then attBad 0x0808 s
      else (s.freshSeq a q (ASEL.LAYER.of d) (ASEL.NTOK.of d)).then fun _ s =>
        let b := s.queryBytes r.site line (ASEL.Q_SOFF.of d) g D kvf
        (s.selectPages a q (queryVals kvf g D b.1 b.2) (Sel.ofDesc d)).then fun l s =>
          s.window r [rowsSpan (unitAddr d r.iter ASEL.OUT_ADDR 1) 0 1 (4 + 4 * l.length)] fun s => (.ok l, s)

/-- A page list in core store (R258). -/
def listBytes (l : List Nat) : List Byte := leBytes 4 l.length ++ l.flatMap (leBytes 4)

/-- An ASELECT runs: it writes its page list (R258). -/
def aselectEffect (f : FireIn) : Effect := fun r d s =>
  s.withEcc r.back f.ecc fun s =>
    State.orFail r (s.aselect r d) fun l s =>
      (s.csWrite r.site (32 * unitAddr d r.iter ASEL.OUT_ADDR 1) (listBytes l)).launchFlight r d fun f => { f with ready := true }

/-- An ASELECT fires. -/
def aselectStep (lcore ring seq : Nat) (f : FireIn) (s : State) : State := s.fire lcore ring seq 0x60 f (aselectEffect f)

/-- The ASELECT row. -/
def execAselect (lcore ring seq : Nat) (f : FireIn) (s : State) : Res :=
  need (wfCore lcore && wfRing ring) (aselectStep lcore ring seq f s)

/-- The pages an AGATHER names: a range, or a list in core store (R258, R259). -/
def State.gatherList (s : State) (r : Rsd) (d : Nat) : Got (List Nat) :=
  if AGA.RANGE.on d then (.ok ((List.range (AGA.NP_M1.of d + 1)).map (AGA.P_FIRST.of d + ·)), s)
  else
    let line := unitAddr d r.iter AGA.LIST_ADDR 0
    let n := leAt (s.csRead r.site (32 * line) 4) 0 4
    s.window r [rowsSpan line 0 1 (4 + 4 * n)] fun s => (.ok (wordsOf (s.csRead r.site (32 * line + 4) (4 * n)) n), s)

/-- The sequence and pages of an AGATHER, judged in the order of R869. -/
def State.agather (s : State) (r : Rsd) (d : Nat) : Got (Nat × List Nat) :=
  let a := s.accOf r.ctx 0
  (s.seqLookup a (AGA.SEQ_SLOT.of d) (AGA.SEQ_ID.of d)).then fun q s =>
    (s.gatherList r d).then fun l s =>
      s.window r (agaSlotSpans d r.iter l.length (seqDim q) (SEQD.KVF.on q)) fun s =>
        if seqParamBad q (AGA.LAYER.of d) (AGA.HEAD.of d) || l.any (fun p => decide (seqNp q (AGA.NTOK.of d) ≤ p)) then attBad 0x0808 s
        else (s.freshSeq a q (AGA.LAYER.of d) (AGA.NTOK.of d)).then fun _ s => (.ok (q, l), s)

/-- An AGATHER is judged and takes its channel; its pages start one by one (R152, R259, R261). -/
def agatherEffect (f : FireIn) : Effect := fun r d s =>
  s.withEcc r.back f.ecc fun s =>
    State.orFail r (s.agather r d) fun l s => s.launchFlight r d fun f => { f with list := l.2, aux := l.1, ready := l.2.isEmpty }

/-- An AGATHER fires. -/
def agatherStep (lcore ring seq : Nat) (f : FireIn) (s : State) : State := s.fire lcore ring seq 0x61 f (agatherEffect f)

/-- The AGATHER row. -/
def execAgather (lcore ring seq : Nat) (f : FireIn) (s : State) : Res :=
  need (wfCore lcore && wfRing ring) (agatherStep lcore ring seq f s)

/-! ## Shipping (R243 to R250) -/

/-- The source bytes of a shipment (R244). -/
def State.shipBytes (s : State) (r : Rsd) (d : Nat) : Got (List Byte) :=
  let a := byteAddr d r.iter SHIP.SRC_ADDR 0
  if SHIP.SRC_DM.on d then s.attRead (s.accOf r.ctx 0) a (akvLen d) else (.ok (s.csRead r.site a (akvLen d)), s)

/-- A local shipment is judged and written under the command's own rights (R247, R248). -/
def State.shipLocal (s : State) (r : Rsd) (d : Nat) : Got Unit :=
  let x := Ship.ofDesc d
  let a := s.accOf r.ctx 0
  (s.seqLookup a x.slot x.id).then fun q s => s.shipTo x q a MEM_RGN.WR fun s => s.shipBytes r d

/-- A remote shipment begins as one message, its header before its source's bytes, which are read each time a packet of it goes out; it
awaits its KVACK (R246, R250, R251). -/
def State.shipRemote (s : State) (r : Rsd) (d : Nat) : State :=
  let tag := s.att.nextTag % 2 ^ 32
  let fid := s.core.fires
  let s := s.launchFlight r d id
  let s := { s with att := { s.att with
    nextTag := s.att.nextTag + 1
    ships := s.att.ships ++ [({ ktag := tag, lcore := r.lcore, ring := r.ring, seq := r.seq, fid := fid } : ShipOut)] } }
  let a := byteAddr d r.iter SHIP.SRC_ADDR 0
  let src : Src := if SHIP.SRC_DM.on d then .dm (s.ctxPart r.ctx) (s.ctxWorld r.ctx) a else .cs r.site a
  let x := s.flightXfer r fid (SHIP.DMOD.of d) (SHIP.DEP.of d) tyPUT 0 (64 + akvLen d) src
  s.beginFor r.back { x with lead := leBytes 64 ((Ship.ofDesc d).toHdr tag) }

/-- An AKVSHIP runs. -/
def akvshipEffect (f : FireIn) : Effect := fun r d s =>
  if SHIP.LOCAL.on d then
    s.withEcc r.back f.ecc fun s => State.orFail r (s.shipLocal r d) fun _ s => s.launchFlight r d fun f => { f with ready := true }
  else s.shipRemote r d

/-- An AKVSHIP fires. -/
def akvshipStep (lcore ring seq : Nat) (f : FireIn) (s : State) : State := s.fire lcore ring seq 0x63 f (akvshipEffect f)

/-- The AKVSHIP row. -/
def execAkvship (lcore ring seq : Nat) (f : FireIn) (s : State) : Res :=
  need (wfCore lcore && wfRing ring) (akvshipStep lcore ring seq f s)

/-! ## The query dispatcher (R264 to R268, R274 to R281) -/

/-- The header of a shard query (R268). -/
def queryHdr (d tag entry : Nat) : Nat :=
  packFields [(QH.QTAG, tag), (QH.SEQ_SLOT, SHL.SEQ_SLOT.of entry), (QH.SEQ_ID, SHL.SEQ_ID.of entry), (QH.LAYER, AQ.LAYER.of d),
    (QH.HEAD, AQ.HEAD.of d), (QH.G_M1, AQ.G_M1.of d), (QH.NTOK, AQ.NTOK.of d), (QH.B_M1, AQ.B_M1.of d), (QH.SBK_M1, AQ.SBK_M1.of d),
    (QH.SINK, AQ.SINK.of d), (QH.WIN, AQ.WIN.of d), (QH.EXACT, b2n (AQ.EXACT.on d)), (QH.KVF, b2n (AQ.KVF.on d)),
    (QH.D_CODE, AQ.D_CODE.of d), (QH.SSHIFT, AQ.SSHIFT.of d), (QH.SM_SCALE, AQ.SM_SCALE.of d)]

/-- The rows and scales that follow the header, padded to 32 bytes (R268). -/
def queryRows (b : List Byte × List Byte) : List Byte :=
  let l := b.1 ++ b.2
  l ++ zeros (pad32 l.length - l.length)

/-- An AQUERY hands one shard query for each shard to the dispatcher (R264, R265, R274). -/
def aqueryEffect (f : FireIn) : Effect := fun r d s =>
  s.withEcc r.back f.ecc fun s =>
    let n := AQ.NSH_M1.of d + 1
    let g := AQ.G_M1.of d + 1
    let D := dimOf (AQ.D_CODE.of d)
    let rows := queryRows (s.queryBytes r.site (unitAddr d r.iter AQ.Q_ADDR 0) (AQ.Q_SOFF.of d) g D (AQ.KVF.on d))
    let sl := s.csRead r.site (32 * unitAddr d r.iter AQ.SL_ADDR 2) (32 * n)
    let fid := s.core.fires
    let tag (c : Nat) : Nat := (s.att.nextTag + c) % 2 ^ 32
    let qs := (List.range n).map fun c =>
      let e := leAt sl (32 * c) 32
      ({ qtag := tag c, lcore := r.lcore, ring := r.ring, seq := r.seq, fid := fid, ctx := r.ctx, shard := c, entry := e,
         hdr := queryHdr d (tag c) e, rows := rows, target := 0, sent := false, tSent := 0, status := 0 } : ShardQ)
    let s := s.launchFlight r d fun f => { f with list := List.range n }
    { s with att := { s.att with nextTag := s.att.nextTag + n, shards := s.att.shards ++ qs } }

/-- An AQUERY fires. -/
def aqueryStep (lcore ring seq : Nat) (f : FireIn) (s : State) : State := s.fire lcore ring seq 0x62 f (aqueryEffect f)

/-- The AQUERY row. -/
def execAquery (lcore ring seq : Nat) (f : FireIn) (s : State) : Res :=
  need (wfCore lcore && wfRing ring) (aqueryStep lcore ring seq f s)

/-- Module and endpoint of a shard query's target (R265). -/
def ShardQ.dest (q : ShardQ) (t : Nat) : Nat × Nat :=
  if t = 0 then (SHL.MOD.of q.entry, SHL.EP.of q.entry) else (SHL.ALT_MOD.of q.entry, SHL.ALT_EP.of q.entry)

/-- A shard query replaced. -/
def State.setShard (s : State) (q : ShardQ) : State :=
  { s with att := { s.att with shards := s.att.shards.map fun p => if p.qtag = q.qtag then q else p } }

/-- The AQUERY that a shard query works for, with its list. -/
def State.shardOf (s : State) (q : ShardQ) : Option (Rsd × Flight) :=
  match s.rsd q.lcore q.ring q.seq with
  | some r => (r.flight q.fid).map fun f => (r, f)
  | none => none

/-- An AQUERY fails with a code: its context is reset, which discards its other shard queries (R277, R279, R280). -/
def State.failQuery (s : State) (q : ShardQ) (code : Nat) : State :=
  match s.shardOf q with
  | some (r, f) => s.failDesc { r with pos := f.pos, loops := [(0, 0, f.iter)] } code 0
  | none => s

/-- The n-th shard query goes out to its target once the dispatcher has room for it (R274). -/
def shardQuerySendStep (n : Nat) (s : State) : State :=
  s.when (s.live && decide ((s.att.shards.filter (·.sent)).length < 16384)) fun s =>
    match s.att.shards[n]? with
    | none => s
    | some q =>
      if q.sent then s
      else
        let t := q.dest q.target
        let pay := leBytes 64 q.hdr ++ q.rows
        let x := mkXfer (.query q.qtag) (some q.ctx) ((s.ctxEp q.ctx).getD 0) t.1 t.2 tyQUERY (s.ctxPart q.ctx) (s.ctxWorld q.ctx) 0
          pay.length (.lit pay)
        match s.begin x with
        | some s => s.setShard { q with sent := true, tSent := s.time.thaw }
        | none => s.failQuery q 0x030A

/-- The SHARD_QUERY_SEND row. -/
def execShardQuerySend (n : Nat) (s : State) : Res := .next (shardQuerySendStep n s)

/-- Status word of a shard (R266). -/
def statusWord (status : Nat) (alt degr : Bool) (nsel : Nat) : Nat := status + (b2n alt <<< 16) + (b2n degr <<< 17) + (nsel <<< 24)

/-- States as they lie in results: bytes 8 to 31 of each are zero (R266). -/
def resultStates (len g : Nat) (b : List Byte) : List Byte :=
  (List.range g).flatMap fun k => slice b (k * len) 8 ++ zeros 24 ++ slice b (k * len + 32) (len - 32)

/-- A shard's states and status word are written; with the last shard the AQUERY's work is done (R266, R275). -/
def State.closeShard (s : State) (q : ShardQ) (states : List Byte) (word : Nat) : State :=
  let s := { s with att := { s.att with shards := s.att.shards.filter fun p => decide (p.qtag ≠ q.qtag) } }
  match s.shardOf q with
  | none => s
  | some (r, f) =>
    let d := f.word
    let base := 32 * unitAddr d f.iter AQ.RES_ADDR 1
    let one := stateLen (dimOf (AQ.D_CODE.of d))
    let len := (AQ.G_M1.of d + 1) * one
    let l := f.list.filter fun c => decide (c ≠ q.shard)
    ((s.csWrite r.site (base + q.shard * len) (resultStates one (AQ.G_M1.of d + 1) states)).csWrite r.site
      (base + (AQ.NSH_M1.of d + 1) * len + 8 * q.shard) (leBytes 8 word)).setFlight r { f with list := l, ready := l.isEmpty }

/-- A target of a shard is lost: the query goes to the next one, or the AQUERY fails, or the empty state stands in (R276 to
R278). -/
def State.targetLost (s : State) (q : ShardQ) : State :=
  if q.target = 0 ∧ SHL.ALT_EN.on q.entry = true then s.setShard { q with target := 1, sent := false }
  else match s.shardOf q with
    | none => s
    | some (r, f) =>
      if AQ.POLICY.on f.word then
        let D := dimOf (AQ.D_CODE.of f.word)
        let b := (List.range (AQ.G_M1.of f.word + 1)).flatMap fun _ => stateBytes (emptyAtt D)
        (s.closeShard q b (statusWord q.status false true 0)).diverge r.ctx 1
      else s.failQuery q 0x0806

/-- The n-th shard query has had no QRESP for `QTO` × 16 µs of machine count, which a debug freeze alone stops (R276, R819). -/
def qtoExpiryStep (n : Nat) (s : State) : State :=
  s.when s.hubUp fun s =>
    match s.att.shards[n]? with
    | none => s
    | some q =>
      match s.shardOf q with
      | some (_, f) => if q.sent && decide (q.tSent + AQ.QTO.of f.word * 16000 ≤ s.time.thaw) then s.targetLost q else s
      | none => s

/-- The QTO_EXPIRY row. -/
def execQtoExpiry (n : Nat) (s : State) : Res := .next (qtoExpiryStep n s)

/-! ## Messages of the attention services -/

/-- A message's payload, put together by address. -/
def Msg.payload (m : Msg) : List Byte :=
  cellsRead (m.data.foldl (fun c e => cellsWrite c e.1 e.2) []) 0 m.total

/-- A packet's payload kept in its message. -/
def keepPay (p : Pkt) (m : Msg) (s : State) : MemRes :=
  ⟨0, [], s.setMsg { m with data := m.data ++ [(PH.RADDR.of p.hdr, p.pay)] }⟩

/-- A packet of a message that is kept until it closes; `k` acts on the whole of one that closed complete. -/
def State.arriveMsg (s : State) (p : Pkt) (k : DStream → List Byte → State → State) : State :=
  s.arrive p fun t s => s.withMsg p t false (keepPay p) fun m s => if m.failed then s else k t m.payload s

/-- A QRESP that matches nothing is discarded and counted (R280). -/
def State.qrespUnmatched (s : State) : State := s.fsat OBS_HUB.QRESP_UNM 0 1

/-- The kind of a QRESP payload. -/
def qrKind (p : Pkt) : Nat := QR.KIND.of (ofLE (p.pay.take 64))

/-- Statuses that lose a target and fail nothing (R276). -/
def retryable (c : Nat) : Bool := [0x0801, 0x0804, 0x080A].contains c

/-- The target of a shard that a packet's sender is, among those the query was sent to: a mirror pair's members count as one (R265, R276,
R280). -/
def State.answerer (s : State) (q : ShardQ) (p : Pkt) : Option Nat :=
  let is (t : Nat) : Bool := decide (s.foldMod (pktMod p) = s.foldMod (q.dest t).1) && decide (pktEp p = (q.dest t).2)
  if q.sent && is q.target then some q.target else if decide (q.target = 1) && is 0 then some 0 else none

/-- A PARTIAL that may supply a shard's states: of kind 0, and with status 0 its shape is the query's and its length that shape's. The spec
does not say what makes a QRESP valid (DESIGN CHOICE, log 85). -/
def partialValid (q : ShardQ) (h : Nat) (b : List Byte) : Bool :=
  decide (QR.KIND.of h = 0) && (decide (QR.STATUS.of h ≠ 0) ||
    (decide (QR.G_M1.of h = QH.G_M1.of q.hdr) && decide (QR.D_CODE.of h = QH.D_CODE.of q.hdr) &&
      decide (b.length = 64 + (QR.G_M1.of h + 1) * stateLen (dimOf (QR.D_CODE.of h)))))

/-- A valid QRESP for a shard (R276, R279). -/
def State.shardAnswer (s : State) (q : ShardQ) (t h : Nat) (b : List Byte) : State :=
  let st := QR.STATUS.of h
  if st = 0 then s.closeShard q (b.drop 64) (statusWord 0 (decide (t = 1)) false (QR.NSEL.of h))
  else if retryable st then
    let q := { q with status := st }
    if t = q.target ∧ q.sent = true then s.targetLost q else s.setShard q
  else s.failQuery q st

/-- A PARTIAL arrives at the dispatcher; one that is not valid is discarded (R276 to R280, log 85). -/
def State.takePartial (s : State) (p : Pkt) (b : List Byte) : State :=
  let h := ofLE (b.take 64)
  match s.att.shards.find? fun q => decide (q.qtag = QR.TAG.of h) with
  | none => s.qrespUnmatched
  | some q =>
    match s.answerer q p with
    | some t => if partialValid q h b then s.shardAnswer q t h b else s
    | none => s.qrespUnmatched

/-- A QRESP of kind PARTIAL arrives. -/
def qrespPartialStep (p : Pkt) (s : State) : State :=
  s.when (decide (PH.TYPE.of p.hdr = tyQRESP) && decide (qrKind p ≠ 1)) fun s =>
    s.arriveMsg p fun _ b s => s.takePartial p b

/-- The QRESP_PARTIAL row. -/
def execQrespPartial (p : Pkt) (s : State) : Res := .next (qrespPartialStep p s)

/-- A KVACK ends the wait of its shipment, or fails its descriptor with its status (R250). -/
def State.takeKvack (s : State) (b : List Byte) : State :=
  let h := ofLE (b.take 64)
  match s.att.ships.find? fun k => decide (k.ktag = QR.TAG.of h) with
  | none => s.qrespUnmatched
  | some k =>
    let s := { s with att := { s.att with ships := s.att.ships.filter fun j => decide (j.ktag ≠ k.ktag) } }
    match s.rsd k.lcore k.ring k.seq with
    | none => s
    | some r =>
      match r.flight k.fid with
      | none => s
      | some f =>
        if QR.STATUS.of h = 0 then s.setFlight r { f with ready := true }
        else s.failDesc { r with pos := f.pos, loops := [(0, 0, f.iter)] } (QR.STATUS.of h) 0

/-- A KVACK arrives. -/
def kvackStep (p : Pkt) (s : State) : State :=
  s.when (decide (PH.TYPE.of p.hdr = tyQRESP) && (isVoid p || decide (qrKind p = 1))) fun s =>
    s.arriveMsg p fun _ b s => s.takeKvack b

/-- The KVACK row. -/
def execKvack (p : Pkt) (s : State) : Res := .next (kvackStep p s)

/-! ## The query service (R42, R43, R47 to R50, R270 to R273, R735) -/

/-- The module serves queries and shipments now: CACHE is in effect, no change away is pending, and it has not withdrawn (R42,
R48 to R50, R594). -/
def State.serves (s : State) : Bool :=
  decide (s.fget GCTL_ROLE.ROLE_ACT 0 = 3) && !s.fon GCTL_ROLE.PEND 0 && !s.fon SPARE_ESC.WITHDRAWN 0

/-- Whether a serving cluster of a partition and world exists (R735). -/
def State.hasServer (s : State) (part world : Nat) : Bool :=
  (List.range 256).any fun cl => s.serving cl && (s.fget SEC_PART.CL part).testBit cl &&
    decide (s.fget SEC_CL_WORLD.W (cl / 64) / 2 ^ (cl % 64) % 2 = world)

/-- Codes that reset the service context whose access met them: those that are no refusal by its region rights (R247, R311, R314). -/
def serviceResets (code : Nat) : Bool := decide (0x0104 ≤ code) && decide (code < 0x0200)

/-- The service context of an access that failed is reset (R311). -/
def State.serviceReset (s : State) (ctx : Nat) (e : Nat × Nat) : State :=
  s.ctxReset ctx e.1 (faultData e.2 4)

/-- A lookup for a remote request, in the table of its partition. A read that the service context's rights would refuse is
judged later; a granule that fails here names no context, so it leaves no valid entry (R236, R247, R875). -/
def State.remoteSeq (s : State) (part world slot id : Nat) : Got Nat :=
  let g := s.seqLookup ⟨part, world, none, 4⟩ slot id
  match g.1 with
  | .ok q => (.ok q, g.2)
  | .error e => if serviceResets e.1 then attBad 0x0802 g.2 else (.error e, g.2)

/-- A remote request's sequence, judged up to its partition and world (R247, R735). -/
def State.remoteCheck (s : State) (part world slot id : Nat) : Got Nat :=
  (s.remoteSeq part world slot id).then fun q s =>
    let c := SEQD.CTX.of q
    if s.ctxPart c ≠ part ∨ s.ctxWorld c ≠ world ∨ s.hasServer part world = false then attBad 0x0803 s else (.ok q, s)

/-- A region refusal as a Cache module reports it (R247, R282). -/
def attStatus (code : Nat) : Nat := if code < 0x0200 then 0x0809 else code

/-- A query's own fields that may not stand (R869, R270). -/
def queryFieldsBad (h : Nat) (b : List Byte) : Bool :=
  let x := QH.SM_SCALE.of h
  let g := QH.G_M1.of h + 1
  let D := dimOf (QH.D_CODE.of h)
  let n := g * keyRowLen (QH.KVF.on h) D + (if QH.KVF.on h then g * (D / 32) else 0)
  decide (14 < g) || decide (QH.NTOK.of h = 0) || decide (posMax < QH.NTOK.of h) || x.testBit 31 || decide (x % 2 ^ 31 = 0) ||
  decide (0x7F800000 ≤ x % 2 ^ 31) || decide (b.length ≠ 64 + pad32 n)

/-- A query against its sequence (R270). -/
def queryMismatch (h q : Nat) : Bool :=
  seqParamBad q (QH.LAYER.of h) (QH.HEAD.of h) || decide (QH.D_CODE.of h ≠ SEQD.D_CODE.of q) || (QH.KVF.on h != SEQD.KVF.on q)

/-- A QUERY judged on arrival (R270, R869). -/
def State.judgeQuery (s : State) (part world : Nat) (h : Nat) (b : List Byte) : Got Nat :=
  if !s.serves then attBad 0x0801 s
  else if queryFieldsBad h b then attBad 0x0808 s
  else (s.remoteCheck part world (QH.SEQ_SLOT.of h) (QH.SEQ_ID.of h)).then fun q s =>
    if queryMismatch h q then attBad 0x0808 s else (.ok q, s)

/-- A whole QUERY, which needs a core and wakes the module, is accepted for service, or answered with the failing code (R42, R270, R718). -/
def State.takeQuery (s : State) (p : Pkt) (t : DStream) (b : List Byte) : State :=
  let s := s.wake
  let h := ofLE (b.take 64)
  let held (c : Nat) : QHeld := ⟨h, b.drop 64, pktMod p, pktEp p, t.dep, c, PH.PART.of p.hdr, PH.WORLD.of p.hdr, s.time.now⟩
  let g := s.judgeQuery (PH.PART.of p.hdr) (PH.WORLD.of p.hdr) h b
  match g.1 with
  | .ok q => { g.2 with att := { g.2.att with queries := g.2.att.queries ++ [held (SEQD.CTX.of q)] } }
  | .error e => g.2.qrespErr (held 0) (attStatus e.1)

/-- A QUERY arrives; with 4,096 held, and through an activation's pause, it waits under the window (R272, R786). -/
def queryStep (p : Pkt) (hbm : List Nat) (s : State) : State :=
  s.when (decide (PH.TYPE.of p.hdr = tyQUERY) && decide (s.att.queries.length < 4096) && !s.pausing) fun s =>
    (s.markBad 1 hbm).arriveMsg p fun t b s => s.takeQuery p t b

/-- The QUERY row. -/
def execQuery (p : Pkt) (hbm : List Nat) (s : State) : Res := .next (queryStep p hbm s)

/-- What a query asks the selector (R268). -/
def Sel.ofQuery (h : Nat) : Sel :=
  ⟨QH.LAYER.of h, QH.HEAD.of h, QH.NTOK.of h, QH.B_M1.of h + 1, QH.SBK_M1.of h + 1, QH.SINK.of h, QH.WIN.of h, QH.EXACT.on h, false⟩

/-- The rows and scales of a held query as values. -/
def QHeld.vals (q : QHeld) : List (List XV) :=
  let h := q.hdr
  let g := QH.G_M1.of h + 1
  let D := dimOf (QH.D_CODE.of h)
  let n := g * keyRowLen (QH.KVF.on h) D
  queryVals (QH.KVF.on h) g D (q.rows.take n) (q.rows.drop n)

/-- The partials of a held query, or why it has none now: KV_STALE while the count does not cover it (R252, R254, R271). -/
def State.servePartials (s : State) (q : QHeld) : Got (List AttState × Nat) :=
  let h := q.hdr
  let a := s.accOf q.sctx 4
  let x := Sel.ofQuery h
  (s.seqLookup a (QH.SEQ_SLOT.of h) (QH.SEQ_ID.of h)).then fun w s =>
    (s.freshSeq a w x.layer x.ntok).then fun _ s =>
      (s.selectPages a w q.vals x).then fun sel s =>
        (gotAll sel (fun p s => s.readPage a w x.layer x.head x.ntok p) s).then fun pages s =>
          (.ok (partials (QH.KVF.on h) (seqDim w) q.vals (sext 8 (QH.SSHIFT.of h)) (QH.SM_SCALE.of h) pages, sel.length), s)

/-- The n-th held query leaves the service. -/
def State.dropHeld (s : State) (n : Nat) : State := { s with att := { s.att with queries := s.att.queries.eraseIdx n } }

/-- The n-th held query is served once its layer's count covers it (R271, R272, R282, R311). -/
def queryServeStep (n : Nat) (hbm : List Nat) (s : State) : State :=
  s.when s.live fun s =>
    match s.att.queries[n]? with
    | none => s
    | some q =>
      let h := q.hdr
      let g := (s.markBad 1 hbm).servePartials q
      match g.1 with
      | .ok r =>
        (g.2.dropHeld n).qresp q.smod q.sep q.dep q.part q.world
          (qrHdr (QH.QTAG.of h) 0 0 (QH.G_M1.of h) (QH.D_CODE.of h) r.2 ++ r.1.flatMap stateBytes)
      | .error e =>
        if e.1 = 0x0804 then g.2
        else if serviceResets e.1 then g.2.serviceReset q.sctx e
        else (g.2.dropHeld n).qrespErr q (attStatus e.1)

/-- The QUERY_SERVE row. -/
def execQueryServe (n : Nat) (hbm : List Nat) (s : State) : Res := .next (queryServeStep n hbm s)

/-- The n-th held query has waited 2 ms for its rows: it is answered with KV_STALE (R271). -/
def queryStaleTimeoutStep (n : Nat) (s : State) : State :=
  s.when s.live fun s =>
    match s.att.queries[n]? with
    | none => s
    | some q =>
      let a := s.accOf q.sctx 4
      let g := (s.seqLookup a (QH.SEQ_SLOT.of q.hdr) (QH.SEQ_ID.of q.hdr)).then fun w s =>
        s.freshSeq a w (QH.LAYER.of q.hdr) (QH.NTOK.of q.hdr)
      match g.1 with
      | .error e => if e.1 = 0x0804 ∧ q.t0 + 2000000 ≤ s.time.now then (s.dropHeld n).qrespErr q 0x0804 else s
      | .ok _ => s

/-- The QUERY_STALE_TIMEOUT row. -/
def execQueryStaleTimeout (n : Nat) (s : State) : Res := .next (queryStaleTimeoutStep n s)

/-! ## The shipment service (R246 to R250) -/

/-- A remote shipment judged in the row order of R247, and written under the service context's `FPUT` (R875). -/
def State.shipAt (s : State) (part world : Nat) (b : List Byte) : Got Nat :=
  let x := Ship.ofHdr (ofLE (b.take 64))
  if !s.serves then attBad 0x0801 s
  else (s.remoteCheck part world x.slot x.id).then fun q s =>
    if x.paramBad q || decide (b.length ≠ 64 + x.len) then attBad 0x0808 s
    else
      let c := SEQD.CTX.of q
      let g := s.shipTo x q (s.accOf c 4) MEM_RGN.FPUT fun s => (.ok (b.drop 64), s)
      match g.1 with
      | .ok _ => (.ok 0, g.2)
      | .error e =>
        if serviceResets e.1 then (.ok 0x080A, g.2.serviceReset c e)
        else (.error e, g.2)

/-- A whole shipment, which needs a core and wakes the module, is written or refused, and answered with a KVACK (R250, R718). -/
def State.takeShip (s : State) (p : Pkt) (t : DStream) (b : List Byte) : State :=
  let g := s.wake.shipAt (PH.PART.of p.hdr) (PH.WORLD.of p.hdr) b
  let st := match g.1 with | .ok c => c | .error e => attStatus e.1
  g.2.qresp (pktMod p) (pktEp p) t.dep (PH.PART.of p.hdr) (PH.WORLD.of p.hdr)
    (qrHdr (SHH.KTAG.of (ofLE (b.take 64))) st 1 0 0 0)

/-- A packet of a shipment arrives (log 44: a shipment travels as PUT). -/
def kvShipmentStep (p : Pkt) (hbm : List Nat) (s : State) : State :=
  s.when (decide (PH.TYPE.of p.hdr = tyPUT)) fun s => (s.markBad 1 hbm).arriveMsg p fun t b s => s.takeShip p t b

/-- The KV_SHIPMENT row. -/
def execKvShipment (p : Pkt) (hbm : List Nat) (s : State) : Res := .next (kvShipmentStep p hbm s)

end Sys2Proof.Machine
end

