-- ==== Sys2Proof/Machine/Hss.lean ====
section
/-! DEFINITION. Hash-based signatures of one to three levels, with LMS_SHA256_M32 trees and LMOTS_SHA256_N32 (SP 800-208, RFC 8554), as they
are laid out and as they verify (R650, R748, R754, R761, R762, R777). -/
set_option autoImplicit false
namespace Sys2Proof.Machine

/-- A big-endian number at a position. -/
def beAt (b : List Byte) (off n : Nat) : Nat := ofBE (slice b off n)

/-! ## Layout -/

/-- Hash chains of an LMOTS_SHA256_N32 type: W of 1, 2, 4 or 8. -/
def otsChains : Nat → Nat
  | 1 => 265 | 2 => 133 | 3 => 67 | 4 => 34 | _ => 0

/-- Bits of a digit of such a type. -/
def otsWidth (t : Nat) : Nat := 2 ^ (t - 1)

/-- Height of an LMS_SHA256_M32 type. -/
def lmsHeight : Nat → Nat
  | 5 => 5 | 6 => 10 | 7 => 15 | 8 => 20 | 9 => 25 | _ => 0

/-- Length of the LMS signature at the front, when its types are permitted. -/
def lmsLen (b : List Byte) : Option Nat :=
  let p := otsChains (beAt b 4 4)
  let h := lmsHeight (beAt b (40 + 32 * p) 4)
  if p = 0 ∨ h = 0 then none else some (44 + 32 * p + 32 * h)

/-- Length of so many signed public keys and the last signature. -/
def hssChain : Nat → List Byte → Option Nat
  | 0, b => lmsLen b
  | n + 1, b => match lmsLen b with
    | some k => (hssChain n (b.drop (k + 56))).map (k + 56 + ·)
    | none => none

/-- Length of the HSS signature of one to three levels at the front. -/
def hssLen (b : List Byte) : Option Nat :=
  if 2 < beAt b 0 4 then none else (hssChain (beAt b 0 4) (b.drop 4)).map (4 + ·)

/-! ## Verification -/

/-- Digit i of some bytes in digits of `w` bits, the first the highest bits of the first byte. -/
def digitOf (w : Nat) (b : List Byte) (i : Nat) : Nat :=
  bitsOf (b.getD (i * w / 8) 0).toNat (8 - w - i * w % 8) w

/-- A digest with its checksum, whose digits say how far each chain has gone; the sum stands at the top of its two bytes. -/
def withSum (w : Nat) (d : List Byte) : List Byte :=
  let n := 256 / w
  let sum := (List.range n).foldl (fun a i => a + (2 ^ w - 1 - digitOf w d i)) 0
  d ++ beBytes 2 (sum <<< (match w with | 1 => 7 | 2 => 6 | 4 => 4 | _ => 0))

/-- A chain run on for `n` steps from step j. -/
def chainOn (pre : List Byte) : Nat → Nat → List Byte → List Byte
  | 0, _, x => x
  | n + 1, j, x => chainOn pre n (j + 1) (sha256 (pre ++ leBytes 1 j ++ x))

/-- The one-time public key that a signature of a message gives: type, identifier with leaf number, message, and the signature. -/
def otsKey (t : Nat) (pre msg sig : List Byte) : List Byte :=
  let w := otsWidth t
  let d := withSum w (sha256 (pre ++ beBytes 2 0x8181 ++ slice sig 4 32 ++ msg))
  sha256 (pre ++ beBytes 2 0x8080 ++ (List.range (otsChains t)).flatMap fun i =>
    let a := digitOf w d i
    chainOn (pre ++ beBytes 2 i) (2 ^ w - 1 - a) a (slice sig (36 + 32 * i) 32))

/-- The root above a node: its number, its hash and the path. -/
def rootOver (ident : List Byte) : Nat → Nat → List Byte → List Byte → List Byte
  | 0, _, x, _ => x
  | h + 1, n, x, path =>
    let y := path.take 32
    let pair := if n % 2 = 1 then y ++ x else x ++ y
    rootOver ident h (n / 2) (sha256 (ident ++ beBytes 4 (n / 2) ++ beBytes 2 0x8383 ++ pair)) (path.drop 32)

/-- Whether an LMS signature of a message verifies under a public key of 56 bytes. -/
def lmsVerify (key msg sig : List Byte) : Bool :=
  let t := beAt sig 4 4
  let p := otsChains t
  let ty := beAt sig (40 + 32 * p) 4
  let h := lmsHeight ty
  let q := beAt sig 0 4
  let ident := slice key 8 16
  let leaf := sha256 (ident ++ beBytes 4 (2 ^ h + q) ++ beBytes 2 0x8282 ++ otsKey t (ident ++ beBytes 4 q) msg (sig.drop 4))
  decide (beAt key 0 4 = ty) && decide (beAt key 4 4 = t) && decide (q < 2 ^ h) &&
  decide (rootOver ident h (2 ^ h + q) leaf (sig.drop (44 + 32 * p)) = slice key 24 32)

/-- Whether a chain of so many signed keys leads from a public key to the message. -/
def hssLevels : Nat → List Byte → List Byte → List Byte → Bool
  | 0, key, msg, sig => lmsVerify key msg sig
  | n + 1, key, msg, sig =>
    match lmsLen sig with
    | some k => lmsVerify key (slice sig k 56) (sig.take k) && hssLevels n (slice sig k 56) msg (sig.drop (k + 56))
    | none => false

/-- Whether an HSS signature, whole and no longer than its layout, verifies for a message under a public key of 60 bytes. -/
def hssVerify (key msg sig : List Byte) : Bool :=
  decide (hssLen sig = some sig.length) && decide (beAt key 0 4 = beAt sig 0 4 + 1) &&
  hssLevels (beAt sig 0 4) (slice key 4 56) msg (sig.drop 4)

/-- Length of a signature at the front of some bytes, when it is whole and verifies. -/
def hssSigned (key msg rest : List Byte) : Option Nat :=
  match hssLen rest with
  | some n => if n ≤ rest.length && hssVerify key msg (rest.take n) then some n else none
  | none => none

end Sys2Proof.Machine
end

