-- ==== Sys2Proof/Machine/Links.lean ====
section
/-! DEFINITION. Optical link sessions: key agreement, packet counters and re-keying, and the router's intake of a packet
(R391, R746 to R753). -/
set_option autoImplicit false
namespace Sys2Proof.Machine

/-! ## Identity -/

/-- The device's identity public key, 60 bytes (R748). -/
def idKey : List Byte := fixLen 60 Config.identityKey

/-- One identity signature is used: none while the session is not open or has none left; the last one used is logged (R754,
R756). -/
def State.sign (s : State) (msg : List Byte) : Option (List Byte × State) :=
  let left := s.fget SEC_ID_STAT.SIGS_LEFT 0
  if s.fget SEC_ID_STAT.STATE 0 ≠ 1 ∨ left = 0 then none
  else
    let sig := fixLen 7800 (Config.hssSign (s.fget SEC_ID_STAT.EPOCH 0) (1048576 - left) msg)
    let s := s.fset SEC_ID_STAT.SIGS_LEFT 0 (left - 1)
    some (sig, if left = 1 then s.logC 0x0502 else s)

/-! ## Agreement in KEYS (R748 to R750) -/

/-- A check of the agreement fails: the port is out of service until `GO` (R750). -/
def State.linkFail (s : State) (p : Nat) : State :=
  ((s.setLp p { s.lp p with agree := none }).trainFail p).logC 0x0507

/-- A message of the agreement goes out on the port as MGMT packets between its two ends, in as many as it needs (R374, R375, R466,
log 45). -/
def State.keysMsg (s : State) (p step : Nat) (b : List Byte) : State :=
  (List.range (ceilDiv b.length 8192)).foldl (fun s i =>
    s.sendPkt p (mkPkt [(PH.TYPE, tyMGMT), (PH.FLAGS, PFL.LAST.mk1 (b2n (decide (b.length ≤ 8192 * (i + 1))))),
      (PH.DEST, epAddr (s.fget FAB_PORT.PARTNER p) 0), (PH.SRC, epAddr s.self 0), (PH.WORLD, 1), (PH.SSEQ, i), (PH.RADDR, 8192 * i),
      (PH.MSGID, step), (PH.MTLEN, b.length)] ((b.drop (8192 * i)).take 8192)))
    (s.emit (.ctl p 7 (step :: b.map BitVec.toNat)))

/-- This end of a port is the initiator (R748). -/
def State.initiates (s : State) (p : Nat) : Bool := decide (s.self < s.fget FAB_PORT.PARTNER p)

/-- The agreement begins in KEYS: HELLO goes out, with what `SEC_LPEER` holds now in force (R747, R748). -/
def State.keysBegin (s : State) (p : Nat) : State :=
  if !s.fon SEC_LIFE.TRNG_OK 0 then s.linkFail p
  else
    let h := leBytes 2 s.self ++ leBytes 1 p ++ idKey ++ s.secret 32
    let s := s.drew
    let a : Agree := ⟨s.fget SEC_LPEER.HASH (p - 18), s.fon SEC_LPEER.ANY (p - 18), h, none, [], [], []⟩
    (s.setLp p { s.lp p with agree := some a }).keysMsg p 1 h

/-- The public key in a HELLO. -/
def helloKey (h : List Byte) : List Byte := slice h 3 60

/-- The agreement under way on a port in KEYS. -/
def State.agreeing (s : State) (p : Nat) : Option Agree :=
  if isG p = true ∧ s.stage p = 6 then (s.lp p).agree else none

/-- An end's key by its label and HELLO (R749). -/
def Agree.key (a : Agree) (label : String) (hello : List Byte) : List Byte :=
  hkdfExpand (hmac (sha256 a.log) a.shared) (ascii label ++ hello.take 3)

/-- This end's FINISHED goes out (R749). -/
def State.sendFinished (s : State) (p : Nat) (a : Agree) : State :=
  (s.setLp p { s.lp p with agree := some a }).keysMsg p 4 (hmac (a.key "ETIEN FIN" a.mine) a.log)

/-- A partner's HELLO is received: its key is checked, and the initiator sends its encapsulation key (R748). -/
def helloStep (p : Nat) (b : List Byte) (s : State) : State :=
  s.when s.hubUp fun s =>
    match s.agreeing p with
    | none => s
    | some a =>
      if a.theirs.isSome then s
      else if b.length ≠ 95 ∨ (a.any = false ∧ ofLE (sha256 (helloKey b)) ≠ a.hash) then s.linkFail p
      else if s.initiates p then
        let seed := s.secret 64
        let ek := fixLen 1568 (Config.kemKey seed)
        let log := a.mine ++ b ++ ek
        match s.drew.sign log with
        | none => s.drew.linkFail p
        | some (sig, s) =>
          let a := { a with theirs := some b, seed := seed, log := log ++ sig }
          (s.setLp p { s.lp p with agree := some a }).keysMsg p 2 (ek ++ sig)
      else s.setLp p { s.lp p with agree := some { a with theirs := some b, log := b ++ a.mine } }

/-- The HELLO row. -/
def execHello (p : Nat) (b : List Byte) (s : State) : Res := need (wfPort p) (helloStep p b s)

/-- The responder verifies the initiator's key and signature, encapsulates, and sends the ciphertext and its FINISHED (R748, R749). -/
def encapsulationKeyStep (p : Nat) (ek sig : List Byte) (s : State) : State :=
  s.when (s.hubUp && !s.initiates p) fun s =>
    match s.agreeing p with
    | none => s
    | some a =>
      match a.theirs with
      | none => s
      | some h =>
        if a.shared ≠ [] then s
        else if ek.length ≠ 1568 ∨ hssVerify (helloKey h) (a.log ++ ek) sig = false then s.linkFail p
        else
          let c := Config.kemEncaps ek (s.secret 32)
          let ct := fixLen 1568 c.1
          let log := a.log ++ ek ++ sig ++ ct
          match s.drew.sign log with
          | none => s.drew.linkFail p
          | some (mine, s) =>
            (s.keysMsg p 3 (ct ++ mine)).sendFinished p { a with log := log ++ mine, shared := fixLen 32 c.2 }

/-- The ENCAPSULATION_KEY row. -/
def execEncapsulationKey (p : Nat) (ek sig : List Byte) (s : State) : Res := need (wfPort p) (encapsulationKeyStep p ek sig s)

/-- The initiator verifies and decapsulates the ciphertext, derives the keys and sends its FINISHED (R748, R749). -/
def kemCiphertextStep (p : Nat) (ct sig : List Byte) (s : State) : State :=
  s.when (s.hubUp && s.initiates p) fun s =>
    match s.agreeing p with
    | none => s
    | some a =>
      match a.theirs with
      | none => s
      | some h =>
        if a.shared ≠ [] then s
        else if ct.length ≠ 1568 ∨ hssVerify (helloKey h) (a.log ++ ct) sig = false then s.linkFail p
        else s.sendFinished p { a with log := a.log ++ ct ++ sig, shared := fixLen 32 (Config.kemDecaps a.seed ct) }

/-- The KEM_CIPHERTEXT row. -/
def execKemCiphertext (p : Nat) (ct sig : List Byte) (s : State) : Res := need (wfPort p) (kemCiphertextStep p ct sig s)

/-- A session begins under the keys of its two directions: counters start again (R749, R751, R752). -/
def State.sessionBegin (s : State) (p : Nat) (tx rx : List Byte) : State :=
  let s := s.setLp p { s.lp p with agree := none, session := true, txKey := tx, rxKey := rx }
  { s with fab := { s.fab with
      linkTx := tset s.fab.linkTx p 0 0
      linkRx := tset s.fab.linkRx p 0 0
      linkBad := tset s.fab.linkBad p 0 0
      linkT := tset s.fab.linkT p s.count 0 } }

/-- FINISHED is checked: the session stands and training goes on, or it fails (R749, R750). -/
def finishedStep (p : Nat) (b : List Byte) (s : State) : State :=
  s.when s.hubUp fun s =>
    match s.agreeing p with
    | none => s
    | some a =>
      match a.theirs with
      | none => s
      | some h =>
        if a.shared = [] then s
        else if b = hmac (a.key "ETIEN FIN" h) a.log then
          (s.sessionBegin p (a.key "ETIEN LINK" a.mine) (a.key "ETIEN LINK" h)).afterKeys p
        else s.linkFail p

/-- The FINISHED row. -/
def execFinished (p : Nat) (b : List Byte) (s : State) : Res := need (wfPort p) (finishedStep p b s)

/-- After 2^36 packets in one direction, or 24 h of machine count, the port sends RETRAIN and trains from its retained settings
without the gate (R753). -/
def linkRekeyStep (p : Nat) (s : State) : State :=
  s.when (s.hubUp && isG p && decide (s.stage p = 8) &&
    (decide (2 ^ 36 ≤ tget s.fab.linkTx p 0) || decide (2 ^ 36 ≤ tget s.fab.linkRx p 0) ||
     decide (tget s.fab.linkT p 0 + 86400000000000 ≤ s.count))) fun s =>
    (s.notice p 0x0C 0).trainStart p true false

/-- The LINK_REKEY row. -/
def execLinkRekey (p : Nat) (s : State) : Res := need (wfPort p) (linkRekeyStep p s)

/-! ## Packets arriving (R391, R751, R752, R814) -/

/-- A packet of an optical link: its tag and its counter are checked, and one that fails is marked ended bad; sixteen in a row
retrain the port (R752). -/
def State.linkCheck (s : State) (arr : Nat) (p : Pkt) (ctr : Nat) (tagOk : Bool) : Pkt × State :=
  if !isG arr then (p, s)
  else if tagOk && decide (tget s.fab.linkRx arr 0 < ctr) then
    (p, { s with fab := { s.fab with linkRx := tset s.fab.linkRx arr ctr 0, linkBad := tset s.fab.linkBad arr 0 0 } })
  else
    let n := tget s.fab.linkBad arr 0 + 1
    let s := { s with fab := { s.fab with linkBad := tset s.fab.linkBad arr n 0 } }
    let t := tget s.fab.linkLog arr 0
    let s := if t = 0 ∨ t + 1000000000 ≤ s.time.now + 1 then
        { s with fab := { s.fab with linkLog := tset s.fab.linkLog arr (s.time.now + 1) 0 } }.logC 0x0508 else s
    ({ p with bad := true }, if 16 ≤ n then (s.notice arr 0x0C 0).trainAgain arr else s)

/-- The packet that the bytes between SOP and its end make, beyond the last whole 64 of them dropped; none when no flit is left (R375,
R445). -/
def bytesPkt (b : List Nat) (bad : Bool) : Option Pkt :=
  let n := b.length / 64 * 64
  let b := (b.take n).map (BitVec.ofNat 8)
  let h := ofLE (b.take 32)
  let k := min (PH.PLEN.of h) (n - 40)
  if n = 0 then none else some ⟨h, slice b 32 k, ofLE (slice b (32 + k) 8), bad⟩

/-- Bytes of an optical link as a session sealed them: the plain bytes, the counter, and whether the tag holds (R751). -/
def unsealLink (key : List Byte) (b : List Nat) : List Nat × Nat × Bool :=
  let n := (b.length - 24) / 64 * 64
  let c := b.take 8
  let e := slice b 8 n
  let k := key.map BitVec.toNat
  (gcmXor k (linkNonce c) e, bytesNum c, decide (24 ≤ b.length) && decide (slice b (8 + n) 16 = gcmTag k (linkNonce c) e))

/-- A packet that has come is checked as its link asks, and routed; during a debug freeze what comes behind a port's marker is held there
(R391, R751, R814). -/
def State.takePkt (s : State) (arr : Nat) (p : Pkt) (ctr : Nat) (tagOk : Bool) : State :=
  let (p, s) := s.linkCheck arr p ctr tagOk
  if s.frozen && s.obs.markers.contains arr && !passesFreeze p then
    { s with obs := { s.obs with heldIn := s.obs.heldIn ++ [(arr, p)] } }
  else s.routeIn arr p

/-- Columns arrive at a port: they are taken into its packet, and what stands outside one is discarded and counted; a packet that ends
goes on (R444, R445). -/
def State.takeColumns (s : State) (arr : Nat) (rx : List (List Nat)) : State :=
  let h := s.hear arr (s.rxLanes arr) rx
  let d := takeCols (h.2.lp arr).rxp 0 0 (colsOf h.1)
  let s := (h.2.setLp arr { h.2.lp arr with rxp := d.next, lastFz := none }).fsat LANE_PSTAT.CTRL_DISC arr d.disc
  match d.pkt with
  | none => s
  | some (raw, bad) =>
    let u := if isG arr then unsealLink (s.lp arr).rxKey raw else (raw, 0, true)
    match bytesPkt u.1 bad with
    | some p => s.takePkt arr p u.2.1 u.2.2
    | none => s

/-- A packet arrives at a router from a port or, as port 22, from this hub, with the flits then queued for each port (R391). -/
def packetRouteStep (arr : Nat) (a : Arrival) (q : List Nat) (s : State) : State :=
  s.when (s.hubUp && s.fon FAB_CTL.EN 0 && (decide (arr = hubPort) || s.fon FAB_PORT.LINK_UP arr)) fun s =>
    match a with
    | .whole p ctr tagOk => (s.setDepths q).takePkt arr p ctr tagOk
    | .cols rx => if arr = hubPort then s else (s.setDepths q).takeColumns arr rx

/-- The PACKET_ROUTE row. -/
def execPacketRoute (arr : Nat) (a : Arrival) (q : List Nat) (s : State) : Res := need (decide (arr ≤ 22)) (packetRouteStep arr a q s)

end Sys2Proof.Machine
end

