-- ==== Sys2Proof/Machine/Lanes.lean ====
section
/-! DEFINITION. The lane rows: training starts and the other writes of `LANE_PCTL`, what arrives on a port outside its packets, lane
failures, and the readings of lanes and optics (R371 to R374, R434 to R496). -/
set_option autoImplicit false
namespace Sys2Proof.Machine

/-! ## LANE_PCTL (R374, R475, R476, R485, R486, R495) -/

/-- Whether a write to `LANE_PCTL` is rejected (R374, R475, R485, R495, R640). -/
def State.pctlBad (s : State) (p v : Nat) : Bool :=
  (LANE_PCTL.GO.bit v && (!(s.fget GCTL_BOOT_STAT.PASSED 0).testBit 4 || !s.fon FAB_CTL.EN 0 ||
    (!LANE_PCTL.GATE.bit v && !s.fon LANE_PSTAT.GATE_DONE p))) ||
  ((decide (LANE_PCTL.LOOP.val v ≠ 0) || LANE_PCTL.PRBS.bit v) && !s.fon FAB_PORT.DOWN_REQ p) ||
  (LANE_PCTL.LASER_SWAP.bit v &&
    (!isG p || decide (s.fget LANE_PSTAT.SLASER p ≠ 7) || decide (4 < LANE_PCTL.SWAP_LANE.val v)))

/-- A training start before RECORD passes is logged (R640). -/
def pctlRejected (v : Nat) (s : State) : State :=
  if LANE_PCTL.GO.bit v && !(s.fget GCTL_BOOT_STAT.PASSED 0).testBit 4 then s.logC 0x0619 else s

/-- A loopback is in place. -/
def State.loopOn (s : State) (p : Nat) : State :=
  if s.stage p = 10 then s else (s.setLp p { s.lp p with prev := s.stage p }).setStage p 10

/-- A loopback ends, and the port's stage is what it was. -/
def State.loopOff (s : State) (p : Nat) : State :=
  if s.stage p = 10 then (s.setLp p { s.lp p with looped := [] }).setStage p (s.lp p).prev else s

/-- `LOOP` takes a new value (R484, R486). -/
def State.loopSet (s : State) (p old : Nat) : State :=
  match s.fget LANE_PCTL.LOOP p with
  | 0 => (if old = 3 then (s.answered p [8]).notice p 0x0B 0 else s).loopOff p
  | 3 => s.ask p 8 0
  | _ => (s.answered p [8]).loopOn p

/-- The laser of a transmit lane is replaced: the lane leaves the map for the spare, or leaves it smaller; the spare laser feeds it;
`ok` is the check of step 4, after which the lane is the direction's spare (R495). -/
def State.laserSwap (s : State) (p l : Nat) (ok : Bool) : State :=
  let s := s.ask p 0x0D l
  let m := s.fget LANE_PSTAT.TX_MAP p
  let s :=
    if m.testBit l then
      let m2 := m - 2 ^ l + (match s.txSpare p with | some k => 2 ^ k | none => 0)
      if m2 = 0 then ((s.linkUp p false).trainFail p).logC 0x0223 else s.newTxMap p m2
    else s
  let x := s.lp p
  let s := (s.setLp p { x with txDone := x.txDone.set l ok }).fset LANE_PSTAT.SLASER p l
  if ok then s.log { code := 0x022A, kind := 5, unit := laneUnit p l } else s

/-- Training starts on `GO`, with RETRAIN from READY; the first one of the session closes calibration (R472, R654). -/
def State.laneGo (s : State) (p : Nat) : State :=
  let s := s.calClose
  (if s.stage p = 8 then s.notice p 0x0C 0 else s).trainAgain p

/-- `LS2_REQ` rises or falls (R483). -/
def State.ls2Set (s : State) (p : Nat) (old : Bool) : State :=
  let new := s.fon LANE_PCTL.LS2_REQ p
  if new && !old then (if s.lstate p ≤ 1 then s.ask p 5 0 else s)
  else if old && !new then (s.answered p [5]).leaveLs2 p
  else s

/-- An accepted write to `LANE_PCTL`; `PRBS` 1 sends PRBS-31 (R476). -/
def pctlEff (p v : Nat) (ok : Bool) (s : State) : State :=
  let oldLoop := s.fget LANE_PCTL.LOOP p
  let oldLs2 := s.fon LANE_PCTL.LS2_REQ p
  let s := s.putRW .LANE_PCTL p v
  let s := if s.fget LANE_PCTL.LOOP p = oldLoop then s else s.loopSet p oldLoop
  let s := if LANE_PCTL.PRBS.bit v then s.sendPattern p else s
  let s := (onesOf 5 (LANE_PCTL.FORCE_OUT.val v)).foldl (fun s l => s.laneFail p l 0) s
  let s := if LANE_PCTL.LASER_SWAP.bit v then s.laserSwap p (LANE_PCTL.SWAP_LANE.val v) ok else s
  let s := s.ls2Set p oldLs2
  if LANE_PCTL.GO.bit v then s.laneGo p else s

/-- A write to `LANE_PCTL`; `ok` is the outcome of a laser's check. -/
def lanePctlWrite (w : Who) (p v : Nat) (ok : Bool) (s : State) : State :=
  s.when (s.reaches w) fun s => s.regWriteOr w .LANE_PCTL p v (fun s => s.pctlBad p v) (pctlRejected v) (pctlEff p v ok)

/-- A write with `GO` 1. -/
def trainGoStep (w : Who) (p v : Nat) (ok : Bool) (s : State) : State :=
  s.when (LANE_PCTL.GO.bit v) fun s => lanePctlWrite w p v ok s

/-- The TRAIN_GO row. -/
def execTrainGo (w : Who) (p v : Nat) (ok : Bool) (s : State) : Res := need (wfPort p) (trainGoStep w p v ok s)

/-- A write with bits of `FORCE_OUT`. -/
def forceOutStep (w : Who) (p v : Nat) (ok : Bool) (s : State) : State :=
  s.when (decide (LANE_PCTL.FORCE_OUT.val v ≠ 0)) fun s => lanePctlWrite w p v ok s

/-- The FORCE_OUT row. -/
def execForceOut (w : Who) (p v : Nat) (ok : Bool) (s : State) : Res := need (wfPort p) (forceOutStep w p v ok s)

/-- A write with `LASER_SWAP` 1. -/
def laserSwapStep (w : Who) (p v : Nat) (ok : Bool) (s : State) : State :=
  s.when (LANE_PCTL.LASER_SWAP.bit v) fun s => lanePctlWrite w p v ok s

/-- The LASER_SWAP row. -/
def execLaserSwap (w : Who) (p v : Nat) (ok : Bool) (s : State) : Res := need (wfPort p) (laserSwapStep w p v ok s)

/-- A write that changes `LOOP`. -/
def loopStep (w : Who) (p v : Nat) (ok : Bool) (s : State) : State :=
  s.when (decide (LANE_PCTL.LOOP.val v ≠ s.fget LANE_PCTL.LOOP p)) fun s => lanePctlWrite w p v ok s

/-- The LOOP row. -/
def execLoop (w : Who) (p v : Nat) (ok : Bool) (s : State) : Res := need (wfPort p) (loopStep w p v ok s)

/-- A write that changes `LS2_REQ`. -/
def lanePctlLs2Step (w : Who) (p v : Nat) (ok : Bool) (s : State) : State :=
  s.when (decide (LANE_PCTL.LS2_REQ.val v ≠ s.fget LANE_PCTL.LS2_REQ p)) fun s => lanePctlWrite w p v ok s

/-- The LANE_LS2_REQ row. -/
def execLaneLs2Req (w : Who) (p v : Nat) (ok : Bool) (s : State) : Res := need (wfPort p) (lanePctlLs2Step w p v ok s)

/-! ## From DETECT to READY (R457 to R472) -/

/-- A lane of a port in training detects signal; the first takes the port to ALIGN (R456, R458). -/
def State.detected (s : State) (p l : Nat) : State :=
  let x := s.lp p
  if (s.stage p = 1 ∨ s.stage p = 2) ∧ (x.lane l).det = none then
    let x := x.setLane l { x.lane l with det := some s.time.now }
    let s := s.setLp p { x with firstDet := some (x.firstDet.getD s.time.now) }
    if s.stage p = 2 then s else s.enter p 2
  else s

/-- A receive lane detects signal: in training its alignment begins; in LS1 the port leaves it; in LS2 the port trains, unless its
own `LS2_REQ` holds it there (R458, R482, R483). In PS3 it wakes the module first (R718). -/
def signalDetectStep (p l : Nat) (s : State) : State :=
  s.when s.lanesRun fun s =>
    let s := s.fset LANE_MON.LOS (laneIx p l) 0
    let s := if s.fget PWR_PSTATE.STATE 0 = 3 then s.wake else s
    match s.lstate p with
    | 1 => s.fset LANE_PSTAT.LSTATE p 0
    | 2 => if s.fon LANE_PCTL.LS2_REQ p then s else (s.leaveLs2 p).detected p l
    | _ => s.detected p l

/-- The SIGNAL_DETECT row. -/
def execSignalDetect (p l : Nat) (s : State) : Res := need (wfPort p && wfLane l) (signalDetectStep p l s)

/-- A lane is not aligned 200 µs after its signal, or has none 1 ms after the port's first (R458). -/
def alignTimeoutStep (p l : Nat) (s : State) : State :=
  s.when (s.lanesRun && decide (s.stage p = 2) && !s.fon LANE_MON.FAILED (laneIx p l)) fun s =>
    let x := s.lp p
    let r := x.lane l
    let late := match r.det, x.firstDet with
      | some t, _ => decide (t + 200000 ≤ s.time.now)
      | none, some t => decide (t + 1000000 ≤ s.time.now)
      | none, none => false
    if late && !r.aligned && !r.out then (s.laneOut p l 0x0225).alignDone p else s

/-- The ALIGN_TIMEOUT row. -/
def execAlignTimeout (p l : Nat) (s : State) : Res := need (wfPort p && wfLane l) (alignTimeoutStep p l s)

/-- Sixteen STATUS have named the same partner: the wrong one keeps the port out, the right one is recorded, and EQUALISE or, from
retained settings, DESKEW follows (R374, R459, R474). -/
def State.partnerKnown (s : State) (p m q : Nat) : State :=
  if s.joined p ≠ some m ∨ q ≠ partnerPort p then (s.trainFail p).logC 0x020D
  else
    let s := s.fset FAB_PORT.PARTNER p m
    let x := s.lp p
    let same := match x.ret with | some r => decide (r.pmod = m) && decide (r.pport = q) | none => false
    let s := if x.fast && !same then s.fallBack p else s
    if (s.lp p).fast then s.setStage p 5 else s.equalise p

/-- A lane's training block with its COMMA in place: the eighth in a row aligns the lane (R458). -/
def State.alignBlock (s : State) (p l : Nat) : State :=
  let x := s.lp p
  let r := x.lane l
  if r.det = none ∨ r.out = true then s
  else (s.setLp p (x.setLane l { r with blocks := r.blocks + 1, aligned := decide (8 ≤ r.blocks + 1) })).alignDone p

/-- COMMA is not at the start of a lane's training block: the count begins again, and the bit-slip command moves the boundary by one bit, at
most 9 times (R458). -/
def State.slip (s : State) (p l : Nat) : State :=
  let x := s.lp p
  let r := x.lane l
  if r.det = none ∨ r.out = true ∨ r.aligned = true then s
  else if r.slips < 9 then s.setLp p (x.setLane l { r with blocks := 0, slip := (r.slip + 1) % 10, slips := r.slips + 1 })
  else s.setLp p (x.setLane l { r with blocks := 0 })

/-- What a training block, or a STATUS alone, begins with: whether COMMA leads, and the STATUS, when its last byte matches (R447, R451,
R457). -/
def statusOf (l : List Sym) : Bool × Option (List Nat) :=
  let led := decide (l.head? = some (.k kCOMMA))
  let b := seqData kSTATUS 6 ((if led then l.drop 1 else l).take 7)
  (led, b.filter fun b => decide (b.foldl (· ^^^ ·) 0 = 0))

/-- A valid STATUS: in PARTNER it is counted, sixteen in a row that name one port settling the partner; a partner in GATE is sent the gate
pattern; and a training block on a port in READY takes it out of service to train (R459, R469, R472). -/
def State.statusIn (s : State) (p : Nat) (led : Bool) (b : List Nat) : State :=
  let m := dataNum (b.take 2) % 2 ^ 14
  let q := b.getD 2 0
  let x := s.lp p
  let n := if (x.pid.1, x.pid.2.1) = (m, q) then x.pid.2.2 + 1 else 1
  let st := b.getD 4 0 % 16
  match s.stage p with
  | 3 =>
    let s := s.setLp p { x with pid := (m, q, n), pstage := st }
    if 16 ≤ n then s.partnerKnown p m q else s
  | 8 => if led && decide (1 ≤ st) && decide (st ≤ 4) then s.trainAgain p else s.setLp p { x with pstage := st }
  | g =>
    let s := s.setLp p { x with pstage := st }
    if st = 7 ∧ g < 8 then s.sendPattern p else s

/-- The start of a training block, or a STATUS, arrives on a receive lane. One that is not valid is discarded, and breaks the run of those
in PARTNER (R451, R458, R459). -/
def statusStep (p l : Nat) (chars : List Nat) (s : State) : State :=
  s.when s.lanesRun fun s => s.oneLane p l chars fun y s =>
    let e := match y with | some y => statusOf y | none => (false, none)
    let s := if s.stage p = 2 then (if e.1 then s.alignBlock p l else s.slip p l) else s
    match e.2 with
    | some b => s.statusIn p e.1 b
    | none => if s.stage p = 3 then s.setLp p { s.lp p with pid := (0, 0, 0) } else s

/-- The STATUS row. -/
def execStatus (p l : Nat) (chars : List Nat) (s : State) : Res := need (wfPort p && wfLane l) (statusStep p l chars s)

/-- STATUS goes out: in LS0 at least once in 1 ms, and in training in each block or, once blocks have ended, alone (R441, R443, R451,
R457). -/
def statusSendStep (p : Nat) (s : State) : State :=
  s.when (s.hubUp && decide (1 ≤ s.stage p)) fun s =>
    if s.stage p ≤ 4 then s.sendBlocks p (trainData 0 0 0)
    else if s.stage p ≤ 7 ∨ (s.stage p = 8 ∧ s.lstate p = 0) then s.sendStatus p
    else s

/-- The STATUS_SEND row. -/
def execStatusSend (p : Nat) (s : State) : Res := need (wfPort p) (statusSendStep p s)

/-! ### Equalisation (R460 to R464) -/

/-- Taps pre2, pre1, main, post1, post2 of a preset (R461). -/
def presetTaps : Nat → List Int
  | 0 => [0, 0, 64, 0, 0] | 1 => [0, 0, 56, -8, 0] | 2 => [0, 0, 48, -16, 0] | 3 => [0, -4, 52, -8, 0]
  | 4 => [0, -6, 46, -12, 0] | 5 => [0, -8, 40, -16, 0] | 6 => [-2, -6, 42, -12, -2] | _ => [-4, -8, 36, -14, -2]

/-- Range of each tap (R460). -/
def tapRange : List (Int × Int) := [(-8, 0), (-16, 0), (32, 64), (-24, 0), (-8, 8)]

/-- The taps of a transmit lane. -/
def State.taps (s : State) (p l : Nat) : List Int := tapFields.map fun f => sext 8 (s.fget f (laneIx p l))

/-- Whether taps keep R460. -/
def tapsOk (t : List Int) : Bool :=
  (t.zip tapRange).all (fun e => decide (e.2.1 ≤ e.1) && decide (e.1 ≤ e.2.2)) &&
  decide ((t.map Int.natAbs).foldl (· + ·) 0 ≤ 64)

/-- The taps of a transmit lane set. -/
def State.setTaps (s : State) (p l : Nat) (t : List Int) : State :=
  (tapFields.zip t).foldl (fun s e => s.fset e.1 (laneIx p l) (wrapInt 8 e.2)) s

/-- A request for a transmit lane is answered (R462, R463): its new taps when it asks for some, and the answer; a reserved argument,
and a change of taps that DONE has frozen, has none (log 64). -/
def State.tapAnswer (s : State) (p l cmd arg : Nat) : Option (Nat × State) :=
  let x := s.lp p
  let done := x.txDone.getD l false
  match cmd with
  | 1 =>
    if done = true ∨ 8 ≤ arg then none
    else some (0x10, (s.setTaps p l (presetTaps arg)).fset LANE_TAPS.PRESET (laneIx p l) arg)
  | 4 => some (0x12, s.setLp p { x with txDone := x.txDone.set l true })
  | _ =>
    if done = true ∨ 5 ≤ arg then none
    else
      let t := s.taps p l
      let t2 := t.set arg (t.getD arg 0 + if cmd = 2 then 1 else -1)
      if tapsOk t2 then some (0x10, s.setTaps p l t2) else some (0x11, s)

/-- The receiver's next request for a lane: a PRESET, INC, DEC or DONE of its own choice, a free value (R464). -/
def State.nextRequest (s : State) (p l : Nat) : State :=
  if 512 ≤ ((s.lp p).lane l).reqs then s
  else
    let k := s.freeV 8
    let cmd := 1 + k % 4
    let arg := if cmd = 1 then k / 4 % 8 else if cmd = 4 then 0 else k / 4 % 5
    s.drew.request p l cmd arg

/-- A TRAIN for a lane: a request is answered and counted, the answer to a pending one lets the receiver go on; with DONE_ACK the lane's
receiver has adapted, to a free value (R462 to R464, R473). -/
def State.trained (s : State) (p l cmd arg : Nat) : State :=
  if 1 ≤ cmd ∧ cmd ≤ 4 then
    match s.tapAnswer p l cmd arg with
    | some (a, s) => (s.fsat LANE_TAPS.REQS (laneIx p l) 1).train p l a arg
    | none => s
  else
    let x := s.lp p
    let r := x.lane l
    if s.stage p ≠ 4 ∨ (s.going p).contains l = false ∨ r.pend = false then s
    else if cmd = 0x12 then
      (s.setLp p (x.setLane l { r with pend := false, eqDone := true, adapt := s.freeV 16 })).drew.equalised p
    else if cmd = 0x10 ∨ cmd = 0x11 then (s.setLp p (x.setLane l { r with pend := false })).nextRequest p l
    else s

/-- A TRAIN arrives on a receive lane; its copies on the other lanes of the block are no further requests (R463, log 64). -/
def trainStep (p l : Nat) (chars : List Nat) (s : State) : State :=
  s.when s.lanesRun fun s => s.oneLane p l chars fun y s =>
    match y.bind (seqData kTRAIN 2) with
    | some d =>
      let t := d.getD 0 0 % 8
      s.when (decide (1 ≤ s.stage p) && decide (s.stage p ≤ 5) && wfLane t) fun s => s.trained p t (d.getD 0 0 / 8) (d.getD 1 0)
    | none => s

/-- The TRAIN row. -/
def execTrain (p l : Nat) (chars : List Nat) (s : State) : Res := need (wfPort p && wfLane l) (trainStep p l chars s)

/-- A lane has no DONE_ACK after 512 requests, or 300 ms after its first (R464). -/
def equaliseTimeoutStep (p l : Nat) (s : State) : State :=
  s.when (s.lanesRun && decide (s.stage p = 4) && (s.going p).contains l) fun s =>
    let r := (s.lp p).lane l
    if !r.eqDone && decide (0 < r.reqs) && (decide (512 ≤ r.reqs) || decide (r.reqT + 300000000 ≤ s.time.now)) then
      (s.laneOut p l 0x0225).equalised p
    else s

/-- The EQUALISE_TIMEOUT row. -/
def execEqualiseTimeout (p l : Nat) (s : State) : Res := need (wfPort p && wfLane l) (equaliseTimeoutStep p l s)

/-! ### Deskew, gate and maps (R465 to R470, R487 to R489) -/

/-- The receiver lines its lanes up, given each lane's skew in characters: each is delayed to the latest; then the keys, the gate or the
map follow (R465, R466, R468, R474). -/
def deskewStep (p : Nat) (skews : List Nat) (s : State) : State :=
  s.when (s.lanesRun && decide (s.stage p = 5) && !(s.lp p).rxIn && decide ((s.lp p).want = none)) fun s =>
    let lanes := s.going p
    let most := ((lanes.map (skews.getD · 0)).filter fun k => decide (k ≤ 64)).foldl max 0
    let s := lanes.foldl (fun s l =>
      let k := skews.getD l 0
      if 64 < k then s.laneOut p l 0x0226
      else
        let x := s.lp p
        s.setLp p (x.setLane l { x.lane l with skewed := true, delay := most - k })) s
    let s := s.fset LANE_PSTAT.SKEW p ((lanes.map (skews.getD · 0)).foldl max 0)
    let x := s.lp p
    if (s.going p).isEmpty then s.trainFail p
    else if x.full && x.useRet && !((s.going p).all fun l => (x.lane l).eqDone) then s.equalise p
    else
      let s := s.setStage p 6
      if isG p && !x.session then s.keysBegin p else s.afterKeys p

/-- The DESKEW row. -/
def execDeskew (p : Nat) (skews : List Nat) (s : State) : Res := need (wfPort p) (deskewStep p skews s)

/-- Whether a lane passed the gate: in all five runs, 2^36 bits at the nominal point and 2^34 at each stressed one, it counted no violation
and no pattern error (R467). -/
def gatePass (runs : List (Nat × Nat)) : Bool := decide (runs.length = 5) && runs.all fun r => decide (r = (0, 0))

/-- The gate ends: by lane, the code violations and pattern errors that it counted in each of its five runs (R467, R468). -/
def gateEndStep (p : Nat) (runs : List (List (Nat × Nat))) (s : State) : State :=
  s.when (s.lanesRun && decide (s.stage p = 7) && !(s.lp p).rxIn && decide ((s.lp p).want = none)) fun s =>
    let x := s.lp p
    let run := (s.going p).filter fun l => (x.lane l).skewed
    let good := run.filter fun l => gatePass (runs.getD l [])
    let sum (l : Nat) (f : Nat × Nat → Nat) : Nat := if run.contains l then ((runs.getD l []).map f).foldl (· + ·) 0 else 0
    let s := fiveLanes.foldl (fun s l =>
      let i := laneIx p l
      ((s.fput LANE_MON.GATE_OK i (good.contains l)).fsat LANE_MON.CV i (sum l (·.1))).fsat LANE_MON.PRBS_ERR i (sum l (·.2))) s
    if good.isEmpty then (s.trainFail p).logC 0x0224
    else
      let s := s.fset LANE_PSTAT.GATE_DONE p 1
      let s := if good.length < 4 then s.logC 0x0222 else s
      s.askMap p (mapOf (good.take 4))

/-- The GATE_END row. -/
def execGateEnd (p : Nat) (runs : List (List (Nat × Nat))) (s : State) : Res := need (wfPort p) (gateEndStep p runs s)

/-- NOTICE may arrive from DESKEW on (R443). -/
def State.noticeOk (s : State) (p : Nat) : Bool := s.lanesRun && decide (5 ≤ s.stage p) && decide (s.stage p ≤ 8)

/-- A partner asks for a map: the transmitter answers with MAP_SWITCH and uses it (R489). -/
def mapReqStep (p : Nat) (rx : List (List Nat)) (s : State) : State :=
  s.when (s.noticeOk p) fun s => s.noticed p 1 rx fun m s =>
    s.when (decide (0 < m % 32)) fun s => s.newTxMap p (m % 32)

/-- The MAP_REQ row. -/
def execMapReq (p : Nat) (rx : List (List Nat)) (s : State) : Res := need (wfPort p) (mapReqStep p rx s)

/-- A MAP_SWITCH puts a map in force (R470, R489). -/
def mapSwitchStep (p : Nat) (rx : List (List Nat)) (s : State) : State :=
  s.when (s.noticeOk p) fun s => s.noticed p 2 rx fun m s =>
    s.when (decide (0 < m % 32)) fun s => s.newRxMap p (m % 32)

/-- The MAP_SWITCH row. -/
def execMapSwitch (p : Nat) (rx : List (List Nat)) (s : State) : Res := need (wfPort p) (mapSwitchStep p rx s)

/-- RETRAIN arrives on a port in READY (R472). -/
def retrainStep (p : Nat) (rx : List (List Nat)) (s : State) : State :=
  s.when (s.lanesRun && decide (s.stage p = 8)) fun s => s.noticed p 0x0C rx fun _ s => s.trainAgain p

/-- The RETRAIN row. -/
def execRetrain (p : Nat) (rx : List (List Nat)) (s : State) : Res := need (wfPort p) (retrainStep p rx s)

/-- A partner announces that it replaces the laser of a transmit lane: MAP_SWITCH answers, and this end checks its receive lane of that
number; `ok` is the check's outcome, and a lane that fails it is failed (R434, R453, R487, R495). -/
def noticeLaserSwapStep (p : Nat) (rx : List (List Nat)) (ok : Bool) (s : State) : State :=
  s.when (s.noticeOk p) fun s => s.noticed p 0x0D rx fun l s =>
    let s := s.notice p 2 (s.fget LANE_PSTAT.TX_MAP p)
    if ok || !wfLane (l % 8) then s else s.laneFail p (l % 8) 0

/-- The NOTICE_LASER_SWAP row. -/
def execNoticeLaserSwap (p : Nat) (rx : List (List Nat)) (ok : Bool) (s : State) : Res :=
  need (wfPort p) (noticeLaserSwapStep p rx ok s)

/-- A request notice 10 µs unanswered is repeated (R453). -/
def noticeRepeatStep (p code : Nat) (s : State) : State :=
  s.when s.hubUp fun s =>
    match (s.lp p).asked.find? fun e => decide (e.1 = code) && decide (e.2.2 + 10000 ≤ s.time.now) with
    | some e => s.ask p code e.2.1
    | none => s

/-- The NOTICE_REPEAT row. -/
def execNoticeRepeat (p code : Nat) (s : State) : Res := need (wfPort p) (noticeRepeatStep p code s)

/-! ## LS1 and LS2 (R480 to R483) -/

/-- A port in READY and in a lane state. -/
def State.inLs (s : State) (p k : Nat) : Bool := s.hubUp && decide (s.stage p = 8) && decide (s.lstate p = k)

/-- The port has sent and received only idle for some µs: it asks for LS1 (R481). -/
def ls1IdleStep (p idleUs : Nat) (s : State) : State :=
  s.when (s.inLs p 0 && s.fon LANE_PCTL.LS1_EN p && decide (s.fget LANE_PCTL.LS1_IDLE p ≤ idleUs)) fun s => s.ask p 3 0

/-- The LS1_IDLE row. -/
def execLs1Idle (p idleUs : Nat) (s : State) : Res := need (wfPort p) (ls1IdleStep p idleUs s)

/-- A partner asks for LS1: it is granted when this end allows it and has nothing to send (R481). -/
def ls1ReqStep (p : Nat) (rx : List (List Nat)) (idle : Bool) (s : State) : State :=
  s.when (s.inLs p 0) fun s => s.noticed p 3 rx fun _ s =>
    s.when (s.fon LANE_PCTL.LS1_EN p && idle) fun s => (s.notice p 4 0).fset LANE_PSTAT.LSTATE p 1

/-- The LS1_REQ row. -/
def execLs1Req (p : Nat) (rx : List (List Nat)) (idle : Bool) (s : State) : Res := need (wfPort p) (ls1ReqStep p rx idle s)

/-- The partner agrees to LS1 (R481). -/
def ls1AckStep (p : Nat) (rx : List (List Nat)) (s : State) : State :=
  s.when (s.inLs p 0) fun s => s.noticed p 4 rx fun _ s =>
    s.when ((s.lp p).asked.any fun e => decide (e.1 = 3)) fun s => (s.answered p [3]).fset LANE_PSTAT.LSTATE p 1

/-- The LS1_ACK row. -/
def execLs1Ack (p : Nat) (rx : List (List Nat)) (s : State) : Res := need (wfPort p) (ls1AckStep p rx s)

/-- A port in LS1 has something to send: COMMA columns and then WAKE go out (R482). -/
def ls1ExitStep (p : Nat) (s : State) : State := s.when (s.inLs p 1) fun s => s.leaveLs1 p

/-- The LS1_EXIT row. -/
def execLs1Exit (p : Nat) (s : State) : Res := need (wfPort p) (ls1ExitStep p s)

/-- A WAKE ends LS1 (R482). -/
def wakeNoticeStep (p : Nat) (rx : List (List Nat)) (s : State) : State :=
  s.when (s.inLs p 1) fun s => s.noticed p 7 rx fun _ s => s.fset LANE_PSTAT.LSTATE p 0

/-- The WAKE row. -/
def execWake (p : Nat) (rx : List (List Nat)) (s : State) : Res := need (wfPort p) (wakeNoticeStep p rx s)

/-- A partner enters LS2: it is acknowledged, and the port enters too (R483). -/
def ls2ReqStep (p : Nat) (rx : List (List Nat)) (s : State) : State :=
  s.when (s.hubUp && decide (s.stage p = 8)) fun s => s.noticed p 5 rx fun _ s => (s.notice p 6 0).enterLs2 p

/-- The LS2_REQ row. -/
def execLs2Req (p : Nat) (rx : List (List Nat)) (s : State) : Res := need (wfPort p) (ls2ReqStep p rx s)

/-- The partner has acknowledged LS2 (R483). -/
def ls2AckStep (p : Nat) (rx : List (List Nat)) (s : State) : State :=
  s.when (s.hubUp && decide (s.stage p = 8)) fun s => s.noticed p 6 rx fun _ s =>
    s.when ((s.lp p).asked.any fun e => decide (e.1 = 5)) fun s => s.enterLs2 p

/-- The LS2_ACK row. -/
def execLs2Ack (p : Nat) (rx : List (List Nat)) (s : State) : Res := need (wfPort p) (ls2AckStep p rx s)

/-! ## Far-end loopback (R486) -/

/-- A partner asks for far-end loopback: it is entered only under this end's own hold (R486). -/
def feReqStep (p : Nat) (rx : List (List Nat)) (s : State) : State :=
  s.when (s.hubUp && decide (5 ≤ s.stage p) && decide (s.stage p ≤ 8)) fun s => s.noticed p 8 rx fun _ s =>
    if s.fon FAB_PORT.DOWN_REQ p then (s.notice p 9 0).loopOn p else s.notice p 0x0A 0

/-- The FE_REQ row. -/
def execFeReq (p : Nat) (rx : List (List Nat)) (s : State) : Res := need (wfPort p) (feReqStep p rx s)

/-- An answer to this port's own request for far-end loopback arrives. -/
def State.feAnswer (s : State) (p code : Nat) (rx : List (List Nat)) (f : State → State) : State :=
  s.when s.hubUp fun s => s.noticed p code rx fun _ s =>
    s.when ((s.lp p).asked.any fun e => decide (e.1 = 8)) fun s => f (s.answered p [8])

/-- The far-end loopback is in place. -/
def feAckStep (p : Nat) (rx : List (List Nat)) (s : State) : State := s.feAnswer p 9 rx fun s => s.loopOn p

/-- The FE_ACK row. -/
def execFeAck (p : Nat) (rx : List (List Nat)) (s : State) : Res := need (wfPort p) (feAckStep p rx s)

/-- The far-end loopback is refused. -/
def feRefuseStep (p : Nat) (rx : List (List Nat)) (s : State) : State := s.feAnswer p 0x0A rx fun s => s.logC 0x022B

/-- The FE_REFUSE row. -/
def execFeRefuse (p : Nat) (rx : List (List Nat)) (s : State) : Res := need (wfPort p) (feRefuseStep p rx s)

/-- The partner ends its far-end loopback. -/
def feEndStep (p : Nat) (rx : List (List Nat)) (s : State) : State :=
  s.when (s.hubUp && decide (s.fget LANE_PCTL.LOOP p = 0)) fun s => s.noticed p 0x0B rx fun _ s => s.loopOff p

/-- The FE_END row. -/
def execFeEnd (p : Nat) (rx : List (List Nat)) (s : State) : Res := need (wfPort p) (feEndStep p rx s)

/-! ## Credit and rate matching (R448, R455) -/

/-- A CREDIT adds what its total has grown by; what is on the port goes on, and waiting headers choose again (R392, R448). A reserved
pool is discarded. -/
def State.credited (s : State) (p pool total : Nat) : State :=
  if 4 < pool then s
  else
    let k := p * 8 + pool
    let d := wrapSub 12 total (tget s.fab.credRx k 0)
    let s := { s with fab := { s.fab with credRx := tset s.fab.credRx k total 0 } }
    (s.setCredit p pool (s.credit p pool + d)).creditCame p

/-- A CREDIT arrives, with the flits then queued for each port. -/
def laneCreditStep (p : Nat) (rx : List (List Nat)) (q : List Nat) (s : State) : State :=
  s.when (s.hubUp && s.fon FAB_PORT.LINK_UP p) fun s => s.wide p kCREDIT 2 rx fun d s =>
    (s.setDepths q).credited p (d.getD 0 0 % 16) (d.getD 1 0 + 256 * (d.getD 0 0 / 16))

/-- The LANE_CREDIT row. -/
def execLaneCredit (p : Nat) (rx : List (List Nat)) (q : List Nat) (s : State) : Res := need (wfPort p) (laneCreditStep p rx q s)

/-- A CREDIT goes out with a pool's running total (R448). -/
def creditSendStep (p pool : Nat) (s : State) : State :=
  s.when (s.hubUp && s.fon FAB_PORT.LINK_UP p && decide (pool ≤ 4)) fun s =>
    s.creditSeq p pool (tget s.fab.credTx (p * 8 + pool) 0)

/-- The CREDIT_SEND row. -/
def execCreditSend (p pool : Nat) (s : State) : Res := need (wfPort p) (creditSendStep p pool s)

/-- The columns of an elastic buffer of 16 after a SKIP has come last into it: the SKIP is deleted above half full, repeated below, and
stands otherwise; no other column changes (R455). -/
def matchRate (cols : List (List Nat)) : List (List Nat) :=
  if 8 < cols.length then cols.dropLast else if cols.length < 8 then cols ++ cols.drop (cols.length - 1) else cols

/-- A SKIP column enters the elastic buffer, behind the columns that stand in it: the characters of them all, by lane (R455). -/
def skipColumnStep (p : Nat) (rx : List (List Nat)) (s : State) : State :=
  s.when (s.hubUp && s.hears p) fun s =>
    let h := s.hear p (s.rxLanes p) rx
    let n := (rx.map (·.length)).foldl max 0
    let cols := (List.range n).map fun i => rx.map fun c => c.getD i 0
    if n ≤ 16 ∧ (colsOf h.1).getLast? = some (.sp kSKIP false) then h.2.setLp p { h.2.lp p with ebuf := matchRate cols } else h.2

/-- The SKIP_COLUMN row. -/
def execSkipColumn (p : Nat) (rx : List (List Nat)) (s : State) : Res := need (wfPort p) (skipColumnStep p rx s)

/-! ## Failures and readings (R477, R479, R487, R492, R493) -/

/-- A receive lane meets a condition of R487: it loses signal (0), which `LOS` shows, counts code violations (1), slips its commas (2),
leaves the range of skew (3) or fails the check of a swapped laser (4), with the reading behind it. Before DESKEW a lane's troubles are
those of its training (R458, R479, R487, R495). -/
def State.laneTrouble (s : State) (p l cause reading : Nat) : State :=
  let s := if cause = 0 then s.fset LANE_MON.LOS (laneIx p l) 1 else s
  if 5 ≤ s.stage p ∧ s.hears p = true then s.laneFail p l reading else s

/-- A receive lane fails. -/
def laneFailStep (p l cause reading : Nat) (s : State) : State :=
  s.when (s.lanesRun && s.hears p) fun s => s.laneTrouble p l cause reading

/-- The LANE_FAIL row. -/
def execLaneFail (p l cause reading : Nat) (s : State) : Res := need (wfPort p && wfLane l) (laneFailStep p l cause reading s)

/-- Whether a requester may read the LANE block (R724). -/
def State.readsLanes (s : State) (w : Who) : Bool := s.hubUp && decide (w ≠ .mc)

/-- A read of `LANE_PSTAT`, which clears `CTRL_DISC` (R477). -/
def lanePstatReadStep (w : Who) (p : Nat) (s : State) : State :=
  s.when (s.readsLanes w) fun s => (s.emit (.read (s.regWord .LANE_PSTAT p))).fset LANE_PSTAT.CTRL_DISC p 0

/-- The LANE_PSTAT_READ row. -/
def execLanePstatRead (w : Who) (p : Nat) (s : State) : Res := need (wfPort p) (lanePstatReadStep w p s)

/-- A read of `LANE_MON`, with the characters that the lane has taken in since the last one outside any sequence or packet: their
violations count, and in the gate or with `PRBS` 1 their pattern errors; the read clears both counts (R439, R479). -/
def laneMonReadStep (w : Who) (p l : Nat) (chars : List Nat) (s : State) : State :=
  s.when (s.readsLanes w) fun s =>
    let i := laneIx p l
    let h := if s.hears p then s.hear p [l] [chars] else ([], s)
    let checks := s.fon LANE_PCTL.PRBS p || decide (s.stage p = 7)
    let s := h.2.fsat LANE_MON.PRBS_ERR i (if checks then patternErrs (h.1.headD []) else 0)
    ((s.emit (.read (s.regWord .LANE_MON i))).fset LANE_MON.CV i 0).fset LANE_MON.PRBS_ERR i 0

/-- The LANE_MON_READ row. -/
def execLaneMonRead (w : Who) (p l : Nat) (chars : List Nat) (s : State) : Res :=
  need (wfPort p && wfLane l) (laneMonReadStep w p l chars s)

/-- The eye margins of a receive lane are measured (R479). -/
def eyeMeasureStep (p l h v : Nat) (s : State) : State :=
  s.when s.hubUp fun s => (s.fset LANE_MON.H_MARGIN (laneIx p l) h).fset LANE_MON.V_MARGIN (laneIx p l) v

/-- The EYE_MEASURE row. -/
def execEyeMeasure (p l h v : Nat) (s : State) : Res := need (wfPort p && wfLane l) (eyeMeasureStep p l h v s)

/-- Baseline bias and launched power of the laser feeding a lane, once calibration holds them (R493, R651). -/
def State.laserBase (s : State) (p l : Nat) : Option (Nat × Nat) :=
  if s.fget CAL_STAT.ORIGIN 0 = 0 then none
  else
    let k := if s.fget LANE_PSTAT.SLASER p = l then 5 else l
    let b := cellsRead s.boot.cal (0x7000 + 69120 + 4 * (6 * (p - 18) + k)) 4
    some (leAt b 0 2, leAt b 2 2)

/-- The conditions of R493 that hold, as bits. -/
def State.optBits (s : State) (p l rx tx refl bias : Nat) : Nat :=
  let wear := match s.laserBase p l with
    | some (b, t) => decide (t = tx % 65536) && decide (13 * b < 10 * (bias % 65536))
    | none => false
  b2n (decide (sext 16 rx < -900)) + 2 * b2n (decide (-3000 < sext 16 refl)) + 4 * b2n wear

/-- The optical readings of a lane are updated, and each condition is logged when it starts to hold; a lane
that receives less than −14.00 dBm has lost its signal (R492, R493). -/
def optMonitorStep (p l rx tx refl bias : Nat) (s : State) : State :=
  s.when (s.hubUp && isG p) fun s =>
    let i := laneIx p l
    let s := (((s.fset LANE_OPT.RX_PWR i rx).fset LANE_OPT.TX_PWR i tx).fset LANE_OPT.BREFL i refl).fset LANE_OPT.BIAS i bias
    let new := s.optBits p l rx tx refl bias
    let x := s.lp p
    let old := x.opt.getD l 0
    let s := s.setLp p { x with opt := x.opt.set l new }
    let one (s : State) (bit code kind data : Nat) : State :=
      if new.testBit bit && !old.testBit bit then s.log { code := code, kind := kind, unit := laneUnit p l, data := data % 65536 }
      else s
    let s := one (one (one s 0 0x0227 4 rx) 1 0x0228 4 refl) 2 0x0229 5 bias
    if sext 16 rx < -1400 ∧ s.hears p = true then s.laneTrouble p l 0 (rx % 65536) else s

/-- The OPT_MONITOR row. -/
def execOptMonitor (p l rx tx refl bias : Nat) (s : State) : Res :=
  need (wfPort p && wfLane l) (optMonitorStep p l rx tx refl bias s)

end Sys2Proof.Machine
end

