-- ==== Sys2Proof/Machine/MemoryRows.lean ====
section
/-! DEFINITION. The commands of device memory: the host region, CXL.mem, region tables, the fill engine, repair, training and
refresh (R289 to R323). -/
set_option autoImplicit false
namespace Sys2Proof.Machine

/-- Whether a `MEM_HOST` write is rejected (R290). -/
def State.memHostBad (s : State) (v : Nat) : Bool :=
  s.fon MEM_HOST.EN 0 ||
  (MEM_HOST.EN.bit v && decide (dumpFrame ≤ MEM_HOST.BASE.val v + MEM_HOST.SIZE_M1.val v))

/-- A write to `MEM_HOST` (R289, R290). -/
def memHostWriteStep (w : Who) (v : Nat) (s : State) : State :=
  s.when (s.reaches w) fun s =>
    s.regWrite w .MEM_HOST 0 v (fun s => s.memHostBad v) (fun s => s.putRW .MEM_HOST 0 v)

/-- The MEM_HOST_WRITE row. -/
def execMemHostWrite (w : Who) (v : Nat) (s : State) : Res := .next (memHostWriteStep w v s)

/-- The device address of a CXL.mem line, where it is served (R291). -/
def State.hdmAddr (s : State) (x : Nat) : Option Nat :=
  match s.hostRegion with
  | some (b, l) => if x < (l + 1 - b) <<< 21 then some ((b <<< 21) + x / 64 * 64) else none
  | none => none

/-- The host die may hold a line from now on (R327). -/
def State.hostHolds (s : State) (l : Nat) : State :=
  if s.mem.hostLines.contains l then s else { s with mem := { s.mem with hostLines := s.mem.hostLines ++ [l] } }

/-- A CXL.mem read of the line at offset x; `hbm` names granules the stack reports uncorrectable (R291, R301, R311). -/
def cxlMemReadStep (x : Nat) (hbm : List Nat) (s : State) : State :=
  s.when s.cxlUp fun s =>
    let s := s.markBad 1 hbm
    match s.hdmAddr x with
    | none => (s.emit .poison).logC 0x0108
    | some a =>
      let r := s.hostRead ⟨0, 0, none, 6⟩ a 64
      if r.code = 0 then (r.st.hostHolds (a / 64)).emit (.line r.bytes) else r.st.emit .poison

/-- The CXL_MEM_READ row. -/
def execCxlMemRead (x : Nat) (hbm : List Nat) (s : State) : Res := .next (cxlMemReadStep x hbm s)

/-- The bytes of a line under its byte enables. -/
def mergeLine (old new : List Byte) (en : Nat) : List Byte :=
  (List.range 64).map fun i => if en.testBit i then new.getD i 0 else old.getD i 0

/-- A CXL.mem write of a 64-byte line, a partial granule (R291, R292, R304, R311). -/
def cxlMemWriteStep (x : Nat) (b : List Byte) (en : Nat) (s : State) : State :=
  s.when s.cxlUp fun s =>
    match s.hdmAddr x with
    | none => s.logC 0x0108
    | some a => (s.hostUpdate ⟨0, 0, none, 7⟩ a 64 fun old => mergeLine old b en).st

/-- The CXL_MEM_WRITE row. -/
def execCxlMemWrite (x : Nat) (b : List Byte) (en : Nat) (s : State) : Res := .next (cxlMemWriteStep x b en s)

/-! ## Region tables (R293 to R300) -/

/-- Whether frames lo to hi hold one outside the host region. -/
def State.leavesHost (s : State) (lo hi : Nat) : Bool := decide (lo ≤ hi) && !s.inHost lo hi

/-- A covered frame outside the host region lies in a valid entry of another partition (R297). -/
def State.overlapsOther (s : State) (part lo hi : Nat) : Bool :=
  (List.range 4096).any fun j =>
    decide (j / 256 ≠ part) && s.fon MEM_RGN.VALID j &&
    s.leavesHost (max lo (s.fget MEM_RGN.BASE j)) (min hi (s.fget MEM_RGN.LIMIT j))

/-- Why a valid entry may not stand (R297). -/
def State.entryBad (s : State) (i v : Nat) : Bool :=
  let lo := MEM_RGN.BASE.val v
  let hi := MEM_RGN.LIMIT.val v
  let k := MEM_RGN.KEY.val v
  decide (hi < lo) || decide (dumpFrame ≤ hi) || decide (k = 63) || (decide (k = 0) && s.leavesHost lo hi) ||
  (decide (k ≠ 0) && !(s.fget SEC_PART.KEYS (i / 256)).testBit k) || s.overlapsOther (i / 256) lo hi

/-- The whole entry that a write of word k makes. -/
def State.entryWord (s : State) (i k v : Nat) : Nat :=
  let old := s.rwWord .MEM_RGN i
  if k = 0 then v % 2 ^ 64 + old / 2 ^ 64 * 2 ^ 64 else old % 2 ^ 64 + v % 2 ^ 64 * 2 ^ 64

/-- Whether a write of word k is rejected (R297). -/
def State.rgnReject (s : State) (i k v : Nat) : Bool :=
  let valid := s.fon MEM_RGN.VALID i
  if k = 0 then
    (valid && (decide (MEM_RGN.WORLD.val v ≠ s.fget MEM_RGN.WORLD i) || decide (MEM_RGN.KEY.val v ≠ s.fget MEM_RGN.KEY i) ||
      decide (MEM_RGN.BASE.val v ≠ s.fget MEM_RGN.BASE i))) || (MEM_RGN.VALID.bit v && s.entryBad i v)
  else valid

/-- The checkers keep the entry as it was until the change reaches them (R299). -/
def State.holdEntry (s : State) (i : Nat) : State :=
  let t := Reg.MEM_RGN.fields.foldl (fun t f =>
    match tfind t (f.key i) with | some _ => t | none => tput t (f.key i) (s.fget f i)) s.mem.pendRgn
  { s with mem := { s.mem with pendRgn := t } }

/-- A write of one word of a region entry: k 0 for bits [63:0], 1 for bits [127:64] (R297 to R299). -/
def regionEntryWriteStep (w : Who) (i k v : Nat) (s : State) : State :=
  s.when (s.reaches w) fun s =>
    let full := s.entryWord i k v
    match s.barred w .MEM_RGN i full with
    | .none =>
      if s.isStatus .MEM_RGN i full then s
      else if s.rgnReject i k full then (s.setRej .MEM_RGN i).logC 0x0107
      else ((s.holdEntry i).putRW .MEM_RGN i full).fset MEM_RGN_STATUS.PEND 0 1
    | b => s.bar w .MEM_RGN i b

/-- The REGION_ENTRY_WRITE row. -/
def execRegionEntryWrite (w : Who) (i k v : Nat) (s : State) : Res :=
  need (decide (i < 4096) && decide (k < 2)) (regionEntryWriteStep w i k v s)

/-- Every accepted change has reached all checkers (R299, R300). -/
def execRegionChangeApplied (s : State) : Res :=
  .next (s.when s.hubUp fun s => { s with mem := { s.mem with pendRgn := [] } }.fset MEM_RGN_STATUS.PEND 0 0)

/-! ## The fill engine (R307 to R310, R727) -/

/-- Whether an NS requester may start a fill (R727). -/
def State.nsFill (s : State) (key lo hi : Nat) : Bool :=
  if key = 0 then s.inHost lo hi
  else match s.holder SEC_PART.KEYS key with
    | none => false
    | some p => decide (s.fget SEC_PART.PWORLD p = 0) &&
      ((List.range (hi + 1 - lo)).map (lo + ·)).all fun f =>
        match s.governing p f with
        | some i => decide (s.rgn MEM_RGN.KEY i = key) && decide (s.rgn MEM_RGN.WR i = 1)
        | none => false

/-- Whether a `MEM_FILL_CTL` write is rejected (R308). -/
def State.fillBad (s : State) (v : Nat) : Bool :=
  let lo := MEM_FILL_CTL.FIRST.val v
  let hi := lo + MEM_FILL_CTL.NUM_M1.val v
  let k := MEM_FILL_CTL.KEY.val v
  s.fon MEM_FILL_CTL.BUSY 0 || (MEM_FILL_CTL.GO.bit v &&
    (decide (dumpFrame ≤ hi) || (decide (k = 0) && s.leavesHost lo hi) || decide (k = 63)))

/-- What is left of the fill under way, filled. -/
def State.doFill (s : State) : State :=
  let lo := s.fget MEM_FILL_CTL.FIRST 0
  let s := s.fillFrames lo (lo + s.fget MEM_FILL_CTL.NUM_M1 0) (s.fget MEM_FILL_CTL.KEY 0) s.mem.filled
  { s with mem := { s.mem with filled := [] } }

/-- A fill starts: it has reached no granule yet. Whether an access meets a granule before or after it is filled is open (R310). -/
def State.fillGo (s : State) : State :=
  { s with mem := { s.mem with filled := [] } }.fset MEM_FILL_CTL.BUSY 0 1

/-- A write to `MEM_FILL_CTL` (R307, R308, R727). -/
def memFillGoStep (w : Who) (v : Nat) (s : State) : State :=
  s.when (s.reaches w) fun s =>
    if w = .ns ∧ MEM_FILL_CTL.GO.bit v = true ∧ s.isStatus .MEM_FILL_CTL 0 v = false ∧
        s.nsFill (MEM_FILL_CTL.KEY.val v) (MEM_FILL_CTL.FIRST.val v)
          (MEM_FILL_CTL.FIRST.val v + MEM_FILL_CTL.NUM_M1.val v) = false then
      (s.setRej .MEM_FILL_CTL 0).logC 0x0504
    else
      s.regWrite w .MEM_FILL_CTL 0 v (fun s => s.fillBad v) fun s =>
        let s := s.putRW .MEM_FILL_CTL 0 v
        if MEM_FILL_CTL.GO.bit v then s.fillGo else s

/-- The MEM_FILL_GO row. -/
def execMemFillGo (w : Who) (v : Nat) (s : State) : Res := .next (memFillGoStep w v s)

/-- A fill completes (R309). -/
def execFillDone (s : State) : Res :=
  .next (s.when (s.hubUp && s.fon MEM_FILL_CTL.BUSY 0) fun s =>
    let s := s.doFill
    (s.fset MEM_FILL_CTL.BUSY 0 0).fset MEM_FILL_CTL.DONE 0 1)

/-! ## Repair (R315, R316) -/

/-- A `MEM_REPAIR_CMD` word. -/
def repairWord (stack op pc row : Nat) : Nat := 1 + (stack <<< 4) + (op <<< 8) + (pc <<< 10) + (row <<< 16)

/-- The stack's share for the operation is used up (R315). -/
def State.repairFull (s : State) (stack op : Nat) : Bool :=
  if op = 1 then decide (3 ≤ s.fget MEM_STK_STATUS.SPC_USED stack)
  else decide (65536 ≤ s.fget MEM_STK_STATUS.ROWS_USED stack)

/-- A write to `MEM_REPAIR_CMD`. The spec does not say which writes it rejects: the model rejects one while `BUSY` is 1, and a `GO` for a
stack or an operation that is not there (R315, R316; DESIGN CHOICE, log 86). -/
def repairWrite (w : Who) (v : Nat) (s : State) : State :=
  s.when (s.reaches w) fun s =>
    let go := MEM_REPAIR_CMD.GO.bit v
    let stack := MEM_REPAIR_CMD.STACK.val v
    let op := MEM_REPAIR_CMD.OP.val v
    s.regWrite w .MEM_REPAIR_CMD 0 v (fun s => s.fon MEM_REPAIR_CMD.BUSY 0 || (go && (decide (12 ≤ stack) || decide (op = 3)))) fun s =>
      let s := s.putRW .MEM_REPAIR_CMD 0 v
      if !go then s
      else if s.repairFull stack op then s.fset MEM_REPAIR_CMD.FULL 0 1
      else
        let r : Repair := ⟨op, stack, MEM_REPAIR_CMD.PC.val v, MEM_REPAIR_CMD.ROW.val v⟩
        { s with mem := { s.mem with repair := some r } }.fset MEM_REPAIR_CMD.BUSY 0 1

/-- A write with `GO` 1 and an operation. -/
def repairStep (w : Who) (stack op pc row : Nat) (s : State) : State := repairWrite w (repairWord stack op pc row) s

/-- The REPAIR_REMAP_ROW row: `OP` 0. -/
def execRepairRemapRow (w : Who) (stack pc row : Nat) (s : State) : Res :=
  need (wfStack stack && decide (pc < 64) && decide (row < 2 ^ 20)) (repairStep w stack 0 pc row s)

/-- The REPAIR_SUBSTITUTE_PC row: `OP` 1. -/
def execRepairSubstitutePc (w : Who) (stack pc : Nat) (s : State) : Res :=
  need (wfStack stack && decide (pc < 64)) (repairStep w stack 1 pc 0 s)

/-- The REPAIR_LOAD_ROW_REMAP row: `OP` 2, without copy. -/
def execRepairLoadRowRemap (w : Who) (stack pc row : Nat) (s : State) : Res :=
  need (wfStack stack && decide (pc < 64) && decide (row < 2 ^ 20)) (repairStep w stack 2 pc row s)

/-- A repair ends. `sppr` says that soft post-package repair inside the stack took the row, so that no remap entry was used;
`lost` names the granules that could not be read at all during the copy (R316, R317). With `OP` 2 nothing is copied, and of what the row's
granules hold then the spec says nothing: the model leaves them as they were (DESIGN CHOICE, log 86). -/
def repairDoneStep (sppr : Bool) (lost : List Nat) (s : State) : State :=
  s.when s.hubUp fun s =>
    match s.mem.repair with
    | none => s
    | some r =>
      let s := { s with mem := { s.mem with repair := none } }.fset MEM_REPAIR_CMD.BUSY 0 0
      let s := if r.op = 2 then s else s.markBad 2 lost
      if r.op = 1 then
        (s.fsat MEM_STK_STATUS.SPC_USED r.stack 1).recordFence 9 3 (r.stack + (r.pc <<< 4))
      else
        let s := { s with mem := { s.mem with remaps := s.mem.remaps ++ [(r.stack, r.pc, r.row)] } }
        if sppr then s else s.fset MEM_STK_STATUS.ROWS_USED r.stack (s.fget MEM_STK_STATUS.ROWS_USED r.stack + 1)

/-- The REPAIR_DONE row. -/
def execRepairDone (sppr : Bool) (lost : List Nat) (s : State) : Res := .next (repairDoneStep sppr lost s)

/-! ## Training and refresh (R318 to R322, R640) -/

/-- The stacks already fenced, as bits. -/
def State.fencedStacks (s : State) : Nat :=
  (List.range 12).foldl (fun m k => if s.fon MEM_STK_STATUS.FENCED k then m + 2 ^ k else m) 0

/-- Training starts on every stack not fenced; calibration closes (R318, R654). -/
def State.trainGo (s : State) : State :=
  let f := s.fencedStacks
  let s := (s.calClose).fset MEM_TRAIN.DONE 0 f
  if f = 4095 then s else s.fset MEM_TRAIN.BUSY 0 1

/-- A write to `MEM_TRAIN`: ignored while `BUSY` is 1, and, with STEP_ORDER logged, until RECORD has passed (R318, R640). -/
def memTrainGoStep (w : Who) (v : Nat) (s : State) : State :=
  s.when (s.reaches w) fun s =>
    s.regWrite w .MEM_TRAIN 0 v (fun _ => false) fun s =>
      if MEM_TRAIN.GO.bit v then
        if !(s.fget GCTL_BOOT_STAT.PASSED 0).testBit 4 then s.logC 0x0619
        else if s.fon MEM_TRAIN.BUSY 0 then s
        else s.trainGo
      else s

/-- The MEM_TRAIN_GO row. -/
def execMemTrainGo (w : Who) (v : Nat) (s : State) : Res := .next (memTrainGoStep w v s)

/-- A pseudo-channel substituted at training, or marked in the log and the Cullet list (R320, R321). -/
def State.trainSubst (s : State) (k pc : Nat) : State :=
  ((s.fsat MEM_STK_STATUS.SPC_USED k 1).log { code := 0x0120, kind := 9, unit := k + (pc <<< 4) }).recordFence 9 1 (k + (pc <<< 4))

/-- A stack that fails is fenced (R321). -/
def State.trainFence (s : State) (k : Nat) : State :=
  ((((s.fset MEM_STK_STATUS.FENCED k 1).fset MEM_TRAIN.FAIL 0 (s.fget MEM_TRAIN.FAIL 0 ||| 2 ^ k))).log
    { code := 0x0120, kind := 8, unit := k }).recordFence 8 1 k

/-- A stack ends its training: `pcs` are the pseudo-channels that failed, `cmdFail` a failed command path, `lost` the granules
of the failed pseudo-channels, whose contents are lost when training began from retained settings (R319 to R321). With `RETAINED` 0 no data
moves, and of what those granules hold then the spec says nothing: the model leaves them as they were (DESIGN CHOICE, log 86). -/
def trainStackDoneStep (k : Nat) (pcs : List Nat) (cmdFail : Bool) (lost : List Nat) (s : State) : State :=
  s.when (s.hubUp && s.fon MEM_TRAIN.BUSY 0 && !(s.fget MEM_TRAIN.DONE 0).testBit k) fun s =>
    let s :=
      if cmdFail || decide (3 - s.fget MEM_STK_STATUS.SPC_USED k < pcs.length) then s.trainFence k
      else
        let s := pcs.foldl (fun s pc => s.trainSubst k pc) s
        let s := if s.fon MEM_TRAIN.RETAINED 0 then s.markBad 2 lost else s
        (s.fset MEM_STK_STATUS.TRAINED k 1).fset MEM_STK_STATUS.SREF k 0
    let d := s.fget MEM_TRAIN.DONE 0 ||| 2 ^ k
    let s := s.fset MEM_TRAIN.DONE 0 d
    if d = 4095 then s.fset MEM_TRAIN.BUSY 0 0 else s

/-- The TRAIN_STACK_DONE row. -/
def execTrainStackDone (k : Nat) (pcs : List Nat) (cmdFail : Bool) (lost : List Nat) (s : State) : Res :=
  need (wfStack k) (trainStackDoneStep k pcs cmdFail lost s)

/-- A controller refreshes its stack, at twice the rate above 85 °C; a stack in self-refresh refreshes itself, and a fenced one is not
served (R317, R321, R322). -/
def hbmRefreshStep (k temp : Nat) (s : State) : State :=
  s.when (s.up && !s.fon MEM_STK_STATUS.SREF k && !s.fon MEM_STK_STATUS.FENCED k) fun s =>
    let m := s.mem.fastRefresh
    let fast := decide (85 < temp)
    let m := if m.testBit k = fast then m else if fast then m + 2 ^ k else m - 2 ^ k
    { s with mem := { s.mem with fastRefresh := m } }.fset MEM_STK_STATUS.TEMP k temp

/-- The HBM_REFRESH row. -/
def execHbmRefresh (k temp : Nat) (s : State) : Res := need (wfStack k) (hbmRefreshStep k temp s)

/-- Reading `MEM_STK_STATUS` reports and clears `CE_COUNT`; `ce` are the corrections the stack has counted (R317). -/
def memStkStatusReadStep (w : Who) (k ce : Nat) (s : State) : State :=
  s.when (s.hubUp && decide (w ≠ .mc)) fun s =>
    let s := s.fsat MEM_STK_STATUS.CE_COUNT k ce
    (s.emit (.read (s.regWord .MEM_STK_STATUS k))).fset MEM_STK_STATUS.CE_COUNT k 0

/-- The MEM_STK_STATUS_READ row. -/
def execMemStkStatusRead (w : Who) (k ce : Nat) (s : State) : Res := need (wfStack k) (memStkStatusReadStep w k ce s)

end Sys2Proof.Machine
end

