-- ==== Sys2Proof/Machine/Reads.lean ====
section
/-! DEFINITION. What a requester reads of a register: worlds and partitions, and what an NS requester sees coarsened or held (R327 to R329,
R698, R728, R766, R794, R796). -/
set_option autoImplicit false
namespace Sys2Proof.Machine

/-- The role in effect (R621). -/
def State.role (s : State) : Nat := s.fget SPARE_PAIR_STATE.ROLE 0

/-- `LEFT` as a read finds it, in µs: a primary's lease time left, a standby's time since the last RENEW (R619). -/
def State.pairLeft (s : State) : Nat :=
  match s.role with
  | 1 => if s.spare.granted then (s.spare.leaseEnd - s.count) / 1000 else 0
  | 2 => min (2 ^ 32 - 1) ((s.count - s.spare.lastRx) / 1000)
  | _ => 0

/-- `SINCE`: whole seconds since the last hold ended, 255 for 255 or more, or none (R697). -/
def State.sinceHold (s : State) : Nat :=
  match s.pwr.holdEnd with
  | some t => min 255 ((s.time.now - t) / 1000000000)
  | none => 255

/-- A register as a read finds it: the fields that follow the count are taken at the read (R596, R619, R697). -/
def State.liveWord (s : State) (r : Reg) (i : Nat) : Nat :=
  let x := s.regWord r i
  match r with
  | .SPARE_ESC => putBits x 32 8 (min 255 (s.inWindow s.spare.escs).length)
  | .SPARE_PAIR_STATE => putBits x 32 32 s.pairLeft
  | .PWR_EVT => putBits x 56 8 s.sinceHold
  | _ => x

/-- A field as it stood at the last multiple of 10 ms of machine count (R766, R794). -/
def State.hget (s : State) (f : Fld) (i : Nat) : Nat := tget s.obs.held (f.key i) f.up

/-- A register's fields as they stood at the last multiple of 10 ms. -/
def State.heldWord (s : State) (r : Reg) (i : Nat) : Nat :=
  r.fields.foldl (fun a f => if f.acc = .wo then a else a + (s.hget f i <<< f.lsb)) 0

/-- A partition that S software administers. -/
def State.sPart (s : State) (p : Nat) : Bool := decide (s.fget SEC_PART.PWORLD p = 1)

/-- A resource held by such a partition. -/
def State.sHeld (s : State) (f : Fld) (bit : Nat) : Bool := (s.holder f bit).any s.sPart

/-- A context in the S world, or of a partition that S software administers. -/
def State.sCtx (s : State) (c : Nat) : Bool := decide (s.ctxWorld c = 1) || s.sHeld SEC_PART.CTXM c

/-- Whether an element of a register belongs to a partition with `PWORLD` 1 or to a context of the S world (R728). -/
def State.nsBlind (s : State) (r : Reg) (i : Nat) : Bool :=
  match r with
  | .GCTL_SEQTAB => s.sPart i
  | .MEM_RGN => s.sPart (i / 256)
  | .CFE_RING_CMD | .CFE_RING_CPL | .CFE_RING_PTR | .CFE_RING_CPTR => s.sCtx (ringCtx i)
  | .CTX_CFG | .CTX_STATE | .CTX_DIV => s.sCtx i
  | .FAB_EP | .FAB_EPCNT => s.sHeld SEC_PART.EPM i || (s.fon FAB_EP.VALID i && (s.fon FAB_EP.WORLD i || s.sCtx (s.fget FAB_EP.CTX i)))
  | .COLL_GRP => s.fon COLL_GRP.VALID i && (s.sPart (s.fget COLL_GRP.PART i) || s.fon COLL_GRP.WORLD i)
  | .SPARE_ABIND => s.fon SPARE_ABIND.VALID i && s.sCtx (s.fget SPARE_ABIND.CTX i)
  | .OBS_TRACE => s.fon OBS_TRACE.EN i && s.sCtx (s.fget OBS_TRACE.CTX i)
  | .OBS_DUMP => s.fon OBS_DUMP.EN i && s.sCtx (s.fget OBS_DUMP.CTX i)
  | _ => false

/-- An error-log entry as an NS requester sees it (R766). -/
def State.nsElog (s : State) (i : Nat) : Nat :=
  let x := s.regWord .ELOG i
  let x := putBits x 0 64 (coarse (bitsOf x 0 64))
  if s.fon ELOG.CTX_V i && decide (s.fget ELOG.WORLD i = 0) then x
  else ELOG.STAMP.val x + (ELOG.CODE.val x <<< ELOG.CODE.lsb) + (ELOG.SEQ.val x <<< ELOG.SEQ.lsb)

/-- A cluster's counters as an NS requester sees them: those of a partition with `PWORLD` 0, held and rounded down below DL3 (R794). -/
def State.nsCl (s : State) (cl : Nat) : Nat :=
  match s.holder SEC_PART.CL cl with
  | none => 0
  | some p =>
    if s.sPart p then 0
    else if s.fget SEC_PART.DL p = 3 then s.regWord .OBS_CL cl
    else (Reg.fields .OBS_CL).foldl (fun a f =>
      let v := s.hget f cl
      let v := if f = OBS_CL.TBUSY ∨ f = OBS_CL.TWAIT ∨ f = OBS_CL.VBUSY then v / 2048 * 2048 else v
      a + (v <<< f.lsb)) 0

/-- The fields of the PWR block in watts, and those in millijoules (R766). -/
def wattFields : List Fld :=
  [PWR_STATUS.PIN, PWR_STATUS.ECAP, PWR_RACK.RCAP, PWR_POLICY.CAP, PWR_POLICY.SAFE_CAP, PWR_EVT.FLOOR, PWR_THERM.TCAP, PWR_PSTATE.LEHR_W]
/-- As above. -/
def joulFields : List Fld := [PWR_OVER.OVER_MJ, PWR_ENERGY.ENERGY]

/-- A power or energy reading is held since the last multiple of 10 ms, and rounded down to 5 W or 50 mJ; any other field is as it stands
(R698, R766). -/
def State.nsPower (s : State) (r : Reg) (i : Nat) : Nat :=
  r.fields.foldl (fun a f =>
    let v := if wattFields.contains f then s.hget f i / 5 * 5 else if joulFields.contains f then s.hget f i / 50 * 50 else s.fget f i
    a + (v <<< f.lsb)) 0

/-- A rail's current rounded down to a multiple of ⌈50,000 / `VOUT`⌉ units, in a word of `PWR_RAIL` (R766). -/
def nsRail (x : Nat) : Nat :=
  let q := max 1 (ceilDiv 50000 (PWR_RAIL.VOUT.val x))
  putBits x 16 16 (PWR_RAIL.IOUT.val x / q * q)

/-- What an NS requester reads (R328, R728, R766, R769, R794, R796). -/
def State.nsWord (s : State) (r : Reg) (i : Nat) : Nat :=
  if r.pos.blk = .sec ∨ s.nsBlind r i = true then 0
  else match r with
    | .OBS_PORT | .OBS_HUB => 0
    | .OBS_CL => s.nsCl i
    | .TIME_COUNT => coarse (s.regWord .TIME_COUNT 0)
    | .ELOG => s.nsElog i
    | .PWR_RAIL => if s.coarsePower then nsRail (putBits (s.regWord .PWR_RAIL i) 16 16 (s.hget PWR_RAIL.IOUT i)) else s.regWord .PWR_RAIL i
    | r => if r.pos.blk = .pwr ∧ s.coarsePower = true then s.nsPower r i else s.liveWord r i

/-- What a requester reads of an element of a register. -/
def State.viewOf (s : State) (w : Who) (r : Reg) (i : Nat) : Nat :=
  match w with
  | .ns => s.nsWord r i
  | _ => s.liveWord r i

end Sys2Proof.Machine
end

