-- ==== Sys2Proof/Machine/CollOps.lean ====
section
/-! DEFINITION. The collective engine: what a COLL command may hold, the ring's shape, the reduction unit, messages between
members, counters and when an instance is complete (R497 to R546). -/
set_option autoImplicit false
namespace Sys2Proof.Machine

/-! ## Formats (R517, R518) -/

/-- A pair of format and operation that the reduction unit accepts (R517). -/
def pairOk (f rop : Nat) : Bool := decide (rop < 3) && [FP32, BF16, INT32].contains f

/-- An element converted exactly to the output format; a NaN keeps its sign and payload, as every bit is carried over (R515, R518,
log 81). -/
def convTo (f out x : Nat) : Nat := if f = BF16 ∧ out = FP32 then x <<< 16 else x

/-- An element as the larger or smaller of two INT32. -/
def intPick (mx : Bool) (a b : Nat) : Nat := if decide (sext 32 a < sext 32 b) = mx then b else a

/-- `a ⊕ b` of elements in the output format (R517, R519). -/
def combine (out rop a b : Nat) : Nat :=
  let pick (x y : Nat) : Nat := if rop = 1 then (fMax x y).bits else (fMin x y).bits
  if out = INT32 then (if rop = 0 then (a + b) % 2 ^ 32 else intPick (decide (rop = 1)) a b)
  else if out = BF16 then pick (a <<< 16) (b <<< 16) >>> 16
  else if rop = 0 then (fAdd a b).bits else pick a b

/-- The elements of a run of bytes. -/
def elemsOf (f : Nat) (l : List Byte) : List Nat :=
  (List.range (l.length / collBytes f)).map fun i => leAt l (i * collBytes f) (collBytes f)

/-- Elements as bytes. -/
def elemBytes (f : Nat) (l : List Nat) : List Byte := l.flatMap (leBytes (collBytes f))

/-- Two runs of elements combined; the left operand arrives in format `fa`, the right in `fb` (R517, R518). -/
def combineRuns (fa fb out rop : Nat) (a b : List Byte) : List Byte :=
  elemBytes out ((elemsOf fa a).zip (elemsOf fb b) |>.map fun p => combine out rop (convTo fa out p.1) (convTo fb out p.2))

/-! ## What a COLL command holds (R501 to R503, R517, R522) -/

/-- Whether a ring command breaks R503. -/
def ringInvalid (w : Nat) : Bool :=
  !CMD.AT_COUNT.on w || decide (CMD.NCORES_M1.of w ≠ 0) || decide (CMD.LT_ADDR.of w ≠ 0) || decide (CMD.NCTR_M1.of w ≠ 0)

/-- Elements of a piece (R501). -/
def pieceElems (w : Nat) : Nat := 16 * (CBODY.PCS_M1.of w + 1)

/-- Whether a ring command breaks R522. -/
def ringShapeBad (w : Nat) : Bool :=
  let c := CBODY.COUNT.of w
  let e := pieceElems w
  decide (CBODY.SRC_ADDR.of w % 32 ≠ 0) || decide (CBODY.DST_ADDR.of w % 32 ≠ 0) || decide (c = 0) || decide (c % 16 ≠ 0) ||
  decide (8160 < e * collBytes (collOut (CBODY.CKIND.of w) (CBODY.DFMT.of w) (CBODY.ROP.of w))) || decide (2 ^ 18 < ceilDiv c e)

/-- Whether a TRIGGERED command breaks R503. -/
def trigInvalid (w : Nat) : Bool :=
  [CBODY.COUNT, CBODY.SRC_ADDR, CBODY.DST_ADDR, CBODY.PCS_M1, CBODY.PWIN_M1].any fun f => decide (f.of w ≠ 0)

/-- The checks of a COLL command that need no group: code, table, whether a read failed, and the state (R503, R517, R522). -/
def State.collCheck (s : State) (_ctx w : Nat) : Nat × List Nat × Bool × State :=
  let k := CBODY.CKIND.of w
  let bad := decide (3 < k) || decide (CBODY.ROP.of w = 3) || decide (w &&& CBODY.reserved ≠ 0) || decide (CBODY.WDOG.of w = 0) ||
    (if k = 3 then trigInvalid w else ringInvalid w || ringShapeBad w)
  let fmtBad := decide (k < 3) && !(if k = 2 then [FP32, BF16, INT32].contains (CBODY.DFMT.of w)
    else pairOk (CBODY.DFMT.of w) (CBODY.ROP.of w))
  (if bad then 0x0240 else if fmtBad then 0x0243 else 0, [], false, s)

/-! ## Instances -/

/-- An instance in progress by its key (R505). -/
def State.inst (s : State) (g q : Nat) : Option Inst := s.coll.insts.find? fun i => decide (i.group = g) && decide (i.cseq = q)

/-- An instance replaced. -/
def State.setInst (s : State) (i : Inst) : State :=
  { s with coll := { s.coll with insts := s.coll.insts.map fun j => if j.group = i.group ∧ j.cseq = i.cseq then i else j } }

/-- Whether an instance of a key has ended within the second in which its key may not be used again (R505, R539). -/
def State.wasInst (s : State) (g q : Nat) : Bool :=
  s.coll.ended.any fun e => decide (e.1 = g) && decide (e.2.1 = q) && decide (s.time.now < e.2.2 + 1000000000)

/-- The instance has made progress (R540, R541). -/
def State.instUp (s : State) (i : Inst) : State :=
  (s.setInst { i with lastUp := s.time.run }).progress i.ring i.seq

/-- The access of an instance to memory, as the collective engine (R311, R724). -/
def State.instAcc (s : State) (i : Inst) : Party := s.accOf i.ctx 3

/-- `(a - b) mod N` of member indices. -/
def ringSub (n a b : Nat) : Nat := (a + n - b % n) % n

/-- Address of a piece of a source chunk; the source of an ALLGATHER is one chunk. -/
def Inst.srcAt (i : Inst) (k p : Nat) : Nat :=
  i.src + ((if i.ckind = 2 then 0 else k * i.count) + p * i.pcs) * collBytes i.dfmt

/-- The phases a kind runs (R502). -/
def Inst.hasPhase (i : Inst) (ph : Nat) : Bool :=
  match i.ckind with
  | 0 => decide (ph ≤ 1)
  | 1 => decide (ph = 0)
  | 2 => decide (ph = 1)
  | _ => false

/-- Chunks that the member sends in a phase: all but one (R507, R509). -/
def Inst.sends (i : Inst) (ph k : Nat) : Bool :=
  decide (k < i.n) && i.hasPhase ph && decide (k ≠ if ph = 0 then i.my else (i.my + 1) % i.n)

/-- Chunks that the member receives in a phase (R507, R509). -/
def Inst.receives (i : Inst) (ph k : Nat) : Bool :=
  decide (k < i.n) && i.hasPhase ph && decide (k ≠ if ph = 0 then ringSub i.n i.my 1 else i.my)

/-- Whether a piece to be sent is read from the source: reduce-scatter's first (R507). -/
def Inst.fromSrc (i : Inst) (ph k : Nat) : Bool := decide (ph = 0) && decide (k = ringSub i.n i.my 1)

/-- Whether the member holds a piece's data for a phase (R511). -/
def Inst.holds (i : Inst) (ph k p : Nat) : Bool :=
  if i.fromSrc ph k then true
  else if ph = 1 ∧ k = i.my then decide (i.ckind = 2) || i.wrote.contains (pieceKey 0 k p)
  else i.wrote.contains (pieceKey ph k p)

/-- Format in which a piece travels (R518). -/
def Inst.sendFmt (i : Inst) (ph k : Nat) : Nat := if i.fromSrc ph k then i.dfmt else i.out

/-- Format in which a piece of a chunk arrives (R518, R537). -/
def Inst.recvFmt (i : Inst) (ph k : Nat) : Nat := if ph = 0 ∧ k = ringSub i.n i.my 2 then i.dfmt else i.out

/-- Pieces that an instance sends, and as many that it receives. -/
def Inst.moves (i : Inst) : Nat :=
  (i.n - 1) * i.pieces * (match i.ckind with | 0 => 2 | 3 => 0 | _ => 1)

/-- A ring instance is complete, or every triggered entry has fired and completed (R516, R531). -/
def Inst.complete (i : Inst) : Bool :=
  if i.ckind = 3 then decide (i.tops.length ≤ i.doneT.length)
  else decide (i.moves ≤ i.acked.length) && decide (i.moves ≤ i.wrote.length) && i.staged.isEmpty

/-- Every send that a ring instance made has been acknowledged, READY and CREDIT among them (R516). -/
def State.sendsAcked (s : State) (i : Inst) : Bool :=
  !s.fab.xfers.any fun x => match x.owner with
    | .piece g q _ => decide (g = i.group) && decide (q = i.cseq)
    | _ => false

/-- The engine sends its one done message and the instance is over; what is no result of it is undefined (R516, R521, R531). -/
def State.checkInst (s : State) (g q : Nat) : State :=
  match s.inst g q with
  | some i =>
    if i.complete && s.sendsAcked i then
      let s := s.undefRest i
      { s with
        coll := { s.coll with
          insts := s.coll.insts.filter fun j => !(decide (j.group = g) && decide (j.cseq = q))
          ended := s.coll.ended ++ [(g, q, s.time.now)] }
        cfe := { s.cfe with dones := s.cfe.dones ++ [(i.ring, i.seq, 0)] } }
    else s
  | none => s

/-! ## Messages between members (R535, R536) -/

/-- A collective header. -/
def collHdr (fs : List (BF × Nat)) : List Byte := leBytes 32 (packFields fs)

/-- The fields every header of an instance carries (R535). -/
def Inst.hdrFields (i : Inst) (pkind : Nat) : List (BF × Nat) :=
  [(CH.PKIND, pkind), (CH.GROUP, i.group), (CH.CSEQ, i.cseq), (CH.ROP, i.rop), (CH.CKIND, i.ckind), (CH.COUNT, i.count)]

/-- A transfer of an instance begins; a pair member without a stream entry to spare fails it (R617). -/
def State.instSend (s : State) (i : Inst) (x : Xfer) : State :=
  match s.begin x with
  | some s => s
  | none => s.failInst i 0x030A 0

/-- A one-packet message of an instance to a member: its header alone (R536). -/
def State.instMsg (s : State) (i : Inst) (owner : Owner) (dest : Nat) (hdr : List Byte) : State :=
  s.instSend i (mkXfer owner (some i.ctx) i.ep (epMod dest) (epNum dest) tyCOLL (s.ctxPart i.ctx) (s.ctxWorld i.ctx) 0 32
    (.lit hdr))

/-- Key of a READY or CREDIT among an instance's transfers. -/
def grantKey : Nat := 2 ^ 50

/-- READY or CREDIT to the predecessor (R512). -/
def State.grantPieces (s : State) (i : Inst) (pkind n : Nat) : State :=
  s.instMsg i (.piece i.group i.cseq grantKey) i.pred (collHdr (i.hdrFields pkind ++ [(CH.NCRED, n)]))

/-- A counter signal added; overflow fails the instance (R532). A counter the instance does not have is a mismatch (log 50). -/
def State.addColl (s : State) (i : Inst) (ctr inc : Nat) : State :=
  match i.ctrs[ctr]? with
  | none => s.failInst i 0x0248 0
  | some v => if 2 ^ 32 ≤ v + inc then s.failInst i 0x0246 0 else s.setInst { i with ctrs := i.ctrs.set ctr (v + inc) }

/-- A signal or grant for a key: applied to its instance, logged when that has ended, else held in the early table
(R512, R538, R539). -/
def State.signalColl (s : State) (g q kind a b : Nat) : State :=
  match s.inst g q with
  | some i => if kind = 5 then s.addColl i a b else s.setInst { i with credit := i.credit + a }
  | none =>
    if s.wasInst g q then s.logC 0x0247
    else { s with coll := { s.coll with early := s.coll.early ++ [⟨g, q, kind, a, b, s.time.now⟩] } }

/-- What the early table holds for an instance is applied when it starts (R538). -/
def State.applyEarly (s : State) (g q : Nat) : State :=
  let l := s.coll.early.filter fun e => decide (e.group = g) && decide (e.cseq = q)
  let s := { s with coll := { s.coll with early := s.coll.early.filter fun e => !(decide (e.group = g) && decide (e.cseq = q)) } }
  l.foldl (fun s e => s.signalColl g q e.kind e.a e.b) s

/-- Where a member stands in the group's list (R500). -/
def State.memberAt (s : State) (i : Inst) (m : Nat) : Nat := (s.fget COLL_GRP.LIST i.group <<< 6) + 4 * m

/-- The address with endpoint of a member, from the group's list (R500). -/
def State.member (s : State) (i : Inst) (m : Nat) : MemRes := s.memRead (s.instAcc i) MEM_RGN.RD (s.memberAt i m) 4

/-- Module and endpoint of a member list entry (R500). -/
def memberAddr (b : List Byte) : Nat := epAddr (bitsOf (ofLE b) 0 14) (bitsOf (ofLE b) 14 8)

/-! ## Acknowledgements reach their instances (R512, R516, R540) -/

/-- Key of a triggered operation in `acked`. -/
def topKey (idx : Nat) : Nat := 2 ^ 60 + idx

/-- A piece's or triggered operation's transfer has been acknowledged whole: its instance counts it. -/
def State.ackedColl (s : State) (x : Xfer) : State :=
  let f (g q key : Nat) : State :=
    match s.inst g q with
    | some i =>
      let s := if key = grantKey then s else s.setInst { i with acked := i.acked ++ [key] }
      (s.dropXfers fun y => decide (y.id = x.id)).checkInst g q
    | none => s.dropXfers fun y => decide (y.id = x.id)
  match x.owner with
  | .piece g q key => f g q key
  | .top g q idx => f g q (topKey idx)
  | _ => s

/-- Bytes of an instance's transfers were acknowledged: its progress count rises (R540). -/
def State.ackProgress (s : State) (x : Xfer) : State :=
  let f (g q : Nat) : State := match s.inst g q with | some i => s.instUp i | none => s
  match x.owner with
  | .piece g q _ => f g q
  | .top g q _ => f g q
  | _ => s

end Sys2Proof.Machine
end

