-- ==== Sys2Proof/Machine/FabricRows.lean ====
section
/-! DEFINITION. The transport: sending, acknowledgement, retries and failures of transfers, inbound PUT, GET, ATOMIC and MGMT,
and the release of stream entries (R401 to R422). -/
set_option autoImplicit false
namespace Sys2Proof.Machine

/-! ## When a transfer fails (R408) -/

/-- The sink of a GET_REQ, or 0. -/
def Xfer.sink (x : Xfer) : Nat := match x.dst with | some d => d.addr | none => 0

/-- A transfer's stream, as `DATA` of a fabric code (R608). -/
def State.xferData (s : State) (x : Xfer) (seq : Nat) : Nat :=
  fabData (epAddr s.self x.ep) (if x.dmod < 16384 then epAddr x.dmod x.dep else x.dmod - 16384) seq x.msgid

/-- What is left of a transfer once its unit has been told: its VOIDs go out (R418). -/
def State.abandonId (s : State) (id : Nat) : State :=
  match s.xfer id with
  | some x => s.abandon x
  | none => s

/-- A response's final NACK to its requester (R421). -/
def State.refuseGet (s : State) (x : Xfer) (code : Nat) : State :=
  s.hubSend (mkPkt [(PH.TYPE, tyNACK), (PH.FLAGS, s.pairFlag), (PH.DEST, epAddr x.dmod x.dep), (PH.SRC, epAddr s.self x.ep),
    (PH.PART, x.part), (PH.WORLD, x.world), (PH.SSEQ, x.req), (PH.MSGID, x.msgid), (PH.MTLEN, 32)] (leBytes 2 code ++ zeros 30))

/-- `DATA` of a transfer's failure: the memory address, or the stream, the packet's number and the message; `at_` is the one or the other
(R608). -/
def State.lostData (s : State) (x : Xfer) (code at_ : Nat) : Nat :=
  if code < 0x0200 then faultData at_ x.owner.reader
  else if fabCode code then s.xferData x at_
  else 0

/-- A descriptor's transfer fails it (R408, R608). -/
def State.failFlight (s : State) (lcore ring seq fid code data : Nat) : State :=
  match s.rsd lcore ring seq with
  | none => s
  | some r =>
    match r.flight fid with
    | none => s
    | some f =>
      s.failData { r with pos := f.pos, loops := [(0, 0, f.iter)] } code data

/-- A shard query's message fails: its target is lost at once (R276, R408). -/
def State.failShard (s : State) (x : Xfer) (tag : Nat) : State :=
  match s.att.shards.find? fun q => decide (q.qtag = tag) with
  | none => s
  | some q => if q.sent && decide ((x.dmod, x.dep) = q.dest q.target) then s.targetLost q else s

/-- A resynchronisation fails: at its source the role and the work stay and held launches are released; its target leaves the pair
(R634). -/
def State.resyncFail (s : State) : State :=
  let data := s.fget SPARE_PAIR.PARTNER 0 + (s.spare.seen <<< 14)
  let s := if s.fon SPARE_RESYNC.BUSY 0 then
      let s := ((s.fset SPARE_RESYNC.FAIL 0 1).fset SPARE_RESYNC.BUSY 0 0).fset SPARE_PAIR_STATE.SRC 0 0
      { s with
        spare := { s.spare with toCopy := [], switching := false }
        mem := { s.mem with dirty := [] }
        cfe := { s.cfe with holdParts := [] } }
    else if s.fget SPARE_PAIR_STATE.ROLE 0 = 4 then s.fset SPARE_PAIR_STATE.ROLE 0 0 else s
  s.log { code := 0x0308, data := data }

/-- A transfer that carries a frame of a resynchronisation (R630). -/
def Xfer.isFrame (x : Xfer) : Bool :=
  decide (x.typ = tyMGMT) && (match x.src with | .dm .. => true | _ => false)

/-- A transfer fails with a code: its unit is told as its chapter sets out, and what stands of it is abandoned (R408, R418,
R421). -/
def State.failXfer (s : State) (x : Xfer) (code at_ : Nat) : State :=
  let data := s.lostData x code at_
  let s := match x.owner with
    | .flight lcore ring seq fid => s.failFlight lcore ring seq fid code data
    | .query tag => (s.abandonId x.id).failShard x tag
    | .piece g q _ => match s.inst g q with | some i => s.failInst i code data | none => s
    | .top g q _ => match s.inst g q with | some i => s.failInst i code data | none => s
    | .hub => if x.typ = tyGETRESP then s.refuseGet x code else if x.isFrame then s.resyncFail else s
  s.abandonId x.id

/-! ## Sending (R402, R405, R425) -/

/-- Payload of a packet of a transfer: a GET_REQ's 32 bytes, else bytes of the source. -/
def State.payFor (s : State) (x : Xfer) (off len : Nat) : MemRes :=
  match x.typ, x.src with
  | 2, .lit b => ⟨0, b, s⟩
  | _, _ => s.srcRead x off len

/-- Where a transfer's bytes at an offset are read from, for `DATA`. -/
def Xfer.srcAt (x : Xfer) (off : Nat) : Nat := x.src.addr + (off - x.lead.length)

/-- Whether a module may send to a group: it is valid and open to this sender, and the member list that the collective engine's entry of
the same number names has at most 64 (R423, R425, R499). -/
def State.groupOpen (s : State) (g : Nat) : Bool :=
  s.fon FAB_MCG.VALID g && s.fon FAB_MCG.SEND g && !(s.fon COLL_GRP.VALID g && decide (64 ≤ s.fget COLL_GRP.N_M1 g))

/-- Whether the window has room for a packet (R402). -/
def State.windowRoom (s : State) (t : SStream) (n : Nat) : Bool :=
  decide (t.inFlight + n ≤ 65536 * s.fget FAB_XPORT.WIN 0) && t.room

/-- Bytes that a transfer's next packet accounts for: a GET_REQ is one packet for all it asks. -/
def Xfer.stepLen (x : Xfer) : Nat := if x.typ = tyGETREQ then x.total - x.sent else x.nextLen

/-- Payload bytes of a transfer's next packet. -/
def Xfer.nextPay (x : Xfer) : Nat := if x.typ = tyGETREQ then 32 else x.pre.length + x.nextLen

/-- The next packet goes out, its bytes read; a read that fails fails the transfer. -/
def State.sendRead (s : State) (id : Nat) : State :=
  match s.xfer id with
  | none => s
  | some x =>
    let m := s.payFor x x.sent x.stepLen
    if m.code ≠ 0 then m.st.failXfer x m.code (x.srcAt x.sent)
    else m.st.sendNext x (m.st.streamOr x.ep x.dmod x.dep) x.stepLen m.bytes

/-- The command whose core store a transfer reads, with the site of the bytes. -/
def State.readsFrom (s : State) (x : Xfer) : Option Rsd :=
  match x.owner, x.src with
  | .flight lcore ring seq _, .cs site _ => (s.rsd lcore ring seq).map fun r => { r with site := site }
  | _, _ => none

/-- Bytes of a transfer are read from core store, with what SEC-DED finds there (R139, R140). -/
def State.eccFor (s : State) (x : Xfer) (ecc : Ecc) (k : State → State) : State :=
  match s.readsFrom x with
  | some r => s.withEcc r ecc k
  | none => k s

/-- A debug freeze holds back a transfer's packets, but not MGMT (R814). -/
def State.holdsBack (s : State) (x : Xfer) : Bool := s.frozen && decide (x.typ ≠ tyMGMT)

/-- A transfer's next packet is sent once its stream's window has room, and so is the VOID of an abandoned one's rest (R402, R418);
`hbm` and `ecc` are what memory and core store report of the bytes read. -/
def packetSendStep (id : Nat) (hbm : List Nat) (ecc : Ecc) (s : State) : State :=
  s.when (s.hubUp && s.fon FAB_CTL.EN 0) fun s =>
    match s.xfer id with
    | none => s
    | some x =>
      if s.holdsBack x then s
      else if x.failed then s.voidRest x
      else if x.stepLen = 0 then s
      else if decide (16384 ≤ x.dmod) && !s.groupOpen (x.dmod - 16384) then s.failXfer x 0x0209 (s.streamOr x.ep x.dmod x.dep).next
      else if !s.windowRoom (s.streamOr x.ep x.dmod x.dep) x.nextPay then s
      else
        (s.markBad 1 hbm).eccFor x ecc fun s => s.sendRead id

/-- The PACKET_SEND row. -/
def execPacketSend (id : Nat) (hbm : List Nat) (ecc : Ecc) (s : State) : Res := .next (packetSendStep id hbm ecc s)

/-- An outstanding packet of a stream replaced. -/
def State.setOut (s : State) (t : SStream) (o : OutPkt) : State :=
  s.setStream { t with out := t.out.map fun q => if q.seq = o.seq then o else q }

/-- An outstanding packet sent again, with `RETX` and its bytes read again from their source, with what SEC-DED finds there; `OPEN`
stands in the first packet of its entry alone (R140, R378, R405, R414). -/
def State.resend (s : State) (t : SStream) (o : OutPkt) (ecc : Ecc) : State :=
  match s.xfer o.xfer with
  | none => s
  | some x =>
    let t := { t with last := s.time.now }
    let again := PFL.RETX.mk1 1 + PFL.OPEN.mk1 (b2n o.first)
    if o.void then (s.setOut t o).hubSend (s.voidPkt x o.seq o.claim again)
    else s.eccFor x ecc fun s =>
      let m := s.payFor x o.off o.len
      if m.code ≠ 0 then m.st.failXfer x m.code (x.srcAt o.off)
      else
        let fl := PFL.LAST.mk1 (b2n (decide (o.off + o.len = x.total))) + again
        (m.st.setOut t o).hubSend (m.st.xferPkt x o.seq (x.addrAt o.off) fl (if x.typ = tyGETREQ then m.bytes else x.pre ++ m.bytes))

/-- No ACK has covered a packet within its timer: it is sent again, and its timer doubles up to 16 × `RTO`; one that a retryable
refusal delayed goes again after `RTO` as it stands (R404, R405). -/
def rtoTimeoutStep (ep dmod dep seq : Nat) (hbm : List Nat) (ecc : Ecc) (s : State) : State :=
  s.when (s.hubUp && s.fon FAB_CTL.EN 0) fun s =>
    match s.stream ep dmod dep with
    | none => s
    | some t =>
      match t.out.find? fun o => decide (o.seq = seq) with
      | none => s
      | some o =>
        if !(s.xfer o.xfer).any s.holdsBack && decide (o.tSent + o.rto * 1000 ≤ s.time.now) then
          let rto := if o.retry then s.rto else min (2 * o.rto) (16 * s.rto)
          (s.markBad 1 hbm).resend t { o with tSent := s.time.now, rto := rto, retry := false } ecc
        else s

/-- The RTO_TIMEOUT row. -/
def execRtoTimeout (ep dmod dep seq : Nat) (hbm : List Nat) (ecc : Ecc) (s : State) : Res :=
  .next (rtoTimeoutStep ep dmod dep seq hbm ecc s)

/-- The oldest packet of a stream that is no VOID has waited `STALL`: its transfer fails (R407). -/
def windowStallStep (ep dmod dep : Nat) (s : State) : State :=
  s.when s.hubUp fun s =>
    match s.stream ep dmod dep with
    | none => s
    | some t =>
      match t.out.find? fun o => !o.void with
      | none => s
      | some o =>
        if o.t0 + s.stallNs ≤ s.time.run then
          match s.xfer o.xfer with
          | some x => s.failXfer x 0x0202 o.seq
          | none => s
        else s

/-- The WINDOW_STALL row. -/
def execWindowStall (ep dmod dep : Nat) (s : State) : Res := .next (windowStallStep ep dmod dep s)

/-- The stream entry is gone, with the failed transfers whose VOIDs stood in it or were still to come. -/
def State.releaseStream (s : State) (t : SStream) : State :=
  let gone (x : Xfer) : Bool := x.failed && decide (x.ep = t.ep) && decide (x.dmod = t.dmod) && decide (x.dep = t.dep)
  let s := s.dropXfers gone
  { s with fab := { s.fab with sstr := s.fab.sstr.filter fun u => !t.same u } }

/-- An abandoned transfer of a stream whose VOIDs have gone unacknowledged for `STALL` (R419). -/
def State.voidLate (s : State) (t : SStream) (x : Xfer) : Bool :=
  x.failed && decide (x.ep = t.ep) && decide (x.dmod = t.dmod) && decide (x.dep = t.dep) &&
  s.fab.voids.any fun v => decide (v.1 = x.id) && decide (v.2 + s.stallNs ≤ s.time.run)

/-- VOIDs have gone unacknowledged for `STALL`: the source stream entry is released and WINDOW_STALL logged (R419). -/
def voidStallStep (ep dmod dep : Nat) (s : State) : State :=
  s.when s.hubUp fun s =>
    match s.stream ep dmod dep with
    | some t =>
      if s.fab.xfers.any (s.voidLate t) then
        let dest := if dmod < 16384 then epAddr dmod dep else dmod - 16384
        (s.releaseStream t).log { code := 0x0202, data := fabData (epAddr s.self ep) dest t.next 0 }
      else s
    | none => s

/-- The VOID_STALL row. -/
def execVoidStall (ep dmod dep : Nat) (s : State) : Res := .next (voidStallStep ep dmod dep s)

/-- A destination entry with no packet and no open message for `IDLE` ms is released, unless a mirror pair keys it (R414). -/
def streamIdleStep (smod sep dep : Nat) (s : State) : State :=
  s.when s.hubUp fun s =>
    match s.fab.dstr.find? fun t => decide (t.smod = smod) && decide (t.sep = sep) && decide (t.dep = dep) with
    | none => s
    | some t =>
      if !s.fon FAB_PAIR.VALID smod && !s.hasOpen smod sep dep &&
          decide (t.last + s.fget FAB_XPORT.IDLE 0 * 1000000 ≤ s.time.now) then
        { s with fab := { s.fab with dstr := s.fab.dstr.filter fun u =>
          !(decide (u.smod = smod) && decide (u.sep = sep) && decide (u.dep = dep)) } }
      else s

/-- The STREAM_IDLE row. -/
def execStreamIdle (smod sep dep : Nat) (s : State) : Res := .next (streamIdleStep smod sep dep s)

/-- Whether a transfer has something left to send on a stream. -/
def Xfer.pendingOn (x : Xfer) (t : SStream) : Bool :=
  decide (x.ep = t.ep) && decide (x.dmod = t.dmod) && decide (x.dep = t.dep) &&
  (if x.failed then decide (x.rest ≠ 0) else decide (x.sent < x.total))

/-- A source stream entry whose packets are all acknowledged is released 50 ms after it last sent; a pair member keeps its
entries (R414, R617). -/
def sourceStreamReleaseStep (ep dmod dep : Nat) (s : State) : State :=
  s.when s.hubUp fun s =>
    match s.stream ep dmod dep with
    | none => s
    | some t =>
      if t.out.isEmpty && !s.inPair && decide (t.last + 50000000 ≤ s.time.now) && !s.fab.xfers.any (·.pendingOn t) then
        s.releaseStream t
      else s

/-- The SOURCE_STREAM_RELEASE row. -/
def execSourceStreamRelease (ep dmod dep : Nat) (s : State) : Res := .next (sourceStreamReleaseStep ep dmod dep s)

/-! ## ACK and NACK (R403 to R409, R421, R425) -/

/-- Whether an arriving response reaches the source's streams: it is whole and the hub takes part. -/
def State.heard (s : State) (p : Pkt) (ty : Nat) : Bool :=
  s.hubUp && s.fon FAB_CTL.EN 0 && decide (PH.TYPE.of p.hdr = ty) && pktSound p

/-- What a transfer's further acknowledgement brings its unit: progress, and once it is whole its end (R402, R516, R540). -/
def State.ackedMore (s : State) (x : Xfer) : State :=
  match s.xfer x.id with
  | none => s
  | some y =>
    if y.acked = x.acked then s
    else
      let s := s.ackProgress y
      if y.failed || decide (y.acked < y.total) then s
      else match y.owner with
        | .query _ => s.dropXfers fun z => decide (z.id = y.id)
        | .flight .. => s
        | _ => s.ackedColl y

/-- An ACK arrives: it releases the packets it covers of each stream it is about (R403, R425). -/
def ackStep (p : Pkt) (s : State) : State :=
  s.when (s.heard p tyACK) fun s =>
    let xs := s.fab.xfers
    let s := (s.ackStreams p).foldl (fun s t => s.release t (PH.SSEQ.of p.hdr) (leAt p.pay 0 32) (PH.RADDR.of p.hdr % 64)) s
    xs.foldl (fun s x => s.ackedMore x) s

/-- The ACK row. -/
def execAck (p : Pkt) (s : State) : Res := .next (ackStep p s)

/-- A packet leaves its stream unacknowledged; a failed transfer goes with its last VOID. -/
def State.dropOut (s : State) (t : SStream) (o : OutPkt) : State :=
  let t := { t with out := t.out.filter fun q => decide (q.seq ≠ o.seq) }
  (s.setStream t).dropXfers fun x => decide (x.id = o.xfer) && x.over t

/-- A refusal that lets the packet go again after `RTO` (R404). -/
def OutPkt.later (s : State) (o : OutPkt) : OutPkt := { o with retry := true, tSent := s.time.now, rto := s.rto }

/-- An outstanding packet's transfer fails. -/
def State.failOut (s : State) (o : OutPkt) (code : Nat) : State :=
  match s.xfer o.xfer with
  | some x => s.failXfer x code o.seq
  | none => s

/-- Whether a packet is a shard query's (R408). -/
def State.isQuery (s : State) (o : OutPkt) : Bool :=
  match s.xfer o.xfer with
  | some x => decide (x.typ = tyQUERY)
  | none => false

/-- A NACK of an outstanding packet (R404 to R408). -/
def State.nacked (s : State) (t : SStream) (o : OutPkt) (code : Nat) (ecc : Ecc) : State :=
  let lim := s.fget FAB_XPORT.RETRY 0
  match code with
  | 0x0210 =>
    let o := { o with crcN := o.crcN + 1 }
    if !o.void && decide (lim < o.crcN) then (s.setOut t o).failOut o 0x0201
    else s.resend t { o with tSent := s.time.now } ecc
  | 0x0211 => s.setOut t (o.later s)
  | 0x0203 =>
    let o := { o with unrN := o.unrN + 1 }
    if !o.void && (s.isQuery o || decide (lim < o.unrN)) then (s.setOut t o).failOut o 0x0203 else s.setOut t (o.later s)
  | _ => if o.void then s.dropOut t o else (s.dropOut t o).failOut o code

/-- The GET_REQ whose number a late final NACK names: its response cannot come (R421, log 54). -/
def State.getOf (s : State) (p : Pkt) : Option Xfer :=
  let src := PH.SRC.of p.hdr
  s.fab.xfers.find? fun x => decide (x.typ = tyGETREQ) && !x.failed && decide (x.sent = x.total) &&
    decide (x.ep = epNum (PH.DEST.of p.hdr)) && decide (s.foldMod x.dmod = s.foldMod (epMod src)) && decide (x.dep = epNum src) &&
    decide (x.req = PH.SSEQ.of p.hdr)

/-- Codes that a NACK may be retried on. -/
def retryCode (c : Nat) : Bool := [0x0210, 0x0211, 0x0203].contains c

/-- Whether an outstanding packet is the one a NACK names: by number, and where a router refused it, in its own name, by message too
(R394, log 35). -/
def State.names (s : State) (p : Pkt) (o : OutPkt) : Bool :=
  decide (o.seq = PH.SSEQ.of p.hdr) &&
  (decide (epNum (PH.SRC.of p.hdr) ≠ 0) ||
    (match s.xfer o.xfer with | some x => decide (x.msgid = PH.MSGID.of p.hdr) | none => false))

/-- The streams that a NACK can be about: those of an ACK, or where a router refused the packet every stream of the endpoint (R394,
log 35). -/
def State.nackStreams (s : State) (p : Pkt) : List SStream :=
  if epNum (PH.SRC.of p.hdr) = 0 then s.fab.sstr.filter fun t => decide (t.ep = epNum (PH.DEST.of p.hdr)) else s.ackStreams p

/-- A NACK arrives: a retry, the failure of its transfer, or nothing for a packet that is not outstanding (R409). -/
def nackStep (p : Pkt) (hbm : List Nat) (ecc : Ecc) (s : State) : State :=
  s.when (s.heard p tyNACK) fun s =>
    let code := leAt p.pay 0 2
    match (s.nackStreams p).find? fun t => t.out.any (s.names p) with
    | some t =>
      match t.out.find? (s.names p) with
      | some o => (s.markBad 1 hbm).nacked t o code ecc
      | none => s
    | none =>
      match s.getOf p with
      | some x => if retryCode code then s else s.failXfer x code (PH.SSEQ.of p.hdr)
      | none => s

/-- The NACK row. -/
def execNack (p : Pkt) (hbm : List Nat) (ecc : Ecc) (s : State) : Res := .next (nackStep p hbm ecc s)

/-! ## PUT, GET, ATOMIC and MGMT (R411, R420 to R422) -/

/-- The party on whose behalf an inbound packet acts. -/
def inboundParty (p : Pkt) : Party := ⟨PH.PART.of p.hdr, PH.WORLD.of p.hdr, none, 5⟩

/-- A PUT packet arrives: its payload is written at `RADDR` under `FPUT`. -/
def putStep (p : Pkt) (hbm : List Nat) (s : State) : State :=
  s.when (decide (PH.TYPE.of p.hdr = tyPUT)) fun s => (s.markBad 1 hbm).arrive p fun t s =>
    s.withMsg p t false (fun _ s => s.memWrite (inboundParty p) MEM_RGN.FPUT (PH.RADDR.of p.hdr) p.pay) fun _ s => s

/-- The PUT row. -/
def execPut (p : Pkt) (hbm : List Nat) (s : State) : Res := .next (putStep p hbm s)

/-- The request that a GET_REQ packet makes. -/
def getReqOf (s : State) (p : Pkt) (t : DStream) : GetReq :=
  { smod := pktMod p, sep := pktEp p, dep := t.dep, seq := PH.SSEQ.of p.hdr, msgid := PH.MSGID.of p.hdr, addr := PH.RADDR.of p.hdr,
    len := PH.MTLEN.of p.hdr, raddr := leAt p.pay 0 6, part := PH.PART.of p.hdr, world := PH.WORLD.of p.hdr,
    fold := s.foldMod (pktMod p) }

/-- A GET_REQ arrives: it is checked under `FGET` and queued, or refused with BUSY while 4,096 are queued. It counts in no
message (log 43). -/
def getReqStep (p : Pkt) (s : State) : State :=
  s.when (decide (PH.TYPE.of p.hdr = tyGETREQ)) fun s => s.arrive p fun t s =>
    if isVoid p then s.finish p t 0
    else if 4096 ≤ s.fab.gets.length then s.sendNack p 0x0211
    else match s.checkSpan (inboundParty p) MEM_RGN.FGET (PH.RADDR.of p.hdr) (PH.MTLEN.of p.hdr) with
      | 0 => { s with fab := { s.fab with gets := s.fab.gets ++ [getReqOf s p t] } }.finish p t 0
      | c => s.finish p t c

/-- The GET_REQ row. -/
def execGetReq (p : Pkt) (s : State) : Res := .next (getReqStep p s)

/-- A response begins to each physical requester: both members of a mirror pair (R420, R618). -/
def State.respond (s : State) (dep smod sep part world msgid raddr total seq : Nat) (src : Src) : State :=
  (s.answerTo smod).foldl (fun s m =>
    s.beginHub { mkXfer .hub none dep m sep tyGETRESP part world raddr total src with msgid := msgid, req := seq }) s

/-- The n-th queued GET_REQ is served: its response begins (R420). -/
def getServeStep (n : Nat) (s : State) : State :=
  s.when s.live fun s =>
    match s.fab.gets[n]? with
    | none => s
    | some g =>
      { s with fab := { s.fab with gets := s.fab.gets.eraseIdx n } }.respond g.dep g.smod g.sep g.part g.world g.msgid g.raddr
        g.len g.seq (.dm g.part g.world g.addr)

/-- The GET_SERVE row. -/
def execGetServe (n : Nat) (s : State) : Res := .next (getServeStep n s)

/-- Bytes of a response counted to its request: its unit learns of them, and of its end (R516, R530, R540). -/
def State.gotBytes (s : State) (x : Xfer) (off n : Nat) : State :=
  let y := { x with acked := x.acked + n, acks := x.acks ++ [(off, n)] }
  let s := (s.setXfer y).ackProgress y
  if y.acked < y.total then s else s.ackedColl y

/-- A GET_RESP's bytes written where the request asked; a refusal fails the request. -/
def State.respWrite (s : State) (p : Pkt) (t : DStream) : MemRes :=
  match s.requestOf p t with
  | none => ⟨0, [], s⟩
  | some x =>
    let a := PH.RADDR.of p.hdr
    match x.dst with
    | some (.dm part world _) =>
      let m := s.memWrite ⟨part, world, x.ctx, x.owner.reader⟩ MEM_RGN.WR a p.pay
      if m.code ≠ 0 then ⟨m.code, [], m.st.failXfer x m.code a⟩ else ⟨0, [], m.st.gotBytes x (a - x.sink) p.pay.length⟩
    | some (.cs site _) => ⟨0, [], (s.csWrite site a p.pay).gotBytes x (a - x.sink) p.pay.length⟩
    | _ => ⟨0, [], s⟩

/-- A GET_RESP packet arrives; without a request its bytes are not written, and counted so (R412, log 54). -/
def getRespStep (p : Pkt) (hbm : List Nat) (s : State) : State :=
  s.when (decide (PH.TYPE.of p.hdr = tyGETRESP)) fun s => (s.markBad 1 hbm).arrive p fun t s =>
    s.withMsg p t (s.requestOf p t).isNone (fun _ s => s.respWrite p t) fun _ s => s

/-- The GET_RESP row. -/
def execGetResp (p : Pkt) (hbm : List Nat) (s : State) : Res := .next (getRespStep p hbm s)

/-- An inbound ATOMIC acts under `FPUT` at an 8-byte-aligned address. A reserved operation or another alignment is refused with a
status that the spec does not give, so a free value (R220, R422, log 55). -/
def State.inboundAtom (s : State) (p : Pkt) (t : DStream) : MemRes :=
  let op := leAt p.pay 0 1
  let a := PH.RADDR.of p.hdr
  if 4 < op ∨ a % 8 ≠ 0 then ⟨0x0200 + s.freeV 8, [], s.drew⟩
  else
    let m := s.memRead (inboundParty p) MEM_RGN.FPUT a 8
    if m.code ≠ 0 then m
    else
      let old := ofLE m.bytes
      let w := m.st.memPut (inboundParty p) MEM_RGN.FPUT a (leBytes 8 (atomNew op old (leAt p.pay 8 8) (leAt p.pay 16 8)))
      if w.code ≠ 0 then w
      else if [1, 2, 3].contains op then
        ⟨0, [], w.st.respond t.dep (pktMod p) (pktEp p) (PH.PART.of p.hdr) (PH.WORLD.of p.hdr) (PH.MSGID.of p.hdr) (leAt p.pay 24 6)
          8 (PH.SSEQ.of p.hdr) (.lit (leBytes 8 old))⟩
      else ⟨0, [], w.st⟩

/-- An ATOMIC packet arrives; no unit of this module sends one, so no divergence is counted here (R422). -/
def atomicStep (p : Pkt) (hbm : List Nat) (s : State) : State :=
  s.when (decide (PH.TYPE.of p.hdr = tyATOMIC)) fun s => (s.markBad 1 hbm).arrive p fun t s =>
    s.withMsg p t false (fun _ s => s.inboundAtom p t) fun _ s => s

/-- The ATOMIC row. -/
def execAtomic (p : Pkt) (hbm : List Nat) (s : State) : Res := .next (atomicStep p hbm s)

/-- An MGMT packet arrives at endpoint 0. In fault-closing mode a whole message may be a neighbour's notice of a port, on which
firmware recomputes the tables (R377, R429, log 53). -/
def mgmtStep (p : Pkt) (s : State) : State :=
  s.when (decide (PH.TYPE.of p.hdr = tyMGMT)) fun s => s.arriveMsg p fun _ _ s => s.reshape

/-- The MGMT row. -/
def execMgmt (p : Pkt) (s : State) : Res := .next (mgmtStep p s)

end Sys2Proof.Machine
end

