-- ==== Sys2Proof/Machine/Gather.lean ====
section
/-! DEFINITION. Gather: an image cut into blocks with their headers, which of them a core keeps, and the rounds of its delivery (R659 to
R661, R783). -/
set_option autoImplicit false
namespace Sys2Proof.Machine

/-- One bit of CRC-32C, reflected. -/
def crc32cBit (c : Nat) : Nat := if c % 2 = 1 then (c / 2) ^^^ 0x82F63B78 else c / 2

/-- CRC-32C: polynomial 0x1EDC_6F41, reflected input and output, initial value and final XOR all ones (R660). -/
def crc32c (b : List Byte) : Nat :=
  b.foldl (fun c x => (List.range 8).foldl (fun c _ => crc32cBit c) (c ^^^ x.toNat)) 0xFFFFFFFF ^^^ 0xFFFFFFFF

/-- Blocks of an image. -/
def blockCount (img : List Byte) : Nat := ceilDiv img.length 8192

/-- The payload of block i, the last block padded with zeros. -/
def blockBytes (img : List Byte) (i : Nat) : List Byte :=
  let b := slice img (8192 * i) 8192
  b ++ zeros (8192 - b.length)

/-- The leftmost 32 bits of an image's SHA-256 (R659). -/
def imageId (img : List Byte) : Nat := ((sha256 img).take 4).foldl (fun a b => 256 * a + b.toNat) 0

/-- Block i as the hub sends it: its header, then its payload (R659). -/
def blockSent (img : List Byte) (i : Nat) : List Byte :=
  let b := blockBytes img i
  leBytes 32 (packFields [(GBH.SEQ, i), (GBH.NBLK, blockCount img), (GBH.CRC, crc32c b), (GBH.IMAGE, imageId img)]) ++ b

/-- The block that a core keeps of the bytes that arrive, if any: `CRC`, `IMAGE` and `NBLK` agree, and `SEQ` is below `NBLK` (R660). -/
def blockKept (img b : List Byte) : Option Nat :=
  let h := ofLE (b.take 32)
  if decide (b.length = 8224) && decide (GBH.CRC.of h = crc32c (b.drop 32)) && decide (GBH.IMAGE.of h = imageId img) &&
      decide (GBH.NBLK.of h = blockCount img) && decide (GBH.SEQ.of h < GBH.NBLK.of h) then some (GBH.SEQ.of h) else none

/-- One copy of block i on its way to a site in a round: whole unless the machine altered it, and then what the site keeps of what came. -/
def copyTaken (img : List Byte) (cs : List BlockCopy) (site round i m : Nat) : Nat :=
  match cs.find? fun c => decide (c.site = site) && decide (c.round = round) && decide (c.block = i) with
  | none => m ||| 2 ^ i
  | some c =>
    match blockKept img c.came with
    | some k => m ||| 2 ^ k
    | none => m

/-- A round: the multicast of every block, or the blocks that the site's bitmap lacks, point to point (R661). -/
def gatherRound (img : List Byte) (cs : List BlockCopy) (site round m : Nat) : Nat :=
  (List.range (blockCount img)).foldl (fun a i => if round ≠ 0 ∧ m.testBit i = true then a else copyTaken img cs site round i a) m

/-- The bitmap of a site after the multicast and three rounds of repair: bit i says that block i is held (R661). -/
def gatherBitmap (img : List Byte) (cs : List BlockCopy) (site : Nat) : Nat :=
  [0, 1, 2, 3].foldl (fun m r => gatherRound img cs site r m) 0

/-- The sites among those that met an altered copy which still lack a block, with their bitmaps. -/
def gatherLacks (img : List Byte) (cs : List BlockCopy) : List (Nat × Nat) :=
  (((cs.map (·.site)).eraseDups).map fun k => (k, gatherBitmap img cs k)).filter fun e => decide (e.2 ≠ 2 ^ blockCount img - 1)

end Sys2Proof.Machine
end

