-- ==== Sys2Proof/Machine/FwOps.lean ====
section
/-! DEFINITION. Vendor keys, the checks of a firmware bundle, and how its images decrypt (R762, R773 to R778). -/
set_option autoImplicit false
namespace Sys2Proof.Machine

/-- Whether a public key is a vendor key that the lifecycle state accepts: the development key only in FACTORY and DEVELOP
(R762). -/
def State.vendorKey (s : State) (key : List Byte) : Bool :=
  let h := ofLE (sha256 key)
  decide (h = Config.vendorHash false) || (decide (s.fget SEC_LIFE.LCS 0 ≤ 1) && decide (h = Config.vendorHash true))

/-! ## The bundle (R773 to R778) -/

/-- Largest image of a component (R773). -/
def imageMax : Nat → Nat
  | 1 => 524288 | 2 => 1048576 | 3 => 524288 | 4 => 1048576 | _ => 0

/-- The entries of a manifest. -/
def manifestEntries (b : List Byte) : List Nat :=
  (List.range (MFH.NENT.of (ofLE (b.take 128)))).map fun i => ofLE (slice b (128 + 96 * i) 96)

/-- Bytes that the manifest's signature covers: header, entries and key (R773). -/
def manifestSpan (b : List Byte) : Nat := 128 + 96 * (manifestEntries b).length + 60

/-- Whether an entry is well formed (R775). -/
def entryOk (secfw : Bool) (e : Nat) : Bool :=
  let t := MFE.TYPE.of e
  decide (1 ≤ t) && decide (t ≤ 4) && decide (MFE.SVN.of e ≤ 64) && (decide (t = 4) || decide (MFE.MCODE_REV.of e = 0)) &&
  decide (e &&& MFE.reserved = 0) && (!(secfw && decide (t = 4)) || decide (MFE.OFFSET.of e = 0))

/-- Whether a manifest's signature, header and entries pass (R774, R775, R777). -/
def State.manifestOk (s : State) (b : List Byte) (secfw : Bool) : Bool :=
  let h := ofLE (b.take 128)
  let es := manifestEntries b
  let n := manifestSpan b
  let key := slice b (n - 60) 60
  decide (n ≤ b.length) && decide (MFH.MAGIC.of h = 0x4E4C4D46) && decide (MFH.FMT.of h = 1) &&
  (if secfw then decide (es.length = 4) else decide (1 ≤ es.length) && decide (es.length ≤ 4)) &&
  decide (MFH.SIZE.of h = s.fget GCTL_PART_ID.SIZE 0) && decide (MFH.STEP_NUM.of h = s.fget GCTL_PART_ID.STEP_NUM 0) &&
  decide (MFH.STEP_LTR.of h = s.fget GCTL_PART_ID.STEP_LTR 0) && decide (h &&& MFH.reserved = 0) &&
  es.all (entryOk secfw) && decide ((es.map MFE.TYPE.of).eraseDups.length = es.length) &&
  s.vendorKey key && (hssSigned key (b.take n) (b.drop n)).isSome

/-- The manifest of a bundle with its signature: what measurement 6 hashes (R765, R773). -/
def manifestBytes (b : List Byte) : List Byte :=
  b.take (manifestSpan b + (hssLen (b.drop (manifestSpan b))).getD 0)

/-- The counter of a component's security version (R778). -/
def State.svnOf (s : State) (t : Nat) : Nat := bitsOf s.fuse.svn (8 * (t - 1)) 8

/-- The key of an image, from the manifest's salt, the entry's `TYPE` and `SVN` and the device-class key (R776). -/
def imageKey (salt e : Nat) : List Nat :=
  (hkdfExpand (hmac (leBytes 32 salt) Config.classKey)
    (ascii "ETIEN FW" ++ leBytes 1 (MFE.TYPE.of e) ++ leBytes 1 (MFE.SVN.of e))).map (·.toNat)

/-- The plaintext of an image under its entry's key and `NONCE` (R776). -/
def imagePlain (salt e : Nat) (img : List Byte) : List Byte :=
  (gcmXor (imageKey salt e) (numBytes 12 (MFE.NONCE.of e)) (img.map (·.toNat))).map (BitVec.ofNat 8)

/-- An image's length holds, its GCM tag verifies with entry bytes 0 to 15 as additional data, and its plaintext has the digest (R773, R776,
R777). -/
def imageOpens (salt e : Nat) (img : List Byte) : Bool :=
  decide (img.length = MFE.LEN.of e) && decide (MFE.LEN.of e ≤ imageMax (MFE.TYPE.of e)) &&
  decide (gcmTagWith (imageKey salt e) (numBytes 12 (MFE.NONCE.of e)) (numBytes 16 e) (img.map (·.toNat)) = numBytes 16 (MFE.TAG.of e)) &&
  decide (ofLE (sha256 (imagePlain salt e img)) = MFE.DIGEST.of e)

/-- An image is delivered to every site that is not fenced: the bitmaps that are left incomplete are kept (R659 to R661). -/
def State.deliver (s : State) (img : List Byte) (cs : List BlockCopy) : State :=
  { s with boot := { s.boot with gatherN := blockCount img, gatherMap := (gatherLacks img cs).foldl (fun t e => tput t e.1 e.2) [] } }

/-- The sites that a delivery left incomplete, in the order of their first altered copies. -/
def incomplete (img : List Byte) (cs : List BlockCopy) : List Nat := (gatherLacks img cs).map (·.1)

/-- The image of an entry in its bundle. -/
def imageIn (b : List Byte) (e : Nat) : List Byte := slice b (MFE.OFFSET.of e) (MFE.LEN.of e)

/-- The code of the first check that a bundle fails, or 0 (R774, R775, R777, R778); at SECFW the microcode image comes later. -/
def State.bundleCode (s : State) (b : List Byte) (secfw : Bool) : Nat :=
  if !s.manifestOk b secfw then 0x0602
  else
    let es := manifestEntries b
    let salt := MFH.SALT.of (ofLE (b.take 128))
    if es.any fun e => decide (MFE.SVN.of e < s.svnOf (MFE.TYPE.of e)) then 0x0604
    else if es.all fun e => (secfw && decide (MFE.TYPE.of e = 4)) || imageOpens salt e (imageIn b e) then 0
    else 0x0603

/-- The entry in effect for a component. -/
def State.fwEntry (s : State) (t : Nat) : Nat := tget s.fw.entries t 0

/-- Entries put into effect, and `MCODE` with a microcode entry (R549, R785). -/
def State.putEntries (s : State) (es : List Nat) : State :=
  { s with fw := { s.fw with entries := es.foldl (fun t e => tset t (MFE.TYPE.of e) e 0) s.fw.entries } }

end Sys2Proof.Machine
end

