-- ==== Sys2Proof/Machine/WaitGraph.lean ====
section
/-! DEFINITION. The wait-for graph that a hang's capture holds (R808 to R810). -/
set_option autoImplicit false
namespace Sys2Proof.Machine

/-- An edge of the graph; `to_` is none for NONE. -/
structure WEdge where
  from_ : Nat
  to_   : Option Nat
  ctr   : Nat
  pidx  : Nat
  value : Nat
  thr   : Nat
  deriving DecidableEq, Repr

/-- The unfired descriptors of a list in order, from its next one up to END: read with `FETCH`, at most 4,096 beyond the next
one; whether the limit cut them, and whether the read was refused (R810). -/
def State.unfired (s : State) (r : Rsd) : List Nat × Bool × Bool :=
  if r.ended || decide (r.wlLen ≤ r.pos) then ([], false, false)
  else
    let n := min 4097 (r.wlLen - r.pos)
    let m := s.fetchAt r r.pos n
    if m.code ≠ 0 then ([], false, true)
    else
      let ds := (List.range n).map fun k => leAt m.bytes (64 * k) 64
      let upto := ds.takeWhile fun d => decide (DESC.OPCODE.of d ≠ 0x53)
      (upto, decide (upto.length = n) && decide (n < r.wlLen - r.pos), false)

/-- Whether a descriptor of list `q` signals counter `c` on core `l` (R808). -/
def signalsCtr (q : Rsd) (d l c : Nat) : Bool :=
  let o := DESC.OPCODE.of d
  (DESC.S_EN.on d && decide (DESC.S_CTR.of d = c) &&
    (decide (o = 0x41) || decide ((if DESC.S_REM.on d then DESC.S_CORE.of d else q.lcore) = l))) ||
  (decide (o = 0x30) && SM.P_EN.on d && decide (SM.P_CTR.of d = c) &&
    decide ((if SM.DST_SP.of d = 2 then SM.DST_CORE.of d else q.lcore) = l)) ||
  (decide (o = 0x61) && AGA.P_EN.on d && decide (AGA.P_CTR.of d = c) && decide (q.lcore = l))

/-- Counters that hold a list back, with the threshold each waits for: unmet conditions of its next descriptor, and credits of
transfers under way (R152, R808). -/
def waitsOf (r : Rsd) (next : Option Nat) : List (Nat × Nat) :=
  let conds := match next with
    | some d =>
      let one (en ctr thr step : BF) : List (Nat × Nat) :=
        if en.on d && !r.condHolds d ctr thr step then [(ctr.of d, effThr d r.iter thr step)] else []
      one DESC.W0_EN DESC.W0_CTR DESC.W0_THR DESC.W0_STEP ++ one DESC.W1_EN DESC.W1_CTR DESC.W1_THR DESC.W1_STEP
    | none => []
  let credit := r.flights.filterMap fun f =>
    let o := DESC.OPCODE.of f.word
    let (en, ctr, slots) :=
      if o = 0x30 then (SM.C_EN.on f.word && decide (f.started < partCount f.word), SM.C_CTR.of f.word, SM.SLOTS_M1.of f.word + 1)
      else (decide (o = 0x61) && AGA.C_EN.on f.word && decide (f.started < f.list.length), AGA.C_CTR.of f.word, AGA.SLOTS_M1.of f.word + 1)
    let need := f.started + 1 - slots
    if en && decide (r.ctrs.getD ctr 0 < need) then some (ctr, need) else none
  conds ++ credit

/-- The edges out of node `k`. -/
def edgesOf (lists : List (Rsd × List Nat)) (k : Nat) (r : Rsd) (next : Option Nat) : List WEdge :=
  (waitsOf r next).flatMap fun w =>
    let v := r.ctrs.getD w.1 0
    let hits := lists.zipIdx.flatMap fun e =>
      (e.1.2.zipIdx.filter fun d => signalsCtr e.1.1 d.1 r.lcore w.1).map fun d => (e.2, e.1.1.pos + d.2)
    if hits.isEmpty then [⟨k, none, w.1, 0, v, w.2⟩] else hits.map fun h => ⟨k, some h.1, w.1, h.2, v, w.2⟩

/-- Edges that can lie on a cycle: those whose target still has an edge out, again and again. -/
def pruneEdges : Nat → List WEdge → List WEdge
  | 0, l => l
  | n + 1, l => pruneEdges n (l.filter fun e => l.any fun f => decide (e.to_ = some f.from_))

/-- What a node waits for (R809): its list's end, unmet conditions, its engine, credit, or remote completions. -/
def State.nodeWait (s : State) (r : Rsd) (next : Option Nat) : Nat :=
  match next with
  | some d => if r.met d then 2 else 0
  | none =>
    if !(waitsOf r none).isEmpty then 1
    else if s.fab.xfers.any (fun x => match x.owner with
      | .flight l g q _ => decide (l = r.lcore) && decide (g = r.ring) && decide (q = r.seq)
      | _ => false) || s.core.sigs.any (fun g => decide (g.ring = r.ring) && decide (g.seq = r.seq) && decide (g.src = r.lcore)) then 3
    else if r.flights.isEmpty then 4 else 2

/-- A node's record (R809). -/
def State.nodeBytes (s : State) (r : Rsd) (next : Option Nat) : List Byte :=
  let op := (next.map DESC.OPCODE.of).getD 0
  let wany := (next.map DESC.WANY.on).getD false
  leBytes 32 (r.lcore + (r.pos <<< 11) + (r.iter <<< 31) + (op <<< 63) + (s.nodeWait r next <<< 71) + (b2n wany <<< 74))

/-- An edge's record (R809). -/
def WEdge.bytes (e : WEdge) : List Byte :=
  leBytes 16 (e.from_ + ((e.to_.getD 0xFFFF) <<< 16) + (e.ctr <<< 32) + (e.pidx <<< 38) + (e.value <<< 64) + (e.thr <<< 96))

/-- The wait-for graph of a command (R808 to R810). -/
def State.waitGraph (s : State) (ring seq : Nat) : List Byte :=
  let rs := (s.core.rsds.filter fun r => decide (r.ring = ring) && decide (r.seq = seq)).take 65535
  let scans := rs.map fun r => (r, s.unfired r)
  let lists := scans.map fun e => (e.1, e.2.1)
  let nexts := scans.map fun e => (e.1, if e.1.ended then none else (tfind e.1.buf e.1.pos <|> e.2.1.head?))
  let all := nexts.zipIdx.flatMap fun e => edgesOf lists e.2 e.1.1 e.1.2
  let edges := all.take 262144
  let cyc := !(pruneEdges (rs.length + 1) edges).isEmpty
  let noprod := edges.any fun e => e.to_.isNone
  let trunc := scans.any (fun e => e.2.2.1) || decide (262144 < all.length)
  let unread := scans.any fun e => e.2.2.2
  leBytes 32 (rs.length + (edges.length <<< 32) + (b2n cyc <<< 64) + (b2n noprod <<< 65) + (b2n trunc <<< 66) + (b2n unread <<< 67)) ++
  (nexts.flatMap fun e => s.nodeBytes e.1 e.2) ++ edges.flatMap WEdge.bytes

end Sys2Proof.Machine
end

