-- ==== Sys2Proof/Machine/CfeRows.lean ====
section
/-! DEFINITION. The command front end: roles, rings, doorbells, reading, launching and completing commands, and the context
table (R27 to R51, R330 to R369). -/
set_option autoImplicit false
namespace Sys2Proof.Machine

/-! ## The phase role (R39 to R51) -/

/-- Logical clusters that are not absent on a die (R44). -/
def State.presentClusters (s : State) (d : Nat) : Nat :=
  ((List.range 64).filter fun c => !s.fon SPARE_CMAP.ABSENT (64 * d + c)).length

/-- Whether a `GCTL_ROLE` write is rejected (R44). -/
def State.roleBad (s : State) (v : Nat) : Bool :=
  let n := GCTL_ROLE.SERVE_CL.val v
  decide (n = 0) || (List.range 4).any fun d => decide (s.presentClusters d < n)

/-- A write to `GCTL_ROLE`: `PEND` is 1 while `ROLE` differs from `ROLE_ACT` (R39, R51). -/
def gctlRoleWriteStep (w : Who) (v : Nat) (s : State) : State :=
  s.when (s.reaches w) fun s =>
    s.regWrite w .GCTL_ROLE 0 v (fun s => s.roleBad v) fun s =>
      let s := s.putRW .GCTL_ROLE 0 v
      s.fput GCTL_ROLE.PEND 0 (decide (s.fget GCTL_ROLE.ROLE 0 ≠ s.fget GCTL_ROLE.ROLE_ACT 0))

/-- The GCTL_ROLE_WRITE row. -/
def execGctlRoleWrite (w : Who) (v : Nat) (s : State) : Res := .next (gctlRoleWriteStep w v s)

/-- A pending role takes effect once nothing launched and no accepted query is left; an accepted shipment is written in one step,
so none is ever left (R47). -/
def roleTakesEffectStep (s : State) : State :=
  s.when (s.hubUp && s.fon GCTL_ROLE.PEND 0 && !s.cfe.cmds.any (·.launched) && s.att.queries.isEmpty) fun s =>
    (s.fset GCTL_ROLE.ROLE_ACT 0 (s.fget GCTL_ROLE.ROLE 0)).fset GCTL_ROLE.PEND 0 0

/-- The ROLE_TAKES_EFFECT row. -/
def execRoleTakesEffect (s : State) : Res := .next (roleTakesEffectStep s)

/-! ## Armed actions (R77, R78) -/

/-- The armed action at position k falls due: it is no longer armed, and what it starts (LAUNCH, ACTIVATION) may proceed,
since those act from count T on (R77, R78). A due `T_LAUNCH` wakes the module (R369, R718). -/
def armedActionStep (k : Nat) (s : State) : State :=
  match s.time.armed[k]? with
  | some a =>
    if s.live && decide (a.count ≤ s.count) then
      let s := { s with time := { s.time with armed := s.time.armed.eraseIdx k } }
      if a.kind = 0 then s.wake else s
    else s
  | none => s

/-- The ARMED_ACTION row. -/
def execArmedAction (k : Nat) (s : State) : Res := .next (armedActionStep k s)

/-! ## Doorbells (R336 to R339, R728) -/

/-- A doorbell that is ignored and logged. -/
def State.bellBad (s : State) (page : Nat) : State := s.logX 0x0709 (ringCtx page) page

/-- A doorbell that reaches its ring over the link: it wakes the module; then the world of R728, and `act` with whether the ring
answers, and `IDX` (R326, R369). -/
def State.bell (s : State) (w : Who) (page v : Nat) (act : Bool → Nat → State → State) : State :=
  s.when (s.reaches w && decide (w ≠ .mc)) fun s =>
    if w = .fw then s.logC 0x050D else
    let s := s.wake
    if w = .ns ∧ s.ctxWorld (ringCtx page) = 1 then s.log { code := 0x0503, ctx := some (ringCtx page), data := page }
    else act (decide (BELL.RING.of v = page) && s.fon CFE_RING_CMD.EN page) (BELL.IDX.of v) s

/-- A command doorbell: a tail that moves backward is ignored in silence, and judged first (R337). -/
def commandDoorbellStep (w : Who) (page v : Nat) (s : State) : State :=
  s.bell w page v fun ok idx s =>
    let head := s.fget CFE_RING_PTR.HEAD page
    let tail := s.fget CFE_RING_PTR.TAIL page
    if ok && decide (2 ^ 31 ≤ wrapSub 32 idx tail) then s
    else if ok && decide (wrapSub 32 idx head ≤ 2 ^ s.fget CFE_RING_CMD.K page) then s.fset CFE_RING_PTR.TAIL page idx
    else s.bellBad page

/-- The COMMAND_DOORBELL row. -/
def execCommandDoorbell (w : Who) (page v : Nat) (s : State) : Res := need (wfRing page) (commandDoorbellStep w page v s)

/-- A completion doorbell (R338). -/
def completionDoorbellStep (w : Who) (page v : Nat) (s : State) : State :=
  s.bell w page v fun ok idx s =>
    let h := s.fget CFE_RING_CPTR.CHEAD page
    if ok && decide (wrapSub 32 idx h ≤ wrapSub 32 (s.fget CFE_RING_CPTR.CTAIL page) h) then s.fset CFE_RING_CPTR.CHEAD page idx
    else s.bellBad page

/-- The COMPLETION_DOORBELL row. -/
def execCompletionDoorbell (w : Who) (page v : Nat) (s : State) : Res :=
  need (wfRing page) (completionDoorbellStep w page v s)

/-! ## Reading commands (R341 to R349) -/

/-- Commands of a ring that have been read and have no record. -/
def State.ringCmds (s : State) (r : Nat) : List Cmd := s.cfe.cmds.filter fun c => decide (c.ring = r)

/-- Commands of a ring that are not yet launched, oldest first. -/
def State.unlaunched (s : State) (r : Nat) : List Cmd := (s.ringCmds r).filter fun c => !c.launched

/-- Whether the CFE may read the next command of a ring (R341, R342, R364, R369, R594). -/
def State.mayRead (s : State) (r : Nat) : Bool :=
  let head := s.fget CFE_RING_PTR.HEAD r
  s.inService && s.awake && s.fon CFE_RING_CMD.EN r && decide (s.fget CTX_STATE.STATE (ringCtx r) = 1) &&
  !s.fon SPARE_ESC.WITHDRAWN 0 && decide (head ≠ s.fget CFE_RING_PTR.TAIL r) &&
  (match (s.unlaunched r).head? with | some c => decide (wrapSub 32 head c.seq ≤ 64) | none => true) &&
  decide (wrapSub 32 (s.fget CFE_RING_CPTR.CTAIL r) (s.fget CFE_RING_CPTR.CHEAD r) + (s.ringCmds r).length <
    2 ^ s.fget CFE_RING_CPL.J r)

/-- Why a launch-table entry may not stand, after the entry before it (R346). -/
def lteBad (prev : Option Nat) (e : Nat) : Bool :=
  decide (e &&& LTE.reserved ≠ 0) || (match prev with | some p => decide (LTE.LCORE.of e ≤ p) | none => false) ||
  decide (LTE.WIN_LEN.of e = 0) || decide (32 < LTE.WIN_BASE.of e + LTE.WIN_LEN.of e) ||
  decide (LTE.WL_LEN.of e = 0) || decide (2 ^ 20 < LTE.WL_LEN.of e)

/-- Whether a launch table breaks R346. -/
def ltBad : Option Nat → List Nat → Bool
  | _, [] => false
  | prev, e :: r => lteBad prev e || ltBad (some (LTE.LCORE.of e)) r

/-- What checking a command gives: 0 or the code that completes it, its table, and whether reading the table failed. -/
structure CmdCheck where
  code : Nat
  lt : List Nat
  memFail : Bool
  st : State

/-- The launch table of a LAUNCH, read with `FETCH` and checked (R345, R346). -/
def State.readLt (s : State) (ctx word : Nat) : CmdCheck :=
  let n := CMD.NCORES_M1.of word + 1
  let r := s.memRead (s.accOf ctx 2) MEM_RGN.FETCH (CMD.LT_ADDR.of word <<< 6) (32 * n)
  if r.code ≠ 0 then ⟨r.code, [], true, r.st⟩
  else
    let lt := (List.range n).map fun k => leAt r.bytes (32 * k) 32
    ⟨if ltBad none lt then 0x0703 else 0, lt, false, r.st⟩

/-- The checks made on a command as it is read, in the order of R346, R348 and R349. -/
def State.checkCmd (s : State) (r word : Nat) : CmdCheck :=
  let ctx := ringCtx r
  let op := CMD.OP.of word
  let c : CmdCheck :=
    if decide (2 < op) || decide (word &&& CMD.reserved ≠ 0) || (decide (op ≤ 1) && decide (CMD.BODY.of word ≠ 0)) then
      ⟨0x0702, [], false, s⟩
    else if op = 1 then s.readLt ctx word
    else if op = 2 then
      let m := s.collCheck ctx word
      ⟨m.1, m.2.1, m.2.2.1, m.2.2.2⟩
    else ⟨0, [], false, s⟩
  if c.code ≠ 0 then c
  else if CMD.DEP_EN.on word && !c.st.fon CFE_RING_CMD.EN (32 * ctx + CMD.DEP_RING.of word) then { c with code := 0x0708 }
  else if CMD.AT_COUNT.on word && c.st.unsync then { c with code := 0x070D }
  else c

/-- A command as it stands when it has been read. -/
def newCmd (r seq word : Nat) (lt : List Nat) : Cmd :=
  { ring := r, seq := seq, word := word, lt := lt, launched := false, order := 0, expect := 0, ndone := 0, arith := 0,
    tStart := 0, uStart := false, cnt0 := [], energy0 := 0, lastProg := 0, coll := decide (CMD.OP.of word = 2) }

/-- A command whose bytes have been read: it completes at once, or waits for launch (R346 to R350). -/
def State.takeCmd (s : State) (r seq word : Nat) : State :=
  let k := s.checkCmd r word
  let c := newCmd r seq word k.lt
  let s := { k.st with cfe := { k.st.cfe with cmds := k.st.cfe.cmds ++ [c] } }
  if k.code ≠ 0 then
    let s := s.complete c k.code
    if k.memFail then s.ctxReset (ringCtx r) k.code (faultData (CMD.LT_ADDR.of word <<< 6) 2) else s
  else if CMD.AT_COUNT.on word then s.arm (CMD.T_LAUNCH.of word) 0 r seq
  else s

/-- The CFE reads the next command of ring r; `hbm` names granules the stack reports uncorrectable (R341, R342, R311). -/
def commandReadStep (r : Nat) (hbm : List Nat) (s : State) : State :=
  s.when (s.live && s.mayRead r) fun s =>
    let s := s.markBad 1 hbm
    let head := s.fget CFE_RING_PTR.HEAD r
    let addr := (s.fget CFE_RING_CMD.BASE r <<< 12) + 64 * (head % 2 ^ s.fget CFE_RING_CMD.K r)
    let m := s.rawRead (s.accOf (ringCtx r) 2) addr 64
    if m.code ≠ 0 then m.st.ctxReset (ringCtx r) m.code (faultData addr 2)
    else (m.st.fset CFE_RING_PTR.HEAD r (head + 1)).takeCmd r head (ofLE m.bytes)

/-- The COMMAND_READ row. -/
def execCommandRead (r : Nat) (hbm : List Nat) (s : State) : Res := need (wfRing r) (commandReadStep r hbm s)

/-! ## Launch (R30 to R34, R46, R347, R350, R734) -/

/-- Whether a logical core is a hole for placement: absent, without a site, or of a serving cluster (R31, R43, R159). -/
def State.hole (s : State) (c : Nat) : Bool :=
  (s.coreSite c).isNone || (decide (s.fget GCTL_ROLE.ROLE_ACT 0 = 3) && s.serving (c / 8))

/-- A command waiting to launch is at the head of its ring, and every condition of R347 but room holds. -/
def State.mayLaunch (s : State) (c : Cmd) : Bool :=
  let ctx := ringCtx c.ring
  let dep := 32 * ctx + CMD.DEP_RING.of c.word
  s.live && s.inService && s.awake && !s.pausing && !c.launched &&
  (match (s.unlaunched c.ring).head? with | some h => decide (h.seq = c.seq) | none => false) &&
  decide (s.fget CTX_STATE.STATE ctx = 1) && !s.fon GCTL_ROLE.PEND 0 &&
  (!CMD.BARRIER.on c.word || (s.ringCmds c.ring).head?.any fun h => decide (h.seq = c.seq)) &&
  (!CMD.DEP_EN.on c.word ||
    decide (wrapSub 32 (CMD.DEP_SEQ.of c.word) (s.fget CFE_RING_CPTR.CHEAD dep) ≤
      wrapSub 32 (s.fget CFE_RING_CPTR.CTAIL dep) (s.fget CFE_RING_CPTR.CHEAD dep))) &&
  (!CMD.AT_COUNT.on c.word || decide (CMD.T_LAUNCH.of c.word ≤ s.count)) &&
  decide (s.fget SPARE_PAIR_STATE.ROLE 0 ≠ 4) && !s.cfe.holdParts.contains (s.ctxPart ctx) &&
  decide ((s.cfe.cmds.filter (·.launched)).length < 4096)

/-- A waiting command by ring and number. -/
def State.cmdAt (s : State) (ring seq : Nat) : Option Cmd := s.cfe.cmds.find? (·.is ring seq)

/-- A command replaced. -/
def State.setCmd (s : State) (c : Cmd) : State :=
  { s with cfe := { s.cfe with cmds := s.cfe.cmds.map fun d => if d.is c.ring c.seq then c else d } }

/-- A command whose opcode and conditions admit it runs `k`. -/
def State.launching (s : State) (ring seq op : Nat) (k : Cmd → State → State) : State :=
  match s.cmdAt ring seq with
  | some c => if decide (CMD.OP.of c.word = op) && s.mayLaunch c then k c s else s
  | none => s

/-- The NOP row: it completes with status 0 when its launch conditions hold (R344). -/
def execNop (ring seq : Nat) (s : State) : Res := need (wfRing ring) (s.launching ring seq 0 fun c s => s.complete c 0)

/-- Cores named by a launch table. -/
def Cmd.cores (c : Cmd) : List Nat := c.lt.map LTE.LCORE.of

/-- Token counters a command takes on each core (R154). -/
def Cmd.nctr (c : Cmd) : Nat := CMD.NCTR_M1.of c.word + 1

/-- Whether a core has room for a command (R155). -/
def State.room (s : State) (lcore n : Nat) : Bool :=
  let l := s.core.rsds.filter fun r => decide (r.lcore = lcore)
  decide (l.length < 8) && decide ((l.map fun r => r.ctrs.length).foldl (· + ·) 0 + n ≤ 64)

/-- Whether a logical core is held back under R164, or its cluster by a security command (R741). -/
def State.coreHeld (s : State) (lcore : Nat) : Bool :=
  decide (tget s.cfe.held lcore 0 ≠ 0)

/-- Why the placement of a LAUNCH is refused, or 0: a hole first, then each core's cluster (R31, R734). -/
def State.placeCode (s : State) (c : Cmd) : Nat :=
  let ctx := ringCtx c.ring
  if c.cores.any s.hole then 0x0301
  else
    let bad (l : Nat) : Nat :=
      if !(s.fget SEC_PART.CL (s.ctxPart ctx)).testBit (l / 8) then 0x0504
      else if s.fget SEC_CL_WORLD.W (l / 512) / 2 ^ (l / 8 % 64) % 2 ≠ s.ctxWorld ctx then 0x0505 else 0
    ((c.cores.map bad).find? (fun k => decide (k ≠ 0))).getD 0

/-- The work list a core receives at launch (R33, R154). -/
def State.resident (s : State) (c : Cmd) (e : Nat) : Rsd :=
  { lcore := LTE.LCORE.of e, ring := c.ring, seq := c.seq, ctx := ringCtx c.ring, site := (s.coreSite (LTE.LCORE.of e)).getD 0,
    winBase := LTE.WIN_BASE.of e * 65536, winLen := LTE.WIN_LEN.of e * 65536, wlAddr := LTE.WL_ADDR.of e <<< 6,
    wlLen := LTE.WL_LEN.of e, pos := 0, loops := [], skip := 0, ctrs := List.replicate c.nctr 0, occ := [], ended := false,
    doneSent := false, dead := false, flights := [], buf := [], next := none, won := none, waitT0 := none, lastSig := (64, 0x7FF, 0),
    launchT := s.time.now }

/-- A command launches: every start value is latched (R350, R353, R793). -/
def State.launched (s : State) (c : Cmd) (expect : Nat) (cnt0 : List (Nat × Nat × Nat × Nat)) : State :=
  let c := { c with
    launched := true, order := s.cfe.order, expect := expect, tStart := s.count, uStart := s.unsync, cnt0 := cnt0,
    energy0 := s.energyFor (ringCtx c.ring), lastProg := s.time.run }
  { s.setCmd c with cfe := { (s.setCmd c).cfe with order := s.cfe.order + 1 } }

/-- The LAUNCH command: refused placement completes it; with room on every named core it launches there at once, and the load
hint reaches the power controller (R31, R32, R155, R350, R734). -/
def launchStep (ring seq : Nat) (s : State) : State :=
  s.launching ring seq 1 fun c s =>
    match s.placeCode c with
    | 0 =>
      if c.cores.all (fun l => s.room l c.nctr && !s.coreHeld l) then
        let s := s.launched c c.lt.length ((clustersOf c.lt).map s.clCounters)
        let s := { s with core := { s.core with rsds := s.core.rsds ++ c.lt.map (s.resident c) } }
        let s := s.engines
        if CMD.HINT.of c.word = 0 then s
        else { s with core := { s.core with hints := s.core.hints ++
          (c.cores.map (· / 512)).eraseDups.map fun d => (d, CMD.HINT.of c.word, s.time.now) } }
      else s
    | code => s.complete c code

/-- The LAUNCH row. -/
def execLaunch (ring seq : Nat) (s : State) : Res := need (wfRing ring) (launchStep ring seq s)

/-! ## Done messages (R35, R36, R224) -/

/-- Whether a core's transfers to the fabric for a command are all acknowledged, and its remote signals all added (R35, R190). -/
def State.workSettled (s : State) (r : Rsd) : Bool :=
  !s.fab.xfers.any (fun x => match x.owner with
    | .flight l g q _ => decide (l = r.lcore) && decide (g = r.ring) && decide (q = r.seq) && decide (x.acked < x.total)
    | _ => false) &&
  !s.core.sigs.any fun g => decide (g.ring = r.ring) && decide (g.seq = r.seq) && decide (g.src = r.lcore)

/-- A core sends its done message once its list has ended, every descriptor that fired has completed, and its writes and
signals are complete (R35, R190, R224). -/
def coreDoneStep (lcore ring seq : Nat) (s : State) : State :=
  match s.core.rsds.find? (fun r => decide (r.lcore = lcore) && decide (r.ring = ring) && decide (r.seq = seq)) with
  | some r =>
    if s.hubUp && r.ended && r.flights.isEmpty && !r.doneSent && !r.dead && s.workSettled r then
      { s with
        core := { s.core with rsds := s.core.rsds.map fun q => if q.lcore = lcore ∧ q.ring = ring ∧ q.seq = seq then
          { q with doneSent := true } else q }
        cfe := { s.cfe with dones := s.cfe.dones ++ [(ring, seq, lcore)] } }
    else s
  | none => s

/-- The CORE_DONE row. -/
def execCoreDone (lcore ring seq : Nat) (s : State) : Res :=
  need (wfCore lcore && wfRing ring) (coreDoneStep lcore ring seq s)

/-- The CFE counts a done message; the last one completes the command, unless it is a replay (R36, R585). -/
def doneMessageStep (lcore ring seq : Nat) (s : State) : State :=
  if s.hubUp && s.cfe.dones.contains (ring, seq, lcore) then
    let s := { s with cfe := { s.cfe with dones := s.cfe.dones.erase (ring, seq, lcore) } }
    match s.cmdAt ring seq with
    | some c =>
      let c := { c with ndone := c.ndone + 1 }
      let s := s.setCmd c
      if c.expect ≤ c.ndone ∧ decide (s.fget CTX_STATE.STATE (ringCtx ring) = 1) then s.complete c 0 else s
    | none => s
  else s

/-- The DONE_MESSAGE row. -/
def execDoneMessage (lcore ring seq : Nat) (s : State) : Res :=
  need (wfCore lcore && wfRing ring) (doneMessageStep lcore ring seq s)

/-! ## Ring registers (R331 to R335) -/

/-- A ring's bytes: first address and length. -/
def ringSpan (base k : Nat) : Nat × Nat := (base <<< 12, 64 * 2 ^ k)

/-- Two byte ranges overlap. -/
def spansMeet (a b : Nat × Nat) : Bool := decide (a.1 < b.1 + b.2) && decide (b.1 < a.1 + a.2)

/-- Whether a write that sets a ring's `EN` is rejected (R334). -/
def State.ringEnBad (s : State) (r v : Nat) : Bool :=
  let k := CFE_RING_CMD.K.val v
  let j := s.fget CFE_RING_CPL.J r
  let a := ringSpan (CFE_RING_CMD.BASE.val v) k
  let b := ringSpan (s.fget CFE_RING_CPL.BASE r) j
  !s.fon CTX_CFG.EN (ringCtx r) || decide (k < 1) || decide (16 < k) || decide (j < 1) || decide (16 < j) ||
  (s.fon CFE_RING_CPL.NOTIFY_EN r && decide (s.fget CFE_RING_CPL.VEC r = 0)) ||
  !s.spanInHost a.1 a.2 || !s.spanInHost b.1 b.2 || spansMeet a b

/-- Whether a ring may be disabled (R335). -/
def State.ringIdle (s : State) (r : Nat) : Bool :=
  decide (s.fget CFE_RING_PTR.HEAD r = s.fget CFE_RING_PTR.TAIL r) && (s.ringCmds r).isEmpty

/-- Whether a `CFE_RING_CMD` write is rejected (R334, R335). -/
def State.ringCmdBad (s : State) (r v : Nat) : Bool :=
  let en := CFE_RING_CMD.EN.bit v
  if s.fon CFE_RING_CMD.EN r then en || !s.ringIdle r else en && s.ringEnBad r v

/-- An accepted `CFE_RING_CMD` write: enabling sets every index to 0 (R335). -/
def ringCmdEff (r v : Nat) (s : State) : State :=
  let was := s.fon CFE_RING_CMD.EN r
  let s := s.putRW .CFE_RING_CMD r v
  if CFE_RING_CMD.EN.bit v && !was then
    (((s.fset CFE_RING_PTR.HEAD r 0).fset CFE_RING_PTR.TAIL r 0).fset CFE_RING_CPTR.CHEAD r 0).fset CFE_RING_CPTR.CTAIL r 0
  else s

/-- A write to `CFE_RING_CMD`. -/
def cfeRingCmdWriteStep (w : Who) (r v : Nat) (s : State) : State :=
  s.when (s.reaches w) fun s => s.regWrite w .CFE_RING_CMD r v (fun s => s.ringCmdBad r v) (ringCmdEff r v)

/-- The CFE_RING_CMD_WRITE row. -/
def execCfeRingCmdWrite (w : Who) (r v : Nat) (s : State) : Res := need (wfRing r) (cfeRingCmdWriteStep w r v s)

/-- A write to `CFE_RING_CPL`: rejected while the ring is enabled (R334). -/
def cfeRingCplWriteStep (w : Who) (r v : Nat) (s : State) : State :=
  s.when (s.reaches w) fun s =>
    s.regWrite w .CFE_RING_CPL r v (fun s => s.fon CFE_RING_CMD.EN r) (fun s => s.putRW .CFE_RING_CPL r v)

/-- The CFE_RING_CPL_WRITE row. -/
def execCfeRingCplWrite (w : Who) (r v : Nat) (s : State) : Res := need (wfRing r) (cfeRingCplWriteStep w r v s)

/-! ## The context table (R357 to R366) -/

/-- The rings of a context. -/
def ctxRings (c : Nat) : List Nat := (List.range 32).map (32 * c + ·)

/-- Whether a partition admits a context (R733). -/
def State.admits (s : State) (p c world : Nat) : Bool :=
  s.fon SEC_PART.VALID p && (s.fget SEC_PART.CTXM p).testBit c && (s.fon SEC_PART.PWORLD p || decide (world = 0))

/-- Whether a `CTX_CFG` write is rejected (R361). -/
def State.ctxCfgBad (s : State) (c v : Nat) : Bool :=
  let en := CTX_CFG.EN.bit v
  if s.fon CTX_CFG.EN c then
    decide (CTX_CFG.PART.val v ≠ s.ctxPart c) || decide (CTX_CFG.WORLD.val v ≠ s.ctxWorld c) ||
    (!en && (ctxRings c).any (s.fon CFE_RING_CMD.EN ·) && decide (s.fget CTX_STATE.STATE c ≠ 3))
  else en && !s.admits (CTX_CFG.PART.val v) c (CTX_CFG.WORLD.val v)

/-- An accepted `CTX_CFG` write (R361). -/
def ctxCfgEff (c v : Nat) (s : State) : State :=
  let was := s.fon CTX_CFG.EN c
  let en := CTX_CFG.EN.bit v
  let s := s.putRW .CTX_CFG c v
  if en && !was then ((s.fset CTX_STATE.STATE c 1).fset CTX_STATE.RESETS c 0).fset CTX_DIV.DIV c 0
  else if was && !en then (ctxRings c).foldl (fun s r => s.fset CFE_RING_CMD.EN r 0) (s.fset CTX_STATE.STATE c 0)
  else s

/-- A write to `CTX_CFG`. -/
def ctxCfgWriteStep (w : Who) (c v : Nat) (s : State) : State :=
  s.when (s.reaches w) fun s => s.regWrite w .CTX_CFG c v (fun s => s.ctxCfgBad c v) (ctxCfgEff c v)

/-- The CTX_CFG_WRITE row. -/
def execCtxCfgWrite (w : Who) (c v : Nat) (s : State) : Res := need (wfCtx c) (ctxCfgWriteStep w c v s)

/-- Whether an investigation holds a context as a suspect (R588). -/
def State.suspect (s : State) (c : Nat) : Bool :=
  (s.spare.inv.toList ++ s.spare.invQ).any fun i => i.suspects.contains c

/-- `RESUME` of a HALTED context: ignored of a suspect, with a log, and of a withdrawn module and while a scrub runs on its
partition (R362, R588, R594, R742). -/
def State.resume (s : State) (c : Nat) : State :=
  if s.suspect c then s.logX 0x030B c 0
  else if s.fon SPARE_ESC.WITHDRAWN 0 || s.scrubbing (s.ctxPart c) then s
  else s.fset CTX_STATE.STATE c 1

/-- A write to `CTX_CTL`: each bit is judged against the state before the write (R362). -/
def ctxCtlWriteStep (w : Who) (c v : Nat) (s : State) : State :=
  s.when (s.reaches w) fun s =>
    s.regWrite w .CTX_CTL c v (fun _ => false) fun s =>
      let st := s.fget CTX_STATE.STATE c
      let s := if CTX_CTL.DIV_CLR.bit v then s.fset CTX_DIV.DIV c 0 else s
      if CTX_CTL.RESET.bit v && decide (st = 1) then s.ctxReset c 0x0707 0
      else if CTX_CTL.RESUME.bit v && decide (st = 3) then s.resume c
      else s

/-- The CTX_CTL_RESET row: `RESET` written as 1. -/
def execCtxCtlReset (w : Who) (c : Nat) (s : State) : Res := need (wfCtx c) (ctxCtlWriteStep w c 1 s)

/-- The CTX_CTL_RESUME row: `RESUME` written as 1. -/
def execCtxCtlResume (w : Who) (c : Nat) (s : State) : Res := need (wfCtx c) (ctxCtlWriteStep w c 2 s)

/-- The DIV_CLR row: `DIV_CLR` written as 1 (R561). -/
def execDivClr (w : Who) (c : Nat) (s : State) : Res := need (wfCtx c) (ctxCtlWriteStep w c 4 s)

/-- A launched command of a context has gone `HANG` ms without progress: a capture with its wait-for graph, and a reset
(R365, R609, R808). -/
def hangTimeoutStep (ring seq : Nat) (s : State) : State :=
  match s.cmdAt ring seq with
  | some c =>
    let ctx := ringCtx ring
    let h := s.fget CTX_CFG.HANG ctx
    if s.live && c.launched && decide (h ≠ 0) && decide (s.fget CTX_STATE.STATE ctx = 1) &&
        decide (c.lastProg + h * 1000000 ≤ s.time.run) then
      let g := s.waitGraph ring seq
      let sites := ((s.core.rsds.filter fun r => decide (r.ring = ring) && decide (r.seq = seq)).map (·.site))
      (s.trigger 1 sites false g).ctxReset ctx 0x0706 (ring + (seq <<< 13))
    else s
  | none => s

/-- The HANG_TIMEOUT row. -/
def execHangTimeout (ring seq : Nat) (s : State) : Res := need (wfRing ring) (hangTimeoutStep ring seq s)

/-- Every unit has confirmed a context's reset: its launched commands complete with the code, and the context halts (R363,
R578, R793). -/
def contextResetDoneStep (c : Nat) (s : State) : State :=
  s.when (s.hubUp && decide (s.fget CTX_STATE.STATE c = 2)) fun s =>
    let code := tget s.cfe.rst c 0
    let s := (s.cfe.cmds.filter fun d => decide (ringCtx d.ring = c) && d.launched).foldl (fun s d => s.complete d code) s
    let s := { s with cfe := { s.cfe with rst := tdel s.cfe.rst c } }
    ((s.fset CTX_STATE.STATE c 3).fset CTX_STATE.LAST_ERR c code).fsat CTX_STATE.RESETS c 1

/-- The CONTEXT_RESET_DONE row. -/
def execContextResetDone (c : Nat) (s : State) : Res := need (wfCtx c) (contextResetDoneStep c s)

end Sys2Proof.Machine
end

