-- ==== Sys2Proof/Machine/CollRows.lean ====
section
/-! DEFINITION. The collective engine's commands, ring pieces, triggered operations and COLL packets (R497 to R546). -/
set_option autoImplicit false
namespace Sys2Proof.Machine

/-! ## The group table (R498, R499, R736) -/

/-- A register of several 64-bit words as it would stand with word k written; write-1-to-clear bits of other words read 0. -/
def State.wordPut (s : State) (r : Reg) (i k v : Nat) : Nat := putBits (s.rwWord r i) (64 * k) 64 v

/-- Whether a written entry differs from the one that stands only in a cleared `VALID` (R499). -/
def State.onlyClears (s : State) (g v : Nat) : Bool :=
  !COLL_GRP.VALID.bit v &&
  (Reg.fields .COLL_GRP).all fun f => decide (f.lsb = 0) || decide (f.acc ≠ .rw) || decide (f.val v = s.fget f g)

/-- Whether a write to a group's entry is rejected (R499, R736). -/
def State.grpReject (s : State) (g v : Nat) : Bool :=
  if s.fon COLL_GRP.VALID g then !s.onlyClears g v || s.coll.insts.any fun i => decide (i.group = g)
  else COLL_GRP.VALID.bit v &&
    (decide (COLL_GRP.N_M1.val v < COLL_GRP.MYIDX.val v) || !s.fon SEC_PART.VALID (COLL_GRP.PART.val v))

/-- A write of one word of a group's entry. -/
def collGrpWriteStep (w : Who) (g k v : Nat) (s : State) : State :=
  s.when (s.reaches w) fun s =>
    let full := s.wordPut .COLL_GRP g k v
    s.regWrite w .COLL_GRP g full (fun s => s.grpReject g full) fun s => s.putRW .COLL_GRP g full

/-- The COLL_GRP_WRITE row. -/
def execCollGrpWrite (w : Who) (g k v : Nat) (s : State) : Res :=
  need (decide (g < 4096) && decide (k < 2)) (collGrpWriteStep w g k v s)

/-! ## Starting a collective (R500 to R506, R512 to R515, R521 to R524) -/

/-- Whether a group's entry stands and is of a context's partition and world (R506). -/
def State.groupOk (s : State) (g ctx : Nat) : Bool :=
  s.fon COLL_GRP.VALID g && decide (s.fget COLL_GRP.PART g = s.ctxPart ctx) && decide (s.fget COLL_GRP.WORLD g = s.ctxWorld ctx)

/-- The instance that a COLL command starts, before anything has moved. -/
def State.newInst (s : State) (c : Cmd) (tops : List Nat) : Inst :=
  let w := c.word
  let g := CBODY.GROUP.of w
  let ctx := ringCtx c.ring
  { ring := c.ring, seq := c.seq, ctx := ctx, group := g, cseq := CBODY.CSEQ.of w, ckind := CBODY.CKIND.of w,
    dfmt := CBODY.DFMT.of w, rop := CBODY.ROP.of w, count := CBODY.COUNT.of w, src := CBODY.SRC_ADDR.of w,
    dst := CBODY.DST_ADDR.of w, pcs := pieceElems w, pwin := CBODY.PWIN_M1.of w + 1, wdog := CBODY.WDOG.of w,
    n := s.fget COLL_GRP.N_M1 g + 1, my := s.fget COLL_GRP.MYIDX g,
    pred := epAddr (s.fget COLL_GRP.PRED g / 256) (s.fget COLL_GRP.PRED g % 256),
    succ := epAddr (s.fget COLL_GRP.SUCC g / 256) (s.fget COLL_GRP.SUCC g % 256), ep := (s.ctxEp ctx).getD 0, credit := 0,
    sent := [], acked := [], staged := [], wrote := [], tops := tops, fired := [], doneT := [],
    ctrs := if CBODY.CKIND.of w = 3 then List.replicate c.nctr 0 else [],
    done0 := ((tops.filter TOP.TSRC.on).map TOP.TCTR.of).foldl (fun t e => tset t e (s.fget FAB_EPCNT.DONE e) 0) [],
    lastUp := s.time.run }

/-- Bytes of a ring's source buffer (R521). -/
def Inst.srcLen (i : Inst) : Nat := (if i.ckind = 2 then i.count else i.n * i.count) * collBytes i.dfmt
/-- Whether the two buffers share a byte other than as R523 permits. -/
def Inst.overlapBad (i : Inst) : Bool :=
  let meet := decide (i.src < i.dst + i.dstLen) && decide (i.dst < i.src + i.srcLen)
  let same := if i.ckind = 2 then decide (i.src = i.dst + i.my * i.count * collBytes i.dfmt)
    else decide (i.src = i.dst) && decide (i.out = i.dfmt)
  meet && !same

/-- The code that completes a ring command as it launches, or 0 (R505, R506, R523). -/
def State.collStartCode (s : State) (i : Inst) : Nat :=
  if !s.groupOk i.group i.ctx then 0x0242
  else if (s.ctxEp i.ctx).isNone then 0x0207
  else if (s.inst i.group i.cseq).isSome then 0x0245
  else if i.ckind ≠ 3 ∧ i.overlapBad then 0x0244
  else 0

/-- Whether the engine has room for an instance (R504). -/
def State.collRoom (s : State) (i : Inst) : Bool :=
  let stage (j : Inst) : Nat := if j.ckind = 3 then 0 else 8192 * j.pwin
  let sum (f : Inst → Nat) : Nat := (s.coll.insts.map f).foldl (· + ·) 0
  decide (s.coll.insts.length < 256) && decide (sum stage + stage i ≤ 8388608) &&
  decide (sum (fun j => j.tops.length) + i.tops.length ≤ 16384)

/-- The first refusal of the buffers' frames, with where its frame begins (R524, R608). -/
def State.bufferBad (s : State) (i : Inst) : Option (Nat × Nat) :=
  let a := s.instAcc i
  (((framesOf i.src i.srcLen).map fun f => (s.checkFrame a MEM_RGN.RD f, f <<< 21)) ++
    (framesOf i.dst i.dstLen).flatMap fun f => [(s.checkFrame a MEM_RGN.RD f, f <<< 21), (s.checkFrame a MEM_RGN.WR f, f <<< 21)]).find?
      fun e => decide (e.1 ≠ 0)

/-- An instance of the key, again, after something that may have failed it. -/
def State.withInst (s : State) (g q : Nat) (k : Inst → State → State) : State :=
  match s.inst g q with
  | some i => k i s
  | none => s

/-- Bytes read for an instance; a failure fails the instance with its code (R524, R533). -/
def State.instRead (s : State) (i : Inst) (addr n : Nat) (k : List Byte → State → State) : State :=
  let m := s.memRead (s.instAcc i) MEM_RGN.RD addr n
  if m.code ≠ 0 then m.st.ctxReset i.ctx m.code (faultData addr 3) else k m.bytes m.st

/-- Bytes written for an instance; a failure fails it. -/
def State.instWrite (s : State) (i : Inst) (addr : Nat) (b : List Byte) (k : State → State) : State :=
  let m := s.memWrite (s.instAcc i) MEM_RGN.WR addr b
  if m.code ≠ 0 then m.st.ctxReset i.ctx m.code (faultData addr 3) else k m.st

/-- A run of elements converted exactly to the output format (R515, R518). -/
def convRun (f out : Nat) (l : List Byte) : List Byte := elemBytes out ((elemsOf f l).map (convTo f out))

/-- The source copied into the destination: by R514 for an ALLGATHER, and by R515 for a ring of one. -/
def State.ownChunk (s : State) (i : Inst) : State :=
  let n := i.count * collBytes i.dfmt
  if i.ckind = 2 then
    let at_ := i.dst + i.my * n
    if at_ = i.src then s else s.instRead i i.src n fun b s => s.instWrite i at_ b id
  else if i.n = 1 then s.instRead i i.src n fun b s => s.instWrite i i.dst (convRun i.dfmt i.out b) id
  else s

/-- A ring instance starts: its buffers are checked, READY goes to the predecessor, the early table's grants are applied, and
its own chunk is placed (R512, R514, R515, R524, R538). A ring of one has no predecessor to grant to (log 50). -/
def State.startRing (s : State) (c : Cmd) (i : Inst) : State :=
  let s := s.launched c 1 []
  let s := { s with coll := { s.coll with insts := s.coll.insts ++ [i] } }
  match s.bufferBad i with
  | none =>
    let s := s.ownChunk i
    let s := s.withInst i.group i.cseq fun i s => if i.n = 1 then s else s.grantPieces i 2 i.pwin
    let s := s.applyEarly i.group i.cseq
    s.checkInst i.group i.cseq
  | some e => s.ctxReset i.ctx e.1 (faultData e.2 3)

/-- A ring command at the head of its ring starts when the engine has room (R504 to R506). -/
def collStartStep (kind ring seq : Nat) (hbm : List Nat) (s : State) : State :=
  s.launching ring seq 2 fun c s =>
    if CBODY.CKIND.of c.word ≠ kind then s
    else
      let i := s.newInst c []
      match s.collStartCode i with
      | 0 => if s.collRoom i then (s.markBad 1 hbm).startRing c i else s
      | code => s.complete c code

/-- An ALLREDUCE starts (R510). -/
def execAllreduce (ring seq : Nat) (hbm : List Nat) (s : State) : Res := need (wfRing ring) (collStartStep 0 ring seq hbm s)

/-- A REDUCE_SCATTER starts (R507). -/
def execReduceScatter (ring seq : Nat) (hbm : List Nat) (s : State) : Res := need (wfRing ring) (collStartStep 1 ring seq hbm s)

/-- An ALLGATHER starts (R509). -/
def execAllgather (ring seq : Nat) (hbm : List Nat) (s : State) : Res := need (wfRing ring) (collStartStep 2 ring seq hbm s)

/-! ## Triggered operations (R525 to R534) -/

/-- Whether a triggered entry breaks the first case of R528. -/
def State.topInvalid (s : State) (ctx nctr e : Nat) : Bool :=
  let o := TOP.TOP.of e
  let n := TOP.LEN.of e
  let src := TOP.TCTR.of e
  decide (e &&& TOP.reserved ≠ 0) || decide (4 < o) || decide (TOP.INC.of e = 0) ||
  ([1, 2, 3].contains o && (decide (n = 0) || decide (n % 32 ≠ 0))) ||
  (if TOP.TSRC.on e then !(decide (src ≠ 0) && s.fon FAB_EP.VALID src && decide (s.fget FAB_EP.CTX src = ctx))
   else decide (nctr ≤ src)) ||
  decide (nctr ≤ TOP.CCTR.of e) || decide (nctr ≤ TOP.RCTR.of e)

/-- The code of a loaded list, or 0 (R528). -/
def State.topsCode (s : State) (ctx nctr nm1 : Nat) (l : List Nat) : Nat :=
  if l.any (s.topInvalid ctx nctr) then 0x0240
  else if l.any fun e => decide (nm1 < TOP.MEMB.of e) then 0x0242
  else if l.any fun e => decide (TOP.TOP.of e = 3) && !pairOk (TOP.DFMT.of e) (TOP.ROP.of e) then 0x0243
  else 0

/-- A TRIGGERED command loads and checks its list and starts its instance (R525, R528, R538). -/
def triggeredStep (ring seq : Nat) (hbm : List Nat) (s : State) : State :=
  s.launching ring seq 2 fun c s =>
    if CBODY.CKIND.of c.word ≠ 3 then s
    else
      let n := CMD.NCORES_M1.of c.word + 1
      let code := s.collStartCode (s.newInst c [])
      if code ≠ 0 then s.complete c code
      else
        let m := (s.markBad 1 hbm).memRead (s.accOf (ringCtx ring) 3) MEM_RGN.FETCH (CMD.LT_ADDR.of c.word <<< 6) (64 * n)
        if m.code ≠ 0 then (m.st.complete c m.code).ctxReset (ringCtx ring) m.code (faultData (CMD.LT_ADDR.of c.word <<< 6) 3)
        else
          let tops := (List.range n).map fun k => leAt m.bytes (64 * k) 64
          let i := m.st.newInst c tops
          match m.st.topsCode i.ctx c.nctr (i.n - 1) tops with
          | 0 =>
            if m.st.collRoom i then
              let s := m.st.launched c 1 []
              ({ s with coll := { s.coll with insts := s.coll.insts ++ [i] } }.applyEarly i.group i.cseq)
            else s
          | code => m.st.complete c code

/-- The TRIGGERED row. -/
def execTriggered (ring seq : Nat) (hbm : List Nat) (s : State) : Res := need (wfRing ring) (triggeredStep ring seq hbm s)

/-- Whether an entry's trigger holds (R529). -/
def State.topReady (s : State) (i : Inst) (e : Nat) : Bool :=
  if TOP.TSRC.on e then
    let k := TOP.TCTR.of e
    decide (TOP.THR.of e ≤ wrapSub 32 (s.fget FAB_EPCNT.DONE k) (tget i.done0 k 0))
  else decide (TOP.THR.of e ≤ i.ctrs.getD (TOP.TCTR.of e) 0)

/-- An entry of an operation fires once its trigger holds: the divergence of R534, the progress of R541, then its own effect. -/
def State.fireTop (s : State) (g q idx op : Nat) (k : Inst → Nat → State → State) : State :=
  s.when s.live fun s => s.withInst g q fun i s =>
    match i.tops[idx]? with
    | some e =>
      if decide (TOP.TOP.of e = op) && !i.fired.contains idx && s.topReady i e then
        let s := if TOP.TSRC.on e then s.diverge i.ctx 1 else s
        let i := { i with fired := i.fired ++ [idx] }
        k i e ((s.setInst i).progress i.ring i.seq)
      else s
    | none => s

/-- An entry completes: its local signal is added, and the instance may be complete (R530, R531, R541). -/
def State.topFinish (s : State) (i : Inst) (idx e : Nat) : State :=
  let i := { i with doneT := i.doneT ++ [idx] }
  let s := (s.setInst i).progress i.ring i.seq
  let s := if TOP.C_EN.on e then s.addColl i (TOP.CCTR.of e) (TOP.INC.of e) else s
  s.checkInst i.group i.cseq

/-- The remote party of an entry, read from the group's list (R500). -/
def State.withMember (s : State) (i : Inst) (e : Nat) (k : Nat → State → State) : State :=
  let m := s.member i (TOP.MEMB.of e)
  if m.code ≠ 0 then m.st.ctxReset i.ctx m.code (faultData (s.memberAt i (TOP.MEMB.of e)) 3) else k (memberAddr m.bytes) m.st

/-- The header of a TPUT or TSIG (R535, R536). -/
def Inst.topHdr (i : Inst) (pkind e : Nat) : List Byte :=
  collHdr (i.hdrFields pkind ++ [(CH.RCTR, TOP.RCTR.of e), (CH.R_EN, b2n (TOP.R_EN.on e)), (CH.INC, TOP.INC.of e)])

/-- A NOP fires and completes. -/
def topNopStep (g q idx : Nat) (s : State) : State := s.fireTop g q idx 0 fun i e s => s.topFinish i idx e

/-- The TOP_NOP row. -/
def execTopNop (g q idx : Nat) (s : State) : Res := need (wfGroup g) (topNopStep g q idx s)

/-- A PUT fires: one TPUT message whose every packet carries the header (R527, R536). -/
def topPutStep (g q idx : Nat) (hbm : List Nat) (s : State) : State :=
  s.fireTop g q idx 1 fun i e s => (s.markBad 1 hbm).withMember i e fun m s =>
    let n := TOP.LEN.of e
    let x := mkXfer (.top g q idx) (some i.ctx) i.ep (epMod m) (epNum m) tyCOLL (s.ctxPart i.ctx) (s.ctxWorld i.ctx)
      (TOP.B_ADDR.of e) n (.dm (s.ctxPart i.ctx) (s.ctxWorld i.ctx) (TOP.A_ADDR.of e))
    s.instSend i { x with pre := i.topHdr 4 e, mtlen := n + 32 * ceilDiv n 8160 }

/-- The TOP_PUT row. -/
def execTopPut (g q idx : Nat) (hbm : List Nat) (s : State) : Res := need (wfGroup g) (topPutStep g q idx hbm s)

/-- A GET fires: a GET_REQ to the member (R527, R420). -/
def topGetStep (g q idx : Nat) (hbm : List Nat) (s : State) : State :=
  s.fireTop g q idx 2 fun i e s => (s.markBad 1 hbm).withMember i e fun m s =>
    let part := s.ctxPart i.ctx
    let world := s.ctxWorld i.ctx
    let x := mkXfer (.top g q idx) (some i.ctx) i.ep (epMod m) (epNum m) tyGETREQ part world (TOP.B_ADDR.of e) (TOP.LEN.of e)
      (.lit (leBytes 32 (TOP.D_ADDR.of e)))
    s.instSend i { x with dst := some (.dm part world (TOP.D_ADDR.of e)) }

/-- The TOP_GET row. -/
def execTopGet (g q idx : Nat) (hbm : List Nat) (s : State) : Res := need (wfGroup g) (topGetStep g q idx hbm s)

/-- A REDUCE fires: A ⊕ B element by element over `LEN` input bytes, written to `D_ADDR`; it completes when that write is
acknowledged (R517 to R519, R527, R530, R533). -/
def topReduceStep (g q idx : Nat) (hbm : List Nat) (s : State) : State :=
  s.fireTop g q idx 3 fun i e s =>
    let n := TOP.LEN.of e
    let f := TOP.DFMT.of e
    (s.markBad 1 hbm).instRead i (TOP.A_ADDR.of e) n fun a s => s.instRead i (TOP.B_ADDR.of e) n fun b s =>
      s.instWrite i (TOP.D_ADDR.of e) (combineRuns f f (reduceOut f (TOP.ROP.of e)) (TOP.ROP.of e) a b) fun s =>
        s.instUp { i with acked := i.acked ++ [topKey idx] }

/-- The TOP_REDUCE row. -/
def execTopReduce (g q idx : Nat) (hbm : List Nat) (s : State) : Res := need (wfGroup g) (topReduceStep g q idx hbm s)

/-- A SIGNAL fires: its remote signal goes as a TSIG; without one it completes as it fires (R527, R530). -/
def topSignalStep (g q idx : Nat) (hbm : List Nat) (s : State) : State :=
  s.fireTop g q idx 4 fun i e s =>
    if TOP.R_EN.on e then (s.markBad 1 hbm).withMember i e fun m s => s.instMsg i (.top g q idx) m (i.topHdr 5 e)
    else s.topFinish i idx e

/-- The TOP_SIGNAL row. -/
def execTopSignal (g q idx : Nat) (hbm : List Nat) (s : State) : Res := need (wfGroup g) (topSignalStep g q idx hbm s)

/-- A triggered operation whose bytes are acknowledged, or whose response has closed complete, completes (R530). -/
def topCompleteStep (g q idx : Nat) (s : State) : State :=
  s.when s.hubUp fun s => s.withInst g q fun i s =>
    match i.tops[idx]? with
    | some e => if i.acked.contains (topKey idx) && !i.doneT.contains idx then s.topFinish i idx e else s
    | none => s

/-- The TOP_COMPLETE row. -/
def execTopComplete (g q idx : Nat) (s : State) : Res := need (wfGroup g) (topCompleteStep g q idx s)

/-! ## Ring pieces (R507 to R513) -/

/-- A piece is sent once its data are held and the successor has granted it (R507, R509, R511, R512). Phase 0 is
reduce-scatter, 1 all-gather. -/
def pieceSendStep (g q ph k p : Nat) (s : State) : State :=
  s.when s.live fun s => s.withInst g q fun i s =>
    let key := pieceKey ph k p
    if i.sends ph k && decide (p < i.pieces) && i.holds ph k p && !i.sent.contains key && decide (0 < i.credit) then
      let f := i.sendFmt ph k
      let n := i.lenOf p * collBytes f
      let at_ := if i.fromSrc ph k then i.srcAt k p else i.dstAt k p
      let i := { i with credit := i.credit - 1, sent := i.sent ++ [key] }
      let hdr := collHdr (i.hdrFields ph ++ [(CH.FMT, f), (CH.CHUNK, k), (CH.PIECE, p)])
      let part := s.ctxPart i.ctx
      let world := s.ctxWorld i.ctx
      let x := mkXfer (.piece g q key) (some i.ctx) i.ep (epMod i.succ) (epNum i.succ) tyCOLL part world 0 n (.dm part world at_)
      ((s.setInst i).progress i.ring i.seq).instSend i { x with pre := hdr, mtlen := n + 32 }
    else s

/-- The PIECE_SEND row. -/
def execPieceSend (g q ph k p : Nat) (s : State) : Res := need (wfGroup g) (pieceSendStep g q ph k p s)

/-- A staged piece is written once the sends made from its bytes are acknowledged; one CREDIT goes back to the predecessor
(R512, R513, R516, R541). -/
def pieceWriteStep (g q ph k p : Nat) (s : State) : State :=
  s.when s.hubUp fun s => s.withInst g q fun i s =>
    let key := pieceKey ph k p
    let prior := pieceKey 0 k p
    let overBytes := decide (ph = 1) && i.sends 0 k && (!i.fromSrc 0 k || decide (i.src = i.dst))
    match i.staged.find? (fun e => decide (e.1 = key)) with
    | none => s
    | some e =>
      if overBytes && !i.acked.contains prior then s
      else s.instWrite i (i.dstAt k p) e.2 fun s =>
        let i := { i with staged := i.staged.filter fun e => decide (e.1 ≠ key), wrote := i.wrote ++ [key] }
        ((s.instUp i).grantPieces i 3 1).checkInst g q

/-- The PIECE_WRITE row. -/
def execPieceWrite (g q ph k p : Nat) (s : State) : Res := need (wfGroup g) (pieceWriteStep g q ph k p s)

/-! ## COLL packets (R535 to R539) -/

/-- The header of a COLL packet. -/
def collHdrOf (p : Pkt) : Nat := ofLE (p.pay.take 32)

/-- Whether an arriving packet is a COLL packet of one kind. -/
def isColl (p : Pkt) (kind : Nat) : Bool :=
  decide (PH.TYPE.of p.hdr = tyCOLL) && (isVoid p || decide (CH.PKIND.of (collHdrOf p) = kind))

/-- Group and sequence number of a COLL packet. -/
def collKey (p : Pkt) : Nat × Nat := (CH.GROUP.of (collHdrOf p), CH.CSEQ.of (collHdrOf p))

/-- A packet that finds no instance is acknowledged and discarded, and logged (R539). -/
def unmatched (s : State) : MemRes := ⟨0, [], s.logC 0x0247⟩

/-- Whether a ring piece disagrees with its receiver (R518, R537). A payload of another length than its piece disagrees too. -/
def Inst.pieceBad (i : Inst) (ph h n : Nat) : Bool :=
  let k := CH.CHUNK.of h
  let p := CH.PIECE.of h
  decide (CH.CKIND.of h ≠ i.ckind) || decide (CH.ROP.of h ≠ i.rop) || decide (CH.COUNT.of h ≠ i.count) || !i.receives ph k ||
  decide (i.pieces ≤ p) || decide (CH.FMT.of h ≠ i.recvFmt ph k) || decide (n ≠ i.lenOf p * collBytes (i.recvFmt ph k))

/-- A ring piece enters staging, reduced with the member's own where it reduces (R507, R509, R537). -/
def State.stagePiece (s : State) (p : Pkt) (ph : Nat) : MemRes :=
  let h := collHdrOf p
  let b := p.pay.drop 32
  match s.inst (collKey p).1 (collKey p).2 with
  | none => unmatched s
  | some i =>
    if i.pieceBad ph h b.length then ⟨0, [], s.failInst i 0x0248 0⟩
    else
      let k := CH.CHUNK.of h
      let n := CH.PIECE.of h
      let put (l : List Byte) (s : State) : State := s.setInst { i with staged := i.staged ++ [(pieceKey ph k n, l)] }
      if ph = 0 then
        ⟨0, [], s.instRead i (i.srcAt k n) (i.lenOf n * collBytes i.dfmt) fun x s =>
          put (combineRuns (i.recvFmt 0 k) i.dfmt i.out i.rop b x) s⟩
      else ⟨0, [], put b s⟩

/-- What a closed COLL message leaves to do: nothing but for a TPUT. -/
def nothingAfter (_ : Msg) (s : State) : State := s

/-- An RS_DATA packet arrives. -/
def rsDataStep (p : Pkt) (hbm : List Nat) (s : State) : State :=
  s.when (isColl p 0) fun s => (s.markBad 1 hbm).arrive p fun t s => s.withMsg p t false (fun _ s => s.stagePiece p 0) nothingAfter

/-- The RS_DATA row. -/
def execRsData (p : Pkt) (hbm : List Nat) (s : State) : Res := .next (rsDataStep p hbm s)

/-- An AG_DATA packet arrives. -/
def agDataStep (p : Pkt) (s : State) : State :=
  s.when (isColl p 1) fun s => s.arrive p fun t s => s.withMsg p t false (fun _ s => s.stagePiece p 1) nothingAfter

/-- The AG_DATA row. -/
def execAgData (p : Pkt) (s : State) : Res := .next (agDataStep p s)

/-- Whether a packet would need an early entry while the table is full (R538). -/
def State.earlyFull (s : State) (p : Pkt) : Bool :=
  let k := collKey p
  (s.inst k.1 k.2).isNone && !s.wasInst k.1 k.2 && decide (4096 ≤ s.coll.early.length)

/-- READY, CREDIT and TSIG: the grant or signal is applied, held, or logged (R512, R530, R532, R538, R539). -/
def State.takeSignal (s : State) (p : Pkt) (kind : Nat) : MemRes :=
  let h := collHdrOf p
  let k := collKey p
  ⟨0, [], if kind = 5 then s.signalColl k.1 k.2 5 (CH.RCTR.of h) (CH.INC.of h) else s.signalColl k.1 k.2 kind (CH.NCRED.of h) 0⟩

/-- A one-packet grant or signal arrives. -/
def State.arriveSignal (s : State) (p : Pkt) (kind : Nat) : State :=
  s.when (isColl p kind) fun s => s.arrive p fun t s =>
    if !isVoid p && s.earlyFull p then s.sendNack p 0x0211
    else s.withMsg p t false (fun _ s => s.takeSignal p kind) nothingAfter

/-- The COLL_READY row. -/
def execCollReady (p : Pkt) (s : State) : Res := .next (s.arriveSignal p 2)

/-- The COLL_CREDIT row. -/
def execCollCredit (p : Pkt) (s : State) : Res := .next (s.arriveSignal p 3)

/-- The COLL_TSIG row. -/
def execCollTsig (p : Pkt) (s : State) : Res := .next (s.arriveSignal p 5)

/-- Triggered PUT data are written under `FPUT` of the endpoint's partition, on arrival (R533, R536, R538). -/
def State.tputWrite (s : State) (p : Pkt) : MemRes :=
  let k := collKey p
  if (s.inst k.1 k.2).isNone && s.wasInst k.1 k.2 then unmatched s
  else
    let m := s.memWrite ⟨PH.PART.of p.hdr, PH.WORLD.of p.hdr, none, 5⟩ MEM_RGN.FPUT (PH.RADDR.of p.hdr) (p.pay.drop 32)
    { m with st := m.st.withInst k.1 k.2 fun i s => s.instUp i }

/-- A TPUT's signal is added when its message closes complete (R530). -/
def tputAfter (p : Pkt) (m : Msg) (s : State) : State :=
  let h := collHdrOf p
  let k := collKey p
  if !m.failed && CH.R_EN.on h then s.signalColl k.1 k.2 5 (CH.RCTR.of h) (CH.INC.of h) else s

/-- A TPUT packet arrives. -/
def collTputStep (p : Pkt) (hbm : List Nat) (s : State) : State :=
  s.when (isColl p 4) fun s => (s.markBad 1 hbm).arrive p fun t s =>
    if !isVoid p && CH.R_EN.on (collHdrOf p) && s.earlyFull p then s.sendNack p 0x0211
    else s.withMsg p t false (fun _ s => s.tputWrite p) (if isVoid p then nothingAfter else tputAfter p)

/-- The COLL_TPUT row. -/
def execCollTput (p : Pkt) (hbm : List Nat) (s : State) : Res := .next (collTputStep p hbm s)

/-! ## Watchdog and early table -/

/-- An instance whose progress count has not risen for `WDOG` ms fails (R540). -/
def collStallStep (g q : Nat) (s : State) : State :=
  s.when s.hubUp fun s => s.withInst g q fun i s =>
    if i.lastUp + i.wdog * 1000000 ≤ s.time.run then s.failInst i 0x0241 0 else s

/-- The COLL_STALL row. -/
def execCollStall (g q : Nat) (s : State) : Res := need (wfGroup g) (collStallStep g q s)

/-- The n-th early entry, unclaimed for 1 s, is discarded and logged (R538). -/
def earlyEntryExpiryStep (n : Nat) (s : State) : State :=
  s.when s.hubUp fun s =>
    match s.coll.early[n]? with
    | some e =>
      if e.t0 + 1000000000 ≤ s.time.now then { s with coll := { s.coll with early := s.coll.early.eraseIdx n } }.logC 0x0247 else s
    | none => s

/-- The EARLY_ENTRY_EXPIRY row. -/
def execEarlyEntryExpiry (n : Nat) (s : State) : Res := .next (earlyEntryExpiryStep n s)

end Sys2Proof.Machine
end

