-- ==== Sys2Proof/Machine/Power.lean ====
section
/-! DEFINITION. Power, cooling and power states (R672 to R723): ride-through, shutdown, rails, caps, temperature, coolant,
voltage steps, idle states and Lehr. -/
set_option autoImplicit false
namespace Sys2Proof.Machine

/-! ## Caps (R686 to R692) -/

/-- The limits in the order of R696, each with its `BIND` code. -/
def State.capList (s : State) : List (Nat × Nat) :=
  [(4000, 0), (s.fget PWR_RACK.RCAP 0, 1), (s.fget PWR_POLICY.CAP 0, 2)] ++
  (if s.fon PWR_RACK.AUTO 0 then [(min s.pwr.rcapLoss (s.fget PWR_POLICY.SAFE_CAP 0), 3)] else []) ++
  [(s.fget PWR_THERM.TCAP 0, 4)]

/-- The lowest of the limits; of equal ones the first (log 22). -/
def lowestCap : List (Nat × Nat) → Nat × Nat
  | [] => (4000, 0)
  | a :: r => r.foldl (fun m x => if x.1 < m.1 then x else m) a

/-- ECAP and what sets it: the lowest limit, or `FLOOR` when that is higher (R686). -/
def State.capNow (s : State) : Nat × Nat :=
  let c := lowestCap s.capList
  let f := s.fget PWR_EVT.FLOOR 0
  if c.1 < f then (f, 5) else c

/-- The lowest step the power controller uses: VS4 in safe mode (R657). -/
def State.vsFloor (s : State) : Nat := if s.fon GCTL_BOOT_STAT.SAFE_MODE 0 then 4 else 0

/-- The step a die runs at when nothing above the policy clips it (R714, R657). -/
def State.policyStep (s : State) (v : Nat) : Nat :=
  if s.fon GCTL_BOOT_STAT.SAFE_MODE 0 then max 4 (min 8 v) else v

/-- A die's voltage step set, unless its throttle is lowering it; a step above the one the cap left the die is clipped to it
(R703, R711). -/
def State.setVs (s : State) (d v : Nat) : State :=
  if s.pwr.lowering.getD d false then s
  else { s with pwr := { s.pwr with vs := s.pwr.vs.set d (min (s.pwr.capStep.getD d 15) (s.policyStep v)) } }

/-- With `ADAPT` 0 every die runs at `VS_MAX` (R714). -/
def State.followPolicy (s : State) : State :=
  if s.fon PWR_POLICY.ADAPT 0 then s
  else (List.range 4).foldl (fun s d => s.setVs d (s.fget PWR_POLICY.VS_MAX 0)) s

/-- What a die draws from its VCORE rail, as last measured, in units of 0.1 mW (R681, R685). -/
def State.dieDraw (s : State) (d : Nat) : Nat := s.fget PWR_RAIL.VOUT d * s.fget PWR_RAIL.IOUT d

/-- The dies that draw most among those with a step left to give, all of them where several draw alike (R690; log 88). -/
def State.heaviest (s : State) : List Bool :=
  let left := (List.range 4).filter fun d => decide (s.vsFloor < s.pwr.vs.getD d 0)
  let most := left.foldl (fun m d => max m (s.dieDraw d)) 0
  (List.range 4).map fun d => left.contains d && decide (s.dieDraw d = most)

/-- Handshakes gated on the dies that draw most: the first means of reaching a lower ECAP (R690). -/
def State.capGate (s : State) : State :=
  { s with pwr := { s.pwr with capGated := s.pwr.capGated.zipWith (· || ·) s.heaviest } }

/-- The gated dies one step lower, which is then the highest step the cap leaves them; where none of them has a step left to
give, the next dies are gated (R690; log 88: how fast the steps fall). -/
def State.capLower (s : State) : State :=
  let vs : List Nat := (s.pwr.vs.zip s.pwr.capGated).map fun e => if e.2 then max s.vsFloor (e.1 - 1) else e.1
  let cs := (s.pwr.capStep.zip (vs.zip s.pwr.capGated)).map fun e => if e.2.2 then min e.1 e.2.1 else e.1
  let s := { s with pwr := { s.pwr with vs := vs, capStep := cs } }
  if (vs.zip s.pwr.capGated).any (fun e => e.2 && decide (s.vsFloor < e.1)) then s else s.capGate

/-- The cap is reached: the steps have settled and every die's handshakes run again (R690). -/
def State.capReached (s : State) : State :=
  { s with pwr := { s.pwr with settling := false, capGated := [false, false, false, false] } }

/-- Lehr applies: enabled, in PS2 or PS3 (R721). -/
def State.lehrOn (s : State) : Bool :=
  s.fon PWR_PSTATE.LEHR_EN 0 && (decide (s.fget PWR_PSTATE.STATE 0 = 2) || decide (s.fget PWR_PSTATE.STATE 0 = 3))

/-- What Lehr's floor asks for within its own bound of 180 W (R721). -/
def State.lehrAsk (s : State) : Nat := if s.lehrOn then min 180 s.pwr.lehrWant else 0

/-- The heater loops spend what the floor asks for and no more than ECAP, nothing in a hold; a floor out of their reach is logged
once per entry to the state (R721, R722). -/
def State.lehr (s : State) : State :=
  let short := s.lehrOn && decide (180 < s.pwr.lehrWant)
  let s := (s.fset PWR_PSTATE.LEHR_W 0 (if s.held then 0 else min s.lehrAsk (s.fget PWR_STATUS.ECAP 0))).fput
    PWR_PSTATE.LEHR_SHORT 0 short
  if short && !s.pwr.lehrLogged then { s with pwr := { s.pwr with lehrLogged := true } }.logC 0x040B else s

/-- ECAP takes its value, except in a hold, at whose end it does (R713). A fall starts the record of R688 and gates the dies that
draw most (R690); a rise lifts what the cap clipped; FLOOR newly binding is logged (R689). -/
def State.recap (s : State) : State :=
  if s.held then s
  else
    let (v, b) := s.capNow
    let old := s.fget PWR_STATUS.ECAP 0
    let oldB := s.fget PWR_STATUS.BIND 0
    let s := ((s.fset PWR_STATUS.ECAP 0 v).fset PWR_STATUS.BIND 0 b).lehr
    let s :=
      if v < old then
        { (s.fset PWR_OVER.OVER_MJ 0 0).fset PWR_OVER.SETTLE 0 0 with
          pwr := { s.pwr with overUj := 0, settling := true } }.capGate
      else if old < v then { s with pwr := { s.pwr with capStep := [15, 15, 15, 15] } }.followPolicy
      else s
    if b = 5 ∧ oldB ≠ 5 then s.logC 0x0403 else s

/-! ## Shutdown (R677 to R679, R845) -/

/-- Lasers off, drivers high-impedance, copper receivers without termination, and every rail off, VAON last (R678, R845). -/
def State.dark (s : State) : State :=
  (List.range 11).foldl (fun s r => s.note 2 r) (((s.note 0 0).note 1 0).note 6 0)

/-- With every rail off nothing is left but the fuses (R678, R16). -/
def State.railsOff (s : State) : State :=
  { State.reset with
    time := { State.reset.time with now := s.time.now, run := s.time.run, thaw := s.time.thaw }
    pwr := { State.reset.pwr with en := s.pwr.en, offT := some s.time.now, gasp := s.pwr.gasp }
    fuse := s.fuse, freeCtr := s.freeCtr, out := s.out, pending := s.pending }

/-- One of the four newest log entries, newest first; 0 where the log has none (R679, R831). -/
def State.newest (s : State) (k : Nat) : List Byte :=
  let n := s.fget SPARE_ELOG_PTR.WCOUNT 0
  if k < n then leBytes 64 (s.regWord .ELOG ((n - 1 - k) % 256)) else zeros 64

/-- The LAST_GASP event (R679, R831). -/
def State.gaspBytes (s : State) (cause : Nat) : List Byte :=
  leBytes 1 cause ++ leBytes 8 s.count ++ leBytes 1 (b2n s.unsync) ++ leBytes 2 s.pwr.lowest ++ leBytes 4 s.pwr.holdUs ++
  leBytes 8 (s.fget PWR_ENERGY.ENERGY 0) ++ leBytes 4 (s.fget SPARE_ELOG_PTR.WCOUNT 0) ++
  s.newest 0 ++ s.newest 1 ++ s.newest 2 ++ s.newest 3

/-- An orderly shutdown: the last gasp ahead of every other message while a receiver is set, then dark (R678, R830, R832). -/
def State.shutdown (s : State) (cause : Nat) : State :=
  let g := if s.mgmt.receiver.isSome then some (s.time.now, s.gaspBytes cause) else none
  { s with pwr := { s.pwr with gasp := g } }.dark.railsOff

/-! ## Sensors of the management port (R827, R830) -/

/-- The reading of a numeric sensor. -/
def State.sensorVal (s : State) (id : Nat) : Option Nat :=
  match id with
  | 1 => some (s.fget PWR_STATUS.VIN 0)
  | 2 => some (s.fget PWR_STATUS.PIN 0)
  | 3 => some (s.fget PWR_ENERGY.ENERGY 0)
  | 4 => some (s.fget PWR_STATUS.ECAP 0)
  | 5 => some (s.fget PWR_EVT.FLOOR 0)
  | 6 => some (s.fget PWR_THERM.TJ 0)
  | 7 => some (s.fget PWR_THERM.THETA 0)
  | 8 => some (s.fget PWR_THERM.TCAP 0)
  | 9 => some (s.fget PWR_OVER.OVER_MJ 0)
  | _ =>
    if 0x10 ≤ id ∧ id ≤ 0x1A then some (s.fget PWR_RAIL.IOUT (id - 0x10))
    else if 0x20 ≤ id ∧ id ≤ 0x2B then some (s.fget MEM_STK_STATUS.TEMP (id - 0x20))
    else none

/-- One sensor against its thresholds: crossing either raises a sensor event. -/
def State.senseOne (s : State) (e : Nat × Nat × Nat) : State :=
  let v := (s.sensorVal e.1).getD 0
  let out := decide (v < e.2.1) || decide (e.2.2 < v)
  if out = s.mgmt.outside.contains e.1 then s
  else
    let l := if out then s.mgmt.outside ++ [e.1] else s.mgmt.outside.filter (· ≠ e.1)
    { s with mgmt := { s.mgmt with outside := l } }.pldmEvent 5 (leBytes 2 e.1 ++ leBytes 1 (b2n out) ++ leBytes 8 v)

/-- Every sensor with thresholds is judged; the module does so at each sample of VIN (log 71). -/
def State.senseAll (s : State) : State := s.mgmt.thresholds.foldl (fun s e => s.senseOne e) s

/-- The targets acknowledge their addresses: the management controller runs, and no handover is under way (R787, R862). -/
def State.i3cUp (s : State) : Bool := s.pwr.on && s.mgmt.run && !s.fon GCTL_MGMT.HANDOVER 0

/-! ## Input (R672 to R680) -/

/-- Counts of consecutive samples, and the lowest VIN of the last hold or sag. -/
def State.vinCounts (s : State) (v : Nat) : State :=
  let p := s.pwr
  let low := if v < 3300 then
      (if p.nLow = 0 ∧ s.fon PWR_STATUS.HOLD 0 = false then v else min p.lowest v) else p.lowest
  { s with pwr := { p with
      lowest := low
      lowT := if v < 3300 then some s.time.now else p.lowT
      nLow := if v < 3300 then p.nLow + 1 else 0
      nCrit := if v < 2900 then p.nCrit + 1 else 0
      nHigh := if 4100 < v then p.nHigh + 1 else 0
      nOk := if 3350 ≤ v then p.nOk + 1 else 0
      vHigh := decide (4000 < v) && p.vHigh } }

/-- PIN, VIN and ENERGY: averages over 10 ms of 1 µs samples, and the energy of the sample (R695, R697). -/
def State.vinMeters (s : State) (v p : Nat) : State :=
  let uj := s.pwr.uj + p
  let s := s.fset PWR_ENERGY.ENERGY 0 (s.fget PWR_ENERGY.ENERGY 0 + uj / 1000)
  let sp := s.pwr.sumP + p
  let sv := s.pwr.sumV + v
  let n := s.pwr.nSum + 1
  if n < 10000 then { s with pwr := { s.pwr with uj := uj % 1000, sumP := sp, sumV := sv, nSum := n } }
  else
    { (s.fset PWR_STATUS.PIN 0 (sp / n)).fset PWR_STATUS.VIN 0 (sv / n) with
      pwr := { s.pwr with uj := uj % 1000, sumP := 0, sumV := 0, nSum := 0 } }

/-- The record of a fall of ECAP: energy above it and time, and the gated dies' steps going down, until PIN reaches it (R688,
R690). -/
def State.vinSettle (s : State) (p : Nat) : State :=
  if s.pwr.settling then
    let e := s.fget PWR_STATUS.ECAP 0
    if p ≤ e then s.capReached
    else
      let u := s.pwr.overUj + (p - e)
      { (s.fset PWR_OVER.OVER_MJ 0 (u / 1000)).fsat PWR_OVER.SETTLE 0 1 with pwr := { s.pwr with overUj := u } }.capLower
  else s

/-- The cause of a shutdown that a sample triggers, if any (R677): a collapse, a low bank while the module draws from it, or
an over-voltage of 10 µs. The hold of 5 ms is HOLD_TIMEOUT. -/
def State.vinCause (s : State) (v bank : Nat) : Option Nat :=
  if 2 ≤ s.pwr.nCrit then some 1
  else if bank < 3400 ∧ (v < 3300 ∨ s.fon PWR_STATUS.HOLD 0 = true) then some 3
  else if 10 ≤ s.pwr.nHigh then some 4
  else none

/-- Brown-out hold begins (R674, R675). -/
def State.enterHold (s : State) : State :=
  { ((s.fset PWR_STATUS.HOLD 0 1).fsat PWR_EVT.HOLDS 0 1).fset PWR_PSTATE.LEHR_W 0 0 with
    pwr := { s.pwr with holdT := s.time.now, nOk := 0 } }

/-- Brown-out hold ends, and BROWNOUT is logged with its duration in µs and the lowest VIN (R676; the places in `DATA` are
log 23). -/
def State.leaveHold (s : State) : State :=
  let us := (s.time.now - s.pwr.holdT) / 1000
  let s := { s.fset PWR_STATUS.HOLD 0 0 with pwr := { s.pwr with holdUs := us, holdEnd := some s.time.now } }
  (s.log { code := 0x0401, data := us % 2 ^ 32 + (s.pwr.lowest <<< 32) }).recap

/-- A 1 µs sample: VIN in 10 mV, PIN in W, and the bank's voltage in 10 mV (R672 to R680, R713). -/
def vinSampleStep (v p bank : Nat) (s : State) : State :=
  s.when s.pwr.on fun s =>
    let s := (((s.vinCounts v).vinMeters v p).vinSettle p).senseAll
    match s.vinCause v bank with
    | some c => s.shutdown c
    | none =>
      let s := if 4000 < v ∧ v ≤ 4100 ∧ s.pwr.vHigh = false then
          { s with pwr := { s.pwr with vHigh := true } }.logC 0x040D else s
      if s.fon PWR_STATUS.HOLD 0 then
        (if 50 ≤ s.pwr.nOk ∧ s.time.now < s.pwr.holdT + 5000000 then s.leaveHold else s)
      else if 2 ≤ s.pwr.nLow ∧ s.up = true then s.enterHold
      else s

/-- The VIN_SAMPLE row. -/
def execVinSample (v p bank : Nat) (s : State) : Res := .next (vinSampleStep v p bank s)

/-- A hold has lasted 5 ms (R677). -/
def execHoldTimeout (s : State) : Res :=
  .next (s.when (s.pwr.on && s.fon PWR_STATUS.HOLD 0 && decide (s.pwr.holdT + 5000000 ≤ s.time.now)) fun s =>
    { s with pwr := { s.pwr with holdUs := (s.time.now - s.pwr.holdT) / 1000 } }.shutdown 2)

/-! ## Rails (R681 to R685) -/

/-- Phases that a rail's limits need (R681). -/
def phasesNeeded : Nat → Nat
  | 0 | 1 | 2 | 3 => 28 | 4 => 6 | 5 => 10 | 6 => 8 | 7 => 6 | 8 => 6 | 9 => 2 | _ => 1

/-- Phases a rail has: two spares beyond the needed ones (R563, R681). -/
def phasesAll (r : Nat) : Nat := phasesNeeded r + 2

/-- A rail exceeds a limit and its limiter acts; on VAUX and VAON that is a rail fault (R681, R682, R684). -/
def railLimitStep (r : Nat) (s : State) : State :=
  s.when s.pwr.on fun s =>
    if 9 ≤ r then s.shutdown 5
    else
      let s := s.fsat PWR_RAIL.LIMHIT r 1
      let t := tget s.pwr.limT r 0
      if t = 0 ∨ t + 1000000000 ≤ s.time.now + 1 then
        { s with pwr := { s.pwr with limT := tset s.pwr.limT r (s.time.now + 1) 0 } }.logC 0x0409
      else s

/-- The RAIL_LIMIT row. -/
def execRailLimit (r : Nat) (s : State) : Res := need (wfRail r) (railLimitStep r s)

/-- Unit number of a phase (R576). -/
def phaseUnit (r ph : Nat) : Nat := r + (ph <<< 4)

/-- A phase goes out of service: one less, derating below the needed count, a rail fault at none (R683, R684). -/
def State.phaseOut (s : State) (r : Nat) : State :=
  let left := s.fget PWR_RAIL.PH_IN r - 1
  let s := s.fset PWR_RAIL.PH_IN r left
  let s := if left < phasesNeeded r then s.fset PWR_RAIL.DERATED r 1 else s
  if left = 0 then s.shutdown 5 else s

/-- A phase is fenced (R683). -/
def State.fencePhase (s : State) (r ph origin : Nat) : State := (s.recordFence 6 origin (phaseUnit r ph)).phaseOut r

/-- A misbehaving phase is fenced (R683). -/
def phaseFencedStep (r ph : Nat) (s : State) : State :=
  s.when (s.pwr.on && decide (ph < phasesAll r) && !s.inCullet 6 (phaseUnit r ph)) fun s =>
    (s.log { code := 0x040A, kind := 6, unit := phaseUnit r ph }).fencePhase r ph 2

/-- The PHASE_FENCED row. -/
def execPhaseFenced (r ph : Nat) (s : State) : Res :=
  need (wfRail r) (phaseFencedStep r ph s)

/-- A rail leaves its set value by more than 10 % for 5 µs (R684). -/
def railFaultStep (s : State) : State := s.when s.pwr.on fun s => s.shutdown 5

/-- The RAIL_FAULT row. -/
def execRailFault (r : Nat) (s : State) : Res := need (wfRail r) (railFaultStep s)

/-- Reading `PWR_RAIL` clears `LIMHIT` (R685); an NS reader sees the current rounded down (R698, R766). The measured output voltage in
mV and current in 0.1 A are operands: for an NS reader those of the last multiple of 10 ms of machine count (R766). -/
def pwrRailReadStep (w : Who) (r vout iout : Nat) (s : State) : State :=
  s.when (s.reaches w) fun s =>
    let s := (s.fset PWR_RAIL.VOUT r vout).fset PWR_RAIL.IOUT r iout
    let x := s.regWord .PWR_RAIL r
    (s.emit (.read (if w = .ns ∧ s.coarsePower = true then nsRail x else x))).fset PWR_RAIL.LIMHIT r 0

/-- The PWR_RAIL_READ row. -/
def execPwrRailRead (w : Who) (r vout iout : Nat) (s : State) : Res := need (wfRail r) (pwrRailReadStep w r vout iout s)

/-- Reading `PWR_EVT` clears `CLIP` and `HINT_IGN` (R697); an NS reader sees `FLOOR` held and in steps of 5 W (R766). -/
def pwrEvtReadStep (w : Who) (s : State) : State :=
  s.when (s.reaches w) fun s =>
    let s := s.fset PWR_EVT.SINCE 0 s.sinceHold
    ((s.emit (.read (s.viewOf w .PWR_EVT 0))).fset PWR_EVT.CLIP 0 0).fset PWR_EVT.HINT_IGN 0 0

/-- The PWR_EVT_READ row. -/
def execPwrEvtRead (w : Who) (s : State) : Res := .next (pwrEvtReadStep w s)

/-! ## Policy and caps -/

/-- Whether a written policy is out of range (R693). -/
def policyBad (v : Nat) : Bool :=
  decide (4000 < PWR_POLICY.CAP.val v) || decide (PWR_POLICY.TTARGET.val v < 60) || decide (95 < PWR_POLICY.TTARGET.val v) ||
  decide (PWR_POLICY.VS_MAX.val v < PWR_POLICY.VS_MIN.val v) || decide (PWR_POLICY.VS_MIN.val v = 15) ||
  decide (PWR_POLICY.VS_MAX.val v = 15) || decide (PWR_POLICY.SAFE_CAP.val v < 500) ||
  decide (4000 < PWR_POLICY.SAFE_CAP.val v) || decide (PWR_POLICY.FLOW_SET.val v < 20) ||
  decide (200 < PWR_POLICY.FLOW_SET.val v)

/-- A write to `PWR_POLICY` (R693, R686, R714). -/
def pwrPolicyWriteStep (w : Who) (v : Nat) (s : State) : State :=
  s.when (s.reaches w) fun s =>
    s.regWrite w .PWR_POLICY 0 v (fun _ => policyBad v) fun s => (s.putRW .PWR_POLICY 0 v).recap.followPolicy

/-- The PWR_POLICY_WRITE row. -/
def execPwrPolicyWrite (w : Who) (v : Nat) (s : State) : Res := .next (pwrPolicyWriteStep w v s)

/-- No heartbeat for 2 s (R692). -/
def execHeartbeatLoss (s : State) : Res :=
  .next (s.when (s.pwr.on && s.fon PWR_RACK.HB_ARMED 0 && !s.fon PWR_RACK.AUTO 0 &&
    decide (s.pwr.hbT + 2000000000 ≤ s.time.now)) fun s =>
    ({ s.fset PWR_RACK.AUTO 0 1 with pwr := { s.pwr with rcapLoss := s.fget PWR_RACK.RCAP 0 } }.logC 0x0408).recap)

/-- `FLOOR` is recomputed from the measured power of R689, an operand. -/
def floorRecomputeStep (f : Nat) (s : State) : State :=
  s.when (s.up) fun s => (s.fset PWR_EVT.FLOOR 0 f).recap

/-- The FLOOR_RECOMPUTE row. -/
def execFloorRecompute (f : Nat) (s : State) : Res := .next (floorRecomputeStep f s)

/-! ## Temperature (R701 to R710) -/

/-- `num / den` rounded up or down, which the spec leaves open (log 24), and the choice used up when it matters. -/
def State.divEither (s : State) (num den : Int) : Int × State :=
  let q := num / den
  if num % den = 0 then (q, s) else (if s.freeB then q + 1 else q, s.drew)

/-- A value as a field of `w` bits holds it; one that does not fit is a free value (log 24). -/
def State.fit (s : State) (w : Nat) (v : Int) : Nat × State :=
  if 0 ≤ v ∧ v < (2 ^ w : Nat) then (v.toNat, s) else (s.freeV w, s.drew)

/-- The inlet in °C as the thermal rules take it: 45 while readings are stale (R700). -/
def State.inlet (s : State) : Nat :=
  if s.fget PWR_THERM.TIN 0 = 255 then 45 else s.fget PWR_THERM.TIN 0

/-- `THETA` takes a sixteenth of the difference to a sample taken at 500 W or more with fresh readings (R701). -/
def State.thetaUpdate (s : State) : State :=
  let p := s.fget PWR_STATUS.PIN 0
  if 500 ≤ p ∧ s.fget PWR_THERM.TIN 0 ≠ 255 then
    let (th, s) := s.divEither (((s.fget PWR_THERM.TJ 0 : Int) - s.fget PWR_THERM.TIN 0) * 100000) p
    let old : Int := s.fget PWR_THERM.THETA 0
    let (d, s) := s.divEither (th - old) 16
    let (v, s) := s.fit 16 (old + d)
    s.fset PWR_THERM.THETA 0 v
  else s

/-- `TCAP` from the target, the inlet and `THETA` (R702). -/
def State.tcapUpdate (s : State) : State :=
  let t := s.fget PWR_POLICY.TTARGET 0
  let i := s.inlet
  let th := s.fget PWR_THERM.THETA 0
  if t ≤ i then s.fset PWR_THERM.TCAP 0 0
  else if th = 0 then (s.fset PWR_THERM.TCAP 0 (s.freeV 16)).drew
  else
    let (q, s) := s.divEither (((t - i) * 100000 : Nat) : Int) th
    let (v, s) := s.fit 16 q
    s.fset PWR_THERM.TCAP 0 v

/-- Every 10 ms: `THETA`, `TCAP` and with it ECAP (R701, R702, R686). -/
def execThermalUpdate (s : State) : Res := .next (s.when s.up fun s => s.thetaUpdate.tcapUpdate.recap)

/-- The reading of a hot spot: the higher of its admitted sensors, 105 °C when both are discarded, none before the first
sample (R706, R707). -/
def State.hotSpot (s : State) (h : Nat) : Option Int :=
  match tfind s.pwr.sensors (2 * h), tfind s.pwr.sensors (2 * h + 1) with
  | some a, some b =>
    if a.bad && b.bad then some 105 else if a.bad then some b.last else if b.bad then some a.last else some (max a.last b.last)
  | _, _ => none

/-- The hottest of a list of hot spots. -/
def State.hottest (s : State) (l : List Nat) : Option Int :=
  (l.filterMap s.hotSpot).foldl (fun m x => match m with | some y => some (max x y) | none => some x) none

/-- The hot spots of a compute die (R706). -/
def dieSpots (d : Nat) : List Nat := (List.range 16).map (16 * d + ·)

/-- One sensor takes a reading; `dp` says that its die's power changed by more than 10 % over the time its code stood still.
The second component says whether it was implausible (R707). -/
def sensorTake (now : Nat) (old : Option Sensor) (x : Int) (dp : Bool) : Sensor × Bool :=
  let ch := match old with | some o => if o.last = x then o.chT else now | none => now
  let wrong := decide (x < -10) || decide (150 < x) ||
    (match old with
     | some o => decide (20 < (x - o.last).natAbs) || (decide (o.last = x) && dp && decide (o.chT + 5000000000 ≤ now))
     | none => false)
  let wasBad := match old with | some o => o.bad | none => false
  let okT := match old with | some o => if o.bad then o.okT else now | none => now
  if wrong then (⟨x, ch, true, now⟩, true)
  else if wasBad && decide (now < okT + 1000000000) then (⟨x, ch, true, okT⟩, false)
  else (⟨x, ch, false, okT⟩, false)

/-- A pair that differs by more than 5 K for 100 ms is logged, at most once in 10 s (R706). -/
def State.disagree (s : State) (h : Nat) (a b : Int) : State :=
  if 5 < (a - b).natAbs then
    let t := tget s.pwr.disT h 0
    if t = 0 then { s with pwr := { s.pwr with disT := tset s.pwr.disT h (s.time.now + 1) 0 } }
    else if t + 100000000 ≤ s.time.now + 1 then
      let l := tget s.pwr.disLog h 0
      if l = 0 ∨ l + 10000000000 ≤ s.time.now + 1 then
        { s with pwr := { s.pwr with disLog := tset s.pwr.disLog h (s.time.now + 1) 0 } }.logC 0x0404
      else s
    else s
  else { s with pwr := { s.pwr with disT := tset s.pwr.disT h 0 0 } }

/-- `TJ` is the hottest plausible reading of the module (R710). -/
def State.setTj (s : State) : State :=
  match s.hottest (List.range 73) with
  | some t => let (v, s) := s.fit 8 t; s.fset PWR_THERM.TJ 0 v
  | none => s

/-- Both sensors of hot spot h are sampled, in °C (R706, R707). Hot spots 0 to 63 lie on the compute dies, 64 to 71 on the
hub die, and 72 stands for the host die's sensors. -/
def sensorSampleStep (h : Nat) (a b : Int) (dpa dpb : Bool) (s : State) : State :=
  s.when s.pwr.on fun s =>
    let (sa, wa) := sensorTake s.time.now (tfind s.pwr.sensors (2 * h)) a dpa
    let (sb, wb) := sensorTake s.time.now (tfind s.pwr.sensors (2 * h + 1)) b dpb
    let s := { s with pwr := { s.pwr with sensors := tput (tput s.pwr.sensors (2 * h) sa) (2 * h + 1) sb } }
    let s := if wa then s.logC 0x0405 else s
    let s := if wb then s.logC 0x0405 else s
    (s.disagree h a b).setTj

/-- The SENSOR_SAMPLE row. -/
def execSensorSample (h : Nat) (a b : Int) (dpa dpb : Bool) (s : State) : Res :=
  need (decide (h < 73)) (sensorSampleStep h a b dpa dpb s)

/-- The temperature at which a die's throttle starts: 95 °C, 90 °C in safe mode (R703, R657). -/
def State.throttleAt (s : State) : Int := if s.fon GCTL_BOOT_STAT.SAFE_MODE 0 then 90 else 95

/-- A die's throttle, every 100 µs; in safe mode it goes no lower than VS4 (R703, R657). -/
def throttleStep (d : Nat) (s : State) : State :=
  s.when s.pwr.on fun s =>
    match s.hottest (dieSpots d) with
    | none => s
    | some t =>
      let low := decide (s.throttleAt ≤ t) || (s.pwr.lowering.getD d false && decide (s.throttleAt - 2 ≤ t))
      let g := decide (105 ≤ t) || (s.pwr.gated.getD d false && decide (103 ≤ t))
      let vs := if low then s.pwr.vs.set d (max s.vsFloor (s.pwr.vs.getD d 0 - 1)) else s.pwr.vs
      { s with pwr := { s.pwr with vs := vs, lowering := s.pwr.lowering.set d low, gated := s.pwr.gated.set d g } }

/-- The THROTTLE row. -/
def execThrottle (d : Nat) (s : State) : Res := need (wfDie d) (throttleStep d s)

/-- A comparator trips: handshakes gated, VCORE0 to VCORE3, VSRAM and VHOST off and, on the hub die, VHUB; stacks in
self-refresh; lasers off; the event with the hot spot; an emergency stop (R708, R822). -/
def thermTripStep (h : Nat) (s : State) : State :=
  s.when (s.pwr.on && decide (s.fget PWR_PSTATE.STATE 0 ≠ 4)) fun s =>
    let hub := decide (64 ≤ h)
    let off := [0, 1, 2, 3, 4, 6] ++ (if hub then [5] else [])
    let s := { s with
      pwr := { s.pwr with trip := max s.pwr.trip (if hub then 2 else 1), tripped := true }
      boot := { s.boot with tripSince := true }
      obs := { s.obs with smear := true } }
    let s := (off.foldl (fun s r => s.note 2 r) (s.selfRefresh true).ratesOff).note 0 0
    let s := s.log { code := 0x0406, data := h }
    if !hub && s.fon OBS_FREEZE.ESTOP_CAP 0 then s.trigger 4 [] true [] else s

/-- The THERM_TRIP row. -/
def execThermTrip (h : Nat) (s : State) : Res := need (decide (h < 72)) (thermTripStep h s)

/-! ## Voltage choice (R712 to R715) -/

/-- The step of least measured energy from `lo` to `hi`, the lowest of equal ones (log 22). -/
def bestStep (e : List Nat) (lo hi : Nat) : Nat :=
  ((List.range (hi + 1 - lo)).map (lo + ·)).foldl (fun b v => if e.getD v 0 < e.getD b 0 then v else b) lo

/-- Every 10 ms: each die's step, by `VS_MAX` or by its measured energies per step `e`, and `CLIP` for each die held below
`VS_MIN`, with Lehr held below what its floor asks for, or with a policy below the steps of safe mode (R712, R714; log 88). -/
def adaptChoiceStep (e : List (List Nat)) (s : State) : State :=
  s.when s.up fun s =>
    let lo := s.fget PWR_POLICY.VS_MIN 0
    let hi := s.fget PWR_POLICY.VS_MAX 0
    let s := (List.range 4).foldl (fun s d =>
      s.setVs d (if s.fon PWR_POLICY.ADAPT 0 then bestStep (e.getD d []) (s.policyStep lo) (s.policyStep hi) else hi)) s
    let all := decide (s.fget PWR_PSTATE.LEHR_W 0 < s.lehrAsk) || decide (hi < s.vsFloor)
    s.fsat PWR_EVT.CLIP 0 (if all then 4 else (s.pwr.vs.filter (fun v => decide (v < lo))).length)

/-- The ADAPT_CHOICE row. -/
def execAdaptChoice (e : List (List Nat)) (s : State) : Res := .next (adaptChoiceStep e s)

/-- When a hint's load is expected: 2^k µs after the fetch, at once for code 15 (R230). -/
def hintDue (hint t : Nat) : Nat := if hint / 16 = 15 then t else t + 2 ^ (hint / 16) * 1000

/-- The predicted power of a hinted load, in sixteenths of W: the hint's level over the power `full` of a full load at the step
(R230, R715; log 88). -/
def hintPower (hint full : Nat) : Nat := hint % 16 * full

/-- A step that the cap had taken from a die is given back to it (R711: what fits the share is within ECAP). -/
def State.capLift (s : State) (d v : Nat) : State :=
  { s with pwr := { s.pwr with capStep := s.pwr.capStep.set d (max v (s.pwr.capStep.getD d 15)) } }

/-- A load hint falls due: the die's step rises to the highest whose predicted power fits the die's share, given the power of a
full load at each step (`pred`) and the measured power outside the VCORE rails; or the hint is ignored and counted (R715). -/
def loadHintStep (k other : Nat) (pred : List Nat) (s : State) : State :=
  match s.core.hints[k]? with
  | some (d, hint, t) =>
    if s.live && decide (hintDue hint t ≤ s.time.now) then
      let s := { s with core := { s.core with hints := s.core.hints.eraseIdx k } }
      if s.fon PWR_POLICY.HINT_EN 0 then
        let lo := s.fget PWR_POLICY.VS_MIN 0
        let hi := s.fget PWR_POLICY.VS_MAX 0
        let share := (s.fget PWR_STATUS.ECAP 0 - other) / 4
        let lo := s.policyStep lo
        let hi := s.policyStep hi
        match ((List.range (hi + 1 - lo)).map (hi - ·)).find? (fun v => decide (hintPower hint (pred.getD v 0) ≤ 16 * share)) with
        | some v => if s.pwr.vs.getD d 0 < s.policyStep v then (s.capLift d v).setVs d v else s
        | none => s.fsat PWR_EVT.HINT_IGN 0 1
      else s
    else s
  | none => s

/-- The LOAD_HINT row. -/
def execLoadHint (k other : Nat) (pred : List Nat) (s : State) : Res := .next (loadHintStep k other pred s)

/-! ## Coolant (R699 to R705, R835, R836) -/

/-- No reading for 1 s (R700). -/
def execCoolStale (s : State) : Res :=
  .next (s.when (s.pwr.on && !s.pwr.stale &&
    decide ((match s.pwr.cool with | some c => c.t | none => s.pwr.onT) + 1000000000 ≤ s.time.now)) fun s =>
    ({ (s.fset PWR_THERM.TIN 0 255).fset PWR_THERM.TOUT 0 255 with pwr := { s.pwr with stale := true, coolOk := none } }).logC
      0x040C)

/-- Hundredths rounded to whole units, a half going up (log 24). -/
def round100 (x : Int) : Int := (x + 50) / 100

/-- A frame is accepted when its CRC-8 holds and its number lies above the last one's modulo 2^16 (R835). -/
def State.frameOk (s : State) (b : List Byte) : Bool :=
  decide (b.length = 12) && decide (crc8 (b.take 11) = leAt b 11 1) &&
  (match s.pwr.traySeq with
   | some q => let d := wrapSub 16 (leAt b 0 2) q; decide (1 ≤ d) && decide (d < 32768)
   | none => true)

/-- Flow hold begins (R704). -/
def State.enterFlowHold (s : State) : State :=
  ((s.fset PWR_STATUS.FLOW_HOLD 0 1).fset PWR_PSTATE.LEHR_W 0 0).logC 0x0407

/-- The rise of the outlet-to-inlet difference from one reading to the next, in 0.01 K per ns × 10^9 against `k` hundredths
of a kelvin per second. -/
def risesFaster (a b : Coolant) (k : Int) : Bool :=
  decide (k * ((b.t : Int) - a.t) < ((b.tout - b.tin) - (a.tout - a.tin)) * 1000000000)

/-- The flow-hold triggers: flow below 20 % of the set point, or a rise faster than 2 K/s over two readings, not while the
readings were stale (R700, R704). -/
def State.flowTrigger (s : State) (c : Coolant) : Bool :=
  decide (c.flow < s.fget PWR_POLICY.FLOW_SET 0) ||
  (match s.pwr.cool with | some a => !s.pwr.stale && risesFaster a c 200 | none => false)

/-- The reading is good for leaving flow hold: flow at least 80 % and a rise below 0.5 K/s (R705). -/
def State.flowGood (s : State) (c : Coolant) : Bool :=
  decide (4 * s.fget PWR_POLICY.FLOW_SET 0 ≤ c.flow) &&
  (match s.pwr.cool with
   | some a => decide (((c.tout - c.tin) - (a.tout - a.tin)) * 1000000000 < 50 * ((c.t : Int) - a.t)) | none => false)

/-- The registers take an accepted reading in their units (R710, R836). -/
def State.putCoolant (s : State) (c : Coolant) : State :=
  let (i, s) := s.fit 8 (round100 c.tin)
  let (o, s) := s.fit 8 (round100 c.tout)
  let (f, s) := s.fit 8 ((c.flow + 2) / 5 : Nat)
  ((s.fset PWR_THERM.TIN 0 i).fset PWR_THERM.TOUT 0 o).fset PWR_THERM.FLOW 0 f

/-- Flow hold begins, goes on or ends with a reading (R704, R705, R713). -/
def State.flowHold (s : State) (c : Coolant) : State :=
  if s.fon PWR_STATUS.FLOW_HOLD 0 then
    if s.flowGood c then
      match s.pwr.coolOk with
      | some t => if t + 1000000000 ≤ c.t then
          { s.fset PWR_STATUS.FLOW_HOLD 0 0 with pwr := { s.pwr with coolOk := none } }.recap else s
      | none => { s with pwr := { s.pwr with coolOk := some c.t } }
    else { s with pwr := { s.pwr with coolOk := none } }
  else if s.up && s.flowTrigger c then s.enterFlowHold
  else s

/-- A coolant frame of 12 bytes arrives on the tray bus, which goes unanswered during a handover (R787, R835, R836, R700, R704, R705). -/
def trayFrameStep (b : List Byte) (s : State) : State :=
  s.when (s.i3cUp && s.frameOk b) fun s =>
    let c : Coolant := ⟨sext 16 (leAt b 2 2), sext 16 (leAt b 4 2), leAt b 6 2, s.time.now⟩
    let s := (s.flowHold c).putCoolant c
    { s with pwr := { s.pwr with traySeq := some (leAt b 0 2), cool := some c, stale := false } }

/-- The TRAY_FRAME row. -/
def execTrayFrame (b : List Byte) (s : State) : Res := .next (trayFrameStep b s)

/-! ## Power states (R716 to R722) -/

/-- A context has a launched command that is not complete. -/
def State.anyLaunched (s : State) : Bool := s.cfe.cmds.any (·.launched)

/-- Nothing is launched, in progress or in service: the first sense of idle (R717). -/
def State.restful (s : State) : Bool :=
  !s.anyLaunched && s.coll.insts.isEmpty && s.att.queries.isEmpty &&
    !(s.fab.msgs.any fun m => decide (PH.TYPE.of m.hdr = tyQUERY)) && decide (s.fget SPARE_REPLAY_STAT.STATE 0 = 0) &&
    !s.fon SPARE_RESYNC.BUSY 0

/-- The module is idle (R717). -/
def State.idle (s : State) : Bool := s.fon SPARE_ESC.WITHDRAWN 0 || s.restful

/-- The effective tolerance in µs (R368); 0xFFFF means any. -/
def State.tolerance (s : State) : Nat :=
  (List.range 256).foldl (fun m c => if s.fget CTX_STATE.STATE c = 1 then min m (s.fget CTX_CFG.WAKE c) else m)
    (s.fget CFE_WAKE.WAKE 0)

/-- The deepest state whose entry condition and wake bound allow it, after `idleNs` of idleness and `quietNs` without a packet
other than TIME (R716, R717). -/
def State.deepest (s : State) (idleNs quietNs : Nat) : Nat :=
  let t := s.tolerance
  let any := decide (t = 65535)
  if 1000000 ≤ quietNs ∧ 10000 ≤ idleNs ∧ (any = true ∨ 6000 ≤ t) then 3
  else if 10000 ≤ idleNs ∧ (any = true ∨ 30 ≤ t) then 2
  else if 10000 ≤ idleNs ∧ (any = true ∨ 1 ≤ t) then 1
  else 0

/-- Every port in LS0 or LS1 announces LS2 and enters it, and the router stops (R483, R716 PS3, log 65). -/
def State.portsLs2 (s : State) : State :=
  (List.range 22).foldl (fun s p => if s.lstate p ≤ 1 then s.ask p 5 0 else s) s

/-- An idle module enters the deepest permitted state (R717); `want` is the power that would hold the Lehr floor. -/
def idleEntryStep (idleNs quietNs want : Nat) (s : State) : State :=
  s.when (s.live && s.idle) fun s =>
    let d := s.deepest idleNs quietNs
    if s.fget PWR_PSTATE.STATE 0 < d then
      let s := { s.fset PWR_PSTATE.STATE 0 d with pwr := { s.pwr with lehrLogged := false, lehrWant := want } }
      let s := if 2 ≤ d then s.ratesOff else s
      let s := if d = 3 then (s.selfRefresh true).portsLs2 else s
      s.lehr
    else s

/-- The IDLE_ENTRY row. -/
def execIdleEntry (idleNs quietNs want : Nat) (s : State) : Res := .next (idleEntryStep idleNs quietNs want s)

/-- The POWER_WAKE row (R718). -/
def execPowerWake (s : State) : Res := .next (s.when s.up State.wake)

end Sys2Proof.Machine
end

