-- ==== Sys2Proof/Machine/TokenRows.lean ====
section
/-! DEFINITION. Token and control descriptors, the completion of a descriptor in its engine, and signals arriving at counters
(R154 to R156, R181 to R199, R222 to R227). -/
set_option autoImplicit false
namespace Sys2Proof.Machine

/-- A descriptor that completes as it fires: a matching dump slot records it, and its header signal goes out (R181). -/
def State.finishNow (s : State) (r : Rsd) (d : Nat) : State :=
  let t := DESC.TAG.of d
  let n := s.core.fires
  let f : Flight := ⟨n, r.lastPos, r.iter, d, if t = 0 then 0 else tget r.occ t 0 - 1, 0, [], 0, [], [], true, 0, [], []⟩
  let s := { s with core := { s.core with fires := n + 1 } }
  (s.dumpTensor r f).headerSig r d f.pos f.iter

/-- A TSIG does nothing but send its header signal (R180). -/
def tsigEffect : Effect := fun r d s => s.finishNow r d

/-- A TSIG fires. -/
def tsigStep (lcore ring seq : Nat) (f : FireIn) (s : State) : State := s.fire lcore ring seq 0x40 f tsigEffect

/-- The TSIG row. -/
def execTsig (lcore ring seq : Nat) (f : FireIn) (s : State) : Res :=
  need (wfCore lcore && wfRing ring) (tsigStep lcore ring seq f s)

/-- A TSIGALL signals the counter on every core on which its command was launched (R180). -/
def tsigallEffect : Effect := fun r d s =>
  let cores := (s.core.rsds.filter fun q => decide (q.ring = r.ring) && decide (q.seq = r.seq)).map (·.lcore)
  let s := s.finishNow r (DESC.S_EN.put d 0)
  if DESC.S_EN.on d then
    cores.foldl (fun s c => s.sendSig ⟨r.ring, r.seq, c, DESC.S_CTR.of d, DESC.S_INC.of d, r.lcore, r.lastPos, r.iter, 0⟩) s
  else s

/-- A TSIGALL fires. -/
def tsigallStep (lcore ring seq : Nat) (f : FireIn) (s : State) : State := s.fire lcore ring seq 0x41 f tsigallEffect

/-- The TSIGALL row. -/
def execTsigall (lcore ring seq : Nat) (f : FireIn) (s : State) : Res :=
  need (wfCore lcore && wfRing ring) (tsigallStep lcore ring seq f s)

/-- A TREAD writes a counter's value at one read to core store, and counts one divergence (R181, R227). -/
def treadEffect : Effect := fun r d s =>
  let v := r.ctrs.getD (TREAD.T_CTR.of d) 0
  ((s.divergeFor r 1).csWrite r.site (32 * unitAddr d r.iter TREAD.RES_ADDR 0) (leBytes 4 v)).finishNow r d

/-- A TREAD fires. -/
def treadStep (lcore ring seq : Nat) (f : FireIn) (s : State) : State := s.fire lcore ring seq 0x42 f treadEffect

/-- The TREAD row. -/
def execTread (lcore ring seq : Nat) (f : FireIn) (s : State) : Res :=
  need (wfCore lcore && wfRing ring) (treadStep lcore ring seq f s)

/-- A LOOPB opens a loop at iteration 0; its loop begins at the descriptor after it (R194). -/
def loopbEffect : Effect := fun r d s =>
  (s.setRsd { r with loops := (r.pos, LOOPB.COUNT.of d, 0) :: r.loops }).finishNow r d

/-- A LOOPB fires. -/
def loopbStep (lcore ring seq : Nat) (f : FireIn) (s : State) : State := s.fire lcore ring seq 0x50 f loopbEffect

/-- The LOOPB row. -/
def execLoopb (lcore ring seq : Nat) (f : FireIn) (s : State) : Res :=
  need (wfCore lcore && wfRing ring) (loopbStep lcore ring seq f s)

/-- A list after LOOPE: the innermost loop's next iteration, or the loop closed (R194). -/
def Rsd.loopEnd (r : Rsd) : Rsd :=
  match r.loops with
  | [] => r
  | (p, n, i) :: l => if i + 1 < n then { r with pos := p, loops := (p, n, i + 1) :: l } else { r with loops := l }

/-- A LOOPE advances the innermost loop. -/
def loopeEffect : Effect := fun r d s => (s.setRsd r.loopEnd).finishNow r d

/-- A LOOPE fires. -/
def loopeStep (lcore ring seq : Nat) (f : FireIn) (s : State) : State := s.fire lcore ring seq 0x51 f loopeEffect

/-- The LOOPE row. -/
def execLoope (lcore ring seq : Nat) (f : FireIn) (s : State) : Res :=
  need (wfCore lcore && wfRing ring) (loopeStep lcore ring seq f s)

/-- Whether a SKIP's condition holds; `w` is the tested word (R223). -/
def Rsd.skips (r : Rsd) (d w : Nat) : Bool :=
  let i := r.iter
  let n := match r.loops with | [] => 0 | l :: _ => l.2.1
  match SKIPD.COND.of d with
  | 0 => true
  | 1 => decide (i = 0)
  | 2 => decide (i ≠ 0)
  | 3 => decide (i + 1 = n)
  | 4 => decide (i + 1 ≠ n)
  | 5 => decide (w ≠ 0)
  | _ => decide (w = 0)

/-- A SKIP passes over its range when its condition holds (R199, R223). -/
def skipEffect (e : Ecc) : Effect := fun r d s =>
  s.withEcc r.back e fun s =>
    let w := leAt (s.csRead r.site (32 * SKIPD.C_ADDR.of d) 4) 0 4
    (if r.skips d w then s.setRsd { r with pos := r.pos + SKIPD.N.of d } else s).finishNow r d

/-- A SKIP fires. -/
def skipStep (lcore ring seq : Nat) (f : FireIn) (s : State) : State := s.fire lcore ring seq 0x52 f (skipEffect f.ecc)

/-- The SKIP row. -/
def execSkip (lcore ring seq : Nat) (f : FireIn) (s : State) : Res :=
  need (wfCore lcore && wfRing ring) (skipStep lcore ring seq f s)

/-- An END ends the list; nothing after it is fetched (R224). -/
def endEffect : Effect := fun r d s => (s.setRsd { r with ended := true }).finishNow r d

/-- An END fires. -/
def endListStep (lcore ring seq : Nat) (f : FireIn) (s : State) : State := s.fire lcore ring seq 0x53 f endEffect

/-- The END row. -/
def execEndList (lcore ring seq : Nat) (f : FireIn) (s : State) : Res :=
  need (wfCore lcore && wfRing ring) (endListStep lcore ring seq f s)

/-- A FAIL takes its context into a reset with its program code in the log entry (R225). -/
def failEffect : Effect := fun r d s =>
  if s.replaying r.ring r.seq then s.stopReplay r.ring r.seq
  else s.ctxReset r.ctx 0x0325 (r.back.errData 0 (FAILD.UCODE.of d))

/-- A FAIL fires. -/
def failStep (lcore ring seq : Nat) (f : FireIn) (s : State) : State := s.fire lcore ring seq 0x54 f failEffect

/-- The FAIL row. -/
def execFail (lcore ring seq : Nat) (f : FireIn) (s : State) : Res :=
  need (wfCore lcore && wfRing ring) (failStep lcore ring seq f s)

/-- A STAMP writes its die's count and the UNSYNCED flag to core store; an NS context's count is coarsened (R226, R766). -/
def stampEffect : Effect := fun r d s =>
  let t := s.replicaCount (siteDie r.site)
  let b := leBytes 8 (if s.coarseCtx r.ctx then coarse t else t) ++ leBytes 1 (b2n s.unsync)
  (s.csWrite r.site (32 * unitAddr d r.iter STAMPD.RES_ADDR 0) b).finishNow r d

/-- A STAMP fires. -/
def stampStep (lcore ring seq : Nat) (f : FireIn) (s : State) : State := s.fire lcore ring seq 0x55 f stampEffect

/-- The STAMP row. -/
def execStamp (lcore ring seq : Nat) (f : FireIn) (s : State) : Res :=
  need (wfCore lcore && wfRing ring) (stampStep lcore ring seq f s)

/-! ## Completion in an engine -/

/-- The old value that an atomic returns, written to core store (R220). -/
def State.atomOld (s : State) (r : Rsd) (f : Flight) : State :=
  if decide (DESC.OPCODE.of f.word = 0x31) && satomReturns f.word then
    s.csWrite r.site (32 * unitAddr f.word f.iter SA.RES_ADDR 1) (leBytes 8 f.aux)
  else s

/-- The k-th flight of a list completes once its work is done; `steps` is how many steps its engine ran it (R181, R791). -/
def descCompleteStep (lcore ring seq k steps : Nat) (s : State) : State :=
  s.when s.hubUp fun s =>
    match s.flightAt lcore ring seq k with
    | none => s
    | some (r, f) =>
      if !f.ready then s
      else
        let s := ((s.atomOld r f).addBusy r.site (DESC.OPCODE.of f.word) steps).endFlight r f
        (s.dropXfers fun x => decide (x.owner = .flight lcore ring seq f.fid)).engines

/-- The DESC_COMPLETE row. -/
def execDescComplete (lcore ring seq k steps : Nat) (s : State) : Res :=
  need (wfCore lcore && wfRing ring) (descCompleteStep lcore ring seq k steps s)

/-! ## Signals -/

/-- A signal that would pass 2^32 − 1 fails the descriptor that sent it, on the sending core (R192). -/
def State.overflowSig (s : State) (g : Sig) : State :=
  if s.replaying g.ring g.seq then s.stopReplay g.ring g.seq
  else
    let d := match s.rsd g.src g.ring g.seq with
      | some r => ({ r with pos := g.spos, loops := [(0, 0, g.siter)] } : Rsd).errData 0 0
      | none => g.src
    s.ctxReset (ringCtx g.ring) 0x0322 d

/-- A counter takes a signal (R156, R183, R192). -/
def State.addSig (s : State) (r : Rsd) (g : Sig) : State :=
  let v := r.ctrs.getD g.ctr 0 + g.inc
  if 2 ^ 32 ≤ v then s.overflowSig g
  else s.setRsd { r with ctrs := r.ctrs.set g.ctr v, lastSig := (g.ctr, g.src, g.kind) }

/-- The n-th signal on its way arrives, once none sent before it on the same way is still on it: it is added, or discarded where its
command's counters have been released (R168, R191). -/
def tokenSignalStep (n : Nat) (s : State) : State :=
  s.when s.hubUp fun s =>
    match s.core.sigs[n]? with
    | none => s
    | some g =>
      if !s.sigFirst n g then s else
      let s := { s with core := { s.core with sigs := s.core.sigs.eraseIdx n } }
      match s.rsd g.lcore g.ring g.seq with
      | none => s
      | some r => if r.dead then s else (s.addSig r g).engines

/-- The TOKEN_SIGNAL row. -/
def execTokenSignal (n : Nat) (s : State) : Res := .next (tokenSignalStep n s)

end Sys2Proof.Machine
end

