-- ==== Sys2Proof/Machine/Recovery.lean ====
section
/-! DEFINITION. Spares, fencing, investigations and replay, aborts of groups, the log's notice and the crash dump (R164 to R166,
R563 to R614). -/
set_option autoImplicit false
namespace Sys2Proof.Machine

/-! ## Spare substitution (R164 to R166) -/

/-- A core fault is detected on a site, which is fenced. -/
def spareSubstitutionStep (site : Nat) (s : State) : State := s.when s.hubUp fun s => s.fenceSite site 2

/-- The SPARE_SUBSTITUTION row. -/
def execSpareSubstitution (site : Nat) (s : State) : Res := need (wfSite site) (spareSubstitutionStep site s)

/-- A logical core's member field. -/
def State.setMember (s : State) (lcore pos : Nat) : State := s.fset (memberFld (lcore % 8)) (lcore / 8) pos

/-- A failed site's spare takes its logical number, zero-filled; without a spare, or with one that fails its wake check, the
number becomes a hole (steps 4 and 5, R165, R166). -/
def State.substitute (s : State) (f : Fencing) (wakeOk : Bool) : State :=
  let cl := f.lcore / 8
  let sp := s.fget SPARE_CMAP.SPARE_POS cl
  let spare := siteAt (f.lcore / 512) (s.fget SPARE_CMAP.PCLUST cl) sp
  let s := s.fset SPARE_CMAP.SPARE_POS cl 15
  if 9 ≤ sp then (s.setMember f.lcore 15).recordFence 1 f.origin (siteUnit f.site)
  else if wakeOk then
    (((s.csZero spare).setMember f.lcore sp).fset SPARE_WEAR.USE spare 0).recordFence 1 f.origin (siteUnit f.site)
  else (((s.setMember f.lcore 15).gateSite spare).recordFence 1 f.origin (siteUnit f.site)).recordFence 1 2 (siteUnit spare)

/-- A substitution ends; the commands that name the logical core are released. -/
def substitutionDoneStep (site : Nat) (wakeOk : Bool) (s : State) : State :=
  s.when s.hubUp fun s =>
    match s.spare.fencing.find? fun f => decide (f.site = site) && !f.drain with
    | some f => ((s.substitute f wakeOk).freeCore f.lcore).dropFencing site
    | none => s

/-- The SUBSTITUTION_DONE row. -/
def execSubstitutionDone (site : Nat) (wakeOk : Bool) (s : State) : Res :=
  need (wfSite site) (substitutionDoneStep site wakeOk s)

/-! ## SPARE_FENCE (R570 to R572) -/

/-- Whether a unit number names a unit of a kind that `GO` accepts (R571, R576). -/
def unitNamed (kind u : Nat) : Bool :=
  let site (u : Nat) : Bool := decide (bitsOf u 2 5 < 24) && decide (bitsOf u 7 5 < 24)
  match kind with
  | 1 => decide (u < 2 ^ 12) && site u
  | 3 => decide (u < 2 ^ 28) && site u
  | 6 => decide (u < 2 ^ 9) && decide (bitsOf u 0 4 ≤ 10) && decide (bitsOf u 4 5 < phasesAll (bitsOf u 0 4))
  | 7 => decide (u < 2 ^ 3)
  | _ => false

/-- Site and core-store address of a row's unit number (R576). -/
def unitRow (u : Nat) : Nat × Nat :=
  ((unitSite (u % 4096)).getD 0, (bitsOf u 12 5 <<< 5) + (bitsOf u 17 11 <<< 10))

/-- Whether a `GO` is rejected (R571). -/
def State.fenceGoBad (s : State) (v : Nat) : Bool :=
  let k := SPARE_FENCE.KIND.val v
  let u := SPARE_FENCE.UNIT.val v
  SPARE_FENCE.GO.bit v && (s.fon SPARE_FENCE.BUSY 0 || !unitNamed k u ||
    (!s.inCullet k u &&
      ((decide (k = 3) && decide (spareRows ≤ tget s.core.rowUsed (bankKey (unitRow u).1 (unitRow u).2) 0)) ||
       (decide (k = 7) && s.inCullet 7 (u ^^^ 4)))))

/-- A drain begins: the CFE holds back every command that names the site's logical core (R572). -/
def State.startDrain (s : State) (site lcore : Nat) : State := (s.holdCore lcore).addFencing ⟨lcore, site, 3, true⟩

/-- The unit named by an accepted `GO` is fenced (R571, R572). -/
def State.hostFence (s : State) (k u : Nat) (drain : Bool) : State :=
  if s.inCullet k u then s.fset SPARE_FENCE.DONE 0 1
  else match k with
    | 1 =>
      let site := (unitSite u).getD 0
      match s.siteCore site with
      | some l => if drain then s.startDrain site l else s.fenceSite site 3
      | none => s.fenceSite site 3
    | 3 => s.repairRow (unitRow u).1 (unitRow u).2 3
    | 6 => s.fencePhase (bitsOf u 0 4) (bitsOf u 4 5) 3
    | 7 => s.recordFence 7 3 u
    | _ => s

/-- A drain ends before its substitution; the held commands are released and the site stays in service (R572). -/
def State.cancelDrain (s : State) : State :=
  (s.spare.fencing.filter (·.drain)).foldl (fun s f => (s.freeCore f.lcore).dropFencing f.site) s

/-- A write to `SPARE_FENCE`. -/
def spareFenceWrite (w : Who) (v : Nat) (s : State) : State :=
  s.when (s.reaches w) fun s => s.regWrite w .SPARE_FENCE 0 v (fun s => s.fenceGoBad v) fun s =>
    let s := s.putRW .SPARE_FENCE 0 v
    let s := if SPARE_FENCE.CANCEL.bit v then s.cancelDrain else s
    if SPARE_FENCE.GO.bit v then s.hostFence (SPARE_FENCE.KIND.val v) (SPARE_FENCE.UNIT.val v) (SPARE_FENCE.DRAIN.bit v) else s

/-- The SPARE_FENCE_GO row: a write with `GO` 1. -/
def execSpareFenceGo (w : Who) (v : Nat) (s : State) : Res :=
  .next (s.when (SPARE_FENCE.GO.bit v) fun s => spareFenceWrite w v s)

/-- The SPARE_FENCE_CANCEL row: a write with `CANCEL` 1. -/
def execSpareFenceCancel (w : Who) (v : Nat) (s : State) : Res :=
  .next (s.when (SPARE_FENCE.CANCEL.bit v) fun s => spareFenceWrite w v s)

/-- A drained site holds no resident work: its substitution runs from step 4, and no context is reset (R572). -/
def drainCompleteStep (site : Nat) (s : State) : State :=
  s.when (s.hubUp && !s.core.rsds.any fun r => decide (r.site = site)) fun s =>
    let l := s.spare.fencing
    let l2 : List Fencing := l.map fun f => if f.site = site then { f with drain := false } else f
    if l.any fun f => decide (f.site = site) && f.drain then
      { s with spare := { s.spare with fencing := l2 } }.gateSite site
    else s

/-- The DRAIN_COMPLETE row. -/
def execDrainComplete (site : Nat) (s : State) : Res := need (wfSite site) (drainCompleteStep site s)

/-! ## Wear (R565 to R567) -/

/-- A site's baseline at a voltage step, in ps: WEAR_BASE of the calibration area, or in safe mode the site's first reading
(R565). -/
def State.wearBase (s : State) (site vs ps : Nat) : Nat :=
  if s.fon GCTL_BOOT_STAT.SAFE_MODE 0 then tget s.spare.baseline site ps
  else ofLE (cellsRead s.boot.cal (0x7000 + 2 * (15 * site + vs)) 2)

/-- Drift in units of 0.01 %. Its rounding, and its value against a baseline of 0, are free (R565, log 57). -/
def State.driftOf (s : State) (ps base : Nat) : Int :=
  if base = 0 then sext 16 (s.freeV 16)
  else
    let n : Int := 10000 * ((ps : Int) - base)
    n / base + if n % base ≠ 0 ∧ s.freeB = true then 1 else 0

/-- A site's completion delay, corrected to 70 °C, is read as `ps`, at a junction temperature in °C (R565, R567). -/
def State.wearRead (s : State) (site ps tj : Nat) : State :=
  let vs := s.pwr.vs.getD (siteDie site) 0
  let base := s.wearBase site vs ps
  let s := if s.fon GCTL_BOOT_STAT.SAFE_MODE 0 then
      { s with spare := { s.spare with baseline := tset s.spare.baseline site base 0 } } else s
  let d := s.driftOf ps base
  let s := (((s.fset SPARE_WEAR.DRIFT site (wrapInt 16 d)).fset SPARE_WEAR.VS site vs).fset SPARE_WEAR.TJ site tj).drew
  if (s.fget SPARE_WEAR_CTL.WARN 0 : Int) * 10 < d ∧ s.fon SPARE_WEAR.WARNED site = false then
    (s.fset SPARE_WEAR.WARNED site 1).log { code := 0x0304, kind := 1, unit := siteUnit site }
  else s

/-- A reading of an active or spare site in service. -/
def wearReadingStep (site ps tj : Nat) (s : State) : State :=
  s.when (s.hubUp && decide (s.fget SPARE_WEAR.USE site ≤ 1)) fun s => s.wearRead site ps tj

/-- The WEAR_READING row. -/
def execWearReading (site ps tj : Nat) (s : State) : Res := need (wfSite site) (wearReadingStep site ps tj s)

/-! ## Investigations (R582 to R592) -/

/-- A command put in its place among others by ring, then by number (R584). -/
def putCmd (c : Cmd) : List Cmd → List Cmd
  | [] => [c]
  | d :: r => if c.ring < d.ring ∨ (c.ring = d.ring ∧ c.seq < d.seq) then c :: d :: r else d :: putCmd c r

/-- The LAUNCH commands with live work on a site, in the order of R584. -/
def State.siteCmds (s : State) (site : Nat) : List Cmd :=
  (s.cfe.cmds.filter fun c => c.launched && decide (CMD.OP.of c.word = 1) &&
    s.core.rsds.any fun r => decide (r.site = site) && !r.dead && c.is r.ring r.seq).foldl (fun l c => putCmd c l) []

/-- Whether a site is under investigation or waits for one. -/
def State.investigated (s : State) (site : Nat) : Bool :=
  (s.spare.inv.toList ++ s.spare.invQ).any fun i => decide (i.site = site)

/-- `SPARE_REPLAY_STAT` follows the investigation that runs. -/
def State.showInv (s : State) (st : Nat) : State :=
  let s := (s.fset SPARE_REPLAY_STAT.STATE 0 st).fset SPARE_REPLAY_STAT.QUEUED 0 s.spare.invQ.length
  match s.spare.inv with
  | some i => ((s.fset SPARE_REPLAY_STAT.DIE 0 (i.site / 576)).fset SPARE_REPLAY_STAT.ROW 0 (i.site % 576 / 24)).fset
      SPARE_REPLAY_STAT.COL 0 (i.site % 24)
  | none => s

/-- The next queued investigation, if any, begins its self-test. -/
def State.nextInv (s : State) : State :=
  match s.spare.invQ with
  | i :: r => { s with spare := { s.spare with inv := some i, invQ := r } }.showInv 1
  | [] => { s with spare := { s.spare with inv := none } }.showInv 0

/-- An ambiguous fault: the site is held, its contexts are reset, a capture is taken, and the investigation runs or waits; with
15 waiting the site is fenced at once with verdict SITE, one event whether or not contexts were reset (R583 step 2, R591, R593). -/
def State.investigate (s : State) (site lcore kind ring seq pos iter : Nat) : State :=
  let cs := s.siteCtxs site
  if 15 ≤ s.spare.invQ.length then
    let s := (s.fenceSite site 2).fset SPARE_REPLAY_STAT.VERDICT 0 1
    if cs.isEmpty then s.escalate else s
  else
    let i : Invest := ⟨site, lcore, kind, pos, iter, ring, seq, cs, false, s.siteCmds site, false, 0⟩
    let d := lcore + (pos <<< 11) + (iter <<< 31) + (seq <<< 100) + (ring <<< 132)
    let s := ((s.holdCore lcore).trigger 2 [site] false []).resetMany cs 0x0302
      (fun c => if c = ringCtx ring then d else s.siteData site lcore c)
    let s := { s with spare := { s.spare with invQ := s.spare.invQ ++ [i] } }
    if s.spare.inv.isSome then s.fset SPARE_REPLAY_STAT.QUEUED 0 s.spare.invQ.length else s.nextInv

/-- An ambiguous fault of a kind on a site, in a descriptor of a work list; while the site is investigated it is the replay's
end that tells (R582, R586). -/
def State.ambiguous (s : State) (kind site ring seq pos iter : Nat) : State :=
  match s.siteCore site with
  | some l => if s.live && !s.investigated site && !s.spare.fenced.contains site then s.investigate site l kind ring seq pos iter else s
  | none => s

/-- A core stage has had a request pending for 100 µs with no completion. -/
def execHandshakeStall (site ring seq pos iter : Nat) (s : State) : Res :=
  need (wfSite site && wfRing ring) (s.ambiguous 0 site ring seq pos iter)

/-- A descriptor engine's microcode finds its own state inconsistent. -/
def execMicrocodeCheck (site ring seq pos iter : Nat) (s : State) : Res :=
  need (wfSite site && wfRing ring) (s.ambiguous 1 site ring seq pos iter)

/-- Contexts active on a hub engine: 0 the CFE, 1 the collective engine, 2 the query dispatcher, else the fabric source side
(R582). -/
def State.engineCtxs (s : State) (e : Nat) : List Nat :=
  let l : List Nat := match e with
    | 0 => s.cfe.cmds.map fun c => ringCtx c.ring
    | 1 => s.coll.insts.map fun i => i.ctx
    | 2 => s.att.shards.map fun q => q.ctx
    | _ => s.fab.xfers.filterMap fun x => x.ctx
  l.eraseDups

/-- A hub engine finds an error it cannot correct: one engine fault, and every context active on it is reset (R582, R593). -/
def hubEngineFaultStep (e : Nat) (s : State) : State :=
  s.when s.hubUp fun s => (s.resetMany (s.engineCtxs e) 0x0302 fun _ => 0).escalate

/-- The HUB_ENGINE_FAULT row. -/
def execHubEngineFault (e : Nat) (s : State) : Res := .next (hubEngineFaultStep e s)

/-- The investigation that runs ends with a verdict: it is recorded and logged, the site's commands are released, and the next
one begins. The spec names a code for CONTEXT alone; any other verdict's code is a free value (R583 step 6, R587, R589, R593, log
58). -/
def State.verdict (s : State) (i : Invest) (v ctx : Nat) : State :=
  let s := (s.freeCore i.lcore).fset SPARE_REPLAY_STAT.VERDICT 0 v
  let s := if v = 2 then s.fset SPARE_REPLAY_STAT.CTX 0 ctx
    else (s.log { code := 0x0300 + s.freeV 8, kind := 1, unit := siteUnit i.site }).drew.escalate
  s.nextInv

/-- The site is at fault: it is fenced, with verdict SITE (R583 step 4, R590). -/
def State.siteGuilty (s : State) (i : Invest) : State := (s.fenceSite i.site 2).verdict i 1 0

/-- No replay reproduced the fault: TRANSIENT or OPEN, and the second such verdict fences the site (R589, R590). -/
def State.unsettled (s : State) (i : Invest) : State :=
  let n := s.fget SPARE_WEAR.TRANS i.site + 1
  let s := s.fset SPARE_WEAR.TRANS i.site (min 7 n)
  if 2 ≤ n then s.siteGuilty i else s.verdict i (if i.open_ then 4 else 3) 0

/-- The investigation that runs, as it now stands. -/
def State.setInv (s : State) (i : Invest) : State := { s with spare := { s.spare with inv := some i } }

/-- A replay starts once every core it names has room: its work is resident again, alone on its logical cores (R584, R585). One
that names a hole now stops without result. -/
def State.startReplay (s : State) (i : Invest) (c : Cmd) : State :=
  let c := { c with ndone := 0, order := s.cfe.order, expect := c.lt.length, lastProg := s.time.run }
  let s := c.cores.foldl (fun s l => s.holdCore l) s
  { s.setInv { i with running := true, tRun := s.time.run } with
    cfe := { s.cfe with cmds := s.cfe.cmds ++ [c], order := s.cfe.order + 1 }
    core := { s.core with rsds := s.core.rsds ++ c.lt.map (s.resident c) } }.engines

/-- The investigation goes on: the next command is replayed when it can be, and after the last the verdict is recorded. -/
def State.nextReplay : Nat → State → State
  | 0, s => s
  | n + 1, s =>
    match s.spare.inv with
    | none => s
    | some i =>
      match i.todo with
      | [] => s.unsettled i
      | c :: r =>
        if c.cores.any fun l => (s.coreSite l).isNone then (s.setInv { i with todo := r, open_ := true }).nextReplay n
        else if c.cores.all fun l => s.room l c.nctr then s.startReplay i c
        else s

/-- Whether a suspect is eligible for replay (R584). -/
def State.eligible (s : State) (c : Nat) : Bool :=
  s.fon SPARE_REPLAY_CTL.EN 0 && (s.fget SPARE_REPLAY_EN.CTXS (c / 64)).testBit (c % 64)

/-- Self-test of the investigated site ends, once its suspects' resets have (R583 steps 3 to 5, R590). -/
def investigationSelftestDoneStep (pass : Bool) (s : State) : State :=
  match s.spare.inv with
  | none => s
  | some i =>
    if s.hubUp && decide (s.fget SPARE_REPLAY_STAT.STATE 0 = 1) &&
        i.suspects.all fun c => decide (s.fget CTX_STATE.STATE c ≠ 2) then
      if !pass then s.siteGuilty i
      else
        let todo := i.todo.filter fun c => s.eligible (ringCtx c.ring)
        let open_ := !s.fon SPARE_REPLAY_CTL.EN 0 || i.suspects.any fun c => !s.eligible c
        let s := (s.setInv { i with todo := todo, open_ := open_ }).fset SPARE_REPLAY_STAT.STATE 0 2
        s.nextReplay (todo.length + 1)
    else s

/-- The INVESTIGATION_SELFTEST_DONE row. -/
def execInvestigationSelftestDone (pass : Bool) (s : State) : Res := .next (investigationSelftestDoneStep pass s)

/-- The replayed command is gone from the cores and the CFE, and its cores take other commands again. -/
def State.endReplay (s : State) (i : Invest) (c : Cmd) : State :=
  let s := s.dropWork c.ring c.seq
  let s := c.cores.foldl (fun s l => s.freeCore l) s
  { s.setInv { i with todo := i.todo.tail, running := false } with
    cfe := { s.cfe with
      cmds := s.cfe.cmds.filter fun d => !d.is c.ring c.seq
      dones := s.cfe.dones.filter fun d => !(decide (d.1 = c.ring) && decide (d.2.1 = c.seq)) }
    core := { s.core with
      chain := s.core.chain.filter fun e => decide (e.2 ≠ ringCtx c.ring + 1)
      sigs := s.core.sigs.filter fun g => !(decide (g.ring = c.ring) && decide (g.seq = c.seq)) } }

/-- Whether the replay stands in the descriptor and iteration of the fault, on its site (R586). -/
def State.atFault (s : State) (i : Invest) : Bool :=
  s.core.rsds.any fun r => decide (r.site = i.site) && decide (r.ring = i.dring) && decide (r.seq = i.dseq) &&
    ((decide (r.pos = i.dpos) && decide (r.iter = i.diter)) ||
     r.flights.any fun f => decide (f.pos = i.dpos) && decide (f.iter = i.diter))

/-- A replayed command ends: by the same detection in the same descriptor, which convicts its context; cleanly, with every done
message counted; or stopped, its work gone. With none running, the next one starts if it can (R586, R587, R589). -/
def replayCommandEndStep (repro : Bool) (s : State) : State :=
  match s.spare.inv with
  | none => s
  | some i =>
    if !s.live || decide (s.fget SPARE_REPLAY_STAT.STATE 0 ≠ 2) then s
    else if !i.running then s.nextReplay (i.todo.length + 1)
    else match i.todo.head? with
      | none => s
      | some c =>
        let done := (s.cmdAt c.ring c.seq).any fun d => decide (d.expect ≤ d.ndone)
        let stopped := !s.core.rsds.any fun r => c.is r.ring r.seq
        if repro then
          if s.atFault i then
            let ctx := ringCtx c.ring
            let d := i.lcore + (i.dpos <<< 11) + (i.diter <<< 31) + (c.seq <<< 100) + (c.ring <<< 132)
            ((s.endReplay i c).logX 0x0303 ctx d).verdict i 2 ctx
          else s
        else if done || stopped then (s.endReplay i c).nextReplay (i.todo.length + 1)
        else s

/-- The REPLAY_COMMAND_END row. -/
def execReplayCommandEnd (repro : Bool) (s : State) : Res := .next (replayCommandEndStep repro s)

/-- A replayed command exceeds `TMO`: it stops without result (R586). -/
def replayTmoStep (s : State) : State :=
  match s.spare.inv with
  | none => s
  | some i =>
    match i.todo.head? with
    | none => s
    | some c =>
      if s.hubUp && i.running && decide (i.tRun + s.fget SPARE_REPLAY_CTL.TMO 0 * 1000000 ≤ s.time.run) then
        let i := { i with open_ := true }
        (s.endReplay i c).nextReplay (i.todo.length + 1)
      else s

/-- The REPLAY_TMO row. -/
def execReplayTmo (s : State) : Res := .next (replayTmoStep s)

/-! ## Aborting a group (R426, R544, R597 to R602) -/

/-- Whether a write to a binding is rejected (R598, R736). -/
def State.abindBad (s : State) (g v : Nat) : Bool :=
  let c := SPARE_ABIND.CTX.val v
  SPARE_ABIND.VALID.bit v &&
    (!s.fon FAB_MCG.VALID g || decide (s.ctxPart c ≠ s.fget FAB_MCG.PART g) || decide (s.ctxWorld c ≠ s.fget FAB_MCG.WORLD g) ||
     !s.fon SEC_PART.VALID (s.ctxPart c) || !(s.fget SEC_PART.CTXM (s.ctxPart c)).testBit c)

/-- A write to a group's binding. -/
def spareAbindWriteStep (w : Who) (g v : Nat) (s : State) : State :=
  s.when (s.reaches w) fun s => s.regWrite w .SPARE_ABIND g v (fun s => s.abindBad g v) fun s => s.putRW .SPARE_ABIND g v

/-- The SPARE_ABIND_WRITE row. -/
def execSpareAbindWrite (w : Who) (g v : Nat) (s : State) : Res := need (wfGroup g) (spareAbindWriteStep w g v s)

/-- Whether a hub has seen an ABORT: its pair is the last recorded for the group, within 10 ms (R601). -/
def State.seenAbort (s : State) (g origin anum : Nat) : Bool :=
  match tfind s.fab.abortSeen g with
  | some e => decide (e.1 = origin) && decide (e.2.1 = anum) && decide (s.time.now ≤ e.2.2 + 10000000)
  | none => false

/-- Every instance of a group ends, and its COLL command completes with CMD_ABORT (R544). -/
def State.abortInsts (s : State) (g : Nat) : State :=
  (s.coll.insts.filter fun i => decide (i.group = g)).foldl (fun s i =>
    let s := s.endInst i true
    match s.cmdAt i.ring i.seq with
    | some c => s.complete c 0x070C
    | none => s) s

/-- What a member does on an ABORT of its group's partition and world (R544, R602). -/
def State.actAbort (s : State) (g : Nat) (p : Pkt) : State :=
  if PH.PART.of p.hdr = s.fget FAB_MCG.PART g ∧ PH.WORLD.of p.hdr = s.fget FAB_MCG.WORLD g then
    let s := if s.fon SPARE_ABIND.VALID g && s.fon SPARE_ABIND.RX g then s.ctxReset (s.fget SPARE_ABIND.CTX g) 0x070C 0 else s
    s.abortInsts g
  else s

/-- An ABORT arrives, from a port: one not seen before is recorded, sent on twice, and acted on (R426, R601, R602). -/
def abortStep (arr : Nat) (p : Pkt) (s : State) : State :=
  s.when (s.hubUp && s.fon FAB_CTL.EN 0 && decide (PH.TYPE.of p.hdr = tyABORT) && pktSound p) fun s =>
    let g := pktGroup p
    let o := ABP.ORIGIN.of (ofLE p.pay)
    let n := ABP.ANUM.of (ofLE p.pay)
    if !s.fon FAB_MCG.VALID g || s.seenAbort g o n then s
    else ((s.recordAbort g o n).spreadAbort g p (some arr)).actAbort g p

/-- The ABORT row. -/
def execAbort (arr : Nat) (p : Pkt) (s : State) : Res := need (wfPort arr) (abortStep arr p s)

/-! ## The error log's notice (R606) -/

/-- A message held back by the 10 µs spacing falls due: it is sent only while `NOTIFY` is still 1. -/
def elogNotifyStep (s : State) : State :=
  match s.spare.elogT with
  | some t =>
    if s.pwr.on && s.spare.elogOwed && decide (t + 10000 ≤ s.time.now) then
      let s := { s with spare := { s.spare with elogOwed := false } }
      if s.fon SPARE_ELOG_PTR.NOTIFY 0 then { s.msix 0 with spare := { s.spare with elogT := some s.time.now } } else s
    else s
  | none => s

/-- The ELOG_NOTIFY row. -/
def execElogNotify (s : State) : Res := .next (elogNotifyStep s)

/-! ## The crash dump (R609 to R613) -/

/-- The capture in a slot. -/
def State.capture (s : State) (k : Nat) : Option Capture := s.mem.captures.find? fun c => decide (c.slot = k)

/-- Whether an `XGO` is rejected (R613). -/
def State.xgoBad (s : State) (v : Nat) : Bool :=
  let n := SPARE_DUMP.XLEN_M1.val v + 1
  SPARE_DUMP.XGO.bit v &&
    (s.fon SPARE_DUMP.XBUSY 0 || !(s.fget SPARE_DUMP.USED 0).testBit (SPARE_DUMP.XSLOT.val v) ||
     decide (32768 < SPARE_DUMP.XOFF.val v + n) || !s.spanInHost (SPARE_DUMP.XDST.val v <<< 12) (n <<< 12))

/-- A write to one word of `SPARE_DUMP`: freed slots lose their captures, `TAKE` asks for one, `XGO` starts a copy. -/
def spareDumpWrite (w : Who) (k v : Nat) (s : State) : State :=
  s.when (s.reaches w) fun s =>
    let full := s.wordPut .SPARE_DUMP 0 k v
    s.regWrite w .SPARE_DUMP 0 full (fun s => s.xgoBad full) fun s =>
      let s := s.putRW .SPARE_DUMP 0 full
      let used := s.fget SPARE_DUMP.USED 0
      let s := { s with mem := { s.mem with captures := s.mem.captures.filter fun c => used.testBit c.slot } }
      let s := if SPARE_DUMP.TAKE.bit full then s.trigger 0 s.workSites false [] else s
      if SPARE_DUMP.XGO.bit full then { s.fset SPARE_DUMP.XBUSY 0 1 with mem := { s.mem with copyJob := full } } else s

/-- The DUMP_TAKE row: a write with `TAKE` 1. -/
def execDumpTake (w : Who) (v : Nat) (s : State) : Res :=
  .next (s.when (SPARE_DUMP.TAKE.bit v) fun s => spareDumpWrite w 0 v s)

/-- The DUMP_USED_CLEAR row: a write with some bit of `USED` 1. -/
def execDumpUsedClear (w : Who) (v : Nat) (s : State) : Res :=
  .next (s.when (decide (SPARE_DUMP.USED.val v ≠ 0)) fun s => spareDumpWrite w 0 v s)

/-- The DUMP_XGO row: a write with `XGO` 1. -/
def execDumpXgo (w : Who) (v : Nat) (s : State) : Res :=
  .next (s.when (SPARE_DUMP.XGO.bit v) fun s => spareDumpWrite w 0 v s)

/-- A capture is written while the hub runs, or after a trip on a compute die by what still runs on the hub (R708, R822). -/
def State.canCapture (s : State) : Bool := s.hubUp || (s.pwr.on && decide (s.pwr.trip = 1) && !s.held)

/-- A capture has been written, within the throttle: its slot is in use (R610, R807). -/
def captureDoneStep (s : State) : State :=
  match s.mem.capNow with
  | some c =>
    if s.canCapture && s.fon SPARE_DUMP.BUSY 0 then
      let s := s.obsStall ((dumpFrame + 64 * c.slot) * 2 ^ 21) c.bytes.length
      let l := s.mem.captures.filter (fun d => decide (d.slot ≠ c.slot)) ++ [c]
      let used := s.fget SPARE_DUMP.USED 0 ||| 2 ^ c.slot
      ({ s with mem := { s.mem with captures := l, capNow := none } }.fset SPARE_DUMP.USED 0 used).fset SPARE_DUMP.BUSY 0 0
    else s
  | none => s

/-- The CAPTURE_DONE row. -/
def execCaptureDone (s : State) : Res := .next (captureDoneStep s)

/-- The part of a copy that lies in frame j of its slot, bytes `lo` to `lo + n - 1` of the slot going to `dst`. A frame on a fenced stack
serves neither the capture that was written to it nor this read: its part is not copied, and STACK_FENCED is logged (R285, R321, log 86). -/
def State.copyFrame (s : State) (b : List Byte) (slot lo n dst j : Nat) : State :=
  let f := dumpFrame + 64 * slot + j
  let a := max lo (j <<< 21)
  let e := min (lo + n) ((j + 1) <<< 21)
  if s.fon MEM_STK_STATUS.FENCED (stackOf f) then
    s.log { code := 0x0106, data := (dumpFrame + 64 * slot) * 2 ^ 21 + a + stackOf f * 2 ^ 48, kind := 8, unit := stackOf f }
  else
    let x := slice b a (e - a)
    (s.rawWrite ⟨0, 0, none, 7⟩ (dst + (a - lo)) (x ++ zeros (e - a - x.length))).st

/-- A copy ends: the range of the capture, decrypted, stands in the host region under key slot 0; bytes of a slot past its
capture read 0 (R613, log 12). The copy is the one that `XGO` asked for, whatever is written meanwhile. -/
def dumpCopyDoneStep (s : State) : State :=
  s.when (s.hubUp && s.fon SPARE_DUMP.XBUSY 0) fun s =>
    let n := (SPARE_DUMP.XLEN_M1.val s.mem.copyJob + 1) <<< 12
    let lo := SPARE_DUMP.XOFF.val s.mem.copyJob <<< 12
    let slot := SPARE_DUMP.XSLOT.val s.mem.copyJob
    let dst := SPARE_DUMP.XDST.val s.mem.copyJob <<< 12
    let b := match s.capture slot with
      | some c => c.bytes
      | none => []
    let s := ((List.range 64).filter fun j => decide (j <<< 21 < lo + n) && decide (lo < (j + 1) <<< 21)).foldl
      (fun s j => s.copyFrame b slot lo n dst j) s
    (s.fset SPARE_DUMP.XBUSY 0 0).fset SPARE_DUMP.XDONE 0 1

/-- The DUMP_COPY_DONE row. -/
def execDumpCopyDone (s : State) : Res := .next (dumpCopyDoneStep s)

end Sys2Proof.Machine
end

