-- ==== Sys2Proof/Machine/Pair.lean ====
section
/-! DEFINITION. Mirror pairs: roles, the lease, and the resynchronisation of a repaired member (R615 to R634). -/
set_option autoImplicit false
namespace Sys2Proof.Machine

/-! ## Roles and the lease (R619 to R626) -/

/-- The partner's module address. -/
def State.partner (s : State) : Nat := s.fget SPARE_PAIR.PARTNER 0

/-- The module takes a role; a standby begins unarmed unless a RENEW made it one. -/
def State.setRole (s : State) (r : Nat) (armed : Bool) : State :=
  ((s.fset SPARE_PAIR_STATE.ROLE 0 r).fset SPARE_PAIR_STATE.LEASED 0 0).fput SPARE_PAIR_STATE.ARMED 0 armed

/-- The module becomes PRIMARY: its promotion stamp is the count, and nothing is granted yet (R623, R624). -/
def State.becomePrimary (s : State) : State :=
  { s.setRole 1 false with
    spare := { s.spare with promoT := s.count, renewT := s.count, granted := false, leaseEnd := 0, renews := [] } }

/-- `ROLE` for a written `REQ`; the reserved value takes none (R619, R621). -/
def roleOf (req : Nat) : Nat := match req with | 1 => 1 | 2 => 2 | 3 => 4 | _ => 0

/-- Whether a write to `SPARE_PAIR` is rejected: while `VALID` is 1, all but one that only clears it (R620). -/
def State.pairBad (s : State) (v : Nat) : Bool :=
  s.fon SPARE_PAIR.VALID 0 &&
    (SPARE_PAIR.VALID.bit v || decide (SPARE_PAIR.PARTNER.val v ≠ s.partner) ||
     decide (SPARE_PAIR.REQ.val v ≠ s.fget SPARE_PAIR.REQ 0))

/-- A write to `SPARE_PAIR` (R620). -/
def sparePairWriteStep (w : Who) (v : Nat) (s : State) : State :=
  s.when (s.reaches w) fun s => s.regWrite w .SPARE_PAIR 0 v (fun s => s.pairBad v) fun s =>
    let s := s.putRW .SPARE_PAIR 0 v
    if SPARE_PAIR.VALID.bit v then
      match roleOf (SPARE_PAIR.REQ.val v) with
      | 1 => s.becomePrimary
      | r => { s.setRole r false with spare := { s.spare with lastRx := s.count, seen := 0 } }
    else s.setRole 0 false

/-- The SPARE_PAIR_WRITE row. -/
def execSparePairWrite (w : Who) (v : Nat) (s : State) : Res := .next (sparePairWriteStep w v s)

/-- A message of hub firmware to the partner's endpoint 0. -/
def State.toPartner (s : State) (b : List Byte) : State :=
  s.beginHub (mkXfer .hub none 0 s.partner 0 tyMGMT 0 0 0 b.length (.lit b))

/-- A PRIMARY sends a RENEW, 1 ms of machine count after the last: its count, its promotion stamp and a number (R621, R622). -/
def renewSendStep (s : State) : State :=
  s.when (s.hubUp && s.inPair && decide (s.role = 1) && decide (s.spare.renewT + 1000000 ≤ s.count)) fun s =>
    let n := s.spare.renewN
    let b := leBytes 8 s.count ++ leBytes 8 s.spare.promoT ++ leBytes 4 n
    { s with spare := { s.spare with
      renewN := (n + 1) % 2 ^ 32, renewT := s.count, renews := s.spare.renews ++ [(n, s.count)] } }.toPartner b

/-- The RENEW_SEND row. -/
def execRenewSend (s : State) : Res := .next (renewSendStep s)

/-- A GRANT of a RENEW: its count and number (R621). -/
def State.grantTo (s : State) (b : List Byte) : State := s.toPartner (slice b 0 8 ++ slice b 16 4)

/-- A RENEW has been taken: its arrival and its count. -/
def State.heardRenew (s : State) (b : List Byte) : State :=
  { s with spare := { s.spare with lastRx := s.count, seen := leAt b 0 8 } }

/-- A RENEW from the partner (R622, R625). -/
def State.takeRenew (s : State) (b : List Byte) : State :=
  let promo := leAt b 8 8
  match s.role with
  | 1 =>
    if s.spare.promoT < promo ∨ (promo = s.spare.promoT ∧ s.partner < s.self) then ((s.heardRenew b).setRole 2 true).grantTo b
    else { s with spare := { s.spare with seen := leAt b 0 8 } }
  | 2 => ((s.heardRenew b).fset SPARE_PAIR_STATE.ARMED 0 1).grantTo b
  | 3 => ((s.heardRenew b).setRole 2 true).grantTo b
  | _ => s

/-- A whole MGMT message from the partner runs `k`. -/
def State.fromPartner (s : State) (p : Pkt) (k : List Byte → State → State) : State :=
  s.when (decide (PH.TYPE.of p.hdr = tyMGMT)) fun s => s.arriveMsg p fun _ b s =>
    if s.inPair && decide (pktMod p = s.partner) then k b s else s

/-- The RENEW row. -/
def execRenew (p : Pkt) (s : State) : Res := .next (s.fromPartner p fun b s => s.takeRenew b)

/-- A GRANT from the partner: the lease runs to 7 ms after the sending count of the latest RENEW granted (R623). -/
def State.takeGrant (s : State) (b : List Byte) : State :=
  if s.role ≠ 1 then s
  else match s.spare.renews.find? fun e => decide (e.1 = leAt b 8 4) && decide (e.2 = leAt b 0 8) with
    | none => s
    | some e =>
      { s with spare := { s.spare with
        granted := true, leaseEnd := max s.spare.leaseEnd (e.2 + 7000000)
        renews := s.spare.renews.filter fun r => decide (e.2 < r.2) } }.fset SPARE_PAIR_STATE.LEASED 0 1

/-- The GRANT row. -/
def execGrant (p : Pkt) (s : State) : Res := .next (s.fromPartner p fun b s => s.takeGrant b)

/-- `DATA` of the pair's codes: the partner and its last stamp seen (R608). -/
def State.pairData (s : State) : Nat := s.partner + (s.spare.seen <<< 14)

/-- A primary's lease runs out: it becomes LOST (R623). -/
def leaseExpiryStep (s : State) : State :=
  s.when (s.up && decide (s.role = 1) && s.spare.granted && decide (s.spare.leaseEnd ≤ s.count)) fun s =>
    (s.setRole 3 false).log { code := 0x0306, data := s.pairData }

/-- The LEASE_EXPIRY row. -/
def execLeaseExpiry (s : State) : Res := .next (leaseExpiryStep s)

/-- An armed standby has had no RENEW for 3 ms: it becomes PRIMARY (R624). -/
def promotionTimeoutStep (s : State) : State :=
  s.when (s.hubUp && decide (s.role = 2) && s.fon SPARE_PAIR_STATE.ARMED 0 && decide (s.spare.lastRx + 3000000 ≤ s.count)) fun s =>
    (s.becomePrimary.fsat SPARE_PAIR_STATE.PROMO 0 1).log { code := 0x0307, data := s.pairData }

/-- The PROMOTION_TIMEOUT row. -/
def execPromotionTimeout (s : State) : Res := .next (promotionTimeoutStep s)

/-! ## Resynchronisation (R628 to R634) -/

/-- The frames of the list, each once, in list order. -/
def State.listFrames (s : State) : List Nat :=
  ((List.range (s.fget SPARE_RESYNC.NLIST_M1 0 + 1)).flatMap fun j =>
    let a := s.fget SPARE_RSLIST.FIRST j
    (List.range (s.fget SPARE_RSLIST.LAST j + 1 - a)).map (a + ·)).eraseDups

/-- The partition whose rights govern a listed frame: that of the first entry that holds it. -/
def State.listPart (s : State) (f : Nat) : Nat :=
  match (List.range (s.fget SPARE_RESYNC.NLIST_M1 0 + 1)).find? fun j =>
      decide (s.fget SPARE_RSLIST.FIRST j ≤ f) && decide (f ≤ s.fget SPARE_RSLIST.LAST j) with
  | some j => s.fget SPARE_RSLIST.PART j
  | none => 0

/-- Whether a `GO` is rejected: unless the module is PRIMARY or STANDBY and its partner RESYNC (R630), and while a
resynchronisation runs (log 59). -/
def State.resyncBad (s : State) (v : Nat) : Bool :=
  SPARE_RESYNC.GO.bit v &&
    (!(decide (s.role = 1) || decide (s.role = 2)) || decide (s.spare.partnerRole ≠ 4) || s.fon SPARE_RESYNC.BUSY 0)

/-- A copy starts: every listed frame is to be copied (R630). -/
def State.startResync (s : State) : State :=
  let s := (s.fset SPARE_RESYNC.BUSY 0 1).fset SPARE_PAIR_STATE.SRC 0 1
  { s with
    spare := { s.spare with toCopy := s.listFrames, firstPass := true, switching := false, progT := s.time.now }
    mem := { s.mem with dirty := [] } }.setDirty

/-- The final pause begins: launches of every context of a listed partition are held back (R632). -/
def State.startSwitch (s : State) : State :=
  let parts := ((List.range (s.fget SPARE_RESYNC.NLIST_M1 0 + 1)).map fun j => s.fget SPARE_RSLIST.PART j).eraseDups
  { s with spare := { s.spare with switching := true, progT := s.time.now }, cfe := { s.cfe with holdParts := parts } }

/-- A write to `SPARE_RESYNC`; `SWITCH` acts while a resynchronisation runs. -/
def spareResyncWrite (w : Who) (v : Nat) (s : State) : State :=
  s.when (s.reaches w) fun s => s.regWrite w .SPARE_RESYNC 0 v (fun s => s.resyncBad v) fun s =>
    let s := s.putRW .SPARE_RESYNC 0 v
    let s := if SPARE_RESYNC.GO.bit v then s.startResync else s
    if SPARE_RESYNC.SWITCH.bit v && s.fon SPARE_RESYNC.BUSY 0 then s.startSwitch else s

/-- The RESYNC_GO row: a write with `GO` 1, with the partner's role as the two hubs have told each other (R630). -/
def execResyncGo (w : Who) (v prole : Nat) (s : State) : Res :=
  .next (s.when (SPARE_RESYNC.GO.bit v) fun s =>
    spareResyncWrite w v { s with spare := { s.spare with partnerRole := prole } })

/-- The RESYNC_SWITCH row: a write with `SWITCH` 1. -/
def execResyncSwitch (w : Who) (v : Nat) (s : State) : Res :=
  .next (s.when (SPARE_RESYNC.SWITCH.bit v) fun s => spareResyncWrite w v s)

/-- Time that a frame of 2 MiB takes at `RATE` × 25 GB/s; a `RATE` outside 1 to 16 counts as the nearer end (R628, R630, log 59). -/
def State.frameNs (s : State) : Nat := ceilDiv 2097152 (25 * max 1 (min 16 (s.fget SPARE_RESYNC.RATE 0)))

/-- The source sends its next frame: the plaintext, read under its own governing entry with `RD` (R630). -/
def State.sendFrame (s : State) : State :=
  match s.spare.toCopy with
  | [] => s
  | f :: r =>
    let part := s.listPart f
    let world := s.fget SEC_PART.PWORLD part
    match s.checkFrame ⟨part, world, none, 5⟩ MEM_RGN.RD f with
    | 0 =>
      let s := { s with spare := { s.spare with toCopy := r, progT := s.time.now, frameT := s.time.now + s.frameNs } }.setDirty
      s.beginHub (mkXfer .hub none 0 s.partner 0 tyMGMT part world (f <<< 21) 2097152 (.dm part world (f <<< 21)))
    | _ => s.resyncFail

/-- The target writes a frame's bytes under its own governing entry with `WR`; a refusal fails the resynchronisation (R630, R634). -/
def State.writeFrame (s : State) (p : Pkt) : MemRes :=
  let m := s.memWrite (inboundParty p) MEM_RGN.WR (PH.RADDR.of p.hdr) p.pay
  if m.code ≠ 0 then ⟨m.code, [], m.st.resyncFail⟩ else m

/-- A frame is copied: at the source the next one goes out; at the target a packet of one arrives from the partner (R630). -/
def resyncFrameStep (p : Option Pkt) (s : State) : State :=
  match p with
  | none => s.when (s.live && s.fon SPARE_RESYNC.BUSY 0 && decide (s.spare.frameT ≤ s.time.now)) fun s => s.sendFrame
  | some p =>
    s.when (decide (PH.TYPE.of p.hdr = tyMGMT)) fun s => s.arrive p fun t s =>
      s.withMsg p t false (fun _ s => if s.role = 4 ∧ pktMod p = s.partner then s.writeFrame p else ⟨0, [], s⟩) fun _ s => s

/-- The RESYNC_FRAME row. -/
def execResyncFrame (p : Option Pkt) (s : State) : Res := .next (resyncFrameStep p s)

/-- A further pass copies the frames written since they were last copied (R631). -/
def resyncPassStep (s : State) : State :=
  s.when (s.live && s.fon SPARE_RESYNC.BUSY 0 && s.spare.toCopy.isEmpty && !s.mem.dirty.isEmpty) fun s =>
    { s with
      spare := { s.spare with toCopy := s.mem.dirty, firstPass := false, progT := s.time.now }
      mem := { s.mem with dirty := [] } }.setDirty

/-- The RESYNC_PASS row. -/
def execResyncPass (s : State) : Res := .next (resyncPassStep s)

/-- Stream entries as they travel to the target, in a form of the model's own (log 60): source entries are endpoint, destination
module and endpoint, next number and next message; destination entries are the key, the base and the bitmap. -/
def State.streamCopy (s : State) : List Byte :=
  let src := s.fab.sstr.flatMap fun t => leBytes 1 t.ep ++ leBytes 2 t.dmod ++ leBytes 1 t.dep ++ leBytes 4 t.next ++ leBytes 2 t.msg
  let dst := (s.fab.dstr.filter fun t => s.cfe.holdParts.contains (s.fget FAB_EP.PART t.dep)).flatMap fun t =>
    leBytes 2 t.smod ++ leBytes 1 t.sep ++ leBytes 1 t.dep ++ leBytes 4 t.base ++ leBytes 32 t.bits
  leBytes 4 s.fab.sstr.length ++ src ++ dst

/-- Whether the source's pause has done its work: no launched command of a held partition, and no frame left to copy (R632). -/
def State.switchReady (s : State) : Bool :=
  s.spare.switching && s.spare.toCopy.isEmpty && s.mem.dirty.isEmpty && !s.fab.xfers.any (·.isFrame) &&
  !s.cfe.cmds.any fun c => c.launched && s.cfe.holdParts.contains (s.ctxPart (ringCtx c.ring))

/-- The entries that the target receives take the place of its own. -/
def State.takeStreams (s : State) (src dst : List (List Nat)) : State :=
  let now := s.time.now
  let so (l : List Nat) : SStream := ⟨l.getD 0 0, l.getD 1 0, l.getD 2 0, l.getD 3 0, l.getD 4 0, false, now, []⟩
  let d (l : List Nat) : DStream := ⟨l.getD 0 0, l.getD 1 0, l.getD 2 0, l.getD 3 0, l.getD 4 0, [], [], now⟩
  { s with fab := { s.fab with sstr := src.map so, dstr := (s.fab.dstr.filter fun t => decide (t.dep = 0)) ++ dst.map d } }

/-- The resynchronisation is complete: the source sends its stream entries, sets `DONE` and releases its launches; the target,
given the entries, becomes STANDBY, unarmed (R632). -/
def resyncSwitchDoneStep (st : Option (List (List Nat) × List (List Nat))) (s : State) : State :=
  match st with
  | none =>
    s.when (s.live && s.switchReady) fun s =>
      let s := s.toPartner s.streamCopy
      let s := ((s.fset SPARE_RESYNC.DONE 0 1).fset SPARE_RESYNC.BUSY 0 0).fset SPARE_PAIR_STATE.SRC 0 0
      { s with spare := { s.spare with switching := false, partnerRole := 2 }, cfe := { s.cfe with holdParts := [] } }
  | some e =>
    s.when (s.hubUp && decide (s.role = 4)) fun s =>
      let s := (s.takeStreams e.1 e.2).setRole 2 false
      { s with spare := { s.spare with lastRx := s.count } }

/-- The RESYNC_SWITCH_DONE row. -/
def execResyncSwitchDone (st : Option (List (List Nat) × List (List Nat))) (s : State) : Res :=
  .next (resyncSwitchDoneStep st s)

/-- The target has left the fabric, or the copy has made no progress for 100 ms (R634). -/
def resyncFailStep (lost : Bool) (s : State) : State :=
  s.when (s.hubUp && (s.fon SPARE_RESYNC.BUSY 0 || decide (s.role = 4)) &&
      (lost || (s.fon SPARE_RESYNC.BUSY 0 && decide (s.spare.progT + 100000000 ≤ s.time.now)))) fun s => s.resyncFail

/-- The RESYNC_FAIL row. -/
def execResyncFail (lost : Bool) (s : State) : Res := .next (resyncFailStep lost s)

end Sys2Proof.Machine
end

