-- ==== Sys2Proof/Machine/Boot.lean ====
section
/-! DEFINITION. Power-good, bring-up step by step, the staging window and the calibration area, warm reset and PS4 (R4 to R6, R158 to
R162, R323, R326, R636 to R670, R719, R755 to R758, R844 to R847, R855). -/
set_option autoImplicit false
namespace Sys2Proof.Machine

/-! ## Power (R643, R844 to R847) -/

/-- What the fuses show: lifecycle, owner binding, security versions and epochs left (R758, R767, R778). -/
def State.showFuses (s : State) : State :=
  let f := s.fuse
  let s := (((s.fset SEC_LIFE.LCS_NEXT 0 f.lcs).fput SEC_LIFE.OWNER_BOUND 0 f.ohash.isSome).fset SEC_OWNER.OHASH 0
    (f.ohash.getD 0)).fset SEC_SVN.SVN 0 f.svn
  s.fset SEC_ID_STAT.EPOCH_LEFT 0 (32768 - f.epochs)

/-- A fresh nonce (R760). -/
def State.newNonce (s : State) : State := (s.fset SEC_NONCE.NONCE 0 (ofLE (s.secret 8))).drew

/-- EN and VIN have both been high for 20 ms: the power stage starts, at least 100 ms after the rails last went off (R844, R847). -/
def execEnRise (s : State) : Res :=
  .next (s.when (!s.pwr.on && !s.pwr.starting &&
    (match s.pwr.offT with | some t => decide (t + 100000000 ≤ s.time.now) | none => true)) fun s =>
    { s with pwr := { s.pwr with en := true, starting := true } })

/-- EN falls: dark, with no last gasp and no log entry (R845, R846). -/
def execEnFall (s : State) : Res :=
  .next (if s.pwr.on || s.pwr.starting then { s with pwr := { s.pwr with en := false } }.dark.railsOff
    else { s with pwr := { s.pwr with en := false } })

/-- A step ends with a result and its code (R637, R645). -/
def State.endStep (s : State) (result code : Nat) : State :=
  let s := s.fset GCTL_BOOT_STAT.RESULT 0 result
  let s := if result = 1 then s else s.fset GCTL_BOOT_STAT.CODE 0 code
  if result = 3 then s
  else s.fset GCTL_BOOT_STAT.PASSED 0 (s.fget GCTL_BOOT_STAT.PASSED 0 ||| 2 ^ s.fget GCTL_BOOT_STAT.STEP 0)

/-- POWER ends: a grade strap fault fails it (R5, R645). -/
def State.endPower (s : State) : State :=
  if s.fget GCTL_PART_ID.GRADE 0 = 15 then s.endStep 3 0x0610 else s.endStep 1 0

/-- A UCIe module is out: fenced, and the link carries on without it (R326). -/
def State.ucieOut (s : State) (m origin : Nat) : State :=
  if s.cfe.ucie.testBit m then
    { s with cfe := { s.cfe with ucie := s.cfe.ucie - 2 ^ m } }.recordFence 10 origin m
  else s

/-- Power-good: straps are sampled, the machine count starts from 0, the fuses are read and POWER ends; `ucie` names the UCIe
modules that trained (R4, R61, R326, R643, R768, R855). -/
def powerGoodStep (grade tray slot ucie : Nat) (s : State) : State :=
  s.when (s.pwr.starting && !s.pwr.on) fun s =>
    let s := { s with pwr := { s.pwr with starting := false, on := true, hbT := s.time.now, onT := s.time.now } }
    let s := ((s.fset GCTL_PART_ID.GRADE 0 grade).fset FAB_CTL.TRAY 0 tray).fset FAB_CTL.SLOT 0 slot
    let s := ((s.fset SEC_LIFE.LCS 0 s.fuse.lcs).showFuses).newNonce
    let s := ((List.range 11).foldl (fun s r => s.fset PWR_RAIL.PH_IN r (phasesAll r)) s)
    let s := (List.range 4).foldl (fun s m => if ucie.testBit m then s else s.ucieOut m 1) s
    s.endPower

/-- The POWER_GOOD row. -/
def execPowerGood (grade tray slot ucie : Nat) (s : State) : Res := .next (powerGoodStep grade tray slot ucie s)

/-- A UCIe module fails in service (R326). -/
def execUcieModuleFail (m : Nat) (s : State) : Res :=
  need (decide (m < 4)) (s.when s.pwr.on fun s => s.ucieOut m 2)

/-! ## Warm reset and PS4 (R323, R667 to R669, R719, R872) -/

/-- A register entry after a warm reset (R16): none when it takes its power-up value. Where the field's Warm reset column shows "U"
(`GCTL_BOOT_CTL.ARG`, `FAB_PAIR.PARTNER`, `GCTL_SEQTAB.BASE` and `N_M1`, and others) the spec leaves the value open and the model's choice
is 0 (DESIGN CHOICE, log 2). -/
def warmEntry (e : Nat × Nat) : Option (Nat × Nat) :=
  match Reg.all.find? fun r => decide (r.code = e.1 / 67108864) with
  | none => none
  | some r =>
    match r.fields.find? fun f => decide (f.lsb = e.1 % 1024) with
    | none => none
    | some f =>
      match f.warm with
      | .keep => some e
      | .val v => if v = f.up then none else some (e.1, v)

/-- Fields whose warm-reset value is not their power-up value. -/
def warmNew : List (Fld × Nat) :=
  Reg.all.flatMap fun r => r.fields.filterMap fun f =>
    match f.warm with | .val v => if v = f.up then none else some (f, v) | .keep => none

/-- The registers after a warm reset. -/
def State.warmRegs (s : State) : State :=
  warmNew.foldl (fun s e => (List.range e.1.reg.pos.count).foldl (fun s i => s.fset e.1 i e.2) s)
    { s with regs := s.regs.filterMap warmEntry }

/-- Everything that a warm reset does not keep is lost; PS4 also loses device memory with the dump key (R323, R667). -/
def State.loseWork (s : State) (ps4 : Bool) : State :=
  let held := !(decide (s.fget SEC_FWU_STAT.STATE 0 = 5))
  let late := (s.spare.fencing.filter fun f => !f.drain).map fun f => (f.site, f.origin)
  let kept : Table Nat := if ps4 then [] else s.mem.keyGen.filter fun e => decide (e.1 = dumpKeySlot)
  let caps := if ps4 then [] else s.mem.captures
  let lanes : Table LanePort := s.lane.map fun e => (e.1, { LanePort.fresh with ret := e.2.ret })
  let boot : BootSt := { s.boot with staging := [], selfFenced := [], unfinished := s.boot.unfinished ++ late }
  let pwr : PwrSt := { s.pwr with
    trip := 0, vs := [8, 8, 8, 8], lowering := [false, false, false, false], gated := [false, false, false, false],
    settling := false, lehrWant := 0, capGated := [false, false, false, false], capStep := [15, 15, 15, 15] }
  let s0 := (s.note 0 0).warmRegs
  let s0 := { s0 with
    time := { now := s.time.now, run := s.time.run, thaw := s.time.thaw, exNum := s.time.exNum }
    cfe := { ucie := s.cfe.ucie }
    mem := { gens := s.mem.gens, keyGen := kept, remaps := s.mem.remaps, captures := caps }
    core := { rowCe := s.core.rowCe, rowUsed := s.core.rowUsed }
    fab := {}
    att := {}
    coll := {}
    obs := {}
    spare := { fenced := s.spare.fenced, baseline := s.spare.baseline, fullLogged := s.spare.fullLogged }
    boot := boot
    pwr := pwr
    mgmt := { s.mgmt with hostHold := 0, fwBuf := [], disT := [] }
    lane := lanes
    sec := {}
    fw := {} }
  let s0 := if held then s0 else s0.fset SEC_FWU_STAT.STATE 0 5
  (List.range 22).foldl (fun s p => s.fput FAB_PORT.DOWN_REQ p (!(s.fget GCTL_MGMT.SERVE 0).testBit p)) s0.showFuses.newNonce

/-- The first precondition of the fast path that fails, or 0 (R668). -/
def State.slowWhy (s : State) (out : Bool) : Nat :=
  if !s.boot.readySince then 1
  else if s.fon GCTL_BOOT_STAT.SAFE_MODE 0 then 2
  else if out then 3
  else if s.boot.tripSince then 4
  else 0

/-- POWER starts again, with `WARM` 1 and `FAST` as its preconditions have it; a timing root is LOCKED at once (R667, R668, R872). -/
def State.startPower (s : State) (why : Nat) : State :=
  let s := (s.fset GCTL_BOOT_STAT.WARM 0 1).fput GCTL_BOOT_STAT.FAST 0 (decide (why = 0))
  let s := if why = 0 then s else s.log { code := 0x061A, data := why }
  if s.fon TIME_CTL.ROOT 0 then s.rootLock else s

/-- A warm reset (R667). -/
def State.warmReset (s : State) : State :=
  let why := s.slowWhy (s.fon SPARE_ESC.WITHDRAWN 0)
  (s.loseWork false).startPower why

/-- Entry to PS4: work ends as on `WRESET`, and every rail but VAON goes off (R323, R716, R719). -/
def State.enterPs4 (s : State) : State :=
  let out := s.fon SPARE_ESC.WITHDRAWN 0
  let s := s.loseWork true
  let s := { s with boot := { s.boot with wasOut := out } }.fset PWR_PSTATE.STATE 0 4
  (List.range 10).foldl (fun s r => s.note 2 r) ((s.note 1 0).note 6 0)

/-- The exit from PS4: the rails come on, and the warm sequence runs (R668, R719). -/
def State.leavePs4 (s : State) : State :=
  let s := (List.range 10).foldl (fun s r => s.note 3 r) s
  (s.fset PWR_PSTATE.STATE 0 0).startPower (s.slowWhy s.boot.wasOut)

/-- A write to `PWR_PSTATE`: `PS4_REQ` is rejected while a launched command is not complete; a floor out of range is rejected
(R719, R720). -/
def pstateWrite (w : Who) (v : Nat) (s : State) : State :=
  s.when (s.reaches w) fun s =>
    s.regWrite w .PWR_PSTATE 0 v
      (fun s => (PWR_PSTATE.PS4_REQ.bit v && s.anyLaunched) || decide (PWR_PSTATE.LEHR_FLOOR.val v < 20) ||
        decide (70 < PWR_PSTATE.LEHR_FLOOR.val v))
      fun s =>
        let s := (s.putRW .PWR_PSTATE 0 v).lehr
        if PWR_PSTATE.PS4_REQ.bit v then s.enterPs4 else s

/-- The PS4_REQ row: a write with `PS4_REQ` 1. -/
def execPs4Req (w : Who) (v : Nat) (s : State) : Res :=
  .next (s.when (PWR_PSTATE.PS4_REQ.bit v) fun s => pstateWrite w v s)

/-! ## GCTL_BOOT_CTL (R636 to R640) -/

/-- A step has ended PASS or DEGRADED. -/
def State.passed (s : State) (k : Nat) : Bool := (s.fget GCTL_BOOT_STAT.PASSED 0).testBit k

/-- Whether a step's condition holds (R639). -/
def State.stepReady (s : State) (k : Nat) : Bool :=
  match k with
  | 2 => s.passed 1
  | 3 => s.passed 2
  | 4 => s.passed 3
  | 8 => s.passed 4 && !s.fon MEM_TRAIN.BUSY 0 && decide (s.fget MEM_TRAIN.DONE 0 = 4095)
  | 9 => s.passed 8
  | 10 => s.passed 9 || (s.passed 8 && s.fon GCTL_BOOT_STAT.FAST 0)
  | 11 => s.passed 10
  | _ => false

/-- Whether a `GO` is rejected (R639). -/
def State.bootBad (s : State) (v : Nat) : Bool :=
  let k := GCTL_BOOT_CTL.STEP.val v
  GCTL_BOOT_CTL.GO.bit v && !GCTL_BOOT_CTL.WRESET.bit v &&
    (decide (s.fget GCTL_BOOT_STAT.RESULT 0 = 0) || s.passed k || !s.stepReady k)

/-- An accepted write: a warm reset, or a step started. -/
def bootEff (v : Nat) (s : State) : State :=
  let s := s.putRW .GCTL_BOOT_CTL 0 v
  if GCTL_BOOT_CTL.WRESET.bit v then s.warmReset
  else if GCTL_BOOT_CTL.GO.bit v then
    let s := (s.fset GCTL_BOOT_STAT.STEP 0 (GCTL_BOOT_CTL.STEP.val v)).fset GCTL_BOOT_STAT.RESULT 0 0
    { s with boot := { s.boot with
      stepArg := GCTL_BOOT_CTL.ARG.val v, stepSafe := GCTL_BOOT_CTL.SAFE.bit v, stepFull := GCTL_BOOT_CTL.FULL_ST.bit v } }
  else s

/-- A write to `GCTL_BOOT_CTL`; a rejected `GO` is logged (R639). -/
def bootCtlWrite (w : Who) (v : Nat) (s : State) : State :=
  s.when (s.reaches w) fun s =>
    s.regWriteOr w .GCTL_BOOT_CTL 0 v (fun s => s.bootBad v) (fun s => s.logC 0x0619) (bootEff v)

/-- A write with `GO` 1 and a step. -/
def goStep (k : Nat) (w : Who) (v : Nat) (s : State) : State :=
  s.when (GCTL_BOOT_CTL.GO.bit v && decide (GCTL_BOOT_CTL.STEP.val v = k)) fun s => bootCtlWrite w v s

/-- The SECFW row. -/
def execSecfw (w : Who) (v : Nat) (s : State) : Res := .next (goStep 2 w v s)

/-- The IDENTITY row. -/
def execIdentity (w : Who) (v : Nat) (s : State) : Res := .next (goStep 3 w v s)

/-- The RECORD row. -/
def execRecord (w : Who) (v : Nat) (s : State) : Res := .next (goStep 4 w v s)

/-- The RECORD_SAFE row: RECORD with `SAFE` 1. -/
def execRecordSafe (w : Who) (v : Nat) (s : State) : Res :=
  .next (s.when (GCTL_BOOT_CTL.SAFE.bit v) fun s => goStep 4 w v s)

/-- The GATHER row. -/
def execGather (w : Who) (v : Nat) (s : State) : Res := .next (goStep 8 w v s)

/-- The SELFTEST row. -/
def execSelftest (w : Who) (v : Nat) (s : State) : Res := .next (goStep 9 w v s)

/-- The CULLET row. -/
def execCullet (w : Who) (v : Nat) (s : State) : Res := .next (goStep 10 w v s)

/-- The READY row. -/
def execReady (w : Who) (v : Nat) (s : State) : Res := .next (goStep 11 w v s)

/-- The WRESET row: a write with `WRESET` 1. -/
def execWreset (w : Who) (v : Nat) (s : State) : Res :=
  .next (s.when (GCTL_BOOT_CTL.WRESET.bit v) fun s => bootCtlWrite w v s)

/-! ## SECFW and IDENTITY -/

/-- The bytes staged: the first `ARG`, at most the window (R646); they stay in the window (log 90). -/
def State.stagedBytes (s : State) : List Byte := cellsRead s.boot.staging 0 (min s.boot.stepArg 4194304)

/-- SECFW ends: the bundle is checked, its firmware runs, and key slot 0 and, when it holds none, the dump key are loaded (R645, R744,
R768, R789). -/
def State.endSecfw (s : State) : State :=
  if s.fget SEC_LIFE.LCS 0 = 4 then (s.logC 0x050B).endStep 3 0x0611
  else if s.fget SEC_FWU_STAT.STATE 0 = 5 then s.endStep 3 0x0607
  else
    let b := s.stagedBytes
    if s.bundleCode b true ≠ 0 then s.endStep 3 0x0611
    else
      let s := { s with
        fw := { s.fw with manifest := manifestBytes b }, mgmt := { s.mgmt with run := true } }.putEntries (manifestEntries b)
      let s := (s.fset SEC_LIFE.TRNG_OK 0 1).loadKey 0
      (if tget s.mem.keyGen dumpKeySlot 0 = 0 then s.loadKey dumpKeySlot else s).endStep 1 0

/-- The serial number: the leftmost 64 bits of the identity key's SHA-256 (R6). -/
def serialOf (key : List Byte) : Nat := beAt (sha256 key) 0 8

/-- IDENTITY ends: a session kept through a warm reset goes on; otherwise the next epochs are burned until one verifies, or none is
left (R645, R669, R755, R757, R758). -/
def State.endIdentity (s : State) (burns : Nat) : State :=
  if s.fget SEC_ID_STAT.STATE 0 = 1 then s.endStep 1 0
  else
    let s := s.fset GCTL_SERIAL.SERIAL 0 (serialOf idKey)
    let e := s.fuse.epochs + burns
    if 32768 ≤ e then
      let s := { s with fuse := { s.fuse with epochs := 32768 } }
      (((s.fset SEC_ID_STAT.STATE 0 2).fset SEC_ID_STAT.EPOCH_LEFT 0 0).logC 0x0501).endStep 2 0x0501
    else
      let s := { s with fuse := { s.fuse with epochs := e + 1 } }
      ((((s.fset SEC_ID_STAT.STATE 0 1).fset SEC_ID_STAT.EPOCH 0 e).fset SEC_ID_STAT.EPOCH_LEFT 0 (32767 - e)).fset
        SEC_ID_STAT.SIGS_LEFT 0 1048576).endStep 1 0

/-! ## RECORD (R650 to R653, R657, R669) -/

/-- A directory entry: type, offset and length; reserved bits make type 0 (R651). -/
structure Sect where
  typ : Nat
  off : Nat
  len : Nat
  deriving DecidableEq, Repr

/-- The directory of a Part Record. -/
def recordDir (b : List Byte) : List Sect :=
  (List.range (PRH.NSEC.of (ofLE (b.take 64)))).map fun i =>
    let e := ofLE (slice b (64 + 16 * i) 16)
    ⟨if bitsOf e 16 16 = 0 ∧ bitsOf e 96 32 = 0 then bitsOf e 0 16 else 0, bitsOf e 32 32, bitsOf e 64 32⟩

/-- A section by type. -/
def sectOf (d : List Sect) (t : Nat) : Sect := (d.find? fun x => decide (x.typ = t)).getD ⟨0, 0, 0⟩

/-- The entries of a section that begins with their count. -/
def countedEntries (b : List Byte) (x : Sect) : List Nat :=
  let n := leAt b x.off 8
  if x.len = 8 + 8 * n then (List.range n).map fun i => leAt b (x.off + 8 + 8 * i) 8 else []

/-- Whether two sections lie apart. -/
def apart (x y : Sect) : Bool := decide (x.off + x.len ≤ y.off) || decide (y.off + y.len ≤ x.off)

/-- Whether no two of some sections overlap. -/
def allApart : List Sect → Bool
  | [] => true
  | x :: r => r.all (apart x) && allApart r

/-- The rest of R652: format, reserved bits, directory, lengths, places and defect kinds; every bit that R651 gives as 0 counts as
reserved (DEDUCED, log 90). -/
def recordFormOk (b : List Byte) : Bool :=
  let h := ofLE (b.take 64)
  let d := recordDir b
  let len := PRH.LEN.of h
  decide (PRH.MAGIC.of h = 0x4E4C5052) && decide (PRH.FMT.of h = 1) && decide (h &&& PRH.reserved = 0) &&
  decide (7 ≤ PRH.NSEC.of h) && decide (PRH.NSEC.of h ≤ 32) &&
  [1, 2, 3, 4, 5, 6, 7].all (fun t => decide ((d.filter fun x => decide (x.typ = t)).length = 1)) &&
  d.all (fun x => decide (1 ≤ x.typ) && decide (x.typ ≤ 7) && decide (64 + 16 * d.length ≤ x.off) &&
    decide (x.off + x.len ≤ len)) &&
  ([1, 2, 3, 4, 5].zip calSections).all (fun e => decide ((sectOf d e.1).len = e.2.2)) && allApart d &&
  [6, 7].all (fun t => decide ((sectOf d t).len = 8 + 8 * leAt b (sectOf d t).off 8)) &&
  (countedEntries b (sectOf d 6)).all (fun e => decide (1 ≤ bitsOf e 0 4) && decide (bitsOf e 0 4 ≤ 10) &&
    decide (bitsOf e 4 4 = 0) && decide (bitsOf e 40 24 = 0)) &&
  (countedEntries b (sectOf d 7)).all (fun e => decide (e < 2 ^ 30)) &&
  (List.range 110).all (fun i => decide (leAt b ((sectOf d 3).off + 16 * i + 7) 9 = 0))

/-- The code of the first check that a Part Record fails, or 0 (R645, R652). -/
def State.recordCode (s : State) (b : List Byte) : Nat :=
  let h := ofLE (b.take 64)
  let len := PRH.LEN.of h
  if b.length < len ∨ hssSigned Config.recordKey (b.take len) (b.drop len) = none then 0x0612
  else if PRH.SERIAL.of h ≠ s.fget GCTL_SERIAL.SERIAL 0 ∨ PRH.SIZE.of h ≠ s.fget GCTL_PART_ID.SIZE 0 ∨
      PRH.GRADE.of h ≠ s.fget GCTL_PART_ID.GRADE 0 ∨ PRH.STEP_NUM.of h ≠ s.fget GCTL_PART_ID.STEP_NUM 0 ∨
      PRH.STEP_LTR.of h ≠ s.fget GCTL_PART_ID.STEP_LTR 0 then 0x0613
  else if recordFormOk b then 0 else 0x0614

/-- A site is out of service from the factory: it takes no part in Gather and self-test (R653). -/
def State.siteOut (s : State) (site : Nat) : State := if s.spare.fenced.contains site then s else s.gateSite site

/-- The nine sites of a physical cluster. -/
def clusterSites (die pc : Nat) : List Nat := (List.range 9).map (siteAt die pc)

/-- A stack substitutes a pseudo-channel without copying, or is fenced when it has no substitution left (R315, R653). -/
def State.pcOut (s : State) (k : Nat) : State :=
  if s.fget MEM_STK_STATUS.SPC_USED k < 3 then s.fsat MEM_STK_STATUS.SPC_USED k 1 else s.fset MEM_STK_STATUS.FENCED k 1

/-- A DEFECT_MAP entry applied to its unit (R653); the Cullet list takes it at CULLET (R665). -/
def State.applyDefect (s : State) (e : Nat) : State :=
  let u := bitsOf e 8 32
  match bitsOf e 0 4 with
  | 1 => match unitSite u with | some k => s.siteOut k | none => s
  | 2 => (clusterSites (bitsOf u 0 2) (bitsOf u 2 6)).foldl State.siteOut s
  | 3 => match unitSite (u % 4096) with
    | some k =>
      let b := bankKey k (unitRow u).2
      { s with core := { s.core with rowUsed := tset s.core.rowUsed b (tget s.core.rowUsed b 0 + 1) 0 } }
    | none => s
  | 4 => if bitsOf u 0 5 < 22 ∧ bitsOf u 5 3 < 5 then s.fset LANE_MON.FAILED (laneIx (bitsOf u 0 5) (bitsOf u 5 3)) 1 else s
  | 5 => if isG (bitsOf u 0 5) = true ∧ s.fget LANE_PSTAT.SLASER (bitsOf u 0 5) = 7 then
      s.fset LANE_PSTAT.SLASER (bitsOf u 0 5) (bitsOf u 5 3) else s
  | 6 => if bitsOf u 0 4 ≤ 10 then s.phaseOut (bitsOf u 0 4) else s
  | 8 => if bitsOf u 0 4 < 12 then s.fset MEM_STK_STATUS.FENCED (bitsOf u 0 4) 1 else s
  | 9 => if bitsOf u 0 4 < 12 then s.pcOut (bitsOf u 0 4) else s
  | 10 => { s with cfe := { s.cfe with ucie := s.cfe.ucie &&& (15 - 2 ^ bitsOf u 0 2) } }
  | _ => s

/-- The calibration sections copied from a Part Record (R649, R653). -/
def calOf (b : List Byte) : List Host.Cell :=
  let d := recordDir b
  ([1, 2, 3, 4, 5].zip calSections).foldl (fun m e => cellsWrite m e.2.1 (slice b (sectOf d e.1).off e.2.2)) []

/-- RECORD ends: kept from earlier in the power session, safe mode, or the record's own checks and effects (R645, R652, R653, R657,
R669). -/
def State.endRecord (s : State) : State :=
  if s.boot.recorded then s.endStep 1 0
  else if s.boot.stepSafe then
    ({ s with boot := { s.boot with recorded := true, prHash := zeros 32 } }.fset GCTL_BOOT_STAT.SAFE_MODE 0 1).endStep 1 0
  else
    let b := s.stagedBytes
    match s.recordCode b with
    | 0 =>
      let ds := countedEntries b (sectOf (recordDir b) 6)
      let s := { s with boot := { s.boot with recorded := true, prHash := sha256 b, defects := ds, cal := calOf b } }
      (ds.foldl State.applyDefect ((s.fset CAL_STAT.ORIGIN 0 1).fset CAL_STAT.OPEN 0 1)).endStep 1 0
    | c => s.endStep 3 c

/-! ## GATHER and SELFTEST (R659 to R664) -/

/-- A site is fenced during bring-up: recorded now, or at CULLET when a mapping stands (R661, R664 to R666). -/
def State.bootFence (s : State) (code site : Nat) : State :=
  if s.spare.fenced.contains site then s
  else
    let s := (s.gateSite site).log { code := code, kind := 1, unit := siteUnit site }
    if s.boot.mapped then { s with boot := { s.boot with selfFenced := s.boot.selfFenced ++ [site] } }
    else s.recordFence 1 1 (siteUnit site)

/-- The microcode image that GATHER reads, decrypted: in the host region, at most 128 blocks, and as the manifest has it (R645,
R659); `ARG` is taken at the 4 KiB below it (log 90). -/
def State.gatherImage (s : State) : Option (List Byte) :=
  let e := s.fwEntry 4
  let n := MFE.LEN.of e
  let a := bitsOf s.boot.stepArg 0 48 / 4096 * 4096
  if n = 0 ∨ 1048576 < n ∨ s.spanInHost a n = false then none
  else
    let m := s.rawRead ⟨0, 1, none, 7⟩ a n
    if m.code = 0 ∧ imageOpens (MFH.SALT.of (ofLE (s.fw.manifest.take 128))) e m.bytes = true then
      some (imagePlain (MFH.SALT.of (ofLE (s.fw.manifest.take 128))) e m.bytes) else none

/-- GATHER ends: each site keeps the blocks that its copies bring whole, and those still incomplete are fenced (R645, R660 to R662). -/
def State.endGather (s : State) (o : BootIn) : State :=
  match s.gatherImage with
  | none => s.endStep 3 0x0617
  | some img =>
    let s := s.deliver img o.copies
    let bad := (incomplete img o.copies).filter fun k => decide (k < 2304) && !s.spare.fenced.contains k
    let s := bad.foldl (State.bootFence · 0x0616) s
    let s := (s.fset GCTL_RCLASS.MCODE 0 (MFE.MCODE_REV.of (s.fwEntry 4))).fset GCTL_RCLASS.VALID 0 1
    if bad.isEmpty then s.endStep 1 0 else s.endStep 2 0x0616

/-- A core-store row fails self-test: repaired while its bank has a redundant row, else its site is fenced (R664). -/
def State.testRow (s : State) (e : Nat × Nat) : State :=
  if tget s.core.rowUsed (bankKey e.1 e.2) 0 < spareRows then s.repairRow e.1 e.2 1 else s.bootFence 0x0618 e.1

/-- SELFTEST ends: a full one, always so in safe mode, also reads every delay and checks that spares wake (R645, R657, R663, R664). -/
def State.endSelftest (s : State) (o : BootIn) : State :=
  let live (k : Nat) : Bool := decide (k < 2304) && !s.spare.fenced.contains k
  let full := s.boot.stepFull || s.fon GCTL_BOOT_STAT.SAFE_MODE 0
  let before := s.spare.fenced.length
  let s := if full then (o.delays.filter fun e => live e.1).foldl (fun s e => s.wearRead e.1 e.2.1 e.2.2) s else s
  let s := (o.rows.filter fun e => live e.1).foldl State.testRow s
  let s := ((o.sites ++ if full then o.wakes else []).filter live).foldl (State.bootFence · 0x0618) s
  if s.spare.fenced.length = before then s.endStep 1 0 else s.endStep 2 0x0618

/-! ## CULLET (R158 to R162, R658, R665, R666) -/

/-- Whether a physical cluster is wholly fenced (R158). -/
def State.wholeOut (s : State) (die pc : Nat) : Bool :=
  s.inCullet 2 (die + (pc <<< 2)) || (clusterSites die pc).all s.spare.fenced.contains

/-- Fenced sites of a physical cluster. -/
def State.outCount (s : State) (die pc : Nat) : Nat := ((clusterSites die pc).filter s.spare.fenced.contains).length

/-- Of some clusters the one with most fenced sites, ties to the higher number (R658). -/
def State.worst (s : State) (die : Nat) (l : List Nat) : Nat :=
  l.foldl (fun b c => if s.outCount die b ≤ s.outCount die c then c else b) (l.headD 0)

/-- So many clusters, worst first. -/
def State.worstOf (s : State) (die : Nat) : Nat → List Nat → List Nat
  | 0, _ => []
  | n + 1, l =>
    let c := s.worst die l
    c :: s.worstOf die n (l.filter (· ≠ c))

/-- The 8 clusters of a die to fence in grade B safe mode, ascending (R658). -/
def State.safeClusters (s : State) (die : Nat) : List Nat :=
  let w := s.worstOf die 8 (List.range 64)
  (List.range 64).filter w.contains

/-- The factory part of the Cullet list: the DEFECT_MAP in record order, or the clusters of grade B safe mode, taken out of service
(R658, R665). -/
def State.culletSeed (s : State) : State :=
  if s.fon GCTL_BOOT_STAT.SAFE_MODE 0 && decide (s.fget GCTL_PART_ID.GRADE 0 = 2) then
    [0, 1, 2, 3].foldl (fun s d => (s.safeClusters d).foldl (fun s c =>
      (clusterSites d c).foldl State.siteOut (s.culletPut 2 0 (d + (c <<< 2)) 0)) s) s
  else s.boot.defects.foldl (fun s e => s.culletPut (bitsOf e 0 4) 0 (bitsOf e 8 32) 0) s

/-- The member fields of a logical cluster from the sites in service, the next of them its spare (R160). -/
def State.mapCluster (s : State) (cl die pc : Nat) : State :=
  let good := (List.range 9).filter fun k => !s.spare.fenced.contains (siteAt die pc k)
  let s := (List.range 8).foldl (fun s m => s.fset (memberFld m) cl (good.getD m 15)) s
  let s := ((s.fset SPARE_CMAP.SPARE_POS cl (good.getD 8 15)).fset SPARE_CMAP.PCLUST cl pc).fset SPARE_CMAP.VALID cl 1
  (List.range 9).foldl (fun s k => s.fset SPARE_WEAR.USE (siteAt die pc k)
    (if !good.contains k then 2 else if good.getD 8 15 = k then 1 else 0)) s

/-- The mapping of a die: logical clusters in order onto the physical ones not wholly fenced, the rest absent (R158, R159). -/
def State.mapDie (s : State) (die : Nat) : State :=
  let good := (List.range 64).filter fun c => !s.wholeOut die c
  let s := (List.range 64).foldl (fun s c => (clusterSites die c).foldl (fun s k =>
    if s.spare.fenced.contains k then s.fset SPARE_WEAR.USE k 2 else s) s) s
  (List.range 64).foldl (fun s c =>
    let cl := 64 * die + c
    match good[c]? with
    | some pc => s.mapCluster cl die pc
    | none => (s.fset SPARE_CMAP.ABSENT cl 1).fset SPARE_CMAP.VALID cl 1) s

/-- A cold CULLET: the list, then the mapping (R665). -/
def State.culletCold (s : State) : State :=
  let s := s.culletSeed
  let l := s.boot.pendList
  let s := { s with boot := { s.boot with pendList := [], mapped := true } }
  let s := l.foldl (fun s e => s.culletPut e.1 e.2.2.1 e.2.1 e.2.2.2) s
  [0, 1, 2, 3].foldl State.mapDie s

/-- A site fenced in this bring-up, or whose substitution a reset cut short, is replaced (R666). -/
def State.culletReplace (s : State) (noWake : List Nat) (e : Nat × Nat) : State :=
  match s.siteCore e.1 with
  | some l => s.substitute ⟨l, e.1, e.2, false⟩ (!noWake.contains e.1)
  | none =>
    let s := match s.spareOf e.1 with | some cl => s.fset SPARE_CMAP.SPARE_POS cl 15 | none => s
    s.recordFence 1 e.2 (siteUnit e.1)

/-- A warm CULLET: the mapping and the list are kept (R666). -/
def State.culletWarm (s : State) (noWake : List Nat) : State :=
  let l := s.boot.unfinished ++ s.boot.selfFenced.map fun k => (k, 1)
  let s := l.foldl (fun s e => s.culletReplace noWake e) s
  { s with boot := { s.boot with unfinished := [], selfFenced := [] } }

/-- A hole, or a cluster absent beyond what the grade makes so (R645). -/
def State.holed (s : State) : Bool :=
  let b := decide (s.fget GCTL_PART_ID.GRADE 0 = 2)
  (List.range 256).any fun cl =>
    if s.fon SPARE_CMAP.ABSENT cl then !b || decide (cl % 64 < 56)
    else (List.range 8).any fun m => decide (s.fget (memberFld m) cl = 15)

/-- CULLET ends (R645, R665, R666). -/
def State.endCullet (s : State) (o : BootIn) : State :=
  let s := if s.boot.mapped then s.culletWarm o.noWake else s.culletCold
  if s.holed then s.endStep 2 0x0301 else s.endStep 1 0

/-- READY ends: the CFE may launch (R641, R645, R668). -/
def State.endReady (s : State) : State :=
  { s with boot := { s.boot with readySince := true, tripSince := false } }.endStep 1 0

/-- A running step ends (R645); `o` is what the physical machine found in it. -/
def bootStepEndStep (o : BootIn) (s : State) : State :=
  s.when (s.hubUp && decide (s.fget GCTL_BOOT_STAT.RESULT 0 = 0)) fun s =>
    match s.fget GCTL_BOOT_STAT.STEP 0 with
    | 1 => s.endPower
    | 2 => s.endSecfw
    | 3 => s.endIdentity o.burns
    | 4 => s.endRecord
    | 8 => s.endGather o
    | 9 => s.endSelftest o
    | 10 => s.endCullet o
    | 11 => s.endReady
    | _ => s

/-- The BOOT_STEP_END row. -/
def execBootStepEnd (o : BootIn) (s : State) : Res := .next (bootStepEndStep o s)

/-! ## Staging window and calibration area (R646, R649, R654 to R656) -/

/-- A write of 8 bytes to the staging window: ignored, with STEP_ORDER logged, after RECORD or while a step runs; never for an NS
requester (R646, R726). -/
def stagingWriteStep (w : Who) (off v : Nat) (s : State) : State :=
  s.when (s.reaches w && decide (w ≠ .mc) && decide (off % 8 = 0) && decide (off < 4194304)) fun s =>
    (s.windowBar w).getD
      (if s.passed 4 || decide (s.fget GCTL_BOOT_STAT.RESULT 0 = 0) then s.logC 0x0619
       else { s with boot := { s.boot with staging := cellsWrite s.boot.staging off (leBytes 8 v) } })

/-- The STAGING_WRITE row. -/
def execStagingWrite (w : Who) (off v : Nat) (s : State) : Res := .next (stagingWriteStep w off v s)

/-- The section of the calibration area that holds an offset. -/
def calSection (off : Nat) : Option Nat :=
  ([1, 2, 3, 4, 5].zip calSections).findSome? fun e => if e.2.1 ≤ off ∧ off < e.2.1 + e.2.2 then some e.1 else none

/-- Whether 8 bytes written in a section keep its limits (R655): those of REG_TRIM and SENSOR_OFS are in mask ROM, a LANE_CAL entry
has a preset of 0 to 7 and zeros in its last nine bytes. -/
def calValueOk (sect off v : Nat) : Bool :=
  match sect with
  | 1 | 2 => Config.trimAdmits off (bitsOf v 0 32) && Config.trimAdmits (off + 4) (bitsOf v 32 32)
  | 3 => if off % 16 = 0 then decide (bitsOf v 0 8 < 8) && decide (bitsOf v 56 8 = 0) else decide (v = 0)
  | _ => true

/-- A write of 8 bytes to the calibration area (R654 to R656, R726). -/
def calibrationWriteStep (w : Who) (off v : Nat) (s : State) : State :=
  s.when (s.reaches w && decide (w ≠ .mc) && decide (off % 8 = 0)) fun s =>
    match calSection off with
    | none => s
    | some k =>
      (s.windowBar w).getD
        (if s.fon CAL_STAT.OPEN 0 && calValueOk k off (v % 2 ^ 64) then
           { s with boot := { s.boot with cal := cellsWrite s.boot.cal off (leBytes 8 v) } }.fset CAL_STAT.ORIGIN 0 2
         else (s.fset CAL_STAT.REJ 0 1).logC 0x0615)

/-- The CALIBRATION_WRITE row. -/
def execCalibrationWrite (w : Who) (off v : Nat) (s : State) : Res := .next (calibrationWriteStep w off v s)

end Sys2Proof.Machine
end

