-- ==== Sys2Proof/Machine/Observation.lean ====
section
/-! DEFINITION. The observation rows: trace and dump slots, the debug freeze, and counters that a read clears (R769, R770, R795 to R803,
R811 to R822). -/
set_option autoImplicit false
namespace Sys2Proof.Machine

/-! ## Who may observe (R769) -/

/-- Whether a requester may trace or dump a context: an NS requester those of partitions with `PWORLD` 0,
NS contexts from DL1 and S contexts at DL3 (R766, R769). -/
def State.mayWatch (s : State) (w : Who) (ctx : Nat) : Bool :=
  match w with
  | .ns =>
    let p := s.ctxPart ctx
    s.fon SEC_PART.VALID p && !s.fon SEC_PART.PWORLD p && (decide (s.fget SEC_PART.DL p = 3) ||
      (s.ctxNs ctx && decide (1 ≤ s.fget SEC_PART.DL p)))
  | _ => true

/-- Whether a requester may freeze and resume: an NS one only while every valid partition is at DL2 or above. -/
def State.mayFreeze (s : State) (w : Who) : Bool :=
  match w with
  | .ns => (List.range 16).all fun p => !s.fon SEC_PART.VALID p || decide (2 ≤ s.fget SEC_PART.DL p)
  | _ => true

/-! ## Trace and dump slots (R797, R802) -/

/-- Whether a written slot differs from the one that stands only in a cleared `EN`. -/
def State.slotClears (s : State) (en : Fld) (k v : Nat) : Bool :=
  !en.bit v && en.reg.fields.all fun f => decide (f.lsb = 0) || decide (f.acc ≠ .rw) || decide (f.val v = s.fget f k)

/-- Whether a trace slot's write is out of order or out of range (R797); `MIN_NS` 0 counts as out of range (log 93). -/
def State.traceBad (s : State) (k v : Nat) : Bool :=
  if s.fon OBS_TRACE.EN k then !s.slotClears OBS_TRACE.EN k v
  else OBS_TRACE.EN.bit v &&
    (decide (OBS_TRACE.K.val v < 7) || decide (20 < OBS_TRACE.K.val v) || decide (OBS_TRACE.MIN_NS.val v = 0))

/-- A write that arms a slot for a context that the requester's level does not permit is logged (R797). -/
def State.watchDenied (s : State) (w : Who) (en ctx : Fld) (k v : Nat) : Bool :=
  !s.fon en k && en.bit v && !s.mayWatch w (ctx.val v)

/-- A slot's number among the slots that NS requesters armed is kept or dropped. -/
def State.markArmed (s : State) (slot : Nat) (ns : Bool) : State :=
  let l := s.obs.nsArmed.filter (· ≠ slot)
  { s with obs := { s.obs with nsArmed := if ns then l ++ [slot] else l } }

/-- An accepted write to a trace slot, a debug control action that wakes the module; arming a slot clears its counts (R771, R797). -/
def traceEff (w : Who) (k v : Nat) (s : State) : State :=
  let was := s.fon OBS_TRACE.EN k
  let s := s.wake.putRW .OBS_TRACE k v
  if s.fon OBS_TRACE.EN k then
    (if was then s else ((s.fset OBS_TRACE.WCOUNT k 0).fset OBS_TRACE.LOST k 0).markArmed k (decide (w = .ns)))
  else s.markArmed k false

/-- A write of one word of a trace slot (R797). -/
def traceSlotWriteStep (w : Who) (k j v : Nat) (s : State) : State :=
  s.when (s.reaches w) fun s =>
    let full := s.wordPut .OBS_TRACE k j v
    s.regWriteOr w .OBS_TRACE k full
      (fun s => s.traceBad k full || s.watchDenied w OBS_TRACE.EN OBS_TRACE.CTX k full)
      (fun s => if s.watchDenied w OBS_TRACE.EN OBS_TRACE.CTX k full then s.logC 0x0509 else s) (traceEff w k full)

/-- The TRACE_SLOT_WRITE row. -/
def execTraceSlotWrite (w : Who) (k j v : Nat) (s : State) : Res :=
  need (decide (k < 4) && decide (j < 3)) (traceSlotWriteStep w k j v s)

/-- Whether a dump slot's write is out of order or out of range (R802; the ranges that count are log 93). -/
def State.dumpBad (s : State) (k v : Nat) : Bool :=
  if s.fon OBS_DUMP.EN k then !s.slotClears OBS_DUMP.EN k v
  else OBS_DUMP.EN.bit v &&
    (decide (OBS_DUMP.TAG.val v = 0) || decide (OBS_DUMP.MAXLEN.val v < 64) || decide (OBS_DUMP.DST.val v % 64 ≠ 0))

/-- An accepted write to a dump slot, a debug control action that wakes the module; arming a slot clears its outcome (R771, R802). -/
def dumpEff (w : Who) (k v : Nat) (s : State) : State :=
  let was := s.fon OBS_DUMP.EN k
  let s := s.wake.putRW .OBS_DUMP k v
  if s.fon OBS_DUMP.EN k then
    if was then s
    else
      let s := (((s.fset OBS_DUMP.STATUS k 0).fset OBS_DUMP.TRUNC k 0).fset OBS_DUMP.LEN k 0).markArmed (8 + k) (decide (w = .ns))
      { s with obs := { s.obs with dumpT := tset s.obs.dumpT k s.time.now 0 } }
  else s.markArmed (8 + k) false

/-- A write of one word of a dump slot (R802). -/
def dumpSlotWriteStep (w : Who) (k j v : Nat) (s : State) : State :=
  s.when (s.reaches w) fun s =>
    let full := s.wordPut .OBS_DUMP k j v
    s.regWriteOr w .OBS_DUMP k full
      (fun s => s.dumpBad k full || s.watchDenied w OBS_DUMP.EN OBS_DUMP.CTX k full)
      (fun s => if s.watchDenied w OBS_DUMP.EN OBS_DUMP.CTX k full then s.logC 0x0509 else s) (dumpEff w k full)

/-- The DUMP_SLOT_WRITE row. -/
def execDumpSlotWrite (w : Who) (k j v : Nat) (s : State) : Res :=
  need (decide (k < 8) && decide (j < 4)) (dumpSlotWriteStep w k j v s)

/-! ## The debug freeze (R811 to R820) -/

/-- FREEZE goes out on a port, three times; a port in LS1 is woken (R450, R482, R813). -/
def State.sendFreeze (s : State) (p id : Nat) : State := ((s.freezeSeq p id).freezeSeq p id).freezeSeq p id

/-- A freeze starts: the module wakes, and FREEZE goes out on every port in service (R812, R813). -/
def State.freezeStart (s : State) (id : Nat) (ns : Bool) : State :=
  let s := s.wake
  let s := ((s.fset OBS_FREEZE.STATE 0 1).fset OBS_FREEZE.ACT_ID 0 id).fset OBS_FREEZE.PARTIAL 0 0
  let s := { s with obs := { s.obs with markers := [], freezeT := s.count, nsFreeze := ns } }
  ((List.range 22).filter fun p => s.inServ p).foldl (fun s p => s.sendFreeze p id) s

/-- A resume: what the freeze held back goes on, in the order in which it came (R814, R820). -/
def State.freezeEnd (s : State) : State :=
  if !s.frozen then s
  else
    let owed := s.fab.owed
    let held := s.obs.heldIn
    let rst := s.cfe.rstHeld
    let s := { s.fset OBS_FREEZE.STATE 0 0 with
      fab := { s.fab with owed := [] }
      obs := { s.obs with heldIn := [], markers := [], nsFreeze := false }
      cfe := { s.cfe with rstHeld := [] } }
    let s := owed.foldl (fun s p => s.inject p) s
    let s := held.foldl (fun s e => s.routeIn e.1 e.2) s
    rst.foldl (fun s e => s.resetOnce e.1 e.2.1 e.2.2) s

/-- Whether a write to `OBS_FREEZE` is not permitted at the present debug levels (R769, R812). -/
def State.freezeDenied (s : State) (w : Who) : Bool := !s.mayFreeze w

/-- An accepted write to `OBS_FREEZE`, a debug control action that wakes the module (R771, R812). -/
def freezeEff (w : Who) (v : Nat) (s : State) : State :=
  let s := s.wake.putRW .OBS_FREEZE 0 v
  let s := if OBS_FREEZE.RESUME.bit v then s.freezeEnd else s
  if OBS_FREEZE.GO.bit v then s.freezeStart (OBS_FREEZE.ID.val v) (decide (w = .ns)) else s

/-- A write to `OBS_FREEZE`: a `GO` while `STATE` is not RUN, and any write that R769 does not permit, are rejected (R812). -/
def freezeWrite (w : Who) (v : Nat) (s : State) : State :=
  s.when (s.reaches w) fun s =>
    s.regWriteOr w .OBS_FREEZE 0 v (fun s => s.freezeDenied w || (OBS_FREEZE.GO.bit v && s.frozen))
      (fun s => if s.freezeDenied w then s.logC 0x0509 else s) (freezeEff w v)

/-- The FREEZE_GO row: a write with `GO` 1. -/
def execFreezeGo (w : Who) (v : Nat) (s : State) : Res :=
  .next (s.when (OBS_FREEZE.GO.bit v) fun s => freezeWrite w v s)

/-- The FREEZE_RESUME row: a write with `RESUME` 1. -/
def execFreezeResume (w : Who) (v : Nat) (s : State) : Res :=
  .next (s.when (OBS_FREEZE.RESUME.bit v) fun s => freezeWrite w v s)

/-- A marker of any id has arrived on a port (R815, R817). -/
def State.marker (s : State) (p id : Nat) : State :=
  let m := if s.obs.markers.contains p then s.obs.markers else s.obs.markers ++ [p]
  { s with obs := { s.obs with markers := m } }.fset OBS_FREEZE.ACT_ID 0 (min id (s.fget OBS_FREEZE.ACT_ID 0))

/-- A FREEZE is accepted on a port: it is a marker of the freeze in effect, or starts one, or, with `JOIN` 0, is echoed (R450, R812,
R816, R817). -/
def State.freezeCame (s : State) (p id : Nat) : State :=
  if s.frozen then s.marker p id
  else if s.fon OBS_FREEZE.JOIN 0 then (s.freezeStart id false).marker p id
  else s.sendFreeze p id

/-- A FREEZE arrives; the second and third of its three, which come with the same id and nothing between, are ignored (R450). -/
def freezeStep (p : Nat) (rx : List (List Nat)) (s : State) : State :=
  s.when (s.hubUp && s.fon FAB_PORT.LINK_UP p) fun s => s.wide p kFREEZE 2 rx fun d s =>
    let id := d.getD 0 0
    let x := s.lp p
    match x.lastFz with
    | some (i, n) =>
      if i = id ∧ n < 3 then s.setLp p { x with lastFz := some (id, n + 1) }
      else (s.setLp p { x with lastFz := some (id, 1) }).freezeCame p id
    | none => (s.setLp p { x with lastFz := some (id, 1) }).freezeCame p id

/-- The FREEZE row. -/
def execFreeze (p : Nat) (rx : List (List Nat)) (s : State) : Res := need (wfPort p) (freezeStep p rx s)

/-- Every port in service has delivered its marker (R815). -/
def State.allMarked (s : State) : Bool := (List.range 22).all fun p => !s.inServ p || s.obs.markers.contains p

/-- The module enters FROZEN, and takes a capture when `CAPTURE` is 1 (R815). -/
def State.freezeDone (s : State) (smear : Bool) : State :=
  let s := s.fset OBS_FREEZE.STATE 0 2
  if s.fon OBS_FREEZE.CAPTURE 0 then s.trigger 4 s.workSites smear [] else s

/-- Every unit has stopped (R815). -/
def execFrozen (s : State) : Res :=
  .next (s.when (s.hubUp && decide (s.fget OBS_FREEZE.STATE 0 = 1) && s.allMarked) fun s => s.freezeDone false)

/-- FROZEN is not reached within 100 ms of machine count (R818). -/
def execFreezeTimeout (s : State) : Res :=
  .next (s.when (s.hubUp && decide (s.fget OBS_FREEZE.STATE 0 = 1) && decide (s.obs.freezeT + 100000000 ≤ s.count)) fun s =>
    ((s.fset OBS_FREEZE.PARTIAL 0 1).logC 0x0332).freezeDone true)

/-! ## Levels that fall (R770) -/

/-- What an NS requester armed on a slot is disarmed when its context's partition no longer permits it. -/
def State.disarm (s : State) (en ctx : Fld) (base k : Nat) : State :=
  if s.obs.nsArmed.contains (base + k) && !s.mayWatch .ns (s.fget ctx k) then
    (s.fset en k 0).markArmed (base + k) false
  else s

/-- A partition's level has fallen: what the levels no longer permit is disarmed, and a freeze that an NS requester started ends
(R770, log 68). -/
def State.levelFell (s : State) : State :=
  let s := (List.range 4).foldl (fun s k => s.disarm OBS_TRACE.EN OBS_TRACE.CTX 0 k) s
  let s := (List.range 8).foldl (fun s k => s.disarm OBS_DUMP.EN OBS_DUMP.CTX 8 k) s
  if s.obs.nsFreeze && !s.mayFreeze .ns then s.freezeEnd else s

/-! ## Counters (R795, R796) -/

/-- A read of a port's drop counters clears them; an NS read returns 0 and clears nothing. -/
def obsPortReadStep (w : Who) (p : Nat) (s : State) : State :=
  s.when (s.reaches w) fun s =>
    if w = .ns then s.emit (.read 0)
    else (Reg.fields .OBS_PORT).foldl (fun s f => s.fset f p 0) (s.emit (.read (s.regWord .OBS_PORT p)))

/-- The OBS_PORT_READ row. -/
def execObsPortRead (w : Who) (p : Nat) (s : State) : Res := need (wfPort p) (obsPortReadStep w p s)

/-- A read of `OBS_HUB` clears its counters; an NS read returns 0 and clears nothing. -/
def execObsHubRead (w : Who) (s : State) : Res :=
  .next (s.when (s.reaches w) fun s =>
    if w = .ns then s.emit (.read 0)
    else (Reg.fields .OBS_HUB).foldl (fun s f => s.fset f 0 0) (s.emit (.read (s.regWord .OBS_HUB 0))))

end Sys2Proof.Machine
end

