-- ==== Sys2Proof/Machine/Security.lean ====
section
/-! DEFINITION. Security commands with their tokens and scrubs, cluster worlds, and the entropy source (R731, R732, R737 to R744,
R759 to R762, R767 to R771). -/
set_option autoImplicit false
namespace Sys2Proof.Machine

/-! ## Who holds what (R730, R739) -/

/-- The ownership mask of a kind of resource: 0 CLUSTER, 1 CONTEXT, 2 ENDPOINT, 3 KEYSLOT. -/
def maskFld : Nat → Fld
  | 0 => SEC_PART.CL | 1 => SEC_PART.CTXM | 2 => SEC_PART.EPM | _ => SEC_PART.KEYS

/-- A partition is open; 16, the pool, is not one. -/
def State.partOpen (s : State) (p : Nat) : Bool := decide (p < 16) && s.fon SEC_PART.VALID p

/-- Whether a partition, or the pool at 16, holds a resource. -/
def State.holds (s : State) (p kind index : Nat) : Bool :=
  if p = 16 then (s.holder (maskFld kind) index).isNone
  else s.partOpen p && (s.fget (maskFld kind) p).testBit index

/-- The resources of a kind that a partition holds. -/
def State.heldList (s : State) (p kind : Nat) : List Nat :=
  let m := s.fget (maskFld kind) p
  (List.range (maskFld kind).w).filter m.testBit

/-- A partition is idle (R739). -/
def State.partIdle (s : State) (p : Nat) : Bool :=
  let cs := s.heldList p 1
  cs.all (fun c => decide (s.fget CTX_STATE.STATE c = 0) || decide (s.fget CTX_STATE.STATE c = 3)) &&
  !(s.coll.insts.any fun i => cs.contains i.ctx) && !(s.att.queries.any fun q => cs.contains q.sctx)

/-! ## Tokens (R759 to R762) -/

/-- What a row of R762 asks of a token's signer in the lifecycle state in effect; `none` is the table's "—". -/
inductive Signer
  | owner | vendor | either
  deriving DecidableEq, Repr

/-- The signer that R762 requires for a command, a lifecycle state, the state a LIFECYCLE token names, and a bound owner. -/
def signerOf (op lcs toLcs : Nat) (bound : Bool) : Option Signer :=
  match op with
  | 6 => if lcs = 2 then some .owner else if lcs = 3 then some .vendor else none
  | 7 => if lcs = 2 then some .owner else none
  | 8 => if lcs = 2 ∧ bound = false then some .vendor else none
  | _ =>
    match toLcs with
    | 1 => if lcs = 0 then some .vendor else none
    | 2 => if lcs ≤ 1 then some .vendor else none
    | 3 => if lcs = 2 then some (if bound then .owner else .vendor) else none
    | _ => if lcs = 2 then some (if bound then .either else .vendor) else if lcs ≤ 3 then some .vendor else none

/-- A token as it stands in the window, of `TLEN` bytes: its header, its key, and all of it. -/
structure Token where
  hdr   : Nat
  key   : List Byte
  bytes : List Byte
  deriving DecidableEq, Repr

/-- The token staged. -/
def State.tokenAt (s : State) (tlen : Nat) : Token :=
  let b := cellsRead s.sec.token 0 (min tlen 32768)
  ⟨ofLE (b.take 128), slice b 128 60, b⟩

/-- Whether the signer that a token names is the one required. -/
def signerFits (t : Token) : Signer → Bool
  | .owner => !TOK.SIGNER.on t.hdr
  | .vendor => TOK.SIGNER.on t.hdr
  | .either => true

/-- The token's key is the one its signer's fuse names (R762). -/
def State.tokenKey (s : State) (t : Token) : Bool :=
  if TOK.SIGNER.on t.hdr then s.vendorKey t.key else decide (s.fuse.ohash = some (ofLE (sha256 t.key)))

/-- Whether a token passes R759, R761 and R762 for a command and its target. -/
def State.tokenOk (s : State) (op to_ tlen : Nat) (who : Signer) : Bool :=
  let t := s.tokenAt tlen
  decide (1 ≤ tlen) && decide (tlen ≤ 32768) && decide (TOK.MAGIC.of t.hdr = 0x4E4C544B) &&
  decide (TOK.TKIND.of t.hdr + 5 = op) && decide (t.hdr &&& TOK.reserved = 0) &&
  decide (TOK.SERIAL.of t.hdr = s.fget GCTL_SERIAL.SERIAL 0) && decide (TOK.EPOCH.of t.hdr = s.fget SEC_ID_STAT.EPOCH 0) &&
  decide (TOK.NONCE.of t.hdr = s.fget SEC_NONCE.NONCE 0) && (decide (op ≠ 6) || decide (TOK.PART.of t.hdr = to_)) &&
  (decide (op ≠ 9) || (decide (1 ≤ TOK.TO_LCS.of t.hdr) && decide (TOK.TO_LCS.of t.hdr ≤ 4))) &&
  signerFits t who && s.tokenKey t &&
  decide (hssSigned t.key (t.bytes.take 188) (t.bytes.drop 188) = some (tlen - 188)) && decide (188 < tlen)

/-! ## Conditions (R740) -/

/-- A logical core lies in a logical cluster. -/
def inCluster (cl lcore : Nat) : Bool := decide (lcore / 8 = cl)

/-- No work is resident on a cluster, and no command is launched or held for it (R740, R741). -/
def State.clusterQuiet (s : State) (cl : Nat) : Bool :=
  !(s.core.rsds.any fun r => inCluster cl r.lcore) &&
  !(s.cfe.cmds.any fun c => c.cores.any (inCluster cl) &&
    (c.launched || (s.mayLaunch c && c.cores.any fun l => !s.room l c.nctr || s.coreHeld l)))

/-- No message is open at an endpoint, in either direction (R740). -/
def State.endpointQuiet (s : State) (e : Nat) : Bool :=
  !(s.fab.msgs.any fun m => decide (m.dep = e)) && !(s.fab.xfers.any fun x => decide (x.ep = e))

/-- No valid region entry and no running fill names a key slot (R740). -/
def State.keyQuiet (s : State) (k : Nat) : Bool :=
  !(s.fon MEM_FILL_CTL.BUSY 0 && decide (s.fget MEM_FILL_CTL.KEY 0 = k)) &&
  (List.range 4096).all fun i => !s.fon MEM_RGN.VALID i || decide (s.fget MEM_RGN.KEY i ≠ k)

/-- Whether a resource may move (R740). -/
def State.moveOk (s : State) (r : SecRun) : Bool :=
  decide (r.src ≠ r.dst) && decide (r.src ≤ 16) && (decide (r.dst = 16) || s.partOpen r.dst) &&
  s.holds r.src r.kind r.index &&
  (match r.kind with
   | 0 => s.clusterQuiet r.index
   | 1 => decide (s.fget CTX_STATE.STATE r.index = 0)
   | 2 => decide (r.index ≠ 0) && !s.fon FAB_EP.VALID r.index && s.endpointQuiet r.index
   | _ => decide (1 ≤ r.index) && decide (r.index ≤ 62) && s.keyQuiet r.index)

/-- Whether a command's own condition holds, its token apart (R740). -/
def State.secCond (s : State) (r : SecRun) : Bool :=
  let lcs := s.fget SEC_LIFE.LCS 0
  match r.op with
  | 1 => decide (r.dst < 16) && !s.fon SEC_PART.VALID r.dst
  | 2 => s.partOpen r.dst && s.partIdle r.dst && (s.heldList r.dst 1).all (fun c => !s.fon CTX_CFG.EN c) &&
      (s.heldList r.dst 2).all (fun e => !s.fon FAB_EP.VALID e)
  | 3 => s.moveOk r
  | 4 => s.partOpen r.dst && s.partIdle r.dst
  | 5 => s.partOpen r.dst && (decide (r.dl ≤ 2) || decide (lcs ≤ 1)) && (!s.scrubs r || s.partIdle r.dst)
  | 6 => s.partOpen r.dst && s.partIdle r.dst
  | 7 | 8 | 9 => true
  | _ => false

/-- What stands against a command: the lifecycle state, its own condition, its token; or 0 (R740, R762). -/
def State.secCode (s : State) (r : SecRun) (tlen : Nat) : Nat :=
  let lcs := s.fget SEC_LIFE.LCS 0
  if lcs = 4 then 0x050B
  else if r.op < 6 ∨ 9 < r.op then (if s.secCond r then 0 else 0x0506)
  else
    let to_ := TOK.TO_LCS.of (s.tokenAt tlen).hdr
    if r.op = 9 ∧ (to_ = 0 ∨ 4 < to_) then 0x050A
    else match signerOf r.op lcs to_ s.fuse.ohash.isSome with
      | none => 0x050B
      | some who =>
        if s.secCond r = false then 0x0506
        else if s.tokenOk r.op r.dst tlen who then 0 else 0x050A

/-- Whether a command's token was checked, so that the nonce is replaced (R760). -/
def tokenRead (r : SecRun) (code : Nat) : Bool :=
  decide (6 ≤ r.op) && decide (r.op ≤ 9) && (decide (code = 0) || decide (code = 0x050A))

/-! ## A command begins (R737, R741) -/

/-- The partitions a command acts on show `BUSY`. -/
def State.secBusy (s : State) (r : SecRun) (b : Nat) : State :=
  let s := if r.op = 3 ∧ r.src < 16 then s.fset SEC_PART.BUSY r.src b else s
  if r.op ≤ 6 ∧ r.dst < 16 then s.fset SEC_PART.BUSY r.dst b else s

/-- A command ends without effect. -/
def State.secReject (s : State) (code : Nat) : State :=
  (((s.fset SEC_CMD.REJ 0 1).fset SEC_CMD.CODE 0 code).fset SEC_CMD.DONE 0 1).logC code

/-- The logical cores of a cluster. -/
def coresOf (cl : Nat) : List Nat := (List.range 8).map (8 * cl + ·)

/-- An accepted command runs: a cluster that moves has its launches held, and an entry to a debug level wakes the module (R741,
R771). -/
def State.secStart (s : State) (r : SecRun) : State :=
  let s := (s.fset SEC_CMD.BUSY 0 1).secBusy r 1
  let s := if r.op = 3 ∧ r.kind = 0 then (coresOf r.index).foldl (fun s l => s.holdCore l) s else s
  let s := if r.op = 1 ∨ r.op = 5 ∨ r.op = 6 then s.wake else s
  { s with sec := { s.sec with run := some r } }

/-- The command that a written value spells, with what its token gives it. -/
def State.secRunOf (s : State) (v : Nat) : SecRun :=
  let h := (s.tokenAt (SEC_CMD.TLEN.val v)).hdr
  ⟨SEC_CMD.OP.val v, SEC_CMD.FROM.val v, SEC_CMD.TO.val v, SEC_CMD.KIND.val v, SEC_CMD.INDEX.val v, SEC_CMD.DL.val v,
    TOK.OHASH.of h, TOK.TO_LCS.of h⟩

/-- A `GO` while none runs: judged, and begun or turned away. -/
def State.secGo (s : State) (v : Nat) : State :=
  let r := s.secRunOf v
  let code := s.secCode r (SEC_CMD.TLEN.val v)
  let s := if tokenRead r code then s.newNonce else s
  if code = 0 then s.secStart r else s.secReject code

/-- A write to `SEC_CMD`; a `GO` while `BUSY` is rejected (R741), and in PS4 every command is (R771). -/
def secCmdWrite (w : Who) (v : Nat) (s : State) : State :=
  if s.pwr.on && decide (s.pwr.trip = 0) && decide (s.fget PWR_PSTATE.STATE 0 = 4) then
    s.when (decide (w = .s) && SEC_CMD.GO.bit v) fun s => s.secReject 0x0509
  else s.when (s.reaches w) fun s =>
    s.regWriteOr w .SEC_CMD 0 v (fun s => SEC_CMD.GO.bit v && s.fon SEC_CMD.BUSY 0)
      (fun s => (s.fset SEC_CMD.CODE 0 0x0506).logC 0x0506) fun s =>
        let s := s.putRW .SEC_CMD 0 v
        if SEC_CMD.GO.bit v then s.secGo v else s

/-- A write with `GO` 1 and an `OP`. -/
def secOp (op : Nat) (w : Who) (v : Nat) (s : State) : State :=
  s.when (SEC_CMD.GO.bit v && decide (SEC_CMD.OP.val v = op)) fun s => secCmdWrite w v s

/-- A MOVE of a kind. -/
def secMove (kind : Nat) (w : Who) (v : Nat) (s : State) : State :=
  s.when (decide (SEC_CMD.KIND.val v = kind)) fun s => secOp 3 w v s

/-- The PART_OPEN row. -/
def execPartOpen (w : Who) (v : Nat) (s : State) : Res := .next (secOp 1 w v s)

/-- The PART_CLOSE row. -/
def execPartClose (w : Who) (v : Nat) (s : State) : Res := .next (secOp 2 w v s)

/-- The MOVE_CLUSTER row. -/
def execMoveCluster (w : Who) (v : Nat) (s : State) : Res := .next (secMove 0 w v s)

/-- The MOVE_CONTEXT row. -/
def execMoveContext (w : Who) (v : Nat) (s : State) : Res := .next (secMove 1 w v s)

/-- The MOVE_ENDPOINT row. -/
def execMoveEndpoint (w : Who) (v : Nat) (s : State) : Res := .next (secMove 2 w v s)

/-- The MOVE_KEYSLOT row. -/
def execMoveKeyslot (w : Who) (v : Nat) (s : State) : Res := .next (secMove 3 w v s)

/-- The SCRUB row. -/
def execScrub (w : Who) (v : Nat) (s : State) : Res := .next (secOp 4 w v s)

/-- The SET_DL row. -/
def execSetDl (w : Who) (v : Nat) (s : State) : Res := .next (secOp 5 w v s)

/-- The UNLOCK row. -/
def execUnlock (w : Who) (v : Nat) (s : State) : Res := .next (secOp 6 w v s)

/-- The OWNER_LOCK row. -/
def execOwnerLock (w : Who) (v : Nat) (s : State) : Res := .next (secOp 7 w v s)

/-- The OWNER_BIND row. -/
def execOwnerBind (w : Who) (v : Nat) (s : State) : Res := .next (secOp 8 w v s)

/-- The LIFECYCLE row. -/
def execLifecycle (w : Who) (v : Nat) (s : State) : Res := .next (secOp 9 w v s)

/-! ## A command ends (R740, R742 to R744) -/

/-- The core store of a logical cluster's nine sites is zero-filled; an absent one has no sites (R158). -/
def State.zeroCluster (s : State) (cl : Nat) : State :=
  if s.fon SPARE_CMAP.VALID cl && !s.fon SPARE_CMAP.ABSENT cl then
    (clusterSites (cl / 64) (s.fget SPARE_CMAP.PCLUST cl)).foldl (fun s k => s.csZero k) s
  else s

/-- Frames lo to hi, but for those of the host region, are filled under a slot. -/
def State.fillOutside (s : State) (lo hi slot : Nat) : State :=
  match s.hostRegion with
  | none => s.fillFrames lo hi slot []
  | some (a, b) =>
    if hi < a ∨ b < lo then s.fillFrames lo hi slot []
    else
      let s := if lo < a then s.fillFrames lo (a - 1) slot [] else s
      if b < hi then s.fillFrames (b + 1) hi slot [] else s

/-- A scrub (R742): entries are filled from the last to the first, so that each frame ends under its governing entry's key. -/
def State.scrub (s : State) (p : Nat) : State :=
  let s := (s.heldList p 0).foldl (fun s cl => s.zeroCluster cl) s
  let s := (s.heldList p 3).foldl (fun s k => s.loadKey k) s
  (List.range 256).foldr (fun i s =>
    let e := 256 * p + i
    if s.fon MEM_RGN.VALID e then
      s.fillOutside (s.fget MEM_RGN.BASE e) (s.fget MEM_RGN.LIMIT e) (s.fget MEM_RGN.KEY e)
    else s) s

/-- A region entry is no longer valid, for the checkers too. -/
def State.closeEntry (s : State) (i : Nat) : State :=
  let held := Reg.MEM_RGN.fields.foldl (fun (t : Table Nat) (f : Fld) => tdel t (f.key i)) s.mem.pendRgn
  { s with mem := { s.mem with pendRgn := held } }.fset MEM_RGN.VALID i 0

/-- A partition closes: its entries are void and all it held is in the pool. -/
def State.closePart (s : State) (p : Nat) : State :=
  let s := (List.range 256).foldl (fun s i => s.closeEntry (256 * p + i)) s
  ([SEC_PART.CL, SEC_PART.CTXM, SEC_PART.EPM, SEC_PART.KEYS, SEC_PART.VALID, SEC_PART.PWORLD, SEC_PART.DL,
    SEC_PART.DL3_TOKEN].foldl (fun s f => s.fset f p 0) s).levelFell

/-- A resource moves between two owners. -/
def State.moveMask (s : State) (r : SecRun) : State :=
  let f := maskFld r.kind
  let s := if r.src < 16 then s.fset f r.src (s.fget f r.src - 2 ^ r.index) else s
  if r.dst < 16 then s.fset f r.dst (s.fget f r.dst + 2 ^ r.index) else s

/-- What goes with a resource that moves. -/
def State.moveWipe (s : State) (r : SecRun) : State :=
  match r.kind with
  | 0 => (coresOf r.index).foldl (fun s l => s.freeCore l) (s.zeroCluster r.index)
  | 1 => s
  | 2 =>
    let s := (s.fab.sstr.filter fun t => decide (t.ep = r.index)).foldl (fun s t => s.releaseStream t) s
    { s with fab := { s.fab with dstr := s.fab.dstr.filter fun t => decide (t.dep ≠ r.index) } }
  | _ => s.loadKey r.index

/-- A level is set (R740, R770). -/
def State.setDl (s : State) (r : SecRun) : State :=
  let was := s.fget SEC_PART.DL r.dst
  let s := s.fset SEC_PART.DL r.dst r.dl
  let s := if r.dl = 3 then s else s.fset SEC_PART.DL3_TOKEN r.dst 0
  if r.dl < was then s.levelFell else s

/-- What a command does at its end. -/
def State.secEffect (s : State) (r : SecRun) : State :=
  let s := if s.scrubs r then s.scrub r.dst else s
  match r.op with
  | 1 => ((s.fset SEC_PART.VALID r.dst 1).fset SEC_PART.PWORLD r.dst (r.index % 2)).fset SEC_PART.DL r.dst 0
  | 2 => s.closePart r.dst
  | 3 => (s.moveWipe r).moveMask r
  | 5 => s.setDl r
  | 6 => (s.fset SEC_PART.DL r.dst 3).fset SEC_PART.DL3_TOKEN r.dst 1
  | 7 => s.fset SEC_LIFE.OWNER_LOCK 0 1
  | 8 => { s with fuse := { s.fuse with ohash := some r.ohash } }.showFuses
  | 9 => { s with fuse := { s.fuse with lcs := r.lcs } }.showFuses
  | _ => s

/-- Whether a command needs fresh keys (R743, R744). -/
def State.needsKeys (s : State) (r : SecRun) : Bool :=
  (decide (r.op = 3) && decide (r.kind = 3)) || (s.scrubs r && !(s.heldList r.dst 3).isEmpty)

/-- A command that finds no entropy ends with TRNG_FAIL and does nothing (R743). -/
def State.secFail (s : State) (r : SecRun) : State :=
  let s := if r.op = 3 ∧ r.kind = 0 then (coresOf r.index).foldl (fun s l => s.freeCore l) s else s
  (s.fset SEC_CMD.CODE 0 0x050C).logC 0x050C

/-- The running command ends (R737, R740). -/
def secCmdDoneStep (s : State) : State :=
  match s.sec.run with
  | none => s
  | some r =>
    s.when s.hubUp fun s =>
      let s := if s.needsKeys r && !s.fon SEC_LIFE.TRNG_OK 0 then s.secFail r else (s.secEffect r).fset SEC_CMD.CODE 0 0
      let s := { s with sec := { s.sec with run := none } }
      ((s.secBusy r 0).fset SEC_CMD.BUSY 0 0).fset SEC_CMD.DONE 0 1

/-- The SEC_CMD_DONE row. -/
def execSecCmdDone (s : State) : Res := .next (secCmdDoneStep s)

/-! ## Cluster worlds (R731, R732) -/

/-- Clusters held by any partition, as a mask. -/
def State.clustersHeld (s : State) : Nat :=
  (List.range 16).foldl (fun m p => if s.fon SEC_PART.VALID p then m ||| s.fget SEC_PART.CL p else m) 0

/-- A write of one word of `SEC_CL_WORLD`: rejected whole when it would change the world of a held cluster. -/
def secClWorldWriteStep (w : Who) (k v : Nat) (s : State) : State :=
  s.when (s.reaches w) fun s =>
    let full := s.wordPut .SEC_CL_WORLD 0 k v
    s.regWriteOr w .SEC_CL_WORLD 0 full
      (fun s => decide ((SEC_CL_WORLD.W.val full ^^^ s.fget SEC_CL_WORLD.W 0) &&& s.clustersHeld ≠ 0))
      (fun s => s.logC 0x0506) fun s => s.putRW .SEC_CL_WORLD 0 full

/-- The SEC_CL_WORLD_WRITE row. -/
def execSecClWorldWrite (w : Who) (k v : Nat) (s : State) : Res := need (decide (k < 4)) (secClWorldWriteStep w k v s)

/-! ## The entropy source (R743) -/

/-- The TRNG_HEALTH_FAIL row: no key is generated from now on. -/
def execTrngHealthFail (s : State) : Res := .next (s.when s.pwr.on fun s => s.fset SEC_LIFE.TRNG_OK 0 0)

/-- The TRNG_STARTUP_PASS row. -/
def execTrngStartupPass (s : State) : Res := .next (s.when s.pwr.on fun s => s.fset SEC_LIFE.TRNG_OK 0 1)

end Sys2Proof.Machine
end

