-- ==== Sys2Proof/Machine/Firmware.lean ====
section
/-! DEFINITION. Firmware updates in service: requests and their refusals, staging, activation and its failure, and the security
version fuses (R778 to R790). -/
set_option autoImplicit false
namespace Sys2Proof.Machine

/-! ## Requests (R781, R782) -/

/-- A request is rejected: nothing changes but `REJ` and `CODE`. -/
def State.fwuReject (s : State) : State := ((s.fset SEC_FWU_STAT.REJ 0 1).fset SEC_FWU_STAT.CODE 0 0x0605).logC 0x0605

/-- Whether the state does not admit a request of a path (R781). -/
def State.fwuBusy (s : State) (path : Nat) (admits : List Nat) : Bool :=
  let st := s.fget SEC_FWU_STAT.STATE 0
  !admits.contains st || (decide (1 ≤ st) && decide (st ≤ 4) && decide (s.fw.path ≠ path))

/-- Refusal conditions 0 to 3, one bit each (R782). -/
def State.refuseBits (s : State) : Nat :=
  let low := match s.pwr.lowT with | some t => decide (s.time.now < t + 60000000000) | none => false
  let dl3 := (List.range 16).any fun p => s.fon SEC_PART.VALID p && decide (s.fget SEC_PART.DL p = 3)
  b2n (s.fon SEC_LIFE.OWNER_LOCK 0) + 2 * b2n (s.fon PWR_STATUS.HOLD 0 || low || decide (s.sinceHold < 60)) +
  4 * b2n (s.fon PWR_STATUS.FLOW_HOLD 0 || s.pwr.gated.any (· = true) || s.pwr.tripped) + 8 * b2n dl3

/-- A check of R782 with its bits: `REFUSE` shows them, and what they refuse does not go on. -/
def State.fwuCheck (s : State) (bits : Nat) (go : State → State) : State :=
  let s := s.fset SEC_FWU_STAT.REFUSE 0 bits
  if bits = 0 then go s
  else
    let code := if bits.testBit 5 then 0x0609 else 0x0601
    (s.fset SEC_FWU_STAT.CODE 0 code).logC code

/-- The bundle that `SEC_FWU_SRC` names, read through key slot 0; nothing when it may not be read (R783). -/
def State.srcBundle (s : State) : List Byte :=
  let n := s.fget SEC_FWU_SRC.LEN 0
  let a := s.fget SEC_FWU_SRC.BASE 0 <<< 12
  if n = 0 ∨ 4194304 < n ∨ s.spanInHost a n = false then [] else (s.rawRead ⟨0, 1, none, 7⟩ a n).bytes

/-- STAGE: the bundle is taken up, and staging begins (R781 to R783). -/
def State.fwuStage (s : State) (path : Nat) (b : List Byte) : State :=
  if s.fwuBusy path [0] then s.fwuReject
  else s.fwuCheck s.refuseBits fun s =>
    { s.fset SEC_FWU_STAT.STATE 0 1 with fw := { s.fw with path := path, bundle := b } }

/-- ACTIVATE: activation is armed for a count (R781, R782, R785). -/
def State.fwuActivate (s : State) (path t : Nat) : State :=
  if s.fwuBusy path [2] then s.fwuReject
  else s.fwuCheck (s.refuseBits + 32 * b2n (s.fon TIME_STATUS.UNSYNC 0)) fun s =>
    let s := { s.fset SEC_FWU_STAT.STATE 0 3 with fw := { s.fw with tAct := t } }
    s.arm t 1 0 0

/-- No activation is armed any more. -/
def State.disarmFw (s : State) : State :=
  { s with time := { s.time with armed := s.time.armed.filter fun a => decide (a.kind ≠ 1) } }

/-- ABANDON: a staged or armed update is discarded (R781, R784). -/
def State.fwuAbandon (s : State) (path : Nat) : State :=
  if s.fwuBusy path [2, 3] then s.fwuReject
  else { (s.fset SEC_FWU_STAT.STATE 0 0).disarmFw with fw := { s.fw with staged := [], stagedEnt := [], bundle := [], path := 0 } }

/-- SVN_COMMIT: each component's fuses are burned up to the version in effect (R779). -/
def State.svnCommit (s : State) : State :=
  if s.fwuBusy 0 [0] then s.fwuReject
  else
    let n (t : Nat) : Nat := max (s.svnOf t) (min 64 (MFE.SVN.of (s.fwEntry t)))
    { s with fuse := { s.fuse with svn := n 1 + (n 2 <<< 8) + (n 3 <<< 16) + (n 4 <<< 24) } }.showFuses

/-- A write to `SEC_FWU_CTL`: each request in the order of its bits. -/
def fwuCtlWrite (w : Who) (v : Nat) (s : State) : State :=
  s.when (s.reaches w) fun s =>
    s.regWrite w .SEC_FWU_CTL 0 v (fun _ => false) fun s =>
      let s := if SEC_FWU_CTL.STAGE.bit v then s.fwuStage 1 s.srcBundle else s
      let s := if SEC_FWU_CTL.ACTIVATE.bit v then s.fwuActivate 1 (s.fget SEC_FWU_T.T_ACT 0) else s
      let s := if SEC_FWU_CTL.ABANDON.bit v then s.fwuAbandon 1 else s
      if SEC_FWU_CTL.SVN_COMMIT.bit v then s.svnCommit else s

/-- The FWU_STAGE row: a write with `STAGE` 1. -/
def execFwuStage (w : Who) (v : Nat) (s : State) : Res :=
  .next (s.when (SEC_FWU_CTL.STAGE.bit v) fun s => fwuCtlWrite w v s)

/-- The FWU_ACTIVATE row: a write with `ACTIVATE` 1. -/
def execFwuActivate (w : Who) (v : Nat) (s : State) : Res :=
  .next (s.when (SEC_FWU_CTL.ACTIVATE.bit v) fun s => fwuCtlWrite w v s)

/-- The FWU_ABANDON row: a write with `ABANDON` 1. -/
def execFwuAbandon (w : Who) (v : Nat) (s : State) : Res :=
  .next (s.when (SEC_FWU_CTL.ABANDON.bit v) fun s => fwuCtlWrite w v s)

/-- The SVN_COMMIT row: a write with `SVN_COMMIT` 1. -/
def execSvnCommit (w : Who) (v : Nat) (s : State) : Res :=
  .next (s.when (SEC_FWU_CTL.SVN_COMMIT.bit v) fun s => fwuCtlWrite w v s)

/-! ## Staging (R783) -/

/-- A site without the whole microcode image is fenced with `DRAIN` 1. -/
def State.gatherFence (s : State) (site : Nat) : State :=
  let s := s.log { code := 0x0616, kind := 1, unit := siteUnit site }
  match s.siteCore site with
  | some l => s.startDrain site l
  | none => s.fenceSite site 3

/-- Sites that are in service, neither fenced nor about to be. -/
def State.inUse (s : State) (site : Nat) : Bool :=
  decide (site < 2304) && !s.spare.fenced.contains site && !(s.spare.fencing.any fun f => decide (f.site = site))

/-- The microcode entry of a bundle, and its image decrypted. -/
def bundleMcode (b : List Byte) : Option (List Byte) :=
  ((manifestEntries b).find? fun e => decide (MFE.TYPE.of e = 4)).map fun e =>
    imagePlain (MFH.SALT.of (ofLE (b.take 128))) e (imageIn b e)

/-- Staging ends: STAGED, or IDLE with the failing code. A microcode image has gone to every core's inactive bank by Gather, with the copies
that were altered; sites that lack blocks after three rounds are fenced (R783). -/
def stagingDoneStep (copies : List BlockCopy) (s : State) : State :=
  s.when (s.hubUp && decide (s.fget SEC_FWU_STAT.STATE 0 = 1)) fun s =>
    let b := s.fw.bundle
    let s := s.fset SEC_FWU_STAT.DONE 0 1
    match s.bundleCode b false with
    | 0 =>
      let es := manifestEntries b
      let img := bundleMcode b
      let bad := match img with
        | some p => (incomplete p copies).filter s.inUse
        | none => []
      let s := match img with
        | some p => s.deliver p copies
        | none => s
      let s := bad.foldl (fun s k => s.gatherFence k) s
      { s.fset SEC_FWU_STAT.STATE 0 2 with fw := { s.fw with staged := manifestBytes b, stagedEnt := es, bundle := [] } }
    | code =>
      { ((s.fset SEC_FWU_STAT.STATE 0 0).fset SEC_FWU_STAT.CODE 0 code).logC code with
        fw := { s.fw with bundle := [], path := 0 } }

/-- The STAGING_DONE row. -/
def execStagingDone (copies : List BlockCopy) (s : State) : Res := .next (stagingDoneStep copies s)

/-! ## Activation (R785 to R788) -/

/-- Activation fails after the commit point: FAILED, and the module acts as a withdrawn one (R788). -/
def State.actFail (s : State) (code : Nat) : State :=
  let s := ((s.fset SEC_FWU_STAT.STATE 0 5).fset SEC_FWU_STAT.CODE 0 code).fset SEC_FWU_STAT.DONE 0 1
  let s := s.fset GCTL_MGMT.HANDOVER 0 0
  (if code = 0x0607 then s else s.logC code).withdraw 0x0607

/-- What the old management firmware writes to the Punty buffer: endpoint IDs, dynamic addresses, PLDM thresholds and event receiver,
heartbeat state and SPDM connection state, then a CRC-32C (R787; their order and widths are log 92). -/
def State.puntyBytes (s : State) : List Byte :=
  let m := s.mgmt
  let b := leBytes 1 (s.fget GCTL_MGMT.EID 0) ++ leBytes 1 m.busOwner ++ leBytes 1 (s.fget GCTL_MGMT.DADDR 0) ++
    leBytes 1 (s.fget GCTL_MGMT.DA_VALID 0) ++ leBytes 1 m.tbAddr ++ leBytes 1 m.thresholds.length ++
    m.thresholds.flatMap (fun e => leBytes 2 e.1 ++ leBytes 8 e.2.1 ++ leBytes 8 e.2.2) ++
    leBytes 2 (match m.receiver with | some e => e + 256 | none => 0) ++
    leBytes 1 (s.fget PWR_RACK.HB_ARMED 0) ++ leBytes 8 s.pwr.hbT ++ leBytes 1 s.sec.spdm ++
    leBytes 4 s.sec.transA.length ++ s.sec.transA ++ leBytes 4 s.sec.transB.length ++ s.sec.transB ++
    leBytes 4 s.sec.transL.length ++ s.sec.transL
  b ++ leBytes 4 (crc32c b)

/-- The new firmware's check of the buffer as it finds it, with the bytes that were altered in between (R787). -/
def State.puntyOk (s : State) (alt : List (Nat × Nat)) : Bool :=
  let b := alt.foldl (fun b e => b.set e.1 (BitVec.ofNat 8 e.2)) s.mgmt.punty
  let n := b.length - 4
  decide (4 ≤ b.length) && decide (crc32c (b.take n) = ofLE (b.drop n))

/-- The count has come: the update is refused and STAGED again, or launches are held and the handover begins (R782, R785 steps 1
and 2, R787). -/
def State.actStart (s : State) : State :=
  let s := s.disarmFw
  let bits := s.refuseBits + 16 * b2n (!s.restful)
  let s := if bits = 0 then s else s.fset SEC_FWU_STAT.STATE 0 2
  s.fwuCheck bits fun s =>
    { (s.fset SEC_FWU_STAT.STATE 0 4).fset GCTL_MGMT.HANDOVER 0 1 with
      fw := { s.fw with pauseT := s.time.now }, mgmt := { s.mgmt with punty := s.puntyBytes } }

/-- Every unit runs its new image: measurements and `MCODE` follow, and launches are released (R785 step 5). -/
def State.actEnd (s : State) : State :=
  let s := (s.fset SEC_FWU_STAT.STATE 0 0).fset SEC_FWU_STAT.DONE 0 1
  let s := s.fset SEC_FWU_STAT.PAUSE_MS 0 ((s.time.now - s.fw.pauseT) / 1000000)
  let s := match s.fw.stagedEnt.find? fun e => decide (MFE.TYPE.of e = 4) with
    | some e => s.fset GCTL_RCLASS.MCODE 0 (MFE.MCODE_REV.of e)
    | none => s
  let s := s.putEntries s.fw.stagedEnt
  { s.fset GCTL_MGMT.HANDOVER 0 0 with
    fw := { s.fw with manifest := s.fw.staged, staged := [], stagedEnt := [], path := 0 } }

/-- An armed update whose count has come begins; one that has begun ends, with whether every unit signalled ready and the bytes of the Punty
buffer that were altered during the handover (R785, R787, R788). -/
def activationStep (ready : Bool) (alt : List (Nat × Nat)) (s : State) : State :=
  s.when s.hubUp fun s =>
    match s.fget SEC_FWU_STAT.STATE 0 with
    | 3 => if s.fw.tAct ≤ s.count then s.actStart else s
    | 4 => if !ready then s.actFail 0x0607 else if !s.puntyOk alt then s.actFail 0x0608 else s.actEnd
    | _ => s

/-- The ACTIVATION row. -/
def execActivation (ready : Bool) (alt : List (Nat × Nat)) (s : State) : Res := .next (activationStep ready alt s)

/-- An activation is not complete 30 ms after it began (R788). -/
def execActTimeout (s : State) : Res :=
  .next (s.when (s.pwr.on && s.pausing && decide (s.fw.pauseT + 30000000 ≤ s.time.now)) fun s => s.actFail 0x0607)

end Sys2Proof.Machine
end

