-- ==== Sys2Proof/Machine/Mgmt.lean ====
section
/-! DEFINITION. The management port: I3C common command codes, MCTP control, PLDM sensors, effecters and events, firmware transfer,
and the two views of a port (R824 to R841). -/
set_option autoImplicit false
namespace Sys2Proof.Machine

/-! ## The I3C targets (R824, R825) -/

/-- The static address on both buses (R825). -/
def State.staticAddr (s : State) : Nat := 0x30 + s.fget FAB_CTL.SLOT 0

/-- The provisional ID (R825). -/
def State.i3cPid (s : State) : Nat :=
  (0x4E4C <<< 33) + (0x0C12 <<< 16) + (s.fget FAB_CTL.TRAY 0 <<< 12) + (s.fget FAB_CTL.SLOT 0 <<< 10)

/-- The dynamic address on the management bus, or on the tray bus; 0 when none is assigned. -/
def State.dynAddr (s : State) (tb : Bool) : Nat :=
  if tb then s.mgmt.tbAddr else if s.fon GCTL_MGMT.DA_VALID 0 then s.fget GCTL_MGMT.DADDR 0 else 0

/-- The dynamic address assigned, or with 0 reset (R824, R838). -/
def State.setDyn (s : State) (tb : Bool) (da : Nat) : State :=
  if tb then { s with mgmt := { s.mgmt with tbAddr := da % 128 } }
  else (s.fset GCTL_MGMT.DADDR 0 da).fput GCTL_MGMT.DA_VALID 0 (decide (da % 128 ≠ 0))

/-- SETDASA to a static address: the target without a dynamic address takes it. -/
def execSetdasa (tb : Bool) (static da : Nat) (s : State) : Res :=
  .next (s.when (s.i3cUp && decide (static = s.staticAddr) && decide (s.dynAddr tb = 0)) fun s => s.setDyn tb da)

/-- ENTDAA, won by this target: it sends its provisional ID, BCR and DCR and takes the address. -/
def execEntdaa (tb : Bool) (da : Nat) (s : State) : Res :=
  .next (s.when (s.i3cUp && decide (s.dynAddr tb = 0)) fun s =>
    (s.emit (.reply (beBytes 6 s.i3cPid ++ leBytes 1 (Config.i3cBcr tb) ++ leBytes 1 (Config.i3cDcr tb)))).setDyn tb da)

/-- RSTDAA: the dynamic address is reset. -/
def execRstdaa (tb : Bool) (s : State) : Res := .next (s.when s.i3cUp fun s => s.setDyn tb 0)

/-- A directed read code is answered while the target has its dynamic address. -/
def State.i3cRead (s : State) (tb : Bool) (b : List Byte) : State :=
  s.when (s.i3cUp && decide (s.dynAddr tb ≠ 0)) fun s => s.emit (.reply b)

/-- GETPID: 48 bits, highest byte first. -/
def execGetpid (tb : Bool) (s : State) : Res := .next (s.i3cRead tb (beBytes 6 s.i3cPid))

/-- GETBCR; the spec gives the register no value (log 72). -/
def execGetbcr (tb : Bool) (s : State) : Res := .next (s.i3cRead tb (leBytes 1 (Config.i3cBcr tb)))

/-- GETDCR; as GETBCR. -/
def execGetdcr (tb : Bool) (s : State) : Res := .next (s.i3cRead tb (leBytes 1 (Config.i3cDcr tb)))

/-- GETMRL; the spec states no maximum (log 72). -/
def execGetmrl (tb : Bool) (s : State) : Res := .next (s.i3cRead tb (beBytes 2 (Config.i3cMrl tb)))

/-- GETMWL; as GETMRL. -/
def execGetmwl (tb : Bool) (s : State) : Res := .next (s.i3cRead tb (beBytes 2 (Config.i3cMwl tb)))

/-- In-band interrupts enabled or disabled: they exist on the management bus only. -/
def State.setIbi (s : State) (tb : Bool) (events : Nat) (on : Bool) : State :=
  s.when (s.i3cUp && !tb && events.testBit 0) fun s => { s with mgmt := { s.mgmt with ibi := on } }

/-- ENEC: bit 0 of the events enables in-band interrupts. -/
def execEnec (tb : Bool) (events : Nat) (s : State) : Res := .next (s.setIbi tb events true)

/-- DISEC: bit 0 of the events disables in-band interrupts. -/
def execDisec (tb : Bool) (events : Nat) (s : State) : Res := .next (s.setIbi tb events false)

/-! ## MCTP (R826) -/

/-- The port takes a message: the management bus has an address. -/
def State.mbUp (s : State) : Bool := s.i3cUp && s.fon GCTL_MGMT.DA_VALID 0

/-- An MCTP control message is answered when it is addressed to the null EID or to the module's own. -/
def State.ctlFor (s : State) (dest : Nat) : Bool := s.mbUp && (decide (dest = 0) || decide (dest = s.fget GCTL_MGMT.EID 0))

/-- Any other message is taken once an EID is assigned; a request wakes the module (R718). -/
def State.mbReq (s : State) (k : State → State) : State :=
  s.when (s.mbUp && decide (s.fget GCTL_MGMT.EID 0 ≠ 0)) fun s => k s.wake

/-- Whether an EID can be assigned: neither null nor broadcast (DSP0236). -/
def eidOk (e : Nat) : Bool := decide (1 ≤ e) && decide (e ≤ 254)

/-- Set Endpoint ID: the EID is assigned by its sender, the bus owner (R826, R837; the answer's layout is log 73). -/
def setEndpointIdStep (dest src eid : Nat) (s : State) : State :=
  s.when (s.ctlFor dest) fun s =>
    let s := s.wake
    if eidOk eid then
      let s := s.fset GCTL_MGMT.EID 0 eid
      { s with mgmt := { s.mgmt with busOwner := src } }.mgPut 1 (leBytes 1 1 ++ leBytes 1 0 ++ leBytes 1 0 ++ leBytes 1 eid)
    else s.mgPut 1 (leBytes 1 1 ++ leBytes 1 2)

/-- The SET_ENDPOINT_ID row. -/
def execSetEndpointId (dest src eid : Nat) (s : State) : Res := .next (setEndpointIdStep dest src eid s)

/-- Another control message: Get Endpoint ID and Get Message Type Support answer from what R826 says, the rest with a completion
code that the spec leaves open (log 73). -/
def mctpControlStep (dest code : Nat) (s : State) : State :=
  s.when (s.ctlFor dest) fun s =>
    let s := s.wake
    let hd := leBytes 1 code
    match code with
    | 2 => s.mgPut 1 (hd ++ leBytes 1 0 ++ leBytes 1 (s.fget GCTL_MGMT.EID 0))
    | 5 => s.mgPut 1 (hd ++ leBytes 1 0 ++ leBytes 1 3 ++ leBytes 3 0x050100)
    | _ => (s.mgPut 1 (hd ++ leBytes 1 (s.freeV 8))).drew

/-- The MCTP_CONTROL row. -/
def execMctpControl (dest code : Nat) (s : State) : Res := .next (mctpControlStep dest code s)

/-- What reading a message delivers. -/
def MgMsg.out (m : MgMsg) : Out :=
  match m.kind with
  | 3 => .event 0xF0 m.body
  | 5 => .event 0 m.body
  | _ => .reply m.body

/-- The rack manager reads a message: the last gasp ahead of any other while VAON holds, which is sure for 2 ms; else the oldest
one ready (R826, R832). -/
def messageReadStep (s : State) : State :=
  match s.pwr.gasp with
  | some (t, b) =>
    let s' := { s with pwr := { s.pwr with gasp := none } }
    if s.time.now ≤ t + 2000000 then s'.emit (.event 0xF1 b)
    else (if s.freeB then s'.emit (.event 0xF1 b) else s').drew
  | none =>
    match s.mgmt.queue with
    | [] => s
    | m :: r => s.when s.mbUp fun s => { s with mgmt := { s.mgmt with queue := r } }.emit m.out

/-- The MESSAGE_READ row. -/
def execMessageRead (s : State) : Res := .next (messageReadStep s)

/-! ## PLDM sensors and events (R827, R830) -/

/-- A PLDM answer: completion code and data (codes of DSP0240 and DSP0248, log 73). -/
def State.pldm (s : State) (code : Nat) (b : List Byte) : State := s.mgPut 2 (leBytes 1 code ++ b)

/-- The fields that a state sensor reports (R827). -/
def State.stateSensor (s : State) (id : Nat) : Option (List Nat) :=
  match id with
  | 0x100 => some [s.fget PWR_STATUS.BIND 0]
  | 0x101 => some [s.fget GCTL_BOOT_STAT.STEP 0, s.fget GCTL_BOOT_STAT.RESULT 0]
  | 0x102 => some [s.fget SPARE_ESC.WITHDRAWN 0]
  | 0x103 => some [s.fget SPARE_PAIR_STATE.ROLE 0]
  | 0x104 => some [s.fget SEC_FWU_STAT.STATE 0]
  | _ => if 0x200 ≤ id ∧ id < 0x216 then some [s.fget FAB_PORT.INSERV (id - 0x200)] else none

/-- A sensor is read; `iout` is what a rail's sensor measures now, in 0.1 A. -/
def getSensorReadingStep (id iout : Nat) (s : State) : State :=
  s.mbReq fun s =>
    let s := if 0x10 ≤ id ∧ id ≤ 0x1A then s.fset PWR_RAIL.IOUT (id - 0x10) iout else s
    match s.sensorVal id with
    | some v => s.pldm 0 (leBytes 8 v)
    | none =>
      match s.stateSensor id with
      | some l => s.pldm 0 (l.flatMap (leBytes 1))
      | none => s.pldm 0x80 []

/-- The GET_SENSOR_READING row. -/
def execGetSensorReading (id iout : Nat) (s : State) : Res := .next (getSensorReadingStep id iout s)

/-- Thresholds of a numeric sensor: the lowest and the highest reading that raise no event. -/
def setSensorThresholdsStep (id lo hi : Nat) (s : State) : State :=
  s.mbReq fun s =>
    if (s.sensorVal id).isSome then
      ({ s with mgmt := { s.mgmt with thresholds := tput s.mgmt.thresholds id (lo, hi) } }.pldm 0 []).senseAll
    else s.pldm 0x80 []

/-- The SET_SENSOR_THRESHOLDS row. -/
def execSetSensorThresholds (id lo hi : Nat) (s : State) : Res := .next (setSensorThresholdsStep id lo hi s)

/-- The event receiver, or none. -/
def setEventReceiverStep (en : Bool) (eid : Nat) (s : State) : State :=
  s.mbReq fun s => { s with mgmt := { s.mgmt with receiver := if en then some eid else none } }.pldm 0 []

/-- The SET_EVENT_RECEIVER row. -/
def execSetEventReceiver (en : Bool) (eid : Nat) (s : State) : Res := .next (setEventReceiverStep en eid s)

/-! ## PLDM effecters (R828, R829) -/

/-- A write of an effecter: out of its range ERROR_INVALID_DATA, not admitted ERROR_NOT_READY, else accepted and answered. -/
def State.effect (s : State) (inRange ready : Bool) (echo : List Byte) (k : State → State) : State :=
  s.mbReq fun s =>
    if !inRange then s.pldm 2 [] else if !ready then s.pldm 4 [] else (k s).pldm 0 echo

/-- A heartbeat (R692, R837): the watchdog is armed and fed, and the autonomous cap ends. -/
def State.heartbeat (s : State) : State :=
  let s := { s.fset PWR_RACK.HB_ARMED 0 1 with pwr := { s.pwr with hbT := s.time.now } }
  if s.fon PWR_RACK.AUTO 0 then (s.fset PWR_RACK.AUTO 0 0).recap else s

/-- HEARTBEAT is written: a heartbeat when the writer is the bus owner. -/
def heartbeatStep (src v : Nat) (s : State) : State :=
  s.effect (decide (v < 2 ^ 32)) true (leBytes 4 v) fun s => if src = s.mgmt.busOwner then s.heartbeat else s

/-- The HEARTBEAT row. -/
def execHeartbeat (src v : Nat) (s : State) : Res := .next (heartbeatStep src v s)

/-- The RCAP row (R691). -/
def execRcap (v : Nat) (s : State) : Res :=
  .next (s.effect (decide (v ≤ 4000)) true [] fun s => (s.fset PWR_RACK.RCAP 0 v).recap)

/-- OWNER is written: a bit that the management controller does not own may not change (R84, R85, R829). -/
def ownerStep (v : Nat) (s : State) : State :=
  s.mbReq fun s =>
    if 16 ≤ v then s.pldm 2 []
    else if s.ownerMay .mc v then (s.putRW .GCTL_OWNER 0 v).pldm 0 []
    else (s.fset GCTL_OWNER.REJ_MC 0 1).pldm 0x80 []

/-- The OWNER row. -/
def execOwner (v : Nat) (s : State) : Res := .next (ownerStep v s)

/-- A warm reset through the management port is admitted: not in PS4, and after a trip on a compute die only once every comparator
reads below 100 °C (R709). -/
def State.resetOk (s : State) (cool : Bool) : Bool :=
  decide (s.fget PWR_PSTATE.STATE 0 ≠ 4) && (decide (s.pwr.trip = 0) || (decide (s.pwr.trip = 1) && cool))

/-- The rails that a trip turned off come on again. -/
def State.tripRails (s : State) : State :=
  if s.pwr.trip = 0 then s else [0, 1, 2, 3, 4, 6].foldl (fun s r => s.note 3 r) s

/-- WARM_RESET is written; `cool` is whether every comparator reads below 100 °C. -/
def warmResetRow (v : Nat) (cool : Bool) (s : State) : State :=
  s.effect (decide (v = 1)) (s.resetOk cool) [] fun s => s.tripRails.warmReset

/-- The WARM_RESET row. -/
def execWarmReset (v : Nat) (cool : Bool) (s : State) : Res := .next (warmResetRow v cool s)

/-- The PS4_EXIT row (R719). -/
def execPs4Exit (v : Nat) (s : State) : Res :=
  .next (s.effect (decide (v = 1)) (decide (s.fget PWR_PSTATE.STATE 0 = 4)) [] State.leavePs4)

/-- The FW_TACT row. -/
def execFwTact (t : Nat) (s : State) : Res :=
  .next (s.effect (decide (t < 2 ^ 64)) true [] fun s => { s with mgmt := { s.mgmt with tact := t } })

/-- `DOWN_REQ` of a port is the host's hold or management's (R839). -/
def State.holdPort (s : State) (p : Nat) : State :=
  let held := s.mgmt.hostHold.testBit p || !(s.fget GCTL_MGMT.SERVE 0).testBit p
  ((s.fput FAB_PORT.DOWN_REQ p held).viewCheck p).portService p

/-- PORT_MGMT of a port is written: 0 HOLD, 1 SERVE (R839, R840). -/
def portMgmtStep (p v : Nat) (s : State) : State :=
  s.effect (decide (v ≤ 1)) true [] fun s =>
    let m := s.fget GCTL_MGMT.SERVE 0
    let m := if m.testBit p = decide (v = 1) then m else if v = 1 then m + 2 ^ p else m - 2 ^ p
    (s.fset GCTL_MGMT.SERVE 0 m).holdPort p

/-- The PORT_MGMT row. -/
def execPortMgmt (p v : Nat) (s : State) : Res := need (wfPort p) (portMgmtStep p v s)

/-! ## Firmware transfer (R833) -/

/-- A chunk of the bundle is pulled into the receive buffer; the last one starts staging. The whole bundle is at most 2^22 bytes,
and a transfer that the state does not admit, or that is refused, ends with ERROR_NOT_READY. -/
def requestFirmwareDataStep (off : Nat) (b : List Byte) (last : Bool) (s : State) : State :=
  s.mbReq fun s =>
    if s.fwuBusy 2 [0] then s.fwuReject.pldm 4 []
    else if off ≠ s.mgmt.fwBuf.length ∧ off ≠ 0 then s.pldm 2 []
    else
      let buf := (if off = 0 then [] else s.mgmt.fwBuf) ++ b
      if 4194304 < buf.length then s.pldm 2 []
      else if last then
        let s := { s with mgmt := { s.mgmt with fwBuf := [] } }.fwuStage 2 buf
        if s.fget SEC_FWU_STAT.STATE 0 = 1 then s.pldm 0 [] else s.pldm 4 []
      else { s with mgmt := { s.mgmt with fwBuf := buf } }.pldm 0 []

/-- The REQUEST_FIRMWARE_DATA row. -/
def execRequestFirmwareData (off : Nat) (b : List Byte) (last : Bool) (s : State) : Res :=
  .next (requestFirmwareDataStep off b last s)

/-- VerifyComplete: success only once staging has reached STAGED, failure when it ended IDLE. -/
def verifyCompleteStep (s : State) : State :=
  s.mbReq fun s =>
    match s.fget SEC_FWU_STAT.STATE 0 with
    | 1 => s
    | 2 => if s.fw.path = 2 then s.pldm 0 [] else s.pldm 4 []
    | _ => s.pldm 1 []

/-- The VERIFY_COMPLETE row. -/
def execVerifyComplete (s : State) : Res := .next (verifyCompleteStep s)

/-- ActivateFirmware: armed at FW_TACT or, when that is 0, 1 ms from now. -/
def activateFirmwareStep (s : State) : State :=
  s.mbReq fun s =>
    let s := s.fwuActivate 2 (if s.mgmt.tact = 0 then s.count + 1000000 else s.mgmt.tact)
    if s.fget SEC_FWU_STAT.STATE 0 = 3 ∧ s.fw.path = 2 then s.pldm 0 [] else s.pldm 4 []

/-- The ACTIVATE_FIRMWARE row. -/
def execActivateFirmware (s : State) : Res := .next (activateFirmwareStep s)

/-! ## Disagreement (R840) -/

/-- A port's disagreement has lasted more than 1 s. -/
def pathDisagreeStep (p : Nat) (s : State) : State :=
  let t := tget s.mgmt.disT p 0
  let d := s.fget GCTL_MGMT.DISAGREE 0
  s.when (s.i3cUp && s.disagrees p && decide (t ≠ 0) && decide (t + 1000000000 ≤ s.time.now) && !d.testBit p) fun s =>
    (s.fset GCTL_MGMT.DISAGREE 0 (d + 2 ^ p)).log { code := 0x0212, unit := p }

/-- The PATH_DISAGREE row. -/
def execPathDisagree (p : Nat) (s : State) : Res := need (wfPort p) (pathDisagreeStep p s)

end Sys2Proof.Machine
end

