-- ==== Sys2Proof/Machine/Spdm.lean ====
section
/-! DEFINITION. Attestation: the SPDM requests that the module answers, its measurements, and large responses in chunks (R754, R763 to
R765, R834). Message layouts are those of DSP0274 (log 74). -/
set_option autoImplicit false
namespace Sys2Proof.Machine

/-! ## Messages -/

/-- An SPDM 1.3 message: code, two parameters, and the rest. -/
def spdmMsg (code p1 p2 : Nat) (rest : List Byte) : List Byte :=
  leBytes 1 0x13 ++ leBytes 1 code ++ leBytes 1 p1 ++ leBytes 1 p2 ++ rest

/-- Bytes of a large response that one CHUNK_RESPONSE carries; the spec states no size (log 74). -/
def chunkLen : Nat := Config.spdmChunk % 65536 + 26

/-- The largest message that goes out whole. -/
def transferSize : Nat := chunkLen + 16

/-- An ERROR response. -/
def State.spdmError (s : State) (code data : Nat) (ext : List Byte) : State := s.mgPut 4 (spdmMsg 0x7F code data ext)

/-- A response goes out, or, being larger than one message, waits to be fetched in chunks (R834). -/
def State.spdmAnswer (s : State) (b : List Byte) : State :=
  if b.length ≤ transferSize then s.mgPut 4 b
  else
    let h := (s.sec.handle + 1) % 256
    { s with sec := { s.sec with large := b, handle := h, chunk := 0 } }.spdmError 0x0F 0 (leBytes 1 h)

/-- A request of a code, in an order that the connection's state admits; it ends any chunked response. -/
def State.spdmReq (s : State) (b : List Byte) (code : Nat) (inOrder : Bool) (k : State → State) : State :=
  s.when (decide (leAt b 1 1 = code)) fun s => s.mbReq fun s =>
    let s := { s with sec := { s.sec with large := [] } }
    if leAt b 0 1 ≠ (if code = 0x84 then 0x10 else 0x13) then s.spdmError 0x41 0 []
    else if inOrder then k s
    else s.spdmError 4 0 []

/-- How far the connection has come. -/
def State.spdmAt (s : State) (n : Nat) : Bool := decide (n ≤ s.sec.spdm)

/-! ## The certificate chain (R763) -/

/-- The chain of slot 0: its length, its root's hash, and the one certificate. -/
def State.certChain (s : State) : List Byte :=
  let c := Config.certificate idKey (s.fget GCTL_SERIAL.SERIAL 0)
  leBytes 2 (36 + c.length) ++ zeros 2 ++ sha256 c ++ c

/-! ## Measurements (R765) -/

/-- Two upper-case hexadecimal digits. -/
def hex2 (v : Nat) : List Byte :=
  let d (x : Nat) : Byte := BitVec.ofNat 8 (if x < 10 then 48 + x else 55 + x)
  [d (v / 16 % 16), d (v % 16)]

/-- The class string (R550). -/
def State.classString (s : State) : List Byte :=
  ascii "REPRO-" ++ hex2 (s.fget GCTL_RCLASS.ARITH 0) ++ ascii "." ++ hex2 (s.fget GCTL_RCLASS.ATT 0) ++ ascii "." ++
  hex2 (s.fget GCTL_RCLASS.COLL 0) ++ ascii "." ++ hex2 (s.fget GCTL_RCLASS.MCODE 0)

/-- The digest in effect of a component, then its security version or, for microcode, `MCODE`. -/
def State.fwMeas (s : State) (t : Nat) : List Byte :=
  let e := s.fwEntry t
  leBytes 32 (MFE.DIGEST.of e) ++ leBytes 1 (if t = 4 then s.fget GCTL_RCLASS.MCODE 0 else MFE.SVN.of e)

/-- What a block holds, and whether it is raw; the order of a raw block's fields is the table's, in whole bytes (log 75). -/
def State.measValue (s : State) (i : Nat) : List Byte × Bool :=
  match i with
  | 1 => (leBytes 32 Config.romHash, false)
  | 2 => (s.fwMeas 1, false)
  | 3 => (s.fwMeas 2, false)
  | 4 => (s.fwMeas 3, false)
  | 5 => (s.fwMeas 4, false)
  | 6 => (sha256 s.fw.manifest, false)
  | 7 => (leBytes 1 (s.fget SEC_LIFE.LCS 0) ++ leBytes 1 (s.fget SEC_LIFE.LCS_NEXT 0) ++
      leBytes 1 (s.fget SEC_LIFE.OWNER_BOUND 0) ++ leBytes 1 (s.fget SEC_LIFE.OWNER_LOCK 0) ++
      leBytes 32 (s.fget SEC_OWNER.OHASH 0) ++ (List.range 16).flatMap fun p => leBytes 1 (s.fget SEC_PART.DL p), true)
  | 8 => (leBytes 1 (s.fget CAL_STAT.ORIGIN 0) ++ (List.range 4).flatMap fun k => leBytes 8 (s.fget CAL_DIGEST.DIGEST k), true)
  | 9 => (s.classString, true)
  | 10 => (fixLen 32 s.boot.prHash, true)
  | 11 => (leBytes 4 (s.fget SEC_SVN.SVN 0), true)
  | 12 => (leBytes 2 (s.fget SEC_ID_STAT.EPOCH 0) ++ leBytes 1 (s.fget GCTL_BOOT_STAT.SAFE_MODE 0) ++
      leBytes 1 (s.fget GCTL_PART_ID.GRADE 0) ++ leBytes 1 (s.fget GCTL_PART_ID.STEP_LTR 0) ++
      leBytes 1 (s.fget GCTL_PART_ID.STEP_NUM 0), true)
  | _ => (sha256 (((List.range 16).flatMap fun p => leBytes 112 (s.regWord .SEC_PART p)) ++
      leBytes 32 (s.fget SEC_CL_WORLD.W 0)), false)

/-- A measurement block in DMTF format; the value's type is not stated (log 75). -/
def State.measBlock (s : State) (i : Nat) : List Byte :=
  let v := s.measValue i
  let t := Config.measType i % 128 + (if v.2 then 128 else 0)
  leBytes 1 i ++ leBytes 1 1 ++ leBytes 2 (v.1.length + 3) ++ leBytes 1 t ++ leBytes 2 v.1.length ++ v.1

/-- Every measurement block. -/
def State.allMeas (s : State) : List Byte := ((List.range 13).map (· + 1)).flatMap s.measBlock

/-! ## Signatures (R754, R764) -/

/-- What an SPDM signature covers: the prefix of DSP0274 with its context, and the transcript's hash. -/
def spdmSigned (context : String) (transcript : List Byte) : List Byte :=
  let v := ascii "dmtf-spdm-v1.3.*"
  let c := ascii context
  v ++ v ++ v ++ v ++ zeros (36 - c.length) ++ c ++ sha256 transcript

/-- A response that needs a signature over a transcript of which it is the end, or the error Unspecified. -/
def State.spdmSign (s : State) (context : String) (before b : List Byte) (k : State → State) : State :=
  match s.sign (spdmSigned context (before ++ b)) with
  | none => s.spdmError 5 0 []
  | some (sig, s) => (k s).spdmAnswer (b ++ sig)

/-! ## The requests (R763) -/

/-- The GET_VERSION row: a new connection begins. -/
def execGetVersion (b : List Byte) (s : State) : Res :=
  .next (s.spdmReq b 0x84 true fun s =>
    let r := leBytes 1 0x10 ++ leBytes 1 4 ++ zeros 2 ++ zeros 1 ++ leBytes 1 1 ++ leBytes 2 0x1300
    { s with sec := { s.sec with spdm := 1, transA := b ++ r, transB := [], transL := [] } }.spdmAnswer r)

/-- The GET_CAPABILITIES row: CERT, CHAL, MEAS with signature, MEAS_FRESH and CHUNK, and a CTExponent of 18 (R834). -/
def execGetCapabilities (b : List Byte) (s : State) : Res :=
  .next (s.spdmReq b 0xE1 (decide (s.sec.spdm = 1)) fun s =>
    let r := spdmMsg 0x61 0 0 (zeros 1 ++ leBytes 1 18 ++ zeros 2 ++ leBytes 4 0x20036 ++ leBytes 4 transferSize ++
      leBytes 4 (Config.spdmMax % 2 ^ 32))
    { s with sec := { s.sec with spdm := 2, transA := s.sec.transA ++ b ++ r } }.spdmAnswer r)

/-- The extended asymmetric algorithms that a request offers. -/
def offered (b : List Byte) : List Nat := (List.range (leAt b 28 1)).map fun i => leAt b (32 + 4 * i) 4

/-- The NEGOTIATE_ALGORITHMS row: SHA-256, DMTF measurements, and the identity key's algorithm alone, of what is offered. -/
def execNegotiateAlgorithms (b : List Byte) (s : State) : Res :=
  .next (s.spdmReq b 0xE3 (decide (s.sec.spdm = 2)) fun s =>
    let ext : List Byte := if (offered b).contains 0x4E4C0001 then leBytes 4 0x4E4C0001 else []
    let r := spdmMsg 0x63 0 0 (leBytes 2 (36 + ext.length) ++ leBytes 1 (leAt b 6 1 &&& 1) ++ zeros 1 ++ leBytes 4 2 ++ zeros 4 ++
      leBytes 4 (leAt b 12 4 &&& 1) ++ zeros 12 ++ leBytes 1 (ext.length / 4) ++ zeros 3 ++ ext)
    { s with sec := { s.sec with spdm := 3, transA := s.sec.transA ++ b ++ r } }.spdmAnswer r)

/-- The GET_DIGESTS row: slot 0 alone. -/
def execGetDigests (b : List Byte) (s : State) : Res :=
  .next (s.spdmReq b 0x81 (s.spdmAt 3) fun s =>
    let r := spdmMsg 1 1 1 (sha256 s.certChain)
    { s with sec := { s.sec with transB := s.sec.transB ++ b ++ r } }.spdmAnswer r)

/-- The GET_CERTIFICATE row: a portion of slot 0's chain. -/
def execGetCertificate (b : List Byte) (s : State) : Res :=
  .next (s.spdmReq b 0x82 (s.spdmAt 3) fun s =>
    let c := s.certChain
    let off := leAt b 4 2
    if leAt b 2 1 ≠ 0 ∨ c.length ≤ off then s.spdmError 1 0 []
    else
      let n := min (leAt b 6 2) (c.length - off)
      let r := spdmMsg 2 0 0 (leBytes 2 n ++ leBytes 2 (c.length - off - n) ++ slice c off n)
      { s with sec := { s.sec with transB := s.sec.transB ++ b ++ r } }.spdmAnswer r)

/-- The CHALLENGE row: slot 0, with the summary of every measurement when one is asked for. -/
def execChallenge (b : List Byte) (s : State) : Res :=
  .next (s.spdmReq b 0x83 (s.spdmAt 3) fun s =>
    if leAt b 2 1 ≠ 0 then s.spdmError 1 0 []
    else
      let sum := if leAt b 3 1 = 0 then [] else sha256 s.allMeas
      let r := spdmMsg 3 0 1 (sha256 s.certChain ++ s.secret 32 ++ sum ++ zeros 2 ++ slice b 36 8)
      s.drew.spdmSign "responder-challenge_auth signing" (s.sec.transA ++ s.sec.transB ++ b) r fun s =>
        { s with sec := { s.sec with transB := [] } })

/-- The measurement record that an operation asks for: the blocks' number and their bytes. -/
def State.measRecord (s : State) (op : Nat) : Option (Nat × List Byte) :=
  if op = 0 then some (0, [])
  else if op = 255 then some (13, s.allMeas)
  else if op ≤ 13 then some (1, s.measBlock op)
  else none

/-- The GET_MEASUREMENTS row: each block as it stands now, signed when a signature is asked for (R764, R765). -/
def execGetMeasurements (b : List Byte) (s : State) : Res :=
  .next (s.spdmReq b 0xE0 (s.spdmAt 3) fun s =>
    let sign := decide (leAt b 2 1 % 2 = 1)
    let op := leAt b 3 1
    match s.measRecord op with
    | none => s.spdmError 1 0 []
    | some (n, rec_) =>
      let r := spdmMsg 0x60 (if op = 0 then 13 else 0) 0 (leBytes 1 n ++ leBytes 3 rec_.length ++ rec_ ++ s.secret 32 ++ zeros 2 ++
        slice b (if sign then 37 else 4) 8)
      let s := s.drew
      if sign then
        s.spdmSign "responder-measurements signing" (s.sec.transA ++ s.sec.transL ++ b) r fun s =>
          { s with sec := { s.sec with transL := [] } }
      else { s with sec := { s.sec with transL := s.sec.transL ++ b ++ r } }.spdmAnswer r)

/-- CHUNK_GET: the next chunk of the large response under its handle (R834). -/
def chunkGetStep (b : List Byte) (s : State) : State :=
  s.when (decide (leAt b 1 1 = 0x86)) fun s => s.mbReq fun s =>
    let l := s.sec.large
    let k := s.sec.chunk
    if l = [] ∨ leAt b 3 1 ≠ s.sec.handle ∨ leAt b 4 2 ≠ k then s.spdmError 1 0 []
    else
      let c := slice l (k * chunkLen) chunkLen
      let last := decide (l.length ≤ (k + 1) * chunkLen)
      let size := if k = 0 then leBytes 4 l.length else []
      let r := spdmMsg 6 (b2n last) s.sec.handle (leBytes 2 k ++ zeros 2 ++ leBytes 4 c.length ++ size ++ c)
      { s with sec := { s.sec with large := if last then [] else l, chunk := k + 1 } }.mgPut 4 r

/-- The CHUNK_GET row. -/
def execChunkGet (b : List Byte) (s : State) : Res := .next (chunkGetStep b s)

end Sys2Proof.Machine
end

