-- ==== Sys2Proof/Machine/Access.lean ====
section
/-! DEFINITION. A register write by its place: which register, staging window, calibration area, token window, doorbell or MSI-X entry
an offset names, and the registers without a row of their own (R15, R326 to R329, R336, R356, R382, R388, R389, R398, R401, R415,
R423, R747, R873). -/
set_option autoImplicit false
namespace Sys2Proof.Machine

/-! ## Registers without a row of their own -/

/-- Whether a write to an endpoint's entry is rejected: entry 0 is read-only, and a partition and context must hold it (R382,
R736). -/
def State.epBad (s : State) (e v : Nat) : Bool :=
  let p := FAB_EP.PART.val v
  decide (e = 0) || (FAB_EP.VALID.bit v &&
    (!s.fon SEC_PART.VALID p || !(s.fget SEC_PART.EPM p).testBit e || !(s.fget SEC_PART.CTXM p).testBit (FAB_EP.CTX.val v)))

/-- Whether transport parameters are out of range (R401). -/
def xportBad (v : Nat) : Bool :=
  decide (FAB_XPORT.WIN.val v = 0) || decide (32 < FAB_XPORT.WIN.val v) || decide (FAB_XPORT.RTO.val v < 10) ||
  decide (FAB_XPORT.RETRY.val v = 0) || decide (FAB_XPORT.STALL.val v < 10) || decide (FAB_XPORT.IDLE.val v < 100)

/-- A write to `FAB_PORT`: `DOWN_REQ` sets or clears the host's hold alone, whatever management's is; a status write, one of the read-only
upper half among them, does nothing (R398, R839, R873). -/
def fabPortWrite (w : Who) (p v : Nat) (s : State) : State :=
  s.when (s.reaches w) fun s =>
    match s.barred w .FAB_PORT p v with
    | .none =>
      if s.isStatus .FAB_PORT p v then s.clrW1C .FAB_PORT p v else
      let s := (s.fset FAB_PORT.PMASK p (FAB_PORT.PMASK.val v)).fset FAB_PORT.S_OK p (FAB_PORT.S_OK.val v)
      let h := s.mgmt.hostHold
      let on := FAB_PORT.DOWN_REQ.bit v
      let h := if h.testBit p = on then h else if on then h + 2 ^ p else h - 2 ^ p
      { s with mgmt := { s.mgmt with hostHold := h } }.holdPort p
    | b => s.bar w .FAB_PORT p b

/-- A write to a register that no rule but the shared ones concerns: its RW fields take the value (R15, R873). -/
def plainWrite (w : Who) (r : Reg) (i v : Nat) (reject : State → Bool) (s : State) : State :=
  s.when (s.reaches w) fun s => s.regWrite w r i v reject fun s => s.putRW r i v

/-- A laser's check, when a write swaps one (R496). -/
def lanePctlPlain (w : Who) (p v : Nat) (s : State) : State :=
  if LANE_PCTL.LASER_SWAP.bit v then (lanePctlWrite w p v s.freeB s).drew else lanePctlWrite w p v true s

/-- A write of word k of element i of a register, as the whole element would stand. -/
def regPut (w : Who) (r : Reg) (i k v : Nat) (s : State) : State :=
  let x := bitsOf v (64 * k) 64
  match r with
  | .GCTL_ROLE => gctlRoleWriteStep w v s
  | .GCTL_OWNER => gctlOwnerWriteStep w v s
  | .GCTL_SEQTAB => gctlSeqtabWriteStep w i v s
  | .GCTL_BOOT_CTL => bootCtlWrite w v s
  | .TIME_CTL => timeCtlWriteStep w v s
  | .MEM_HOST => memHostWriteStep w v s
  | .MEM_RGN => regionEntryWriteStep w i k x s
  | .MEM_FILL_CTL => memFillGoStep w v s
  | .MEM_REPAIR_CMD => repairWrite w v s
  | .MEM_TRAIN => memTrainGoStep w v s
  | .CFE_RING_CMD => cfeRingCmdWriteStep w i v s
  | .CFE_RING_CPL => cfeRingCplWriteStep w i v s
  | .CTX_CFG => ctxCfgWriteStep w i v s
  | .CTX_CTL => ctxCtlWriteStep w i v s
  | .FAB_CTL => fabCtlWriteStep w v s
  | .FAB_EP => plainWrite w .FAB_EP i v (fun s => s.epBad i v) s
  | .FAB_LOCAL => plainWrite w .FAB_LOCAL i v (fun s => s.fon FAB_CTL.MODE 0) s
  | .FAB_RACK => plainWrite w .FAB_RACK i v (fun s => s.fon FAB_CTL.MODE 0) s
  | .FAB_XPORT => plainWrite w .FAB_XPORT i v (fun _ => xportBad v) s
  | .FAB_PORT => fabPortWrite w i v s
  | .LANE_PCTL => lanePctlPlain w i v s
  | .COLL_GRP => collGrpWriteStep w i k x s
  | .SPARE_FENCE => spareFenceWrite w v s
  | .SPARE_ABIND => spareAbindWriteStep w i v s
  | .SPARE_DUMP => spareDumpWrite w k x s
  | .SPARE_PAIR => sparePairWriteStep w v s
  | .SPARE_RESYNC => spareResyncWrite w v s
  | .PWR_POLICY => pwrPolicyWriteStep w v s
  | .PWR_PSTATE => pstateWrite w v s
  | .SEC_CL_WORLD => secClWorldWriteStep w k x s
  | .SEC_CMD => secCmdWrite w v s
  | .SEC_FWU_CTL => fwuCtlWrite w v s
  | .OBS_TRACE => traceSlotWriteStep w i k x s
  | .OBS_DUMP => dumpSlotWriteStep w i k x s
  | .OBS_FREEZE => freezeWrite w v s
  | r => plainWrite w r i v (fun _ => false) s

/-! ## Places (R327 to R329) -/

/-- The register, its element and the byte in it at an offset of BAR0. -/
def regAt (off : Nat) : Option (Reg × Nat × Nat) :=
  Reg.all.findSome? fun r =>
    let p := r.pos
    let first := p.blk.base + p.off
    if off < first then none
    else
      let i := if p.stride = 0 then 0 else (off - first) / p.stride
      let b := off - first - i * p.stride
      if i < p.count ∧ b < p.bytes then some (r, i, b) else none

/-- `n` bytes written at byte `b` of an element: the rest of it is written as it stands, with no W1C or W1S bit. -/
def State.elemPut (s : State) (r : Reg) (i b n v : Nat) : Nat := putBits (s.rwWord r i) (8 * b) (8 * n) v

/-- A write of 4 or 8 bytes at an offset that a register holds. -/
def regWriteAt (w : Who) (r : Reg) (i b n v : Nat) (s : State) : State := regPut w r i (b / 8) (s.elemPut r i b n v) s

/-- Whether an offset lies in a block whose world the requester does not have (R328). -/
def offWorld (off : Nat) : Bool := decide (Blk.sec.base ≤ off) && decide (off < Blk.sec.base + Blk.sec.size)

/-- An access that no register takes: one of an NS requester to the SEC block is logged, whatever its width or alignment (R328, R329). -/
def State.nowhere (s : State) (w : Who) (off : Nat) : State :=
  s.when (s.reaches w && decide (w = .ns) && offWorld off) fun s => s.logC 0x0503

/-- A write to the token window: 8 bytes at a time, while no security command runs (R759). -/
def tokenWrite (w : Who) (off n v : Nat) (s : State) : State :=
  s.when (s.reaches w && decide (w = .s) && !s.fon SEC_CMD.BUSY 0) fun s =>
    { s with sec := { s.sec with token := cellsWrite s.sec.token off (leBytes n v) } }

/-- The 8 bytes of a window around an offset, with `n` of them written. -/
def merged (m : List Host.Cell) (off n v : Nat) : Nat :=
  putBits (ofLE (cellsRead m (off / 8 * 8) 8)) (8 * (off % 8)) (8 * n) v

/-- A write at an offset of BAR0: the windows first, then doorbells (64 bits wide alone, R336), then registers. A 64-bit write over
32-bit registers is two writes (R329). -/
def barWrite (w : Who) (off n v : Nat) (s : State) : State :=
  if off % n ≠ 0 ∨ (w = .ns ∧ offWorld off = true) then s.nowhere w off
  else if 0x2000000 ≤ off then
    (if n ≠ 8 then s
     else
       let page := (off - 0x2000000) / 4096
       if off % 4096 = 0 then commandDoorbellStep w page v s
       else if off % 4096 = 8 then completionDoorbellStep w page v s
       else s)
  else
    let cal := off - Blk.cal.base
    let tok := off - (Blk.sec.base + 0x10000)
    if Blk.cal.base + 0x100000 ≤ off ∧ cal < 0x500000 then
      stagingWriteStep w ((cal - 0x100000) / 8 * 8) (merged s.boot.staging (cal - 0x100000) n v) s
    else if Blk.cal.base + 0x500000 ≤ off ∧ cal < 0x520000 then
      calibrationWriteStep w ((cal - 0x500000) / 8 * 8) (merged s.boot.cal (cal - 0x500000) n v) s
    else if Blk.sec.base + 0x10000 ≤ off ∧ tok < 0x8000 ∧ w = .s then tokenWrite w tok n v s
    else match regAt off with
      | some (r, i, b) =>
        if n = 8 ∧ r.pos.bytes = 4 then
          let s := regWriteAt w r i b 4 v s
          (match regAt (off + 4) with
           | some (q, j, c) => regWriteAt w q j c 4 (v / 2 ^ 32) s
           | none => s)
        else regWriteAt w r i b n v s
      | none =>
        match (if n = 8 then regAt (off + 4) else none) with
        | some (q, j, c) => regWriteAt w q j c 4 (v / 2 ^ 32) s
        | none => s

/-- What a read of one register at an offset delivers, where there is one. -/
def State.readAt (s : State) (w : Who) (off n : Nat) : Option Nat :=
  (regAt off).map fun e => bitsOf (s.viewOf w e.1 e.2.1) (8 * e.2.2) (8 * n)

/-- What a read of `n` bytes at an offset of BAR0 delivers, and what it leaves (R328, R329, R336, R646): windows that are write-only
read 0, the calibration area its bytes, and a 64-bit read over 32-bit registers both halves from one moment. The table of commands has
no row for it; the registers that reading clears have rows of their own. -/
def State.barRead (s : State) (w : Who) (off n : Nat) : Nat × State :=
  let cal := off - (Blk.cal.base + 0x500000)
  if s.reaches w = false then (0, s)
  else if (n ≠ 4 ∧ n ≠ 8) ∨ off % n ≠ 0 ∨ (w = .ns ∧ offWorld off = true) then (0, s.nowhere w off)
  else if Blk.cal.base + 0x500000 ≤ off ∧ cal < 0x20000 then (ofLE (cellsRead s.boot.cal cal n), s)
  else if n = 8 ∧ (regAt off).all (fun e => decide (e.1.pos.bytes = 4)) = true then
    ((s.readAt w off 4).getD 0 + (s.readAt w (off + 4) 4).getD 0 * 2 ^ 32, s)
  else ((s.readAt w off n).getD 0, s)

/-! ## The function's configuration space and BAR2 (R325) -/

/-- The class code of the function: processing accelerator. -/
def classCode : Nat := 0x120000

/-- Sizes of BAR0 and BAR2, and the MSI-X vectors. -/
def bar0Size : Nat := 64 * 2 ^ 20
/-- As above. -/
def bar2Size : Nat := 64 * 2 ^ 10
/-- As above. -/
def msixVectors : Nat := 2048

/-- A 32-bit word of configuration space: the spec states the class code and leaves the rest to the standard (R325, log 87). -/
def configRead (off : Nat) : Nat := if off = 8 then classCode * 256 + Config.cfgWord 8 % 256 else Config.cfgWord off % 2 ^ 32

/-- A 4-byte word of BAR2 as it reads: the MSI-X table, then from offset 0x8000 on the pending bits (R325, R356, log 7). -/
def State.bar2Word (s : State) (off : Nat) : Nat :=
  let vec := off / 16
  if off < 0x8000 then
    (if off / 4 % 4 = 3 then tget s.cfe.masked vec 1 else bitsOf (tget s.cfe.msiTab vec 0) (32 * (off / 4 % 4)) 32)
  else if off < 0x8000 + msixVectors / 8 then
    ((List.range 32).map fun i => tget s.cfe.msiPend (8 * (off - 0x8000) + i) 0 * 2 ^ i).foldl (· + ·) 0
  else 0

/-! ## MSI-X (R356; BAR2, log 7) -/

/-- A vector unmasked sends what is pending. -/
def State.unmask (s : State) (v : Nat) : State :=
  let s := { s with cfe := { s.cfe with masked := tset s.cfe.masked v 0 1 } }
  if tget s.cfe.msiPend v 0 = 1 then { s with cfe := { s.cfe with msiPend := tset s.cfe.msiPend v 0 0 } }.msix v else s

/-- A write of 4 bytes of the MSI-X table: words 0 to 2 of an entry are its address and data, word 3 its mask bit. -/
def msixWrite (off v : Nat) (s : State) : State :=
  let vec := off / 16
  if 2048 ≤ vec then s
  else match off / 4 % 4 with
    | 3 => if v % 2 = 0 then s.unmask vec else { s with cfe := { s.cfe with masked := tset s.cfe.masked vec 1 1 } }
    | k =>
      let e := putBits (tget s.cfe.msiTab vec 0) (32 * k) 32 v
      { s with cfe := { s.cfe with msiTab := tset s.cfe.msiTab vec e 0 } }

/-- A write at an offset of BAR2. -/
def bar2Write (w : Who) (off n v : Nat) (s : State) : State :=
  s.when (s.reaches w && (decide (w = .ns) || decide (w = .s)) && decide (off % n = 0)) fun s =>
    let s := msixWrite off v s
    if n = 8 then msixWrite (off + 4) (v / 2 ^ 32) s else s

/-! ## The row -/

/-- A register write of `n` bytes at an offset of BAR0, or of BAR2; only 4 or 8 bytes, naturally aligned, reach a register (R329). -/
def registerWriteStep (w : Who) (bar2 : Bool) (off n v : Nat) (s : State) : State :=
  if n ≠ 4 ∧ n ≠ 8 then (if bar2 then s else s.nowhere w off)
  else
    let v := v % 2 ^ (8 * n)
    if bar2 then bar2Write w off n v s else barWrite w off n v s

/-- The REGISTER_WRITE row (R873). -/
def execRegisterWrite (w : Who) (bar2 : Bool) (off n v : Nat) (s : State) : Res :=
  .next (registerWriteStep w bar2 off n v s)

end Sys2Proof.Machine
end

