-- ==== Sys2Proof/Machine/Dispatch.lean ====
section
/-! DEFINITION. One arm per command, each a direct call of its meaning. -/
namespace Sys2Proof.Machine

def exec (i : Instr) (s : State) : Host.Outcome State Fault Refusal :=
  match i with
  | .enRise => Sys2Proof.Machine.execEnRise s
  | .enFall => Sys2Proof.Machine.execEnFall s
  | .powerGood grade tray slot ucie => Sys2Proof.Machine.execPowerGood grade tray slot ucie s
  | .secfw w v => Sys2Proof.Machine.execSecfw w v s
  | .identity w v => Sys2Proof.Machine.execIdentity w v s
  | .record w v => Sys2Proof.Machine.execRecord w v s
  | .recordSafe w v => Sys2Proof.Machine.execRecordSafe w v s
  | .gather w v => Sys2Proof.Machine.execGather w v s
  | .selftest w v => Sys2Proof.Machine.execSelftest w v s
  | .cullet w v => Sys2Proof.Machine.execCullet w v s
  | .ready w v => Sys2Proof.Machine.execReady w v s
  | .bootStepEnd o => Sys2Proof.Machine.execBootStepEnd o s
  | .wreset w v => Sys2Proof.Machine.execWreset w v s
  | .stagingWrite w off v => Sys2Proof.Machine.execStagingWrite w off v s
  | .calibrationWrite w off v => Sys2Proof.Machine.execCalibrationWrite w off v s
  | .timingSyncSend p => Sys2Proof.Machine.execTimingSyncSend p s
  | .timingSync p rx turn => Sys2Proof.Machine.execTimingSync p rx turn s
  | .timingReq p rx => Sys2Proof.Machine.execTimingReq p rx s
  | .timingResp p rx => Sys2Proof.Machine.execTimingResp p rx s
  | .holdoverEntry => Sys2Proof.Machine.execHoldoverEntry s
  | .holdoverTimeout => Sys2Proof.Machine.execHoldoverTimeout s
  | .timePacketSend p => Sys2Proof.Machine.execTimePacketSend p s
  | .timeReceive p k => Sys2Proof.Machine.execTimeReceive p k s
  | .depthTimeout => Sys2Proof.Machine.execDepthTimeout s
  | .timeCtlWrite w v => Sys2Proof.Machine.execTimeCtlWrite w v s
  | .replicaCorrect d => Sys2Proof.Machine.execReplicaCorrect d s
  | .rateSample m => Sys2Proof.Machine.execRateSample m s
  | .armedAction k => Sys2Proof.Machine.execArmedAction k s
  | .gctlOwnerWrite w v => Sys2Proof.Machine.execGctlOwnerWrite w v s
  | .gctlRoleWrite w v => Sys2Proof.Machine.execGctlRoleWrite w v s
  | .roleTakesEffect => Sys2Proof.Machine.execRoleTakesEffect s
  | .commandDoorbell w page v => Sys2Proof.Machine.execCommandDoorbell w page v s
  | .completionDoorbell w page v => Sys2Proof.Machine.execCompletionDoorbell w page v s
  | .commandRead r hbm => Sys2Proof.Machine.execCommandRead r hbm s
  | .nop ring seq => Sys2Proof.Machine.execNop ring seq s
  | .launch ring seq => Sys2Proof.Machine.execLaunch ring seq s
  | .allreduce ring seq hbm => Sys2Proof.Machine.execAllreduce ring seq hbm s
  | .reduceScatter ring seq hbm => Sys2Proof.Machine.execReduceScatter ring seq hbm s
  | .allgather ring seq hbm => Sys2Proof.Machine.execAllgather ring seq hbm s
  | .triggered ring seq hbm => Sys2Proof.Machine.execTriggered ring seq hbm s
  | .coreDone lcore ring seq => Sys2Proof.Machine.execCoreDone lcore ring seq s
  | .doneMessage lcore ring seq => Sys2Proof.Machine.execDoneMessage lcore ring seq s
  | .cfeRingCmdWrite w r v => Sys2Proof.Machine.execCfeRingCmdWrite w r v s
  | .cfeRingCplWrite w r v => Sys2Proof.Machine.execCfeRingCplWrite w r v s
  | .ctxCfgWrite w c v => Sys2Proof.Machine.execCtxCfgWrite w c v s
  | .ctxCtlReset w c => Sys2Proof.Machine.execCtxCtlReset w c s
  | .ctxCtlResume w c => Sys2Proof.Machine.execCtxCtlResume w c s
  | .divClr w c => Sys2Proof.Machine.execDivClr w c s
  | .hangTimeout ring seq => Sys2Proof.Machine.execHangTimeout ring seq s
  | .contextResetDone c => Sys2Proof.Machine.execContextResetDone c s
  | .tmma lcore ring seq f => Sys2Proof.Machine.execTmma lcore ring seq f s
  | .vprog lcore ring seq f => Sys2Proof.Machine.execVprog lcore ring seq f s
  | .osmUpdate lcore ring seq f => Sys2Proof.Machine.execOsmUpdate lcore ring seq f s
  | .osmMerge lcore ring seq f => Sys2Proof.Machine.execOsmMerge lcore ring seq f s
  | .osmNorm lcore ring seq f => Sys2Proof.Machine.execOsmNorm lcore ring seq f s
  | .smove lcore ring seq f => Sys2Proof.Machine.execSmove lcore ring seq f s
  | .smovePartStart lcore ring seq k f => Sys2Proof.Machine.execSmovePartStart lcore ring seq k f s
  | .smovePartWritten lcore ring seq k => Sys2Proof.Machine.execSmovePartWritten lcore ring seq k s
  | .satomAdd lcore ring seq f => Sys2Proof.Machine.execSatomAdd lcore ring seq f s
  | .satomFadd lcore ring seq f => Sys2Proof.Machine.execSatomFadd lcore ring seq f s
  | .satomSwap lcore ring seq f => Sys2Proof.Machine.execSatomSwap lcore ring seq f s
  | .satomCas lcore ring seq f => Sys2Proof.Machine.execSatomCas lcore ring seq f s
  | .satomUmax lcore ring seq f => Sys2Proof.Machine.execSatomUmax lcore ring seq f s
  | .tsig lcore ring seq f => Sys2Proof.Machine.execTsig lcore ring seq f s
  | .tsigall lcore ring seq f => Sys2Proof.Machine.execTsigall lcore ring seq f s
  | .tread lcore ring seq f => Sys2Proof.Machine.execTread lcore ring seq f s
  | .loopb lcore ring seq f => Sys2Proof.Machine.execLoopb lcore ring seq f s
  | .loope lcore ring seq f => Sys2Proof.Machine.execLoope lcore ring seq f s
  | .skip lcore ring seq f => Sys2Proof.Machine.execSkip lcore ring seq f s
  | .endList lcore ring seq f => Sys2Proof.Machine.execEndList lcore ring seq f s
  | .fail lcore ring seq f => Sys2Proof.Machine.execFail lcore ring seq f s
  | .stamp lcore ring seq f => Sys2Proof.Machine.execStamp lcore ring seq f s
  | .aselect lcore ring seq f => Sys2Proof.Machine.execAselect lcore ring seq f s
  | .agather lcore ring seq f => Sys2Proof.Machine.execAgather lcore ring seq f s
  | .aquery lcore ring seq f => Sys2Proof.Machine.execAquery lcore ring seq f s
  | .akvship lcore ring seq f => Sys2Proof.Machine.execAkvship lcore ring seq f s
  | .descComplete lcore ring seq k steps => Sys2Proof.Machine.execDescComplete lcore ring seq k steps s
  | .tokenSignal n => Sys2Proof.Machine.execTokenSignal n s
  | .spareSubstitution site => Sys2Proof.Machine.execSpareSubstitution site s
  | .handshakeStall site ring seq pos iter => Sys2Proof.Machine.execHandshakeStall site ring seq pos iter s
  | .microcodeCheck site ring seq pos iter => Sys2Proof.Machine.execMicrocodeCheck site ring seq pos iter s
  | .hubEngineFault e => Sys2Proof.Machine.execHubEngineFault e s
  | .replayCommandEnd repro => Sys2Proof.Machine.execReplayCommandEnd repro s
  | .replayTmo => Sys2Proof.Machine.execReplayTmo s
  | .packetRoute arr a q => Sys2Proof.Machine.execPacketRoute arr a q s
  | .headerWaitTimeout n => Sys2Proof.Machine.execHeaderWaitTimeout n s
  | .packetSend id hbm ecc => Sys2Proof.Machine.execPacketSend id hbm ecc s
  | .put p hbm => Sys2Proof.Machine.execPut p hbm s
  | .getReq p => Sys2Proof.Machine.execGetReq p s
  | .getServe n => Sys2Proof.Machine.execGetServe n s
  | .getResp p hbm => Sys2Proof.Machine.execGetResp p hbm s
  | .ack p => Sys2Proof.Machine.execAck p s
  | .nack p hbm ecc => Sys2Proof.Machine.execNack p hbm ecc s
  | .atomic p hbm => Sys2Proof.Machine.execAtomic p hbm s
  | .mgmt p => Sys2Proof.Machine.execMgmt p s
  | .rtoTimeout ep dmod dep seq hbm ecc => Sys2Proof.Machine.execRtoTimeout ep dmod dep seq hbm ecc s
  | .windowStall ep dmod dep => Sys2Proof.Machine.execWindowStall ep dmod dep s
  | .voidStall ep dmod dep => Sys2Proof.Machine.execVoidStall ep dmod dep s
  | .streamIdle smod sep dep => Sys2Proof.Machine.execStreamIdle smod sep dep s
  | .sourceStreamRelease ep dmod dep => Sys2Proof.Machine.execSourceStreamRelease ep dmod dep s
  | .fabCtlWrite w v => Sys2Proof.Machine.execFabCtlWrite w v s
  | .query p hbm => Sys2Proof.Machine.execQuery p hbm s
  | .queryServe n hbm => Sys2Proof.Machine.execQueryServe n hbm s
  | .queryStaleTimeout n => Sys2Proof.Machine.execQueryStaleTimeout n s
  | .shardQuerySend n => Sys2Proof.Machine.execShardQuerySend n s
  | .qrespPartial p => Sys2Proof.Machine.execQrespPartial p s
  | .qtoExpiry n => Sys2Proof.Machine.execQtoExpiry n s
  | .kvShipment p hbm => Sys2Proof.Machine.execKvShipment p hbm s
  | .kvack p => Sys2Proof.Machine.execKvack p s
  | .gctlSeqtabWrite w p v => Sys2Proof.Machine.execGctlSeqtabWrite w p v s
  | .memHostWrite w v => Sys2Proof.Machine.execMemHostWrite w v s
  | .cxlMemRead x hbm => Sys2Proof.Machine.execCxlMemRead x hbm s
  | .cxlMemWrite x b en => Sys2Proof.Machine.execCxlMemWrite x b en s
  | .regionEntryWrite w e k v => Sys2Proof.Machine.execRegionEntryWrite w e k v s
  | .regionChangeApplied => Sys2Proof.Machine.execRegionChangeApplied s
  | .memFillGo w v => Sys2Proof.Machine.execMemFillGo w v s
  | .fillDone => Sys2Proof.Machine.execFillDone s
  | .repairRemapRow w stack pc row => Sys2Proof.Machine.execRepairRemapRow w stack pc row s
  | .repairSubstitutePc w stack pc => Sys2Proof.Machine.execRepairSubstitutePc w stack pc s
  | .repairLoadRowRemap w stack pc row => Sys2Proof.Machine.execRepairLoadRowRemap w stack pc row s
  | .repairDone sppr lost => Sys2Proof.Machine.execRepairDone sppr lost s
  | .memTrainGo w v => Sys2Proof.Machine.execMemTrainGo w v s
  | .trainStackDone k pcs cmdFail lost => Sys2Proof.Machine.execTrainStackDone k pcs cmdFail lost s
  | .hbmRefresh k temp => Sys2Proof.Machine.execHbmRefresh k temp s
  | .memStkStatusRead w k ce => Sys2Proof.Machine.execMemStkStatusRead w k ce s
  | .trainGo w p v ok => Sys2Proof.Machine.execTrainGo w p v ok s
  | .forceOut w p v ok => Sys2Proof.Machine.execForceOut w p v ok s
  | .laserSwap w p v ok => Sys2Proof.Machine.execLaserSwap w p v ok s
  | .loop w p v ok => Sys2Proof.Machine.execLoop w p v ok s
  | .laneLs2Req w p v ok => Sys2Proof.Machine.execLaneLs2Req w p v ok s
  | .signalDetect p l => Sys2Proof.Machine.execSignalDetect p l s
  | .alignTimeout p l => Sys2Proof.Machine.execAlignTimeout p l s
  | .status p l chars => Sys2Proof.Machine.execStatus p l chars s
  | .statusSend p => Sys2Proof.Machine.execStatusSend p s
  | .train p l chars => Sys2Proof.Machine.execTrain p l chars s
  | .equaliseTimeout p l => Sys2Proof.Machine.execEqualiseTimeout p l s
  | .deskew p skews => Sys2Proof.Machine.execDeskew p skews s
  | .gateEnd p runs => Sys2Proof.Machine.execGateEnd p runs s
  | .mapReq p rx => Sys2Proof.Machine.execMapReq p rx s
  | .mapSwitch p rx => Sys2Proof.Machine.execMapSwitch p rx s
  | .ls1Idle p idleUs => Sys2Proof.Machine.execLs1Idle p idleUs s
  | .ls1Req p rx idle => Sys2Proof.Machine.execLs1Req p rx idle s
  | .ls1Ack p rx => Sys2Proof.Machine.execLs1Ack p rx s
  | .ls1Exit p => Sys2Proof.Machine.execLs1Exit p s
  | .wake p rx => Sys2Proof.Machine.execWake p rx s
  | .ls2Req p rx => Sys2Proof.Machine.execLs2Req p rx s
  | .ls2Ack p rx => Sys2Proof.Machine.execLs2Ack p rx s
  | .feReq p rx => Sys2Proof.Machine.execFeReq p rx s
  | .feAck p rx => Sys2Proof.Machine.execFeAck p rx s
  | .feRefuse p rx => Sys2Proof.Machine.execFeRefuse p rx s
  | .feEnd p rx => Sys2Proof.Machine.execFeEnd p rx s
  | .retrain p rx => Sys2Proof.Machine.execRetrain p rx s
  | .noticeLaserSwap p rx ok => Sys2Proof.Machine.execNoticeLaserSwap p rx ok s
  | .noticeRepeat p code => Sys2Proof.Machine.execNoticeRepeat p code s
  | .laneCredit p rx q => Sys2Proof.Machine.execLaneCredit p rx q s
  | .creditSend p pool => Sys2Proof.Machine.execCreditSend p pool s
  | .laneFail p l cause reading => Sys2Proof.Machine.execLaneFail p l cause reading s
  | .lanePstatRead w p => Sys2Proof.Machine.execLanePstatRead w p s
  | .laneMonRead w p l chars => Sys2Proof.Machine.execLaneMonRead w p l chars s
  | .eyeMeasure p l h v => Sys2Proof.Machine.execEyeMeasure p l h v s
  | .optMonitor p l rx tx refl bias => Sys2Proof.Machine.execOptMonitor p l rx tx refl bias s
  | .hello p b => Sys2Proof.Machine.execHello p b s
  | .encapsulationKey p ek sig => Sys2Proof.Machine.execEncapsulationKey p ek sig s
  | .kemCiphertext p ct sig => Sys2Proof.Machine.execKemCiphertext p ct sig s
  | .finished p b => Sys2Proof.Machine.execFinished p b s
  | .linkRekey p => Sys2Proof.Machine.execLinkRekey p s
  | .collGrpWrite w g k v => Sys2Proof.Machine.execCollGrpWrite w g k v s
  | .pieceSend g q ph k p => Sys2Proof.Machine.execPieceSend g q ph k p s
  | .rsData p hbm => Sys2Proof.Machine.execRsData p hbm s
  | .agData p => Sys2Proof.Machine.execAgData p s
  | .pieceWrite g q ph k p => Sys2Proof.Machine.execPieceWrite g q ph k p s
  | .collReady p => Sys2Proof.Machine.execCollReady p s
  | .collCredit p => Sys2Proof.Machine.execCollCredit p s
  | .collTput p hbm => Sys2Proof.Machine.execCollTput p hbm s
  | .collTsig p => Sys2Proof.Machine.execCollTsig p s
  | .topNop g q idx => Sys2Proof.Machine.execTopNop g q idx s
  | .topPut g q idx hbm => Sys2Proof.Machine.execTopPut g q idx hbm s
  | .topGet g q idx hbm => Sys2Proof.Machine.execTopGet g q idx hbm s
  | .topReduce g q idx hbm => Sys2Proof.Machine.execTopReduce g q idx hbm s
  | .topSignal g q idx hbm => Sys2Proof.Machine.execTopSignal g q idx hbm s
  | .topComplete g q idx => Sys2Proof.Machine.execTopComplete g q idx s
  | .collStall g q => Sys2Proof.Machine.execCollStall g q s
  | .earlyEntryExpiry n => Sys2Proof.Machine.execEarlyEntryExpiry n s
  | .wearReading site ps tj => Sys2Proof.Machine.execWearReading site ps tj s
  | .spareFenceGo w v => Sys2Proof.Machine.execSpareFenceGo w v s
  | .spareFenceCancel w v => Sys2Proof.Machine.execSpareFenceCancel w v s
  | .drainComplete site => Sys2Proof.Machine.execDrainComplete site s
  | .spareAbindWrite w g v => Sys2Proof.Machine.execSpareAbindWrite w g v s
  | .abort arr p => Sys2Proof.Machine.execAbort arr p s
  | .elogNotify => Sys2Proof.Machine.execElogNotify s
  | .dumpTake w v => Sys2Proof.Machine.execDumpTake w v s
  | .captureDone => Sys2Proof.Machine.execCaptureDone s
  | .dumpUsedClear w v => Sys2Proof.Machine.execDumpUsedClear w v s
  | .dumpXgo w v => Sys2Proof.Machine.execDumpXgo w v s
  | .dumpCopyDone => Sys2Proof.Machine.execDumpCopyDone s
  | .sparePairWrite w v => Sys2Proof.Machine.execSparePairWrite w v s
  | .renewSend => Sys2Proof.Machine.execRenewSend s
  | .renew p => Sys2Proof.Machine.execRenew p s
  | .grant p => Sys2Proof.Machine.execGrant p s
  | .leaseExpiry => Sys2Proof.Machine.execLeaseExpiry s
  | .promotionTimeout => Sys2Proof.Machine.execPromotionTimeout s
  | .resyncGo w v prole => Sys2Proof.Machine.execResyncGo w v prole s
  | .resyncFrame p => Sys2Proof.Machine.execResyncFrame p s
  | .resyncPass => Sys2Proof.Machine.execResyncPass s
  | .resyncSwitch w v => Sys2Proof.Machine.execResyncSwitch w v s
  | .resyncSwitchDone st => Sys2Proof.Machine.execResyncSwitchDone st s
  | .resyncFail lost => Sys2Proof.Machine.execResyncFail lost s
  | .vinSample v p bank => Sys2Proof.Machine.execVinSample v p bank s
  | .holdTimeout => Sys2Proof.Machine.execHoldTimeout s
  | .railLimit r => Sys2Proof.Machine.execRailLimit r s
  | .phaseFenced r ph => Sys2Proof.Machine.execPhaseFenced r ph s
  | .railFault r => Sys2Proof.Machine.execRailFault r s
  | .pwrPolicyWrite w v => Sys2Proof.Machine.execPwrPolicyWrite w v s
  | .heartbeatLoss => Sys2Proof.Machine.execHeartbeatLoss s
  | .floorRecompute f => Sys2Proof.Machine.execFloorRecompute f s
  | .thermalUpdate => Sys2Proof.Machine.execThermalUpdate s
  | .throttle d => Sys2Proof.Machine.execThrottle d s
  | .sensorSample h a b dpa dpb => Sys2Proof.Machine.execSensorSample h a b dpa dpb s
  | .thermTrip h => Sys2Proof.Machine.execThermTrip h s
  | .adaptChoice e => Sys2Proof.Machine.execAdaptChoice e s
  | .loadHint k other pred => Sys2Proof.Machine.execLoadHint k other pred s
  | .coolStale => Sys2Proof.Machine.execCoolStale s
  | .trayFrame b => Sys2Proof.Machine.execTrayFrame b s
  | .idleEntry idleNs quietNs want => Sys2Proof.Machine.execIdleEntry idleNs quietNs want s
  | .powerWake => Sys2Proof.Machine.execPowerWake s
  | .ps4Req w v => Sys2Proof.Machine.execPs4Req w v s
  | .pwrRailRead w r vout iout => Sys2Proof.Machine.execPwrRailRead w r vout iout s
  | .pwrEvtRead w => Sys2Proof.Machine.execPwrEvtRead w s
  | .partOpen w v => Sys2Proof.Machine.execPartOpen w v s
  | .partClose w v => Sys2Proof.Machine.execPartClose w v s
  | .moveCluster w v => Sys2Proof.Machine.execMoveCluster w v s
  | .moveContext w v => Sys2Proof.Machine.execMoveContext w v s
  | .moveEndpoint w v => Sys2Proof.Machine.execMoveEndpoint w v s
  | .moveKeyslot w v => Sys2Proof.Machine.execMoveKeyslot w v s
  | .scrub w v => Sys2Proof.Machine.execScrub w v s
  | .setDl w v => Sys2Proof.Machine.execSetDl w v s
  | .unlock w v => Sys2Proof.Machine.execUnlock w v s
  | .ownerLock w v => Sys2Proof.Machine.execOwnerLock w v s
  | .ownerBind w v => Sys2Proof.Machine.execOwnerBind w v s
  | .lifecycle w v => Sys2Proof.Machine.execLifecycle w v s
  | .secCmdDone => Sys2Proof.Machine.execSecCmdDone s
  | .secClWorldWrite w k v => Sys2Proof.Machine.execSecClWorldWrite w k v s
  | .trngHealthFail => Sys2Proof.Machine.execTrngHealthFail s
  | .getVersion b => Sys2Proof.Machine.execGetVersion b s
  | .getCapabilities b => Sys2Proof.Machine.execGetCapabilities b s
  | .negotiateAlgorithms b => Sys2Proof.Machine.execNegotiateAlgorithms b s
  | .getDigests b => Sys2Proof.Machine.execGetDigests b s
  | .getCertificate b => Sys2Proof.Machine.execGetCertificate b s
  | .challenge b => Sys2Proof.Machine.execChallenge b s
  | .getMeasurements b => Sys2Proof.Machine.execGetMeasurements b s
  | .chunkGet b => Sys2Proof.Machine.execChunkGet b s
  | .fwuStage w v => Sys2Proof.Machine.execFwuStage w v s
  | .stagingDone copies => Sys2Proof.Machine.execStagingDone copies s
  | .fwuActivate w v => Sys2Proof.Machine.execFwuActivate w v s
  | .fwuAbandon w v => Sys2Proof.Machine.execFwuAbandon w v s
  | .svnCommit w v => Sys2Proof.Machine.execSvnCommit w v s
  | .activation ready alt => Sys2Proof.Machine.execActivation ready alt s
  | .actTimeout => Sys2Proof.Machine.execActTimeout s
  | .traceSlotWrite w k j v => Sys2Proof.Machine.execTraceSlotWrite w k j v s
  | .dumpSlotWrite w k j v => Sys2Proof.Machine.execDumpSlotWrite w k j v s
  | .freezeGo w v => Sys2Proof.Machine.execFreezeGo w v s
  | .freeze p rx => Sys2Proof.Machine.execFreeze p rx s
  | .frozen => Sys2Proof.Machine.execFrozen s
  | .freezeTimeout => Sys2Proof.Machine.execFreezeTimeout s
  | .freezeResume w v => Sys2Proof.Machine.execFreezeResume w v s
  | .obsPortRead w p => Sys2Proof.Machine.execObsPortRead w p s
  | .obsHubRead w => Sys2Proof.Machine.execObsHubRead w s
  | .setdasa tb static da => Sys2Proof.Machine.execSetdasa tb static da s
  | .entdaa tb da => Sys2Proof.Machine.execEntdaa tb da s
  | .rstdaa tb => Sys2Proof.Machine.execRstdaa tb s
  | .getpid tb => Sys2Proof.Machine.execGetpid tb s
  | .getbcr tb => Sys2Proof.Machine.execGetbcr tb s
  | .getdcr tb => Sys2Proof.Machine.execGetdcr tb s
  | .getmrl tb => Sys2Proof.Machine.execGetmrl tb s
  | .getmwl tb => Sys2Proof.Machine.execGetmwl tb s
  | .enec tb events => Sys2Proof.Machine.execEnec tb events s
  | .disec tb events => Sys2Proof.Machine.execDisec tb events s
  | .setEndpointId dest src eid => Sys2Proof.Machine.execSetEndpointId dest src eid s
  | .mctpControl dest code => Sys2Proof.Machine.execMctpControl dest code s
  | .messageRead => Sys2Proof.Machine.execMessageRead s
  | .getSensorReading id iout => Sys2Proof.Machine.execGetSensorReading id iout s
  | .setSensorThresholds id lo hi => Sys2Proof.Machine.execSetSensorThresholds id lo hi s
  | .setEventReceiver en eid => Sys2Proof.Machine.execSetEventReceiver en eid s
  | .heartbeat src v => Sys2Proof.Machine.execHeartbeat src v s
  | .rcap v => Sys2Proof.Machine.execRcap v s
  | .owner v => Sys2Proof.Machine.execOwner v s
  | .warmReset v cool => Sys2Proof.Machine.execWarmReset v cool s
  | .ps4Exit v => Sys2Proof.Machine.execPs4Exit v s
  | .fwTact t => Sys2Proof.Machine.execFwTact t s
  | .portMgmt p v => Sys2Proof.Machine.execPortMgmt p v s
  | .requestFirmwareData off b last => Sys2Proof.Machine.execRequestFirmwareData off b last s
  | .verifyComplete => Sys2Proof.Machine.execVerifyComplete s
  | .activateFirmware => Sys2Proof.Machine.execActivateFirmware s
  | .pathDisagree p => Sys2Proof.Machine.execPathDisagree p s
  | .registerWrite w bar2 off n v => Sys2Proof.Machine.execRegisterWrite w bar2 off n v s
  | .skipColumn p rx => Sys2Proof.Machine.execSkipColumn p rx s
  | .ucieModuleFail m => Sys2Proof.Machine.execUcieModuleFail m s
  | .trngStartupPass => Sys2Proof.Machine.execTrngStartupPass s
  | .substitutionDone site wakeOk => Sys2Proof.Machine.execSubstitutionDone site wakeOk s
  | .investigationSelftestDone pass => Sys2Proof.Machine.execInvestigationSelftestDone pass s

end Sys2Proof.Machine
end

