-- ==== Sys2Proof/Machine/Step.lean ====
section
/-! DEFINITION. One step: the command at the front of the queue acts; on an empty queue a nanosecond passes (log 5). -/
set_option autoImplicit false
namespace Sys2Proof.Machine

/-- The state without the command at the front of its queue. -/
def State.rest (s : State) (q : List Instr) : State := { s with pending := q }

/-- One step of the module. -/
def step (s : State) : Host.Outcome State Fault Refusal :=
  match s.pending with
  | [] => .next s.tick
  | c :: q => exec c (s.rest q)

/-- The state with the command that a word spells put at the front of its queue; as it is, since no word spells one. -/
def State.withFetchWord (s : State) (nbits w : Nat) : State :=
  match decodeTableWord nbits w with
  | some c => { s with pending := c :: s.pending }
  | none => s

end Sys2Proof.Machine
end

