-- ==== Sys2Proof/Safety.lean ====
section
/-! DEFINITION. The terms the statements use: that a command is taken and what it leaves, and which registers it leaves alone. -/
set_option autoImplicit false
namespace Sys2Proof.Machine

/-- The command is taken, and what it leaves satisfies `P`. -/
def Gives (c : Instr) (s : State) (P : State → Prop) : Prop := ∃ t, exec c s = .next t ∧ P t

/-- Every field of every register outside `rs`, at every index, reads in `t` as in `s`. -/
def State.sameRegsBut (s t : State) (rs : List Reg) : Prop :=
  ∀ r, r ∉ rs → ∀ f ∈ r.fields, ∀ i, i < 65536 → t.fget f i = s.fget f i

/-- A packet that carries a whole message of its own passes the steps of R411 on destination stream `t`: nothing refuses it, it is
no duplicate, no VOID, and no packet of its message has come before. -/
structure State.Takes (s : State) (p : Pkt) (t : DStream) : Prop where
  hub   : s.hubUp = true
  en    : s.fon FAB_CTL.EN 0 = true
  sound : pktSound p = true
  meant : s.depOf p = 0 ∨ (s.fget SPARE_PAIR_STATE.ROLE 0 ≠ 4 ∧ s.scrubbingEp (s.depOf p) = false)
  entry : s.entryFor p = some t
  fresh : t.isDup (PH.SSEQ.of p.hdr) = false
  code  : s.endpointCode p = 0
  live  : (t.exhume (PH.MSGID.of p.hdr)).dead.contains (PH.MSGID.of p.hdr, isResp p) = false
  first : ∀ m ∈ s.fab.msgs, m.isOf t (PH.MSGID.of p.hdr) (isResp p) = false
  room  : s.fab.msgs.length < 16384
  whole : PH.MTLEN.of p.hdr = p.pay.length
  real  : isVoid p = false

/-- The packet's message is counted as done at its endpoint, and the packet acknowledged (R403, R411, R413). -/
def State.settled (s : State) (p : Pkt) (t : DStream) : State :=
  (s.fset FAB_EPCNT.DONE t.dep (s.fget FAB_EPCNT.DONE t.dep + 1)).finish p (t.exhume (PH.MSGID.of p.hdr)) 0

/-- The bytes of a message whose one packet is `p`, in their places. -/
def pktKept (p : Pkt) : List Byte := cellsRead (cellsWrite [] (PH.RADDR.of p.hdr) p.pay) 0 p.pay.length

/-- The next descriptor `d` of the work list `r` has passed the checks of R868, its list is ready and has its core's turn, and the
command is not being replayed: it fires now (R27, R172 to R187). -/
structure State.Fires (s : State) (lcore ring seq op : Nat) (f : FireIn) (r : Rsd) (d : Nat) : Prop where
  isCore : lcore < 2048
  isRing : ring < 8192
  found : s.rsd lcore ring seq = some r
  may   : s.mayFire r = true
  next  : r.next = some d
  op    : DESC.OPCODE.of d = op
  turn  : s.granted r.lcore = some r
  real  : s.replaying r.ring r.seq = false
  clean : f.hbm = [] ∧ f.ecc = .clean

/-- The list `r` has become ready to judge its next descriptor `d`: it is prefetched, passes the checks of R868, and its conditions
hold. -/
structure State.Becomes (s : State) (r : Rsd) (d : Nat) : Prop where
  may   : s.mayFire r = true
  open_ : r.next = none ∧ r.won = none
  more  : r.pos < r.wlLen
  held  : (s.fillBuf r).1 = s ∧ tfind (s.fillBuf r).2.buf r.pos = some d
  sound : (s.descCheck (s.fillBuf r).2 d).code = 0
  met   : (s.fillBuf r).2.met d = true

/-- What arrives on a port's lanes reads, on every lane that reads clean, as the sequence with symbol `k` and the data characters `d`;
`h` is the state once it has been read (R439, R442). -/
structure State.Hears (s : State) (p k n : Nat) (rx : List (List Nat)) (d : List Nat) (h : State) : Prop where
  hears : s.hears p = true
  agree : (agreed ((s.hear p (s.rxLanes p) rx).1.map cleanSyms)).bind (seqData k n) = some d
  after : h = if k = kFREEZE then (s.hear p (s.rxLanes p) rx).2 else (s.hear p (s.rxLanes p) rx).2.noFreeze p

/-- The router has taken note of the queues' depths and, on an optical port, of the packet's counter (R391, R752). -/
def State.heeds (s : State) (arr : Nat) (q : List Nat) (ctr : Nat) : State :=
  let t := s.setDepths q
  if isG arr then { t with fab := { t.fab with linkRx := tset t.fab.linkRx arr ctr 0, linkBad := tset t.fab.linkBad arr 0 0 } } else t

/-- What every step keeps of the module's memories (device memory, core store, staging, calibration and token window) and its fuses, for
any `n` and `v`: each memory is in its canonical form; at least `n` boot epochs are burned and at most 32,768 (R755); and of each
component's 64 security version fuses at least `v` of it are burned (R778, R779). -/
structure InvOf (bytes cs staging cal token : List Host.Cell) (f : FuseSt) (n : Nat) (v : Nat → Nat) : Prop where
  mem     : Memory.wf bytes = true
  cs      : Memory.wf cs = true
  staging : Memory.wf staging = true
  cal     : Memory.wf cal = true
  token   : Memory.wf token = true
  epochs  : n ≤ f.epochs ∧ f.epochs ≤ 32768
  svn     : ∀ t, 1 ≤ t → t ≤ 4 → v t ≤ bitsOf f.svn (8 * (t - 1)) 8 ∧ bitsOf f.svn (8 * (t - 1)) 8 ≤ 64

/-- The invariant of a state. -/
def State.Inv (s : State) (n : Nat) (v : Nat → Nat) : Prop :=
  InvOf s.mem.bytes s.core.cs s.boot.staging s.boot.cal s.sec.token s.fuse n v

end Sys2Proof.Machine
end

