-- ==== Sys2Proof/Certificates/Slice0/Obligations.lean ====
section
/-! DEFINITION. The statements for the provers, family by family of the command table and then of the whole machine. -/
set_option autoImplicit false
open Sys2Proof Sys2Proof.Machine

/-- TIMING_SYNC_SEND, TIMING_SYNC and TIMING_REQ, each with its whole next state, and TIMING_RESP: the exchange is recorded, and each state
of the timebase takes its offset as R65 to R68 say. The calibrated asymmetry is an operand here, since what a word of it takes off is
free; what a count's load does to the timers' clocks is the model's choice (log 25; R65, R447, R449, R872). -/
def Obligations.TimingExchange : Prop :=
  ((∀ (s : State) (p : Nat), p < 22 → s.up = true → s.fon TIME_CTL.SYNC_EN 0 = true → s.portLS01 p = true →
    exec (.timingSyncSend p) s = .next
      ({ s with time := { s.time with exNum := (s.time.exNum + 1) % 256 } }.timing p 1 s.time.exNum s.count)) ∧
  (∀ (s h : State) (p num t1 turn : Nat) (rx : List (List Nat)), p < 22 → s.up = true →
    s.Hears p kTIMING 10 rx (timingData 1 num t1) h → t1 < 2 ^ 64 → h.childOn p = true →
    exec (.timingSync p rx turn) s = .next
      ({ h with time := { h.time with ex := some (num, t1, h.count, h.count + turn) } }.timing p 2 num 0)) ∧
  (∀ (s h : State) (p num c : Nat) (rx : List (List Nat)), p < 22 → s.up = true → s.Hears p kTIMING 10 rx (timingData 2 num c) h →
    h.fon TIME_CTL.SYNC_EN 0 = true → h.portLS0 p = true →
    exec (.timingReq p rx) s = .next (h.timing p 3 num h.count)) ∧
  (∀ (s : State) (p kind num c : Nat), s.lstate p ≠ 1 → ∃ (x : LanePort) (r : List Out),
    s.timing p kind num c = { s with lane := tset s.lane p x LanePort.fresh, out := s.out ++ [.ctl p 1 [kind, num, c]] ++ r })) ∧
  (∀ (s h : State) (p num t1 t2 t3 t4 : Nat) (rx : List (List Nat)) (asym : Int), p < 22 → s.up = true →
    s.Hears p kTIMING 10 rx (timingData 3 num t4) h → t4 < 2 ^ 64 → h.childOn p = true →
    h.time.ex = some (num, t1, t2, t3) → h.asymNs p = asym →
    let offset : Int := (((t2 : Int) - t1) - ((t4 : Int) - t3) - asym).tdiv 2
    let delay : Int := (((t2 : Int) - t1) + ((t4 : Int) - t3)).tdiv 2
    let u : State := ({ h with time := { h.time with ex := none, lastEx := h.time.now } }.fset TIME_STATUS.OFFSET 0
      (wrapInt 16 (max (-32767) (min 32767 offset)))).fset TIME_STATUS.DELAY 0 (wrapInt 16 delay)
    let st := h.fget TIME_STATUS.STATE 0
    (st = 0 → exec (.timingResp p rx) s = .next u.acquire) ∧
    (st = 1 → h.time.loaded = false → exec (.timingResp p rx) s = .next
      { u.fset TIME_COUNT.COUNT 0 (wrapInt 64 ((h.count : Int) - offset)) with
        time := { u.time with loaded := true, good := 0, run := ((h.time.run : Int) - offset).toNat,
                              thaw := ((h.time.thaw : Int) - offset).toNat } }) ∧
    (st = 1 → h.time.loaded = true → 5 < offset.natAbs → exec (.timingResp p rx) s = .next
      { u with time := { u.time with good := 0, slew := offset } }) ∧
    (st = 1 → h.time.loaded = true → offset.natAbs ≤ 5 → h.time.good < 3 → exec (.timingResp p rx) s = .next
      { u with time := { u.time with good := h.time.good + 1, slew := offset } }) ∧
    (st = 1 → h.time.loaded = true → offset.natAbs ≤ 5 → h.time.good = 3 → exec (.timingResp p rx) s = .next
      { u with time := { u.time with good := 4, slew := offset } }.lockSync) ∧
    (st = 2 → offset.natAbs ≤ 1000 → exec (.timingResp p rx) s = .next { u with time := { u.time with slew := offset } }) ∧
    (st = 2 → 1000 < offset.natAbs → exec (.timingResp p rx) s = .next u.acquire) ∧
    (st = 3 → exec (.timingResp p rx) s = .next { u with time := { u.time with slew := offset } }.lockSync))

/-- What entering a state of the timebase writes: `STATE`, and `UNSYNC` as R74 says it reads; then HOLDOVER_ENTRY, HOLDOVER_TIMEOUT,
TIME_PACKET_SEND, TIME_RECEIVE, DEPTH_TIMEOUT, REPLICA_CORRECT, RATE_SAMPLE and ARMED_ACTION (R56, R57, R64, R68, R72, R74, R77, R871). -/
def Obligations.TimebaseEvents : Prop :=
  (∀ (s : State) (n : Nat), n < 4 →
    (s.setSync n).fget TIME_STATUS.STATE 0 = n ∧ ((s.setSync n).fon TIME_STATUS.UNSYNC 0 = true ↔ n = 0 ∨ n = 1) ∧
    (s.setSync n).unsync = (s.setSync n).fon TIME_STATUS.UNSYNC 0 ∧
    s.sameRegsBut (s.setSync n) [.TIME_STATUS] ∧
    s.acquire.fget TIME_STATUS.STATE 0 = 1 ∧ s.lockSync.fget TIME_STATUS.STATE 0 = 2 ∧
    s.holdover.fget TIME_STATUS.STATE 0 = 3) ∧
  ((∀ s : State, s.pwr.on = true → s.fget TIME_STATUS.STATE 0 = 2 → s.fon TIME_CTL.ROOT 0 = false →
    s.time.lastEx + 300000 < s.time.now → exec .holdoverEntry s = .next s.holdover) ∧
  (∀ s : State, s.pwr.on = true → s.fget TIME_STATUS.STATE 0 = 3 → s.fon TIME_CTL.ROOT 0 = false →
    s.time.holdT + 10000000 ≤ s.time.now → exec .holdoverTimeout s = .next s.acquire) ∧
  (∀ (s : State) (p : Nat), p < 22 → s.up = true → s.fon TIME_CTL.SYNC_EN 0 = true → s.portLS01 p = true →
    let vc := if isG p then 1 else 0
    (s.crossing p = false → 2 ≤ s.credit p vc → exec (.timePacketSend p) s = .next
      (((s.setCredit p vc (s.credit p vc - 2)).setCredit p 4 (s.credit p 4)).sendPkt p (outPkt (s.timePacket p) vc))) ∧
    (s.crossing p = true → exec (.timePacketSend p) s = .next
      { s with fab := { s.fab with waiting := s.fab.waiting ++ [(s.timePacket p, copyArr hubPort p, s.time.run)] } })) ∧
  (∀ (s : State) (p : Nat) (k : Pkt), p < 22 → s.up = true → pktSound k = true → PH.TYPE.of k.hdr = tyTIME →
    s.fget TIME_CTL.PARENT 0 = p → ∃ t, exec (.timeReceive p k) s = .next t ∧
      t.time.parent = some (leAt k.pay 0 1 % 4, leAt k.pay 0 1 / 4 % 8, s.time.now) ∧
      t.fget TIME_STATUS.DEPTH 0 = t.depthNow % 8 ∧ s.sameRegsBut t [.TIME_STATUS] ∧ t.out = s.out ∧ t.fab = s.fab) ∧
  (∀ s : State, s.pwr.on = true → s.fon TIME_CTL.ROOT 0 = false → s.time.parent = none →
    exec .depthTimeout s = .next (s.fset TIME_STATUS.DEPTH 0 7)) ∧
  (∀ (s : State) (st d t : Nat), s.pwr.on = true → s.fon TIME_CTL.ROOT 0 = false → s.time.parent = some (st, d, t) →
    t + 3000000 < s.time.now → exec .depthTimeout s = .next (s.fset TIME_STATUS.DEPTH 0 7)) ∧
  (∀ (s : State) (d : Nat), d < 4 → s.pwr.on = true → s.time.replica.length = 4 →
    ∃ (t : State) (r : Int), exec (.replicaCorrect d) s = .next t ∧ -2 ≤ r ∧ r ≤ 2 ∧
      t = { s with time := { s.time with replica := s.time.replica.set d r }, freeCtr := s.freeCtr + 1 }) ∧
  (∀ (s : State) (a b c d : List Nat), s.up = true → s.fget PWR_PSTATE.STATE 0 = 0 →
    exec (.rateSample [a, b, c, d]) s = .next ((((s.fset TIME_RATE.CD0 0 (leastOf a)).fset TIME_RATE.CD1 0 (leastOf b)).fset
      TIME_RATE.CD2 0 (leastOf c)).fset TIME_RATE.CD3 0 (leastOf d))) ∧
  (∀ (s : State) (m : List (List Nat)), s.pwr.on = true → s.diesOff = true → exec (.rateSample m) s = .next s.ratesOff) ∧
  (∀ (s : State) (k : Nat) (a : Armed), s.live = true → s.time.armed[k]? = some a → a.count ≤ s.count →
    let u : State := { s with time := { s.time with armed := s.time.armed.eraseIdx k } }
    exec (.armedAction k) s = .next (if a.kind = 0 then u.wake else u)))

/-- A `GO` that R639 accepts starts its step and keeps the write's operands; `WRESET` is a warm reset. -/
def Obligations.BootStepStarts : Prop :=
  ∀ (s : State) (w : Who) (v : Nat), s.reaches w = true → s.barred w .GCTL_BOOT_CTL 0 v = .none →
    s.isStatus .GCTL_BOOT_CTL 0 v = false →
    (let r := (s.clrW1C .GCTL_BOOT_CTL 0 v).putRW .GCTL_BOOT_CTL 0 v
     let k := GCTL_BOOT_CTL.STEP.val v
     let t : State := { (r.fset GCTL_BOOT_STAT.STEP 0 k).fset GCTL_BOOT_STAT.RESULT 0 0 with
       boot := { r.boot with stepArg := GCTL_BOOT_CTL.ARG.val v, stepSafe := GCTL_BOOT_CTL.SAFE.bit v,
                             stepFull := GCTL_BOOT_CTL.FULL_ST.bit v } }
     (GCTL_BOOT_CTL.WRESET.bit v = true → exec (.wreset w v) s = .next r.warmReset) ∧
     (GCTL_BOOT_CTL.GO.bit v = true → GCTL_BOOT_CTL.WRESET.bit v = false → s.fget GCTL_BOOT_STAT.RESULT 0 ≠ 0 →
       s.passed k = false →
       (k = 2 → s.passed 1 = true → exec (.secfw w v) s = .next t) ∧
       (k = 3 → s.passed 2 = true → exec (.identity w v) s = .next t) ∧
       (k = 4 → s.passed 3 = true → exec (.record w v) s = .next t) ∧
       (k = 4 → s.passed 3 = true → GCTL_BOOT_CTL.SAFE.bit v = true → exec (.recordSafe w v) s = .next t) ∧
       (k = 8 → s.passed 4 = true → s.fon MEM_TRAIN.BUSY 0 = false → s.fget MEM_TRAIN.DONE 0 = 4095 →
         exec (.gather w v) s = .next t) ∧
       (k = 9 → s.passed 8 = true → exec (.selftest w v) s = .next t) ∧
       (k = 10 → s.passed 9 = true → exec (.cullet w v) s = .next t) ∧
       (k = 10 → s.passed 8 = true → s.fon GCTL_BOOT_STAT.FAST 0 = true → exec (.cullet w v) s = .next t) ∧
       (k = 11 → s.passed 10 = true → exec (.ready w v) s = .next t)))

/-- BOOT_STEP_END: what POWER, SECFW, IDENTITY, RECORD in safe mode and READY leave, each with `RESULT`, `CODE` and the step's bit of
`PASSED` (R637, R641, R645, R657, R755, R757, R773, R789). -/
def Obligations.BootStepEnds : Prop :=
  ∀ (s : State) (o : BootIn), s.hubUp = true → s.fget GCTL_BOOT_STAT.RESULT 0 = 0 →
    (s.fget GCTL_BOOT_STAT.STEP 0 = 1 → s.fget GCTL_PART_ID.GRADE 0 = 15 →
      exec (.bootStepEnd o) s = .next ((s.fset GCTL_BOOT_STAT.RESULT 0 3).fset GCTL_BOOT_STAT.CODE 0 0x0610)) ∧
    (s.fget GCTL_BOOT_STAT.STEP 0 = 2 → s.fget SEC_LIFE.LCS 0 ≠ 4 → s.fget SEC_FWU_STAT.STATE 0 ≠ 5 →
      s.bundleCode s.stagedBytes true ≠ 0 →
      exec (.bootStepEnd o) s = .next ((s.fset GCTL_BOOT_STAT.RESULT 0 3).fset GCTL_BOOT_STAT.CODE 0 0x0611)) ∧
    (s.fget GCTL_BOOT_STAT.STEP 0 = 2 → s.fget SEC_LIFE.LCS 0 ≠ 4 → s.fget SEC_FWU_STAT.STATE 0 ≠ 5 →
      s.bundleCode s.stagedBytes true = 0 → Gives (.bootStepEnd o) s fun t =>
        t.fget GCTL_BOOT_STAT.RESULT 0 = 1 ∧ t.fget SEC_LIFE.TRNG_OK 0 = 1 ∧ t.mgmt.run = true ∧
        t.fw.manifest = manifestBytes s.stagedBytes ∧ t.fuse = s.fuse) ∧
    (s.fget GCTL_BOOT_STAT.STEP 0 = 3 → s.fget SEC_ID_STAT.STATE 0 ≠ 1 → s.fuse.epochs + o.burns < 32768 →
      Gives (.bootStepEnd o) s fun t =>
        t.fuse = { s.fuse with epochs := s.fuse.epochs + o.burns + 1 } ∧ t.fget SEC_ID_STAT.STATE 0 = 1 ∧
        t.fget SEC_ID_STAT.EPOCH 0 = s.fuse.epochs + o.burns ∧
        t.fget SEC_ID_STAT.EPOCH_LEFT 0 = 32767 - (s.fuse.epochs + o.burns) ∧
        t.fget SEC_ID_STAT.SIGS_LEFT 0 = 1048576 ∧ t.fget GCTL_BOOT_STAT.RESULT 0 = 1 ∧
        t.fget GCTL_BOOT_STAT.PASSED 0 = (s.fget GCTL_BOOT_STAT.PASSED 0 ||| 8) % 4096 ∧
        s.sameRegsBut t [.SEC_ID_STAT, .GCTL_BOOT_STAT, .GCTL_SERIAL] ∧ t.out = s.out) ∧
    (s.fget GCTL_BOOT_STAT.STEP 0 = 3 → s.fget SEC_ID_STAT.STATE 0 ≠ 1 → 32768 ≤ s.fuse.epochs + o.burns →
      Gives (.bootStepEnd o) s fun t =>
        t.fuse = { s.fuse with epochs := 32768 } ∧ t.fget GCTL_BOOT_STAT.RESULT 0 = 2 ∧
        t.fget GCTL_BOOT_STAT.CODE 0 = 0x0501) ∧
    (s.fget GCTL_BOOT_STAT.STEP 0 = 4 → s.boot.recorded = false → s.boot.stepSafe = true →
      Gives (.bootStepEnd o) s fun t =>
        t.fget GCTL_BOOT_STAT.SAFE_MODE 0 = 1 ∧ t.fget GCTL_BOOT_STAT.RESULT 0 = 1 ∧ t.boot.recorded = true ∧
        t.boot.cal = s.boot.cal ∧ t.fget GCTL_BOOT_STAT.PASSED 0 = (s.fget GCTL_BOOT_STAT.PASSED 0 ||| 16) % 4096) ∧
    (s.fget GCTL_BOOT_STAT.STEP 0 = 8 → s.gatherImage = none →
      exec (.bootStepEnd o) s = .next ((s.fset GCTL_BOOT_STAT.RESULT 0 3).fset GCTL_BOOT_STAT.CODE 0 0x0617)) ∧
    (s.fget GCTL_BOOT_STAT.STEP 0 = 9 → o.rows = [] → o.sites = [] → o.delays = [] → o.wakes = [] →
      exec (.bootStepEnd o) s = .next ((s.fset GCTL_BOOT_STAT.RESULT 0 1).fset GCTL_BOOT_STAT.PASSED 0
        (s.fget GCTL_BOOT_STAT.PASSED 0 ||| 512))) ∧
    (s.fget GCTL_BOOT_STAT.STEP 0 = 11 →
      exec (.bootStepEnd o) s = .next ({ (s.fset GCTL_BOOT_STAT.RESULT 0 1).fset GCTL_BOOT_STAT.PASSED 0
        (s.fget GCTL_BOOT_STAT.PASSED 0 ||| 2048) with
          boot := { s.boot with readySince := true, tripSince := false } }))

/-- The staging window and the calibration area: who may write, when, and what a rejected write leaves (R646, R654 to R656, R726). -/
def Obligations.StagingAndCalibration : Prop :=
  (∀ (s : State) (off v : Nat), s.reaches .s = true → off % 8 = 0 → off < 4194304 → s.passed 4 = false →
    s.fget GCTL_BOOT_STAT.RESULT 0 ≠ 0 → exec (.stagingWrite .s off v) s = .next
      { s with boot := { s.boot with staging := cellsWrite s.boot.staging off (leBytes 8 v) } }) ∧
  (∀ (s : State) (off v : Nat), s.reaches .s = true → off % 8 = 0 → off < 4194304 →
    (s.passed 4 = true ∨ s.fget GCTL_BOOT_STAT.RESULT 0 = 0) →
    exec (.stagingWrite .s off v) s = .next (s.log { code := 0x0619 })) ∧
  (∀ (s : State) (off v : Nat), s.reaches .ns = true → off % 8 = 0 → off < 4194304 →
    exec (.stagingWrite .ns off v) s = .next (s.log { code := 0x0504 })) ∧
  (∀ (s : State) (off v : Nat), s.reaches .fw = true → off % 8 = 0 → off < 4194304 →
    exec (.stagingWrite .fw off v) s = .next (s.log { code := 0x050D })) ∧
  (∀ (s : State) (off v k : Nat), s.reaches .s = true → off % 8 = 0 → calSection off = some k → s.fon CAL_STAT.OPEN 0 = true →
    calValueOk k off (v % 2 ^ 64) = true → exec (.calibrationWrite .s off v) s = .next
      ({ s with boot := { s.boot with cal := cellsWrite s.boot.cal off (leBytes 8 v) } }.fset CAL_STAT.ORIGIN 0 2)) ∧
  (∀ (s : State) (off v k : Nat), s.reaches .s = true → off % 8 = 0 → calSection off = some k →
    (s.fon CAL_STAT.OPEN 0 = false ∨ calValueOk k off (v % 2 ^ 64) = false) →
    exec (.calibrationWrite .s off v) s = .next ((s.fset CAL_STAT.REJ 0 1).log { code := 0x0615 })) ∧
  (∀ (s : State) (off v k : Nat), s.reaches .ns = true → off % 8 = 0 → calSection off = some k →
    exec (.calibrationWrite .ns off v) s = .next (s.log { code := 0x0504 }))

/-- EN_RISE starts the power stage; EN_FALL leaves the module dark; POWER_GOOD brings the module up with its straps and fuses and ends
POWER; UCIE_MODULE_FAIL fences a module (R4, R61, R326, R643, R844 to R847). -/
def Obligations.PowerStage : Prop :=
  (∀ s : State, s.pwr.on = false → s.pwr.starting = false → s.pwr.offT = none →
    exec .enRise s = .next { s with pwr := { s.pwr with en := true, starting := true } }) ∧
  (∀ (s : State) (t : Nat), s.pwr.on = false → s.pwr.starting = false → s.pwr.offT = some t → t + 100000000 ≤ s.time.now →
    exec .enRise s = .next { s with pwr := { s.pwr with en := true, starting := true } }) ∧
  (∀ s : State, s.pwr.on = true ∨ s.pwr.starting = true → exec .enFall s = .next
    { State.reset with
      time := { now := s.time.now, run := s.time.run, thaw := s.time.thaw }
      pwr := { en := false, offT := some s.time.now, gasp := s.pwr.gasp }
      fuse := s.fuse
      freeCtr := s.freeCtr
      out := s.out ++ [.note 0 0, .note 1 0, .note 6 0] ++ (List.range 11).map (fun r => .note 2 r)
      pending := s.pending }) ∧
  (∀ s : State, s.pwr.on = false → s.pwr.starting = false → exec .enFall s = .next { s with pwr := { s.pwr with en := false } }) ∧
  (∀ (s : State) (grade tray slot : Nat), s.pwr.starting = true → s.pwr.on = false → grade < 15 → tray < 16 → slot < 4 →
    s.fget GCTL_BOOT_STAT.STEP 0 = 1 → ∃ t, exec (.powerGood grade tray slot 15) s = .next t ∧
      t.pwr.on = true ∧ t.pwr.starting = false ∧ t.fget GCTL_PART_ID.GRADE 0 = grade ∧ t.fget FAB_CTL.TRAY 0 = tray ∧
      t.fget FAB_CTL.SLOT 0 = slot ∧ t.fget SEC_LIFE.LCS 0 = s.fuse.lcs % 8 ∧ t.fget GCTL_BOOT_STAT.RESULT 0 = 1 ∧
      t.fget GCTL_BOOT_STAT.PASSED 0 = (s.fget GCTL_BOOT_STAT.PASSED 0 ||| 2) % 4096 ∧
      t.count = s.count ∧ t.fuse = s.fuse ∧ t.cfe = s.cfe ∧ t.mem = s.mem ∧ t.out = s.out) ∧
  (∀ (s : State) (tray slot : Nat), s.pwr.starting = true → s.pwr.on = false →
    ∃ t, exec (.powerGood 15 tray slot 15) s = .next t ∧ t.pwr.on = true ∧ t.fget GCTL_BOOT_STAT.RESULT 0 = 3 ∧
      t.fget GCTL_BOOT_STAT.CODE 0 = 0x0610) ∧
  (∀ (s : State) (m : Nat), m < 4 → s.pwr.on = true → s.cfe.ucie.testBit m = true →
    exec (.ucieModuleFail m) s = .next
      ({ s with cfe := { s.cfe with ucie := s.cfe.ucie - 2 ^ m } }.recordFence 10 2 m))

/-- Input samples and shutdown: meters, brown-out hold and its end, collapse, and HOLD_TIMEOUT (R674 to R678, R695, R697). -/
def Obligations.PowerInput : Prop :=
  (∀ (s : State) (v p bank : Nat), s.pwr.on = true → 3350 ≤ v → v ≤ 4000 → 3400 ≤ bank → s.fon PWR_STATUS.HOLD 0 = false →
    s.pwr.settling = false → s.mgmt.thresholds = [] → s.pwr.nSum < 9999 →
    exec (.vinSample v p bank) s = .next
      { s.fset PWR_ENERGY.ENERGY 0 (s.fget PWR_ENERGY.ENERGY 0 + (s.pwr.uj + p) / 1000) with
        pwr := { s.pwr with nLow := 0, nCrit := 0, nHigh := 0, nOk := s.pwr.nOk + 1, vHigh := false,
                            uj := (s.pwr.uj + p) % 1000, sumP := s.pwr.sumP + p, sumV := s.pwr.sumV + v,
                            nSum := s.pwr.nSum + 1 } }) ∧
  (∀ (s : State) (v p bank : Nat), s.up = true → 2900 ≤ v → v < 3300 → 3400 ≤ bank → s.fon PWR_STATUS.HOLD 0 = false →
    s.pwr.nLow = 1 → s.pwr.settling = false → s.mgmt.thresholds = [] →
    Gives (.vinSample v p bank) s fun t => t.held = true ∧ t.fget PWR_STATUS.HOLD 0 = 1 ∧
      t.fget PWR_EVT.HOLDS 0 = min (s.fget PWR_EVT.HOLDS 0 + 1) 255 ∧ t.fget PWR_PSTATE.LEHR_W 0 = 0 ∧
      t.pwr.holdT = s.time.now ∧ t.pwr.lowest = min s.pwr.lowest v ∧ t.out = s.out ∧ t.cfe = s.cfe ∧ t.fab = s.fab) ∧
  (∀ (s : State) (v p bank : Nat), s.pwr.on = true → v < 2900 → s.pwr.nCrit = 1 → s.pwr.settling = false →
    s.mgmt.thresholds = [] → s.mgmt.receiver = none →
    Gives (.vinSample v p bank) s fun t => t.pwr.on = false ∧ t.regs = [] ∧ t.mem = {} ∧ t.core = {} ∧ t.cfe = {} ∧
      t.fab = {} ∧ t.fuse = s.fuse ∧ t.pwr.offT = some s.time.now ∧
      t.out = s.out ++ [.note 0 0, .note 1 0, .note 6 0] ++ (List.range 11).map (fun r => .note 2 r)) ∧
  (∀ s : State, s.pwr.on = true → s.fon PWR_STATUS.HOLD 0 = true → s.pwr.holdT + 5000000 ≤ s.time.now →
    Gives .holdTimeout s fun t => t.pwr.on = false ∧ t.regs = [] ∧ t.mem = {} ∧ t.fuse = s.fuse ∧
      (t.pwr.gasp.isSome = true ↔ s.mgmt.receiver.isSome = true))

/-- Rails: a limit, a fenced phase, a rail fault, and the two counters that a read clears (R681 to R685, R697). -/
def Obligations.PowerRails : Prop :=
  (∀ (s : State) (r : Nat), r < 9 → s.pwr.on = true → tget s.pwr.limT r 0 = 0 →
    exec (.railLimit r) s = .next
      ({ s.fset PWR_RAIL.LIMHIT r (min (s.fget PWR_RAIL.LIMHIT r + 1) 1023) with
         pwr := { s.pwr with limT := tset s.pwr.limT r (s.time.now + 1) 0 } }.log { code := 0x0409 })) ∧
  (∀ (s : State) (r : Nat), 9 ≤ r → r < 11 → s.pwr.on = true → exec (.railLimit r) s = .next (s.shutdown 5)) ∧
  (∀ (s : State) (r ph : Nat), r < 11 → s.pwr.on = true → ph < phasesAll r → s.inCullet 6 (r + 16 * ph) = false →
    exec (.phaseFenced r ph) s = .next
      (((s.log { code := 0x040A, kind := 6, unit := r + 16 * ph }).recordFence 6 2 (r + 16 * ph)).phaseOut r)) ∧
  (∀ (s : State) (r : Nat), r < 11 → 1 < s.fget PWR_RAIL.PH_IN r → s.fget PWR_RAIL.PH_IN r ≤ phasesAll r →
    (s.phaseOut r).fget PWR_RAIL.PH_IN r = s.fget PWR_RAIL.PH_IN r - 1 ∧
    ((s.phaseOut r).fget PWR_RAIL.DERATED r = 1 ↔
      s.fget PWR_RAIL.DERATED r = 1 ∨ s.fget PWR_RAIL.PH_IN r ≤ phasesNeeded r) ∧ (s.phaseOut r).pwr = s.pwr) ∧
  (∀ (s : State) (r : Nat), r < 11 → s.pwr.on = true → exec (.railFault r) s = .next (s.shutdown 5)) ∧
  (∀ (s : State) (w : Who) (r vout iout : Nat), r < 11 → s.reaches w = true → w ≠ .ns →
    (let u := (s.fset PWR_RAIL.VOUT r vout).fset PWR_RAIL.IOUT r iout
     exec (.pwrRailRead w r vout iout) s = .next
      ({ u with out := s.out ++ [Out.read (u.regWord .PWR_RAIL r)] }.fset PWR_RAIL.LIMHIT r 0))) ∧
  (∀ (s : State) (w : Who), s.reaches w = true → w ≠ .ns →
    (let u := s.fset PWR_EVT.SINCE 0 s.sinceHold
     exec (.pwrEvtRead w) s = .next
      (({ u with out := s.out ++ [Out.read (u.liveWord .PWR_EVT 0)] }.fset PWR_EVT.CLIP 0 0).fset PWR_EVT.HINT_IGN 0 0)))

/-- Caps: the policy write, the loss of the heartbeat, the floor and the thermal cap, each followed by ECAP (R686 to R693, R701, R702). -/
def Obligations.PowerCaps : Prop :=
  (∀ (s : State) (w : Who) (v : Nat), s.reaches w = true → s.barred w .PWR_POLICY 0 v = .none →
    s.isStatus .PWR_POLICY 0 v = false → policyBad v = false →
    exec (.pwrPolicyWrite w v) s = .next (((s.clrW1C .PWR_POLICY 0 v).putRW .PWR_POLICY 0 v).recap.followPolicy)) ∧
  (∀ s : State, s.pwr.on = true → s.fon PWR_RACK.HB_ARMED 0 = true → s.fon PWR_RACK.AUTO 0 = false →
    s.pwr.hbT + 2000000000 ≤ s.time.now → exec .heartbeatLoss s = .next
      (({ s.fset PWR_RACK.AUTO 0 1 with pwr := { s.pwr with rcapLoss := s.fget PWR_RACK.RCAP 0 } }.log
        { code := 0x0408 }).recap)) ∧
  (∀ (s : State) (f : Nat), s.up = true → exec (.floorRecompute f) s = .next (s.fset PWR_EVT.FLOOR 0 f).recap) ∧
  (∀ s : State, s.up = true → s.fget PWR_STATUS.PIN 0 < 500 → s.inlet < s.fget PWR_POLICY.TTARGET 0 →
    s.fget PWR_THERM.THETA 0 ≠ 0 →
    ((s.fget PWR_POLICY.TTARGET 0 - s.inlet) * 100000) % s.fget PWR_THERM.THETA 0 = 0 →
    ((s.fget PWR_POLICY.TTARGET 0 - s.inlet) * 100000) / s.fget PWR_THERM.THETA 0 < 65536 →
    exec .thermalUpdate s = .next ((s.fset PWR_THERM.TCAP 0
      ((s.fget PWR_POLICY.TTARGET 0 - s.inlet) * 100000 / s.fget PWR_THERM.THETA 0)).recap)) ∧
  (∀ s : State, s.up = true → s.fget PWR_STATUS.PIN 0 < 500 → s.fget PWR_POLICY.TTARGET 0 ≤ s.inlet →
    exec .thermalUpdate s = .next ((s.fset PWR_THERM.TCAP 0 0).recap))

/-- ECAP is the lowest of the power class, RCAP, CAP, the automatic cap where it is in force, and TCAP, and FLOOR where that is
higher (R686). -/
def Obligations.EcapValue : Prop :=
  ∀ s : State, s.held = false → ∀ m : Nat,
    m = (let a := min 4000 (min (s.fget PWR_RACK.RCAP 0) (min (s.fget PWR_POLICY.CAP 0) (s.fget PWR_THERM.TCAP 0)))
         if s.fon PWR_RACK.AUTO 0 then min a (min s.pwr.rcapLoss (s.fget PWR_POLICY.SAFE_CAP 0)) else a) →
    s.fget PWR_EVT.FLOOR 0 < 65536 →
    s.recap.fget PWR_STATUS.ECAP 0 = max m (s.fget PWR_EVT.FLOOR 0) ∧
    (s.recap.fget PWR_STATUS.BIND 0 = 5 ↔ m < s.fget PWR_EVT.FLOOR 0) ∧ s.recap.fget PWR_STATUS.BIND 0 ≤ 5 ∧
    (s.recap.fget PWR_STATUS.BIND 0 = 0 → s.recap.fget PWR_STATUS.ECAP 0 = 4000) ∧
    (s.recap.fget PWR_STATUS.BIND 0 = 1 → s.recap.fget PWR_STATUS.ECAP 0 = s.fget PWR_RACK.RCAP 0) ∧
    (s.recap.fget PWR_STATUS.BIND 0 = 2 → s.recap.fget PWR_STATUS.ECAP 0 = s.fget PWR_POLICY.CAP 0) ∧
    (s.recap.fget PWR_STATUS.BIND 0 = 3 → s.fon PWR_RACK.AUTO 0 = true ∧
      s.recap.fget PWR_STATUS.ECAP 0 = min s.pwr.rcapLoss (s.fget PWR_POLICY.SAFE_CAP 0)) ∧
    (s.recap.fget PWR_STATUS.BIND 0 = 4 → s.recap.fget PWR_STATUS.ECAP 0 = s.fget PWR_THERM.TCAP 0)

/-- Temperature and voltage: sensors, a trip, a throttle, the choice of steps and a load hint (R703, R706 to R708, R712 to R715). -/
def Obligations.PowerThermal : Prop :=
  (∀ (s : State) (d : Nat) (x : Int), d < 4 → s.pwr.on = true → s.hottest (dieSpots d) = some x → s.throttleAt ≤ x → x < 103 →
    exec (.throttle d) s = .next { s with pwr := { s.pwr with
      vs := s.pwr.vs.set d (max s.vsFloor (s.pwr.vs.getD d 0 - 1)), lowering := s.pwr.lowering.set d true,
      gated := s.pwr.gated.set d false } }) ∧
  (∀ (s : State) (d : Nat) (x : Int), d < 4 → s.pwr.on = true → s.hottest (dieSpots d) = some x → x < s.throttleAt - 2 → x < 103 →
    exec (.throttle d) s = .next { s with pwr := { s.pwr with
      lowering := s.pwr.lowering.set d false, gated := s.pwr.gated.set d false } }) ∧
  (∀ (s : State) (h : Nat) (x : Int), h < 73 → s.pwr.on = true → -10 ≤ x → x ≤ 150 →
    tfind s.pwr.sensors (2 * h) = none → tfind s.pwr.sensors (2 * h + 1) = none →
    Gives (.sensorSample h x x false false) s fun t =>
      tfind t.pwr.sensors (2 * h) = some ⟨x, s.time.now, false, s.time.now⟩ ∧
      tfind t.pwr.sensors (2 * h + 1) = some ⟨x, s.time.now, false, s.time.now⟩ ∧
      s.sameRegsBut t [.PWR_THERM] ∧ t.out = s.out ∧ t.hotSpot h = some x) ∧
  (∀ (s : State) (h : Nat), h < 72 → s.pwr.on = true → s.fget PWR_PSTATE.STATE 0 ≠ 4 →
    Gives (.thermTrip h) s fun t => t.up = false ∧ t.pwr.trip = max s.pwr.trip (if 64 ≤ h then 2 else 1) ∧
      t.boot.tripSince = true ∧ .note 0 0 ∈ t.out ∧ (∀ r ∈ [0, 1, 2, 3, 4, 6], .note 2 r ∈ t.out) ∧
      (64 ≤ h → .note 2 5 ∈ t.out) ∧
      (∀ k, k < 12 → s.fon MEM_STK_STATUS.TRAINED k = true → s.fon MEM_STK_STATUS.FENCED k = false →
        t.fget MEM_STK_STATUS.SREF k = 1)) ∧
  (∀ (s : State) (e : List (List Nat)), s.up = true → s.fon PWR_POLICY.ADAPT 0 = false → s.fon GCTL_BOOT_STAT.SAFE_MODE 0 = false →
    s.fget PWR_POLICY.VS_MIN 0 ≤ s.fget PWR_POLICY.VS_MAX 0 → s.fget PWR_POLICY.VS_MAX 0 < 15 →
    s.fon PWR_PSTATE.LEHR_EN 0 = false → s.pwr.capStep = [15, 15, 15, 15] → s.pwr.lowering = [false, false, false, false] →
      s.pwr.vs.length = 4 → s.fget PWR_EVT.CLIP 0 < 65536 →
    exec (.adaptChoice e) s = .next { s.fset PWR_EVT.CLIP 0 (s.fget PWR_EVT.CLIP 0) with
      pwr := { s.pwr with vs := List.replicate 4 (s.fget PWR_POLICY.VS_MAX 0) } }) ∧
  (∀ (s : State) (k other d hint t : Nat) (pred : List Nat), d < 4 → s.live = true → s.core.hints[k]? = some (d, hint, t) →
    hintDue hint t ≤ s.time.now → s.fon PWR_POLICY.HINT_EN 0 = true → s.fget PWR_POLICY.VS_MIN 0 ≤ s.fget PWR_POLICY.VS_MAX 0 →
    s.pwr.lowering.getD d false = false → s.pwr.capStep.length = 4 →
    let v := s.policyStep (s.fget PWR_POLICY.VS_MAX 0)
    hint % 16 * pred.getD v 0 ≤ 16 * ((s.fget PWR_STATUS.ECAP 0 - other) / 4) → s.pwr.vs.getD d 0 < v →
    exec (.loadHint k other pred) s = .next { s with
      core := { s.core with hints := s.core.hints.eraseIdx k }
      pwr := { s.pwr with vs := s.pwr.vs.set d v, capStep := s.pwr.capStep.set d (max v (s.pwr.capStep.getD d 15)) } })

/-- Coolant readings and idle states: stale readings, a frame, flow hold, PS1 to PS3, their wake and PS4 (R700, R704, R716 to R719,
R835, R836). -/
def Obligations.CoolantAndIdle : Prop :=
  (∀ s : State, s.pwr.on = true → s.pwr.stale = false → s.pwr.cool = none →
    s.pwr.onT + 1000000000 ≤ s.time.now → exec .coolStale s = .next
    ({ (s.fset PWR_THERM.TIN 0 255).fset PWR_THERM.TOUT 0 255 with pwr := { s.pwr with stale := true, coolOk := none } }.log
      { code := 0x040C })) ∧
  (∀ (s : State) (b : List Byte), s.i3cUp = true → s.frameOk b = true →
    s.fon PWR_STATUS.FLOW_HOLD 0 = false → s.up = true → leAt b 6 2 < s.fget PWR_POLICY.FLOW_SET 0 →
    Gives (.trayFrame b) s fun t => t.fget PWR_STATUS.FLOW_HOLD 0 = 1 ∧ t.fget PWR_PSTATE.LEHR_W 0 = 0 ∧ t.held = true ∧
      t.pwr.traySeq = some (leAt b 0 2) ∧ t.pwr.stale = false) ∧
  (∀ (s : State) (b : List Byte), s.i3cUp = true → s.frameOk b = true →
    s.fon PWR_STATUS.FLOW_HOLD 0 = false → s.pwr.cool = none → s.fget PWR_POLICY.FLOW_SET 0 ≤ leAt b 6 2 →
    leAt b 2 2 < 25500 → leAt b 4 2 < 25500 → leAt b 6 2 < 1278 →
    Gives (.trayFrame b) s fun t => t.fget PWR_THERM.TIN 0 = (leAt b 2 2 + 50) / 100 ∧
      t.fget PWR_THERM.TOUT 0 = (leAt b 4 2 + 50) / 100 ∧ t.fget PWR_THERM.FLOW 0 = (leAt b 6 2 + 2) / 5 ∧
      t.pwr.traySeq = some (leAt b 0 2) ∧ s.sameRegsBut t [.PWR_THERM] ∧ t.out = s.out) ∧
  (∀ (s : State) (idleNs quietNs want : Nat), s.live = true → s.idle = true → 10000 ≤ idleNs → quietNs < 1000000 →
    30 ≤ s.tolerance → s.fget PWR_PSTATE.STATE 0 = 0 → s.fon PWR_PSTATE.LEHR_EN 0 = false →
    exec (.idleEntry idleNs quietNs want) s = .next
      (({ s.fset PWR_PSTATE.STATE 0 2 with pwr := { s.pwr with lehrLogged := false, lehrWant := want } }.ratesOff.fset
        PWR_PSTATE.LEHR_W 0 0).fset PWR_PSTATE.LEHR_SHORT 0 0)) ∧
  (∀ s : State, s.up = true → s.fget PWR_PSTATE.STATE 0 = 1 ∨ s.fget PWR_PSTATE.STATE 0 = 2 → exec .powerWake s = .next
    (((s.fset PWR_PSTATE.STATE 0 0).fset PWR_PSTATE.LEHR_W 0 0).fset PWR_PSTATE.LEHR_SHORT 0 0)) ∧
  (∀ (s : State) (w : Who) (v : Nat), s.reaches w = true → s.barred w .PWR_PSTATE 0 v = .none → PWR_PSTATE.PS4_REQ.bit v = true →
    s.isStatus .PWR_PSTATE 0 v = false → s.anyLaunched = false → 20 ≤ PWR_PSTATE.LEHR_FLOOR.val v →
    PWR_PSTATE.LEHR_FLOOR.val v ≤ 70 →
    exec (.ps4Req w v) s = .next ((s.clrW1C .PWR_PSTATE 0 v).putRW .PWR_PSTATE 0 v).lehr.enterPs4) ∧
  (∀ s : State, s.enterPs4.fget PWR_PSTATE.STATE 0 = 4 ∧ s.enterPs4.up = false ∧ s.enterPs4.mem.bytes = [] ∧
    s.enterPs4.cfe.cmds = [] ∧ s.enterPs4.core.rsds = [] ∧ s.enterPs4.fab = {})

/-- Fencing: a core fault begins a substitution, which gives the logical core its spare or makes a hole; SPARE_FENCE starts and
cancels a drain; a drained site is gated; a wear reading is recorded (R164 to R166, R565, R566, R570 to R572). -/
def Obligations.SpareFencing : Prop :=
  (∀ (s : State) (site l : Nat), site < 2304 → s.hubUp = true → s.spare.fenced.contains site = false → s.siteCore site = some l →
    s.siteCtxs site = [] → exec (.spareSubstitution site) s = .next
      ({ s.fset SPARE_WEAR.USE site 2 with
         spare := { s.spare with fenced := s.spare.fenced ++ [site], fencing := s.spare.fencing ++ [Fencing.mk l site 2 false] }
         cfe := { s.cfe with held := tset s.cfe.held l (tget s.cfe.held l 0 + 1) 0 } }.fset SPARE_FENCE.BUSY 0 1)) ∧
  (∀ (s : State) (site : Nat) (f : Fencing) (ok : Bool), site < 2304 → s.hubUp = true →
    s.spare.fencing.find? (fun f => decide (f.site = site) && !f.drain) = some f →
    s.fget SPARE_CMAP.SPARE_POS (f.lcore / 8) = 15 → exec (.substitutionDone site ok) s = .next
      (((((s.fset SPARE_CMAP.SPARE_POS (f.lcore / 8) 15).setMember f.lcore 15).recordFence 1 f.origin (siteUnit f.site)).freeCore
        f.lcore).dropFencing site)) ∧
  (∀ (s : State) (site sp : Nat) (f : Fencing), site < 2304 → s.hubUp = true →
    s.spare.fencing.find? (fun f => decide (f.site = site) && !f.drain) = some f →
    s.fget SPARE_CMAP.SPARE_POS (f.lcore / 8) = sp → sp < 9 →
    (let spare := siteAt (f.lcore / 512) (s.fget SPARE_CMAP.PCLUST (f.lcore / 8)) sp
     exec (.substitutionDone site true) s = .next
      ((((((s.fset SPARE_CMAP.SPARE_POS (f.lcore / 8) 15).csZero spare).setMember f.lcore sp).fset SPARE_WEAR.USE spare 0).recordFence
        1 f.origin (siteUnit f.site)).freeCore f.lcore |>.dropFencing site))) ∧
  (∀ (s : State) (w : Who) (v site l : Nat), s.reaches w = true → s.barred w .SPARE_FENCE 0 v = .none →
    s.isStatus .SPARE_FENCE 0 v = false → s.fenceGoBad v = false → SPARE_FENCE.GO.bit v = true → SPARE_FENCE.CANCEL.bit v = false →
    SPARE_FENCE.KIND.val v = 1 → SPARE_FENCE.DRAIN.bit v = true → unitSite (SPARE_FENCE.UNIT.val v) = some site →
    (let u := (s.clrW1C .SPARE_FENCE 0 v).putRW .SPARE_FENCE 0 v
     u.inCullet 1 (SPARE_FENCE.UNIT.val v) = false → u.siteCore site = some l →
     exec (.spareFenceGo w v) s = .next ((u.holdCore l).addFencing ⟨l, site, 3, true⟩))) ∧
  (∀ (s : State) (w : Who) (v site l : Nat), s.reaches w = true → s.barred w .SPARE_FENCE 0 v = .none →
    s.isStatus .SPARE_FENCE 0 v = false → SPARE_FENCE.GO.bit v = false → SPARE_FENCE.CANCEL.bit v = true →
    s.spare.fencing = [⟨l, site, 3, true⟩] → exec (.spareFenceCancel w v) s = .next
      ({ (s.clrW1C .SPARE_FENCE 0 v).putRW .SPARE_FENCE 0 v with
         spare := { s.spare with fencing := [] }
         cfe := { s.cfe with held := tset s.cfe.held l (tget s.cfe.held l 0 - 1) 0 } }.fset SPARE_FENCE.BUSY 0 0)) ∧
  (∀ (s : State) (site l o : Nat), site < 2304 → s.hubUp = true → s.core.rsds = [] → s.spare.fencing = [⟨l, site, o, true⟩] →
    exec (.drainComplete site) s = .next ({ s with
      spare := { s.spare with fencing := [⟨l, site, o, false⟩], fenced := s.spare.fenced ++ [site] } }.fset SPARE_WEAR.USE site 2)) ∧
  (∀ (s : State) (site ps tj base : Nat), site < 2304 → s.hubUp = true → s.fget SPARE_WEAR.USE site ≤ 1 →
    s.fon GCTL_BOOT_STAT.SAFE_MODE 0 = false → s.wearBase site (s.pwr.vs.getD (siteDie site) 0) ps = base → 0 < base →
    10000 * ((ps : Int) - base) % base = 0 → 10000 * ((ps : Int) - base) / base ≤ (s.fget SPARE_WEAR_CTL.WARN 0 : Int) * 10 →
    exec (.wearReading site ps tj) s = .next ((((s.fset SPARE_WEAR.DRIFT site (wrapInt 16 (10000 * ((ps : Int) - base) / base))).fset
      SPARE_WEAR.VS site (s.pwr.vs.getD (siteDie site) 0)).fset SPARE_WEAR.TJ site tj).drew))

/-- Investigations: an ambiguous fault starts one, a hub engine fault counts one, and self-test, a replay's end and its timer move it
on (R582 to R593). -/
def Obligations.Investigations : Prop :=
  (∀ (s : State) (site ring seq pos iter l : Nat), site < 2304 → ring < 8192 → s.live = true → s.siteCore site = some l →
    s.investigated site = false → s.spare.fenced.contains site = false →
    exec (.handshakeStall site ring seq pos iter) s = .next (s.investigate site l 0 ring seq pos iter) ∧
    exec (.microcodeCheck site ring seq pos iter) s = .next (s.investigate site l 1 ring seq pos iter)) ∧
  (∀ (s : State) (site l k ring seq pos iter : Nat), s.spare.inv = none → s.spare.invQ = [] → s.siteCtxs site = [] →
    s.siteCmds site = [] → s.fon SPARE_DUMP.BUSY 0 = true → s.freeSlot.isSome = true →
    (s.investigate site l k ring seq pos iter).spare.inv = some ⟨site, l, k, pos, iter, ring, seq, [], false, [], false, 0⟩ ∧
    tget (s.investigate site l k ring seq pos iter).cfe.held l 0 = tget s.cfe.held l 0 + 1 ∧
    (s.investigate site l k ring seq pos iter).fget SPARE_REPLAY_STAT.STATE 0 = 1 ∧
    (s.investigate site l k ring seq pos iter).fget SPARE_DUMP.DROPPED 0 = satAdd 8 (s.fget SPARE_DUMP.DROPPED 0) 1) ∧
  (∀ (s : State) (e : Nat), s.hubUp = true → exec (.hubEngineFault e) s =
    .next ((s.resetMany (s.engineCtxs e) 0x0302 fun _ => 0).escalate)) ∧
  (∀ (s : State) (i : Invest), s.hubUp = true → s.spare.inv = some i → s.fget SPARE_REPLAY_STAT.STATE 0 = 1 → i.suspects = [] →
    exec (.investigationSelftestDone false) s = .next ((s.fenceSite i.site 2).verdict i 1 0)) ∧
  (∀ (s : State) (i : Invest), s.live = true → s.spare.inv = some i → s.fget SPARE_REPLAY_STAT.STATE 0 = 2 → i.running = false →
    i.todo = [] → s.fget SPARE_WEAR.TRANS i.site = 0 → exec (.replayCommandEnd false) s = .next
      ((s.fset SPARE_WEAR.TRANS i.site 1).verdict i (if i.open_ then 4 else 3) 0)) ∧
  (∀ (s : State) (i : Invest) (c : Cmd), s.hubUp = true → s.spare.inv = some i → i.todo = [c] → i.running = true →
    i.tRun + s.fget SPARE_REPLAY_CTL.TMO 0 * 1000000 ≤ s.time.run → Gives .replayTmo s fun t =>
      t = ((s.endReplay { i with open_ := true } c).nextReplay 2) ∧
      (∀ d ∈ (s.endReplay { i with open_ := true } c).cfe.cmds, d.is c.ring c.seq = false))

/-- Aborts, the log's notice and the crash dump (R598, R601, R602, R606, R609, R610, R613). -/
def Obligations.AbortsAndDump : Prop :=
  (∀ (s : State) (w : Who) (g v : Nat), g < 4096 → s.reaches w = true → s.barred w .SPARE_ABIND g v = .none →
    s.isStatus .SPARE_ABIND g v = false → s.abindBad g v = false → exec (.spareAbindWrite w g v) s =
      .next ((s.clrW1C .SPARE_ABIND g v).putRW .SPARE_ABIND g v)) ∧
  (∀ (s : State) (arr : Nat) (p : Pkt), arr < 22 → s.hubUp = true → s.fon FAB_CTL.EN 0 = true → PH.TYPE.of p.hdr = tyABORT →
    pktSound p = true → s.fon FAB_MCG.VALID (pktGroup p) = true →
    s.seenAbort (pktGroup p) (ABP.ORIGIN.of (ofLE p.pay)) (ABP.ANUM.of (ofLE p.pay)) = false →
    exec (.abort arr p) s = .next
      (((s.recordAbort (pktGroup p) (ABP.ORIGIN.of (ofLE p.pay)) (ABP.ANUM.of (ofLE p.pay))).spreadAbort (pktGroup p) p
        (some arr)).actAbort (pktGroup p) p)) ∧
  (∀ (s : State) (t : Nat), s.pwr.on = true → s.spare.elogT = some t → s.spare.elogOwed = true → t + 10000 ≤ s.time.now →
    s.fon SPARE_ELOG_PTR.NOTIFY 0 = true → tget s.cfe.masked 0 1 = 0 → exec .elogNotify s = .next
      { s with spare := { s.spare with elogOwed := false, elogT := some s.time.now }, out := s.out ++ [.msix 0] }) ∧
  (∀ (s : State) (w : Who) (v : Nat), s.reaches w = true →
    (let full := s.wordPut .SPARE_DUMP 0 0 v
     let u := (s.clrW1C .SPARE_DUMP 0 full).putRW .SPARE_DUMP 0 full
     s.barred w .SPARE_DUMP 0 full = .none → s.isStatus .SPARE_DUMP 0 full = false → s.xgoBad full = false →
     (SPARE_DUMP.TAKE.bit v = true → SPARE_DUMP.TAKE.bit full = true → SPARE_DUMP.XGO.bit full = false →
       (let x : State := { u with mem := { u.mem with
          captures := u.mem.captures.filter fun c => (u.fget SPARE_DUMP.USED 0).testBit c.slot } }
        exec (.dumpTake w v) s = .next (x.trigger 0 x.workSites false []))) ∧
     (SPARE_DUMP.XGO.bit v = true → SPARE_DUMP.XGO.bit full = true → SPARE_DUMP.TAKE.bit full = false → Gives (.dumpXgo w v) s fun t =>
       t.fget SPARE_DUMP.XBUSY 0 = 1 ∧ s.sameRegsBut t [.SPARE_DUMP] ∧ t.mem.bytes = s.mem.bytes) ∧
     (SPARE_DUMP.USED.val v ≠ 0 → SPARE_DUMP.TAKE.bit full = false → SPARE_DUMP.XGO.bit full = false →
       exec (.dumpUsedClear w v) s = .next { u with mem := { u.mem with
         captures := u.mem.captures.filter fun c => (u.fget SPARE_DUMP.USED 0).testBit c.slot } }))) ∧
  (∀ (s : State) (w : Who) (v : Nat), s.reaches w = true → s.barred w .SPARE_DUMP 0 (s.wordPut .SPARE_DUMP 0 0 v) = .none →
    s.isStatus .SPARE_DUMP 0 (s.wordPut .SPARE_DUMP 0 0 v) = true → SPARE_DUMP.USED.val v ≠ 0 →
    exec (.dumpUsedClear w v) s = .next (s.clrW1C .SPARE_DUMP 0 (s.wordPut .SPARE_DUMP 0 0 v))) ∧
  (∀ (s : State) (c : Capture), s.hubUp = true → s.fon SPARE_DUMP.BUSY 0 = true → s.mem.capNow = some c →
    (let u := s.obsStall ((dumpFrame + 64 * c.slot) * 2 ^ 21) c.bytes.length
     exec .captureDone s = .next (({ u with mem := { u.mem with
      captures := u.mem.captures.filter (fun d : Capture => decide (d.slot ≠ c.slot)) ++ [c], capNow := none } }.fset SPARE_DUMP.USED 0
        (u.fget SPARE_DUMP.USED 0 ||| 2 ^ c.slot)).fset SPARE_DUMP.BUSY 0 0))) ∧
  (∀ (s : State) (c : Capture) (n lo dst j : Nat), s.hubUp = true → s.fon SPARE_DUMP.XBUSY 0 = true →
    s.capture (SPARE_DUMP.XSLOT.val s.mem.copyJob) = some c → n = (SPARE_DUMP.XLEN_M1.val s.mem.copyJob + 1) * 4096 →
    lo = SPARE_DUMP.XOFF.val s.mem.copyJob * 4096 → dst = SPARE_DUMP.XDST.val s.mem.copyJob * 4096 →
    j * 2 ^ 21 ≤ lo → lo + n ≤ (j + 1) * 2 ^ 21 → j < 64 →
    s.fon MEM_STK_STATUS.FENCED (stackOf (dumpFrame + 64 * SPARE_DUMP.XSLOT.val s.mem.copyJob + j)) = false →
    (let b := slice c.bytes lo n
     exec .dumpCopyDone s = .next (((s.rawWrite ⟨0, 0, none, 7⟩ dst (b ++ zeros (n - b.length))).st.fset
       SPARE_DUMP.XBUSY 0 0).fset SPARE_DUMP.XDONE 0 1)))

/-- Mirror pairs: pairing, RENEW and GRANT, the lease's end and promotion (R619 to R625, R608). -/
def Obligations.MirrorPair : Prop :=
  (∀ (s : State) (w : Who) (v : Nat), s.reaches w = true → s.barred w .SPARE_PAIR 0 v = .none → s.isStatus .SPARE_PAIR 0 v = false →
    s.fon SPARE_PAIR.VALID 0 = false → SPARE_PAIR.VALID.bit v = true → SPARE_PAIR.REQ.val v = 1 → exec (.sparePairWrite w v) s =
      .next ((s.clrW1C .SPARE_PAIR 0 v).putRW .SPARE_PAIR 0 v).becomePrimary) ∧
  (∀ (s : State), s.hubUp = true → s.inPair = true → s.role = 1 → s.spare.renewT + 1000000 ≤ s.count → exec .renewSend s = .next
    ({ s with spare := { s.spare with renewN := (s.spare.renewN + 1) % 2 ^ 32, renewT := s.count,
                                      renews := s.spare.renews ++ [(s.spare.renewN, s.count)] } }.toPartner
      (leBytes 8 s.count ++ leBytes 8 s.spare.promoT ++ leBytes 4 s.spare.renewN))) ∧
  (∀ (s : State) (p : Pkt) (t : DStream), s.Takes p t → PH.TYPE.of p.hdr = tyMGMT → s.inPair = true → pktMod p = s.partner →
    s.role = 2 → exec (.renew p) s = .next
      (({ s.settled p t with spare := { s.spare with lastRx := s.count, seen := leAt (pktKept p) 0 8 } }.fset SPARE_PAIR_STATE.ARMED 0
        1).toPartner (slice (pktKept p) 0 8 ++ slice (pktKept p) 16 4))) ∧
  (∀ (s : State) (p : Pkt) (t : DStream) (n c : Nat), s.Takes p t → PH.TYPE.of p.hdr = tyMGMT → s.inPair = true →
    pktMod p = s.partner → s.role = 1 → s.spare.renews = [(n, c)] → leAt (pktKept p) 8 4 = n → leAt (pktKept p) 0 8 = c →
    exec (.grant p) s = .next ({ s.settled p t with
      spare := { s.spare with granted := true, leaseEnd := max s.spare.leaseEnd (c + 7000000), renews := [] } }.fset
        SPARE_PAIR_STATE.LEASED 0 1)) ∧
  (∀ s : State, s.up = true → s.role = 1 → s.spare.granted = true → s.spare.leaseEnd ≤ s.count → exec .leaseExpiry s = .next
    ((((s.fset SPARE_PAIR_STATE.ROLE 0 3).fset SPARE_PAIR_STATE.LEASED 0 0).fset SPARE_PAIR_STATE.ARMED 0 0).log
      { code := 0x0306, data := s.partner + (s.spare.seen <<< 14) })) ∧
  (∀ s : State, s.hubUp = true → s.role = 2 → s.fon SPARE_PAIR_STATE.ARMED 0 = true → s.spare.lastRx + 3000000 ≤ s.count →
    exec .promotionTimeout s = .next ((s.becomePrimary.fsat SPARE_PAIR_STATE.PROMO 0 1).log
      { code := 0x0307, data := s.partner + (s.spare.seen <<< 14) })) ∧
  (∀ s : State, s.becomePrimary.role = 1 ∧ s.becomePrimary.spare.promoT = s.count ∧ s.becomePrimary.spare.granted = false ∧
    s.becomePrimary.fget SPARE_PAIR_STATE.LEASED 0 = 0)

/-- Resynchronisation: its start, its frames, a further pass, the switch, its end and its failure (R630 to R634). -/
def Obligations.Resynchronisation : Prop :=
  (∀ (s : State) (w : Who) (v : Nat), s.reaches w = true → s.barred w .SPARE_RESYNC 0 v = .none →
    s.isStatus .SPARE_RESYNC 0 v = false → SPARE_RESYNC.GO.bit v = true → SPARE_RESYNC.SWITCH.bit v = false →
    s.role = 1 ∨ s.role = 2 → s.fon SPARE_RESYNC.BUSY 0 = false → exec (.resyncGo w v 4) s = .next
      (({ s with spare := { s.spare with partnerRole := 4 } }.clrW1C .SPARE_RESYNC 0 v).putRW .SPARE_RESYNC 0 v).startResync) ∧
  (∀ s : State, s.startResync.fget SPARE_PAIR_STATE.SRC 0 = 1 ∧ s.startResync.fget SPARE_RESYNC.BUSY 0 = 1 ∧
    s.startResync.spare.toCopy = s.listFrames ∧ s.startResync.mem.dirty = []) ∧
  (∀ (s : State) (f : Nat) (r : List Nat), s.live = true → s.fon SPARE_RESYNC.BUSY 0 = true → s.spare.frameT ≤ s.time.now →
    s.spare.toCopy = f :: r →
    (let part := s.listPart f
     let world := s.fget SEC_PART.PWORLD part
     s.checkFrame ⟨part, world, none, 5⟩ MEM_RGN.RD f = 0 → exec (.resyncFrame none) s = .next
      ({ s with spare := { s.spare with toCopy := r, progT := s.time.now, frameT := s.time.now + s.frameNs } }.setDirty.beginHub
        (mkXfer .hub none 0 s.partner 0 tyMGMT part world (f * 2097152) 2097152 (.dm part world (f * 2097152)))))) ∧
  (∀ s : State, s.live = true → s.fon SPARE_RESYNC.BUSY 0 = true → s.spare.toCopy = [] → s.mem.dirty ≠ [] →
    exec .resyncPass s = .next { s with
      spare := { s.spare with toCopy := s.mem.dirty, firstPass := false, progT := s.time.now }
      mem := { s.mem with dirty := [] } }.setDirty) ∧
  (∀ (s : State) (w : Who) (v : Nat), s.reaches w = true → s.barred w .SPARE_RESYNC 0 v = .none →
    s.isStatus .SPARE_RESYNC 0 v = false → SPARE_RESYNC.GO.bit v = false → SPARE_RESYNC.SWITCH.bit v = true →
    (let u := (s.clrW1C .SPARE_RESYNC 0 v).putRW .SPARE_RESYNC 0 v
     u.fon SPARE_RESYNC.BUSY 0 = true → exec (.resyncSwitch w v) s = .next u.startSwitch)) ∧
  (∀ (s : State) (src dst : List (List Nat)), s.hubUp = true → s.role = 4 → Gives (.resyncSwitchDone (some (src, dst))) s fun t =>
    t.role = 2 ∧ t.fget SPARE_PAIR_STATE.ARMED 0 = 0 ∧ t.fab.sstr.length = src.length ∧ t.spare.lastRx = s.count ∧
    s.sameRegsBut t [.SPARE_PAIR_STATE] ∧ t.mem = s.mem) ∧
  (∀ s : State, s.live = true → s.switchReady = true → Gives (.resyncSwitchDone none) s fun t =>
    t.fget SPARE_RESYNC.DONE 0 = 1 ∧ t.fget SPARE_RESYNC.BUSY 0 = 0 ∧ t.fget SPARE_PAIR_STATE.SRC 0 = 0 ∧ t.cfe.holdParts = [] ∧
    t.spare.switching = false) ∧
  (∀ s : State, s.hubUp = true → s.fon SPARE_RESYNC.BUSY 0 = true → s.spare.progT + 100000000 ≤ s.time.now →
    exec (.resyncFail false) s = .next (({ ((s.fset SPARE_RESYNC.FAIL 0 1).fset SPARE_RESYNC.BUSY 0 0).fset SPARE_PAIR_STATE.SRC 0 0 with
      spare := { s.spare with toCopy := [], switching := false }
      mem := { s.mem with dirty := [] }
      cfe := { s.cfe with holdParts := [] } }).log { code := 0x0308, data := s.partner + (s.spare.seen <<< 14) }))

/-- TIME_CTL_WRITE, GCTL_OWNER_WRITE, GCTL_ROLE_WRITE and ROLE_TAKES_EFFECT (R39, R44, R47, R51, R62, R83 to R86, R872). -/
def Obligations.SharedControls : Prop :=
  (∀ (s : State) (w : Who) (v : Nat), s.reaches w = true → s.barred w .TIME_CTL 0 v = .none → s.isStatus .TIME_CTL 0 v = false →
    TIME_CTL.PARENT.val v ≤ 21 ∨ TIME_CTL.PARENT.val v = 31 →
    (let u := (s.clrW1C .TIME_CTL 0 v).putRW .TIME_CTL 0 v
     u.fget TIME_CTL.PARENT 0 = s.fget TIME_CTL.PARENT 0 → s.fon TIME_CTL.ROOT 0 = false →
     (u.fon TIME_CTL.ROOT 0 = false → exec (.timeCtlWrite w v) s = .next u) ∧
     (u.fon TIME_CTL.ROOT 0 = true → exec (.timeCtlWrite w v) s = .next u.rootLock))) ∧
  (∀ (s : State) (w : Who) (v : Nat), s.reaches w = true → s.barred w .TIME_CTL 0 v = .none → s.isStatus .TIME_CTL 0 v = false →
    21 < TIME_CTL.PARENT.val v → TIME_CTL.PARENT.val v ≠ 31 → exec (.timeCtlWrite w v) s = .next (s.fset TIME_CTL.REJ 0 1)) ∧
  (∀ (s : State) (w : Who) (v : Nat), s.reaches w = true → s.barred w .GCTL_OWNER 0 v = .none →
    (∀ f ∈ [GCTL_OWNER.PWR, GCTL_OWNER.OBS, GCTL_OWNER.SPARE, GCTL_OWNER.TIME],
      f.val v = s.fget f 0 ∨ (s.fon f 0 = true ↔ w = .mc)) →
    exec (.gctlOwnerWrite w v) s = .next ((s.clrW1C .GCTL_OWNER 0 v).putRW .GCTL_OWNER 0 v)) ∧
  (∀ (s : State) (w : Who) (v : Nat), s.reaches w = true → s.barred w .GCTL_ROLE 0 v = .none → s.isStatus .GCTL_ROLE 0 v = false →
    s.roleBad v = false →
    (let u := (s.clrW1C .GCTL_ROLE 0 v).putRW .GCTL_ROLE 0 v
     exec (.gctlRoleWrite w v) s = .next
      (u.fput GCTL_ROLE.PEND 0 (decide (u.fget GCTL_ROLE.ROLE 0 ≠ u.fget GCTL_ROLE.ROLE_ACT 0))))) ∧
  (∀ s : State, s.hubUp = true → s.fon GCTL_ROLE.PEND 0 = true → s.cfe.cmds = [] → s.att.queries = [] →
    exec .roleTakesEffect s = .next ((s.fset GCTL_ROLE.ROLE_ACT 0 (s.fget GCTL_ROLE.ROLE 0)).fset GCTL_ROLE.PEND 0 0))

/-- Doorbells and the ring registers (R331 to R338). -/
def Obligations.RingsAndDoorbells : Prop :=
  (∀ (s u : State) (w : Who) (page v : Nat), page < 8192 → s.reaches w = true → u = s.wake →
    w = .s ∨ (w = .ns ∧ u.ctxWorld (page / 32) = 0) → u.fon CFE_RING_CMD.EN page = true → BELL.RING.of v = page →
    (wrapSub 32 (BELL.IDX.of v) (u.fget CFE_RING_PTR.TAIL page) < 2 ^ 31 →
      wrapSub 32 (BELL.IDX.of v) (u.fget CFE_RING_PTR.HEAD page) ≤ 2 ^ u.fget CFE_RING_CMD.K page →
      exec (.commandDoorbell w page v) s = .next (u.fset CFE_RING_PTR.TAIL page (BELL.IDX.of v))) ∧
    (2 ^ 31 ≤ wrapSub 32 (BELL.IDX.of v) (u.fget CFE_RING_PTR.TAIL page) → exec (.commandDoorbell w page v) s = .next u) ∧
    (wrapSub 32 (BELL.IDX.of v) (u.fget CFE_RING_CPTR.CHEAD page) ≤
        wrapSub 32 (u.fget CFE_RING_CPTR.CTAIL page) (u.fget CFE_RING_CPTR.CHEAD page) →
      exec (.completionDoorbell w page v) s = .next (u.fset CFE_RING_CPTR.CHEAD page (BELL.IDX.of v)))) ∧
  (∀ s : State, s.fget PWR_PSTATE.STATE 0 = 0 → s.wake = s) ∧
  (∀ s : State, 1 ≤ s.fget PWR_PSTATE.STATE 0 → s.fget PWR_PSTATE.STATE 0 ≤ 3 → s.wake.fget PWR_PSTATE.STATE 0 = 0) ∧
  (∀ (s : State) (w : Who) (r v : Nat), r < 8192 → s.reaches w = true → s.barred w .CFE_RING_CMD r v = .none →
    s.isStatus .CFE_RING_CMD r v = false → s.ringCmdBad r v = false → CFE_RING_CMD.EN.bit v = true →
    exec (.cfeRingCmdWrite w r v) s = .next ((((((s.clrW1C .CFE_RING_CMD r v).putRW .CFE_RING_CMD r v).fset CFE_RING_PTR.HEAD r
      0).fset CFE_RING_PTR.TAIL r 0).fset CFE_RING_CPTR.CHEAD r 0).fset CFE_RING_CPTR.CTAIL r 0)) ∧
  (∀ (s : State) (w : Who) (r v : Nat), r < 8192 → s.reaches w = true → s.barred w .CFE_RING_CMD r v = .none →
    s.isStatus .CFE_RING_CMD r v = false → s.ringCmdBad r v = true →
    exec (.cfeRingCmdWrite w r v) s = .next (s.fset CFE_RING_CMD.REJ r 1)) ∧
  (∀ (s : State) (w : Who) (r v : Nat), r < 8192 → s.reaches w = true → s.barred w .CFE_RING_CPL r v = .none →
    s.isStatus .CFE_RING_CPL r v = false → s.fon CFE_RING_CMD.EN r = false → exec (.cfeRingCplWrite w r v) s =
      .next ((s.clrW1C .CFE_RING_CPL r v).putRW .CFE_RING_CPL r v)) ∧
  (∀ (s : State) (w : Who) (r v : Nat), r < 8192 → s.reaches w = true → s.barred w .CFE_RING_CPL r v = .none →
    s.isStatus .CFE_RING_CPL r v = false → s.fon CFE_RING_CMD.EN r = true → exec (.cfeRingCplWrite w r v) s =
      .next (s.fset CFE_RING_CMD.REJ r 1))

/-- COMMAND_READ takes a valid NOP in, advances `HEAD`, and leaves it to wait; NOP, LAUNCH, CORE_DONE and DONE_MESSAGE take a command
to its completion record (R33 to R36, R341 to R351, R734). -/
def Obligations.CommandsRun : Prop :=
  (∀ (s : State) (r : Nat), r < 8192 → s.live = true → s.mayRead r = true →
    (let head := s.fget CFE_RING_PTR.HEAD r
     let m := s.rawRead (s.accOf (r / 32) 2) (s.fget CFE_RING_CMD.BASE r * 4096 + 64 * (head % 2 ^ s.fget CFE_RING_CMD.K r)) 64
     m.code = 0 → ofLE m.bytes = 0 → Gives (.commandRead r []) s fun t =>
       t = (m.st.fset CFE_RING_PTR.HEAD r (head + 1)).takeCmd r head 0 ∧
       t.cfe.cmds = m.st.cfe.cmds ++ [newCmd r head 0 []] ∧ t.fget CFE_RING_PTR.HEAD r = (head + 1) % 2 ^ 32)) ∧
  (∀ (s : State) (ring seq : Nat) (c : Cmd), ring < 8192 → s.cmdAt ring seq = some c → CMD.OP.of c.word = 0 → s.mayLaunch c = true →
    exec (.nop ring seq) s = .next (s.complete c 0)) ∧
  (∀ (s : State) (ring seq : Nat) (c : Cmd), ring < 8192 → s.cmdAt ring seq = some c → CMD.OP.of c.word = 1 → s.mayLaunch c = true →
    s.placeCode c = 0 → (∀ l ∈ c.cores, s.room l c.nctr = true ∧ s.coreHeld l = false) →
    let u := s.launched c c.lt.length ((clustersOf c.lt).map s.clCounters)
    let e := { u with core := { u.core with rsds := s.core.rsds ++ c.lt.map (u.resident c) } }.engines
    (CMD.HINT.of c.word = 0 → exec (.launch ring seq) s = .next e) ∧
    (CMD.HINT.of c.word ≠ 0 → exec (.launch ring seq) s = .next { e with core := { e.core with
      hints := e.core.hints ++ (c.cores.map (· / 512)).eraseDups.map fun d => (d, CMD.HINT.of c.word, s.time.now) } }) ∧
    (∃ d ∈ u.cfe.cmds, d.ring = c.ring ∧ d.seq = c.seq ∧ d.launched = true ∧ d.expect = c.lt.length ∧ d.tStart = s.count) ∧
    u.cfe.order = s.cfe.order + 1 ∧ u.core = s.core ∧ u.mem = s.mem ∧ u.regs = s.regs) ∧
  (∀ (s : State) (ring seq : Nat) (c : Cmd), ring < 8192 → s.cmdAt ring seq = some c → CMD.OP.of c.word = 1 → s.mayLaunch c = true →
    s.placeCode c ≠ 0 → exec (.launch ring seq) s = .next (s.complete c (s.placeCode c))) ∧
  (∀ (s : State) (lcore ring seq : Nat) (r : Rsd), lcore < 2048 → ring < 8192 → s.hubUp = true →
    s.core.rsds.find? (fun r => decide (r.lcore = lcore) && decide (r.ring = ring) && decide (r.seq = seq)) = some r →
    r.ended = true → r.flights = [] → r.doneSent = false → r.dead = false → s.workSettled r = true →
    Gives (.coreDone lcore ring seq) s fun t => t.cfe = { s.cfe with dones := s.cfe.dones ++ [(ring, seq, lcore)] } ∧
      (∀ q ∈ t.core.rsds, q.lcore = lcore → q.ring = ring → q.seq = seq → q.doneSent = true) ∧ t.regs = s.regs ∧ t.mem = s.mem) ∧
  (∀ (s : State) (lcore ring seq : Nat) (c : Cmd), lcore < 2048 → ring < 8192 → s.hubUp = true → s.cfe.dones = [(ring, seq, lcore)] →
    s.cmdAt ring seq = some c → c.expect ≤ c.ndone + 1 → s.fget CTX_STATE.STATE (ring / 32) = 1 →
    exec (.doneMessage lcore ring seq) s = .next
      (({ s with cfe := { s.cfe with dones := [] } }.setCmd { c with ndone := c.ndone + 1 }).complete { c with ndone := c.ndone + 1 } 0))

/-- Completing a command: one record of 64 bytes at the ring's next place, `CTAIL` one on, and nothing of the command left (R351). -/
def Obligations.CompletionRecord : Prop :=
  ∀ (s : State) (c : Cmd) (status : Nat), c.ring < 8192 →
    (let i := s.fget CFE_RING_CPTR.CTAIL c.ring
     let w := s.rawWrite (s.accOf (c.ring / 32) 2) (s.fget CFE_RING_CPL.BASE c.ring * 4096 + 64 * (i % 2 ^ s.fget CFE_RING_CPL.J c.ring))
       (leBytes 64 (s.cplWord c status))
     (s.complete c status).mem = w.st.mem ∧
     (s.complete c status).fget CFE_RING_CPTR.CTAIL c.ring = (i + 1) % 2 ^ 32 ∧
     (∀ d ∈ (s.complete c status).cfe.cmds, d.is c.ring c.seq = false) ∧
     (∀ r ∈ (s.complete c status).core.rsds, ¬ (r.ring = c.ring ∧ r.seq = c.seq)) ∧
     (∀ d ∈ (s.complete c status).cfe.dones, ¬ (d.1 = c.ring ∧ d.2.1 = c.seq)))

/-- The context table: CTX_CFG_WRITE, CTX_CTL_RESET, CTX_CTL_RESUME, DIV_CLR, HANG_TIMEOUT and CONTEXT_RESET_DONE (R360 to R366). -/
def Obligations.Contexts : Prop :=
  (∀ (s : State) (w : Who) (c v : Nat), c < 256 → s.reaches w = true → s.barred w .CTX_CFG c v = .none →
    s.isStatus .CTX_CFG c v = false → s.ctxCfgBad c v = false → s.fon CTX_CFG.EN c = false → CTX_CFG.EN.bit v = true →
    (let u := s.clrW1C .CTX_CFG c v
     u.fon CTX_CFG.EN c = false → exec (.ctxCfgWrite w c v) s = .next ((((u.putRW .CTX_CFG c v).fset CTX_STATE.STATE c 1).fset
       CTX_STATE.RESETS c 0).fset CTX_DIV.DIV c 0))) ∧
  (∀ (s : State) (w : Who) (c : Nat), c < 256 → s.reaches w = true → s.barred w .CTX_CTL c 1 = .none →
    s.fget CTX_STATE.STATE c = 1 → exec (.ctxCtlReset w c) s = .next (s.ctxReset c 0x0707 0)) ∧
  (∀ (s : State) (w : Who) (c : Nat), c < 256 → s.reaches w = true → s.barred w .CTX_CTL c 2 = .none →
    s.fget CTX_STATE.STATE c = 3 → s.suspect c = false → s.fon SPARE_ESC.WITHDRAWN 0 = false → s.scrubbing (s.ctxPart c) = false →
    exec (.ctxCtlResume w c) s = .next (s.fset CTX_STATE.STATE c 1)) ∧
  (∀ (s : State) (w : Who) (c : Nat), c < 256 → s.reaches w = true → s.barred w .CTX_CTL c 4 = .none →
    exec (.divClr w c) s = .next (s.fset CTX_DIV.DIV c 0)) ∧
  (∀ (s : State) (ring seq : Nat) (c : Cmd), ring < 8192 → s.live = true → s.cmdAt ring seq = some c → c.launched = true →
    s.fget CTX_CFG.HANG (ring / 32) ≠ 0 → s.fget CTX_STATE.STATE (ring / 32) = 1 →
    c.lastProg + s.fget CTX_CFG.HANG (ring / 32) * 1000000 ≤ s.time.run → exec (.hangTimeout ring seq) s = .next
      ((s.trigger 1 ((s.core.rsds.filter fun r => decide (r.ring = ring) && decide (r.seq = seq)).map (·.site)) false
        (s.waitGraph ring seq)).ctxReset (ring / 32) 0x0706 (ring + (seq <<< 13)))) ∧
  (∀ (s : State) (c code : Nat), c < 256 → s.hubUp = true → s.fget CTX_STATE.STATE c = 2 → s.cfe.cmds = [] → s.cfe.rst = [(c, code)] →
    exec (.contextResetDone c) s = .next ((({ s with cfe := { s.cfe with rst := [] } }.fset CTX_STATE.STATE c 3).fset
      CTX_STATE.LAST_ERR c code).fset CTX_STATE.RESETS c (satAdd 16 (s.fget CTX_STATE.RESETS c) 1)))

/-- COLL_GRP_WRITE, and ALLREDUCE, REDUCE_SCATTER, ALLGATHER and TRIGGERED as they launch: a command the engine refuses completes with
its code; else its instance starts, and of a triggered list every entry is loaded and checked (R499, R503 to R507, R509, R510, R512,
R525, R528). -/
def Obligations.CollectivesStart : Prop :=
  (∀ (s : State) (w : Who) (g k v : Nat), g < 4096 → k < 2 → s.reaches w = true →
    (let full := s.wordPut .COLL_GRP g k v
     s.barred w .COLL_GRP g full = .none → s.isStatus .COLL_GRP g full = false →
     (s.grpReject g full = false → exec (.collGrpWrite w g k v) s = .next ((s.clrW1C .COLL_GRP g full).putRW .COLL_GRP g full)) ∧
     (s.grpReject g full = true → exec (.collGrpWrite w g k v) s = .next (s.fset COLL_GRP.REJ g 1)))) ∧
  (∀ (s : State) (ring seq : Nat) (c : Cmd), ring < 8192 → s.cmdAt ring seq = some c → CMD.OP.of c.word = 2 → s.mayLaunch c = true →
    (let i := s.newInst c []
     (s.collStartCode i ≠ 0 →
       (CBODY.CKIND.of c.word = 0 → exec (.allreduce ring seq []) s = .next (s.complete c (s.collStartCode i))) ∧
       (CBODY.CKIND.of c.word = 1 → exec (.reduceScatter ring seq []) s = .next (s.complete c (s.collStartCode i))) ∧
       (CBODY.CKIND.of c.word = 2 → exec (.allgather ring seq []) s = .next (s.complete c (s.collStartCode i))) ∧
       (CBODY.CKIND.of c.word = 3 → exec (.triggered ring seq []) s = .next (s.complete c (s.collStartCode i)))) ∧
     (s.collStartCode i = 0 → s.collRoom i = true →
       (CBODY.CKIND.of c.word = 0 → exec (.allreduce ring seq []) s = .next (s.startRing c i)) ∧
       (CBODY.CKIND.of c.word = 1 → exec (.reduceScatter ring seq []) s = .next (s.startRing c i)) ∧
       (CBODY.CKIND.of c.word = 2 → exec (.allgather ring seq []) s = .next (s.startRing c i))) ∧
     (s.collStartCode i = 0 → CBODY.CKIND.of c.word = 3 → ∀ b : List Byte,
       s.memRead (s.accOf (ring / 32) 3) MEM_RGN.FETCH (CMD.LT_ADDR.of c.word * 64) (64 * (CMD.NCORES_M1.of c.word + 1)) = ⟨0, b, s⟩ →
       c.ring = ring →
       (let tops := (List.range (CMD.NCORES_M1.of c.word + 1)).map fun k => leAt b (64 * k) 64
        let j := s.newInst c tops
        (s.topsCode j.ctx c.nctr (j.n - 1) tops ≠ 0 →
          exec (.triggered ring seq []) s = .next (s.complete c (s.topsCode j.ctx c.nctr (j.n - 1) tops))) ∧
        (s.topsCode j.ctx c.nctr (j.n - 1) tops = 0 → s.collRoom j = true → s.coll.early = [] →
          Gives (.triggered ring seq []) s fun t => t.coll.insts = s.coll.insts ++ [j] ∧ t.cfe.order = s.cfe.order + 1 ∧
            t.mem = s.mem ∧ t.regs = s.regs)))))

/-- Ring pieces: PIECE_SEND spends one grant of the successor and sends the piece with its header; RS_DATA enters staging reduced with
the member's own piece as `received ⊕ own`, AG_DATA as it is; PIECE_WRITE writes a staged piece and grants the predecessor one more
(R507, R509, R512, R513, R535 to R537, R541). -/
def Obligations.RingPieces : Prop :=
  (∀ (s : State) (g q ph k p : Nat) (i : Inst), g < 4096 → s.live = true → s.inst g q = some i → i.sends ph k = true → p < i.pieces →
    i.holds ph k p = true → i.sent.contains (pieceKey ph k p) = false → 0 < i.credit →
    (let f := i.sendFmt ph k
     let n := i.lenOf p * collBytes f
     let j : Inst := { i with credit := i.credit - 1, sent := i.sent ++ [pieceKey ph k p] }
     let x := mkXfer (.piece g q (pieceKey ph k p)) (some i.ctx) i.ep (epMod i.succ) (epNum i.succ) tyCOLL (s.ctxPart i.ctx)
       (s.ctxWorld i.ctx) 0 n (.dm (s.ctxPart i.ctx) (s.ctxWorld i.ctx) (if i.fromSrc ph k then i.srcAt k p else i.dstAt k p))
     exec (.pieceSend g q ph k p) s = .next (((s.setInst j).progress i.ring i.seq).instSend j
       { x with pre := collHdr (i.hdrFields ph ++ [(CH.FMT, f), (CH.CHUNK, k), (CH.PIECE, p)]), mtlen := n + 32 }))) ∧
  (∀ (s : State) (p : Pkt) (t : DStream) (i : Inst) (b : List Byte), s.Takes p t → PH.TYPE.of p.hdr = tyCOLL →
    s.inst (collKey p).1 (collKey p).2 = some i →
    (let h := collHdrOf p
     let k := CH.CHUNK.of h
     let n := CH.PIECE.of h
     (CH.PKIND.of h = 0 → i.pieceBad 0 h (p.pay.drop 32).length = false →
       s.memRead (s.instAcc i) MEM_RGN.RD (i.srcAt k n) (i.lenOf n * collBytes i.dfmt) = ⟨0, b, s⟩ →
       exec (.rsData p []) s = .next ((s.setInst { i with staged := i.staged ++
         [(pieceKey 0 k n, combineRuns (i.recvFmt 0 k) i.dfmt i.out i.rop (p.pay.drop 32) b)] }).settled p t)) ∧
     (CH.PKIND.of h = 1 → i.pieceBad 1 h (p.pay.drop 32).length = false →
       exec (.agData p) s = .next ((s.setInst { i with staged := i.staged ++ [(pieceKey 1 k n, p.pay.drop 32)] }).settled p t)))) ∧
  (∀ (s : State) (g q ph k p : Nat) (i : Inst) (b : List Byte), g < 4096 → s.hubUp = true → s.inst g q = some i →
    i.staged.find? (fun e => decide (e.1 = pieceKey ph k p)) = some (pieceKey ph k p, b) →
    (ph = 1 → i.sends 0 k = true → (i.fromSrc 0 k = false ∨ i.src = i.dst) → i.acked.contains (pieceKey 0 k p) = true) →
    (let m := s.memWrite (s.instAcc i) MEM_RGN.WR (i.dstAt k p) b
     let j : Inst := { i with staged := i.staged.filter (fun e => decide (e.1 ≠ pieceKey ph k p)), wrote := i.wrote ++ [pieceKey ph k p] }
     m.code = 0 → exec (.pieceWrite g q ph k p) s = .next (((m.st.instUp j).grantPieces j 3 1).checkInst g q)))

/-- Grants and signals between members: READY and CREDIT add pieces, a TSIG adds to its counter, a TPUT writes its bytes under `FPUT` and
adds its signal when it closes, and each is settled; one that finds no instance waits in the early table for a second (R512, R530,
R532, R533, R536, R538). -/
def Obligations.CollectiveSignals : Prop :=
  (∀ (s : State) (p : Pkt) (t : DStream) (i : Inst), s.Takes p t → PH.TYPE.of p.hdr = tyCOLL → s.inst (collKey p).1 (collKey p).2 = some i →
    (let h := collHdrOf p
     (CH.PKIND.of h = 2 → exec (.collReady p) s = .next ((s.setInst { i with credit := i.credit + CH.NCRED.of h }).settled p t)) ∧
     (CH.PKIND.of h = 3 → exec (.collCredit p) s = .next ((s.setInst { i with credit := i.credit + CH.NCRED.of h }).settled p t)) ∧
     (∀ v, CH.PKIND.of h = 5 → i.ctrs[CH.RCTR.of h]? = some v → v + CH.INC.of h < 2 ^ 32 → exec (.collTsig p) s =
       .next ((s.setInst { i with ctrs := i.ctrs.set (CH.RCTR.of h) (v + CH.INC.of h) }).settled p t)) ∧
     (let m := s.memWrite ⟨PH.PART.of p.hdr, PH.WORLD.of p.hdr, none, 5⟩ MEM_RGN.FPUT (PH.RADDR.of p.hdr) (p.pay.drop 32)
      CH.PKIND.of h = 4 → m.code = 0 →
      (CH.R_EN.on h = false → exec (.collTput p []) s = .next ((m.st.instUp i).settled p t)) ∧
      (CH.R_EN.on h = true → exec (.collTput p []) s =
        .next (((m.st.instUp i).settled p t).signalColl i.group i.cseq 5 (CH.RCTR.of h) (CH.INC.of h)))))) ∧
  (∀ (s : State) (p : Pkt) (t : DStream), s.Takes p t → PH.TYPE.of p.hdr = tyCOLL → s.inst (collKey p).1 (collKey p).2 = none →
    s.wasInst (collKey p).1 (collKey p).2 = false → s.coll.early.length < 4096 → CH.PKIND.of (collHdrOf p) = 2 →
    exec (.collReady p) s = .next ({ s with coll := { s.coll with early := s.coll.early ++
      [Early.mk (collKey p).1 (collKey p).2 2 (CH.NCRED.of (collHdrOf p)) 0 s.time.now] } }.settled p t)) ∧
  (∀ (s : State) (n : Nat) (e : Early), s.hubUp = true → s.coll.early[n]? = some e → e.t0 + 1000000000 ≤ s.time.now →
    exec (.earlyEntryExpiry n) s = .next ({ s with coll := { s.coll with early := s.coll.early.eraseIdx n } }.logC 0x0247)) ∧
  (∀ (s : State) (g q : Nat) (i : Inst), g < 4096 → s.hubUp = true → s.inst g q = some i → i.lastUp + i.wdog * 1000000 ≤ s.time.run →
    exec (.collStall g q) s = .next (s.failInst i 0x0241 0))

/-- A triggered entry whose threshold is reached fires: TOP_NOP and a TOP_SIGNAL without a remote signal finish at once; TOP_PUT, TOP_GET
and a TOP_SIGNAL send to the member its list names; TOP_REDUCE writes A ⊕ B; TOP_COMPLETE adds the entry's local signal (R527 to R531,
R533 to R536, R541). -/
def Obligations.TriggeredOperations : Prop :=
  (∀ (s : State) (g q idx e : Nat) (i : Inst), g < 4096 → s.live = true → s.inst g q = some i → i.tops[idx]? = some e →
    i.fired.contains idx = false → s.topReady i e = true →
    (let s1 := if TOP.TSRC.on e then s.diverge i.ctx 1 else s
     let j : Inst := { i with fired := i.fired ++ [idx] }
     let u := (s1.setInst j).progress i.ring i.seq
     let part := u.ctxPart i.ctx
     let world := u.ctxWorld i.ctx
     (TOP.TOP.of e = 0 → exec (.topNop g q idx) s = .next (u.topFinish j idx e)) ∧
     (TOP.TOP.of e = 4 → TOP.R_EN.on e = false → exec (.topSignal g q idx []) s = .next (u.topFinish j idx e)) ∧
     (∀ b : List Byte, u.member j (TOP.MEMB.of e) = ⟨0, b, u⟩ →
       (TOP.TOP.of e = 4 → TOP.R_EN.on e = true →
         exec (.topSignal g q idx []) s = .next (u.instMsg j (.top g q idx) (memberAddr b) (j.topHdr 5 e))) ∧
       (TOP.TOP.of e = 1 → exec (.topPut g q idx []) s = .next (u.instSend j
         { mkXfer (.top g q idx) (some i.ctx) i.ep (epMod (memberAddr b)) (epNum (memberAddr b)) tyCOLL part world (TOP.B_ADDR.of e)
             (TOP.LEN.of e) (.dm part world (TOP.A_ADDR.of e)) with
           pre := j.topHdr 4 e, mtlen := TOP.LEN.of e + 32 * ceilDiv (TOP.LEN.of e) 8160 })) ∧
       (TOP.TOP.of e = 2 → exec (.topGet g q idx []) s = .next (u.instSend j
         { mkXfer (.top g q idx) (some i.ctx) i.ep (epMod (memberAddr b)) (epNum (memberAddr b)) tyGETREQ part world (TOP.B_ADDR.of e)
             (TOP.LEN.of e) (.lit (leBytes 32 (TOP.D_ADDR.of e))) with dst := some (.dm part world (TOP.D_ADDR.of e)) }))) ∧
     (∀ a b : List Byte, TOP.TOP.of e = 3 → u.memRead (u.instAcc j) MEM_RGN.RD (TOP.A_ADDR.of e) (TOP.LEN.of e) = ⟨0, a, u⟩ →
       u.memRead (u.instAcc j) MEM_RGN.RD (TOP.B_ADDR.of e) (TOP.LEN.of e) = ⟨0, b, u⟩ →
       (let m := u.memWrite (u.instAcc j) MEM_RGN.WR (TOP.D_ADDR.of e)
         (combineRuns (TOP.DFMT.of e) (TOP.DFMT.of e) (reduceOut (TOP.DFMT.of e) (TOP.ROP.of e)) (TOP.ROP.of e) a b)
        m.code = 0 → exec (.topReduce g q idx []) s = .next (m.st.instUp { j with acked := j.acked ++ [topKey idx] }))))) ∧
  (∀ (s : State) (g q idx e : Nat) (i : Inst), g < 4096 → s.hubUp = true → s.inst g q = some i → i.tops[idx]? = some e →
    i.acked.contains (topKey idx) = true → i.doneT.contains idx = false →
    exec (.topComplete g q idx) s = .next (s.topFinish i idx e))

/-- What every firing leaves besides its own effect: the list's record moves on and counts the occurrence, divergence rises where the
wait-any choice was made, and memory and core store stand. A descriptor is judged when it becomes the next of its list, and the first read
of the counters at which its conditions hold is kept; one that breaks a check fails then (R174, R176, R185, R187, R229, R365, R868). -/
def Obligations.FiringCommon : Prop :=
  (∀ (s : State) (lcore ring seq op : Nat) (f : FireIn) (r : Rsd) (d : Nat), s.Fires lcore ring seq op f r d → r.ctx < 256 →
    (let t := s.fireCommon r d f.twait
     t.rsd lcore ring seq = some (r.fired d) ∧ (r.fired d).pos = r.pos + 1 ∧
     t.fget CTX_DIV.DIV r.ctx = (if r.chooses d then satAdd 32 (s.fget CTX_DIV.DIV r.ctx) 1 else s.fget CTX_DIV.DIV r.ctx) ∧
     t.core.cs = s.core.cs ∧ t.core.accs = s.core.accs ∧ t.core.sigs = s.core.sigs ∧ t.fab = s.fab ∧
     t.pending = s.pending ∧ (r.waitT0 = none → t.mem = s.mem))) ∧
  (∀ (s : State) (r : Rsd) (d : Nat), s.Becomes r d →
    (let q := (s.fillBuf r).2
     s.attend r = (s.setRsd { q with
       next := some d, won := some ⟨(q.conds d).1, (q.conds d).2, r.lastSig, r.ctrs.getD r.lastSig.1 0⟩ }, []))) ∧
  (∀ (s : State) (r : Rsd) (d : Nat), s.mayFire r = true → r.next = none → r.pos < r.wlLen → (s.fillBuf r).1 = s →
    tfind (s.fillBuf r).2.buf r.pos = some d →
    (let q := (s.fillBuf r).2
     let j := s.descCheck q d
     j.code ≠ 0 → s.attend r = (s.setRsd q, [⟨q, j.code, j.addr, false⟩])))

/-- TMMA, VPROG, OSM_UPDATE, OSM_MERGE, OSM_NORM and the SATOMs fire: each computes and writes what it computes, and takes its place in
its engine, ready to complete (R101, R105, R142 to R144, R202 to R213, R219 to R221). -/
def Obligations.EnginesFire : Prop :=
  ∀ (s : State) (lcore ring seq op : Nat) (f : FireIn) (r : Rsd) (d : Nat), s.Fires lcore ring seq op f r d →
    (let u := s.fireCommon r d f.twait
     let q := r.fired d
     let i := r.iter
     (op = 0x10 → (TEN.INIT.of d = 0 → tget u.core.chain r.site 0 = r.ctx + 1) →
       (let t := u.initTile q d
        t.1 = 0 → limitBad t.2.1 (TEN.M_M1.of d + 1) (TEN.N_M1.of d + 1) (TEN.K.of d) = false →
        (let p := u.mulTile q d t.2.1
         exec (.tmma lcore ring seq f) s = .next (((((u.setAccs r.site p.1).setChain q d).addArith r.ring r.seq
           (t.2.2 ||| p.2)).finishTile q d p.1).keepUndo s r d).engines))) ∧
     (op = 0x20 →
       (let v := runVprog r.site d i ⟨freeRegs u.freeCtr (VP.WIDTH_M1.of d + 1), 0, [], { u with freeCtr := u.freeCtr + 2048 }⟩
        exec (.vprog lcore ring seq f) s = .next ((v.st.vectorDone q d v.flags v.out).keepUndo s r d).engines)) ∧
     (op = 0x21 →
       (let D := OS.D_M1.of d + 1
        let n := OS.N_M1.of d + 1
        let F := OS.V_FMT.of d
        let v := (List.range n).map fun j => valueRow F (u.csRead r.site (32 * (unitAddr d i OS.V_ADDR 2 + j * OS.V_STRIDE.of d))
          (fmtBytes F D)) D
        exec (.osmUpdate lcore ring seq f) s = .next ((u.putState q d (osmUpdate
          (u.attAt r.site (32 * unitAddr d i OS.ST_ADDR 0) D) (wordsOf (u.csRead r.site (32 * unitAddr d i OS.S_ADDR 1) (4 * n)) n)
          v)).keepUndo s r d).engines)) ∧
     (op = 0x22 → exec (.osmMerge lcore ring seq f) s = .next ((u.putState q d (osmMerge
       (u.attAt r.site (32 * unitAddr d i OS.ST_ADDR 0) (OS.D_M1.of d + 1))
       (u.attAt r.site (32 * OS.ST2_ADDR.of d) (OS.D_M1.of d + 1)))).keepUndo s r d).engines) ∧
     (op = 0x23 →
       (let z := osmNorm (OS.O_FMT.of d) (OS.RMODE.of d) (OS.SAT.on d) (OS.SEED.of d)
          (u.attAt r.site (32 * unitAddr d i OS.ST_ADDR 0) (OS.D_M1.of d + 1))
        exec (.osmNorm lcore ring seq f) s =
          .next (((u.csWrite r.site (32 * unitAddr d i OS.OUT_ADDR 3) z.1).vectorDone q d z.2 z.1).keepUndo s r d).engines)) ∧
     (op = 0x31 → ∀ b : List Byte, u.memRead (u.accOf r.ctx 0) MEM_RGN.ATOM (byteAddr d i SA.A_DADDR 0) 8 = ⟨0, b, u⟩ →
       (let old := ofLE b
        let x := SA.OPND.of d
        let w (v : Nat) : MemRes := u.memPut (u.accOf r.ctx 0) MEM_RGN.ATOM (byteAddr d i SA.A_DADDR 0) (leBytes 8 v)
        let after (m : MemRes) (ret : Bool) : State :=
          ((if ret then m.st.divergeFor q 1 else m.st).launchFlight q d fun g =>
            { g.crossed (u.dmBridges (siteDie r.site) (byteAddr d i SA.A_DADDR 0) 8) with aux := old, ready := true }).engines
        (SA.AOP.of d = 0 → (w (wrapAdd 64 old x)).code = 0 →
          exec (.satomAdd lcore ring seq f) s = .next (after (w (wrapAdd 64 old x)) false)) ∧
        (SA.AOP.of d = 1 → (w (wrapAdd 64 old x)).code = 0 →
          exec (.satomFadd lcore ring seq f) s = .next (after (w (wrapAdd 64 old x)) true)) ∧
        (SA.AOP.of d = 2 → (w x).code = 0 → exec (.satomSwap lcore ring seq f) s = .next (after (w x) true)) ∧
        (SA.AOP.of d = 3 → (w (if old = SA.CMP.of d then x else old)).code = 0 →
          exec (.satomCas lcore ring seq f) s = .next (after (w (if old = SA.CMP.of d then x else old)) true)) ∧
        (SA.AOP.of d = 4 → (w (max old x)).code = 0 → exec (.satomUmax lcore ring seq f) s = .next (after (w (max old x)) false)))))

/-- Token and control descriptors fire: TSIG, TSIGALL, TREAD, LOOPB, LOOPE, SKIP, END, FAIL and STAMP have their effects and, but for FAIL,
complete at once with their header signal; TOKEN_SIGNAL adds a signal to its counter (R156, R180, R181, R183, R194, R199, R222 to R227). -/
def Obligations.ControlDescriptors : Prop :=
  (∀ (s : State) (lcore ring seq op : Nat) (f : FireIn) (r : Rsd) (d : Nat), s.Fires lcore ring seq op f r d →
    (let u := s.fireCommon r d f.twait
     let q := r.fired d
     let i := r.iter
     (op = 0x40 → exec (.tsig lcore ring seq f) s = .next (u.finishNow q d).engines) ∧
     (op = 0x41 → DESC.S_EN.on d = true →
       exec (.tsigall lcore ring seq f) s = .next ((u.core.rsds.filter fun k => decide (k.ring = r.ring) && decide (k.seq = r.seq)).foldl
         (fun t k => t.sendSig ⟨r.ring, r.seq, k.lcore, DESC.S_CTR.of d, DESC.S_INC.of d, r.lcore, r.pos, i, 0⟩)
         (u.finishNow q (DESC.S_EN.put d 0))).engines) ∧
     (op = 0x41 → DESC.S_EN.on d = false →
       exec (.tsigall lcore ring seq f) s = .next (u.finishNow q (DESC.S_EN.put d 0)).engines) ∧
     (op = 0x42 → exec (.tread lcore ring seq f) s = .next ((((u.divergeFor q 1).csWrite r.site (32 * unitAddr d i TREAD.RES_ADDR 0)
       (leBytes 4 (r.ctrs.getD (TREAD.T_CTR.of d) 0)))).finishNow q d).engines) ∧
     (op = 0x50 → exec (.loopb lcore ring seq f) s =
       .next ((u.setRsd { q with loops := (r.pos + 1, LOOPB.COUNT.of d, 0) :: r.loops }).finishNow q d).engines) ∧
     (op = 0x51 → ∀ (p n k : Nat) (l : List (Nat × Nat × Nat)), r.loops = (p, n, k) :: l →
       (k + 1 < n → exec (.loope lcore ring seq f) s =
         .next ((u.setRsd { q with pos := p, loops := (p, n, k + 1) :: l }).finishNow q d).engines) ∧
       (n ≤ k + 1 → exec (.loope lcore ring seq f) s = .next ((u.setRsd { q with loops := l }).finishNow q d).engines)) ∧
     (op = 0x52 →
       (let w := leAt (u.csRead r.site (32 * SKIPD.C_ADDR.of d) 4) 0 4
        (q.skips d w = true → exec (.skip lcore ring seq f) s =
          .next ((u.setRsd { q with pos := r.pos + 1 + SKIPD.N.of d }).finishNow q d).engines) ∧
        (q.skips d w = false → exec (.skip lcore ring seq f) s = .next (u.finishNow q d).engines))) ∧
     (op = 0x53 → exec (.endList lcore ring seq f) s = .next ((u.setRsd { q with ended := true }).finishNow q d).engines) ∧
     (op = 0x54 → exec (.fail lcore ring seq f) s = .next (u.ctxReset r.ctx 0x0325 (q.back.errData 0 (FAILD.UCODE.of d))).engines) ∧
     (op = 0x55 →
       (let c := u.replicaCount (siteDie r.site)
        exec (.stamp lcore ring seq f) s = .next ((u.csWrite r.site (32 * unitAddr d i STAMPD.RES_ADDR 0)
          (leBytes 8 (if u.coarseCtx r.ctx then c / 1000 * 1000 else c) ++ leBytes 1 (b2n u.unsync))).finishNow q d).engines)))) ∧
  (∀ (s : State) (n : Nat) (g : Sig) (r : Rsd), s.hubUp = true → s.core.sigs[n]? = some g → s.sigFirst n g = true →
    s.rsd g.lcore g.ring g.seq = some r →
    r.dead = false → r.ctrs.getD g.ctr 0 + g.inc < 2 ^ 32 →
    exec (.tokenSignal n) s = .next (({ s with core := { s.core with sigs := s.core.sigs.eraseIdx n } }.setRsd
      { r with ctrs := r.ctrs.set g.ctr (r.ctrs.getD g.ctr 0 + g.inc), lastSig := (g.ctr, g.src, g.kind) }).engines))

/-- SMOVE and AGATHER take a channel, their parts start, move and are reported in order, and DESC_COMPLETE ends a descriptor whose work is
done (R128, R146, R147, R151 to R153, R181, R217, R259, R260). -/
def Obligations.Transfers : Prop :=
  (∀ (s : State) (lcore ring seq : Nat) (f : FireIn) (r : Rsd) (d : Nat), s.Fires lcore ring seq 0x30 f r d → SM.DST_SP.of d ≠ 3 →
    exec (.smove lcore ring seq f) s = .next (((s.fireCommon r d f.twait).launchFlight (r.fired d) d id).engines)) ∧
  (∀ (s : State) (lcore ring seq : Nat) (f : FireIn) (r : Rsd) (d : Nat), s.Fires lcore ring seq 0x30 f r d → SM.DST_SP.of d = 3 →
    (let v := (s.fireCommon r d f.twait).launchFlight (r.fired d) d id
     ∀ g : Flight, (v.rsd r.lcore r.ring r.seq).bind (·.flights.getLast?) = some g →
       exec (.smove lcore ring seq f) s = .next (v.smovePut (r.fired d) g).engines)) ∧
  (∀ (s : State) (lcore ring seq : Nat) (f : FireIn) (r : Rsd) (d : Nat) (l : Nat × List Nat), s.Fires lcore ring seq 0x61 f r d →
    (let u := s.fireCommon r d f.twait
     u.agather (r.fired d) d = (.ok l, u) → exec (.agather lcore ring seq f) s =
       .next (u.launchFlight (r.fired d) d fun g => { g with list := l.2, aux := l.1, ready := l.2.isEmpty }).engines)) ∧
  (∀ (s : State) (lcore ring seq k : Nat) (f : FireIn) (r : Rsd) (g : Flight) (b : List Byte), lcore < 2048 → ring < 8192 →
    s.hubUp = true → f.hbm = [] → f.ecc = .clean → s.flightAt lcore ring seq k = some (r, g) → DESC.OPCODE.of g.word = 0x30 →
    SM.SRC_SP.of g.word = 1 → SM.DST_SP.of g.word = 0 → g.started < partCount g.word → r.credited g.word g.started = true →
    (let n := g.started
     let d := g.word
     s.memRead (s.accOf r.ctx 0) MEM_RGN.RD (byteAddr d g.iter SM.SRC_ADDR 0 + partOff d n) (partLen d n) = ⟨0, b, s⟩ →
     exec (.smovePartStart lcore ring seq k f) s = .next ((s.csWrite r.site (byteAddr d g.iter SM.DST_ADDR 1 + dstOff d n) b).setFlight r
       { g.crossed (s.partBridges r g n) with started := n + 1, written := g.written ++ [n] }))) ∧
  (∀ (s : State) (lcore ring seq k : Nat) (f : FireIn) (r : Rsd) (g : Flight), lcore < 2048 → ring < 8192 →
    s.hubUp = true → f.hbm = [] → s.flightAt lcore ring seq k = some (r, g) →
    (DESC.OPCODE.of g.word = 0x30 → g.started < partCount g.word → r.credited g.word g.started = true →
      (SM.DST_SP.of g.word = 3 → exec (.smovePartStart lcore ring seq k f) s = .next (s.partSend r g g.started)) ∧
      (SM.DST_SP.of g.word ≠ 3 → SM.SRC_SP.of g.word = 3 →
        exec (.smovePartStart lcore ring seq k f) s = .next (s.partGet r g g.started))) ∧
    (DESC.OPCODE.of g.word = 0x61 → exec (.smovePartStart lcore ring seq k f) s = .next (s.gatherPart r g []))) ∧
  (∀ (s : State) (lcore ring seq k : Nat) (r : Rsd) (g : Flight), lcore < 2048 → ring < 8192 → s.hubUp = true →
    s.flightAt lcore ring seq k = some (r, g) → g.told < g.started →
    (DESC.OPCODE.of g.word = 0x30 ∧ s.partsDone r g g.told = true) ∨
      (DESC.OPCODE.of g.word = 0x61 ∧ g.written.contains g.told = true) →
    exec (.smovePartWritten lcore ring seq k) s =
      .next ((s.setFlight r { g with told := g.told + 1, ready := decide (g.told + 1 = g.parts) }).partToken r g)) ∧
  (∀ (s : State) (lcore ring seq k steps : Nat) (r : Rsd) (g : Flight), lcore < 2048 → ring < 8192 → s.hubUp = true →
    s.flightAt lcore ring seq k = some (r, g) → g.ready = true →
    exec (.descComplete lcore ring seq k steps) s = .next
      (((((s.atomOld r g).addBusy r.site (DESC.OPCODE.of g.word) steps).endFlight r g).dropXfers fun x =>
        decide (x.owner = .flight lcore ring seq g.fid)).engines))

/-- Accumulators are exact: a row of finite products adds the sum of their exact products, in any order, as 600 bits hold it, and a record
gives back the accumulator it was made from (R100, R101, R106). -/
def Obligations.ExactAccumulators : Prop :=
  (∀ (a : Accum) (l : List ((Bool × Nat × Nat) × (Bool × Nat × Nat))), -2 ^ 599 ≤ a.i → a.i < 2 ^ 599 →
    (let r := (a.addRow (l.map fun e => .fin e.1.1 e.1.2.1 e.1.2.2) (l.map fun e => .fin e.2.1 e.2.2.1 e.2.2.2))
     r.1.i = acc600 (a.i + (l.map fun e => accUnits (xor e.1.1 e.2.1) (e.1.2.1 * e.2.2.1) (e.1.2.2 * e.2.2.2)).sum) ∧
     r.1.count = a.count + l.length ∧ r.1.nan = a.nan ∧ r.1.pinf = a.pinf ∧ r.1.ninf = a.ninf ∧ r.2 = 0)) ∧
  (∀ (a : Accum) (x y : List XV) (l l' : List ((Bool × Nat × Nat) × (Bool × Nat × Nat))), l.Perm l' →
    x = l.map (fun e => .fin e.1.1 e.1.2.1 e.1.2.2) → y = l.map (fun e => .fin e.2.1 e.2.2.1 e.2.2.2) →
    a.addRow x y = a.addRow (l'.map fun e => .fin e.1.1 e.1.2.1 e.1.2.2) (l'.map fun e => .fin e.2.1 e.2.2.1 e.2.2.2)) ∧
  (∀ a : Accum, -2 ^ 599 ≤ a.i → a.i < 2 ^ 599 → a.count < 2 ^ 28 → Accum.ofRec a.toRec = a)

/-- PACKET_ROUTE sends a sound unicast packet where its route says, and a multicast or broadcast one to its copies; HEADER_WAIT_TIMEOUT
drops a header that has waited over 2 ms; FAB_CTL_WRITE takes its fields, and `EN` becoming 1 fills the default tables (R377, R387,
R391, R392, R394, R397, R424). Optical ports are covered where the link check passes (R751, R752). -/
def Obligations.Routing : Prop :=
  (∀ (s : State) (arr : Nat) (p : Pkt) (q : List Nat) (ctr : Nat) (tagOk : Bool), arr ≤ 22 → s.hubUp = true →
    s.fon FAB_CTL.EN 0 = true → arr = 22 ∨ (s.fon FAB_PORT.LINK_UP arr = true ∧ s.mayCross arr p = true) →
    arr < 18 ∨ arr = 22 ∨ (tagOk = true ∧ tget s.fab.linkRx arr 0 < ctr) → s.frozen = false → p.bad = false →
    PH.HCRC.of p.hdr = hcrcOf p.hdr → 1 ≤ PH.TYPE.of p.hdr → PH.TYPE.of p.hdr ≤ 12 →
    (let u := s.heeds arr q ctr
     (PH.TYPE.of p.hdr = 12 ∨ PH.TYPE.of p.hdr = 10 → exec (.packetRoute arr (.whole p ctr tagOk) q) s =
       .next ((u.freed arr p).emit (.eject p))) ∧
     (PH.TYPE.of p.hdr ≠ 12 → PH.TYPE.of p.hdr ≠ 10 → PH.MCAST.on p.hdr = true →
       exec (.packetRoute arr (.whole p ctr tagOk) q) s = .next (u.routeMulti arr p)) ∧
     (PH.TYPE.of p.hdr ≠ 12 → PH.TYPE.of p.hdr ≠ 10 → PH.MCAST.on p.hdr = false →
       (u.route arr p = .eject → exec (.packetRoute arr (.whole p ctr tagOk) q) s = .next ((u.freed arr p).emit (.eject p))) ∧
       (∀ c, u.route arr p = .nack c → exec (.packetRoute arr (.whole p ctr tagOk) q) s = .next ((u.freed arr p).routerNack p c)) ∧
       (u.route arr p = .drop → exec (.packetRoute arr (.whole p ctr tagOk) q) s =
         .next (((u.freed arr p).countPort OBS_PORT.ROUTE_DROP arr).log { code := 0x020B, data := pktData p })) ∧
       (∀ (l : List Nat) (detour : Bool) (o vc : Nat), u.route arr p = .ports l detour → u.shallowest l = some o →
         nextVc (arrivedBy arr p) (isG o) detour = some vc → u.mayCross o p = true →
         (∀ v : State, u.grant o vc p u.time.run arr = some v → exec (.packetRoute arr (.whole p ctr tagOk) q) s = .next v ∧
           u.crossing o = false ∧ 0 < u.credit o vc + u.credit o 4) ∧
         (u.grant o vc p u.time.run arr = none → exec (.packetRoute arr (.whole p ctr tagOk) q) s = .next (u.wait p arr u.time.run)))))) ∧
  (∀ (s : State) (n : Nat) (e : Pkt × Nat × Nat), s.hubUp = true → s.fab.waiting[n]? = some e → e.2.2 + 2000000 < s.time.run →
    (let u := { s with fab := { s.fab with waiting := s.fab.waiting.eraseIdx n } }
     exec (.headerWaitTimeout n) s = .next ((if 32 ≤ e.2.1 then u else u.freed e.2.1 e.1).countPort OBS_PORT.ROUTE_DROP (e.2.1 % 32)))) ∧
  (∀ (s : State) (n : Nat) (c : Crossing), s.hubUp = true → s.fab.waiting[n]? = none →
    s.fab.cross[n - s.fab.waiting.length]? = some c → c.since + 2000000 < s.time.run → exec (.headerWaitTimeout n) s =
      .next ((((s.cutShort c).countPort OBS_PORT.ROUTE_DROP (c.frees % 32)).abortOn c.port).routeWaiting)) ∧
  (∀ (s : State) (w : Who) (v : Nat), s.reaches w = true → s.barred w .FAB_CTL 0 v = .none → s.isStatus .FAB_CTL 0 v = false →
    s.fabCtlBad v = false →
    (let u := ((s.clrW1C .FAB_CTL 0 v).putRW .FAB_CTL 0 v).darken
     (s.fon FAB_CTL.EN 0 = false → FAB_CTL.EN.bit v = true → exec (.fabCtlWrite w v) s = .next u.defaultTables) ∧
     (s.fon FAB_CTL.EN 0 = true ∨ FAB_CTL.EN.bit v = false → exec (.fabCtlWrite w v) s = .next u)))

/-- The default tables (R390): the entry for position (t′, s′) seen from (t, s), and the entry for each rack. A module's own position has
no route and the model leaves its mask empty, which the rule does not say. -/
def Obligations.DefaultTables : Prop :=
  ∀ s : State,
    (let t := s.fget FAB_CTL.TRAY 0
     let c := s.fget FAB_CTL.SLOT 0
     let u := s.defaultTables
     t < 16 → c < 4 →
     (∀ t' c', t' < 16 → c' < 4 → ¬ (t' = t ∧ c' = c) → u.fget FAB_LOCAL.MASK (4 * t' + c') =
       if t' = t then 2 ^ ((c' + 3 - c) % 4) else if c' = c then 2 ^ (3 + (t' + 15 - t) % 16)
       else 2 ^ ((c' + 3 - c) % 4) + 2 ^ (3 + (t' + 15 - t) % 16)) ∧
     (∀ r, r < 256 → s.fget FAB_CTL.RACK 0 < 256 →
       u.fget FAB_RACK.EXIT_POS r = (s.fget FAB_CTL.RACK 0 ^^^ r) / 4 ∧ u.fget FAB_RACK.EXIT_G r = (s.fget FAB_CTL.RACK 0 ^^^ r) % 4 ∧
       u.fget FAB_RACK.DETOUR r = 0 ∧ u.fget FAB_RACK.VALID r = if r = s.fget FAB_CTL.RACK 0 then 0 else 1))

/-- The source's side: PACKET_SEND, RTO_TIMEOUT, WINDOW_STALL, VOID_STALL, STREAM_IDLE, SOURCE_STREAM_RELEASE, ACK and NACK (R402 to
R409, R414, R418, R419). -/
def Obligations.SourceStreams : Prop :=
  (∀ (s : State) (id : Nat) (x : Xfer) (b : List Byte), s.hubUp = true → s.fon FAB_CTL.EN 0 = true → s.xfer id = some x →
    s.holdsBack x = false → x.failed = false → x.stepLen ≠ 0 → x.dmod < 16384 ∨ s.groupOpen (x.dmod - 16384) = true →
    s.windowRoom (s.streamOr x.ep x.dmod x.dep) x.nextPay = true → s.payFor x x.sent x.stepLen = ⟨0, b, s⟩ →
    exec (.packetSend id [] .clean) s = .next (s.sendNext x (s.streamOr x.ep x.dmod x.dep) x.stepLen b)) ∧
  (∀ (s : State) (ep dmod dep seq : Nat) (t : SStream) (o : OutPkt), s.hubUp = true → s.fon FAB_CTL.EN 0 = true →
    s.stream ep dmod dep = some t → t.out.find? (fun o => decide (o.seq = seq)) = some o → (s.xfer o.xfer).any s.holdsBack = false →
    o.tSent + o.rto * 1000 ≤ s.time.now → exec (.rtoTimeout ep dmod dep seq [] .clean) s = .next (s.resend t
      { o with tSent := s.time.now, rto := if o.retry then s.rto else min (2 * o.rto) (16 * s.rto), retry := false } .clean)) ∧
  (∀ (s : State) (ep dmod dep : Nat) (t : SStream) (o : OutPkt) (x : Xfer), s.hubUp = true → s.stream ep dmod dep = some t →
    t.out.find? (fun o => !o.void) = some o → o.t0 + s.stallNs ≤ s.time.run → s.xfer o.xfer = some x →
    exec (.windowStall ep dmod dep) s = .next (s.failXfer x 0x0202 o.seq)) ∧
  (∀ (s : State) (ep dmod dep : Nat) (t : SStream) (x : Xfer), s.hubUp = true → s.stream ep dmod dep = some t → x ∈ s.fab.xfers →
    s.voidLate t x = true → dmod < 16384 →
    exec (.voidStall ep dmod dep) s = .next ((s.releaseStream t).log
      { code := 0x0202, data := fabData (epAddr s.self ep) (epAddr dmod dep) t.next 0 })) ∧
  (∀ (s : State) (smod sep dep : Nat) (t : DStream), s.hubUp = true →
    s.fab.dstr.find? (fun t => decide (t.smod = smod) && decide (t.sep = sep) && decide (t.dep = dep)) = some t →
    s.fon FAB_PAIR.VALID smod = false → s.hasOpen smod sep dep = false → t.last + s.fget FAB_XPORT.IDLE 0 * 1000000 ≤ s.time.now →
    Gives (.streamIdle smod sep dep) s fun u => (∀ v ∈ u.fab.dstr, ¬ (v.smod = smod ∧ v.sep = sep ∧ v.dep = dep)) ∧
      (∀ v ∈ s.fab.dstr, ¬ (v.smod = smod ∧ v.sep = sep ∧ v.dep = dep) → v ∈ u.fab.dstr) ∧ u.regs = s.regs ∧ u.mem = s.mem) ∧
  (∀ (s : State) (ep dmod dep : Nat) (t : SStream), s.hubUp = true → s.stream ep dmod dep = some t → t.out = [] → s.inPair = false →
    t.last + 50000000 ≤ s.time.now → s.fab.xfers.any (·.pendingOn t) = false →
    exec (.sourceStreamRelease ep dmod dep) s = .next (s.releaseStream t)) ∧
  (∀ (s : State) (p : Pkt) (t : SStream), s.heard p 4 = true → s.ackStreams p = [t] → exec (.ack p) s =
    .next (s.fab.xfers.foldl (fun s x => s.ackedMore x) (s.release t (PH.SSEQ.of p.hdr) (leAt p.pay 0 32) (PH.RADDR.of p.hdr % 64)))) ∧
  (∀ (s : State) (p : Pkt) (t : SStream) (o : OutPkt), s.heard p 5 = true → s.nackStreams p = [t] →
    t.out.find? (s.names p) = some o → o.void = false →
    (let code := leAt p.pay 0 2
     (code = 0x0210 → o.crcN < s.fget FAB_XPORT.RETRY 0 →
       exec (.nack p [] .clean) s = .next (s.resend t { o with crcN := o.crcN + 1, tSent := s.time.now } .clean)) ∧
     (code = 0x0211 → exec (.nack p [] .clean) s = .next (s.setOut t { o with retry := true, tSent := s.time.now, rto := s.rto })) ∧
     (code = 0x0203 → s.isQuery o = false → o.unrN < s.fget FAB_XPORT.RETRY 0 → exec (.nack p [] .clean) s =
       .next (s.setOut t { o with unrN := o.unrN + 1, retry := true, tSent := s.time.now, rto := s.rto })) ∧
     (code ≠ 0x0210 → code ≠ 0x0211 → code ≠ 0x0203 → exec (.nack p [] .clean) s = .next ((s.dropOut t o).failOut o code))))

/-- Inbound PUT, GET_REQ, GET_RESP, ATOMIC and MGMT act once they pass the steps of R411, and a queued GET_REQ is answered: bytes are
written under `FPUT`, a get is queued under `FGET`, a response's bytes are written for its request and counted, an atomic leaves its new
value and returns the old one (R411, R413, R420 to R422). -/
def Obligations.InboundRequests : Prop :=
  (∀ (s : State) (p : Pkt) (t : DStream), s.Takes p t →
    (PH.TYPE.of p.hdr = 1 →
      (let m := s.memWrite ⟨PH.PART.of p.hdr, PH.WORLD.of p.hdr, none, 5⟩ MEM_RGN.FPUT (PH.RADDR.of p.hdr) p.pay
       m.code = 0 → exec (.put p []) s = .next (m.st.settled p t))) ∧
    (PH.TYPE.of p.hdr = 2 → s.fab.gets.length < 4096 →
      s.checkSpan ⟨PH.PART.of p.hdr, PH.WORLD.of p.hdr, none, 5⟩ MEM_RGN.FGET (PH.RADDR.of p.hdr) (PH.MTLEN.of p.hdr) = 0 →
      exec (.getReq p) s = .next ({ s with fab := { s.fab with gets := s.fab.gets ++ [getReqOf s p t] } }.finish p t 0)) ∧
    (∀ (x : Xfer) (part world a : Nat), PH.TYPE.of p.hdr = 3 → s.requestOf p t = some x → x.dst = some (.dm part world a) →
      (let m := s.memWrite ⟨part, world, x.ctx, x.owner.reader⟩ MEM_RGN.WR (PH.RADDR.of p.hdr) p.pay
       m.code = 0 → exec (.getResp p []) s =
         .next ((m.st.gotBytes x (PH.RADDR.of p.hdr - x.sink) p.pay.length).settled p t))) ∧
    (∀ (x : Xfer) (site a : Nat), PH.TYPE.of p.hdr = 3 → s.requestOf p t = some x → x.dst = some (.cs site a) →
      exec (.getResp p []) s = .next (((s.csWrite site (PH.RADDR.of p.hdr) p.pay).gotBytes x (PH.RADDR.of p.hdr - x.sink)
        p.pay.length).settled p t)) ∧
    (∀ b : List Byte, PH.TYPE.of p.hdr = 6 → PH.RADDR.of p.hdr % 8 = 0 →
      s.memRead ⟨PH.PART.of p.hdr, PH.WORLD.of p.hdr, none, 5⟩ MEM_RGN.FPUT (PH.RADDR.of p.hdr) 8 = ⟨0, b, s⟩ →
      (let op := leAt p.pay 0 1
       let m := s.memPut ⟨PH.PART.of p.hdr, PH.WORLD.of p.hdr, none, 5⟩ MEM_RGN.FPUT (PH.RADDR.of p.hdr)
         (leBytes 8 (atomNew op (ofLE b) (leAt p.pay 8 8) (leAt p.pay 16 8)))
       m.code = 0 →
       (op = 0 ∨ op = 4 → exec (.atomic p []) s = .next (m.st.settled p t)) ∧
       (op = 1 ∨ op = 2 ∨ op = 3 → exec (.atomic p []) s = .next ((m.st.respond t.dep (pktMod p) (pktEp p) (PH.PART.of p.hdr)
         (PH.WORLD.of p.hdr) (PH.MSGID.of p.hdr) (leAt p.pay 24 6) 8 (PH.SSEQ.of p.hdr) (.lit (leBytes 8 (ofLE b)))).settled p t)))) ∧
    (PH.TYPE.of p.hdr = 11 → exec (.mgmt p) s = .next (s.settled p t).reshape)) ∧
  (∀ (s : State) (n : Nat) (g : GetReq), s.live = true → s.fab.gets[n]? = some g → exec (.getServe n) s =
    .next ({ s with fab := { s.fab with gets := s.fab.gets.eraseIdx n } }.respond g.dep g.smod g.sep g.part g.world g.msgid g.raddr g.len
      g.seq (.dm g.part g.world g.addr)))

/-- ASELECT, AQUERY and AKVSHIP fire: the page list is written, one query for each shard is handed to the dispatcher, and a shipment is
written here or begins as one message that awaits its KVACK (R243 to R250, R254, R258, R264 to R268, R274). -/
def Obligations.AttentionDescriptors : Prop :=
  ∀ (s : State) (lcore ring seq op : Nat) (f : FireIn) (r : Rsd) (d : Nat), s.Fires lcore ring seq op f r d →
    (let u := s.fireCommon r d f.twait
     let q := r.fired d
     let i := r.iter
     (op = 0x60 → ∀ l : List Nat, u.aselect q d = (.ok l, u) → exec (.aselect lcore ring seq f) s =
       .next ((u.csWrite r.site (32 * unitAddr d i ASEL.OUT_ADDR 1) (leBytes 4 l.length ++ l.flatMap (leBytes 4))).launchFlight q d
         fun g => { g with ready := true }).engines) ∧
     (op = 0x62 → ∃ t : State, exec (.aquery lcore ring seq f) s = .next t.engines ∧
       t.att.nextTag = u.att.nextTag + (AQ.NSH_M1.of d + 1) ∧
       t.att.shards.length = u.att.shards.length + (AQ.NSH_M1.of d + 1) ∧ t.att.queries = u.att.queries ∧
       t.core.cs = u.core.cs ∧ t.mem = u.mem ∧ t.fab = u.fab ∧
       ∀ c (x : ShardQ), c < AQ.NSH_M1.of d + 1 → t.att.shards[u.att.shards.length + c]? = some x →
         x.shard = c ∧ x.target = 0 ∧ x.sent = false ∧ x.ctx = r.ctx ∧ x.qtag = (u.att.nextTag + c) % 2 ^ 32 ∧
         x.entry = leAt (u.csRead r.site (32 * unitAddr d i AQ.SL_ADDR 2) (32 * (AQ.NSH_M1.of d + 1))) (32 * c) 32) ∧
     (op = 0x63 → SHIP.LOCAL.on d = true → ∀ v : State, u.shipLocal q d = (.ok (), v) → exec (.akvship lcore ring seq f) s =
       .next (v.launchFlight q d fun g => { g with ready := true }).engines) ∧
     (op = 0x63 → SHIP.LOCAL.on d = false → exec (.akvship lcore ring seq f) s =
       .next (u.shipRemote q d).engines))

/-- The query dispatcher: a shard query goes out, an answer with status 0 closes its shard with its states, a retryable status or a timeout
loses its target, and any other status fails the AQUERY; a KVACK with status 0 makes its shipment ready (R250, R274 to R280). -/
def Obligations.QueryDispatcher : Prop :=
  (∀ (s v : State) (n : Nat) (q : ShardQ), s.live = true → (s.att.shards.filter (·.sent)).length < 16384 → s.att.shards[n]? = some q →
    q.sent = false →
    (let t := q.dest q.target
     let pay := leBytes 64 q.hdr ++ q.rows
     s.begin (mkXfer (.query q.qtag) (some q.ctx) ((s.ctxEp q.ctx).getD 0) t.1 t.2 7 (s.ctxPart q.ctx) (s.ctxWorld q.ctx) 0 pay.length
       (.lit pay)) = some v →
     exec (.shardQuerySend n) s = .next (v.setShard { q with sent := true, tSent := v.time.thaw }))) ∧
  (∀ (s : State) (p : Pkt) (t : DStream) (q : ShardQ) (a : Nat), s.Takes p t → PH.TYPE.of p.hdr = 8 → qrKind p ≠ 1 →
    (let b := pktKept p
     let h := ofLE (b.take 64)
     let u := s.settled p t
     u.att.shards.find? (fun q => decide (q.qtag = QR.TAG.of h)) = some q → u.answerer q p = some a → partialValid q h b = true →
     (QR.STATUS.of h = 0 → exec (.qrespPartial p) s =
       .next (u.closeShard q (b.drop 64) (statusWord 0 (decide (a = 1)) false (QR.NSEL.of h)))) ∧
     (QR.STATUS.of h = 0x0801 ∨ QR.STATUS.of h = 0x0804 ∨ QR.STATUS.of h = 0x080A →
       (a = q.target → q.sent = true → exec (.qrespPartial p) s = .next (u.targetLost { q with status := QR.STATUS.of h })) ∧
       (a ≠ q.target ∨ q.sent = false → exec (.qrespPartial p) s = .next (u.setShard { q with status := QR.STATUS.of h }))) ∧
     (QR.STATUS.of h ≠ 0 → QR.STATUS.of h ≠ 0x0801 → QR.STATUS.of h ≠ 0x0804 → QR.STATUS.of h ≠ 0x080A →
       exec (.qrespPartial p) s = .next (u.failQuery q (QR.STATUS.of h))))) ∧
  (∀ (s : State) (n : Nat) (q : ShardQ) (r : Rsd) (g : Flight), s.hubUp = true → s.att.shards[n]? = some q → s.shardOf q = some (r, g) →
    q.sent = true → q.tSent + AQ.QTO.of g.word * 16000 ≤ s.time.thaw → exec (.qtoExpiry n) s = .next (s.targetLost q)) ∧
  (∀ (s : State) (p : Pkt) (t : DStream) (k : ShipOut) (r : Rsd) (g : Flight), s.Takes p t → PH.TYPE.of p.hdr = 8 → qrKind p = 1 →
    (let h := ofLE ((pktKept p).take 64)
     let u := s.settled p t
     let v := { u with att := { u.att with ships := u.att.ships.filter fun (j : ShipOut) => decide (j.ktag ≠ k.ktag) } }
     u.att.ships.find? (fun k => decide (k.ktag = QR.TAG.of h)) = some k → u.rsd k.lcore k.ring k.seq = some r →
     r.flight k.fid = some g → QR.STATUS.of h = 0 → exec (.kvack p) s = .next (v.setFlight r { g with ready := true })))

/-- The services of a Cache module: a QUERY it may serve is held, and served with the partials of its selected pages or, uncovered after
2 ms, refused with KV_STALE; a KV shipment is judged, written and acknowledged; the sequence-table register is written while its table is
not in use (R233, R234, R246 to R250, R252, R270 to R273). -/
def Obligations.QueryService : Prop :=
  (∀ (s : State) (p : Pkt) (t : DStream), s.Takes p t → PH.TYPE.of p.hdr = 7 → s.att.queries.length < 4096 → s.pausing = false →
    (let b := pktKept p
     let u := (s.settled p t).wake
     ∀ q : Nat, u.judgeQuery (PH.PART.of p.hdr) (PH.WORLD.of p.hdr) (ofLE (b.take 64)) b = (.ok q, u) → exec (.query p []) s =
       .next { u with att := { u.att with queries := u.att.queries ++ [QHeld.mk (ofLE (b.take 64)) (b.drop 64) (pktMod p) (pktEp p) t.dep
         (SEQD.CTX.of q) (PH.PART.of p.hdr) (PH.WORLD.of p.hdr) u.time.now] } })) ∧
  (∀ (s : State) (n : Nat) (q : QHeld) (l : List AttState) (k : Nat), s.live = true → s.att.queries[n]? = some q →
    s.servePartials q = (.ok (l, k), s) → exec (.queryServe n []) s = .next ((s.dropHeld n).qresp q.smod q.sep q.dep q.part q.world
      (qrHdr (QH.QTAG.of q.hdr) 0 0 (QH.G_M1.of q.hdr) (QH.D_CODE.of q.hdr) k ++ l.flatMap stateBytes))) ∧
  (∀ (s : State) (n w c : Nat) (q : QHeld), s.live = true → s.att.queries[n]? = some q → q.t0 + 2000000 ≤ s.time.now →
    s.seqLookup (s.accOf q.sctx 4) (QH.SEQ_SLOT.of q.hdr) (QH.SEQ_ID.of q.hdr) = (.ok w, s) →
    s.seqCount (s.accOf q.sctx 4) w (QH.LAYER.of q.hdr) = (.ok c, s) → seqStale w c (QH.NTOK.of q.hdr) = true →
    exec (.queryStaleTimeout n) s = .next ((s.dropHeld n).qrespErr q 0x0804)) ∧
  (∀ (s v : State) (p : Pkt) (t : DStream) (c : Nat), s.Takes p t → PH.TYPE.of p.hdr = 1 →
    (let b := pktKept p
     (s.settled p t).wake.shipAt (PH.PART.of p.hdr) (PH.WORLD.of p.hdr) b = (.ok c, v) → exec (.kvShipment p []) s =
       .next (v.qresp (pktMod p) (pktEp p) t.dep (PH.PART.of p.hdr) (PH.WORLD.of p.hdr)
         (qrHdr (SHH.KTAG.of (ofLE (b.take 64))) c 1 0 0 0)))) ∧
  (∀ (s : State) (w : Who) (p v : Nat), p < 16 → s.reaches w = true → s.barred w .GCTL_SEQTAB p v = .none →
    s.isStatus .GCTL_SEQTAB p v = false →
    (s.fon GCTL_SEQTAB.EN p = false ∨
      (GCTL_SEQTAB.BASE.val v = s.fget GCTL_SEQTAB.BASE p ∧ GCTL_SEQTAB.N_M1.val v = s.fget GCTL_SEQTAB.N_M1 p) →
      exec (.gctlSeqtabWrite w p v) s = .next ((s.clrW1C .GCTL_SEQTAB p v).putRW .GCTL_SEQTAB p v)) ∧
    (s.fon GCTL_SEQTAB.EN p = true → GCTL_SEQTAB.BASE.val v ≠ s.fget GCTL_SEQTAB.BASE p ∨
      GCTL_SEQTAB.N_M1.val v ≠ s.fget GCTL_SEQTAB.N_M1 p →
      exec (.gctlSeqtabWrite w p v) s = .next (s.fset GCTL_SEQTAB.REJ p 1)))

/-- What a write to device memory leaves, through the region table or under key slot 0: where it answers with no code every byte of its
range reads as written; whatever it answers, every byte outside its range reads as before, unless a fill under way has reached its granule
with this access, and the canonical form stands. What a read answers: its frames are checked, no byte of a failing granule is delivered,
and while no fill runs it changes no memory (R295, R296, R303 to R305, R310, R311). -/
def Obligations.MemoryAccess : Prop :=
  (∀ (s : State) (a : Party) (right : Fld) (addr : Nat) (l : List Byte),
    (∀ m ∈ [s.memWrite a right addr l, s.rawWrite a addr l],
      (m.code = 0 → ∀ i (h : i < l.length), cellAt m.st.mem.bytes (addr + i) = l[i]) ∧
      (∀ x, x < addr ∨ addr + l.length ≤ x →
        s.fon MEM_FILL_CTL.BUSY 0 = false ∨ x / 128 ∉ gransOf addr l.length ∨ s.awaitsFill (x / 128) = false →
        cellAt m.st.mem.bytes x = cellAt s.mem.bytes x) ∧
      (Memory.wf s.mem.bytes = true → Memory.wf m.st.mem.bytes = true) ∧
      m.st.core = s.core ∧ m.st.fab = s.fab ∧ m.st.mem.keyGen = s.mem.keyGen)) ∧
  (∀ (s : State) (a : Party) (right : Fld) (addr n : Nat),
    (let m := s.memRead a right addr n
     (m.code = 0 → Memory.wf s.mem.bytes = true → m.bytes = (List.range n).map fun i => cellAt m.st.mem.bytes (addr + i)) ∧
     (m.code ≠ 0 → m.bytes = []) ∧ (s.fon MEM_FILL_CTL.BUSY 0 = false → m.st.mem = s.mem) ∧
     (m.code = 0 → s.fon MEM_FILL_CTL.BUSY 0 = false → s.heldLines addr n = [] → m.st = s) ∧
     (∀ f ∈ framesOf addr n, s.checkFrame a right f ≠ 0 → m.code ≠ 0)))

/-- The host region, CXL.mem, region tables and fills (R289 to R291, R297 to R301, R304, R307 to R310). -/
def Obligations.HostMemory : Prop :=
  (∀ (s : State) (w : Who) (v : Nat), s.reaches w = true → s.barred w .MEM_HOST 0 v = .none → s.isStatus .MEM_HOST 0 v = false →
    (s.fon MEM_HOST.EN 0 = false → MEM_HOST.EN.bit v = true → MEM_HOST.BASE.val v + MEM_HOST.SIZE_M1.val v < 261632 →
      exec (.memHostWrite w v) s = .next ((s.clrW1C .MEM_HOST 0 v).putRW .MEM_HOST 0 v)) ∧
    (s.fon MEM_HOST.EN 0 = true → exec (.memHostWrite w v) s = .next (s.fset MEM_HOST.REJ 0 1))) ∧
  (∀ (s : State) (x : Nat), s.cxlUp = true →
    (s.hdmAddr x = none → exec (.cxlMemRead x []) s = .next ((s.emit .poison).logC 0x0108) ∧
      ∀ b en, exec (.cxlMemWrite x b en) s = .next (s.logC 0x0108)) ∧
    (∀ a (b : List Byte), s.hdmAddr x = some a → s.hostRead ⟨0, 0, none, 6⟩ a 64 = ⟨0, b, s⟩ →
      exec (.cxlMemRead x []) s = .next ((s.hostHolds (a / 64)).emit (.line b))) ∧
    (∀ a (b : List Byte) (en : Nat), s.hdmAddr x = some a →
      (s.checkRaw a 64 = 0 → s.fon MEM_FILL_CTL.BUSY 0 = false → exec (.cxlMemWrite x b en) s =
        .next (s.writeGrans ⟨0, 0, none, 7⟩ (fun _ => 0) a (mergeLine (cellsRead s.mem.bytes a 64) b en)).st) ∧
      (s.checkRaw a 64 ≠ 0 → exec (.cxlMemWrite x b en) s = .next s))) ∧
  (∀ (s : State) (w : Who) (i k v : Nat), i < 4096 → k < 2 → s.reaches w = true →
    (let full := s.entryWord i k v
     s.barred w .MEM_RGN i full = .none → s.isStatus .MEM_RGN i full = false →
     (s.rgnReject i k full = true → exec (.regionEntryWrite w i k v) s = .next ((s.fset MEM_RGN_STATUS.REJ 0 1).logC 0x0107)) ∧
     (s.rgnReject i k full = false →
       exec (.regionEntryWrite w i k v) s = .next (((s.holdEntry i).putRW .MEM_RGN i full).fset MEM_RGN_STATUS.PEND 0 1)))) ∧
  (∀ s : State, s.hubUp = true → Gives .regionChangeApplied s fun t => t.fget MEM_RGN_STATUS.PEND 0 = 0 ∧
    (∀ f i, t.rgn f i = t.fget f i) ∧ s.sameRegsBut t [.MEM_RGN_STATUS]) ∧
  (∀ (s : State) (w : Who) (v : Nat), s.reaches w = true → s.barred w .MEM_FILL_CTL 0 v = .none → s.isStatus .MEM_FILL_CTL 0 v = false →
    w ≠ .ns ∨ s.nsFill (MEM_FILL_CTL.KEY.val v) (MEM_FILL_CTL.FIRST.val v)
      (MEM_FILL_CTL.FIRST.val v + MEM_FILL_CTL.NUM_M1.val v) = true →
    (s.fillBad v = true → exec (.memFillGo w v) s = .next (s.fset MEM_FILL_CTL.REJ 0 1)) ∧
    (s.fillBad v = false → MEM_FILL_CTL.GO.bit v = true →
      exec (.memFillGo w v) s = .next ((s.clrW1C .MEM_FILL_CTL 0 v).putRW .MEM_FILL_CTL 0 v).fillGo)) ∧
  (∀ s : State, s.hubUp = true → s.fon MEM_FILL_CTL.BUSY 0 = true →
    exec .fillDone s = .next ((s.doFill.fset MEM_FILL_CTL.BUSY 0 0).fset MEM_FILL_CTL.DONE 0 1) ∧
    (let lo := s.fget MEM_FILL_CTL.FIRST 0
     ∀ x, lo ≤ x / 2 ^ 21 → x / 2 ^ 21 ≤ lo + s.fget MEM_FILL_CTL.NUM_M1 0 → s.mem.filled.contains (x / 128) = false →
       cellAt s.doFill.mem.bytes x = 0))

/-- Repair, training, refresh and the status of a stack (R315 to R322). -/
def Obligations.StackCare : Prop :=
  (∀ (s : State) (w : Who) (stack pc row : Nat), stack < 12 → pc < 64 → row < 2 ^ 20 → s.reaches w = true →
    (∀ op, op < 3 → s.barred w .MEM_REPAIR_CMD 0 (repairWord stack op pc (if op = 1 then 0 else row)) = .none →
      s.isStatus .MEM_REPAIR_CMD 0 (repairWord stack op pc (if op = 1 then 0 else row)) = false →
      s.fon MEM_REPAIR_CMD.BUSY 0 = false →
      (let v := repairWord stack op pc (if op = 1 then 0 else row)
       let u := (s.clrW1C .MEM_REPAIR_CMD 0 v).putRW .MEM_REPAIR_CMD 0 v
       let z := if u.repairFull stack op = true then u.fset MEM_REPAIR_CMD.FULL 0 1 else
         { u with mem := { u.mem with repair := some ⟨op, stack, pc, if op = 1 then 0 else row⟩ } }.fset MEM_REPAIR_CMD.BUSY 0 1
       (op = 0 → exec (.repairRemapRow w stack pc row) s = .next z) ∧
       (op = 1 → exec (.repairSubstitutePc w stack pc) s = .next z) ∧
       (op = 2 → exec (.repairLoadRowRemap w stack pc row) s = .next z)))) ∧
  (∀ (s : State) (sppr : Bool) (lost : List Nat) (r : Repair), s.hubUp = true → s.mem.repair = some r → r.stack < 12 →
    (let u := { s with mem := { s.mem with repair := none } }.fset MEM_REPAIR_CMD.BUSY 0 0
     (r.op = 1 → exec (.repairDone sppr lost) s =
       .next (((u.markBad 2 lost).fsat MEM_STK_STATUS.SPC_USED r.stack 1).recordFence 9 3 (r.stack + r.pc * 16))) ∧
     (r.op ≠ 1 → sppr = false → Gives (.repairDone sppr lost) s fun t => t.mem.remaps = s.mem.remaps ++ [(r.stack, r.pc, r.row)] ∧
       t.fget MEM_STK_STATUS.ROWS_USED r.stack = (s.fget MEM_STK_STATUS.ROWS_USED r.stack + 1) % 2 ^ 17))) ∧
  (∀ (s : State) (w : Who) (v : Nat), s.reaches w = true → s.barred w .MEM_TRAIN 0 v = .none → s.isStatus .MEM_TRAIN 0 v = false →
    MEM_TRAIN.GO.bit v = true →
    (let u := s.clrW1C .MEM_TRAIN 0 v
     ((u.fget GCTL_BOOT_STAT.PASSED 0).testBit 4 = false → exec (.memTrainGo w v) s = .next (u.logC 0x0619)) ∧
     ((u.fget GCTL_BOOT_STAT.PASSED 0).testBit 4 = true → u.fon MEM_TRAIN.BUSY 0 = false →
       exec (.memTrainGo w v) s = .next u.trainGo) ∧
     ((u.fget GCTL_BOOT_STAT.PASSED 0).testBit 4 = true → u.fon MEM_TRAIN.BUSY 0 = true → exec (.memTrainGo w v) s = .next u))) ∧
  (∀ (s : State) (k : Nat), k < 12 → s.hubUp = true → s.fon MEM_TRAIN.BUSY 0 = true →
    (s.fget MEM_TRAIN.DONE 0).testBit k = false → s.fon MEM_TRAIN.RETAINED 0 = false →
    Gives (.trainStackDone k [] false []) s fun t => t.fget MEM_STK_STATUS.TRAINED k = 1 ∧ t.fget MEM_STK_STATUS.SREF k = 0 ∧
      t.fget MEM_TRAIN.DONE 0 = (s.fget MEM_TRAIN.DONE 0 ||| 2 ^ k) % 2 ^ 12 ∧
      (s.fget MEM_TRAIN.DONE 0 ||| 2 ^ k = 4095 → t.fget MEM_TRAIN.BUSY 0 = 0) ∧ s.sameRegsBut t [.MEM_TRAIN, .MEM_STK_STATUS]) ∧
  (∀ (s : State) (k temp : Nat), k < 12 → s.up = true →
    (s.fon MEM_STK_STATUS.SREF k = false → s.fon MEM_STK_STATUS.FENCED k = false → Gives (.hbmRefresh k temp) s fun t =>
      t.regs = (s.fset MEM_STK_STATUS.TEMP k temp).regs ∧ t.mem.fastRefresh.testBit k = decide (85 < temp) ∧
      t.mem = { s.mem with fastRefresh := t.mem.fastRefresh }) ∧
    (s.fon MEM_STK_STATUS.SREF k = true ∨ s.fon MEM_STK_STATUS.FENCED k = true → exec (.hbmRefresh k temp) s = .next s)) ∧
  (∀ (s : State) (w : Who) (k ce : Nat), k < 12 → s.hubUp = true → w ≠ .mc →
    (let u := s.fsat MEM_STK_STATUS.CE_COUNT k ce
     exec (.memStkStatusRead w k ce) s = .next ((u.emit (.read (u.regWord .MEM_STK_STATUS k))).fset MEM_STK_STATUS.CE_COUNT k 0)))

/-- A write to LANE_PCTL under each of its five rows: an accepted one has its effects in one order, whichever row names it; a rejected one
sets `REJ` and changes no field (R374, R472, R475, R476, R483, R485, R486, R495). -/
def Obligations.LaneControl : Prop :=
  ∀ (s : State) (w : Who) (p v : Nat) (ok : Bool), p < 22 → s.reaches w = true → s.barred w .LANE_PCTL p v = .none →
    s.isStatus .LANE_PCTL p v = false →
    (let t := if s.pctlBad p v = true then pctlRejected v (s.fset LANE_PCTL.REJ p 1) else pctlEff p v ok (s.clrW1C .LANE_PCTL p v)
     (LANE_PCTL.GO.bit v = true → exec (.trainGo w p v ok) s = .next t) ∧
     (LANE_PCTL.FORCE_OUT.val v ≠ 0 → exec (.forceOut w p v ok) s = .next t) ∧
     (LANE_PCTL.LASER_SWAP.bit v = true → exec (.laserSwap w p v ok) s = .next t) ∧
     (LANE_PCTL.LOOP.val v ≠ s.fget LANE_PCTL.LOOP p → exec (.loop w p v ok) s = .next t) ∧
     (LANE_PCTL.LS2_REQ.val v ≠ s.fget LANE_PCTL.LS2_REQ p → exec (.laneLs2Req w p v ok) s = .next t))

/-- Training: SIGNAL_DETECT, ALIGN_TIMEOUT, STATUS, TRAIN, EQUALISE_TIMEOUT, DESKEW, GATE_END, MAP_REQ and MAP_SWITCH take a port from
DETECT to READY (R456 to R472). -/
def Obligations.LaneTraining : Prop :=
  (∀ (s : State) (p l : Nat), p < 22 → l < 5 → s.lanesRun = true →
    (s.lstate p = 3 → s.fget PWR_PSTATE.STATE 0 ≠ 3 → s.stage p = 1 → ((s.lp p).lane l).det = none → exec (.signalDetect p l) s =
      .next ((s.fset LANE_MON.LOS (5 * p + l) 0).detected p l)) ∧
    (s.stage p = 2 → s.fon LANE_MON.FAILED (5 * p + l) = false → ((s.lp p).lane l).aligned = false →
      ((s.lp p).lane l).out = false → ∀ t, ((s.lp p).lane l).det = some t → t + 200000 ≤ s.time.now →
      exec (.alignTimeout p l) s = .next ((s.laneOut p l 0x0225).alignDone p)) ∧
    (∀ (chars : List Nat) (y : List Sym) (led : Bool) (b : List Nat), (s.hear p [l] [chars]).1.head?.bind cleanSyms = some y →
      statusOf y = (led, some b) →
      (let h := (s.hear p [l] [chars]).2
       let m := dataNum (b.take 2) % 2 ^ 14
       let q := b.getD 2 0
       let x := h.lp p
       let n := if (x.pid.1, x.pid.2.1) = (m, q) then x.pid.2.2 + 1 else 1
       let u := h.setLp p { x with pid := (m, q, n), pstage := b.getD 4 0 % 16 }
       (s.stage p = 2 → led = true → exec (.status p l chars) s = .next ((h.alignBlock p l).statusIn p true b)) ∧
       (s.stage p = 2 → led = false → exec (.status p l chars) s = .next ((h.slip p l).statusIn p false b)) ∧
       (s.stage p = 3 → 16 ≤ n → exec (.status p l chars) s = .next (u.partnerKnown p m q)) ∧
       (s.stage p = 3 → n < 16 → exec (.status p l chars) s = .next u))) ∧
    (∀ (chars d : List Nat), ((s.hear p [l] [chars]).1.head?.bind cleanSyms).bind (seqData kTRAIN 2) = some d →
      1 ≤ s.stage p → s.stage p ≤ 5 → d.getD 0 0 % 8 < 5 →
      (let h := (s.hear p [l] [chars]).2
       let t := d.getD 0 0 % 8
       let cmd := d.getD 0 0 / 8
       let arg := d.getD 1 0
       let free := (h.lp p).txDone.getD t false = false
       (cmd = 1 → arg < 8 → free → exec (.train p l chars) s = .next ((((h.setTaps p t (presetTaps arg)).fset LANE_TAPS.PRESET (5 * p + t)
         arg).fsat LANE_TAPS.REQS (5 * p + t) 1).train p t 0x10 arg)) ∧
       (cmd = 4 → exec (.train p l chars) s = .next (((h.setLp p { h.lp p with txDone := (h.lp p).txDone.set t true }).fsat
         LANE_TAPS.REQS (5 * p + t) 1).train p t 0x12 arg)) ∧
       (cmd = 2 ∨ cmd = 3 → arg < 5 → free →
         (let tap := (h.taps p t).set arg ((h.taps p t).getD arg 0 + if cmd = 2 then 1 else -1)
          (tapsOk tap = true → exec (.train p l chars) s =
            .next (((h.setTaps p t tap).fsat LANE_TAPS.REQS (5 * p + t) 1).train p t 0x10 arg)) ∧
          (tapsOk tap = false → exec (.train p l chars) s =
            .next ((h.fsat LANE_TAPS.REQS (5 * p + t) 1).train p t 0x11 arg)))))) ∧
    (s.stage p = 4 → (s.going p).contains l = true → ((s.lp p).lane l).eqDone = false → 0 < ((s.lp p).lane l).reqs →
      512 ≤ ((s.lp p).lane l).reqs ∨ ((s.lp p).lane l).reqT + 300000000 ≤ s.time.now →
      exec (.equaliseTimeout p l) s = .next ((s.laneOut p l 0x0225).equalised p))) ∧
  (∀ (s : State) (p : Nat) (skews : List Nat), p < 22 → s.lanesRun = true → s.stage p = 5 → (s.lp p).rxIn = false →
    (s.lp p).want = none → (s.lp p).full = false → s.going p ≠ [] → (∀ l ∈ s.going p, skews.getD l 0 ≤ 64) → p < 18 →
    (let most := ((s.going p).map (skews.getD · 0)).foldl max 0
     let mark (s : State) (l : Nat) : State :=
       s.setLp p ((s.lp p).setLane l { (s.lp p).lane l with skewed := true, delay := most - skews.getD l 0 })
     exec (.deskew p skews) s = .next (((((s.going p).foldl mark s).fset LANE_PSTAT.SKEW p most).setStage p 6).afterKeys p))) ∧
  (∀ (s : State) (p : Nat) (runs : List (List (Nat × Nat))), p < 22 → s.lanesRun = true → s.stage p = 7 → (s.lp p).rxIn = false →
    (s.lp p).want = none →
    (let run := (s.going p).filter fun l => ((s.lp p).lane l).skewed
     let good := run.filter fun l => gatePass (runs.getD l [])
     let sum (l : Nat) (f : Nat × Nat → Nat) : Nat := if run.contains l then ((runs.getD l []).map f).foldl (· + ·) 0 else 0
     let u := fiveLanes.foldl (fun (s : State) l => ((s.fput LANE_MON.GATE_OK (5 * p + l) (good.contains l)).fsat LANE_MON.CV (5 * p + l)
       (sum l (·.1))).fsat LANE_MON.PRBS_ERR (5 * p + l) (sum l (·.2))) s
     let v := u.fset LANE_PSTAT.GATE_DONE p 1
     (good = [] → exec (.gateEnd p runs) s = .next ((u.trainFail p).logC 0x0224)) ∧
     (0 < good.length → good.length < 4 → exec (.gateEnd p runs) s = .next ((v.logC 0x0222).askMap p (mapOf (good.take 4)))) ∧
     (4 ≤ good.length → exec (.gateEnd p runs) s = .next (v.askMap p (mapOf (good.take 4)))))) ∧
  (∀ (s h : State) (p m : Nat) (rx : List (List Nat)), p < 22 → s.noticeOk p = true → 0 < m % 32 →
    (s.Hears p kNOTICE 2 rx (noticeData 1 m) h → exec (.mapReq p rx) s = .next (h.newTxMap p (m % 32))) ∧
    (s.Hears p kNOTICE 2 rx (noticeData 2 m) h → exec (.mapSwitch p rx) s = .next (h.newRxMap p (m % 32))))

/-- Link states, loopback and notices: LS1, LS2 and far-end loopback are entered and left, RETRAIN starts a training, and a notice that
goes unanswered for 10 µs is repeated (R453, R472, R480 to R483, R486, R489, R495). -/
def Obligations.LinkStates : Prop :=
  (∀ (s : State) (p : Nat), p < 22 → s.hubUp = true → s.stage p = 8 →
    (∀ us, s.lstate p = 0 → s.fon LANE_PCTL.LS1_EN p = true → s.fget LANE_PCTL.LS1_IDLE p ≤ us →
      exec (.ls1Idle p us) s = .next (s.ask p 3 0)) ∧
    (s.lstate p = 1 → exec (.ls1Exit p) s = .next (s.leaveLs1 p))) ∧
  (∀ (s h : State) (p arg : Nat) (rx : List (List Nat)), p < 22 → s.hubUp = true → s.stage p = 8 →
    (let told (code : Nat) : Prop := s.Hears p kNOTICE 2 rx (noticeData code arg) h
     (s.pausing = false → told 0x0C → exec (.retrain p rx) s = .next (h.trainAgain p)) ∧
     (s.pausing = false → told 0x0D →
       exec (.noticeLaserSwap p rx true) s = .next (h.notice p 2 (h.fget LANE_PSTAT.TX_MAP p)) ∧
       (arg % 8 < 5 → exec (.noticeLaserSwap p rx false) s =
         .next ((h.notice p 2 (h.fget LANE_PSTAT.TX_MAP p)).laneFail p (arg % 8) 0))) ∧
     (s.lstate p = 0 → s.fon LANE_PCTL.LS1_EN p = true → told 3 →
       exec (.ls1Req p rx true) s = .next ((h.notice p 4 0).fset LANE_PSTAT.LSTATE p 1)) ∧
     (s.lstate p = 0 → (∃ e ∈ (s.lp p).asked, e.1 = 3) → told 4 →
       exec (.ls1Ack p rx) s = .next ((h.answered p [3]).fset LANE_PSTAT.LSTATE p 1)) ∧
     (s.lstate p = 1 → told 7 → exec (.wake p rx) s = .next (h.fset LANE_PSTAT.LSTATE p 0)) ∧
     (told 5 → exec (.ls2Req p rx) s = .next ((h.notice p 6 0).enterLs2 p)) ∧
     ((∃ e ∈ (s.lp p).asked, e.1 = 5) → told 6 → exec (.ls2Ack p rx) s = .next (h.enterLs2 p)) ∧
     (s.fon FAB_PORT.DOWN_REQ p = true → told 8 → exec (.feReq p rx) s = .next ((h.notice p 9 0).loopOn p)) ∧
     (s.fon FAB_PORT.DOWN_REQ p = false → told 8 → exec (.feReq p rx) s = .next (h.notice p 0x0A 0)))) ∧
  (∀ (s h : State) (p arg : Nat) (rx : List (List Nat)), p < 22 → s.hubUp = true →
    (let told (code : Nat) : Prop := s.Hears p kNOTICE 2 rx (noticeData code arg) h
     ((∃ e ∈ (s.lp p).asked, e.1 = 8) → told 9 → exec (.feAck p rx) s = .next ((h.answered p [8]).loopOn p)) ∧
     ((∃ e ∈ (s.lp p).asked, e.1 = 8) → told 0x0A → exec (.feRefuse p rx) s = .next ((h.answered p [8]).logC 0x022B)) ∧
     (s.fget LANE_PCTL.LOOP p = 0 → told 0x0B → exec (.feEnd p rx) s = .next (h.loopOff p)))) ∧
  (∀ (s : State) (p code arg t : Nat), p < 22 → s.hubUp = true →
    (s.lp p).asked.find? (fun e => decide (e.1 = code) && decide (e.2.2 + 10000 ≤ s.time.now)) = some (code, arg, t) →
    exec (.noticeRepeat p code) s = .next (s.ask p code arg))

/-- What reading a sequence leaves alone, credits, STATUS, SKIP columns, lane failures and the readings of lanes and optics (R439, R441,
R442, R448, R451, R455, R457, R477, R479, R487, R492, R493). -/
def Obligations.LaneReadings : Prop :=
  (∀ (s h : State) (p k n : Nat) (rx : List (List Nat)) (d : List Nat), p < 22 → s.Hears p k n rx d h →
    s.sameRegsBut h [.LANE_MON] ∧ h.mem = s.mem ∧ h.core = s.core ∧ h.fab = s.fab ∧ ∀ q, q ≠ p → h.lp q = s.lp q) ∧
  (∀ (s : State) (p pool : Nat), p < 22 → pool ≤ 4 → s.hubUp = true → s.fon FAB_PORT.LINK_UP p = true →
    (∀ (h : State) (total : Nat) (rx : List (List Nat)) (q : List Nat), total < 4096 → s.Hears p kCREDIT 2 rx (creditData pool total) h →
      (let u := h.setDepths q
       exec (.laneCredit p rx q) s = .next (({ u with fab := { u.fab with credRx := tset u.fab.credRx (p * 8 + pool) total 0 } }.setCredit
         p pool (u.credit p pool + wrapSub 12 total (tget u.fab.credRx (p * 8 + pool) 0))).creditCame p))) ∧
    exec (.creditSend p pool) s = .next (s.creditSeq p pool (tget s.fab.credTx (p * 8 + pool) 0))) ∧
  (∀ (s : State) (p : Nat), p < 22 → s.hubUp = true →
    (1 ≤ s.stage p → s.stage p ≤ 4 → exec (.statusSend p) s = .next (s.sendBlocks p (trainData 0 0 0))) ∧
    ((5 ≤ s.stage p ∧ s.stage p ≤ 7) ∨ (s.stage p = 8 ∧ s.lstate p = 0) → exec (.statusSend p) s = .next (s.sendStatus p))) ∧
  (∀ (s : State) (p : Nat) (rx : List (List Nat)), p < 22 → s.hubUp = true → s.hears p = true →
    (let h := s.hear p (s.rxLanes p) rx
     let n := (rx.map (·.length)).foldl max 0
     let cols := (List.range n).map fun i => rx.map fun c => c.getD i 0
     (n ≤ 16 → (colsOf h.1).getLast? = some (.sp kSKIP false) →
       exec (.skipColumn p rx) s = .next (h.2.setLp p { h.2.lp p with ebuf := matchRate cols })) ∧
     (8 < n → matchRate cols = cols.dropLast) ∧ (n = 8 → matchRate cols = cols) ∧
     (0 < n → n < 8 → (matchRate cols).length = n + 1 ∧ cols <+: matchRate cols))) ∧
  (∀ (s : State) (p l cause reading : Nat), p < 22 → l < 5 → s.lanesRun = true →
    (5 ≤ s.stage p → s.stage p ≤ 8 →
      (cause ≠ 0 → exec (.laneFail p l cause reading) s = .next (s.laneFail p l reading)) ∧
      (cause = 0 → exec (.laneFail p l cause reading) s = .next ((s.fset LANE_MON.LOS (5 * p + l) 1).laneFail p l reading))) ∧
    (1 ≤ s.stage p → s.stage p ≤ 4 → cause = 0 → exec (.laneFail p l cause reading) s = .next (s.fset LANE_MON.LOS (5 * p + l) 1))) ∧
  (∀ (s : State) (w : Who) (p l : Nat), p < 22 → l < 5 → s.hubUp = true → w ≠ .mc →
    (Gives (.lanePstatRead w p) s fun t => t.fget LANE_PSTAT.CTRL_DISC p = 0 ∧ s.sameRegsBut t [.LANE_PSTAT] ∧
      t.out = s.out ++ [Out.read (s.regWord .LANE_PSTAT p)]) ∧
    (∀ chars : List Nat, s.hears p = true →
      (let h := s.hear p [l] [chars]
       let bad := if s.fon LANE_PCTL.PRBS p = true ∨ s.stage p = 7 then patternErrs (h.1.headD []) else 0
       Gives (.laneMonRead w p l chars) s fun t => t.fget LANE_MON.CV (5 * p + l) = 0 ∧
         t.fget LANE_MON.PRBS_ERR (5 * p + l) = 0 ∧ s.sameRegsBut t [.LANE_MON] ∧
         t.out = h.2.out ++ [Out.read ((h.2.fsat LANE_MON.PRBS_ERR (5 * p + l) bad).regWord .LANE_MON (5 * p + l))]))) ∧
  (∀ (s : State) (p l h v : Nat), p < 22 → l < 5 → s.hubUp = true →
    exec (.eyeMeasure p l h v) s = .next ((s.fset LANE_MON.H_MARGIN (5 * p + l) h).fset LANE_MON.V_MARGIN (5 * p + l) v)) ∧
  (∀ (s : State) (p l rx tx refl bias : Nat), 18 ≤ p → p < 22 → l < 5 → s.hubUp = true →
    Gives (.optMonitor p l rx tx refl bias) s fun t => t.fget LANE_OPT.RX_PWR (5 * p + l) = rx % 2 ^ 16 ∧
      t.fget LANE_OPT.TX_PWR (5 * p + l) = tx % 2 ^ 16 ∧ t.fget LANE_OPT.BREFL (5 * p + l) = refl % 2 ^ 16 ∧
      t.fget LANE_OPT.BIAS (5 * p + l) = bias % 2 ^ 16 ∧ t.mem = s.mem ∧
      (sext 16 rx < -1400 → 5 ≤ s.stage p → s.stage p ≤ 8 →
        t.fget LANE_MON.LOS (5 * p + l) = 1 ∧ t.fget LANE_MON.FAILED (5 * p + l) = 1))

/-- Optical link sessions: HELLO, ENCAPSULATION_KEY, KEM_CIPHERTEXT and FINISHED go on or fail the agreement, and LINK_REKEY starts it
again (R747 to R753). -/
def Obligations.LinkSessions : Prop :=
  (∀ (s : State) (p : Nat) (a : Agree) (b : List Byte), p < 22 → s.hubUp = true → s.agreeing p = some a → a.theirs = none →
    b.length = 95 →
    (a.any = true ∨ ofLE (sha256 (helloKey b)) = a.hash →
      (s.initiates p = false → exec (.hello p b) s =
        .next (s.setLp p { s.lp p with agree := some { a with theirs := some b, log := b ++ a.mine } })) ∧
      (∀ (t : State) (sig : List Byte), s.initiates p = true →
        (let ek := fixLen 1568 (Config.kemKey (s.secret 64))
         let log := a.mine ++ b ++ ek
         s.drew.sign log = some (sig, t) → exec (.hello p b) s = .next ((t.setLp p { t.lp p with
           agree := some { a with theirs := some b, seed := s.secret 64, log := log ++ sig } }).keysMsg p 2 (ek ++ sig))))) ∧
    (a.any = false → ofLE (sha256 (helloKey b)) ≠ a.hash → exec (.hello p b) s = .next (s.linkFail p))) ∧
  (∀ (s t : State) (p : Nat) (a : Agree) (h ek sig mine : List Byte), p < 22 → s.hubUp = true → s.agreeing p = some a →
    a.theirs = some h → a.shared = [] → s.initiates p = false → ek.length = 1568 →
    (hssVerify (helloKey h) (a.log ++ ek) sig = false → exec (.encapsulationKey p ek sig) s = .next (s.linkFail p)) ∧
    (hssVerify (helloKey h) (a.log ++ ek) sig = true →
      (let c := Config.kemEncaps ek (s.secret 32)
       let log := a.log ++ ek ++ sig ++ fixLen 1568 c.1
       s.drew.sign log = some (mine, t) → exec (.encapsulationKey p ek sig) s = .next
        ((t.keysMsg p 3 (fixLen 1568 c.1 ++ mine)).sendFinished p { a with log := log ++ mine, shared := fixLen 32 c.2 })))) ∧
  (∀ (s : State) (p : Nat) (a : Agree) (h ct sig : List Byte), p < 22 → s.hubUp = true → s.agreeing p = some a →
    a.theirs = some h → a.shared = [] → s.initiates p = true → ct.length = 1568 →
    (hssVerify (helloKey h) (a.log ++ ct) sig = false → exec (.kemCiphertext p ct sig) s = .next (s.linkFail p)) ∧
    (hssVerify (helloKey h) (a.log ++ ct) sig = true → exec (.kemCiphertext p ct sig) s = .next
      (s.sendFinished p { a with log := a.log ++ ct ++ sig, shared := fixLen 32 (Config.kemDecaps a.seed ct) }))) ∧
  (∀ (s : State) (p : Nat) (a : Agree) (h b : List Byte), p < 22 → s.hubUp = true → s.agreeing p = some a → a.theirs = some h →
    a.shared ≠ [] →
    (b = hmac (a.key "ETIEN FIN" h) a.log → exec (.finished p b) s =
      .next ((s.sessionBegin p (a.key "ETIEN LINK" a.mine) (a.key "ETIEN LINK" h)).afterKeys p)) ∧
    (b ≠ hmac (a.key "ETIEN FIN" h) a.log → exec (.finished p b) s = .next (s.linkFail p))) ∧
  (∀ (s : State) (p : Nat), 18 ≤ p → p < 22 → s.hubUp = true → s.stage p = 8 →
    2 ^ 36 ≤ tget s.fab.linkTx p 0 ∨ 2 ^ 36 ≤ tget s.fab.linkRx p 0 ∨ tget s.fab.linkT p 0 + 86400000000000 ≤ s.count →
    exec (.linkRekey p) s = .next ((s.notice p 0x0C 0).trainStart p true false))

/-- Security commands start in one way, whichever row names them: an S write with `GO` 1 to a running command is rejected, otherwise the
command is judged, and it runs or ends at once with `REJ`, `DONE` and its code; in PS4 all end so, and NS writes are only logged (R328,
R737, R740, R741, R762, R771). -/
def Obligations.SecurityCommandsStart : Prop :=
  (∀ (s : State) (v : Nat), SEC_CMD.GO.bit v = true → s.reaches .s = true → s.fon SEC_CMD.BUSY 0 = false →
    let t := ((s.clrW1C .SEC_CMD 0 v).putRW .SEC_CMD 0 v).secGo v
    (SEC_CMD.OP.val v = 1 → exec (.partOpen .s v) s = .next t) ∧
    (SEC_CMD.OP.val v = 2 → exec (.partClose .s v) s = .next t) ∧
    (SEC_CMD.OP.val v = 3 → SEC_CMD.KIND.val v = 0 → exec (.moveCluster .s v) s = .next t) ∧
    (SEC_CMD.OP.val v = 3 → SEC_CMD.KIND.val v = 1 → exec (.moveContext .s v) s = .next t) ∧
    (SEC_CMD.OP.val v = 3 → SEC_CMD.KIND.val v = 2 → exec (.moveEndpoint .s v) s = .next t) ∧
    (SEC_CMD.OP.val v = 3 → SEC_CMD.KIND.val v = 3 → exec (.moveKeyslot .s v) s = .next t) ∧
    (SEC_CMD.OP.val v = 4 → exec (.scrub .s v) s = .next t) ∧
    (SEC_CMD.OP.val v = 5 → exec (.setDl .s v) s = .next t) ∧
    (SEC_CMD.OP.val v = 6 → exec (.unlock .s v) s = .next t) ∧
    (SEC_CMD.OP.val v = 7 → exec (.ownerLock .s v) s = .next t) ∧
    (SEC_CMD.OP.val v = 8 → exec (.ownerBind .s v) s = .next t) ∧
    (SEC_CMD.OP.val v = 9 → exec (.lifecycle .s v) s = .next t)) ∧
  (∀ (s : State) (w : Who) (v : Nat) (c : Instr), SEC_CMD.GO.bit v = true →
    ((c = .partOpen w v ∧ SEC_CMD.OP.val v = 1) ∨ (c = .partClose w v ∧ SEC_CMD.OP.val v = 2) ∨
     (c = .moveCluster w v ∧ SEC_CMD.OP.val v = 3 ∧ SEC_CMD.KIND.val v = 0) ∨
     (c = .moveContext w v ∧ SEC_CMD.OP.val v = 3 ∧ SEC_CMD.KIND.val v = 1) ∨
     (c = .moveEndpoint w v ∧ SEC_CMD.OP.val v = 3 ∧ SEC_CMD.KIND.val v = 2) ∨
     (c = .moveKeyslot w v ∧ SEC_CMD.OP.val v = 3 ∧ SEC_CMD.KIND.val v = 3) ∨
     (c = .scrub w v ∧ SEC_CMD.OP.val v = 4) ∨ (c = .setDl w v ∧ SEC_CMD.OP.val v = 5) ∨
     (c = .unlock w v ∧ SEC_CMD.OP.val v = 6) ∨ (c = .ownerLock w v ∧ SEC_CMD.OP.val v = 7) ∨
     (c = .ownerBind w v ∧ SEC_CMD.OP.val v = 8) ∨ (c = .lifecycle w v ∧ SEC_CMD.OP.val v = 9)) →
    (w = .s → s.reaches .s = true → s.fon SEC_CMD.BUSY 0 = true →
      exec c s = .next (((s.fset SEC_CMD.REJ 0 1).fset SEC_CMD.CODE 0 0x0506).logC 0x0506)) ∧
    (w = .s → s.pwr.on = true → s.pwr.trip = 0 → s.fget PWR_PSTATE.STATE 0 = 4 → exec c s = .next (s.secReject 0x0509)) ∧
    (w = .ns → s.reaches .ns = true → exec c s = .next (s.logC 0x0503))) ∧
  (∀ (s : State) (v : Nat),
    (let r := s.secRunOf v
     let code := s.secCode r (SEC_CMD.TLEN.val v)
     (code = 0 → r.op < 6 → s.secGo v = s.secStart r ∧ (s.secStart r).sec.run = some r) ∧
     (code = 0 → 6 ≤ r.op → s.secGo v = s.newNonce.secStart r) ∧
     (code = 0x050A → 6 ≤ r.op → r.op ≤ 9 → s.secGo v = s.newNonce.secReject 0x050A) ∧
     (code ≠ 0 → code ≠ 0x050A → s.secGo v = s.secReject code))) ∧
  (∀ (s : State) (r : SecRun) (n : Nat),
    (s.fget SEC_LIFE.LCS 0 = 4 → s.secCode r n = 0x050B) ∧
    (s.fget SEC_LIFE.LCS 0 ≠ 4 → r.op < 6 → s.secCond r = false → s.secCode r n = 0x0506) ∧
    (s.fget SEC_LIFE.LCS 0 ≠ 4 → r.op < 6 → s.secCond r = true → s.secCode r n = 0) ∧
    (r.op = 1 → s.secCond r = (decide (r.dst < 16) && !s.fon SEC_PART.VALID r.dst)) ∧
    (r.op = 5 → r.dl = 3 → 2 ≤ s.fget SEC_LIFE.LCS 0 → s.secCond r = false) ∧
    (r.op = 6 → s.fget SEC_LIFE.LCS 0 ≤ 1 → s.secCode r n = 0x050B) ∧
    (r.op = 6 → s.secCond r = true → s.fget SEC_LIFE.LCS 0 = 2 →
      s.secCode r n = if s.tokenOk 6 r.dst n .owner then 0 else 0x050A) ∧
    (r.op = 6 → s.secCond r = true → s.fget SEC_LIFE.LCS 0 = 3 →
      s.secCode r n = if s.tokenOk 6 r.dst n .vendor then 0 else 0x050A) ∧
    (r.op = 7 → s.fget SEC_LIFE.LCS 0 = 2 → s.secCode r n = if s.tokenOk 7 r.dst n .owner then 0 else 0x050A) ∧
    (r.op = 8 → s.fget SEC_LIFE.LCS 0 = 2 → s.fuse.ohash = none →
      s.secCode r n = if s.tokenOk 8 r.dst n .vendor then 0 else 0x050A))

/-- A running security command ends with its effect, `CODE` 0 and `DONE` 1, or, needing keys that the entropy source cannot give, with
TRNG_FAIL; cluster worlds are written for clusters no partition holds; the entropy source's two rows set `TRNG_OK` (R731, R732, R737,
R740, R743, R744). -/
def Obligations.SecurityCommandsEnd : Prop :=
  (∀ (s : State) (r : SecRun), s.sec.run = some r → s.hubUp = true →
    (let ended (t : State) : State :=
       ((({ t with sec := { t.sec with run := none } }).secBusy r 0).fset SEC_CMD.BUSY 0 0).fset SEC_CMD.DONE 0 1
     (s.needsKeys r = true → s.fon SEC_LIFE.TRNG_OK 0 = false → exec .secCmdDone s = .next (ended (s.secFail r))) ∧
     (s.needsKeys r = false ∨ s.fon SEC_LIFE.TRNG_OK 0 = true →
       exec .secCmdDone s = .next (ended ((s.secEffect r).fset SEC_CMD.CODE 0 0)) ∧
       Gives .secCmdDone s fun t => t.sec.run = none ∧ t.fget SEC_CMD.BUSY 0 = 0 ∧ t.fget SEC_CMD.DONE 0 = 1 ∧
         t.fget SEC_CMD.CODE 0 = 0 ∧
         (r.op = 1 → r.dst < 16 → t.fget SEC_PART.VALID r.dst = 1 ∧ t.fget SEC_PART.PWORLD r.dst = r.index % 2 ∧
           t.fget SEC_PART.DL r.dst = 0 ∧ t.fget SEC_PART.BUSY r.dst = 0) ∧
         (r.op = 3 → r.kind = 1 → r.src < 16 → r.dst < 16 → r.src ≠ r.dst →
           t.fget SEC_PART.CTXM r.src = (s.fget SEC_PART.CTXM r.src - 2 ^ r.index) % 2 ^ 256 ∧
           t.fget SEC_PART.CTXM r.dst = (s.fget SEC_PART.CTXM r.dst + 2 ^ r.index) % 2 ^ 256 ∧
           t.mem = s.mem ∧ t.core = s.core) ∧
         (r.op = 5 → s.scrubs r = false → s.fget SEC_PART.DL r.dst ≤ r.dl → r.dl ≤ 3 → r.dst < 16 →
           t.fget SEC_PART.DL r.dst = r.dl ∧ t.mem = s.mem ∧ t.core = s.core) ∧
         (r.op = 6 → r.dst < 16 → t.fget SEC_PART.DL r.dst = 3 ∧ t.fget SEC_PART.DL3_TOKEN r.dst = 1) ∧
         (r.op = 7 → t.fget SEC_LIFE.OWNER_LOCK 0 = 1) ∧
         (r.op = 8 → t.fuse.ohash = some r.ohash) ∧ (r.op = 9 → t.fuse.lcs = r.lcs)))) ∧
  (∀ (s : State) (k v : Nat), k < 4 → s.reaches .s = true →
    (let full := s.wordPut .SEC_CL_WORLD 0 k v
     let moved := (SEC_CL_WORLD.W.val full ^^^ s.fget SEC_CL_WORLD.W 0) &&& s.clustersHeld
     s.isStatus .SEC_CL_WORLD 0 full = false →
     (moved = 0 → exec (.secClWorldWrite .s k v) s = .next ((s.clrW1C .SEC_CL_WORLD 0 full).putRW .SEC_CL_WORLD 0 full)) ∧
     (moved ≠ 0 → exec (.secClWorldWrite .s k v) s = .next (s.logC 0x0506)))) ∧
  (∀ (s : State), s.pwr.on = true → exec .trngHealthFail s = .next (s.fset SEC_LIFE.TRNG_OK 0 0) ∧
    exec .trngStartupPass s = .next (s.fset SEC_LIFE.TRNG_OK 0 1))

/-- SPDM requests are answered over an MCTP endpoint in the order that a connection admits, from slot 0 alone; a wrong version and a
request out of order are answered with errors; a large response goes out in chunks (R754, R763 to R765, R834). That message layouts are
those of DSP0274 is the model's (log 74). -/
def Obligations.AttestationRequests : Prop :=
  (∀ (s : State) (b : List Byte), s.mbUp = true → s.fget GCTL_MGMT.EID 0 ≠ 0 →
    (let u : State := { s.wake with sec := { s.wake.sec with large := [] } }
     let took (x : SecSt) (r : List Byte) : State := { u with sec := x }.spdmAnswer r
     (leAt b 1 1 = 0x84 → leAt b 0 1 = 0x10 →
       (let r := leBytes 1 0x10 ++ leBytes 1 4 ++ zeros 2 ++ zeros 1 ++ leBytes 1 1 ++ leBytes 2 0x1300
        exec (.getVersion b) s = .next (took { u.sec with spdm := 1, transA := b ++ r, transB := [], transL := [] } r))) ∧
     (leAt b 0 1 = 0x13 →
       (leAt b 1 1 = 0xE1 → s.sec.spdm = 1 →
         (let r := spdmMsg 0x61 0 0 (zeros 1 ++ leBytes 1 18 ++ zeros 2 ++ leBytes 4 0x20036 ++ leBytes 4 transferSize ++
            leBytes 4 (Config.spdmMax % 2 ^ 32))
          exec (.getCapabilities b) s = .next (took { u.sec with spdm := 2, transA := u.sec.transA ++ b ++ r } r))) ∧
       (leAt b 1 1 = 0xE3 → s.sec.spdm = 2 → (offered b).contains 0x4E4C0001 = true →
         (let r := spdmMsg 0x63 0 0 (leBytes 2 40 ++ leBytes 1 (leAt b 6 1 &&& 1) ++ zeros 1 ++ leBytes 4 2 ++ zeros 4 ++
            leBytes 4 (leAt b 12 4 &&& 1) ++ zeros 12 ++ leBytes 1 1 ++ zeros 3 ++ leBytes 4 0x4E4C0001)
          exec (.negotiateAlgorithms b) s = .next (took { u.sec with spdm := 3, transA := u.sec.transA ++ b ++ r } r))) ∧
       (3 ≤ s.sec.spdm →
         (leAt b 1 1 = 0x81 →
           (let r := spdmMsg 1 1 1 (sha256 u.certChain)
            exec (.getDigests b) s = .next (took { u.sec with transB := u.sec.transB ++ b ++ r } r))) ∧
         (leAt b 1 1 = 0x82 → leAt b 2 1 = 0 → leAt b 4 2 < u.certChain.length →
           (let n := min (leAt b 6 2) (u.certChain.length - leAt b 4 2)
            let r := spdmMsg 2 0 0 (leBytes 2 n ++ leBytes 2 (u.certChain.length - leAt b 4 2 - n) ++ slice u.certChain (leAt b 4 2) n)
            exec (.getCertificate b) s = .next (took { u.sec with transB := u.sec.transB ++ b ++ r } r))) ∧
         (leAt b 1 1 = 0x83 → leAt b 2 1 = 0 →
           (let r := spdmMsg 3 0 1 (sha256 u.certChain ++ u.secret 32 ++ (if leAt b 3 1 = 0 then [] else sha256 u.allMeas) ++
              zeros 2 ++ slice b 36 8)
            ∀ sig t, u.drew.sign (spdmSigned "responder-challenge_auth signing" (u.sec.transA ++ u.sec.transB ++ b ++ r)) =
              some (sig, t) →
              exec (.challenge b) s = .next ({ t with sec := { t.sec with transB := [] } }.spdmAnswer (r ++ sig)))) ∧
         (leAt b 1 1 = 0xE0 → leAt b 2 1 % 2 = 0 → leAt b 3 1 = 255 →
           (let r := spdmMsg 0x60 0 0 (leBytes 1 13 ++ leBytes 3 u.allMeas.length ++ u.allMeas ++ u.secret 32 ++ zeros 2 ++ slice b 4 8)
            exec (.getMeasurements b) s = .next ({ u.drew with sec :=
              { u.sec with transL := u.sec.transL ++ b ++ r } }.spdmAnswer r))) ∧
         (leAt b 1 1 = 0x82 → leAt b 2 1 ≠ 0 → exec (.getCertificate b) s = .next (u.spdmError 1 0 []))) ∧
       (s.sec.spdm < 3 →
         (leAt b 1 1 = 0x81 → exec (.getDigests b) s = .next (u.spdmError 4 0 [])) ∧
         (leAt b 1 1 = 0x82 → exec (.getCertificate b) s = .next (u.spdmError 4 0 [])) ∧
         (leAt b 1 1 = 0x83 → exec (.challenge b) s = .next (u.spdmError 4 0 [])) ∧
         (leAt b 1 1 = 0xE0 → exec (.getMeasurements b) s = .next (u.spdmError 4 0 [])))) ∧
     (leAt b 1 1 = 0xE1 → leAt b 0 1 ≠ 0x13 → exec (.getCapabilities b) s = .next (u.spdmError 0x41 0 [])))) ∧
  (∀ (s : State) (b : List Byte), s.mbUp = true → s.fget GCTL_MGMT.EID 0 ≠ 0 → leAt b 1 1 = 0x86 →
    (let w := s.wake
     let l := w.sec.large
     let k := w.sec.chunk
     let c := slice l (k * chunkLen) chunkLen
     l ≠ [] → leAt b 3 1 = w.sec.handle → leAt b 4 2 = k →
     (chunkLen < l.length → k = 0 → exec (.chunkGet b) s = .next ({ w with sec := { w.sec with chunk := 1 } }.mgPut 4
       (spdmMsg 6 0 w.sec.handle (leBytes 2 0 ++ zeros 2 ++ leBytes 4 c.length ++ leBytes 4 l.length ++ c)))) ∧
     ((k + 1) * chunkLen < l.length → 0 < k → exec (.chunkGet b) s = .next ({ w with sec := { w.sec with chunk := k + 1 } }.mgPut 4
       (spdmMsg 6 0 w.sec.handle (leBytes 2 k ++ zeros 2 ++ leBytes 4 c.length ++ c)))) ∧
     (l.length ≤ (k + 1) * chunkLen → 0 < k → exec (.chunkGet b) s =
       .next ({ w with sec := { w.sec with large := [], chunk := k + 1 } }.mgPut
       4 (spdmMsg 6 1 w.sec.handle (leBytes 2 k ++ zeros 2 ++ leBytes 4 c.length ++ c)))))) ∧
  (∀ (s : State) (b : List Byte), (b.length ≤ transferSize → s.spdmAnswer b = s.mgPut 4 b) ∧
    (transferSize < b.length → s.spdmAnswer b = ({ s with sec := { s.sec with large := b, handle := (s.sec.handle + 1) % 256, chunk := 0 } }
      : State).spdmError 0x0F 0 (leBytes 1 ((s.sec.handle + 1) % 256))))

/-- Firmware updates through the registers: requests are rejected in a state that does not admit them, refused by the conditions that hold,
and otherwise acted on; staging ends STAGED or IDLE; an armed update begins at its count and completes or fails; committed security
versions are burned (R778, R779, R781 to R785, R787, R788). -/
def Obligations.FirmwareUpdates : Prop :=
  (∀ (s : State) (v : Nat), s.reaches .s = true → s.isStatus .SEC_FWU_CTL 0 v = false →
    (let u := s.clrW1C .SEC_FWU_CTL 0 v
     let st := u.fget SEC_FWU_STAT.STATE 0
     let only (a b c d : Bool) : Prop := SEC_FWU_CTL.STAGE.bit v = a ∧ SEC_FWU_CTL.ACTIVATE.bit v = b ∧
       SEC_FWU_CTL.ABANDON.bit v = c ∧ SEC_FWU_CTL.SVN_COMMIT.bit v = d
     (only true false false false →
       (st ≠ 0 → exec (.fwuStage .s v) s = .next u.fwuReject) ∧
       (st = 0 → u.refuseBits = 0 → exec (.fwuStage .s v) s = .next
         { (u.fset SEC_FWU_STAT.REFUSE 0 0).fset SEC_FWU_STAT.STATE 0 1 with fw := { u.fw with path := 1, bundle := u.srcBundle } }) ∧
       (st = 0 → u.refuseBits ≠ 0 → exec (.fwuStage .s v) s = .next
         (((u.fset SEC_FWU_STAT.REFUSE 0 u.refuseBits).fset SEC_FWU_STAT.CODE 0 0x0601).logC 0x0601))) ∧
     (only false true false false →
       (st ≠ 2 ∨ u.fw.path ≠ 1 → exec (.fwuActivate .s v) s = .next u.fwuReject) ∧
       (st = 2 → u.fw.path = 1 → u.refuseBits = 0 → u.fon TIME_STATUS.UNSYNC 0 = false → exec (.fwuActivate .s v) s = .next
         (({ (u.fset SEC_FWU_STAT.REFUSE 0 0).fset SEC_FWU_STAT.STATE 0 3 with fw := { u.fw with tAct := u.fget SEC_FWU_T.T_ACT 0 } }
           : State).arm (u.fget SEC_FWU_T.T_ACT 0) 1 0 0)) ∧
       (st = 2 → u.fw.path = 1 → u.fon TIME_STATUS.UNSYNC 0 = true → u.refuseBits < 32 → exec (.fwuActivate .s v) s = .next
         (((u.fset SEC_FWU_STAT.REFUSE 0 (u.refuseBits + 32)).fset SEC_FWU_STAT.CODE 0 0x0609).logC 0x0609))) ∧
     (only false false true false →
       ((st = 2 ∨ st = 3) → u.fw.path = 1 → exec (.fwuAbandon .s v) s = .next
         { u.fset SEC_FWU_STAT.STATE 0 0 with
           time := { u.time with armed := u.time.armed.filter fun a => decide (a.kind ≠ 1) }
           fw := { u.fw with staged := [], stagedEnt := [], bundle := [], path := 0 } }) ∧
       (st ≠ 2 → st ≠ 3 → exec (.fwuAbandon .s v) s = .next u.fwuReject)) ∧
     (only false false false true →
       (st ≠ 0 → exec (.svnCommit .s v) s = .next u.fwuReject) ∧
       (st = 0 → Gives (.svnCommit .s v) s fun t => t.mem = s.mem ∧ t.fuse.epochs = s.fuse.epochs ∧ t.fuse.lcs = s.fuse.lcs ∧
         ∀ k, 1 ≤ k → k ≤ 4 → t.svnOf k = max (s.svnOf k) (min 64 (MFE.SVN.of (s.fwEntry k))))))) ∧
  (∀ (s : State) (copies : List BlockCopy), s.hubUp = true → s.fget SEC_FWU_STAT.STATE 0 = 1 →
    (let u := s.fset SEC_FWU_STAT.DONE 0 1
     let es := manifestEntries s.fw.bundle
     (u.bundleCode s.fw.bundle false = 0 → (∀ e ∈ es, MFE.TYPE.of e ≠ 4) → exec (.stagingDone copies) s = .next
       { u.fset SEC_FWU_STAT.STATE 0 2 with fw := { s.fw with staged := manifestBytes s.fw.bundle, stagedEnt := es, bundle := [] } }) ∧
     (u.bundleCode s.fw.bundle false ≠ 0 → Gives (.stagingDone copies) s fun t => t.fget SEC_FWU_STAT.STATE 0 = 0 ∧
       t.fget SEC_FWU_STAT.DONE 0 = 1 ∧ t.fw = { s.fw with bundle := [], path := 0 } ∧ t.mem = s.mem))) ∧
  (∀ (s : State) (ready : Bool) (alt : List (Nat × Nat)), s.hubUp = true →
    (s.fget SEC_FWU_STAT.STATE 0 = 3 → s.fw.tAct ≤ s.count → exec (.activation ready alt) s = .next s.actStart) ∧
    (s.fget SEC_FWU_STAT.STATE 0 = 3 → s.fw.tAct ≤ s.count → s.refuseBits = 0 → s.disarmFw.restful = true →
      Gives (.activation ready alt) s fun t => t.fget SEC_FWU_STAT.STATE 0 = 4 ∧ t.fget GCTL_MGMT.HANDOVER 0 = 1 ∧
        t.fw.pauseT = s.time.now ∧ t.mgmt.punty = s.puntyBytes ∧ t.mem = s.mem ∧ t.core = s.core) ∧
    (s.fget SEC_FWU_STAT.STATE 0 = 4 → ready = true → s.puntyOk alt = true → Gives (.activation ready alt) s fun t =>
      t.fget SEC_FWU_STAT.STATE 0 = 0 ∧ t.fget SEC_FWU_STAT.DONE 0 = 1 ∧ t.fget GCTL_MGMT.HANDOVER 0 = 0 ∧
      t.fget SEC_FWU_STAT.PAUSE_MS 0 = (s.time.now - s.fw.pauseT) / 1000000 % 2 ^ 8 ∧ t.fw.manifest = s.fw.staged ∧
      t.fw.staged = [] ∧ t.fw.path = 0 ∧ t.mem = s.mem ∧ t.core = s.core) ∧
    (s.fget SEC_FWU_STAT.STATE 0 = 4 → ready = false → exec (.activation ready alt) s = .next (s.actFail 0x0607)) ∧
    (s.fget SEC_FWU_STAT.STATE 0 = 4 → ready = true → s.puntyOk alt = false → exec (.activation ready alt) s = .next (s.actFail 0x0608)) ∧
    (s.fget SEC_FWU_STAT.STATE 0 = 4 → s.fw.pauseT + 30000000 ≤ s.time.now → exec .actTimeout s = .next (s.actFail 0x0607))) ∧
  (∀ s : State, ({ s with mgmt := { s.mgmt with punty := s.puntyBytes } } : State).puntyOk [] = true)

/-- Observation: trace and dump slots are written whole when in order and permitted; a debug freeze starts, joins, takes markers, is
reached or times out, and resumes; a read clears drop counters for S and reads 0 for NS (R769, R795 to R797, R802, R812, R813, R815 to
R818, R820). -/
def Obligations.Observation : Prop :=
  (∀ (s : State) (w : Who) (k j v : Nat), k < 4 → j < 3 → s.reaches w = true →
    (let x := s.wordPut .OBS_TRACE k j v
     s.barred w .OBS_TRACE k x = .none → s.isStatus .OBS_TRACE k x = false →
     (let denied := s.watchDenied w OBS_TRACE.EN OBS_TRACE.CTX k x
      (s.traceBad k x = false → denied = false →
        exec (.traceSlotWrite w k j v) s = .next (traceEff w k x (s.clrW1C .OBS_TRACE k x))) ∧
      (s.traceBad k x = true → denied = false → exec (.traceSlotWrite w k j v) s = .next (s.fset OBS_TRACE.REJ k 1)) ∧
      (denied = true →
        Gives (.traceSlotWrite w k j v) s fun t => t.fget OBS_TRACE.REJ k = 1 ∧ t.fget OBS_TRACE.EN k = s.fget OBS_TRACE.EN k)))) ∧
  (∀ (s : State) (w : Who) (k j v : Nat), k < 8 → j < 4 → s.reaches w = true →
    (let x := s.wordPut .OBS_DUMP k j v
     s.barred w .OBS_DUMP k x = .none → s.isStatus .OBS_DUMP k x = false → s.watchDenied w OBS_DUMP.EN OBS_DUMP.CTX k x = false →
     (s.dumpBad k x = false → exec (.dumpSlotWrite w k j v) s = .next (dumpEff w k x (s.clrW1C .OBS_DUMP k x))) ∧
     (s.dumpBad k x = true → exec (.dumpSlotWrite w k j v) s = .next (s.fset OBS_DUMP.REJ k 1)))) ∧
  (∀ (s : State) (w : Who) (k v : Nat), k < 4 → s.fon OBS_TRACE.EN k = false → OBS_TRACE.EN.bit v = true →
    (traceEff w k v s).fget OBS_TRACE.WCOUNT k = 0 ∧ (traceEff w k v s).fget OBS_TRACE.LOST k = 0) ∧
  (∀ (s : State) (w : Who) (v : Nat), s.reaches w = true → s.barred w .OBS_FREEZE 0 v = .none → s.isStatus .OBS_FREEZE 0 v = false →
    s.freezeDenied w = false →
    (let u := (s.clrW1C .OBS_FREEZE 0 v).wake.putRW .OBS_FREEZE 0 v
     (OBS_FREEZE.GO.bit v = true → OBS_FREEZE.RESUME.bit v = false →
       (s.frozen = false → exec (.freezeGo w v) s = .next (u.freezeStart (OBS_FREEZE.ID.val v) (decide (w = .ns)))) ∧
       (s.frozen = true → exec (.freezeGo w v) s = .next (s.fset OBS_FREEZE.REJ 0 1))) ∧
     (OBS_FREEZE.GO.bit v = false → OBS_FREEZE.RESUME.bit v = true → exec (.freezeResume w v) s = .next u.freezeEnd))) ∧
  (∀ (s h : State) (p : Nat) (rx : List (List Nat)) (d : List Nat), p < 22 → s.hubUp = true → s.fon FAB_PORT.LINK_UP p = true →
    s.Hears p kFREEZE 2 rx d h →
    (let id := d.getD 0 0
     let kept (n : Nat) : State := h.setLp p { h.lp p with lastFz := some (id, n) }
     (∀ n, (h.lp p).lastFz = some (id, n) → n < 3 → exec (.freeze p rx) s = .next (kept (n + 1))) ∧
     ((h.lp p).lastFz = none →
       (h.frozen = false → h.fon OBS_FREEZE.JOIN 0 = false → exec (.freeze p rx) s = .next ((kept 1).sendFreeze p id)) ∧
       (h.frozen = false → h.fon OBS_FREEZE.JOIN 0 = true →
         exec (.freeze p rx) s = .next (((kept 1).freezeStart id false).marker p id)) ∧
       (h.frozen = true → Gives (.freeze p rx) s fun t => p ∈ t.obs.markers ∧
         t.fget OBS_FREEZE.ACT_ID 0 = min id (h.fget OBS_FREEZE.ACT_ID 0) % 2 ^ OBS_FREEZE.ACT_ID.w ∧ t.mem = h.mem ∧ t.out = h.out)))) ∧
  (∀ (s : State), s.hubUp = true → s.fget OBS_FREEZE.STATE 0 = 1 → s.fon OBS_FREEZE.CAPTURE 0 = false →
    (s.allMarked = true → exec .frozen s = .next (s.fset OBS_FREEZE.STATE 0 2)) ∧
    (s.obs.freezeT + 100000000 ≤ s.count → Gives .freezeTimeout s fun t => t.fget OBS_FREEZE.STATE 0 = 2 ∧
      t.fget OBS_FREEZE.PARTIAL 0 = 1 ∧ t.mem = s.mem)) ∧
  (∀ (s : State) (w : Who) (p : Nat), p < 22 → s.reaches w = true →
    (w = .ns → exec (.obsPortRead w p) s = .next (s.emit (.read 0)) ∧ exec (.obsHubRead w) s = .next (s.emit (.read 0))) ∧
    (w ≠ .ns →
      (Gives (.obsPortRead w p) s fun t => t.out = s.out ++ [Out.read (s.regWord .OBS_PORT p)] ∧
        (∀ f ∈ Reg.fields .OBS_PORT, t.fget f p = 0) ∧ s.sameRegsBut t [.OBS_PORT] ∧ t.mem = s.mem) ∧
      (Gives (.obsHubRead w) s fun t => t.out = s.out ++ [Out.read (s.regWord .OBS_HUB 0)] ∧
        (∀ f ∈ Reg.fields .OBS_HUB, t.fget f 0 = 0) ∧ s.sameRegsBut t [.OBS_HUB] ∧ t.mem = s.mem)))

/-- The management bus: I3C address codes and reads, in-band interrupts, MCTP control and the reading of messages (R824 to R826, R832,
R838, R787). BCR, DCR and the maximum lengths are free values (log 72) and the answers' layouts the model's (log 73). -/
def Obligations.ManagementBus : Prop :=
  (∀ (s : State) (tb : Bool), s.i3cUp = true →
    (s.dynAddr tb = 0 → ∀ da, exec (.setdasa tb s.staticAddr da) s = .next (s.setDyn tb da) ∧
      exec (.entdaa tb da) s = .next ((s.emit (.reply (beBytes 6 s.i3cPid ++ leBytes 1 (Config.i3cBcr tb) ++
        leBytes 1 (Config.i3cDcr tb)))).setDyn tb da) ∧ exec (.getpid tb) s = .next s) ∧
    exec (.rstdaa tb) s = .next (s.setDyn tb 0) ∧
    (s.dynAddr tb ≠ 0 → exec (.getpid tb) s = .next (s.emit (.reply (beBytes 6 s.i3cPid))) ∧
      exec (.getbcr tb) s = .next (s.emit (.reply (leBytes 1 (Config.i3cBcr tb)))) ∧
      exec (.getdcr tb) s = .next (s.emit (.reply (leBytes 1 (Config.i3cDcr tb)))) ∧
      exec (.getmrl tb) s = .next (s.emit (.reply (beBytes 2 (Config.i3cMrl tb)))) ∧
      exec (.getmwl tb) s = .next (s.emit (.reply (beBytes 2 (Config.i3cMwl tb))))) ∧
    (∀ e : Nat, e.testBit 0 = true → exec (.enec false e) s = .next { s with mgmt := { s.mgmt with ibi := true } } ∧
      exec (.disec false e) s = .next { s with mgmt := { s.mgmt with ibi := false } } ∧
      exec (.enec true e) s = .next s ∧ exec (.disec true e) s = .next s)) ∧
  (∀ (s : State) (tb : Bool) (da : Nat), da < 128 → (s.setDyn tb da).dynAddr tb = da) ∧
  (∀ (s : State) (tb : Bool) (a : Nat), s.fon GCTL_MGMT.HANDOVER 0 = true →
    exec (.setdasa tb a a) s = .next s ∧ exec (.rstdaa tb) s = .next s ∧ exec (.getpid tb) s = .next s) ∧
  (∀ (s : State) (dest src eid : Nat), s.mbUp = true → dest = 0 ∨ dest = s.fget GCTL_MGMT.EID 0 →
    (1 ≤ eid → eid ≤ 254 → exec (.setEndpointId dest src eid) s = .next
      (({ s.wake.fset GCTL_MGMT.EID 0 eid with mgmt := { s.wake.mgmt with busOwner := src } } : State).mgPut 1
        (leBytes 1 1 ++ leBytes 1 0 ++ leBytes 1 0 ++ leBytes 1 eid))) ∧
    (eid = 0 ∨ 255 ≤ eid → exec (.setEndpointId dest src eid) s = .next (s.wake.mgPut 1 (leBytes 1 1 ++ leBytes 1 2))) ∧
    exec (.mctpControl dest 2) s = .next (s.wake.mgPut 1 (leBytes 1 2 ++ leBytes 1 0 ++ leBytes 1 (s.wake.fget GCTL_MGMT.EID 0))) ∧
    exec (.mctpControl dest 5) s = .next (s.wake.mgPut 1 (leBytes 1 5 ++ leBytes 1 0 ++ leBytes 1 3 ++ leBytes 3 0x050100))) ∧
  (∀ (s : State) (t : Nat) (b : List Byte), s.pwr.gasp = some (t, b) → s.time.now ≤ t + 2000000 →
    exec .messageRead s = .next ({ s with pwr := { s.pwr with gasp := none } }.emit (.event 0xF1 b))) ∧
  (∀ (s : State) (m : MgMsg) (r : List MgMsg), s.pwr.gasp = none → s.mgmt.queue = m :: r → s.mbUp = true →
    exec .messageRead s = .next ({ s with mgmt := { s.mgmt with queue := r } }.emit m.out)) ∧
  (∀ (s : State) (k : Nat) (b : List Byte), (s.mgPut k b).mgmt.queue = s.mgmt.queue ++ [MgMsg.mk k b] ∧
    (s.mgmt.ibi = true → (s.mgPut k b).out = s.out ++ [Out.ibi]) ∧ (s.mgmt.ibi = false → (s.mgPut k b).out = s.out))

/-- PLDM: sensors, thresholds, the event receiver, every effecter with its range and state, the firmware transfer, and the report of a
port's disagreement (R691, R692, R709, R719, R785, R827 to R830, R833, R837, R839, R840). Completion codes are the model's (log 73). -/
def Obligations.SensorsAndEffecters : Prop :=
  (∀ (s : State), s.mbUp = true → s.fget GCTL_MGMT.EID 0 ≠ 0 →
    (let u := s.wake
     (∀ id iout,
       (let m := if 0x10 ≤ id ∧ id ≤ 0x1A then u.fset PWR_RAIL.IOUT (id - 0x10) iout else u
        (∀ v, m.sensorVal id = some v → exec (.getSensorReading id iout) s = .next (m.pldm 0 (leBytes 8 v))) ∧
        (∀ l, m.sensorVal id = none → m.stateSensor id = some l →
          exec (.getSensorReading id iout) s = .next (m.pldm 0 (l.flatMap (leBytes 1)))) ∧
        (m.sensorVal id = none → m.stateSensor id = none → exec (.getSensorReading id iout) s = .next (m.pldm 0x80 [])))) ∧
     (∀ id lo hi, (u.sensorVal id).isSome = true → exec (.setSensorThresholds id lo hi) s = .next
       (({ u with mgmt := { u.mgmt with thresholds := tput u.mgmt.thresholds id (lo, hi) } } : State).pldm 0 []).senseAll) ∧
     (∀ eid, exec (.setEventReceiver true eid) s = .next (({ u with mgmt := { u.mgmt with receiver := some eid } } : State).pldm 0 []) ∧
       exec (.setEventReceiver false eid) s = .next (({ u with mgmt := { u.mgmt with receiver := none } } : State).pldm 0 [])) ∧
     (∀ src v, v < 2 ^ 32 →
       (src = u.mgmt.busOwner → exec (.heartbeat src v) s = .next (u.heartbeat.pldm 0 (leBytes 4 v))) ∧
       (src ≠ u.mgmt.busOwner → exec (.heartbeat src v) s = .next (u.pldm 0 (leBytes 4 v)))) ∧
     (∀ v, (v ≤ 4000 → exec (.rcap v) s = .next ((u.fset PWR_RACK.RCAP 0 v).recap.pldm 0 [])) ∧
       (4000 < v → exec (.rcap v) s = .next (u.pldm 2 []))) ∧
     (∀ v, (v < 16 → u.ownerMay .mc v = true → exec (.owner v) s = .next ((u.putRW .GCTL_OWNER 0 v).pldm 0 [])) ∧
       (v < 16 → u.ownerMay .mc v = false → exec (.owner v) s = .next ((u.fset GCTL_OWNER.REJ_MC 0 1).pldm 0x80 []))) ∧
     (∀ cool, (s.fget PWR_PSTATE.STATE 0 ≠ 4 → s.pwr.trip = 0 ∨ (s.pwr.trip = 1 ∧ cool = true) →
       exec (.warmReset 1 cool) s = .next (u.tripRails.warmReset.pldm 0 [])) ∧
       (s.pwr.trip = 1 → cool = false → exec (.warmReset 1 cool) s = .next (u.pldm 4 [])) ∧
       (∀ v, v ≠ 1 → exec (.warmReset v cool) s = .next (u.pldm 2 []))) ∧
     (s.fget PWR_PSTATE.STATE 0 = 4 → exec (.ps4Exit 1) s = .next (u.leavePs4.pldm 0 [])) ∧
     (s.fget PWR_PSTATE.STATE 0 ≠ 4 → exec (.ps4Exit 1) s = .next (u.pldm 4 [])) ∧
     (∀ t, t < 2 ^ 64 → exec (.fwTact t) s = .next (({ u with mgmt := { u.mgmt with tact := t } } : State).pldm 0 [])) ∧
     (∀ p v, p < 22 → v ≤ 1 →
       (let m := u.fget GCTL_MGMT.SERVE 0
        let m' := if m.testBit p = decide (v = 1) then m else if v = 1 then m + 2 ^ p else m - 2 ^ p
        exec (.portMgmt p v) s = .next (((u.fset GCTL_MGMT.SERVE 0 m').holdPort p).pldm 0 []))) ∧
     (u.fget SEC_FWU_STAT.STATE 0 = 0 → ∀ off b,
       (off = 0 → b.length ≤ 4194304 → exec (.requestFirmwareData off b false) s = .next
         (({ u with mgmt := { u.mgmt with fwBuf := b } } : State).pldm 0 [])) ∧
       (off = u.mgmt.fwBuf.length → 0 < off → off + b.length ≤ 4194304 → exec (.requestFirmwareData off b false) s = .next
         (({ u with mgmt := { u.mgmt with fwBuf := u.mgmt.fwBuf ++ b } } : State).pldm 0 [])) ∧
       (off = 0 → b.length ≤ 4194304 → u.refuseBits = 0 → exec (.requestFirmwareData off b true) s = .next
         ((({ u with mgmt := { u.mgmt with fwBuf := [] } } : State).fwuStage 2 b).pldm 0 []))) ∧
     (u.fget SEC_FWU_STAT.STATE 0 = 2 → u.fw.path = 2 → exec .verifyComplete s = .next (u.pldm 0 [])) ∧
     (u.fget SEC_FWU_STAT.STATE 0 = 1 → exec .verifyComplete s = .next u) ∧
     (u.fget SEC_FWU_STAT.STATE 0 = 2 → u.fw.path = 2 → u.refuseBits = 0 → u.fon TIME_STATUS.UNSYNC 0 = false →
       exec .activateFirmware s = .next
         ((u.fwuActivate 2 (if u.mgmt.tact = 0 then u.count + 1000000 else u.mgmt.tact)).pldm 0 [])))) ∧
  (∀ (s : State) (p : Nat), p < 22 → s.i3cUp = true → s.disagrees p = true → tget s.mgmt.disT p 0 ≠ 0 →
    tget s.mgmt.disT p 0 + 1000000000 ≤ s.time.now → (s.fget GCTL_MGMT.DISAGREE 0).testBit p = false →
    exec (.pathDisagree p) s = .next ((s.fset GCTL_MGMT.DISAGREE 0 (s.fget GCTL_MGMT.DISAGREE 0 + 2 ^ p)).log
      { code := 0x0212, unit := p }))

/-- REGISTER_WRITE at offsets of BAR0 and BAR2: width and alignment, doorbells, windows, a register with a range rule, registers without
a rule of their own, an MSI-X entry, and each access rule on its own register (R15, R84, R85, R326, R328, R329, R336, R356, R401, R726,
R873). -/
def Obligations.RegisterWrites : Prop :=
  (∀ (s : State) (w : Who) (off n v : Nat), (w ≠ .ns ∨ offWorld off = false →
      (n ≠ 4 → n ≠ 8 → exec (.registerWrite w false off n v) s = .next s) ∧
      (n = 4 ∨ n = 8 → off % n ≠ 0 → exec (.registerWrite w false off n v) s = .next s)) ∧
    (s.reaches .ns = true → offWorld off = true → exec (.registerWrite .ns false off n v) s = .next (s.logC 0x0503)) ∧
    (w ≠ .mc → s.reaches w = false → ∀ b, exec (.registerWrite w b 0x400010 8 v) s = .next s)) ∧
  (∀ (s : State) (w : Who) (ring v : Nat), v < 2 ^ 64 → ring < 8192 →
    exec (.registerWrite w false (0x2000000 + 4096 * ring) 8 v) s = exec (.commandDoorbell w ring v) s ∧
    exec (.registerWrite w false (0x2000000 + 4096 * ring + 8) 8 v) s = exec (.completionDoorbell w ring v) s ∧
    exec (.registerWrite w false (0x2000000 + 4096 * ring) 4 v) s = .next s) ∧
  (∀ (s : State) (v : Nat), v < 2 ^ 64 → s.reaches .s = true → s.isStatus .FAB_XPORT 0 v = false →
    (xportBad v = false → exec (.registerWrite .s false 0x400010 8 v) s = .next ((s.clrW1C .FAB_XPORT 0 v).putRW .FAB_XPORT 0 v)) ∧
    (xportBad v = true → exec (.registerWrite .s false 0x400010 8 v) s = .next (s.fset FAB_XPORT.REJ 0 1))) ∧
  (∀ (s : State) (v : Nat), v < 2 ^ 64 → s.reaches .s = true → s.isStatus .FAB_XPORT 0 v = true →
    exec (.registerWrite .s false 0x400010 8 v) s = .next (s.clrW1C .FAB_XPORT 0 v)) ∧
  (∀ (s : State) (v : Nat), v < 2 ^ 64 → s.reaches .ns = true →
    exec (.registerWrite .ns false 0x400010 8 v) s = .next ((s.fset FAB_XPORT.REJ 0 1).logC 0x0504) ∧
    exec (.registerWrite .ns false 0xE00040 8 v) s = .next (s.logC 0x0503)) ∧
  (∀ (s : State) (v : Nat), v < 2 ^ 64 → s.reaches .s = true → s.isStatus .SPARE_WEAR_CTL 0 v = false →
    (s.fget GCTL_OWNER.SPARE 0 = 0 → exec (.registerWrite .s false 0x1200018 8 v) s = .next (s.putRW .SPARE_WEAR_CTL 0 v)) ∧
    (s.fget GCTL_OWNER.SPARE 0 = 1 → exec (.registerWrite .s false 0x1200018 8 v) s =
      .next ((s.fset GCTL_OWNER.REJ_HOST 0 1).logC 0x0701))) ∧
  (∀ (s : State) (v : Nat), v < 2 ^ 64 → s.pwr.on = true → s.fget GCTL_OWNER.SPARE 0 = 0 →
    exec (.registerWrite .mc false 0x1200018 8 v) s = .next ((s.fset GCTL_OWNER.REJ_MC 0 1).emit (.reply [0x80])) ∧
    exec (.registerWrite .mc false 0x400010 8 v) s = .next s) ∧
  (∀ (s : State) (off v : Nat), v < 2 ^ 64 → off % 8 = 0 → off < 0x8000 → s.reaches .s = true → s.fon SEC_CMD.BUSY 0 = false →
    exec (.registerWrite .s false (0xE10000 + off) 8 v) s =
      .next { s with sec := { s.sec with token := cellsWrite s.sec.token off (leBytes 8 v) } }) ∧
  (∀ (s : State) (w : Who) (k v : Nat), k < 2048 → v < 2 ^ 32 → w = .ns ∨ w = .s → s.reaches w = true →
    (v % 2 = 1 → exec (.registerWrite w true (16 * k + 12) 4 v) s =
      .next { s with cfe := { s.cfe with masked := tset s.cfe.masked k 1 1 } }) ∧
    (v % 2 = 0 → tget s.cfe.msiPend k 0 = 0 → exec (.registerWrite w true (16 * k + 12) 4 v) s =
      .next { s with cfe := { s.cfe with masked := tset s.cfe.masked k 0 1 } }) ∧
    (v % 2 = 0 → tget s.cfe.msiPend k 0 = 1 → exec (.registerWrite w true (16 * k + 12) 4 v) s =
      .next ({ s with cfe := { s.cfe with masked := tset s.cfe.masked k 0 1, msiPend := tset s.cfe.msiPend k 0 0 } }.emit (.msix k))))

/-- A register write that an access rule bars changes no register but the `REJ` bits and the error log, and nothing of memory, cores or
fabric; one that none bars is a status write, is rejected, or takes effect, in that order (R84, R85, R328, R726, R873). -/
def Obligations.AccessRules : Prop :=
  (∀ (s : State) (w : Who) (r : Reg) (i v : Nat) (reject : State → Bool) (onRej eff : State → State), i < 65536 →
    (s.barred w r i v ≠ .none → (let t := s.regWriteOr w r i v reject onRej eff
      s.sameRegsBut t [.GCTL_OWNER, .ELOG, .SPARE_ELOG_PTR, r, .MEM_RGN_STATUS, .CFE_RING_CMD, .CTX_CFG, .GCTL_BOOT_STAT, .SEC_FWU_STAT] ∧
      (∀ f ∈ r.fields, ∀ j, j < 65536 → r ≠ .ELOG → r ≠ .SPARE_ELOG_PTR → r ≠ .GCTL_OWNER → some f ≠ r.rejFld → t.fget f j = s.fget f j) ∧
      t.mem = s.mem ∧ t.core = s.core ∧ t.fab = s.fab ∧ t.sec = s.sec ∧ t.pending = s.pending)) ∧
    (s.barred w r i v = .none → s.isStatus r i v = true → s.regWriteOr w r i v reject onRej eff = s.clrW1C r i v) ∧
    (s.barred w r i v = .none → s.isStatus r i v = false → reject s = true →
      s.regWriteOr w r i v reject onRej eff = onRej (s.setRej r i)) ∧
    (s.barred w r i v = .none → s.isStatus r i v = false → reject s = false →
      s.regWriteOr w r i v reject onRej eff = eff (s.clrW1C r i v))) ∧
  (∀ (s : State) (w : Who) (r : Reg) (i v : Nat), r.pos.blk = .sec → w = .ns → s.barred w r i v = .world) ∧
  (∀ (s : State) (r : Reg) (i v : Nat), r.pos.blk = .pwr →
    (s.fget GCTL_OWNER.PWR 0 = 1 → s.barred .s r i v = .owner ∧ s.barred .mc r i v = .none) ∧
    (s.fget GCTL_OWNER.PWR 0 = 0 → s.barred .s r i v = .none ∧ s.barred .mc r i v = .owner)) ∧
  (∀ (s : State) (i v : Nat), (s.barred .ns .CTX_CTL i v = .none ↔ s.nsHeld SEC_PART.CTXM i = true) ∧
    (s.barred .ns .CTX_CFG i v = .none ↔ s.nsHeld SEC_PART.CTXM i = true ∧ CTX_CFG.WORLD.val v = 0) ∧
    (s.barred .ns .FAB_XPORT i v = .part) ∧ (s.barred .s .CTX_CFG i v = .none)) ∧
  (∀ (s : State) (r : Reg) (i v : Nat),
    (fwMay r = true → s.barred .fw r i v = .none) ∧ (fwMay r = false → s.barred .fw r i v = .filter) ∧
    s.bar .fw r i .filter = s.logC 0x050D) ∧
  (∀ (s : State) (off n : Nat), s.reaches .ns = true → offWorld off = true → s.barRead .ns off n = (0, s.logC 0x0503))

/-- After a warm reset every register field has the value of its Warm reset column, or, where that says unchanged, the value it had. -/
def Obligations.WarmResetColumn : Prop :=
  ∀ (s : State) (r : Reg) (f : Fld) (i : Nat), f ∈ r.fields → i < r.pos.count →
    s.warmRegs.fget f i = (match f.warm with | .keep => s.fget f i | .val v => v)

/-- A step runs the command at the front of the queue on the rest, first in first out; on an empty queue a nanosecond passes, which is the
model's choice (log 5). No word spells a command. -/
def Obligations.StepRunsFront : Prop :=
  (∀ (s : State) (c : Instr) (q : List Instr), s.pending = c :: q → step s = exec c { s with pending := q }) ∧
  (∀ (s : State), s.pending = [] → step s = .next s.tick) ∧
  (∀ (s : State),
    (s.pwr.on = false → s.tick = { s with time := { s.time with now := s.time.now + 1 } }) ∧
    (s.pwr.on = true →
      (s.slewDue = false ∨ s.time.slew = 0 ∨ (s.time.slew < 0 ∧ s.time.extra = true) →
        s.tick = ({ s with time := { s.time with now := s.time.now + 1, extra := false } } : State).countOn 1) ∧
      (s.slewDue = true → s.time.slew < 0 → s.time.extra = false →
        s.tick = ({ s with time := { s.time with slew := s.time.slew + 1, extra := true } } : State).countOn 1) ∧
      (s.slewDue = true → 0 < s.time.slew →
        s.tick = { s with time := { s.time with now := s.time.now + 1, slew := s.time.slew - 1, extra := false } }))) ∧
  (∀ (s : State) (n : Nat), (s.countOn n).count = (s.count + n) % 2 ^ 64 ∧
    (s.countOn n).time.run = (if s.hubUp && !s.frozen then s.time.run + n else s.time.run) ∧ (s.countOn n).mem = s.mem) ∧
  (∀ (s : State) (nbits w : Nat), decodeTableWord nbits w = none ∧ s.withFetchWord nbits w = s)

/-- Every command whose operands name units the module has is taken, in every state: none is refused. Any other is a fault. -/
def Obligations.EveryCommandIsTaken : Prop :=
  ∀ (c : Instr) (s : State), (c.wf = true → ∃ t, exec c s = .next t) ∧ (c.wf = false → exec c s = .fault .noSuchUnit)

/-- At reset no rail is on, every register field has its Power-up value, every memory reads 0 and nothing waits; what every step keeps
holds. That an unlisted byte reads 0 is the model's choice (log 12). -/
def Obligations.ResetState : Prop :=
  State.reset.Inv 0 (fun _ => 0) ∧ State.reset.pwr.on = false ∧ State.reset.pending = [] ∧ State.reset.out = [] ∧
  (∀ (f : Fld) (i : Nat), State.reset.fget f i = f.up) ∧ (∀ a n, cellsRead State.reset.mem.bytes a n = zeros n) ∧
  State.reset.reaches .s = false ∧ State.reset.fuse.epochs = 0 ∧ State.reset.count = 0

/-- Every step, whatever its command, keeps every memory in its canonical form, and no step takes back a burned boot epoch or security
version fuse or burns more than there are (R755, R778, R779). -/
def Obligations.EveryStepKeeps : Prop :=
  ∀ (n : Nat) (v : Nat → Nat) (s t : State), s.Inv n v → step s = .next t → t.Inv n v
end

