-- ==== Sys2Proof/Laws/Fabric.lean ====
section
/-! SUPPORT. What the arrival of a packet that carries a whole message of its own comes to (R411 to R413). -/
set_option autoImplicit false
namespace Sys2Proof.Machine

/-- Such a packet reaches its handler. -/
theorem State.Takes.arrive {s : State} {p : Pkt} {t : DStream} (h : s.Takes p t) (k : DStream → State → State) :
    s.arrive p k = k t s := by
  have hm : ¬ (s.depOf p ≠ 0 ∧ (s.fget SPARE_PAIR_STATE.ROLE 0 = 4 ∨ s.scrubbingEp (s.depOf p) = true)) := by
    rintro ⟨a, b⟩
    rcases h.meant with c | ⟨c, d⟩
    · exact a c
    · rcases b with b | b
      · exact c b
      · rw [d] at b; cases b
  simp only [State.arrive, h.hub, h.en, h.sound, if_neg hm, h.entry, h.fresh, h.code]
  simp

/-- No open message has the packet's key. -/
theorem State.Takes.noMsg {s : State} {p : Pkt} {t : DStream} (h : s.Takes p t) :
    s.fab.msgs.find? (·.isOf t (PH.MSGID.of p.hdr) (isResp p)) = none := by
  rw [List.find?_eq_none]
  intro m hm
  simp [h.first m hm]

/-- The message that such a packet opens. -/
def pktOpens (p : Pkt) (t : DStream) : Msg :=
  ⟨t.smod, t.sep, t.dep, PH.MSGID.of p.hdr, isResp p, PH.MTLEN.of p.hdr, 0, false, [], p.hdr⟩

/-- A record of the packet's message is the record of no open one. -/
theorem State.Takes.notSame {s : State} {p : Pkt} {t : DStream} (h : s.Takes p t) {m : Msg}
    (hm : m.isOf t (PH.MSGID.of p.hdr) (isResp p) = true) :
    ∀ n ∈ s.fab.msgs, n.same m = false := by
  intro n hn
  have a := h.first n hn
  simp only [Msg.isOf, Bool.and_eq_true, decide_eq_true_eq] at hm
  obtain ⟨⟨⟨⟨h1, h2⟩, h3⟩, h4⟩, h5⟩ := hm
  simpa [Msg.same, Msg.isOf, h1, h2, h3, h4, h5] using a

/-- A message kept whole closes complete: its endpoint counts it, the packet is acknowledged, and the handler runs on its bytes. -/
theorem State.Takes.arriveMsg {s : State} {p : Pkt} {t : DStream} (h : s.Takes p t) (k : DStream → List Byte → State → State) :
    s.arriveMsg p k = k t (pktKept p) (s.settled p t) := by
  have hd : PH.MTLEN.of p.hdr = p.pay.length := h.whole
  have hi : ({ pktOpens p t with data := [(PH.RADDR.of p.hdr, p.pay)] } : Msg).isOf t (PH.MSGID.of p.hdr) (isResp p) = true := by
    simp [Msg.isOf, pktOpens]
  have hf : s.fab.msgs.any (fun n => n.same { pktOpens p t with data := [(PH.RADDR.of p.hdr, p.pay)] }) = false := by
    rw [List.any_eq_false]
    intro n hn
    simp [h.notSame hi n hn]
  have hk : keepPay p (pktOpens p t) s = ⟨0, [], { s with fab := { s.fab with
      msgs := s.fab.msgs ++ [{ pktOpens p t with data := [(PH.RADDR.of p.hdr, p.pay)] }] } }⟩ := by
    have : (pktOpens p t).data ++ [(PH.RADDR.of p.hdr, p.pay)] = [(PH.RADDR.of p.hdr, p.pay)] := rfl
    simp only [keepPay, this, State.setMsg, hf]
    rfl
  have hfil : s.fab.msgs.filter (fun n => !n.same ⟨t.smod, t.sep, t.dep, PH.MSGID.of p.hdr, isResp p, p.pay.length,
      p.pay.length, false, [(PH.RADDR.of p.hdr, p.pay)], p.hdr⟩) = s.fab.msgs := by
    rw [List.filter_eq_self]
    intro n hn
    exact congrArg Bool.not (h.notSame hi n hn)
  unfold State.arriveMsg
  rw [h.arrive]
  have hm : s.msgOf p t = pktOpens p t := by
    unfold State.msgOf
    rw [h.noMsg]
    rfl
  have hr : ¬ (16384 ≤ s.fab.msgs.length) := Nat.not_le.mpr h.room
  unfold State.withMsg
  simp only [h.live, h.noMsg, hm, hk, h.real]
  rw [if_neg (by simp), if_neg (by simp [hr]), if_neg (by simp [pktOpens]), if_neg (by simp)]
  rw [List.find?_append, h.noMsg]
  simp only [List.find?_cons, hi, Option.none_or, Option.getD_some]
  simp only [State.account, pktOpens, hd, Nat.zero_add, Nat.lt_irrefl, if_false, if_true, decide_true, Bool.not_true, Bool.or_false]
  simp only [State.settle, DStream.bury, State.closeMsg, State.dropMsg, List.filter_append]
  rw [hfil]
  simp [Msg.same, State.settled, Msg.payload, pktKept]

/-- A message whose one packet its handler takes closes complete: its endpoint counts it, the packet is acknowledged, and `after`
runs. -/
theorem State.Takes.withMsg {s : State} {p : Pkt} {t : DStream} (h : s.Takes p t) (k : Msg → State → MemRes)
    (after : Msg → State → State) (hc : (k (pktOpens p t) s).code = 0)
    (hg : (k (pktOpens p t) s).st.fab.msgs = s.fab.msgs) :
    s.withMsg p t false k after = after { pktOpens p t with acc := p.pay.length } ((k (pktOpens p t) s).st.settled p t) := by
  have hd : PH.MTLEN.of p.hdr = p.pay.length := h.whole
  have hi : (pktOpens p t).isOf t (PH.MSGID.of p.hdr) (isResp p) = true := by
    simp [Msg.isOf, pktOpens]
  have hm : s.msgOf p t = pktOpens p t := by
    unfold State.msgOf
    rw [h.noMsg]
    rfl
  have hr : ¬ (16384 ≤ s.fab.msgs.length) := Nat.not_le.mpr h.room
  unfold State.withMsg
  simp only [h.live, h.noMsg, hm, h.real]
  rw [if_neg (by simp), if_neg (by simp [hr]), if_neg (by simp [pktOpens]), if_neg (by simp)]
  generalize k (pktOpens p t) s = r at hc hg
  have hfi : r.st.fab.msgs.find? (·.isOf t (PH.MSGID.of p.hdr) (isResp p)) = Option.none := by rw [hg]; exact h.noMsg
  have hfil : r.st.fab.msgs.filter (fun n => !n.same { pktOpens p t with acc := p.pay.length, failed := false }) = r.st.fab.msgs := by
    rw [List.filter_eq_self, hg]
    intro n hn
    exact congrArg Bool.not (h.notSame hi n hn)
  have ha : r.st.account p (pktOpens p t) p.pay.length true =
      ⟨r.st.closeMsg { pktOpens p t with acc := p.pay.length, failed := false },
        some { pktOpens p t with acc := p.pay.length, failed := false }⟩ := by
    unfold State.account
    simp only [pktOpens, hd, Nat.zero_add, Nat.lt_irrefl, if_false, if_true, Bool.not_true, Bool.or_false]
  rw [hfi, hc, Option.getD_none, decide_eq_true rfl, ha]
  have hdrop : r.st.dropMsg { pktOpens p t with acc := p.pay.length, failed := false } = r.st := by
    unfold State.dropMsg
    rw [hfil]
  simp only [State.settle, DStream.bury, State.closeMsg]
  rw [hdrop]
  rfl

end Sys2Proof.Machine
end

