-- ==== Sys2Proof/Laws/Fire.lean ====
section
/-! SUPPORT. What the firing of a descriptor comes to (R172 to R187). -/
set_option autoImplicit false
namespace Sys2Proof.Machine

/-- A descriptor that fires has what every firing does, then its own effect, and then every engine attends to its lists. -/
theorem State.Fires.fire {s : State} {lcore ring seq op : Nat} {f : FireIn} {r : Rsd} {d : Nat} (h : s.Fires lcore ring seq op f r d)
    (k : Effect) : s.fire lcore ring seq op f k = ((k (r.fired d) d (s.fireCommon r d f.twait)).keepUndo s r d).engines := by
  have hf : s.mayFire r = true := h.may
  simp only [State.fire, State.fireIf, h.found, hf, h.clean.1, State.markBad, List.foldl_nil, h.next, State.fireNext, h.op, h.turn, h.real]
  simp

end Sys2Proof.Machine
end

