-- ==== Sys2Proof/Laws/Memory.lean ====
section
/-! SUPPORT. A memory's canonical form, and what a range holds after it is written or cleared. -/
set_option autoImplicit false
namespace Sys2Proof.Machine

/-- The canonical form, said of all cells at once. -/
theorem Memory.wf_iff (m : List Host.Cell) :
    Memory.wf m = true ↔ m.Pairwise (fun c d => c.1 < d.1) ∧ ∀ c ∈ m, c.2 ≠ 0 := by
  induction m with
  | nil => simp [Memory.wf]
  | cons c r ih =>
    cases r with
    | nil => simp [Memory.wf]
    | cons d r =>
      simp only [Memory.wf, Bool.and_eq_true, decide_eq_true_eq, ih]
      constructor
      · rintro ⟨⟨h0, h1⟩, hp, hz⟩
        refine ⟨List.pairwise_cons.mpr ⟨?_, hp⟩, ?_⟩
        · intro e he
          rcases List.mem_cons.mp he with rfl | he
          · exact h1
          · exact Nat.lt_trans h1 ((List.pairwise_cons.mp hp).1 e he)
        · intro e he
          rcases List.mem_cons.mp he with rfl | he
          · exact h0
          · exact hz e he
      · rintro ⟨hp, hz⟩
        have h := List.pairwise_cons.mp hp
        exact ⟨⟨hz c (by simp), h.1 d (by simp)⟩, h.2, fun e he => hz e (by simp [he])⟩

theorem Memory.wf_filter {m : List Host.Cell} (p : Host.Cell → Bool) (h : Memory.wf m = true) : Memory.wf (m.filter p) = true := by
  rw [Memory.wf_iff] at *
  exact ⟨h.1.filter p, fun c hc => h.2 c (List.mem_filter.mp hc).1⟩

/-- The cells of a run of bytes lie in its range, rise, and list no 0. -/
theorem cellsOf_spec (a : Nat) (l : List Byte) :
    (cellsOf a l).Pairwise (fun c d => c.1 < d.1) ∧ (∀ c ∈ cellsOf a l, c.2 ≠ 0) ∧ ∀ c ∈ cellsOf a l, a ≤ c.1 ∧ c.1 < a + l.length := by
  induction l generalizing a with
  | nil => simp [cellsOf]
  | cons b r ih =>
    obtain ⟨hp, hz, hb⟩ := ih (a + 1)
    have hb' : ∀ c ∈ cellsOf (a + 1) r, a ≤ c.1 ∧ c.1 < a + (b :: r).length := fun c hc => by
      have := hb c hc
      simp only [List.length_cons]
      omega
    unfold cellsOf
    split
    · exact ⟨hp, hz, hb'⟩
    · rename_i h
      refine ⟨List.pairwise_cons.mpr ⟨fun c hc => by have := hb c hc; omega, hp⟩, ?_, ?_⟩
      · intro c hc
        rcases List.mem_cons.mp hc with rfl | hc
        · exact h
        · exact hz c hc
      · intro c hc
        rcases List.mem_cons.mp hc with rfl | hc
        · simp
        · exact hb' c hc

/-- A write keeps the canonical form. -/
theorem cellsWrite_wf {m : List Host.Cell} (a : Nat) (l : List Byte) (h : Memory.wf m = true) : Memory.wf (cellsWrite m a l) = true := by
  rw [Memory.wf_iff] at *
  obtain ⟨hp, hz, hb⟩ := cellsOf_spec a l
  unfold cellsWrite
  refine ⟨List.pairwise_append.mpr ⟨List.pairwise_append.mpr ⟨h.1.filter _, hp, ?_⟩, h.1.filter _, ?_⟩, ?_⟩
  · intro c hc d hd
    have := (List.mem_filter.mp hc).2
    have := hb d hd
    simp at *
    omega
  · intro c hc d hd
    have hd' := (List.mem_filter.mp hd).2
    simp only [decide_eq_true_eq] at hd'
    rcases List.mem_append.mp hc with hc | hc
    · have := (List.mem_filter.mp hc).2
      simp only [decide_eq_true_eq] at this
      omega
    · have := hb c hc
      omega
  · intro c hc
    rcases List.mem_append.mp hc with hc | hc
    · rcases List.mem_append.mp hc with hc | hc
      · exact h.2 c (List.mem_filter.mp hc).1
      · exact hz c hc
    · exact h.2 c (List.mem_filter.mp hc).1

/-- Clearing a range keeps the canonical form. -/
theorem cellsClear_wf {m : List Host.Cell} (a n : Nat) (h : Memory.wf m = true) : Memory.wf (cellsClear m a n) = true :=
  Memory.wf_filter _ h

/-- Several ranges written keep the canonical form. -/
theorem cellsWrites_wf {α : Type} (f : α → Nat) (g : α → List Byte) (l : List α) {m : List Host.Cell} (h : Memory.wf m = true) :
    Memory.wf (l.foldl (fun m e => cellsWrite m (f e) (g e)) m) = true := by
  induction l generalizing m with
  | nil => exact h
  | cons e r ih => exact ih (cellsWrite_wf _ _ h)

theorem cellAt_append (m r : List Host.Cell) (x : Nat) (h : ∀ c ∈ m, c.1 ≠ x) : cellAt (m ++ r) x = cellAt r x := by
  induction m with
  | nil => rfl
  | cons c m ih =>
    have hc : c.1 ≠ x := h c (by simp)
    simp [cellAt, hc, ih fun d hd => h d (by simp [hd])]

theorem cellAt_append_left (m r : List Host.Cell) (x : Nat) (h : ∀ c ∈ r, c.1 ≠ x) : cellAt (m ++ r) x = cellAt m x := by
  induction m with
  | nil =>
    have := cellAt_append r [] x h
    simpa [cellAt] using this
  | cons c m ih =>
    simp only [List.cons_append, cellAt]
    split <;> simp_all

/-- Cells kept at an address read as before. -/
theorem cellAt_filter (m : List Host.Cell) (p : Host.Cell → Bool) (x : Nat) (h : ∀ c ∈ m, c.1 = x → p c = true) :
    cellAt (m.filter p) x = cellAt m x := by
  induction m with
  | nil => rfl
  | cons c m ih =>
    have ih := ih fun d hd => h d (by simp [hd])
    by_cases hc : c.1 = x
    · simp [cellAt, h c (by simp) hc, hc]
    · by_cases hp : p c = true <;> simp [cellAt, hp, hc, ih]

theorem cellAt_cellsOf (a : Nat) (l : List Byte) (i : Nat) (h : i < l.length) : cellAt (cellsOf a l) (a + i) = l[i] := by
  induction l generalizing a i with
  | nil => simp at h
  | cons b r ih =>
    cases i with
    | zero =>
      unfold cellsOf
      split
      · rename_i hb
        have := cellAt_append (cellsOf (a + 1) r) [] a fun c hc => by have := (cellsOf_spec (a + 1) r).2.2 c hc; omega
        simp only [List.append_nil] at this
        simp [this, cellAt, hb]
      · simp [cellAt]
    | succ i =>
      have h' : i < r.length := by simpa using h
      have e : a + (i + 1) = a + 1 + i := by omega
      unfold cellsOf
      split
      · simp only [List.getElem_cons_succ, e, ih (a + 1) i h']
      · have : a ≠ a + 1 + i := by omega
        simp only [cellAt, List.getElem_cons_succ, e, this, if_false, ih (a + 1) i h']

/-- A byte of a range just written reads as written. -/
theorem cellAt_cellsWrite_same (m : List Host.Cell) (a : Nat) (l : List Byte) (i : Nat) (h : i < l.length) :
    cellAt (cellsWrite m a l) (a + i) = l[i] := by
  unfold cellsWrite
  rw [cellAt_append_left, cellAt_append, cellAt_cellsOf a l i h]
  · intro c hc
    have := (List.mem_filter.mp hc).2
    simp at this
    omega
  · intro c hc
    have := (List.mem_filter.mp hc).2
    simp at this
    omega

/-- A byte outside the range written reads as before. -/
theorem cellAt_cellsWrite_ne (m : List Host.Cell) (a : Nat) (l : List Byte) (x : Nat) (h : x < a ∨ a + l.length ≤ x) :
    cellAt (cellsWrite m a l) x = cellAt m x := by
  unfold cellsWrite
  have hb := (cellsOf_spec a l).2.2
  rcases h with h | h
  · rw [cellAt_append_left, cellAt_append_left, cellAt_filter]
    · intro c _ hc; simp; omega
    · intro c hc; have := hb c hc; omega
    · intro c hc; have := (List.mem_filter.mp hc).2; simp at this; omega
  · rw [List.append_assoc, cellAt_append, cellAt_append, cellAt_filter]
    · intro c _ hc; simp; omega
    · intro c hc; have := hb c hc; omega
    · intro c hc; have := (List.mem_filter.mp hc).2; simp at this; omega

end Sys2Proof.Machine
end

