-- ==== Sys2Proof/Laws/State.lean ====
section
/-! SUPPORT. What each shared update of the state leaves as it was, one lemma per part of the state, so that no later proof unfolds a
record update. -/
set_option autoImplicit false
namespace Sys2Proof.Machine

/-! ## A register field set -/

@[simp] theorem State.fset_time (s : State) (f : Fld) (i v : Nat) : (s.fset f i v).time = s.time := rfl
@[simp] theorem State.fset_cfe (s : State) (f : Fld) (i v : Nat) : (s.fset f i v).cfe = s.cfe := rfl
@[simp] theorem State.fset_mem (s : State) (f : Fld) (i v : Nat) : (s.fset f i v).mem = s.mem := rfl
@[simp] theorem State.fset_core (s : State) (f : Fld) (i v : Nat) : (s.fset f i v).core = s.core := rfl
@[simp] theorem State.fset_fab (s : State) (f : Fld) (i v : Nat) : (s.fset f i v).fab = s.fab := rfl
@[simp] theorem State.fset_att (s : State) (f : Fld) (i v : Nat) : (s.fset f i v).att = s.att := rfl
@[simp] theorem State.fset_coll (s : State) (f : Fld) (i v : Nat) : (s.fset f i v).coll = s.coll := rfl
@[simp] theorem State.fset_spare (s : State) (f : Fld) (i v : Nat) : (s.fset f i v).spare = s.spare := rfl
@[simp] theorem State.fset_obs (s : State) (f : Fld) (i v : Nat) : (s.fset f i v).obs = s.obs := rfl
@[simp] theorem State.fset_boot (s : State) (f : Fld) (i v : Nat) : (s.fset f i v).boot = s.boot := rfl
@[simp] theorem State.fset_pwr (s : State) (f : Fld) (i v : Nat) : (s.fset f i v).pwr = s.pwr := rfl
@[simp] theorem State.fset_fuse (s : State) (f : Fld) (i v : Nat) : (s.fset f i v).fuse = s.fuse := rfl
@[simp] theorem State.fset_mgmt (s : State) (f : Fld) (i v : Nat) : (s.fset f i v).mgmt = s.mgmt := rfl
@[simp] theorem State.fset_lane (s : State) (f : Fld) (i v : Nat) : (s.fset f i v).lane = s.lane := rfl
@[simp] theorem State.fset_sec (s : State) (f : Fld) (i v : Nat) : (s.fset f i v).sec = s.sec := rfl
@[simp] theorem State.fset_fw (s : State) (f : Fld) (i v : Nat) : (s.fset f i v).fw = s.fw := rfl
@[simp] theorem State.fset_freeCtr (s : State) (f : Fld) (i v : Nat) : (s.fset f i v).freeCtr = s.freeCtr := rfl
@[simp] theorem State.fset_out (s : State) (f : Fld) (i v : Nat) : (s.fset f i v).out = s.out := rfl
@[simp] theorem State.fset_pending (s : State) (f : Fld) (i v : Nat) : (s.fset f i v).pending = s.pending := rfl

/-! ## A one-bit field set -/

@[simp] theorem State.fput_time (s : State) (f : Fld) (i : Nat) (b : Bool) : (s.fput f i b).time = s.time := rfl
@[simp] theorem State.fput_cfe (s : State) (f : Fld) (i : Nat) (b : Bool) : (s.fput f i b).cfe = s.cfe := rfl
@[simp] theorem State.fput_mem (s : State) (f : Fld) (i : Nat) (b : Bool) : (s.fput f i b).mem = s.mem := rfl
@[simp] theorem State.fput_core (s : State) (f : Fld) (i : Nat) (b : Bool) : (s.fput f i b).core = s.core := rfl
@[simp] theorem State.fput_fab (s : State) (f : Fld) (i : Nat) (b : Bool) : (s.fput f i b).fab = s.fab := rfl
@[simp] theorem State.fput_att (s : State) (f : Fld) (i : Nat) (b : Bool) : (s.fput f i b).att = s.att := rfl
@[simp] theorem State.fput_coll (s : State) (f : Fld) (i : Nat) (b : Bool) : (s.fput f i b).coll = s.coll := rfl
@[simp] theorem State.fput_spare (s : State) (f : Fld) (i : Nat) (b : Bool) : (s.fput f i b).spare = s.spare := rfl
@[simp] theorem State.fput_obs (s : State) (f : Fld) (i : Nat) (b : Bool) : (s.fput f i b).obs = s.obs := rfl
@[simp] theorem State.fput_boot (s : State) (f : Fld) (i : Nat) (b : Bool) : (s.fput f i b).boot = s.boot := rfl
@[simp] theorem State.fput_pwr (s : State) (f : Fld) (i : Nat) (b : Bool) : (s.fput f i b).pwr = s.pwr := rfl
@[simp] theorem State.fput_fuse (s : State) (f : Fld) (i : Nat) (b : Bool) : (s.fput f i b).fuse = s.fuse := rfl
@[simp] theorem State.fput_mgmt (s : State) (f : Fld) (i : Nat) (b : Bool) : (s.fput f i b).mgmt = s.mgmt := rfl
@[simp] theorem State.fput_lane (s : State) (f : Fld) (i : Nat) (b : Bool) : (s.fput f i b).lane = s.lane := rfl
@[simp] theorem State.fput_sec (s : State) (f : Fld) (i : Nat) (b : Bool) : (s.fput f i b).sec = s.sec := rfl
@[simp] theorem State.fput_fw (s : State) (f : Fld) (i : Nat) (b : Bool) : (s.fput f i b).fw = s.fw := rfl
@[simp] theorem State.fput_freeCtr (s : State) (f : Fld) (i : Nat) (b : Bool) : (s.fput f i b).freeCtr = s.freeCtr := rfl
@[simp] theorem State.fput_out (s : State) (f : Fld) (i : Nat) (b : Bool) : (s.fput f i b).out = s.out := rfl
@[simp] theorem State.fput_pending (s : State) (f : Fld) (i : Nat) (b : Bool) : (s.fput f i b).pending = s.pending := rfl

/-! ## A saturating count -/

@[simp] theorem State.fsat_time (s : State) (f : Fld) (i n : Nat) : (s.fsat f i n).time = s.time := rfl
@[simp] theorem State.fsat_cfe (s : State) (f : Fld) (i n : Nat) : (s.fsat f i n).cfe = s.cfe := rfl
@[simp] theorem State.fsat_mem (s : State) (f : Fld) (i n : Nat) : (s.fsat f i n).mem = s.mem := rfl
@[simp] theorem State.fsat_core (s : State) (f : Fld) (i n : Nat) : (s.fsat f i n).core = s.core := rfl
@[simp] theorem State.fsat_fab (s : State) (f : Fld) (i n : Nat) : (s.fsat f i n).fab = s.fab := rfl
@[simp] theorem State.fsat_att (s : State) (f : Fld) (i n : Nat) : (s.fsat f i n).att = s.att := rfl
@[simp] theorem State.fsat_coll (s : State) (f : Fld) (i n : Nat) : (s.fsat f i n).coll = s.coll := rfl
@[simp] theorem State.fsat_spare (s : State) (f : Fld) (i n : Nat) : (s.fsat f i n).spare = s.spare := rfl
@[simp] theorem State.fsat_obs (s : State) (f : Fld) (i n : Nat) : (s.fsat f i n).obs = s.obs := rfl
@[simp] theorem State.fsat_boot (s : State) (f : Fld) (i n : Nat) : (s.fsat f i n).boot = s.boot := rfl
@[simp] theorem State.fsat_pwr (s : State) (f : Fld) (i n : Nat) : (s.fsat f i n).pwr = s.pwr := rfl
@[simp] theorem State.fsat_fuse (s : State) (f : Fld) (i n : Nat) : (s.fsat f i n).fuse = s.fuse := rfl
@[simp] theorem State.fsat_mgmt (s : State) (f : Fld) (i n : Nat) : (s.fsat f i n).mgmt = s.mgmt := rfl
@[simp] theorem State.fsat_lane (s : State) (f : Fld) (i n : Nat) : (s.fsat f i n).lane = s.lane := rfl
@[simp] theorem State.fsat_sec (s : State) (f : Fld) (i n : Nat) : (s.fsat f i n).sec = s.sec := rfl
@[simp] theorem State.fsat_fw (s : State) (f : Fld) (i n : Nat) : (s.fsat f i n).fw = s.fw := rfl
@[simp] theorem State.fsat_freeCtr (s : State) (f : Fld) (i n : Nat) : (s.fsat f i n).freeCtr = s.freeCtr := rfl
@[simp] theorem State.fsat_out (s : State) (f : Fld) (i n : Nat) : (s.fsat f i n).out = s.out := rfl
@[simp] theorem State.fsat_pending (s : State) (f : Fld) (i n : Nat) : (s.fsat f i n).pending = s.pending := rfl

/-! ## An output -/

@[simp] theorem State.emit_regs (s : State) (x : Out) : (s.emit x).regs = s.regs := rfl
@[simp] theorem State.emit_time (s : State) (x : Out) : (s.emit x).time = s.time := rfl
@[simp] theorem State.emit_cfe (s : State) (x : Out) : (s.emit x).cfe = s.cfe := rfl
@[simp] theorem State.emit_mem (s : State) (x : Out) : (s.emit x).mem = s.mem := rfl
@[simp] theorem State.emit_core (s : State) (x : Out) : (s.emit x).core = s.core := rfl
@[simp] theorem State.emit_fab (s : State) (x : Out) : (s.emit x).fab = s.fab := rfl
@[simp] theorem State.emit_att (s : State) (x : Out) : (s.emit x).att = s.att := rfl
@[simp] theorem State.emit_coll (s : State) (x : Out) : (s.emit x).coll = s.coll := rfl
@[simp] theorem State.emit_spare (s : State) (x : Out) : (s.emit x).spare = s.spare := rfl
@[simp] theorem State.emit_obs (s : State) (x : Out) : (s.emit x).obs = s.obs := rfl
@[simp] theorem State.emit_boot (s : State) (x : Out) : (s.emit x).boot = s.boot := rfl
@[simp] theorem State.emit_pwr (s : State) (x : Out) : (s.emit x).pwr = s.pwr := rfl
@[simp] theorem State.emit_fuse (s : State) (x : Out) : (s.emit x).fuse = s.fuse := rfl
@[simp] theorem State.emit_mgmt (s : State) (x : Out) : (s.emit x).mgmt = s.mgmt := rfl
@[simp] theorem State.emit_lane (s : State) (x : Out) : (s.emit x).lane = s.lane := rfl
@[simp] theorem State.emit_sec (s : State) (x : Out) : (s.emit x).sec = s.sec := rfl
@[simp] theorem State.emit_fw (s : State) (x : Out) : (s.emit x).fw = s.fw := rfl
@[simp] theorem State.emit_freeCtr (s : State) (x : Out) : (s.emit x).freeCtr = s.freeCtr := rfl
@[simp] theorem State.emit_pending (s : State) (x : Out) : (s.emit x).pending = s.pending := rfl

@[simp] theorem State.emit_out (s : State) (x : Out) : (s.emit x).out = s.out ++ [x] := rfl

/-! ## An effect at the boundary -/

@[simp] theorem State.note_regs (s : State) (k v : Nat) : (s.note k v).regs = s.regs := rfl
@[simp] theorem State.note_time (s : State) (k v : Nat) : (s.note k v).time = s.time := rfl
@[simp] theorem State.note_cfe (s : State) (k v : Nat) : (s.note k v).cfe = s.cfe := rfl
@[simp] theorem State.note_mem (s : State) (k v : Nat) : (s.note k v).mem = s.mem := rfl
@[simp] theorem State.note_core (s : State) (k v : Nat) : (s.note k v).core = s.core := rfl
@[simp] theorem State.note_fab (s : State) (k v : Nat) : (s.note k v).fab = s.fab := rfl
@[simp] theorem State.note_att (s : State) (k v : Nat) : (s.note k v).att = s.att := rfl
@[simp] theorem State.note_coll (s : State) (k v : Nat) : (s.note k v).coll = s.coll := rfl
@[simp] theorem State.note_spare (s : State) (k v : Nat) : (s.note k v).spare = s.spare := rfl
@[simp] theorem State.note_obs (s : State) (k v : Nat) : (s.note k v).obs = s.obs := rfl
@[simp] theorem State.note_boot (s : State) (k v : Nat) : (s.note k v).boot = s.boot := rfl
@[simp] theorem State.note_pwr (s : State) (k v : Nat) : (s.note k v).pwr = s.pwr := rfl
@[simp] theorem State.note_fuse (s : State) (k v : Nat) : (s.note k v).fuse = s.fuse := rfl
@[simp] theorem State.note_mgmt (s : State) (k v : Nat) : (s.note k v).mgmt = s.mgmt := rfl
@[simp] theorem State.note_lane (s : State) (k v : Nat) : (s.note k v).lane = s.lane := rfl
@[simp] theorem State.note_sec (s : State) (k v : Nat) : (s.note k v).sec = s.sec := rfl
@[simp] theorem State.note_fw (s : State) (k v : Nat) : (s.note k v).fw = s.fw := rfl
@[simp] theorem State.note_freeCtr (s : State) (k v : Nat) : (s.note k v).freeCtr = s.freeCtr := rfl
@[simp] theorem State.note_pending (s : State) (k v : Nat) : (s.note k v).pending = s.pending := rfl

/-! ## A free value drawn -/

@[simp] theorem State.drew_regs (s : State) : (s.drew).regs = s.regs := rfl
@[simp] theorem State.drew_time (s : State) : (s.drew).time = s.time := rfl
@[simp] theorem State.drew_cfe (s : State) : (s.drew).cfe = s.cfe := rfl
@[simp] theorem State.drew_mem (s : State) : (s.drew).mem = s.mem := rfl
@[simp] theorem State.drew_core (s : State) : (s.drew).core = s.core := rfl
@[simp] theorem State.drew_fab (s : State) : (s.drew).fab = s.fab := rfl
@[simp] theorem State.drew_att (s : State) : (s.drew).att = s.att := rfl
@[simp] theorem State.drew_coll (s : State) : (s.drew).coll = s.coll := rfl
@[simp] theorem State.drew_spare (s : State) : (s.drew).spare = s.spare := rfl
@[simp] theorem State.drew_obs (s : State) : (s.drew).obs = s.obs := rfl
@[simp] theorem State.drew_boot (s : State) : (s.drew).boot = s.boot := rfl
@[simp] theorem State.drew_pwr (s : State) : (s.drew).pwr = s.pwr := rfl
@[simp] theorem State.drew_fuse (s : State) : (s.drew).fuse = s.fuse := rfl
@[simp] theorem State.drew_mgmt (s : State) : (s.drew).mgmt = s.mgmt := rfl
@[simp] theorem State.drew_lane (s : State) : (s.drew).lane = s.lane := rfl
@[simp] theorem State.drew_sec (s : State) : (s.drew).sec = s.sec := rfl
@[simp] theorem State.drew_fw (s : State) : (s.drew).fw = s.fw := rfl
@[simp] theorem State.drew_out (s : State) : (s.drew).out = s.out := rfl
@[simp] theorem State.drew_pending (s : State) : (s.drew).pending = s.pending := rfl

@[simp] theorem State.drew_freeCtr (s : State) : s.drew.freeCtr = s.freeCtr + 1 := rfl

/-! ## The timebase enters a state -/

@[simp] theorem State.setSync_time (s : State) (st : Nat) : (s.setSync st).time = s.time := rfl
@[simp] theorem State.setSync_cfe (s : State) (st : Nat) : (s.setSync st).cfe = s.cfe := rfl
@[simp] theorem State.setSync_mem (s : State) (st : Nat) : (s.setSync st).mem = s.mem := rfl
@[simp] theorem State.setSync_core (s : State) (st : Nat) : (s.setSync st).core = s.core := rfl
@[simp] theorem State.setSync_fab (s : State) (st : Nat) : (s.setSync st).fab = s.fab := rfl
@[simp] theorem State.setSync_att (s : State) (st : Nat) : (s.setSync st).att = s.att := rfl
@[simp] theorem State.setSync_coll (s : State) (st : Nat) : (s.setSync st).coll = s.coll := rfl
@[simp] theorem State.setSync_spare (s : State) (st : Nat) : (s.setSync st).spare = s.spare := rfl
@[simp] theorem State.setSync_obs (s : State) (st : Nat) : (s.setSync st).obs = s.obs := rfl
@[simp] theorem State.setSync_boot (s : State) (st : Nat) : (s.setSync st).boot = s.boot := rfl
@[simp] theorem State.setSync_pwr (s : State) (st : Nat) : (s.setSync st).pwr = s.pwr := rfl
@[simp] theorem State.setSync_fuse (s : State) (st : Nat) : (s.setSync st).fuse = s.fuse := rfl
@[simp] theorem State.setSync_mgmt (s : State) (st : Nat) : (s.setSync st).mgmt = s.mgmt := rfl
@[simp] theorem State.setSync_lane (s : State) (st : Nat) : (s.setSync st).lane = s.lane := rfl
@[simp] theorem State.setSync_sec (s : State) (st : Nat) : (s.setSync st).sec = s.sec := rfl
@[simp] theorem State.setSync_fw (s : State) (st : Nat) : (s.setSync st).fw = s.fw := rfl
@[simp] theorem State.setSync_freeCtr (s : State) (st : Nat) : (s.setSync st).freeCtr = s.freeCtr := rfl
@[simp] theorem State.setSync_out (s : State) (st : Nat) : (s.setSync st).out = s.out := rfl
@[simp] theorem State.setSync_pending (s : State) (st : Nat) : (s.setSync st).pending = s.pending := rfl

/-! ## A message of a vector -/

@[simp] theorem State.msix_regs (s : State) (v : Nat) : (s.msix v).regs = s.regs := by unfold State.msix; split <;> rfl
@[simp] theorem State.msix_time (s : State) (v : Nat) : (s.msix v).time = s.time := by unfold State.msix; split <;> rfl
@[simp] theorem State.msix_mem (s : State) (v : Nat) : (s.msix v).mem = s.mem := by unfold State.msix; split <;> rfl
@[simp] theorem State.msix_core (s : State) (v : Nat) : (s.msix v).core = s.core := by unfold State.msix; split <;> rfl
@[simp] theorem State.msix_fab (s : State) (v : Nat) : (s.msix v).fab = s.fab := by unfold State.msix; split <;> rfl
@[simp] theorem State.msix_att (s : State) (v : Nat) : (s.msix v).att = s.att := by unfold State.msix; split <;> rfl
@[simp] theorem State.msix_coll (s : State) (v : Nat) : (s.msix v).coll = s.coll := by unfold State.msix; split <;> rfl
@[simp] theorem State.msix_spare (s : State) (v : Nat) : (s.msix v).spare = s.spare := by unfold State.msix; split <;> rfl
@[simp] theorem State.msix_obs (s : State) (v : Nat) : (s.msix v).obs = s.obs := by unfold State.msix; split <;> rfl
@[simp] theorem State.msix_boot (s : State) (v : Nat) : (s.msix v).boot = s.boot := by unfold State.msix; split <;> rfl
@[simp] theorem State.msix_pwr (s : State) (v : Nat) : (s.msix v).pwr = s.pwr := by unfold State.msix; split <;> rfl
@[simp] theorem State.msix_fuse (s : State) (v : Nat) : (s.msix v).fuse = s.fuse := by unfold State.msix; split <;> rfl
@[simp] theorem State.msix_mgmt (s : State) (v : Nat) : (s.msix v).mgmt = s.mgmt := by unfold State.msix; split <;> rfl
@[simp] theorem State.msix_lane (s : State) (v : Nat) : (s.msix v).lane = s.lane := by unfold State.msix; split <;> rfl
@[simp] theorem State.msix_sec (s : State) (v : Nat) : (s.msix v).sec = s.sec := by unfold State.msix; split <;> rfl
@[simp] theorem State.msix_fw (s : State) (v : Nat) : (s.msix v).fw = s.fw := by unfold State.msix; split <;> rfl
@[simp] theorem State.msix_freeCtr (s : State) (v : Nat) : (s.msix v).freeCtr = s.freeCtr := by unfold State.msix; split <;> rfl
@[simp] theorem State.msix_pending (s : State) (v : Nat) : (s.msix v).pending = s.pending := by unfold State.msix; split <;> rfl

/-! ## Notices and the error log -/

@[simp] theorem State.mgPut_regs (s : State) (k : Nat) (b : List Byte) : (s.mgPut k b).regs = s.regs := by
  unfold State.mgPut; dsimp only; split <;> rfl
@[simp] theorem State.pldmEvent_regs (s : State) (k : Nat) (b : List Byte) : (s.pldmEvent k b).regs = s.regs := by
  unfold State.pldmEvent; split <;> simp
@[simp] theorem State.mgPut_time (s : State) (k : Nat) (b : List Byte) : (s.mgPut k b).time = s.time := by
  unfold State.mgPut; dsimp only; split <;> rfl
@[simp] theorem State.pldmEvent_time (s : State) (k : Nat) (b : List Byte) : (s.pldmEvent k b).time = s.time := by
  unfold State.pldmEvent; split <;> simp
@[simp] theorem State.mgPut_cfe (s : State) (k : Nat) (b : List Byte) : (s.mgPut k b).cfe = s.cfe := by
  unfold State.mgPut; dsimp only; split <;> rfl
@[simp] theorem State.pldmEvent_cfe (s : State) (k : Nat) (b : List Byte) : (s.pldmEvent k b).cfe = s.cfe := by
  unfold State.pldmEvent; split <;> simp
@[simp] theorem State.mgPut_mem (s : State) (k : Nat) (b : List Byte) : (s.mgPut k b).mem = s.mem := by
  unfold State.mgPut; dsimp only; split <;> rfl
@[simp] theorem State.pldmEvent_mem (s : State) (k : Nat) (b : List Byte) : (s.pldmEvent k b).mem = s.mem := by
  unfold State.pldmEvent; split <;> simp
@[simp] theorem State.mgPut_core (s : State) (k : Nat) (b : List Byte) : (s.mgPut k b).core = s.core := by
  unfold State.mgPut; dsimp only; split <;> rfl
@[simp] theorem State.pldmEvent_core (s : State) (k : Nat) (b : List Byte) : (s.pldmEvent k b).core = s.core := by
  unfold State.pldmEvent; split <;> simp
@[simp] theorem State.mgPut_fab (s : State) (k : Nat) (b : List Byte) : (s.mgPut k b).fab = s.fab := by
  unfold State.mgPut; dsimp only; split <;> rfl
@[simp] theorem State.pldmEvent_fab (s : State) (k : Nat) (b : List Byte) : (s.pldmEvent k b).fab = s.fab := by
  unfold State.pldmEvent; split <;> simp
@[simp] theorem State.mgPut_att (s : State) (k : Nat) (b : List Byte) : (s.mgPut k b).att = s.att := by
  unfold State.mgPut; dsimp only; split <;> rfl
@[simp] theorem State.pldmEvent_att (s : State) (k : Nat) (b : List Byte) : (s.pldmEvent k b).att = s.att := by
  unfold State.pldmEvent; split <;> simp
@[simp] theorem State.mgPut_coll (s : State) (k : Nat) (b : List Byte) : (s.mgPut k b).coll = s.coll := by
  unfold State.mgPut; dsimp only; split <;> rfl
@[simp] theorem State.pldmEvent_coll (s : State) (k : Nat) (b : List Byte) : (s.pldmEvent k b).coll = s.coll := by
  unfold State.pldmEvent; split <;> simp
@[simp] theorem State.mgPut_spare (s : State) (k : Nat) (b : List Byte) : (s.mgPut k b).spare = s.spare := by
  unfold State.mgPut; dsimp only; split <;> rfl
@[simp] theorem State.pldmEvent_spare (s : State) (k : Nat) (b : List Byte) : (s.pldmEvent k b).spare = s.spare := by
  unfold State.pldmEvent; split <;> simp
@[simp] theorem State.mgPut_obs (s : State) (k : Nat) (b : List Byte) : (s.mgPut k b).obs = s.obs := by
  unfold State.mgPut; dsimp only; split <;> rfl
@[simp] theorem State.pldmEvent_obs (s : State) (k : Nat) (b : List Byte) : (s.pldmEvent k b).obs = s.obs := by
  unfold State.pldmEvent; split <;> simp
@[simp] theorem State.mgPut_boot (s : State) (k : Nat) (b : List Byte) : (s.mgPut k b).boot = s.boot := by
  unfold State.mgPut; dsimp only; split <;> rfl
@[simp] theorem State.pldmEvent_boot (s : State) (k : Nat) (b : List Byte) : (s.pldmEvent k b).boot = s.boot := by
  unfold State.pldmEvent; split <;> simp
@[simp] theorem State.mgPut_pwr (s : State) (k : Nat) (b : List Byte) : (s.mgPut k b).pwr = s.pwr := by
  unfold State.mgPut; dsimp only; split <;> rfl
@[simp] theorem State.pldmEvent_pwr (s : State) (k : Nat) (b : List Byte) : (s.pldmEvent k b).pwr = s.pwr := by
  unfold State.pldmEvent; split <;> simp
@[simp] theorem State.mgPut_fuse (s : State) (k : Nat) (b : List Byte) : (s.mgPut k b).fuse = s.fuse := by
  unfold State.mgPut; dsimp only; split <;> rfl
@[simp] theorem State.pldmEvent_fuse (s : State) (k : Nat) (b : List Byte) : (s.pldmEvent k b).fuse = s.fuse := by
  unfold State.pldmEvent; split <;> simp
@[simp] theorem State.mgPut_lane (s : State) (k : Nat) (b : List Byte) : (s.mgPut k b).lane = s.lane := by
  unfold State.mgPut; dsimp only; split <;> rfl
@[simp] theorem State.pldmEvent_lane (s : State) (k : Nat) (b : List Byte) : (s.pldmEvent k b).lane = s.lane := by
  unfold State.pldmEvent; split <;> simp
@[simp] theorem State.mgPut_sec (s : State) (k : Nat) (b : List Byte) : (s.mgPut k b).sec = s.sec := by
  unfold State.mgPut; dsimp only; split <;> rfl
@[simp] theorem State.pldmEvent_sec (s : State) (k : Nat) (b : List Byte) : (s.pldmEvent k b).sec = s.sec := by
  unfold State.pldmEvent; split <;> simp
@[simp] theorem State.mgPut_fw (s : State) (k : Nat) (b : List Byte) : (s.mgPut k b).fw = s.fw := by
  unfold State.mgPut; dsimp only; split <;> rfl
@[simp] theorem State.pldmEvent_fw (s : State) (k : Nat) (b : List Byte) : (s.pldmEvent k b).fw = s.fw := by
  unfold State.pldmEvent; split <;> simp
@[simp] theorem State.mgPut_freeCtr (s : State) (k : Nat) (b : List Byte) : (s.mgPut k b).freeCtr = s.freeCtr := by
  unfold State.mgPut; dsimp only; split <;> rfl
@[simp] theorem State.pldmEvent_freeCtr (s : State) (k : Nat) (b : List Byte) : (s.pldmEvent k b).freeCtr = s.freeCtr := by
  unfold State.pldmEvent; split <;> simp
@[simp] theorem State.mgPut_pending (s : State) (k : Nat) (b : List Byte) : (s.mgPut k b).pending = s.pending := by
  unfold State.mgPut; dsimp only; split <;> rfl
@[simp] theorem State.pldmEvent_pending (s : State) (k : Nat) (b : List Byte) : (s.pldmEvent k b).pending = s.pending := by
  unfold State.pldmEvent; split <;> simp

@[simp] theorem State.elogNotice_time (s : State) : s.elogNotice.time = s.time := by
  unfold State.elogNotice; split <;> (try split) <;> (try split) <;> simp
@[simp] theorem State.elogNotice_mem (s : State) : s.elogNotice.mem = s.mem := by
  unfold State.elogNotice; split <;> (try split) <;> (try split) <;> simp
@[simp] theorem State.elogNotice_core (s : State) : s.elogNotice.core = s.core := by
  unfold State.elogNotice; split <;> (try split) <;> (try split) <;> simp
@[simp] theorem State.elogNotice_fab (s : State) : s.elogNotice.fab = s.fab := by
  unfold State.elogNotice; split <;> (try split) <;> (try split) <;> simp
@[simp] theorem State.elogNotice_att (s : State) : s.elogNotice.att = s.att := by
  unfold State.elogNotice; split <;> (try split) <;> (try split) <;> simp
@[simp] theorem State.elogNotice_coll (s : State) : s.elogNotice.coll = s.coll := by
  unfold State.elogNotice; split <;> (try split) <;> (try split) <;> simp
@[simp] theorem State.elogNotice_obs (s : State) : s.elogNotice.obs = s.obs := by
  unfold State.elogNotice; split <;> (try split) <;> (try split) <;> simp
@[simp] theorem State.elogNotice_boot (s : State) : s.elogNotice.boot = s.boot := by
  unfold State.elogNotice; split <;> (try split) <;> (try split) <;> simp
@[simp] theorem State.elogNotice_pwr (s : State) : s.elogNotice.pwr = s.pwr := by
  unfold State.elogNotice; split <;> (try split) <;> (try split) <;> simp
@[simp] theorem State.elogNotice_fuse (s : State) : s.elogNotice.fuse = s.fuse := by
  unfold State.elogNotice; split <;> (try split) <;> (try split) <;> simp
@[simp] theorem State.elogNotice_mgmt (s : State) : s.elogNotice.mgmt = s.mgmt := by
  unfold State.elogNotice; split <;> (try split) <;> (try split) <;> simp
@[simp] theorem State.elogNotice_lane (s : State) : s.elogNotice.lane = s.lane := by
  unfold State.elogNotice; split <;> (try split) <;> (try split) <;> simp
@[simp] theorem State.elogNotice_sec (s : State) : s.elogNotice.sec = s.sec := by
  unfold State.elogNotice; split <;> (try split) <;> (try split) <;> simp
@[simp] theorem State.elogNotice_fw (s : State) : s.elogNotice.fw = s.fw := by
  unfold State.elogNotice; split <;> (try split) <;> (try split) <;> simp
@[simp] theorem State.elogNotice_freeCtr (s : State) : s.elogNotice.freeCtr = s.freeCtr := by
  unfold State.elogNotice; split <;> (try split) <;> (try split) <;> simp
@[simp] theorem State.elogNotice_pending (s : State) : s.elogNotice.pending = s.pending := by
  unfold State.elogNotice; split <;> (try split) <;> (try split) <;> simp

@[simp] theorem State.elogWrite_time (s : State) (i n : Nat) (e : Evt) : (s.elogWrite i n e).time = s.time := by
  unfold State.elogWrite; cases e.ctx <;> rfl
@[simp] theorem State.elogWrite_cfe (s : State) (i n : Nat) (e : Evt) : (s.elogWrite i n e).cfe = s.cfe := by
  unfold State.elogWrite; cases e.ctx <;> rfl
@[simp] theorem State.elogWrite_mem (s : State) (i n : Nat) (e : Evt) : (s.elogWrite i n e).mem = s.mem := by
  unfold State.elogWrite; cases e.ctx <;> rfl
@[simp] theorem State.elogWrite_core (s : State) (i n : Nat) (e : Evt) : (s.elogWrite i n e).core = s.core := by
  unfold State.elogWrite; cases e.ctx <;> rfl
@[simp] theorem State.elogWrite_fab (s : State) (i n : Nat) (e : Evt) : (s.elogWrite i n e).fab = s.fab := by
  unfold State.elogWrite; cases e.ctx <;> rfl
@[simp] theorem State.elogWrite_att (s : State) (i n : Nat) (e : Evt) : (s.elogWrite i n e).att = s.att := by
  unfold State.elogWrite; cases e.ctx <;> rfl
@[simp] theorem State.elogWrite_coll (s : State) (i n : Nat) (e : Evt) : (s.elogWrite i n e).coll = s.coll := by
  unfold State.elogWrite; cases e.ctx <;> rfl
@[simp] theorem State.elogWrite_spare (s : State) (i n : Nat) (e : Evt) : (s.elogWrite i n e).spare = s.spare := by
  unfold State.elogWrite; cases e.ctx <;> rfl
@[simp] theorem State.elogWrite_obs (s : State) (i n : Nat) (e : Evt) : (s.elogWrite i n e).obs = s.obs := by
  unfold State.elogWrite; cases e.ctx <;> rfl
@[simp] theorem State.elogWrite_boot (s : State) (i n : Nat) (e : Evt) : (s.elogWrite i n e).boot = s.boot := by
  unfold State.elogWrite; cases e.ctx <;> rfl
@[simp] theorem State.elogWrite_pwr (s : State) (i n : Nat) (e : Evt) : (s.elogWrite i n e).pwr = s.pwr := by
  unfold State.elogWrite; cases e.ctx <;> rfl
@[simp] theorem State.elogWrite_fuse (s : State) (i n : Nat) (e : Evt) : (s.elogWrite i n e).fuse = s.fuse := by
  unfold State.elogWrite; cases e.ctx <;> rfl
@[simp] theorem State.elogWrite_mgmt (s : State) (i n : Nat) (e : Evt) : (s.elogWrite i n e).mgmt = s.mgmt := by
  unfold State.elogWrite; cases e.ctx <;> rfl
@[simp] theorem State.elogWrite_lane (s : State) (i n : Nat) (e : Evt) : (s.elogWrite i n e).lane = s.lane := by
  unfold State.elogWrite; cases e.ctx <;> rfl
@[simp] theorem State.elogWrite_sec (s : State) (i n : Nat) (e : Evt) : (s.elogWrite i n e).sec = s.sec := by
  unfold State.elogWrite; cases e.ctx <;> rfl
@[simp] theorem State.elogWrite_fw (s : State) (i n : Nat) (e : Evt) : (s.elogWrite i n e).fw = s.fw := by
  unfold State.elogWrite; cases e.ctx <;> rfl
@[simp] theorem State.elogWrite_freeCtr (s : State) (i n : Nat) (e : Evt) : (s.elogWrite i n e).freeCtr = s.freeCtr := by
  unfold State.elogWrite; cases e.ctx <;> rfl
@[simp] theorem State.elogWrite_out (s : State) (i n : Nat) (e : Evt) : (s.elogWrite i n e).out = s.out := by
  unfold State.elogWrite; cases e.ctx <;> rfl
@[simp] theorem State.elogWrite_pending (s : State) (i n : Nat) (e : Evt) : (s.elogWrite i n e).pending = s.pending := by
  unfold State.elogWrite; cases e.ctx <;> rfl

@[simp] theorem State.log_time (s : State) (e : Evt) : (s.log e).time = s.time := by
  unfold State.log; dsimp only; split <;> (try split) <;> simp
@[simp] theorem State.logC_time (s : State) (n : Nat) : (s.logC n).time = s.time := by simp [State.logC]
@[simp] theorem State.logX_time (s : State) (n k d : Nat) : (s.logX n k d).time = s.time := by simp [State.logX]
@[simp] theorem State.log_mem (s : State) (e : Evt) : (s.log e).mem = s.mem := by
  unfold State.log; dsimp only; split <;> (try split) <;> simp
@[simp] theorem State.logC_mem (s : State) (n : Nat) : (s.logC n).mem = s.mem := by simp [State.logC]
@[simp] theorem State.logX_mem (s : State) (n k d : Nat) : (s.logX n k d).mem = s.mem := by simp [State.logX]
@[simp] theorem State.log_core (s : State) (e : Evt) : (s.log e).core = s.core := by
  unfold State.log; dsimp only; split <;> (try split) <;> simp
@[simp] theorem State.logC_core (s : State) (n : Nat) : (s.logC n).core = s.core := by simp [State.logC]
@[simp] theorem State.logX_core (s : State) (n k d : Nat) : (s.logX n k d).core = s.core := by simp [State.logX]
@[simp] theorem State.log_fab (s : State) (e : Evt) : (s.log e).fab = s.fab := by
  unfold State.log; dsimp only; split <;> (try split) <;> simp
@[simp] theorem State.logC_fab (s : State) (n : Nat) : (s.logC n).fab = s.fab := by simp [State.logC]
@[simp] theorem State.logX_fab (s : State) (n k d : Nat) : (s.logX n k d).fab = s.fab := by simp [State.logX]
@[simp] theorem State.log_att (s : State) (e : Evt) : (s.log e).att = s.att := by
  unfold State.log; dsimp only; split <;> (try split) <;> simp
@[simp] theorem State.logC_att (s : State) (n : Nat) : (s.logC n).att = s.att := by simp [State.logC]
@[simp] theorem State.logX_att (s : State) (n k d : Nat) : (s.logX n k d).att = s.att := by simp [State.logX]
@[simp] theorem State.log_coll (s : State) (e : Evt) : (s.log e).coll = s.coll := by
  unfold State.log; dsimp only; split <;> (try split) <;> simp
@[simp] theorem State.logC_coll (s : State) (n : Nat) : (s.logC n).coll = s.coll := by simp [State.logC]
@[simp] theorem State.logX_coll (s : State) (n k d : Nat) : (s.logX n k d).coll = s.coll := by simp [State.logX]
@[simp] theorem State.log_obs (s : State) (e : Evt) : (s.log e).obs = s.obs := by
  unfold State.log; dsimp only; split <;> (try split) <;> simp
@[simp] theorem State.logC_obs (s : State) (n : Nat) : (s.logC n).obs = s.obs := by simp [State.logC]
@[simp] theorem State.logX_obs (s : State) (n k d : Nat) : (s.logX n k d).obs = s.obs := by simp [State.logX]
@[simp] theorem State.log_boot (s : State) (e : Evt) : (s.log e).boot = s.boot := by
  unfold State.log; dsimp only; split <;> (try split) <;> simp
@[simp] theorem State.logC_boot (s : State) (n : Nat) : (s.logC n).boot = s.boot := by simp [State.logC]
@[simp] theorem State.logX_boot (s : State) (n k d : Nat) : (s.logX n k d).boot = s.boot := by simp [State.logX]
@[simp] theorem State.log_pwr (s : State) (e : Evt) : (s.log e).pwr = s.pwr := by
  unfold State.log; dsimp only; split <;> (try split) <;> simp
@[simp] theorem State.logC_pwr (s : State) (n : Nat) : (s.logC n).pwr = s.pwr := by simp [State.logC]
@[simp] theorem State.logX_pwr (s : State) (n k d : Nat) : (s.logX n k d).pwr = s.pwr := by simp [State.logX]
@[simp] theorem State.log_fuse (s : State) (e : Evt) : (s.log e).fuse = s.fuse := by
  unfold State.log; dsimp only; split <;> (try split) <;> simp
@[simp] theorem State.logC_fuse (s : State) (n : Nat) : (s.logC n).fuse = s.fuse := by simp [State.logC]
@[simp] theorem State.logX_fuse (s : State) (n k d : Nat) : (s.logX n k d).fuse = s.fuse := by simp [State.logX]
@[simp] theorem State.log_lane (s : State) (e : Evt) : (s.log e).lane = s.lane := by
  unfold State.log; dsimp only; split <;> (try split) <;> simp
@[simp] theorem State.logC_lane (s : State) (n : Nat) : (s.logC n).lane = s.lane := by simp [State.logC]
@[simp] theorem State.logX_lane (s : State) (n k d : Nat) : (s.logX n k d).lane = s.lane := by simp [State.logX]
@[simp] theorem State.log_sec (s : State) (e : Evt) : (s.log e).sec = s.sec := by
  unfold State.log; dsimp only; split <;> (try split) <;> simp
@[simp] theorem State.logC_sec (s : State) (n : Nat) : (s.logC n).sec = s.sec := by simp [State.logC]
@[simp] theorem State.logX_sec (s : State) (n k d : Nat) : (s.logX n k d).sec = s.sec := by simp [State.logX]
@[simp] theorem State.log_fw (s : State) (e : Evt) : (s.log e).fw = s.fw := by
  unfold State.log; dsimp only; split <;> (try split) <;> simp
@[simp] theorem State.logC_fw (s : State) (n : Nat) : (s.logC n).fw = s.fw := by simp [State.logC]
@[simp] theorem State.logX_fw (s : State) (n k d : Nat) : (s.logX n k d).fw = s.fw := by simp [State.logX]
@[simp] theorem State.log_freeCtr (s : State) (e : Evt) : (s.log e).freeCtr = s.freeCtr := by
  unfold State.log; dsimp only; split <;> (try split) <;> simp
@[simp] theorem State.logC_freeCtr (s : State) (n : Nat) : (s.logC n).freeCtr = s.freeCtr := by simp [State.logC]
@[simp] theorem State.logX_freeCtr (s : State) (n k d : Nat) : (s.logX n k d).freeCtr = s.freeCtr := by simp [State.logX]
@[simp] theorem State.log_pending (s : State) (e : Evt) : (s.log e).pending = s.pending := by
  unfold State.log; dsimp only; split <;> (try split) <;> simp
@[simp] theorem State.logC_pending (s : State) (n : Nat) : (s.logC n).pending = s.pending := by simp [State.logC]
@[simp] theorem State.logX_pending (s : State) (n k d : Nat) : (s.logX n k d).pending = s.pending := by simp [State.logX]

end Sys2Proof.Machine
end

