-- ==== Sys2Proof/Laws/InvBase.lean ====
section
/-! SUPPORT. The small laws of the invariant `State.Inv`: what keeps it, over folds, answers and optional states. -/

namespace Sys2Proof.Machine
variable {n : Nat} {v : Nat → Nat}

theorem InvOf.state {s : State} (h : s.Inv n v) :
    InvOf s.mem.bytes s.core.cs s.boot.staging s.boot.cal s.sec.token s.fuse n v := h

theorem Inv.mk_eq {x0 : Table Nat} {x1 : TimeSt} {x2 : CfeSt} {x3 : MemSt} {x4 : CoreSt} {x5 : FabSt} {x6 : AttSt} {x7 : CollSt}
    {x8 : SpareSt} {x9 : ObsSt} {x10 : BootSt} {x11 : PwrSt} {x12 : FuseSt} {x13 : MgmtSt} {x14 : Table LanePort} {x15 : SecSt}
    {x16 : FwSt} {x17 : Nat} {x18 : List Out} {x19 : List Instr}
    :
    State.Inv ⟨x0, x1, x2, x3, x4, x5, x6, x7, x8, x9, x10, x11, x12, x13, x14, x15, x16, x17, x18, x19⟩ n v =
      InvOf x3.bytes x4.cs x10.staging x10.cal x15.token x12 n v := rfl

theorem Inv.foldl {α : Type} {l : List α} {f : State → α → State} {s : State} (h : s.Inv n v)
    (hf : ∀ s a, s.Inv n v → (f s a).Inv n v) : (l.foldl f s).Inv n v := by
  induction l generalizing s with
  | nil => exact h
  | cons a r ih => exact ih (hf s a h)

theorem Inv.foldr {α : Type} {l : List α} {f : α → State → State} {s : State} (h : s.Inv n v)
    (hf : ∀ a s, s.Inv n v → (f a s).Inv n v) : (l.foldr f s).Inv n v := by
  induction l with
  | nil => exact h
  | cons a r ih => exact hf _ _ ih

theorem Inv.ite {c : Prop} [Decidable c] {a b : State} (ha : a.Inv n v) (hb : b.Inv n v) : (if c then a else b).Inv n v := by
  split <;> assumption

theorem InvOf.write_bytes {b c st ca tk : List Host.Cell} {f : FuseSt} {a : Nat} {l : List Byte} (h : InvOf b c st ca tk f n v) :
    InvOf (cellsWrite b a l) c st ca tk f n v := { h with mem := cellsWrite_wf a l h.mem }

theorem InvOf.clear_bytes {b c st ca tk : List Host.Cell} {f : FuseSt} {a m : Nat} (h : InvOf b c st ca tk f n v) :
    InvOf (cellsClear b a m) c st ca tk f n v := { h with mem := cellsClear_wf a m h.mem }

theorem InvOf.nil_bytes {b c st ca tk : List Host.Cell} {f : FuseSt} (h : InvOf b c st ca tk f n v) :
    InvOf [] c st ca tk f n v := { h with mem := rfl }

theorem InvOf.keep_bytes {b c st ca tk : List Host.Cell} {f : FuseSt} {p : Host.Cell → Bool} (h : InvOf b c st ca tk f n v) :
    InvOf (b.filter p) c st ca tk f n v := { h with mem := Memory.wf_filter p h.mem }

theorem InvOf.write_cs {b c st ca tk : List Host.Cell} {f : FuseSt} {a : Nat} {l : List Byte} (h : InvOf b c st ca tk f n v) :
    InvOf b (cellsWrite c a l) st ca tk f n v := { h with cs := cellsWrite_wf a l h.cs }

theorem InvOf.clear_cs {b c st ca tk : List Host.Cell} {f : FuseSt} {a m : Nat} (h : InvOf b c st ca tk f n v) :
    InvOf b (cellsClear c a m) st ca tk f n v := { h with cs := cellsClear_wf a m h.cs }

theorem InvOf.write_staging {b c st ca tk : List Host.Cell} {f : FuseSt} {a : Nat} {l : List Byte} (h : InvOf b c st ca tk f n v) :
    InvOf b c (cellsWrite st a l) ca tk f n v := { h with staging := cellsWrite_wf a l h.staging }

theorem InvOf.write_cal {b c st ca tk : List Host.Cell} {f : FuseSt} {a : Nat} {l : List Byte} (h : InvOf b c st ca tk f n v) :
    InvOf b c st (cellsWrite ca a l) tk f n v := { h with cal := cellsWrite_wf a l h.cal }

theorem InvOf.write_token {b c st ca tk : List Host.Cell} {f : FuseSt} {a : Nat} {l : List Byte} (h : InvOf b c st ca tk f n v) :
    InvOf b c st ca (cellsWrite tk a l) f n v := { h with token := cellsWrite_wf a l h.token }

theorem Inv.ident {s : State} (h : s.Inv n v) : (id s).Inv n v := h

/-- Every next state that an answer gives meets the invariant. -/
def Res.Keeps (r : Res) (n : Nat) (v : Nat → Nat) : Prop := ∀ t, r = .next t → t.Inv n v

theorem Res.Keeps.next {s : State} (h : s.Inv n v) : Res.Keeps (.next s) n v := by
  intro t ht
  cases ht
  exact h

theorem Res.Keeps.need {b : Bool} {s : State} (h : s.Inv n v) : Res.Keeps (need b s) n v := by
  simp only [Machine.need]
  split
  · exact .next h
  · intro t ht
    cases ht

theorem Res.Keeps.fault {f : Fault} : Res.Keeps (.fault f) n v := by
  intro t ht
  cases ht

/-- Every state that an optional one may be meets the invariant. -/
def OptKeeps (o : Option State) (n : Nat) (v : Nat → Nat) : Prop := ∀ t, o = some t → t.Inv n v

theorem OptKeeps.some {s : State} (h : s.Inv n v) : OptKeeps (Option.some s) n v := by
  intro t ht
  cases ht
  exact h

theorem OptKeeps.none : OptKeeps Option.none n v := by
  intro t ht
  cases ht

theorem OptKeeps.getD {o : Option State} {s : State} (k : OptKeeps o n v) (h : s.Inv n v) : (o.getD s).Inv n v := by
  cases o with
  | none => exact h
  | some t => exact k t rfl

theorem OptKeeps.get {o : Option State} {t : State} (h : o = Option.some t) (k : OptKeeps o n v) : t.Inv n v := k t h

/-- The same of a state that comes with something else. -/
def PairKeeps {α : Type} (o : Option (α × State)) (n : Nat) (v : Nat → Nat) : Prop := ∀ p, o = some p → p.2.Inv n v

theorem PairKeeps.some {α : Type} {a : α} {s : State} (h : s.Inv n v) : PairKeeps (Option.some (a, s)) n v := by
  intro t ht
  cases ht
  exact h

theorem PairKeeps.none {α : Type} : PairKeeps (Option.none : Option (α × State)) n v := by
  intro t ht
  cases ht

theorem PairKeeps.get {α : Type} {o : Option (α × State)} {a : α} {t : State} (h : o = Option.some (a, t)) (k : PairKeeps o n v) :
    t.Inv n v := k _ h

theorem PairKeeps.of {α : Type} {o : Option (α × State)} {p : α × State} (h : o = Option.some p) (k : PairKeeps o n v) :
    p.2.Inv n v := k _ h

theorem Inv.snd {α : Type} {p : α × State} {a : α} {t : State} (h : p = (a, t)) (k : p.2.Inv n v) : t.Inv n v := by
  rw [h] at k
  exact k

theorem Inv.memRes {m : MemRes} {c : Nat} {b : List Byte} {t : State} (h : m = ⟨c, b, t⟩) (k : m.st.Inv n v) : t.Inv n v := by
  rw [h] at k
  exact k

theorem OptKeeps.ite {c : Prop} [Decidable c] {a b : Option State} (ha : OptKeeps a n v) (hb : OptKeeps b n v) :
    OptKeeps (if c then a else b) n v := by
  split <;> assumption

theorem PairKeeps.ite {α : Type} {c : Prop} [Decidable c] {a b : Option (α × State)} (ha : PairKeeps a n v) (hb : PairKeeps b n v) :
    PairKeeps (if c then a else b) n v := by
  split <;> assumption

theorem Res.Keeps.ite {c : Prop} [Decidable c] {a b : Res} (ha : a.Keeps n v) (hb : b.Keeps n v) : Res.Keeps
    (if c then a else b) n v := by
  split <;> assumption

theorem Inv.ite_mem {c : Prop} [Decidable c] {a b : MemRes} (ha : a.st.Inv n v) (hb : b.st.Inv n v) :
    (if c then a else b).st.Inv n v := by
  split <;> assumption

theorem Inv.foldl_vst {α : Type} {l : List α} {f : VSt → α → VSt} {s : VSt} (h : s.st.Inv n v)
    (hf : ∀ s a, s.st.Inv n v → (f s a).st.Inv n v) : (l.foldl f s).st.Inv n v := by
  induction l generalizing s with
  | nil => exact h
  | cons a r ih => exact ih (hf s a h)

theorem Inv.ite_snd {α : Type} {c : Prop} [Decidable c] {a b : α × State} (ha : a.2.Inv n v) (hb : b.2.Inv n v) :
    (if c then a else b).2.Inv n v := by
  split <;> assumption

theorem Inv.turn {s : State} {x : Table Nat} (h : s.Inv n v) : State.Inv { s with core := { s.core with turn := x } } n v :=
  InvOf.state h

theorem Inv.fst {α : Type} {p : State × α} {a : α} {t : State} (h : p = (t, a)) (k : p.1.Inv n v) : t.Inv n v := by
  rw [h] at k
  exact k

/-- Every part may come from a state of its own. -/
theorem InvOf.mix {a b c d e f : State} (ha : a.Inv n v) (hb : b.Inv n v) (hc : c.Inv n v) (hd : d.Inv n v) (he : e.Inv n v)
    (hf : f.Inv n v) : InvOf a.mem.bytes b.core.cs c.boot.staging d.boot.cal e.sec.token f.fuse n v :=
  ⟨ha.mem, hb.cs, hc.staging, hd.cal, he.token, hf.epochs, hf.svn⟩

theorem InvOf.burn {b c st ca tk : List Host.Cell} {f : FuseSt} {e : Nat} (h : InvOf b c st ca tk f n v) (h1 : f.epochs ≤ e)
    (h2 : e ≤ 32768) : InvOf b c st ca tk ⟨f.lcs, f.ohash, f.svn, e⟩ n v :=
  { h with epochs := ⟨Nat.le_trans h.epochs.1 h1, h2⟩ }

theorem InvOf.owner {b c st ca tk : List Host.Cell} {f : FuseSt} {l : Nat} {o : Option Nat} (h : InvOf b c st ca tk f n v) :
    InvOf b c st ca tk ⟨l, o, f.svn, f.epochs⟩ n v := { h with }

theorem InvOf.lose {b c st ca tk : List Host.Cell} {f : FuseSt} (h : InvOf b c st ca tk f n v) : InvOf [] [] [] ca [] f n v :=
  { h with mem := rfl, cs := rfl, staging := rfl, token := rfl }

theorem InvOf.newCal {b c st ca tk k : List Host.Cell} {f : FuseSt} (h : InvOf b c st ca tk f n v) (hk : Memory.wf k = true) :
    InvOf b c st k tk f n v := { h with cal := hk }

theorem bitsOf_pack4 (a b c d : Nat) (ha : a < 256) (hb : b < 256) (hc : c < 256) (hd : d < 256) :
    bitsOf (a + b <<< 8 + c <<< 16 + d <<< 24) 0 8 = a ∧ bitsOf (a + b <<< 8 + c <<< 16 + d <<< 24) 8 8 = b ∧
    bitsOf (a + b <<< 8 + c <<< 16 + d <<< 24) 16 8 = c ∧ bitsOf (a + b <<< 8 + c <<< 16 + d <<< 24) 24 8 = d := by
  have e : a + b <<< 8 + c <<< 16 + d <<< 24 = a + b * 256 + c * 65536 + d * 16777216 := by
    rw [Nat.shiftLeft_eq, Nat.shiftLeft_eq, Nat.shiftLeft_eq]
  rw [e]
  generalize hx : a + b * 256 + c * 65536 + d * 16777216 = x
  have f0 : bitsOf x 0 8 = x % 256 := by simp [bitsOf, Nat.shiftRight_eq_div_pow]
  have f1 : bitsOf x 8 8 = x / 256 % 256 := by simp [bitsOf, Nat.shiftRight_eq_div_pow]
  have f2 : bitsOf x 16 8 = x / 65536 % 256 := by simp [bitsOf, Nat.shiftRight_eq_div_pow]
  have f3 : bitsOf x 24 8 = x / 16777216 % 256 := by simp [bitsOf, Nat.shiftRight_eq_div_pow]
  rw [f0, f1, f2, f3]
  omega

theorem InvOf.newSvn {b c st ca tk : List Host.Cell} {f : FuseSt} {w : Nat} (h : InvOf b c st ca tk f n v)
    (h1 : ∀ t, 1 ≤ t → t ≤ 4 → v t ≤ bitsOf w (8 * (t - 1)) 8 ∧ bitsOf w (8 * (t - 1)) 8 ≤ 64) :
    InvOf b c st ca tk ⟨f.lcs, f.ohash, w, f.epochs⟩ n v := { h with svn := h1 }

theorem InvOf.commit {b c st ca tk : List Host.Cell} {f : FuseSt} {x : Nat → Nat} (h : InvOf b c st ca tk f n v)
    (h1 : ∀ t, 1 ≤ t → t ≤ 4 → bitsOf f.svn (8 * (t - 1)) 8 ≤ x t ∧ x t ≤ 64) :
    InvOf b c st ca tk ⟨f.lcs, f.ohash, x 1 + x 2 <<< 8 + x 3 <<< 16 + x 4 <<< 24, f.epochs⟩ n v := by
  have k : ∀ t, 1 ≤ t → t ≤ 4 → v t ≤ x t ∧ x t ≤ 64 := fun t a z =>
    ⟨Nat.le_trans (h.svn t a z).1 (h1 t a z).1, (h1 t a z).2⟩
  have k1 := k 1 (by decide) (by decide)
  have k2 := k 2 (by decide) (by decide)
  have k3 := k 3 (by decide) (by decide)
  have k4 := k 4 (by decide) (by decide)
  have l : ∀ t, 1 ≤ t → t ≤ 4 → x t < 256 := fun t a z => Nat.lt_of_le_of_lt (k t a z).2 (by decide)
  obtain ⟨e1, e2, e3, e4⟩ := bitsOf_pack4 (x 1) (x 2) (x 3) (x 4) (l 1 (by decide) (by decide)) (l 2 (by decide) (by decide))
    (l 3 (by decide) (by decide)) (l 4 (by decide) (by decide))
  generalize x 1 + x 2 <<< 8 + x 3 <<< 16 + x 4 <<< 24 = w at e1 e2 e3 e4 ⊢
  refine h.newSvn fun t a z => ?_
  have : t = 1 ∨ t = 2 ∨ t = 3 ∨ t = 4 := by omega
  rcases this with rfl | rfl | rfl | rfl
  · rw [e1]
    exact k1
  · rw [e2]
    exact k2
  · rw [e3]
    exact k3
  · rw [e4]
    exact k4

end Sys2Proof.Machine
end

