-- ==== Sys2Proof/Laws/InvOps.lean ====
section
/-! SUPPORT. One lemma for each definition that gives a state: it keeps `State.Inv`. Here: what the shared operations keep. -/

namespace Sys2Proof.Machine

variable {n : Nat} {v : Nat → Nat}

/-! Machine/Ops.lean. -/

theorem State.fset_inv (s : State) (f : Fld) (i : Nat) (v0 : Nat) (hs0 : s.Inv n v) :
    (State.fset s f i v0).Inv n v := by
  unfold State.fset
  with_reducible repeat' (first | assumption | simp only [Inv.mk_eq] | apply InvOf.mix)

theorem State.fput_inv (s : State) (f : Fld) (i : Nat) (b : Bool) (hs0 : s.Inv n v) :
    (State.fput s f i b).Inv n v := by
  unfold State.fput
  with_reducible repeat' (first | assumption | apply State.fset_inv)

theorem State.fsat_inv (s : State) (f : Fld) (i : Nat) (n0 : Nat) (hs0 : s.Inv n v) :
    (State.fsat s f i n0).Inv n v := by
  unfold State.fsat
  with_reducible repeat' (first | assumption | apply State.fset_inv)

theorem State.putRW_inv (s : State) (r : Reg) (i : Nat) (v0 : Nat) (hs0 : s.Inv n v) :
    (State.putRW s r i v0).Inv n v := by
  unfold State.putRW
  with_reducible repeat' (first | assumption | apply Inv.foldl | apply State.fset_inv | intro _ | split)

theorem State.clrW1C_inv (s : State) (r : Reg) (i : Nat) (v0 : Nat) (hs0 : s.Inv n v) :
    (State.clrW1C s r i v0).Inv n v := by
  unfold State.clrW1C
  with_reducible repeat' (first | assumption | apply Inv.foldl | apply State.fset_inv | intro _ | split)

theorem State.setRej_inv (s : State) (r : Reg) (i : Nat) (hs0 : s.Inv n v) :
    (State.setRej s r i).Inv n v := by
  unfold State.setRej
  with_reducible repeat' (first | assumption | apply State.fset_inv | split)

theorem State.drew_inv (s : State) (hs0 : s.Inv n v) :
    (State.drew s).Inv n v := by
  unfold State.drew
  with_reducible repeat' (first | assumption | simp only [Inv.mk_eq] | apply InvOf.mix)

theorem State.emit_inv (s : State) (o : Out) (hs0 : s.Inv n v) :
    (State.emit s o).Inv n v := by
  unfold State.emit
  with_reducible repeat' (first | assumption | simp only [Inv.mk_eq] | apply InvOf.mix)

theorem State.note_inv (s : State) (k : Nat) (v0 : Nat) (hs0 : s.Inv n v) :
    (State.note s k v0).Inv n v := by
  unfold State.note
  with_reducible repeat' (first | assumption | apply State.emit_inv)

theorem State.setSync_inv (s : State) (st : Nat) (hs0 : s.Inv n v) :
    (State.setSync s st).Inv n v := by
  unfold State.setSync
  with_reducible repeat' (first | assumption | apply State.fput_inv | apply State.fset_inv)

theorem State.when_inv (s : State) (b : Bool) (f : State → State) (hs0 : s.Inv n v) (hs2 : ∀ y0, y0.Inv n v → (f y0).Inv n v) :
    (State.when s b f).Inv n v := by
  unfold State.when
  with_reducible repeat' (first | assumption | apply hs2 | split)

theorem State.msix_inv (s : State) (v0 : Nat) (hs0 : s.Inv n v) :
    (State.msix s v0).Inv n v := by
  unfold State.msix
  with_reducible repeat' (first | assumption | apply State.emit_inv | simp only [Inv.mk_eq] | apply InvOf.mix | split)

theorem State.mgPut_inv (s : State) (kind : Nat) (body : List Byte) (hs0 : s.Inv n v) :
    (State.mgPut s kind body).Inv n v := by
  unfold State.mgPut
  with_reducible repeat' (first | assumption | apply State.emit_inv | simp only [Inv.mk_eq] | apply InvOf.mix | split)

theorem State.pldmEvent_inv (s : State) (kind : Nat) (body : List Byte) (hs0 : s.Inv n v) :
    (State.pldmEvent s kind body).Inv n v := by
  unfold State.pldmEvent
  with_reducible repeat' (first | assumption | apply State.mgPut_inv | split)

theorem State.elogWrite_inv (s : State) (i : Nat) (n0 : Nat) (e : Evt) (hs0 : s.Inv n v) :
    (State.elogWrite s i n0 e).Inv n v := by
  unfold State.elogWrite
  with_reducible repeat' (first | assumption | apply State.fset_inv | apply State.fput_inv | split)

theorem State.elogNotice_inv (s : State) (hs0 : s.Inv n v) :
    (State.elogNotice s).Inv n v := by
  unfold State.elogNotice
  with_reducible repeat' (first | assumption | apply State.msix_inv | simp only [Inv.mk_eq] | apply InvOf.mix | split)

theorem State.log_inv (s : State) (e : Evt) (hs0 : s.Inv n v) :
    (State.log s e).Inv n v := by
  unfold State.log
  with_reducible
    repeat' (first
      | assumption | apply State.fsat_inv | apply State.elogWrite_inv | apply State.fset_inv
      | apply State.elogNotice_inv | apply State.pldmEvent_inv | split)

theorem State.logC_inv (s : State) (code : Nat) (hs0 : s.Inv n v) :
    (State.logC s code).Inv n v := by
  unfold State.logC
  with_reducible repeat' (first | assumption | apply State.log_inv)

theorem State.logX_inv (s : State) (code : Nat) (ctx : Nat) (data : Nat) (hs0 : s.Inv n v) :
    (State.logX s code ctx data).Inv n v := by
  unfold State.logX
  with_reducible repeat' (first | assumption | apply State.log_inv)

theorem State.diverge_inv (s : State) (c : Nat) (n0 : Nat) (hs0 : s.Inv n v) :
    (State.diverge s c n0).Inv n v := by
  unfold State.diverge
  with_reducible repeat' (first | assumption | apply State.fsat_inv)

theorem State.progress_inv (s : State) (ring : Nat) (seq : Nat) (hs0 : s.Inv n v) :
    (State.progress s ring seq).Inv n v := by
  unfold State.progress
  with_reducible repeat' (first | assumption | simp only [Inv.mk_eq] | apply InvOf.mix)

theorem State.ownerReject_inv (s : State) (w : Who) (hs0 : s.Inv n v) :
    (State.ownerReject s w).Inv n v := by
  unfold State.ownerReject
  with_reducible repeat' (first | assumption | apply State.emit_inv | apply State.fset_inv | apply State.logC_inv | split)

theorem State.bar_inv (s : State) (w : Who) (r : Reg) (i : Nat) (x4 : Bar) (hs0 : s.Inv n v) :
    (State.bar s w r i x4).Inv n v := by
  unfold State.bar
  with_reducible
    repeat' (first
      | assumption | apply State.logC_inv | apply State.ownerReject_inv
      | apply State.setRej_inv | split)

theorem State.regWriteOr_inv (s : State) (w : Who) (r : Reg) (i : Nat) (v0 : Nat) (reject : State → Bool)
    (onRej : State → State) (eff : State → State) (hs0 : s.Inv n v) (hs6 : ∀ y0, y0.Inv n v → (onRej y0).Inv n v)
    (hs7 : ∀ y0, y0.Inv n v → (eff y0).Inv n v) :
    (State.regWriteOr s w r i v0 reject onRej eff).Inv n v := by
  unfold State.regWriteOr
  with_reducible
    repeat' (first
      | assumption | apply hs6 | apply hs7 | apply State.clrW1C_inv | apply State.setRej_inv
      | apply State.bar_inv | split)

theorem State.regWrite_inv (s : State) (w : Who) (r : Reg) (i : Nat) (v0 : Nat) (reject : State → Bool) (eff : State → State)
    (hs0 : s.Inv n v) (hs6 : ∀ y0, y0.Inv n v → (eff y0).Inv n v) :
    (State.regWrite s w r i v0 reject eff).Inv n v := by
  unfold State.regWrite
  with_reducible repeat' (first | assumption | apply Inv.ident | apply State.regWriteOr_inv)

theorem State.windowBar_inv (s : State) (w : Who) (hs0 : s.Inv n v) :
    OptKeeps (State.windowBar s w) n v := by
  unfold State.windowBar
  with_reducible repeat' (first | apply OptKeeps.some | apply OptKeeps.none | assumption | apply State.logC_inv | split)

theorem State.culletPut_inv (s : State) (kind : Nat) (origin : Nat) (unit : Nat) (t : Nat) (hs0 : s.Inv n v) :
    (State.culletPut s kind origin unit t).Inv n v := by
  unfold State.culletPut
  with_reducible
    repeat' (first
      | assumption | apply State.fset_inv | apply State.logC_inv | simp only [Inv.mk_eq]
      | apply InvOf.mix | split)

theorem State.recordFence_inv (s : State) (kind : Nat) (origin : Nat) (unit : Nat) (hs0 : s.Inv n v) :
    (State.recordFence s kind origin unit).Inv n v := by
  unfold State.recordFence
  with_reducible
    repeat' (first
      | assumption | apply State.fset_inv | apply State.culletPut_inv
      | simp only [Inv.mk_eq] | apply InvOf.mix | split)

/-! Machine/Packet.lean. -/

theorem State.inject_inv (s : State) (p : Pkt) (hs0 : s.Inv n v) :
    (State.inject s p).Inv n v := by
  unfold State.inject
  with_reducible repeat' (first | assumption | apply State.emit_inv)

/-! Machine/Memory.lean. -/

theorem State.logGran_inv (s : State) (a : Party) (code : Nat) (g : Nat) (hs0 : s.Inv n v) :
    (State.logGran s a code g).Inv n v := by
  unfold State.logGran
  with_reducible repeat' (first | assumption | apply State.log_inv)

theorem State.logFails_inv (s : State) (a : Party) (l : List (Nat × Nat)) (hs0 : s.Inv n v) :
    (State.logFails s a l).Inv n v := by
  unfold State.logFails
  with_reducible repeat' (first | assumption | apply Inv.foldl | apply State.logGran_inv | intro _)

theorem State.readGrans_inv (s : State) (a : Party) (slot : Nat → Nat) (addr : Nat) (n0 : Nat) (hs0 : s.Inv n v) :
    (State.readGrans s a slot addr n0).st.Inv n v := by
  unfold State.readGrans
  with_reducible repeat' (first | assumption | apply State.logFails_inv | split)

theorem State.tagGran_inv (s : State) (slot : Nat) (g : Nat) (hs0 : s.Inv n v) :
    (State.tagGran s slot g).Inv n v := by
  unfold State.tagGran
  with_reducible repeat' (first | assumption | simp only [Inv.mk_eq] | apply InvOf.mix)

theorem State.setDirty_inv (s : State) (hs0 : s.Inv n v) :
    (State.setDirty s).Inv n v := by
  unfold State.setDirty
  with_reducible repeat' (first | assumption | apply State.fset_inv)

theorem State.dirtyFrame_inv (s : State) (f : Nat) (hs0 : s.Inv n v) :
    (State.dirtyFrame s f).Inv n v := by
  unfold State.dirtyFrame
  with_reducible repeat' (first | assumption | apply State.setDirty_inv | simp only [Inv.mk_eq] | apply InvOf.mix | split)

theorem State.putGran_inv (s : State) (slot : Nat) (addr : Nat) (l : List Byte) (g : Nat) (hs0 : s.Inv n v) :
    (State.putGran s slot addr l g).Inv n v := by
  unfold State.putGran
  with_reducible
    repeat' (first
      | assumption | apply State.dirtyFrame_inv | apply State.tagGran_inv
      | simp only [Inv.mk_eq] | apply InvOf.mix | apply InvOf.write_bytes)

theorem State.writeGrans_inv (s : State) (a : Party) (slot : Nat → Nat) (addr : Nat) (l : List Byte) (hs0 : s.Inv n v) :
    (State.writeGrans s a slot addr l).st.Inv n v := by
  unfold State.writeGrans
  with_reducible repeat' (first | assumption | apply Inv.foldl | apply State.putGran_inv | apply State.logFails_inv | intro _)

theorem State.fillGran_inv (s : State) (g : Nat) (hs0 : s.Inv n v) :
    (State.fillGran s g).Inv n v := by
  unfold State.fillGran
  with_reducible
    repeat' (first
      | assumption | apply State.dirtyFrame_inv | apply State.tagGran_inv
      | simp only [Inv.mk_eq] | apply InvOf.mix | apply InvOf.clear_bytes)

theorem State.fillMet_inv (s : State) (addr : Nat) (n0 : Nat) (hs0 : s.Inv n v) :
    (State.fillMet s addr n0).Inv n v := by
  unfold State.fillMet
  with_reducible
    repeat' (first
      | assumption | apply Inv.foldl | apply State.drew_inv | apply State.fillGran_inv
      | intro _ | split)

theorem State.snoop_inv (s : State) (inv : Bool) (addr : Nat) (n0 : Nat) (hs0 : s.Inv n v) :
    (State.snoop s inv addr n0).Inv n v := by
  unfold State.snoop
  with_reducible
    repeat' (first
      | assumption | apply Inv.foldl | apply State.emit_inv | intro _
      | simp only [Inv.mk_eq] | apply InvOf.mix | split)

theorem State.memRead_inv (s : State) (a : Party) (right : Fld) (addr : Nat) (n0 : Nat) (hs0 : s.Inv n v) :
    (State.memRead s a right addr n0).st.Inv n v := by
  unfold State.memRead
  with_reducible
    repeat' (first
      | assumption | apply State.readGrans_inv | apply State.fillMet_inv
      | apply State.snoop_inv | split)

theorem State.hostRead_inv (s : State) (a : Party) (addr : Nat) (n0 : Nat) (hs0 : s.Inv n v) :
    (State.hostRead s a addr n0).st.Inv n v := by
  unfold State.hostRead
  with_reducible repeat' (first | assumption | apply State.readGrans_inv | apply State.fillMet_inv | split)

theorem State.rawRead_inv (s : State) (a : Party) (addr : Nat) (n0 : Nat) (hs0 : s.Inv n v) :
    (State.rawRead s a addr n0).st.Inv n v := by
  unfold State.rawRead
  with_reducible repeat' (first | assumption | apply State.hostRead_inv | apply State.snoop_inv)

theorem State.memPut_inv (s : State) (a : Party) (right : Fld) (addr : Nat) (l : List Byte) (hs0 : s.Inv n v) :
    (State.memPut s a right addr l).st.Inv n v := by
  unfold State.memPut
  with_reducible repeat' (first | assumption | apply State.writeGrans_inv | apply State.snoop_inv | split)

theorem State.memWrite_inv (s : State) (a : Party) (right : Fld) (addr : Nat) (l : List Byte) (hs0 : s.Inv n v) :
    (State.memWrite s a right addr l).st.Inv n v := by
  unfold State.memWrite
  with_reducible
    repeat' (first
      | assumption | apply State.writeGrans_inv | apply State.fillMet_inv
      | apply State.snoop_inv | split)

theorem State.undefine_inv (s : State) (a : Party) (addr : Nat) (n0 : Nat) (hs0 : s.Inv n v) :
    (State.undefine s a addr n0).Inv n v := by
  unfold State.undefine
  with_reducible
    repeat' (first
      | assumption | apply Inv.foldl | apply State.fillMet_inv | apply State.snoop_inv
      | apply State.drew_inv | apply State.putGran_inv | intro _ | split)

theorem State.hostUpdate_inv (s : State) (a : Party) (addr : Nat) (n0 : Nat) (f : List Byte → List Byte) (hs0 : s.Inv n v) :
    (State.hostUpdate s a addr n0 f).st.Inv n v := by
  unfold State.hostUpdate
  with_reducible repeat' (first | assumption | apply State.fillMet_inv | apply State.writeGrans_inv | split)

theorem State.rawWrite_inv (s : State) (a : Party) (addr : Nat) (l : List Byte) (hs0 : s.Inv n v) :
    (State.rawWrite s a addr l).st.Inv n v := by
  unfold State.rawWrite
  with_reducible repeat' (first | assumption | apply State.hostUpdate_inv | apply State.snoop_inv)

theorem State.markBad_inv (s : State) (v0 : Nat) (gs : List Nat) (hs0 : s.Inv n v) :
    (State.markBad s v0 gs).Inv n v := by
  unfold State.markBad
  with_reducible repeat' (first | assumption | apply Inv.foldl | intro _ | simp only [Inv.mk_eq] | apply InvOf.mix)

theorem State.loadKey_inv (s : State) (slot : Nat) (hs0 : s.Inv n v) :
    (State.loadKey s slot).Inv n v := by
  unfold State.loadKey
  with_reducible repeat' (first | assumption | simp only [Inv.mk_eq] | apply InvOf.mix)

theorem State.fillFrames_inv (s : State) (lo : Nat) (hi : Nat) (slot : Nat) (kept : List Nat) (hs0 : s.Inv n v) :
    (State.fillFrames s lo hi slot kept).Inv n v := by
  unfold State.fillFrames
  with_reducible
    repeat' (first
      | assumption | apply Inv.foldl | apply State.dirtyFrame_inv | intro _
      | simp only [Inv.mk_eq] | apply InvOf.mix | apply InvOf.keep_bytes | split)

theorem State.csWrite_inv (s : State) (site : Nat) (addr : Nat) (l : List Byte) (hs0 : s.Inv n v) :
    (State.csWrite s site addr l).Inv n v := by
  unfold State.csWrite
  with_reducible repeat' (first | assumption | simp only [Inv.mk_eq] | apply InvOf.mix | apply InvOf.write_cs)

theorem State.csZero_inv (s : State) (site : Nat) (hs0 : s.Inv n v) :
    (State.csZero s site).Inv n v := by
  unfold State.csZero
  with_reducible repeat' (first | assumption | simp only [Inv.mk_eq] | apply InvOf.mix | apply InvOf.clear_cs)

theorem State.calClose_inv (s : State) (hs0 : s.Inv n v) :
    (State.calClose s).Inv n v := by
  unfold State.calClose
  with_reducible repeat' (first | assumption | apply Inv.foldl | apply State.fset_inv | intro _ | split)

/-! Machine/FwOps.lean. -/

theorem State.deliver_inv (s : State) (img : List Byte) (cs : List BlockCopy) (hs0 : s.Inv n v) :
    (State.deliver s img cs).Inv n v := by
  unfold State.deliver
  with_reducible repeat' (first | assumption | simp only [Inv.mk_eq] | apply InvOf.mix)

theorem State.putEntries_inv (s : State) (es : List Nat) (hs0 : s.Inv n v) :
    (State.putEntries s es).Inv n v := by
  unfold State.putEntries
  with_reducible repeat' (first | assumption | simp only [Inv.mk_eq] | apply InvOf.mix)

/-! Machine/Lines.lean. -/

theorem State.setLp_inv (s : State) (p : Nat) (x : LanePort) (hs0 : s.Inv n v) :
    (State.setLp s p x).Inv n v := by
  unfold State.setLp
  with_reducible repeat' (first | assumption | simp only [Inv.mk_eq] | apply InvOf.mix)

theorem State.putLanes_inv (s : State) (p : Nat) (l : List (Nat × List Sym)) (hs0 : s.Inv n v) :
    (State.putLanes s p l).Inv n v := by
  unfold State.putLanes
  with_reducible repeat' (first | assumption | apply State.setLp_inv | apply State.emit_inv | (dsimp only) | split)

theorem State.putCols_inv (s : State) (p : Nat) (pieces : List (List (List Sym))) (hs0 : s.Inv n v) :
    (State.putCols s p pieces).Inv n v := by
  unfold State.putCols
  with_reducible repeat' (first | assumption | apply State.putLanes_inv | apply State.setLp_inv)

theorem State.leaveLs1_inv (s : State) (p : Nat) (hs0 : s.Inv n v) :
    (State.leaveLs1 s p).Inv n v := by
  unfold State.leaveLs1
  with_reducible repeat' (first | assumption | apply State.putCols_inv | apply State.emit_inv | apply State.fset_inv | split)

theorem State.sendSeq_inv (s : State) (p : Nat) (kind : Nat) (b : List Nat) (k : Nat) (data : List Nat) (hs0 : s.Inv n v) :
    (State.sendSeq s p kind b k data).Inv n v := by
  unfold State.sendSeq
  with_reducible repeat' (first | assumption | apply State.putCols_inv | apply State.emit_inv | apply State.leaveLs1_inv)

theorem State.timing_inv (s : State) (p : Nat) (kind : Nat) (num : Nat) (count : Nat) (hs0 : s.Inv n v) :
    (State.timing s p kind num count).Inv n v := by
  unfold State.timing
  with_reducible repeat' (first | assumption | apply State.sendSeq_inv)

theorem State.freezeSeq_inv (s : State) (p : Nat) (id : Nat) (hs0 : s.Inv n v) :
    (State.freezeSeq s p id).Inv n v := by
  unfold State.freezeSeq
  with_reducible repeat' (first | assumption | apply State.sendSeq_inv)

theorem State.notice_inv (s : State) (p : Nat) (code : Nat) (arg : Nat) (hs0 : s.Inv n v) :
    (State.notice s p code arg).Inv n v := by
  unfold State.notice
  with_reducible repeat' (first | assumption | apply State.sendSeq_inv)

theorem State.creditSeq_inv (s : State) (p : Nat) (pool : Nat) (total : Nat) (hs0 : s.Inv n v) :
    (State.creditSeq s p pool total).Inv n v := by
  unfold State.creditSeq
  with_reducible repeat' (first | assumption | apply State.sendSeq_inv)

theorem State.sendStatus_inv (s : State) (p : Nat) (hs0 : s.Inv n v) :
    (State.sendStatus s p).Inv n v := by
  unfold State.sendStatus
  with_reducible repeat' (first | assumption | apply Inv.foldl | apply State.putCols_inv | apply State.emit_inv | intro _)

theorem State.putEach_inv (s : State) (p : Nat) (n0 : Nat) (f : Nat → List Sym) (hs0 : s.Inv n v) :
    (State.putEach s p n0 f).Inv n v := by
  unfold State.putEach
  with_reducible repeat' (first | assumption | apply State.putLanes_inv | apply State.setLp_inv)

theorem State.sendBlocks_inv (s : State) (p : Nat) (train : List Nat) (hs0 : s.Inv n v) :
    (State.sendBlocks s p train).Inv n v := by
  unfold State.sendBlocks
  with_reducible repeat' (first | assumption | apply State.putEach_inv | apply State.setLp_inv)

theorem State.sendPattern_inv (s : State) (p : Nat) (hs0 : s.Inv n v) :
    (State.sendPattern s p).Inv n v := by
  unfold State.sendPattern
  with_reducible repeat' (first | assumption | apply State.putEach_inv | apply State.setLp_inv)

theorem State.train_inv (s : State) (p : Nat) (l : Nat) (cmd : Nat) (arg : Nat) (hs0 : s.Inv n v) :
    (State.train s p l cmd arg).Inv n v := by
  unfold State.train
  with_reducible repeat' (first | assumption | apply State.sendBlocks_inv | apply State.emit_inv)

theorem State.sendBytes_inv (s : State) (p : Nat) (k : Pkt) (b : List Nat) (hs0 : s.Inv n v) :
    (State.sendBytes s p k b).Inv n v := by
  unfold State.sendBytes
  with_reducible
    repeat' (first
      | assumption | apply State.leaveLs1_inv | apply State.putCols_inv
      | apply State.emit_inv | simp only [Inv.mk_eq] | apply InvOf.mix | split)

theorem State.sendPkt_inv (s : State) (p : Nat) (k : Pkt) (hs0 : s.Inv n v) :
    (State.sendPkt s p k).Inv n v := by
  unfold State.sendPkt
  with_reducible repeat' (first | assumption | apply State.sendBytes_inv)

theorem State.hear_inv (s : State) (p : Nat) (ls : List Nat) (rx : List (List Nat)) (hs0 : s.Inv n v) :
    (State.hear s p ls rx).2.Inv n v := by
  unfold State.hear
  with_reducible
    repeat' (first
      | assumption | apply Inv.foldl | apply State.fsat_inv | apply State.setLp_inv
      | apply State.emit_inv | intro _ | (dsimp only) | split)

theorem State.noFreeze_inv (s : State) (p : Nat) (hs0 : s.Inv n v) :
    (State.noFreeze s p).Inv n v := by
  unfold State.noFreeze
  with_reducible repeat' (first | assumption | apply State.setLp_inv)

theorem State.wide_inv (s : State) (p : Nat) (k : Nat) (n0 : Nat) (rx : List (List Nat)) (f : List Nat → State → State)
    (hs0 : s.Inv n v) (hs5 : ∀ y0 y1, y1.Inv n v → (f y0 y1).Inv n v) :
    (State.wide s p k n0 rx f).Inv n v := by
  unfold State.wide
  with_reducible
    repeat' (first
      | assumption | apply hs5 | apply State.hear_inv | apply State.fsat_inv
      | apply State.noFreeze_inv | (dsimp only) | split)

theorem State.noticed_inv (s : State) (p : Nat) (code : Nat) (rx : List (List Nat)) (f : Nat → State → State) (hs0 : s.Inv n v)
    (hs4 : ∀ y0 y1, y1.Inv n v → (f y0 y1).Inv n v) :
    (State.noticed s p code rx f).Inv n v := by
  unfold State.noticed
  with_reducible repeat' (first | assumption | apply hs4 | apply State.wide_inv | intro _ | split)

theorem State.oneLane_inv (s : State) (p : Nat) (l : Nat) (chars : List Nat) (f : Option (List Sym) → State → State)
    (hs0 : s.Inv n v) (hs4 : ∀ y0 y1, y1.Inv n v → (f y0 y1).Inv n v) :
    (State.oneLane s p l chars f).Inv n v := by
  unfold State.oneLane
  with_reducible repeat' (first | assumption | apply hs4 | apply State.hear_inv | split)

/-! Machine/Ports.lean. -/

theorem State.setLaser_inv (s : State) (p : Nat) (on : Bool) (hs0 : s.Inv n v) :
    (State.setLaser s p on).Inv n v := by
  unfold State.setLaser
  with_reducible repeat' (first | assumption | apply State.note_inv | apply State.setLp_inv | split)

theorem State.countPort_inv (s : State) (f : Fld) (arr : Nat) (hs0 : s.Inv n v) :
    (State.countPort s f arr).Inv n v := by
  unfold State.countPort
  with_reducible repeat' (first | assumption | apply State.fsat_inv | split)

theorem State.filterDrop_inv (s : State) (port : Nat) (p : Pkt) (hs0 : s.Inv n v) :
    (State.filterDrop s port p).Inv n v := by
  unfold State.filterDrop
  with_reducible repeat' (first | assumption | apply State.log_inv | apply State.countPort_inv)

theorem State.routeDrop_inv (s : State) (arr : Nat) (p : Pkt) (hs0 : s.Inv n v) :
    (State.routeDrop s arr p).Inv n v := by
  unfold State.routeDrop
  with_reducible repeat' (first | assumption | apply State.log_inv | apply State.countPort_inv)

theorem State.setCredit_inv (s : State) (o : Nat) (pool : Nat) (n0 : Nat) (hs0 : s.Inv n v) :
    (State.setCredit s o pool n0).Inv n v := by
  unfold State.setCredit
  with_reducible repeat' (first | assumption | simp only [Inv.mk_eq] | apply InvOf.mix)

theorem State.takeCredit_inv (s : State) (o : Nat) (vc : Nat) (n0 : Nat) (hs0 : s.Inv n v) :
    (State.takeCredit s o vc n0).2.Inv n v := by
  unfold State.takeCredit
  with_reducible repeat' (first | assumption | apply State.setCredit_inv)

theorem State.freed_inv (s : State) (arr : Nat) (p : Pkt) (hs0 : s.Inv n v) :
    (State.freed s arr p).Inv n v := by
  unfold State.freed
  with_reducible repeat' (first | assumption | apply State.drew_inv | simp only [Inv.mk_eq] | apply InvOf.mix | split)

theorem State.uncross_inv (s : State) (o : Nat) (hs0 : s.Inv n v) :
    (State.uncross s o).Inv n v := by
  unfold State.uncross
  with_reducible repeat' (first | assumption | simp only [Inv.mk_eq] | apply InvOf.mix)

theorem State.grant_inv (s : State) (o : Nat) (vc : Nat) (p : Pkt) (since : Nat) (frees : Nat) (hs0 : s.Inv n v) :
    OptKeeps (State.grant s o vc p since frees) n v := by
  unfold State.grant
  with_reducible
    repeat' (first
      | apply OptKeeps.some | apply OptKeeps.none | assumption | apply State.takeCredit_inv
      | apply State.freed_inv | apply State.sendPkt_inv | simp only [Inv.mk_eq] | apply InvOf.mix | split)

theorem State.wait_inv (s : State) (p : Pkt) (arr : Nat) (since : Nat) (hs0 : s.Inv n v) :
    (State.wait s p arr since).Inv n v := by
  unfold State.wait
  with_reducible repeat' (first | assumption | simp only [Inv.mk_eq] | apply InvOf.mix)

theorem State.branch_inv (s : State) (arr : Nat) (o : Nat) (detour : Bool) (p : Pkt) (asArr : Nat) (since : Nat) (frees : Nat)
    (hs0 : s.Inv n v) :
    (State.branch s arr o detour p asArr since frees).Inv n v := by
  unfold State.branch
  with_reducible
    repeat' (first
      | assumption | apply State.freed_inv | apply State.filterDrop_inv
      | apply State.grant_inv | apply State.wait_inv | apply OptKeeps.getD | split)

theorem State.crossOn_inv (s : State) (o : Nat) (hs0 : s.Inv n v) :
    (State.crossOn s o).Inv n v := by
  unfold State.crossOn
  with_reducible
    repeat' (first
      | assumption | apply State.takeCredit_inv | apply State.uncross_inv
      | apply State.freed_inv | apply State.sendPkt_inv | simp only [Inv.mk_eq] | apply InvOf.mix | split)

theorem State.cutShort_inv (s : State) (c : Crossing) (hs0 : s.Inv n v) :
    (State.cutShort s c).Inv n v := by
  unfold State.cutShort
  with_reducible repeat' (first | assumption | apply State.freed_inv | apply State.sendBytes_inv | apply State.uncross_inv)

theorem State.cutPort_inv (s : State) (o : Nat) (hs0 : s.Inv n v) :
    (State.cutPort s o).Inv n v := by
  unfold State.cutPort
  with_reducible
    repeat' (first
      | assumption | apply Inv.foldl | apply State.freed_inv | apply State.uncross_inv
      | intro _ | simp only [Inv.mk_eq] | apply InvOf.mix)

theorem State.abortOut_inv (s : State) (g o : Nat) (k : Pkt) (i : Nat) (h : s.Inv n v) : (s.abortOut g o k i).Inv n v := by
  induction i generalizing s with
  | zero => exact h
  | succ i ih =>
    unfold State.abortOut
    dsimp only
    exact Inv.ite (Inv.ite h h) (ih _ (State.sendPkt_inv _ _ _ (State.takeCredit_inv _ _ _ _ h)))

theorem State.abortOn_inv (s : State) (o : Nat) (hs0 : s.Inv n v) :
    (State.abortOn s o).Inv n v := by
  unfold State.abortOn
  with_reducible
    repeat' (first
      | assumption | apply Inv.foldl | apply State.abortOut_inv | intro _
      | simp only [Inv.mk_eq] | apply InvOf.mix)

/-! Machine/Timebase.lean. -/

theorem State.hold10ms_inv (s : State) (hs0 : s.Inv n v) :
    (State.hold10ms s).Inv n v := by
  unfold State.hold10ms
  with_reducible repeat' (first | assumption | simp only [Inv.mk_eq] | apply InvOf.mix)

theorem State.runOn_inv (s : State) (n0 : Nat) (hs0 : s.Inv n v) :
    (State.runOn s n0).Inv n v := by
  unfold State.runOn
  with_reducible repeat' (first | assumption | simp only [Inv.mk_eq] | apply InvOf.mix)

theorem State.countOn_inv (s : State) (n0 : Nat) (hs0 : s.Inv n v) :
    (State.countOn s n0).Inv n v := by
  unfold State.countOn
  with_reducible
    repeat' (first
      | assumption | apply State.runOn_inv | apply State.fset_inv | apply State.hold10ms_inv
      | (dsimp only) | split)

theorem State.tick_inv (s : State) (hs0 : s.Inv n v) :
    (State.tick s).Inv n v := by
  unfold State.tick
  with_reducible repeat' (first | assumption | apply State.countOn_inv | simp only [Inv.mk_eq] | apply InvOf.mix | split)

theorem State.redepth_inv (s : State) (hs0 : s.Inv n v) :
    (State.redepth s).Inv n v := by
  unfold State.redepth
  with_reducible repeat' (first | assumption | apply State.fset_inv)

theorem State.acquire_inv (s : State) (hs0 : s.Inv n v) :
    (State.acquire s).Inv n v := by
  unfold State.acquire
  with_reducible
    repeat' (first
      | assumption | apply State.redepth_inv | apply State.setSync_inv
      | simp only [Inv.mk_eq] | apply InvOf.mix)

theorem State.lockSync_inv (s : State) (hs0 : s.Inv n v) :
    (State.lockSync s).Inv n v := by
  unfold State.lockSync
  with_reducible repeat' (first | assumption | apply State.redepth_inv | apply State.setSync_inv)

theorem State.holdover_inv (s : State) (hs0 : s.Inv n v) :
    (State.holdover s).Inv n v := by
  unfold State.holdover
  with_reducible
    repeat' (first
      | assumption | apply State.redepth_inv | apply State.setSync_inv
      | simp only [Inv.mk_eq] | apply InvOf.mix)

theorem State.rootLock_inv (s : State) (hs0 : s.Inv n v) :
    (State.rootLock s).Inv n v := by
  unfold State.rootLock
  with_reducible
    repeat' (first
      | assumption | apply State.fset_inv | apply State.setSync_inv | simp only [Inv.mk_eq]
      | apply InvOf.mix)

theorem timingSyncSendStep_inv (p : Nat) (s : State) (hs1 : s.Inv n v) :
    (timingSyncSendStep p s).Inv n v := by
  unfold timingSyncSendStep
  with_reducible
    repeat' (first
      | assumption | apply State.when_inv | apply State.timing_inv | intro _
      | simp only [Inv.mk_eq] | apply InvOf.mix)

theorem execTimingSyncSend_inv (p : Nat) (s : State) (hs1 : s.Inv n v) :
    Res.Keeps (execTimingSyncSend p s) n v := by
  unfold execTimingSyncSend
  with_reducible repeat' (first | apply Res.Keeps.need | assumption | apply timingSyncSendStep_inv)

theorem State.timed_inv (s : State) (p : Nat) (kind : Nat) (rx : List (List Nat)) (f : Nat → Nat → State → State)
    (hs0 : s.Inv n v) (hs4 : ∀ y0 y1 y2, y2.Inv n v → (f y0 y1 y2).Inv n v) :
    (State.timed s p kind rx f).Inv n v := by
  unfold State.timed
  with_reducible repeat' (first | assumption | apply hs4 | apply State.when_inv | apply State.wide_inv | intro _ | split)

theorem timingSyncStep_inv (p : Nat) (rx : List (List Nat)) (turn : Nat) (s : State) (hs3 : s.Inv n v) :
    (timingSyncStep p rx turn s).Inv n v := by
  unfold timingSyncStep
  with_reducible
    repeat' (first
      | assumption | apply State.timed_inv | apply State.when_inv | apply State.timing_inv
      | intro _ | simp only [Inv.mk_eq] | apply InvOf.mix)

theorem execTimingSync_inv (p : Nat) (rx : List (List Nat)) (turn : Nat) (s : State) (hs3 : s.Inv n v) :
    Res.Keeps (execTimingSync p rx turn s) n v := by
  unfold execTimingSync
  with_reducible repeat' (first | apply Res.Keeps.need | assumption | apply timingSyncStep_inv)

theorem timingReqStep_inv (p : Nat) (rx : List (List Nat)) (s : State) (hs2 : s.Inv n v) :
    (timingReqStep p rx s).Inv n v := by
  unfold timingReqStep
  with_reducible repeat' (first | assumption | apply State.timed_inv | apply State.when_inv | apply State.timing_inv | intro _)

theorem execTimingReq_inv (p : Nat) (rx : List (List Nat)) (s : State) (hs2 : s.Inv n v) :
    Res.Keeps (execTimingReq p rx s) n v := by
  unfold execTimingReq
  with_reducible repeat' (first | apply Res.Keeps.need | assumption | apply timingReqStep_inv)

theorem State.loadCount_inv (s : State) (offset : Int) (hs0 : s.Inv n v) :
    (State.loadCount s offset).Inv n v := by
  unfold State.loadCount
  with_reducible repeat' (first | assumption | apply State.fset_inv | simp only [Inv.mk_eq] | apply InvOf.mix)

theorem State.afterExchange_inv (s : State) (offset : Int) (hs0 : s.Inv n v) :
    (State.afterExchange s offset).Inv n v := by
  unfold State.afterExchange
  with_reducible
    repeat' (first
      | assumption | apply State.acquire_inv | apply State.loadCount_inv
      | apply State.lockSync_inv | simp only [Inv.mk_eq] | apply InvOf.mix | split)

theorem State.exchanged_inv (s : State) (num : Nat) (t4 : Nat) (hs0 : s.Inv n v) :
    (State.exchanged s num t4).Inv n v := by
  unfold State.exchanged
  with_reducible
    repeat' (first
      | assumption | apply State.fset_inv | apply State.afterExchange_inv
      | simp only [Inv.mk_eq] | apply InvOf.mix | split)

theorem timingRespStep_inv (p : Nat) (rx : List (List Nat)) (s : State) (hs2 : s.Inv n v) :
    (timingRespStep p rx s).Inv n v := by
  unfold timingRespStep
  with_reducible repeat' (first | assumption | apply State.timed_inv | apply State.when_inv | apply State.exchanged_inv | intro _)

theorem execTimingResp_inv (p : Nat) (rx : List (List Nat)) (s : State) (hs2 : s.Inv n v) :
    Res.Keeps (execTimingResp p rx s) n v := by
  unfold execTimingResp
  with_reducible repeat' (first | apply Res.Keeps.need | assumption | apply timingRespStep_inv)

theorem execHoldoverEntry_inv (s : State) (hs0 : s.Inv n v) :
    Res.Keeps (execHoldoverEntry s) n v := by
  unfold execHoldoverEntry
  with_reducible repeat' (first | apply Res.Keeps.next | assumption | apply State.when_inv | apply State.holdover_inv)

theorem execHoldoverTimeout_inv (s : State) (hs0 : s.Inv n v) :
    Res.Keeps (execHoldoverTimeout s) n v := by
  unfold execHoldoverTimeout
  with_reducible repeat' (first | apply Res.Keeps.next | assumption | apply State.when_inv | apply State.acquire_inv)

theorem timePacketSendStep_inv (p : Nat) (s : State) (hs1 : s.Inv n v) :
    (timePacketSendStep p s).Inv n v := by
  unfold timePacketSendStep
  with_reducible repeat' (first | assumption | apply State.when_inv | apply State.branch_inv | intro _)

theorem execTimePacketSend_inv (p : Nat) (s : State) (hs1 : s.Inv n v) :
    Res.Keeps (execTimePacketSend p s) n v := by
  unfold execTimePacketSend
  with_reducible repeat' (first | apply Res.Keeps.need | assumption | apply timePacketSendStep_inv)

theorem timeReceiveStep_inv (p : Nat) (k : Pkt) (s : State) (hs2 : s.Inv n v) :
    (timeReceiveStep p k s).Inv n v := by
  unfold timeReceiveStep
  with_reducible
    repeat' (first
      | assumption | apply State.when_inv | apply State.redepth_inv | intro _
      | simp only [Inv.mk_eq] | apply InvOf.mix)

theorem execTimeReceive_inv (p : Nat) (k : Pkt) (s : State) (hs2 : s.Inv n v) :
    Res.Keeps (execTimeReceive p k s) n v := by
  unfold execTimeReceive
  with_reducible repeat' (first | apply Res.Keeps.need | assumption | apply timeReceiveStep_inv)

theorem execDepthTimeout_inv (s : State) (hs0 : s.Inv n v) :
    Res.Keeps (execDepthTimeout s) n v := by
  unfold execDepthTimeout
  with_reducible repeat' (first | apply Res.Keeps.next | assumption | apply State.when_inv | apply State.fset_inv | intro _)

theorem timeCtlEff_inv (v0 : Nat) (s : State) (hs1 : s.Inv n v) :
    (timeCtlEff v0 s).Inv n v := by
  unfold timeCtlEff
  with_reducible
    repeat' (first
      | assumption | apply State.putRW_inv | apply State.redepth_inv
      | apply State.rootLock_inv | apply State.holdover_inv | simp only [Inv.mk_eq] | apply InvOf.mix | split)

theorem timeCtlWriteStep_inv (w : Who) (v0 : Nat) (s : State) (hs2 : s.Inv n v) :
    (timeCtlWriteStep w v0 s).Inv n v := by
  unfold timeCtlWriteStep
  with_reducible repeat' (first | assumption | apply State.when_inv | apply State.regWrite_inv | apply timeCtlEff_inv | intro _)

theorem execTimeCtlWrite_inv (w : Who) (v0 : Nat) (s : State) (hs2 : s.Inv n v) :
    Res.Keeps (execTimeCtlWrite w v0 s) n v := by
  unfold execTimeCtlWrite
  with_reducible repeat' (first | apply Res.Keeps.next | assumption | apply timeCtlWriteStep_inv)

theorem replicaCorrectStep_inv (d : Nat) (s : State) (hs1 : s.Inv n v) :
    (replicaCorrectStep d s).Inv n v := by
  unfold replicaCorrectStep
  with_reducible
    repeat' (first
      | assumption | apply State.when_inv | apply State.drew_inv | intro _
      | simp only [Inv.mk_eq] | apply InvOf.mix)

theorem execReplicaCorrect_inv (d : Nat) (s : State) (hs1 : s.Inv n v) :
    Res.Keeps (execReplicaCorrect d s) n v := by
  unfold execReplicaCorrect
  with_reducible repeat' (first | apply Res.Keeps.need | assumption | apply replicaCorrectStep_inv)

theorem State.setRates_inv (s : State) (m : List (List Nat)) (hs0 : s.Inv n v) :
    (State.setRates s m).Inv n v := by
  unfold State.setRates
  with_reducible repeat' (first | assumption | apply Inv.foldl | apply State.fset_inv | intro _)

theorem State.ratesOff_inv (s : State) (hs0 : s.Inv n v) :
    (State.ratesOff s).Inv n v := by
  unfold State.ratesOff
  with_reducible repeat' (first | assumption | apply Inv.foldl | apply State.fset_inv | intro _)

theorem rateSampleStep_inv (m : List (List Nat)) (s : State) (hs1 : s.Inv n v) :
    (rateSampleStep m s).Inv n v := by
  unfold rateSampleStep
  with_reducible repeat' (first | assumption | apply State.when_inv | apply State.setRates_inv | intro _)

theorem execRateSample_inv (m : List (List Nat)) (s : State) (hs1 : s.Inv n v) :
    Res.Keeps (execRateSample m s) n v := by
  unfold execRateSample
  with_reducible repeat' (first | apply Res.Keeps.next | assumption | apply rateSampleStep_inv)

theorem State.arm_inv (s : State) (t : Nat) (kind : Nat) (ring : Nat) (seq : Nat) (hs0 : s.Inv n v) :
    (State.arm s t kind ring seq).Inv n v := by
  unfold State.arm
  with_reducible repeat' (first | assumption | apply State.fset_inv | simp only [Inv.mk_eq] | apply InvOf.mix | split)

theorem gctlOwnerWriteStep_inv (w : Who) (v0 : Nat) (s : State) (hs2 : s.Inv n v) :
    (gctlOwnerWriteStep w v0 s).Inv n v := by
  unfold gctlOwnerWriteStep
  with_reducible
    repeat' (first
      | assumption | apply State.when_inv | apply State.putRW_inv | apply State.clrW1C_inv
      | apply State.ownerReject_inv | apply State.bar_inv | intro _ | split)

theorem execGctlOwnerWrite_inv (w : Who) (v0 : Nat) (s : State) (hs2 : s.Inv n v) :
    Res.Keeps (execGctlOwnerWrite w v0 s) n v := by
  unfold execGctlOwnerWrite
  with_reducible repeat' (first | apply Res.Keeps.next | assumption | apply gctlOwnerWriteStep_inv)

/-! Machine/FabricOps.lean. -/

theorem State.hubSend_inv (s : State) (p : Pkt) (hs0 : s.Inv n v) :
    (State.hubSend s p).Inv n v := by
  unfold State.hubSend
  with_reducible repeat' (first | assumption | apply State.inject_inv | simp only [Inv.mk_eq] | apply InvOf.mix | split)

theorem State.setStream_inv (s : State) (t : SStream) (hs0 : s.Inv n v) :
    (State.setStream s t).Inv n v := by
  unfold State.setStream
  with_reducible repeat' (first | assumption | simp only [Inv.mk_eq] | apply InvOf.mix)

theorem State.setXfer_inv (s : State) (x : Xfer) (hs0 : s.Inv n v) :
    (State.setXfer s x).Inv n v := by
  unfold State.setXfer
  with_reducible repeat' (first | assumption | simp only [Inv.mk_eq] | apply InvOf.mix)

theorem State.dropXfers_inv (s : State) (f : Xfer → Bool) (hs0 : s.Inv n v) :
    (State.dropXfers s f).Inv n v := by
  unfold State.dropXfers
  with_reducible repeat' (first | assumption | simp only [Inv.mk_eq] | apply InvOf.mix)

theorem State.begin_inv (s : State) (x : Xfer) (hs0 : s.Inv n v) :
    OptKeeps (State.begin s x) n v := by
  unfold State.begin
  with_reducible
    repeat' (first
      | apply OptKeeps.some | apply OptKeeps.none | assumption | apply State.setStream_inv
      | simp only [Inv.mk_eq] | apply InvOf.mix | split)

theorem State.beginHub_inv (s : State) (x : Xfer) (hs0 : s.Inv n v) :
    (State.beginHub s x).Inv n v := by
  unfold State.beginHub
  with_reducible repeat' (first | assumption | apply State.begin_inv | apply OptKeeps.getD)

theorem State.srcBytes_inv (s : State) (x : Xfer) (off : Nat) (len : Nat) (hs0 : s.Inv n v) :
    (State.srcBytes s x off len).st.Inv n v := by
  unfold State.srcBytes
  with_reducible repeat' (first | assumption | apply State.memRead_inv | split)

theorem State.srcRead_inv (s : State) (x : Xfer) (off : Nat) (len : Nat) (hs0 : s.Inv n v) :
    (State.srcRead s x off len).st.Inv n v := by
  unfold State.srcRead
  with_reducible repeat' (first | assumption | apply State.srcBytes_inv)

theorem State.sendNext_inv (s : State) (x : Xfer) (t : SStream) (n0 : Nat) (b : List Byte) (hs0 : s.Inv n v) :
    (State.sendNext s x t n0 b).Inv n v := by
  unfold State.sendNext
  with_reducible repeat' (first | assumption | apply State.setStream_inv | apply State.hubSend_inv | apply State.setXfer_inv)

theorem State.stampVoids_inv (s : State) (id : Nat) (hs0 : s.Inv n v) :
    (State.stampVoids s id).Inv n v := by
  unfold State.stampVoids
  with_reducible repeat' (first | assumption | simp only [Inv.mk_eq] | apply InvOf.mix)

theorem State.voidRest_inv (s : State) (x : Xfer) (hs0 : s.Inv n v) :
    (State.voidRest s x).Inv n v := by
  unfold State.voidRest
  with_reducible
    repeat' (first
      | assumption | apply State.setStream_inv | apply State.hubSend_inv
      | apply State.stampVoids_inv | apply State.setXfer_inv | (dsimp only) | split)

theorem State.abandon_inv (s : State) (x : Xfer) (hs0 : s.Inv n v) :
    (State.abandon s x).Inv n v := by
  unfold State.abandon
  with_reducible
    repeat' (first
      | assumption | apply Inv.foldl | apply State.hubSend_inv | apply State.setStream_inv
      | apply State.dropXfers_inv | apply State.voidRest_inv | apply State.stampVoids_inv | apply State.setXfer_inv | intro _
      | (dsimp only) | split)

theorem State.abandonAll_inv (s : State) (f : Xfer → Bool) (hs0 : s.Inv n v) :
    (State.abandonAll s f).Inv n v := by
  unfold State.abandonAll
  with_reducible repeat' (first | assumption | apply Inv.foldl | apply State.abandon_inv)

theorem State.release_inv (s : State) (t : SStream) (base : Nat) (bits : Nat) (midx : Nat) (hs0 : s.Inv n v) :
    (State.release s t base bits midx).Inv n v := by
  unfold State.release
  with_reducible
    repeat' (first
      | assumption | apply State.setStream_inv | apply State.dropXfers_inv
      | simp only [Inv.mk_eq] | apply InvOf.mix)

theorem State.setDstream_inv (s : State) (t : DStream) (hs0 : s.Inv n v) :
    (State.setDstream s t).Inv n v := by
  unfold State.setDstream
  with_reducible repeat' (first | assumption | simp only [Inv.mk_eq] | apply InvOf.mix)

theorem State.sendAck_inv (s : State) (p : Pkt) (t : DStream) (dup : Bool) (hs0 : s.Inv n v) :
    (State.sendAck s p t dup).Inv n v := by
  unfold State.sendAck
  with_reducible repeat' (first | assumption | apply State.hubSend_inv)

theorem State.sendNack_inv (s : State) (p : Pkt) (code : Nat) (hs0 : s.Inv n v) :
    (State.sendNack s p code).Inv n v := by
  unfold State.sendNack
  with_reducible repeat' (first | assumption | apply State.hubSend_inv)

theorem State.dupPkt_inv (s : State) (p : Pkt) (t : DStream) (hs0 : s.Inv n v) :
    (State.dupPkt s p t).Inv n v := by
  unfold State.dupPkt
  with_reducible
    repeat' (first
      | assumption | apply State.sendAck_inv | apply State.setDstream_inv
      | apply State.drew_inv | apply State.log_inv | apply State.fset_inv | (dsimp only) | split)

theorem State.finish_inv (s : State) (p : Pkt) (t : DStream) (code : Nat) (hs0 : s.Inv n v) :
    (State.finish s p t code).Inv n v := by
  unfold State.finish
  with_reducible
    repeat' (first
      | assumption | apply State.setDstream_inv | apply State.sendAck_inv
      | apply State.sendNack_inv | split)

theorem State.arrive_inv (s : State) (p : Pkt) (k : DStream → State → State) (hs0 : s.Inv n v)
    (hs2 : ∀ y0 y1, y1.Inv n v → (k y0 y1).Inv n v) :
    (State.arrive s p k).Inv n v := by
  unfold State.arrive
  with_reducible
    repeat' (first
      | assumption | apply hs2 | apply State.sendNack_inv | apply State.dupPkt_inv
      | apply State.finish_inv | apply State.log_inv | split)

theorem State.setMsg_inv (s : State) (m : Msg) (hs0 : s.Inv n v) :
    (State.setMsg s m).Inv n v := by
  unfold State.setMsg
  with_reducible repeat' (first | assumption | simp only [Inv.mk_eq] | apply InvOf.mix)

theorem State.dropMsg_inv (s : State) (m : Msg) (hs0 : s.Inv n v) :
    (State.dropMsg s m).Inv n v := by
  unfold State.dropMsg
  with_reducible repeat' (first | assumption | simp only [Inv.mk_eq] | apply InvOf.mix)

theorem State.closeMsg_inv (s : State) (m : Msg) (hs0 : s.Inv n v) :
    (State.closeMsg s m).Inv n v := by
  unfold State.closeMsg
  with_reducible repeat' (first | assumption | apply State.dropMsg_inv | apply State.fset_inv | split)

theorem State.account_inv (s : State) (p : Pkt) (m : Msg) (n0 : Nat) (ok : Bool) (hs0 : s.Inv n v) :
    (State.account s p m n0 ok).st.Inv n v := by
  unfold State.account
  with_reducible
    repeat' (first
      | assumption | apply State.setMsg_inv | apply State.closeMsg_inv | apply State.log_inv
      | (dsimp only) | split)

theorem State.settle_inv (p : Pkt) (t : DStream) (a : Accounted) (code : Nat) (after : Msg → State → State) (hs2 : a.st.Inv n v)
    (hs4 : ∀ y0 y1, y1.Inv n v → (after y0 y1).Inv n v) :
    (State.settle p t a code after).Inv n v := by
  unfold State.settle
  with_reducible repeat' (first | assumption | apply hs4 | apply State.finish_inv | split)

theorem State.withMsg_inv (s : State) (p : Pkt) (t : DStream) (lost : Bool) (k : Msg → State → MemRes)
    (after : Msg → State → State) (hs0 : s.Inv n v) (hs4 : ∀ y0 y1, y1.Inv n v → (k y0 y1).st.Inv n v)
    (hs5 : ∀ y0 y1, y1.Inv n v → (after y0 y1).Inv n v) :
    (State.withMsg s p t lost k after).Inv n v := by
  unfold State.withMsg
  with_reducible
    repeat' (first
      | assumption | apply hs4 | apply State.finish_inv | apply State.sendNack_inv
      | apply State.settle_inv | apply State.account_inv | (dsimp only) | split)

/-! Machine/Dump.lean. -/

theorem State.trigger_inv (s : State) (trig : Nat) (sites : List Nat) (smear : Bool) (graph : List Byte) (hs0 : s.Inv n v) :
    (State.trigger s trig sites smear graph).Inv n v := by
  unfold State.trigger
  with_reducible
    repeat' (first
      | assumption | apply State.fsat_inv | apply State.fset_inv | simp only [Inv.mk_eq]
      | apply InvOf.mix | split)

/-! Machine/Context.lean. -/

theorem State.dropWork_inv (s : State) (ring : Nat) (seq : Nat) (hs0 : s.Inv n v) :
    (State.dropWork s ring seq).Inv n v := by
  unfold State.dropWork
  with_reducible repeat' (first | assumption | simp only [Inv.mk_eq] | apply InvOf.mix)

theorem State.complete_inv (s : State) (c : Cmd) (status : Nat) (hs0 : s.Inv n v) :
    (State.complete s c status).Inv n v := by
  unfold State.complete
  with_reducible
    repeat' (first
      | assumption | apply State.rawWrite_inv | apply State.fset_inv
      | apply State.dropWork_inv | apply State.msix_inv | simp only [Inv.mk_eq] | apply InvOf.mix | split)

theorem State.qresp_inv (s : State) (smod : Nat) (sep : Nat) (dep : Nat) (part : Nat) (world : Nat) (body : List Byte)
    (hs0 : s.Inv n v) :
    (State.qresp s smod sep dep part world body).Inv n v := by
  unfold State.qresp
  with_reducible repeat' (first | assumption | apply Inv.foldl | apply State.beginHub_inv | intro _)

theorem State.qrespErr_inv (s : State) (q : QHeld) (status : Nat) (hs0 : s.Inv n v) :
    (State.qrespErr s q status).Inv n v := by
  unfold State.qrespErr
  with_reducible repeat' (first | assumption | apply State.qresp_inv)

theorem State.endService_inv (s : State) (ctx : Nat) (hs0 : s.Inv n v) :
    (State.endService s ctx).Inv n v := by
  unfold State.endService
  with_reducible
    repeat' (first
      | assumption | apply Inv.foldl | apply State.qrespErr_inv | intro _
      | simp only [Inv.mk_eq] | apply InvOf.mix)

theorem State.spreadAbort_inv (s : State) (g : Nat) (k : Pkt) (from_ : Option Nat) (hs0 : s.Inv n v) :
    (State.spreadAbort s g k from_).Inv n v := by
  unfold State.spreadAbort
  with_reducible repeat' (first | assumption | apply Inv.foldl | apply State.abortOut_inv | intro _ | split)

theorem State.recordAbort_inv (s : State) (g : Nat) (origin : Nat) (anum : Nat) (hs0 : s.Inv n v) :
    (State.recordAbort s g origin anum).Inv n v := by
  unfold State.recordAbort
  with_reducible repeat' (first | assumption | simp only [Inv.mk_eq] | apply InvOf.mix)

theorem State.sendAbort_inv (s : State) (g : Nat) (part : Nat) (world : Nat) (code : Nat) (hs0 : s.Inv n v) :
    (State.sendAbort s g part world code).Inv n v := by
  unfold State.sendAbort
  with_reducible
    repeat' (first
      | assumption | apply State.spreadAbort_inv | apply State.recordAbort_inv
      | simp only [Inv.mk_eq] | apply InvOf.mix)

theorem State.undefRest_inv (s : State) (i : Inst) (hs0 : s.Inv n v) :
    (State.undefRest s i).Inv n v := by
  unfold State.undefRest
  with_reducible repeat' (first | assumption | apply State.undefine_inv | split)

theorem State.undefDst_inv (s : State) (i : Inst) (abort : Bool) (hs0 : s.Inv n v) :
    (State.undefDst s i abort).Inv n v := by
  unfold State.undefDst
  with_reducible repeat' (first | assumption | apply Inv.foldl | apply State.undefine_inv | intro _ | split)

theorem State.endInst_inv (s : State) (i : Inst) (abort : Bool) (hs0 : s.Inv n v) :
    (State.endInst s i abort).Inv n v := by
  unfold State.endInst
  with_reducible
    repeat' (first
      | assumption | apply State.undefDst_inv | apply State.abandonAll_inv
      | simp only [Inv.mk_eq] | apply InvOf.mix)

theorem State.stopFlight_inv (s : State) (f : Flight) (hs0 : s.Inv n v) :
    (State.stopFlight s f).Inv n v := by
  unfold State.stopFlight
  with_reducible
    repeat' (first
      | assumption | apply Inv.foldl | apply State.drew_inv | intro _
      | simp only [Inv.mk_eq] | apply InvOf.mix | apply InvOf.write_cs | split)

theorem State.stopEngines_inv (s : State) (ctx : Nat) (hs0 : s.Inv n v) :
    (State.stopEngines s ctx).Inv n v := by
  unfold State.stopEngines
  with_reducible repeat' (first | assumption | apply Inv.foldl | apply State.stopFlight_inv | intro _)

theorem State.killWork_inv (s : State) (ctx : Nat) (hs0 : s.Inv n v) :
    (State.killWork s ctx).Inv n v := by
  unfold State.killWork
  with_reducible repeat' (first | assumption | simp only [Inv.mk_eq] | apply InvOf.mix)

theorem State.dropQueries_inv (s : State) (ctx : Nat) (hs0 : s.Inv n v) :
    (State.dropQueries s ctx).Inv n v := by
  unfold State.dropQueries
  with_reducible repeat' (first | assumption | simp only [Inv.mk_eq] | apply InvOf.mix)

theorem State.beginReset_inv (s : State) (ctx : Nat) (code : Nat) (data : Nat) (hs0 : s.Inv n v) :
    (State.beginReset s ctx code data).Inv n v := by
  unfold State.beginReset
  with_reducible
    repeat' (first
      | assumption | apply Inv.foldl | apply State.fset_inv | apply State.logX_inv
      | apply State.complete_inv | apply State.dropQueries_inv | apply State.killWork_inv | apply State.stopEngines_inv
      | apply State.endInst_inv | apply State.abandonAll_inv | apply State.endService_inv | apply State.sendAbort_inv | intro _
      | simp only [Inv.mk_eq] | apply InvOf.mix | split)

theorem State.resetOnce_inv (s : State) (ctx : Nat) (code : Nat) (data : Nat) (hs0 : s.Inv n v) :
    (State.resetOnce s ctx code data).Inv n v := by
  unfold State.resetOnce
  with_reducible
    repeat' (first
      | assumption | apply State.beginReset_inv | apply State.logX_inv
      | simp only [Inv.mk_eq] | apply InvOf.mix | split)

theorem State.withdraw_inv (s : State) (code : Nat) (hs0 : s.Inv n v) :
    (State.withdraw s code).Inv n v := by
  unfold State.withdraw
  with_reducible
    repeat' (first
      | assumption | apply Inv.foldl | apply State.logC_inv | apply State.fset_inv
      | apply State.resetOnce_inv | apply State.trigger_inv | intro _ | split)

theorem State.escalate_inv (s : State) (hs0 : s.Inv n v) :
    (State.escalate s).Inv n v := by
  unfold State.escalate
  with_reducible
    repeat' (first
      | assumption | apply State.fset_inv | apply State.withdraw_inv | simp only [Inv.mk_eq]
      | apply InvOf.mix | split)

theorem State.ctxReset_inv (s : State) (ctx : Nat) (code : Nat) (data : Nat) (hs0 : s.Inv n v) :
    (State.ctxReset s ctx code data).Inv n v := by
  unfold State.ctxReset
  with_reducible repeat' (first | assumption | apply State.resetOnce_inv | apply State.escalate_inv | split)

theorem State.resetMany_inv (s : State) (ctxs : List Nat) (code : Nat) (data : Nat → Nat) (hs0 : s.Inv n v) :
    (State.resetMany s ctxs code data).Inv n v := by
  unfold State.resetMany
  with_reducible
    repeat' (first
      | assumption | apply Inv.foldl | apply State.resetOnce_inv | apply State.escalate_inv
      | intro _ | split)

theorem State.failInst_inv (s : State) (i : Inst) (code : Nat) (data : Nat) (hs0 : s.Inv n v) :
    (State.failInst s i code data).Inv n v := by
  unfold State.failInst
  with_reducible repeat' (first | assumption | apply State.ctxReset_inv)

/-! Machine/Router.lean. -/

theorem State.routerNack_inv (s : State) (p : Pkt) (code : Nat) (hs0 : s.Inv n v) :
    (State.routerNack s p code).Inv n v := by
  unfold State.routerNack
  with_reducible repeat' (first | assumption | apply State.hubSend_inv | split)

theorem State.routeUni_inv (s : State) (arr : Nat) (p : Pkt) (since : Nat) (hs0 : s.Inv n v) :
    (State.routeUni s arr p since).Inv n v := by
  unfold State.routeUni
  with_reducible
    repeat' (first
      | assumption | apply State.emit_inv | apply State.freed_inv
      | apply State.routerNack_inv | apply State.routeDrop_inv | apply State.branch_inv | split)

theorem State.routeMulti_inv (s : State) (arr : Nat) (p : Pkt) (hs0 : s.Inv n v) :
    (State.routeMulti s arr p).Inv n v := by
  unfold State.routeMulti
  with_reducible
    repeat' (first
      | assumption | apply Inv.foldl | apply State.freed_inv | apply State.branch_inv
      | apply State.routeDrop_inv | apply State.emit_inv | intro _ | (dsimp only) | split)

theorem State.routeOne_inv (s : State) (arr : Nat) (p : Pkt) (hs0 : s.Inv n v) :
    (State.routeOne s arr p).Inv n v := by
  unfold State.routeOne
  with_reducible
    repeat' (first
      | assumption | apply State.emit_inv | apply State.freed_inv
      | apply State.routeMulti_inv | apply State.routeUni_inv | (dsimp only) | split)

theorem State.routeIn_inv (s : State) (arr : Nat) (p : Pkt) (hs0 : s.Inv n v) :
    (State.routeIn s arr p).Inv n v := by
  unfold State.routeIn
  with_reducible
    repeat' (first
      | assumption | apply State.countPort_inv | apply State.freed_inv
      | apply State.filterDrop_inv | apply State.routeOne_inv | (dsimp only) | split)

theorem State.routeAgain_inv (s : State) (e : Pkt × Nat × Nat) (hs0 : s.Inv n v) :
    (State.routeAgain s e).Inv n v := by
  unfold State.routeAgain
  with_reducible repeat' (first | assumption | apply State.branch_inv | apply State.routeUni_inv | (dsimp only) | split)

theorem State.routeWaiting_inv (s : State) (hs0 : s.Inv n v) :
    (State.routeWaiting s).Inv n v := by
  unfold State.routeWaiting
  with_reducible
    repeat' (first
      | assumption | apply Inv.foldl | apply State.routeAgain_inv | simp only [Inv.mk_eq]
      | apply InvOf.mix)

theorem State.creditCame_inv (s : State) (o : Nat) (hs0 : s.Inv n v) :
    (State.creditCame s o).Inv n v := by
  unfold State.creditCame
  with_reducible repeat' (first | assumption | apply State.routeWaiting_inv | apply State.abortOn_inv | apply State.crossOn_inv)

theorem State.setDepths_inv (s : State) (q : List Nat) (hs0 : s.Inv n v) :
    (State.setDepths s q).Inv n v := by
  unfold State.setDepths
  with_reducible repeat' (first | assumption | simp only [Inv.mk_eq] | apply InvOf.mix)

theorem headerWaitTimeoutStep_inv (n0 : Nat) (s : State) (hs1 : s.Inv n v) :
    (headerWaitTimeoutStep n0 s).Inv n v := by
  unfold headerWaitTimeoutStep
  with_reducible
    repeat' (first
      | assumption | apply State.when_inv | apply State.countPort_inv
      | apply State.freed_inv | apply State.routeWaiting_inv | apply State.abortOn_inv | apply State.cutShort_inv | intro _
      | simp only [Inv.mk_eq] | apply InvOf.mix | split)

theorem execHeaderWaitTimeout_inv (n0 : Nat) (s : State) (hs1 : s.Inv n v) :
    Res.Keeps (execHeaderWaitTimeout n0 s) n v := by
  unfold execHeaderWaitTimeout
  with_reducible repeat' (first | apply Res.Keeps.next | assumption | apply headerWaitTimeoutStep_inv)

theorem State.defaultTables_inv (s : State) (hs0 : s.Inv n v) :
    (State.defaultTables s).Inv n v := by
  unfold State.defaultTables
  with_reducible repeat' (first | assumption | apply Inv.foldl | apply State.fset_inv | apply State.fput_inv | intro _)

theorem State.faultRack_inv (s : State) (v0 : Nat) (r : Nat) (hs0 : s.Inv n v) :
    (State.faultRack s v0 r).Inv n v := by
  unfold State.faultRack
  with_reducible repeat' (first | assumption | apply State.fset_inv | apply State.fput_inv)

theorem State.reshape_inv (s : State) (hs0 : s.Inv n v) :
    (State.reshape s).Inv n v := by
  unfold State.reshape
  with_reducible
    repeat' (first
      | assumption | apply Inv.foldl | apply State.fset_inv | apply State.drew_inv
      | apply State.faultRack_inv | intro _ | split)

theorem State.darken_inv (s : State) (hs0 : s.Inv n v) :
    (State.darken s).Inv n v := by
  unfold State.darken
  with_reducible repeat' (first | assumption | apply Inv.foldl | apply State.setLaser_inv | intro _ | split)

theorem fabCtlEff_inv (v0 : Nat) (s : State) (hs1 : s.Inv n v) :
    (fabCtlEff v0 s).Inv n v := by
  unfold fabCtlEff
  with_reducible
    repeat' (first
      | assumption | apply State.darken_inv | apply State.putRW_inv
      | apply State.defaultTables_inv | (dsimp only) | split)

theorem fabCtlWriteStep_inv (w : Who) (v0 : Nat) (s : State) (hs2 : s.Inv n v) :
    (fabCtlWriteStep w v0 s).Inv n v := by
  unfold fabCtlWriteStep
  with_reducible repeat' (first | assumption | apply State.when_inv | apply State.regWrite_inv | apply fabCtlEff_inv | intro _)

theorem execFabCtlWrite_inv (w : Who) (v0 : Nat) (s : State) (hs2 : s.Inv n v) :
    Res.Keeps (execFabCtlWrite w v0 s) n v := by
  unfold execFabCtlWrite
  with_reducible repeat' (first | apply Res.Keeps.next | assumption | apply fabCtlWriteStep_inv)

/-! Machine/LaneOps.lean. -/

theorem State.viewCheck_inv (s : State) (p : Nat) (hs0 : s.Inv n v) :
    (State.viewCheck s p).Inv n v := by
  unfold State.viewCheck
  with_reducible repeat' (first | assumption | apply State.fset_inv | simp only [Inv.mk_eq] | apply InvOf.mix | split)

theorem State.setStage_inv (s : State) (p : Nat) (v0 : Nat) (hs0 : s.Inv n v) :
    (State.setStage s p v0).Inv n v := by
  unfold State.setStage
  with_reducible repeat' (first | assumption | apply State.viewCheck_inv | apply State.fset_inv)

theorem State.enter_inv (s : State) (p : Nat) (v0 : Nat) (hs0 : s.Inv n v) :
    (State.enter s p v0).Inv n v := by
  unfold State.enter
  with_reducible repeat' (first | assumption | apply State.setStage_inv | apply State.sendBlocks_inv | split)

theorem State.floodNotice_inv (s : State) (hs0 : s.Inv n v) :
    (State.floodNotice s).Inv n v := by
  unfold State.floodNotice
  with_reducible repeat' (first | assumption | apply Inv.foldl | apply State.beginHub_inv | apply State.drew_inv | intro _)

theorem State.portService_inv (s : State) (p : Nat) (hs0 : s.Inv n v) :
    (State.portService s p).Inv n v := by
  unfold State.portService
  with_reducible
    repeat' (first
      | assumption | apply State.fput_inv | apply State.reshape_inv
      | apply State.floodNotice_inv | (dsimp only) | split)

theorem State.linkUp_inv (s : State) (p : Nat) (up : Bool) (hs0 : s.Inv n v) :
    (State.linkUp s p up).Inv n v := by
  unfold State.linkUp
  with_reducible
    repeat' (first
      | assumption | apply State.cutPort_inv | apply State.portService_inv
      | apply State.viewCheck_inv | apply State.fput_inv | split)

theorem State.fullCredit_inv (s : State) (p : Nat) (hs0 : s.Inv n v) :
    (State.fullCredit s p).Inv n v := by
  unfold State.fullCredit
  with_reducible
    repeat' (first
      | assumption | apply Inv.foldl | apply State.setCredit_inv | intro _
      | simp only [Inv.mk_eq] | apply InvOf.mix)

theorem State.retain_inv (s : State) (p : Nat) (hs0 : s.Inv n v) :
    (State.retain s p).Inv n v := by
  unfold State.retain
  with_reducible repeat' (first | assumption | apply State.fset_inv | apply State.setLp_inv)

theorem State.restore_inv (s : State) (p : Nat) (r : Retained) (hs0 : s.Inv n v) :
    (State.restore s p r).Inv n v := by
  unfold State.restore
  with_reducible repeat' (first | assumption | apply Inv.foldl | apply State.setLp_inv | apply State.fset_inv | intro _)

theorem State.setLogical_inv (s : State) (p : Nat) (m : Nat) (hs0 : s.Inv n v) :
    (State.setLogical s p m).Inv n v := by
  unfold State.setLogical
  with_reducible repeat' (first | assumption | apply Inv.foldl | apply State.fset_inv | intro _)

theorem State.ask_inv (s : State) (p : Nat) (code : Nat) (arg : Nat) (hs0 : s.Inv n v) :
    (State.ask s p code arg).Inv n v := by
  unfold State.ask
  with_reducible repeat' (first | assumption | apply State.notice_inv | apply State.setLp_inv)

theorem State.answered_inv (s : State) (p : Nat) (codes : List Nat) (hs0 : s.Inv n v) :
    (State.answered s p codes).Inv n v := by
  unfold State.answered
  with_reducible repeat' (first | assumption | apply State.setLp_inv)

theorem State.askMap_inv (s : State) (p : Nat) (m : Nat) (hs0 : s.Inv n v) :
    (State.askMap s p m).Inv n v := by
  unfold State.askMap
  with_reducible repeat' (first | assumption | apply State.ask_inv | apply State.setLp_inv)

theorem State.tryReady_inv (s : State) (p : Nat) (hs0 : s.Inv n v) :
    (State.tryReady s p).Inv n v := by
  unfold State.tryReady
  with_reducible
    repeat' (first
      | assumption | apply State.fset_inv | apply State.setStage_inv
      | apply State.fullCredit_inv | apply State.setLp_inv | apply State.linkUp_inv | apply State.retain_inv
      | apply State.ask_inv | (dsimp only) | split)

theorem State.trainStart_inv (s : State) (p : Nat) (useRet : Bool) (gate : Bool) (hs0 : s.Inv n v) :
    (State.trainStart s p useRet gate).Inv n v := by
  unfold State.trainStart
  with_reducible
    repeat' (first
      | assumption | apply Inv.foldl | apply State.linkUp_inv | apply State.setLp_inv
      | apply State.restore_inv | apply State.fput_inv | apply State.fset_inv | apply State.enter_inv | apply State.setLaser_inv
      | intro _ | split)

theorem State.trainFail_inv (s : State) (p : Nat) (hs0 : s.Inv n v) :
    (State.trainFail s p).Inv n v := by
  unfold State.trainFail
  with_reducible repeat' (first | assumption | apply State.fset_inv | apply State.setStage_inv)

theorem State.fallBack_inv (s : State) (p : Nat) (hs0 : s.Inv n v) :
    (State.fallBack s p).Inv n v := by
  unfold State.fallBack
  with_reducible repeat' (first | assumption | apply State.fset_inv | apply State.setLp_inv)

theorem State.trainAgain_inv (s : State) (p : Nat) (hs0 : s.Inv n v) :
    (State.trainAgain s p).Inv n v := by
  unfold State.trainAgain
  with_reducible repeat' (first | assumption | apply State.trainStart_inv)

theorem State.laneOut_inv (s : State) (p : Nat) (l : Nat) (code : Nat) (hs0 : s.Inv n v) :
    (State.laneOut s p l code).Inv n v := by
  unfold State.laneOut
  with_reducible
    repeat' (first
      | assumption | apply State.log_inv | apply State.setLp_inv | apply State.fallBack_inv
      | (dsimp only) | split)

theorem State.alignDone_inv (s : State) (p : Nat) (hs0 : s.Inv n v) :
    (State.alignDone s p).Inv n v := by
  unfold State.alignDone
  with_reducible
    repeat' (first
      | assumption | apply State.trainFail_inv | apply State.enter_inv
      | apply State.setLp_inv | (dsimp only) | split)

theorem State.request_inv (s : State) (p : Nat) (l : Nat) (cmd : Nat) (arg : Nat) (hs0 : s.Inv n v) :
    (State.request s p l cmd arg).Inv n v := by
  unfold State.request
  with_reducible repeat' (first | assumption | apply State.train_inv | apply State.setLp_inv)

theorem State.equalise_inv (s : State) (p : Nat) (hs0 : s.Inv n v) :
    (State.equalise s p).Inv n v := by
  unfold State.equalise
  with_reducible
    repeat' (first
      | assumption | apply Inv.foldl | apply State.fset_inv | apply State.enter_inv
      | apply State.request_inv | intro _)

theorem State.equalised_inv (s : State) (p : Nat) (hs0 : s.Inv n v) :
    (State.equalised s p).Inv n v := by
  unfold State.equalised
  with_reducible repeat' (first | assumption | apply State.trainFail_inv | apply State.setStage_inv | split)

theorem State.enterGate_inv (s : State) (p : Nat) (hs0 : s.Inv n v) :
    (State.enterGate s p).Inv n v := by
  unfold State.enterGate
  with_reducible repeat' (first | assumption | apply Inv.foldl | apply State.note_inv | apply State.setStage_inv | intro _)

theorem State.afterKeys_inv (s : State) (p : Nat) (hs0 : s.Inv n v) :
    (State.afterKeys s p).Inv n v := by
  unfold State.afterKeys
  with_reducible
    repeat' (first
      | assumption | apply State.enterGate_inv | apply State.trainFail_inv
      | apply State.askMap_inv | (dsimp only) | split)

theorem State.laneFail_inv (s : State) (p : Nat) (l : Nat) (reading : Nat) (hs0 : s.Inv n v) :
    (State.laneFail s p l reading).Inv n v := by
  unfold State.laneFail
  with_reducible
    repeat' (first
      | assumption | apply State.log_inv | apply State.fset_inv | apply State.logC_inv
      | apply State.trainFail_inv | apply State.linkUp_inv | apply State.askMap_inv | (dsimp only) | split)

theorem State.newRxMap_inv (s : State) (p : Nat) (m : Nat) (hs0 : s.Inv n v) :
    (State.newRxMap s p m).Inv n v := by
  unfold State.newRxMap
  with_reducible
    repeat' (first
      | assumption | apply State.setLogical_inv | apply State.fset_inv
      | apply State.answered_inv | apply State.setLp_inv | apply State.logC_inv | apply State.log_inv | apply State.retain_inv
      | apply State.tryReady_inv | (dsimp only) | split)

theorem State.newTxMap_inv (s : State) (p : Nat) (m : Nat) (hs0 : s.Inv n v) :
    (State.newTxMap s p m).Inv n v := by
  unfold State.newTxMap
  with_reducible
    repeat' (first
      | assumption | apply State.fset_inv | apply State.notice_inv | apply State.setLp_inv
      | apply State.retain_inv | apply State.tryReady_inv | (dsimp only) | split)

theorem State.enterLs2_inv (s : State) (p : Nat) (hs0 : s.Inv n v) :
    (State.enterLs2 s p).Inv n v := by
  unfold State.enterLs2
  with_reducible
    repeat' (first
      | assumption | apply State.answered_inv | apply State.setLaser_inv
      | apply State.fset_inv | apply State.setStage_inv | apply State.linkUp_inv)

theorem State.leaveLs2_inv (s : State) (p : Nat) (hs0 : s.Inv n v) :
    (State.leaveLs2 s p).Inv n v := by
  unfold State.leaveLs2
  with_reducible repeat' (first | assumption | apply State.trainStart_inv | split)

/-! Machine/Links.lean. -/

theorem State.sign_inv (s : State) (msg : List Byte) (hs0 : s.Inv n v) :
    PairKeeps (State.sign s msg) n v := by
  unfold State.sign
  with_reducible
    repeat' (first
      | apply PairKeeps.some | apply PairKeeps.none | assumption | apply State.fset_inv
      | apply State.logC_inv | (dsimp only) | split)

theorem State.linkFail_inv (s : State) (p : Nat) (hs0 : s.Inv n v) :
    (State.linkFail s p).Inv n v := by
  unfold State.linkFail
  with_reducible repeat' (first | assumption | apply State.logC_inv | apply State.trainFail_inv | apply State.setLp_inv)

theorem State.keysMsg_inv (s : State) (p : Nat) (step : Nat) (b : List Byte) (hs0 : s.Inv n v) :
    (State.keysMsg s p step b).Inv n v := by
  unfold State.keysMsg
  with_reducible repeat' (first | assumption | apply Inv.foldl | apply State.sendPkt_inv | apply State.emit_inv | intro _)

theorem State.keysBegin_inv (s : State) (p : Nat) (hs0 : s.Inv n v) :
    (State.keysBegin s p).Inv n v := by
  unfold State.keysBegin
  with_reducible
    repeat' (first
      | assumption | apply State.linkFail_inv | apply State.drew_inv
      | apply State.keysMsg_inv | apply State.setLp_inv | split)

theorem State.sendFinished_inv (s : State) (p : Nat) (a : Agree) (hs0 : s.Inv n v) :
    (State.sendFinished s p a).Inv n v := by
  unfold State.sendFinished
  with_reducible repeat' (first | assumption | apply State.keysMsg_inv | apply State.setLp_inv)

theorem helloStep_inv (p : Nat) (b : List Byte) (s : State) (hs2 : s.Inv n v) :
    (helloStep p b s).Inv n v := by
  unfold helloStep
  with_reducible
    repeat' (first
      | assumption | apply State.when_inv | apply State.linkFail_inv | apply State.sign_inv
      | apply State.drew_inv | apply State.keysMsg_inv | apply State.setLp_inv | intro _ | (dsimp only)
      | refine PairKeeps.get (by assumption) ?_ | split)

theorem execHello_inv (p : Nat) (b : List Byte) (s : State) (hs2 : s.Inv n v) :
    Res.Keeps (execHello p b s) n v := by
  unfold execHello
  with_reducible repeat' (first | apply Res.Keeps.need | assumption | apply helloStep_inv)

theorem encapsulationKeyStep_inv (p : Nat) (ek : List Byte) (sig : List Byte) (s : State) (hs3 : s.Inv n v) :
    (encapsulationKeyStep p ek sig s).Inv n v := by
  unfold encapsulationKeyStep
  with_reducible
    repeat' (first
      | assumption | apply State.when_inv | apply State.linkFail_inv | apply State.sign_inv
      | apply State.drew_inv | apply State.sendFinished_inv | apply State.keysMsg_inv | intro _ | (dsimp only)
      | refine PairKeeps.get (by assumption) ?_ | split)

theorem execEncapsulationKey_inv (p : Nat) (ek : List Byte) (sig : List Byte) (s : State) (hs3 : s.Inv n v) :
    Res.Keeps (execEncapsulationKey p ek sig s) n v := by
  unfold execEncapsulationKey
  with_reducible repeat' (first | apply Res.Keeps.need | assumption | apply encapsulationKeyStep_inv)

theorem kemCiphertextStep_inv (p : Nat) (ct : List Byte) (sig : List Byte) (s : State) (hs3 : s.Inv n v) :
    (kemCiphertextStep p ct sig s).Inv n v := by
  unfold kemCiphertextStep
  with_reducible
    repeat' (first
      | assumption | apply State.when_inv | apply State.linkFail_inv
      | apply State.sendFinished_inv | intro _ | split)

theorem execKemCiphertext_inv (p : Nat) (ct : List Byte) (sig : List Byte) (s : State) (hs3 : s.Inv n v) :
    Res.Keeps (execKemCiphertext p ct sig s) n v := by
  unfold execKemCiphertext
  with_reducible repeat' (first | apply Res.Keeps.need | assumption | apply kemCiphertextStep_inv)

theorem State.sessionBegin_inv (s : State) (p : Nat) (tx : List Byte) (rx : List Byte) (hs0 : s.Inv n v) :
    (State.sessionBegin s p tx rx).Inv n v := by
  unfold State.sessionBegin
  with_reducible repeat' (first | assumption | apply State.setLp_inv | simp only [Inv.mk_eq] | apply InvOf.mix)

theorem finishedStep_inv (p : Nat) (b : List Byte) (s : State) (hs2 : s.Inv n v) :
    (finishedStep p b s).Inv n v := by
  unfold finishedStep
  with_reducible
    repeat' (first
      | assumption | apply State.when_inv | apply State.afterKeys_inv
      | apply State.sessionBegin_inv | apply State.linkFail_inv | intro _ | split)

theorem execFinished_inv (p : Nat) (b : List Byte) (s : State) (hs2 : s.Inv n v) :
    Res.Keeps (execFinished p b s) n v := by
  unfold execFinished
  with_reducible repeat' (first | apply Res.Keeps.need | assumption | apply finishedStep_inv)

theorem linkRekeyStep_inv (p : Nat) (s : State) (hs1 : s.Inv n v) :
    (linkRekeyStep p s).Inv n v := by
  unfold linkRekeyStep
  with_reducible
    repeat' (first
      | assumption | apply State.when_inv | apply State.trainStart_inv
      | apply State.notice_inv | intro _)

theorem execLinkRekey_inv (p : Nat) (s : State) (hs1 : s.Inv n v) :
    Res.Keeps (execLinkRekey p s) n v := by
  unfold execLinkRekey
  with_reducible repeat' (first | apply Res.Keeps.need | assumption | apply linkRekeyStep_inv)

theorem State.linkCheck_inv (s : State) (arr : Nat) (p : Pkt) (ctr : Nat) (tagOk : Bool) (hs0 : s.Inv n v) :
    (State.linkCheck s arr p ctr tagOk).2.Inv n v := by
  unfold State.linkCheck
  with_reducible
    repeat' (first
      | assumption | apply State.logC_inv | apply State.trainAgain_inv
      | apply State.notice_inv | simp only [Inv.mk_eq] | apply InvOf.mix | split)

theorem State.takePkt_inv (s : State) (arr : Nat) (p : Pkt) (ctr : Nat) (tagOk : Bool) (hs0 : s.Inv n v) :
    (State.takePkt s arr p ctr tagOk).Inv n v := by
  unfold State.takePkt
  with_reducible
    repeat' (first
      | assumption | apply State.linkCheck_inv | apply State.routeIn_inv
      | simp only [Inv.mk_eq] | apply InvOf.mix | split)

theorem State.takeColumns_inv (s : State) (arr : Nat) (rx : List (List Nat)) (hs0 : s.Inv n v) :
    (State.takeColumns s arr rx).Inv n v := by
  unfold State.takeColumns
  with_reducible
    repeat' (first
      | assumption | apply State.hear_inv | apply State.fsat_inv | apply State.setLp_inv
      | apply State.takePkt_inv | (dsimp only) | split)

theorem packetRouteStep_inv (arr : Nat) (a : Arrival) (q : List Nat) (s : State) (hs3 : s.Inv n v) :
    (packetRouteStep arr a q s).Inv n v := by
  unfold packetRouteStep
  with_reducible
    repeat' (first
      | assumption | apply State.when_inv | apply State.takePkt_inv
      | apply State.setDepths_inv | apply State.takeColumns_inv | intro _ | split)

theorem execPacketRoute_inv (arr : Nat) (a : Arrival) (q : List Nat) (s : State) (hs3 : s.Inv n v) :
    Res.Keeps (execPacketRoute arr a q s) n v := by
  unfold execPacketRoute
  with_reducible repeat' (first | apply Res.Keeps.need | assumption | apply packetRouteStep_inv)

/-! Machine/FenceOps.lean. -/

theorem State.holdCore_inv (s : State) (lcore : Nat) (hs0 : s.Inv n v) :
    (State.holdCore s lcore).Inv n v := by
  unfold State.holdCore
  with_reducible repeat' (first | assumption | simp only [Inv.mk_eq] | apply InvOf.mix)

theorem State.freeCore_inv (s : State) (lcore : Nat) (hs0 : s.Inv n v) :
    (State.freeCore s lcore).Inv n v := by
  unfold State.freeCore
  with_reducible repeat' (first | assumption | simp only [Inv.mk_eq] | apply InvOf.mix)

theorem State.fenceBusy_inv (s : State) (hs0 : s.Inv n v) :
    (State.fenceBusy s).Inv n v := by
  unfold State.fenceBusy
  with_reducible repeat' (first | assumption | apply State.fput_inv)

theorem State.addFencing_inv (s : State) (f : Fencing) (hs0 : s.Inv n v) :
    (State.addFencing s f).Inv n v := by
  unfold State.addFencing
  with_reducible repeat' (first | assumption | apply State.fenceBusy_inv | simp only [Inv.mk_eq] | apply InvOf.mix)

theorem State.dropFencing_inv (s : State) (site : Nat) (hs0 : s.Inv n v) :
    (State.dropFencing s site).Inv n v := by
  unfold State.dropFencing
  with_reducible repeat' (first | assumption | apply State.fenceBusy_inv | simp only [Inv.mk_eq] | apply InvOf.mix)

theorem State.gateSite_inv (s : State) (site : Nat) (hs0 : s.Inv n v) :
    (State.gateSite s site).Inv n v := by
  unfold State.gateSite
  with_reducible repeat' (first | assumption | apply State.fset_inv | simp only [Inv.mk_eq] | apply InvOf.mix)

theorem State.fenceSite_inv (s : State) (site : Nat) (origin : Nat) (hs0 : s.Inv n v) :
    (State.fenceSite s site origin).Inv n v := by
  unfold State.fenceSite
  with_reducible
    repeat' (first
      | assumption | apply State.resetMany_inv | apply State.addFencing_inv
      | apply State.holdCore_inv | apply State.gateSite_inv | apply State.fset_inv | apply State.recordFence_inv | split)

theorem State.repairRow_inv (s : State) (site : Nat) (addr : Nat) (origin : Nat) (hs0 : s.Inv n v) :
    (State.repairRow s site addr origin).Inv n v := by
  unfold State.repairRow
  with_reducible
    repeat' (first
      | assumption | apply State.recordFence_inv | apply State.fenceSite_inv
      | simp only [Inv.mk_eq] | apply InvOf.mix | split)

theorem State.eccCorrected_inv (s : State) (site : Nat) (addr : Nat) (hs0 : s.Inv n v) :
    (State.eccCorrected s site addr).Inv n v := by
  unfold State.eccCorrected
  with_reducible
    repeat' (first
      | assumption | apply State.fset_inv | apply State.repairRow_inv
      | simp only [Inv.mk_eq] | apply InvOf.mix | split)

theorem State.eccUncorr_inv (s : State) (site : Nat) (ctx : Nat) (addr : Nat) (data : Nat) (hs0 : s.Inv n v) :
    (State.eccUncorr s site ctx addr data).Inv n v := by
  unfold State.eccUncorr
  with_reducible
    repeat' (first
      | assumption | apply State.fset_inv | apply State.repairRow_inv
      | apply State.ctxReset_inv | split)

/-! Machine/ObsOps.lean. -/

theorem State.obsSpend_inv (s : State) (l : List (Nat × Nat)) (hs0 : s.Inv n v) :
    (State.obsSpend s l).Inv n v := by
  unfold State.obsSpend
  with_reducible repeat' (first | assumption | simp only [Inv.mk_eq] | apply InvOf.mix)

theorem State.obsStall_inv (s : State) (addr : Nat) (n0 : Nat) (hs0 : s.Inv n v) :
    (State.obsStall s addr n0).Inv n v := by
  unfold State.obsStall
  with_reducible repeat' (first | assumption | apply State.obsSpend_inv | apply State.fsat_inv)

theorem State.traceOne_inv (s : State) (k : Nat) (r : Rsd) (t0 : Nat × Bool) (w : Won) (iter : Nat) (wany : Bool)
    (hs0 : s.Inv n v) :
    (State.traceOne s k r t0 w iter wany).Inv n v := by
  unfold State.traceOne
  with_reducible
    repeat' (first
      | assumption | apply State.memWrite_inv | apply State.fset_inv | apply State.fsat_inv
      | apply State.obsSpend_inv | apply State.logX_inv | (dsimp only) | split)

theorem State.traceFire_inv (s : State) (r : Rsd) (iter : Nat) (wany : Bool) (hs0 : s.Inv n v) :
    (State.traceFire s r iter wany).Inv n v := by
  unfold State.traceFire
  with_reducible repeat' (first | assumption | apply Inv.foldl | apply State.traceOne_inv | intro _ | split)

theorem State.dumpOne_inv (s : State) (k : Nat) (r : Rsd) (f : Flight) (hs0 : s.Inv n v) :
    (State.dumpOne s k r f).Inv n v := by
  unfold State.dumpOne
  with_reducible
    repeat' (first
      | assumption | apply State.fset_inv | apply State.memWrite_inv
      | apply State.obsStall_inv | apply State.fput_inv | apply State.logX_inv | (dsimp only) | split)

theorem State.dumpTensor_inv (s : State) (r : Rsd) (f : Flight) (hs0 : s.Inv n v) :
    (State.dumpTensor s r f).Inv n v := by
  unfold State.dumpTensor
  with_reducible repeat' (first | assumption | apply Inv.foldl | apply State.dumpOne_inv | intro _)

/-! Machine/Operands.lean. -/

theorem State.setRsd_inv (s : State) (r : Rsd) (hs0 : s.Inv n v) :
    (State.setRsd s r).Inv n v := by
  unfold State.setRsd
  with_reducible repeat' (first | assumption | simp only [Inv.mk_eq] | apply InvOf.mix)

theorem State.stopReplay_inv (s : State) (ring : Nat) (seq : Nat) (hs0 : s.Inv n v) :
    (State.stopReplay s ring seq).Inv n v := by
  unfold State.stopReplay
  with_reducible repeat' (first | assumption | apply State.dropWork_inv | simp only [Inv.mk_eq] | apply InvOf.mix | split)

theorem State.failData_inv (s : State) (r : Rsd) (code : Nat) (data : Nat) (hs0 : s.Inv n v) :
    (State.failData s r code data).Inv n v := by
  unfold State.failData
  with_reducible repeat' (first | assumption | apply State.stopReplay_inv | apply State.ctxReset_inv | split)

theorem State.failDesc_inv (s : State) (r : Rsd) (code : Nat) (addr : Nat) (hs0 : s.Inv n v) :
    (State.failDesc s r code addr).Inv n v := by
  unfold State.failDesc
  with_reducible repeat' (first | assumption | apply State.failData_inv)

theorem State.failMem_inv (s : State) (r : Rsd) (reader : Nat) (code : Nat) (addr : Nat) (hs0 : s.Inv n v) :
    (State.failMem s r reader code addr).Inv n v := by
  unfold State.failMem
  with_reducible repeat' (first | assumption | apply State.failData_inv)

theorem State.divergeFor_inv (s : State) (r : Rsd) (n0 : Nat) (hs0 : s.Inv n v) :
    (State.divergeFor s r n0).Inv n v := by
  unfold State.divergeFor
  with_reducible repeat' (first | assumption | apply State.diverge_inv | split)

theorem State.addArith_inv (s : State) (ring : Nat) (seq : Nat) (fl : Nat) (hs0 : s.Inv n v) :
    (State.addArith s ring seq fl).Inv n v := by
  unfold State.addArith
  with_reducible repeat' (first | assumption | simp only [Inv.mk_eq] | apply InvOf.mix)

theorem State.fetchAt_inv (s : State) (r : Rsd) (p : Nat) (n0 : Nat) (hs0 : s.Inv n v) :
    (State.fetchAt s r p n0).st.Inv n v := by
  unfold State.fetchAt
  with_reducible repeat' (first | assumption | apply State.memRead_inv)

theorem State.passHint_inv (s : State) (r : Rsd) (d : Nat) (firing : Bool) (hs0 : s.Inv n v) :
    (State.passHint s r d firing).Inv n v := by
  unfold State.passHint
  with_reducible repeat' (first | assumption | simp only [Inv.mk_eq] | apply InvOf.mix | split)

theorem State.fillBuf_inv (s : State) (r : Rsd) (h : s.Inv n v) : (s.fillBuf r).1.Inv n v := by
  unfold State.fillBuf
  exact Inv.foldl h fun _ _ h => State.passHint_inv _ _ _ _ h

theorem State.judge_inv (s : State) (r : Rsd) (h : s.Inv n v) : ∀ e, s.judge r = .error e → e.2.Inv n v := by
  intro e he
  unfold State.judge at he
  split at he
  · cases he
    exact h
  · split at he
    · dsimp only at he
      split at he
      · cases he
      · cases he
        exact h
    · cases he
      exact State.fetchAt_inv _ _ _ _ h

theorem State.attend_inv (s : State) (r : Rsd) (h : s.Inv n v) : (s.attend r).1.Inv n v := by
  unfold State.attend
  split
  · exact h
  · have k := State.fillBuf_inv s r h
    dsimp only
    split
    · exact State.setRsd_inv _ _ k
    · split
      · exact State.setRsd_inv _ _ k
      · rename_i he
        exact State.setRsd_inv _ _ (State.judge_inv _ _ k _ he)

theorem State.report_inv (s : State) (f : Failure) (hs0 : s.Inv n v) :
    (State.report s f).Inv n v := by
  unfold State.report
  with_reducible repeat' (first | assumption | apply State.failMem_inv | apply State.failDesc_inv | split)

theorem State.engines_inv (s : State) (h : s.Inv n v) : s.engines.Inv n v := by
  unfold State.engines
  dsimp only
  refine Inv.foldl ?_ fun _ _ h => State.report_inv _ _ h
  have k : ∀ (l : List Rsd) (w : State × List Failure), w.1.Inv n v →
      (l.foldl (fun (w : State × List Failure) r => let t := w.1.attend r; (t.1, w.2 ++ t.2)) w).1.Inv n v := by
    intro l
    induction l with
    | nil => exact fun _ h => h
    | cons a l ih => exact fun w h => ih _ (State.attend_inv _ _ h)
  exact k _ _ h

theorem State.addTwait_inv (s : State) (site : Nat) (n0 : Nat) (hs0 : s.Inv n v) :
    (State.addTwait s site n0).Inv n v := by
  unfold State.addTwait
  with_reducible repeat' (first | assumption | apply State.fset_inv | split)

theorem State.fireCommon_inv (s : State) (r : Rsd) (d : Nat) (twait : Nat) (h : s.Inv n v) : (State.fireCommon s r d twait).Inv
    n v := by
  unfold State.fireCommon
  extract_lets c t u w
  have ht : t.Inv n v := Inv.turn h
  have hu : u.Inv n v := Inv.ite (State.divergeFor_inv _ _ _ ht) ht
  exact State.setRsd_inv _ _ (State.progress_inv _ _ _ (State.addTwait_inv _ _ _ (State.passHint_inv _ _ _ _
    (State.traceFire_inv _ _ _ _ hu))))

theorem State.keepUndo_inv (s : State) (before : State) (r : Rsd) (d : Nat) (hs0 : s.Inv n v) :
    (State.keepUndo s before r d).Inv n v := by
  unfold State.keepUndo
  with_reducible repeat' (first | assumption | simp only [Inv.mk_eq] | apply InvOf.mix | split)

theorem State.fireNext_inv (s : State) (r : Rsd) (d : Nat) (fits : Bool) (f : FireIn) (k : Effect) (hs0 : s.Inv n v)
    (hs5 : ∀ y0 y1 y2, y2.Inv n v → (k y0 y1 y2).Inv n v) :
    (State.fireNext s r d fits f k).Inv n v := by
  unfold State.fireNext
  with_reducible
    repeat' (first
      | assumption | apply hs5 | apply State.stopReplay_inv | apply State.engines_inv
      | apply State.keepUndo_inv | apply State.fireCommon_inv | split)

theorem State.fireIf_inv (s : State) (lcore : Nat) (ring : Nat) (seq : Nat) (fits : Nat → Bool) (f : FireIn) (k : Effect)
    (hs0 : s.Inv n v) (hs6 : ∀ y0 y1 y2, y2.Inv n v → (k y0 y1 y2).Inv n v) :
    (State.fireIf s lcore ring seq fits f k).Inv n v := by
  unfold State.fireIf
  with_reducible
    repeat' (first
      | assumption | apply State.markBad_inv | apply State.fireNext_inv
      | apply State.engines_inv | (dsimp only) | split)

theorem State.fire_inv (s : State) (lcore : Nat) (ring : Nat) (seq : Nat) (op : Nat) (f : FireIn) (k : Effect) (hs0 : s.Inv n v)
    (hs6 : ∀ y0 y1 y2, y2.Inv n v → (k y0 y1 y2).Inv n v) :
    (State.fire s lcore ring seq op f k).Inv n v := by
  unfold State.fire
  with_reducible repeat' (first | assumption | apply State.fireIf_inv)

theorem State.sendSig_inv (s : State) (g : Sig) (hs0 : s.Inv n v) :
    (State.sendSig s g).Inv n v := by
  unfold State.sendSig
  with_reducible repeat' (first | assumption | simp only [Inv.mk_eq] | apply InvOf.mix)

theorem State.headerSig_inv (s : State) (r : Rsd) (d : Nat) (pos : Nat) (iter : Nat) (hs0 : s.Inv n v) :
    (State.headerSig s r d pos iter).Inv n v := by
  unfold State.headerSig
  with_reducible repeat' (first | assumption | apply State.sendSig_inv | split)

theorem State.launchFlight_inv (s : State) (r : Rsd) (d : Nat) (fl : Flight → Flight) (hs0 : s.Inv n v) :
    (State.launchFlight s r d fl).Inv n v := by
  unfold State.launchFlight
  with_reducible repeat' (first | assumption | apply State.setRsd_inv | simp only [Inv.mk_eq] | apply InvOf.mix)

theorem State.eccCounts_inv (s : State) (site : Nat) (l : List Nat) (hs0 : s.Inv n v) :
    (State.eccCounts s site l).Inv n v := by
  unfold State.eccCounts
  with_reducible repeat' (first | assumption | apply Inv.foldl | apply State.eccCorrected_inv | intro _)

theorem State.withEcc_inv (s : State) (r : Rsd) (e : Ecc) (k : State → State) (hs0 : s.Inv n v)
    (hs3 : ∀ y0, y0.Inv n v → (k y0).Inv n v) :
    (State.withEcc s r e k).Inv n v := by
  unfold State.withEcc
  with_reducible
    repeat' (first
      | assumption | apply hs3 | apply State.eccCounts_inv | apply State.stopReplay_inv
      | apply State.eccUncorr_inv | (dsimp only) | split)

theorem State.addBusy_inv (s : State) (site : Nat) (o : Nat) (steps : Nat) (hs0 : s.Inv n v) :
    (State.addBusy s site o steps).Inv n v := by
  unfold State.addBusy
  with_reducible repeat' (first | assumption | apply State.fset_inv | split)

theorem State.endFlight_inv (s : State) (r : Rsd) (f : Flight) (hs0 : s.Inv n v) :
    (State.endFlight s r f).Inv n v := by
  unfold State.endFlight
  with_reducible
    repeat' (first
      | assumption | apply State.headerSig_inv | apply State.progress_inv
      | apply State.dumpTensor_inv | apply State.setRsd_inv)

end Sys2Proof.Machine
end

