-- ==== Sys2Proof/Laws/InvCores.lean ====
section
/-! SUPPORT. One lemma for each definition that gives a state: it keeps `State.Inv`. Here: what
the descriptors, the attention commands and the streams keep. -/

namespace Sys2Proof.Machine

variable {n : Nat} {v : Nat → Nat}

/-! Machine/TensorRows.lean. -/

theorem State.setAccs_inv (s : State) (site : Nat) (l : List Accum) (hs0 : s.Inv n v) :
    (State.setAccs s site l).Inv n v := by
  unfold State.setAccs
  with_reducible repeat' (first | assumption | simp only [Inv.mk_eq] | apply InvOf.mix)

theorem State.writeTile_inv (s : State) (r : Rsd) (d : Nat) (rows : List RowOut) (hs0 : s.Inv n v) :
    (State.writeTile s r d rows).Inv n v := by
  unfold State.writeTile
  with_reducible repeat' (first | assumption | apply Inv.foldl | apply State.csWrite_inv | intro _)

theorem State.setChain_inv (s : State) (r : Rsd) (d : Nat) (hs0 : s.Inv n v) :
    (State.setChain s r d).Inv n v := by
  unfold State.setChain
  with_reducible repeat' (first | assumption | simp only [Inv.mk_eq] | apply InvOf.mix)

theorem State.finishTile_inv (s : State) (r : Rsd) (d : Nat) (l : List Accum) (hs0 : s.Inv n v) :
    (State.finishTile s r d l).Inv n v := by
  unfold State.finishTile
  with_reducible
    repeat' (first
      | assumption | apply State.addArith_inv | apply State.writeTile_inv
      | apply State.launchFlight_inv | apply State.csWrite_inv | split)

theorem tmmaEffect_inv (e : Ecc) (x1 : Rsd) (x2 : Nat) (x3 : State) (hs3 : x3.Inv n v) :
    (tmmaEffect e x1 x2 x3).Inv n v := by
  unfold tmmaEffect
  with_reducible
    repeat' (first
      | assumption | apply State.failDesc_inv | apply State.withEcc_inv
      | apply State.finishTile_inv | apply State.addArith_inv | apply State.setChain_inv | apply State.setAccs_inv | intro _
      | (dsimp only) | split)

theorem tmmaStep_inv (lcore : Nat) (ring : Nat) (seq : Nat) (f : FireIn) (s : State) (hs4 : s.Inv n v) :
    (tmmaStep lcore ring seq f s).Inv n v := by
  unfold tmmaStep
  with_reducible repeat' (first | assumption | apply State.fire_inv | apply tmmaEffect_inv)

theorem execTmma_inv (lcore : Nat) (ring : Nat) (seq : Nat) (f : FireIn) (s : State) (hs4 : s.Inv n v) :
    Res.Keeps (execTmma lcore ring seq f s) n v := by
  unfold execTmma
  with_reducible repeat' (first | apply Res.Keeps.need | assumption | apply tmmaStep_inv)

/-! Machine/VectorRows.lean. -/

theorem VSt.put_inv (v0 : VSt) (k : Nat) (l : List FR) (hs0 : v0.st.Inv n v) :
    (VSt.put v0 k l).st.Inv n v := by
  unfold VSt.put
  with_reducible repeat' (first | assumption)

theorem VSt.map1_inv (v0 : VSt) (o : Nat) (f : Nat → FR) (hs0 : v0.st.Inv n v) :
    (VSt.map1 v0 o f).st.Inv n v := by
  unfold VSt.map1
  with_reducible repeat' (first | assumption | apply VSt.put_inv)

theorem VSt.map2_inv (v0 : VSt) (o : Nat) (f : Nat → Nat → FR) (hs0 : v0.st.Inv n v) :
    (VSt.map2 v0 o f).st.Inv n v := by
  unfold VSt.map2
  with_reducible repeat' (first | assumption | apply VSt.put_inv)

theorem VSt.map3_inv (v0 : VSt) (o : Nat) (f : Nat → Nat → Nat → FR) (hs0 : v0.st.Inv n v) :
    (VSt.map3 v0 o f).st.Inv n v := by
  unfold VSt.map3
  with_reducible repeat' (first | assumption | apply VSt.put_inv)

theorem VSt.store_inv (v0 : VSt) (site : Nat) (d : Nat) (iter : Nat) (o : Nat) (r : Nat) (hs0 : v0.st.Inv n v) :
    (VSt.store v0 site d iter o r).st.Inv n v := by
  unfold VSt.store
  with_reducible repeat' (first | assumption | apply State.csWrite_inv | (dsimp only) | split)

theorem VSt.cvt_inv (v0 : VSt) (d : Nat) (o : Nat) (r : Nat) (hs0 : v0.st.Inv n v) :
    (VSt.cvt v0 d o r).st.Inv n v := by
  unfold VSt.cvt
  with_reducible repeat' (first | assumption | apply VSt.put_inv)

theorem VSt.op_inv (site : Nat) (d : Nat) (iter : Nat) (r : Nat) (v0 : VSt) (o : Nat) (hs4 : v0.st.Inv n v) :
    (VSt.op site d iter r v0 o).st.Inv n v := by
  unfold VSt.op
  with_reducible
    repeat' (first
      | assumption | apply VSt.put_inv | apply VSt.store_inv | apply VSt.map2_inv
      | apply VSt.map1_inv | apply VSt.map3_inv | apply VSt.cvt_inv | split)

theorem runVprog_inv (site : Nat) (d : Nat) (iter : Nat) (v0 : VSt) (hs3 : v0.st.Inv n v) :
    (runVprog site d iter v0).st.Inv n v := by
  unfold runVprog
  with_reducible repeat' (first | assumption | apply Inv.foldl_vst | apply VSt.op_inv | intro _)

theorem State.vectorDone_inv (s : State) (r : Rsd) (d : Nat) (fl : Nat) (out : List Byte) (hs0 : s.Inv n v) :
    (State.vectorDone s r d fl out).Inv n v := by
  unfold State.vectorDone
  with_reducible repeat' (first | assumption | apply State.launchFlight_inv | apply State.addArith_inv)

theorem vprogEffect_inv (e : Ecc) (x1 : Rsd) (x2 : Nat) (x3 : State) (hs3 : x3.Inv n v) :
    (vprogEffect e x1 x2 x3).Inv n v := by
  unfold vprogEffect
  with_reducible
    repeat' (first
      | assumption | apply State.withEcc_inv | apply runVprog_inv
      | apply State.vectorDone_inv | intro _ | simp only [Inv.mk_eq] | apply InvOf.mix)

theorem vprogStep_inv (lcore : Nat) (ring : Nat) (seq : Nat) (f : FireIn) (s : State) (hs4 : s.Inv n v) :
    (vprogStep lcore ring seq f s).Inv n v := by
  unfold vprogStep
  with_reducible repeat' (first | assumption | apply State.fire_inv | apply vprogEffect_inv)

theorem execVprog_inv (lcore : Nat) (ring : Nat) (seq : Nat) (f : FireIn) (s : State) (hs4 : s.Inv n v) :
    Res.Keeps (execVprog lcore ring seq f s) n v := by
  unfold execVprog
  with_reducible repeat' (first | apply Res.Keeps.need | assumption | apply vprogStep_inv)

theorem State.putAtt_inv (s : State) (site : Nat) (addr : Nat) (a : AttState) (hs0 : s.Inv n v) :
    (State.putAtt s site addr a).Inv n v := by
  unfold State.putAtt
  with_reducible repeat' (first | assumption | apply State.csWrite_inv)

theorem State.putState_inv (s : State) (r : Rsd) (d : Nat) (a : AttState) (hs0 : s.Inv n v) :
    (State.putState s r d a).Inv n v := by
  unfold State.putState
  with_reducible repeat' (first | assumption | apply State.putAtt_inv | apply State.vectorDone_inv)

theorem osmUpdateEffect_inv (e : Ecc) (x1 : Rsd) (x2 : Nat) (x3 : State) (hs3 : x3.Inv n v) :
    (osmUpdateEffect e x1 x2 x3).Inv n v := by
  unfold osmUpdateEffect
  with_reducible repeat' (first | assumption | apply State.withEcc_inv | apply State.putState_inv | intro _)

theorem osmUpdateStep_inv (lcore : Nat) (ring : Nat) (seq : Nat) (f : FireIn) (s : State) (hs4 : s.Inv n v) :
    (osmUpdateStep lcore ring seq f s).Inv n v := by
  unfold osmUpdateStep
  with_reducible repeat' (first | assumption | apply State.fire_inv | apply osmUpdateEffect_inv)

theorem execOsmUpdate_inv (lcore : Nat) (ring : Nat) (seq : Nat) (f : FireIn) (s : State) (hs4 : s.Inv n v) :
    Res.Keeps (execOsmUpdate lcore ring seq f s) n v := by
  unfold execOsmUpdate
  with_reducible repeat' (first | apply Res.Keeps.need | assumption | apply osmUpdateStep_inv)

theorem osmMergeEffect_inv (e : Ecc) (x1 : Rsd) (x2 : Nat) (x3 : State) (hs3 : x3.Inv n v) :
    (osmMergeEffect e x1 x2 x3).Inv n v := by
  unfold osmMergeEffect
  with_reducible repeat' (first | assumption | apply State.withEcc_inv | apply State.putState_inv | intro _)

theorem osmMergeStep_inv (lcore : Nat) (ring : Nat) (seq : Nat) (f : FireIn) (s : State) (hs4 : s.Inv n v) :
    (osmMergeStep lcore ring seq f s).Inv n v := by
  unfold osmMergeStep
  with_reducible repeat' (first | assumption | apply State.fire_inv | apply osmMergeEffect_inv)

theorem execOsmMerge_inv (lcore : Nat) (ring : Nat) (seq : Nat) (f : FireIn) (s : State) (hs4 : s.Inv n v) :
    Res.Keeps (execOsmMerge lcore ring seq f s) n v := by
  unfold execOsmMerge
  with_reducible repeat' (first | apply Res.Keeps.need | assumption | apply osmMergeStep_inv)

theorem osmNormEffect_inv (e : Ecc) (x1 : Rsd) (x2 : Nat) (x3 : State) (hs3 : x3.Inv n v) :
    (osmNormEffect e x1 x2 x3).Inv n v := by
  unfold osmNormEffect
  with_reducible
    repeat' (first
      | assumption | apply State.withEcc_inv | apply State.vectorDone_inv
      | apply State.csWrite_inv | intro _)

theorem osmNormStep_inv (lcore : Nat) (ring : Nat) (seq : Nat) (f : FireIn) (s : State) (hs4 : s.Inv n v) :
    (osmNormStep lcore ring seq f s).Inv n v := by
  unfold osmNormStep
  with_reducible repeat' (first | assumption | apply State.fire_inv | apply osmNormEffect_inv)

theorem execOsmNorm_inv (lcore : Nat) (ring : Nat) (seq : Nat) (f : FireIn) (s : State) (hs4 : s.Inv n v) :
    Res.Keeps (execOsmNorm lcore ring seq f s) n v := by
  unfold execOsmNorm
  with_reducible repeat' (first | apply Res.Keeps.need | assumption | apply osmNormStep_inv)

/-! Machine/AttOps.lean. -/

theorem Got.then_inv {α β : Type} (g : Got α) (k : α → State → Got β) (h : g.2.Inv n v)
    (hk : ∀ a s, s.Inv n v → (k a s).2.Inv n v) : (g.then k).2.Inv n v := by
  unfold Got.then
  split
  · exact hk _ _ h
  · exact h

theorem attBad_inv (α : Type) (code : Nat) (s : State) (hs2 : s.Inv n v) :
    (@attBad α code s).2.Inv n v := by
  unfold attBad
  with_reducible repeat' (first | assumption)

theorem gotAll_inv {α β : Type} (l : List α) (k : α → State → Got β) (s : State) (hk : ∀ a s, s.Inv n v → (k a s).2.Inv n v)
    (h : s.Inv n v) : (gotAll l k s).2.Inv n v := by
  induction l generalizing s with
  | nil => exact h
  | cons a r ih =>
    unfold gotAll
    refine Got.then_inv _ _ (hk a s h) fun b t ht => Got.then_inv _ _ (ih t ht) fun bs u hu => ?_
    exact hu

theorem State.attRead_inv (s : State) (a : Party) (addr : Nat) (n0 : Nat) (hs0 : s.Inv n v) :
    (State.attRead s a addr n0).2.Inv n v := by
  unfold State.attRead
  with_reducible repeat' (first | assumption | apply State.memRead_inv | (dsimp only) | split)

theorem State.attWrite_inv (s : State) (a : Party) (right : Fld) (addr : Nat) (b : List Byte) (hs0 : s.Inv n v) :
    (State.attWrite s a right addr b).2.Inv n v := by
  unfold State.attWrite
  with_reducible repeat' (first | assumption | apply State.memWrite_inv | (dsimp only) | split)

theorem State.attPut_inv (s : State) (a : Party) (right : Fld) (addr : Nat) (b : List Byte) (hs0 : s.Inv n v) :
    (State.attPut s a right addr b).2.Inv n v := by
  unfold State.attPut
  with_reducible repeat' (first | assumption | apply State.memPut_inv | (dsimp only) | split)

theorem State.attCheck_inv (s : State) (a : Party) (right : Fld) (addr : Nat) (n0 : Nat) (hs0 : s.Inv n v) :
    (State.attCheck s a right addr n0).2.Inv n v := by
  unfold State.attCheck
  with_reducible repeat' (first | assumption | (dsimp only) | split)

theorem State.seqLookup_inv (s : State) (a : Party) (slot : Nat) (id : Nat) (hs0 : s.Inv n v) :
    (State.seqLookup s a slot id).2.Inv n v := by
  unfold State.seqLookup
  with_reducible
    repeat' (first
      | assumption | apply attBad_inv | apply Got.then_inv | apply State.attRead_inv
      | intro _ | (dsimp only) | split)

theorem State.pageSlot_inv (s : State) (a : Party) (q : Nat) (layer : Nat) (head : Nat) (p : Nat) (hs0 : s.Inv n v) :
    (State.pageSlot s a q layer head p).2.Inv n v := by
  unfold State.pageSlot
  with_reducible
    repeat' (first
      | assumption | apply Got.then_inv | apply State.attRead_inv | apply attBad_inv
      | intro _ | (dsimp only) | split)

theorem State.seqCount_inv (s : State) (a : Party) (q : Nat) (layer : Nat) (hs0 : s.Inv n v) :
    (State.seqCount s a q layer).2.Inv n v := by
  unfold State.seqCount
  with_reducible repeat' (first | assumption | apply Got.then_inv | apply State.attRead_inv | intro _)

theorem State.freshSeq_inv (s : State) (a : Party) (q : Nat) (layer : Nat) (ntok : Nat) (hs0 : s.Inv n v) :
    (State.freshSeq s a q layer ntok).2.Inv n v := by
  unfold State.freshSeq
  with_reducible repeat' (first | assumption | apply Got.then_inv | apply State.seqCount_inv | apply attBad_inv | intro _ | split)

theorem State.bounds_inv (s : State) (a : Party) (q : Nat) (qs : List (List XV)) (at_ : Nat → Nat) (l : List Nat)
    (hs0 : s.Inv n v) :
    (State.bounds s a q qs at_ l).2.Inv n v := by
  unfold State.bounds
  with_reducible repeat' (first | assumption | apply gotAll_inv | apply Got.then_inv | apply State.attRead_inv | intro _)

theorem State.present_inv (s : State) (a : Party) (q : Nat) (x : Sel) (p : Nat) (hs0 : s.Inv n v) :
    (State.present s a q x p).2.Inv n v := by
  unfold State.present
  with_reducible repeat' (first | assumption | apply Got.then_inv | apply State.pageSlot_inv | intro _ | split)

theorem State.selectPages_inv (s : State) (a : Party) (q : Nat) (qs : List (List XV)) (x : Sel) (hs0 : s.Inv n v) :
    (State.selectPages s a q qs x).2.Inv n v := by
  unfold State.selectPages
  with_reducible
    repeat' (first
      | assumption | apply Got.then_inv | apply State.bounds_inv | apply gotAll_inv
      | apply State.present_inv | intro _ | split)

theorem State.readPage_inv (s : State) (a : Party) (q : Nat) (layer : Nat) (head : Nat) (ntok : Nat) (p : Nat) (hs0 : s.Inv n v) :
    (State.readPage s a q layer head ntok p).2.Inv n v := by
  unfold State.readPage
  with_reducible
    repeat' (first
      | assumption | apply Got.then_inv | apply State.pageSlot_inv | apply State.attRead_inv
      | intro _ | split)

theorem State.putRows_inv (s : State) (site : Nat) (addr : Nat) (stride : Nat) (len : Nat) (b : List Byte) (hs0 : s.Inv n v) :
    (State.putRows s site addr stride len b).Inv n v := by
  unfold State.putRows
  with_reducible repeat' (first | assumption | apply Inv.foldl | apply State.csWrite_inv | intro _)

theorem State.putPage_inv (s : State) (site : Nat) (d : Nat) (iter : Nat) (j : Nat) (q : Nat) (g : Page) (hs0 : s.Inv n v) :
    (State.putPage s site d iter j q g).Inv n v := by
  unfold State.putPage
  with_reducible repeat' (first | assumption | apply State.putRows_inv | apply State.csWrite_inv | split)

theorem State.shipCheck_inv (s : State) (a : Party) (right : Fld) (x : Ship) (q : Nat) (p : Nat) (row : Nat) (n0 : Nat)
    (b : List Byte) (h0 : Nat) (at_ : Nat) (hs0 : s.Inv n v) :
    (State.shipCheck s a right x q p row n0 b h0 at_).2.Inv n v := by
  unfold State.shipCheck
  with_reducible
    repeat' (first
      | assumption | apply Got.then_inv | apply State.attCheck_inv | apply State.attRead_inv
      | intro _ | split)

theorem State.shipWrite_inv (s : State) (a : Party) (right : Fld) (q : Nat) (row : Nat) (e : ShipHead) (hs0 : s.Inv n v) :
    (State.shipWrite s a right q row e).2.Inv n v := by
  unfold State.shipWrite
  with_reducible
    repeat' (first
      | assumption | apply Got.then_inv | apply State.attWrite_inv | apply State.attPut_inv
      | intro _ | split)

theorem State.shipTo_inv (s : State) (x : Ship) (q : Nat) (a : Party) (right : Fld) (b : State → Got (List Byte))
    (hs0 : s.Inv n v) (hs5 : ∀ y0, y0.Inv n v → (b y0).2.Inv n v) :
    (State.shipTo s x q a right b).2.Inv n v := by
  unfold State.shipTo
  with_reducible
    repeat' (first
      | assumption | apply hs5 | apply attBad_inv | apply Got.then_inv
      | apply State.seqCount_inv | apply gotAll_inv | apply State.pageSlot_inv | apply State.shipCheck_inv
      | apply State.attCheck_inv | apply State.shipWrite_inv | apply State.attPut_inv | intro _ | split)

/-! Machine/StreamRows.lean. -/

theorem State.beginFor_inv (s : State) (r : Rsd) (x : Xfer) (hs0 : s.Inv n v) :
    (State.beginFor s r x).Inv n v := by
  unfold State.beginFor
  with_reducible
    repeat' (first
      | assumption | apply State.begin_inv | apply State.failDesc_inv
      | refine OptKeeps.get (by assumption) ?_ | split)

theorem State.smovePut_inv (s : State) (r : Rsd) (f : Flight) (hs0 : s.Inv n v) :
    (State.smovePut s r f).Inv n v := by
  unfold State.smovePut
  with_reducible repeat' (first | assumption | apply State.beginFor_inv)

theorem State.smoveGet_inv (s : State) (r : Rsd) (f : Flight) (off : Nat) (doff : Nat) (n0 : Nat) (hs0 : s.Inv n v) :
    (State.smoveGet s r f off doff n0).Inv n v := by
  unfold State.smoveGet
  with_reducible repeat' (first | assumption | apply State.beginFor_inv)

theorem smoveEffect_inv (x0 : Rsd) (x1 : Nat) (x2 : State) (hs2 : x2.Inv n v) :
    (smoveEffect x0 x1 x2).Inv n v := by
  unfold smoveEffect
  with_reducible repeat' (first | assumption | apply State.launchFlight_inv | apply State.smovePut_inv | (dsimp only) | split)

theorem smoveStep_inv (lcore : Nat) (ring : Nat) (seq : Nat) (f : FireIn) (s : State) (hs4 : s.Inv n v) :
    (smoveStep lcore ring seq f s).Inv n v := by
  unfold smoveStep
  with_reducible repeat' (first | assumption | apply State.fire_inv | apply smoveEffect_inv)

theorem execSmove_inv (lcore : Nat) (ring : Nat) (seq : Nat) (f : FireIn) (s : State) (hs4 : s.Inv n v) :
    Res.Keeps (execSmove lcore ring seq f s) n v := by
  unfold execSmove
  with_reducible repeat' (first | apply Res.Keeps.need | assumption | apply smoveStep_inv)

theorem State.setFlight_inv (s : State) (r : Rsd) (f : Flight) (hs0 : s.Inv n v) :
    (State.setFlight s r f).Inv n v := by
  unfold State.setFlight
  with_reducible repeat' (first | assumption | apply State.setRsd_inv)

theorem State.partRead_inv (s : State) (r : Rsd) (f : Flight) (off : Nat) (n0 : Nat) (hs0 : s.Inv n v) :
    (State.partRead s r f off n0).st.Inv n v := by
  unfold State.partRead
  with_reducible repeat' (first | assumption | apply State.memRead_inv | (dsimp only) | split)

theorem State.partWrite_inv (s : State) (r : Rsd) (sink : Src) (b : List Byte) (hs0 : s.Inv n v) :
    (State.partWrite s r sink b).st.Inv n v := by
  unfold State.partWrite
  with_reducible repeat' (first | assumption | apply State.memWrite_inv | apply State.csWrite_inv | split)

theorem State.partCopy_inv (s : State) (r : Rsd) (f : Flight) (k : Nat) (hs0 : s.Inv n v) :
    (State.partCopy s r f k).Inv n v := by
  unfold State.partCopy
  with_reducible
    repeat' (first
      | assumption | apply State.partRead_inv | apply State.failMem_inv
      | apply State.partWrite_inv | apply State.setFlight_inv | (dsimp only) | split)

theorem State.partSend_inv (s : State) (r : Rsd) (f : Flight) (k : Nat) (hs0 : s.Inv n v) :
    (State.partSend s r f k).Inv n v := by
  unfold State.partSend
  with_reducible repeat' (first | assumption | apply State.setFlight_inv | simp only [Inv.mk_eq] | apply InvOf.mix)

theorem State.partGet_inv (s : State) (r : Rsd) (f : Flight) (k : Nat) (hs0 : s.Inv n v) :
    (State.partGet s r f k).Inv n v := by
  unfold State.partGet
  with_reducible repeat' (first | assumption | apply State.smoveGet_inv | apply State.setFlight_inv | (dsimp only) | split)

theorem State.attFail_inv (s : State) (r : Rsd) (e : Nat × Nat) (hs0 : s.Inv n v) :
    (State.attFail s r e).Inv n v := by
  unfold State.attFail
  with_reducible repeat' (first | assumption | apply State.failMem_inv | apply State.failDesc_inv | split)

theorem State.gatherPart_inv (s : State) (r : Rsd) (f : Flight) (hbm : List Nat) (hs0 : s.Inv n v) :
    (State.gatherPart s r f hbm).Inv n v := by
  unfold State.gatherPart
  with_reducible
    repeat' (first
      | assumption | apply State.readPage_inv | apply State.markBad_inv
      | apply State.attFail_inv | apply State.setFlight_inv | apply State.putPage_inv | (dsimp only) | split)

theorem State.movePart_inv (s : State) (r : Rsd) (fl : Flight) (lcore : Nat) (ring : Nat) (seq : Nat) (k : Nat) (f : FireIn)
    (hs0 : s.Inv n v) :
    (State.movePart s r fl lcore ring seq k f).Inv n v := by
  unfold State.movePart
  with_reducible
    repeat' (first
      | assumption | apply State.markBad_inv | apply State.partSend_inv
      | apply State.partGet_inv | apply State.withEcc_inv | apply State.partCopy_inv | intro _ | (dsimp only) | split)

theorem smovePartStartStep_inv (lcore : Nat) (ring : Nat) (seq : Nat) (k : Nat) (f : FireIn) (s : State) (hs5 : s.Inv n v) :
    (smovePartStartStep lcore ring seq k f s).Inv n v := by
  unfold smovePartStartStep
  with_reducible
    repeat' (first
      | assumption | apply State.when_inv | apply State.movePart_inv
      | apply State.gatherPart_inv | intro _ | split)

theorem execSmovePartStart_inv (lcore : Nat) (ring : Nat) (seq : Nat) (k : Nat) (f : FireIn) (s : State) (hs5 : s.Inv n v) :
    Res.Keeps (execSmovePartStart lcore ring seq k f s) n v := by
  unfold execSmovePartStart
  with_reducible repeat' (first | apply Res.Keeps.need | assumption | apply smovePartStartStep_inv)

theorem State.partToken_inv (s : State) (r : Rsd) (f : Flight) (hs0 : s.Inv n v) :
    (State.partToken s r f).Inv n v := by
  unfold State.partToken
  with_reducible repeat' (first | assumption | apply State.sendSig_inv | (dsimp only) | split)

theorem smovePartWrittenStep_inv (lcore : Nat) (ring : Nat) (seq : Nat) (k : Nat) (s : State) (hs4 : s.Inv n v) :
    (smovePartWrittenStep lcore ring seq k s).Inv n v := by
  unfold smovePartWrittenStep
  with_reducible
    repeat' (first
      | assumption | apply State.when_inv | apply State.partToken_inv
      | apply State.setFlight_inv | intro _ | (dsimp only) | split)

theorem execSmovePartWritten_inv (lcore : Nat) (ring : Nat) (seq : Nat) (k : Nat) (s : State) (hs4 : s.Inv n v) :
    Res.Keeps (execSmovePartWritten lcore ring seq k s) n v := by
  unfold execSmovePartWritten
  with_reducible repeat' (first | apply Res.Keeps.need | assumption | apply smovePartWrittenStep_inv)

theorem State.atomAt_inv (s : State) (a : Party) (addr : Nat) (op : Nat) (opnd : Nat) (cmp : Nat) (hs0 : s.Inv n v) :
    (State.atomAt s a addr op opnd cmp).st.Inv n v := by
  unfold State.atomAt
  with_reducible repeat' (first | assumption | apply State.memRead_inv | apply State.memPut_inv | (dsimp only) | split)

theorem satomEffect_inv (aop : Nat) (x1 : Rsd) (x2 : Nat) (x3 : State) (hs3 : x3.Inv n v) :
    (satomEffect aop x1 x2 x3).Inv n v := by
  unfold satomEffect
  with_reducible
    repeat' (first
      | assumption | apply State.atomAt_inv | apply State.failMem_inv
      | apply State.launchFlight_inv | apply State.divergeFor_inv | (dsimp only) | split)

theorem State.fireAtom_inv (s : State) (lcore : Nat) (ring : Nat) (seq : Nat) (aop : Nat) (f : FireIn) (hs0 : s.Inv n v) :
    (State.fireAtom s lcore ring seq aop f).Inv n v := by
  unfold State.fireAtom
  with_reducible repeat' (first | assumption | apply State.fireIf_inv | apply satomEffect_inv)

theorem satomAddStep_inv (lcore : Nat) (ring : Nat) (seq : Nat) (f : FireIn) (s : State) (hs4 : s.Inv n v) :
    (satomAddStep lcore ring seq f s).Inv n v := by
  unfold satomAddStep
  with_reducible repeat' (first | assumption | apply State.fireAtom_inv)

theorem satomFaddStep_inv (lcore : Nat) (ring : Nat) (seq : Nat) (f : FireIn) (s : State) (hs4 : s.Inv n v) :
    (satomFaddStep lcore ring seq f s).Inv n v := by
  unfold satomFaddStep
  with_reducible repeat' (first | assumption | apply State.fireAtom_inv)

theorem satomSwapStep_inv (lcore : Nat) (ring : Nat) (seq : Nat) (f : FireIn) (s : State) (hs4 : s.Inv n v) :
    (satomSwapStep lcore ring seq f s).Inv n v := by
  unfold satomSwapStep
  with_reducible repeat' (first | assumption | apply State.fireAtom_inv)

theorem satomCasStep_inv (lcore : Nat) (ring : Nat) (seq : Nat) (f : FireIn) (s : State) (hs4 : s.Inv n v) :
    (satomCasStep lcore ring seq f s).Inv n v := by
  unfold satomCasStep
  with_reducible repeat' (first | assumption | apply State.fireAtom_inv)

theorem satomUmaxStep_inv (lcore : Nat) (ring : Nat) (seq : Nat) (f : FireIn) (s : State) (hs4 : s.Inv n v) :
    (satomUmaxStep lcore ring seq f s).Inv n v := by
  unfold satomUmaxStep
  with_reducible repeat' (first | assumption | apply State.fireAtom_inv)

theorem execSatomAdd_inv (lcore : Nat) (ring : Nat) (seq : Nat) (f : FireIn) (s : State) (hs4 : s.Inv n v) :
    Res.Keeps (execSatomAdd lcore ring seq f s) n v := by
  unfold execSatomAdd
  with_reducible repeat' (first | apply Res.Keeps.need | assumption | apply satomAddStep_inv)

theorem execSatomFadd_inv (lcore : Nat) (ring : Nat) (seq : Nat) (f : FireIn) (s : State) (hs4 : s.Inv n v) :
    Res.Keeps (execSatomFadd lcore ring seq f s) n v := by
  unfold execSatomFadd
  with_reducible repeat' (first | apply Res.Keeps.need | assumption | apply satomFaddStep_inv)

theorem execSatomSwap_inv (lcore : Nat) (ring : Nat) (seq : Nat) (f : FireIn) (s : State) (hs4 : s.Inv n v) :
    Res.Keeps (execSatomSwap lcore ring seq f s) n v := by
  unfold execSatomSwap
  with_reducible repeat' (first | apply Res.Keeps.need | assumption | apply satomSwapStep_inv)

theorem execSatomCas_inv (lcore : Nat) (ring : Nat) (seq : Nat) (f : FireIn) (s : State) (hs4 : s.Inv n v) :
    Res.Keeps (execSatomCas lcore ring seq f s) n v := by
  unfold execSatomCas
  with_reducible repeat' (first | apply Res.Keeps.need | assumption | apply satomCasStep_inv)

theorem execSatomUmax_inv (lcore : Nat) (ring : Nat) (seq : Nat) (f : FireIn) (s : State) (hs4 : s.Inv n v) :
    Res.Keeps (execSatomUmax lcore ring seq f s) n v := by
  unfold execSatomUmax
  with_reducible repeat' (first | apply Res.Keeps.need | assumption | apply satomUmaxStep_inv)

/-! Machine/Wake.lean. -/

theorem State.selfRefresh_inv (s : State) (b : Bool) (hs0 : s.Inv n v) :
    (State.selfRefresh s b).Inv n v := by
  unfold State.selfRefresh
  with_reducible repeat' (first | assumption | apply Inv.foldl | apply State.fput_inv | intro _ | split)

theorem State.portsWake_inv (s : State) (hs0 : s.Inv n v) :
    (State.portsWake s).Inv n v := by
  unfold State.portsWake
  with_reducible
    repeat' (first
      | assumption | apply Inv.foldl | apply State.leaveLs2_inv | apply State.answered_inv
      | intro _ | split)

theorem State.wake_inv (s : State) (hs0 : s.Inv n v) :
    (State.wake s).Inv n v := by
  unfold State.wake
  with_reducible
    repeat' (first
      | assumption | apply State.portsWake_inv | apply State.selfRefresh_inv
      | apply State.fset_inv | split)

/-! Machine/Attention.lean. -/

theorem gctlSeqtabWriteStep_inv (w : Who) (p : Nat) (v0 : Nat) (s : State) (hs3 : s.Inv n v) :
    (gctlSeqtabWriteStep w p v0 s).Inv n v := by
  unfold gctlSeqtabWriteStep
  with_reducible repeat' (first | assumption | apply State.when_inv | apply State.regWrite_inv | apply State.putRW_inv | intro _)

theorem execGctlSeqtabWrite_inv (w : Who) (p : Nat) (v0 : Nat) (s : State) (hs3 : s.Inv n v) :
    Res.Keeps (execGctlSeqtabWrite w p v0 s) n v := by
  unfold execGctlSeqtabWrite
  with_reducible repeat' (first | apply Res.Keeps.need | assumption | apply gctlSeqtabWriteStep_inv)

theorem State.orFail_inv (α : Type) (r : Rsd) (g : Got α) (k : α → State → State) (hs2 : g.2.Inv n v)
    (hs3 : ∀ y0 y1, y1.Inv n v → (k y0 y1).Inv n v) :
    (@State.orFail α r g k).Inv n v := by
  unfold State.orFail
  with_reducible repeat' (first | assumption | apply hs3 | apply State.attFail_inv | split)

theorem State.window_inv (α : Type) (s : State) (r : Rsd) (l : List Span) (k : State → Got α) (hs1 : s.Inv n v)
    (hs4 : ∀ y0, y0.Inv n v → (k y0).2.Inv n v) :
    (@State.window α s r l k).2.Inv n v := by
  unfold State.window
  with_reducible repeat' (first | assumption | apply hs4 | split)

theorem State.aselect_inv (s : State) (r : Rsd) (d : Nat) (hs0 : s.Inv n v) :
    (State.aselect s r d).2.Inv n v := by
  unfold State.aselect
  with_reducible
    repeat' (first
      | assumption | apply Got.then_inv | apply State.seqLookup_inv | apply State.window_inv
      | apply attBad_inv | apply State.freshSeq_inv | apply State.selectPages_inv | intro _ | split)

theorem aselectEffect_inv (f : FireIn) (x1 : Rsd) (x2 : Nat) (x3 : State) (hs3 : x3.Inv n v) :
    (aselectEffect f x1 x2 x3).Inv n v := by
  unfold aselectEffect
  with_reducible
    repeat' (first
      | assumption | apply State.withEcc_inv | apply State.orFail_inv
      | apply State.aselect_inv | apply State.launchFlight_inv | apply State.csWrite_inv | intro _)

theorem aselectStep_inv (lcore : Nat) (ring : Nat) (seq : Nat) (f : FireIn) (s : State) (hs4 : s.Inv n v) :
    (aselectStep lcore ring seq f s).Inv n v := by
  unfold aselectStep
  with_reducible repeat' (first | assumption | apply State.fire_inv | apply aselectEffect_inv)

theorem execAselect_inv (lcore : Nat) (ring : Nat) (seq : Nat) (f : FireIn) (s : State) (hs4 : s.Inv n v) :
    Res.Keeps (execAselect lcore ring seq f s) n v := by
  unfold execAselect
  with_reducible repeat' (first | apply Res.Keeps.need | assumption | apply aselectStep_inv)

theorem State.gatherList_inv (s : State) (r : Rsd) (d : Nat) (hs0 : s.Inv n v) :
    (State.gatherList s r d).2.Inv n v := by
  unfold State.gatherList
  with_reducible repeat' (first | assumption | apply State.window_inv | intro _ | split)

theorem State.agather_inv (s : State) (r : Rsd) (d : Nat) (hs0 : s.Inv n v) :
    (State.agather s r d).2.Inv n v := by
  unfold State.agather
  with_reducible
    repeat' (first
      | assumption | apply Got.then_inv | apply State.seqLookup_inv
      | apply State.gatherList_inv | apply State.window_inv | apply attBad_inv | apply State.freshSeq_inv | intro _ | split)

theorem agatherEffect_inv (f : FireIn) (x1 : Rsd) (x2 : Nat) (x3 : State) (hs3 : x3.Inv n v) :
    (agatherEffect f x1 x2 x3).Inv n v := by
  unfold agatherEffect
  with_reducible
    repeat' (first
      | assumption | apply State.withEcc_inv | apply State.orFail_inv
      | apply State.agather_inv | apply State.launchFlight_inv | intro _)

theorem agatherStep_inv (lcore : Nat) (ring : Nat) (seq : Nat) (f : FireIn) (s : State) (hs4 : s.Inv n v) :
    (agatherStep lcore ring seq f s).Inv n v := by
  unfold agatherStep
  with_reducible repeat' (first | assumption | apply State.fire_inv | apply agatherEffect_inv)

theorem execAgather_inv (lcore : Nat) (ring : Nat) (seq : Nat) (f : FireIn) (s : State) (hs4 : s.Inv n v) :
    Res.Keeps (execAgather lcore ring seq f s) n v := by
  unfold execAgather
  with_reducible repeat' (first | apply Res.Keeps.need | assumption | apply agatherStep_inv)

theorem State.shipBytes_inv (s : State) (r : Rsd) (d : Nat) (hs0 : s.Inv n v) :
    (State.shipBytes s r d).2.Inv n v := by
  unfold State.shipBytes
  with_reducible repeat' (first | assumption | apply State.attRead_inv | split)

theorem State.shipLocal_inv (s : State) (r : Rsd) (d : Nat) (hs0 : s.Inv n v) :
    (State.shipLocal s r d).2.Inv n v := by
  unfold State.shipLocal
  with_reducible
    repeat' (first
      | assumption | apply Got.then_inv | apply State.seqLookup_inv | apply State.shipTo_inv
      | apply State.shipBytes_inv | intro _)

theorem State.shipRemote_inv (s : State) (r : Rsd) (d : Nat) (hs0 : s.Inv n v) :
    (State.shipRemote s r d).Inv n v := by
  unfold State.shipRemote
  with_reducible
    repeat' (first
      | assumption | apply State.launchFlight_inv | apply State.beginFor_inv
      | simp only [Inv.mk_eq] | apply InvOf.mix)

theorem akvshipEffect_inv (f : FireIn) (x1 : Rsd) (x2 : Nat) (x3 : State) (hs3 : x3.Inv n v) :
    (akvshipEffect f x1 x2 x3).Inv n v := by
  unfold akvshipEffect
  with_reducible
    repeat' (first
      | assumption | apply State.withEcc_inv | apply State.orFail_inv
      | apply State.shipLocal_inv | apply State.launchFlight_inv | apply State.shipRemote_inv | intro _ | split)

theorem akvshipStep_inv (lcore : Nat) (ring : Nat) (seq : Nat) (f : FireIn) (s : State) (hs4 : s.Inv n v) :
    (akvshipStep lcore ring seq f s).Inv n v := by
  unfold akvshipStep
  with_reducible repeat' (first | assumption | apply State.fire_inv | apply akvshipEffect_inv)

theorem execAkvship_inv (lcore : Nat) (ring : Nat) (seq : Nat) (f : FireIn) (s : State) (hs4 : s.Inv n v) :
    Res.Keeps (execAkvship lcore ring seq f s) n v := by
  unfold execAkvship
  with_reducible repeat' (first | apply Res.Keeps.need | assumption | apply akvshipStep_inv)

theorem aqueryEffect_inv (f : FireIn) (x1 : Rsd) (x2 : Nat) (x3 : State) (hs3 : x3.Inv n v) :
    (aqueryEffect f x1 x2 x3).Inv n v := by
  unfold aqueryEffect
  with_reducible
    repeat' (first
      | assumption | apply State.withEcc_inv | apply State.launchFlight_inv | intro _
      | simp only [Inv.mk_eq] | apply InvOf.mix)

theorem aqueryStep_inv (lcore : Nat) (ring : Nat) (seq : Nat) (f : FireIn) (s : State) (hs4 : s.Inv n v) :
    (aqueryStep lcore ring seq f s).Inv n v := by
  unfold aqueryStep
  with_reducible repeat' (first | assumption | apply State.fire_inv | apply aqueryEffect_inv)

theorem execAquery_inv (lcore : Nat) (ring : Nat) (seq : Nat) (f : FireIn) (s : State) (hs4 : s.Inv n v) :
    Res.Keeps (execAquery lcore ring seq f s) n v := by
  unfold execAquery
  with_reducible repeat' (first | apply Res.Keeps.need | assumption | apply aqueryStep_inv)

theorem State.setShard_inv (s : State) (q : ShardQ) (hs0 : s.Inv n v) :
    (State.setShard s q).Inv n v := by
  unfold State.setShard
  with_reducible repeat' (first | assumption | simp only [Inv.mk_eq] | apply InvOf.mix)

theorem State.failQuery_inv (s : State) (q : ShardQ) (code : Nat) (hs0 : s.Inv n v) :
    (State.failQuery s q code).Inv n v := by
  unfold State.failQuery
  with_reducible repeat' (first | assumption | apply State.failDesc_inv | split)

theorem shardQuerySendStep_inv (n0 : Nat) (s : State) (hs1 : s.Inv n v) :
    (shardQuerySendStep n0 s).Inv n v := by
  unfold shardQuerySendStep
  with_reducible
    repeat' (first
      | assumption | apply State.when_inv | apply State.begin_inv | apply State.setShard_inv
      | apply State.failQuery_inv | intro _ | (dsimp only) | refine OptKeeps.get (by assumption) ?_ | split)

theorem execShardQuerySend_inv (n0 : Nat) (s : State) (hs1 : s.Inv n v) :
    Res.Keeps (execShardQuerySend n0 s) n v := by
  unfold execShardQuerySend
  with_reducible repeat' (first | apply Res.Keeps.next | assumption | apply shardQuerySendStep_inv)

theorem State.closeShard_inv (s : State) (q : ShardQ) (states : List Byte) (word : Nat) (hs0 : s.Inv n v) :
    (State.closeShard s q states word).Inv n v := by
  unfold State.closeShard
  with_reducible
    repeat' (first
      | assumption | apply State.setFlight_inv | apply State.csWrite_inv
      | simp only [Inv.mk_eq] | apply InvOf.mix | split)

theorem State.targetLost_inv (s : State) (q : ShardQ) (hs0 : s.Inv n v) :
    (State.targetLost s q).Inv n v := by
  unfold State.targetLost
  with_reducible
    repeat' (first
      | assumption | apply State.setShard_inv | apply State.diverge_inv
      | apply State.closeShard_inv | apply State.failQuery_inv | split)

theorem qtoExpiryStep_inv (n0 : Nat) (s : State) (hs1 : s.Inv n v) :
    (qtoExpiryStep n0 s).Inv n v := by
  unfold qtoExpiryStep
  with_reducible repeat' (first | assumption | apply State.when_inv | apply State.targetLost_inv | intro _ | split)

theorem execQtoExpiry_inv (n0 : Nat) (s : State) (hs1 : s.Inv n v) :
    Res.Keeps (execQtoExpiry n0 s) n v := by
  unfold execQtoExpiry
  with_reducible repeat' (first | apply Res.Keeps.next | assumption | apply qtoExpiryStep_inv)

theorem keepPay_inv (p : Pkt) (m : Msg) (s : State) (hs2 : s.Inv n v) :
    (keepPay p m s).st.Inv n v := by
  unfold keepPay
  with_reducible repeat' (first | assumption | apply State.setMsg_inv)

theorem State.arriveMsg_inv (s : State) (p : Pkt) (k : DStream → List Byte → State → State) (hs0 : s.Inv n v)
    (hs2 : ∀ y0 y1 y2, y2.Inv n v → (k y0 y1 y2).Inv n v) :
    (State.arriveMsg s p k).Inv n v := by
  unfold State.arriveMsg
  with_reducible
    repeat' (first
      | assumption | apply hs2 | apply State.arrive_inv | apply State.withMsg_inv
      | apply keepPay_inv | intro _ | split)

theorem State.qrespUnmatched_inv (s : State) (hs0 : s.Inv n v) :
    (State.qrespUnmatched s).Inv n v := by
  unfold State.qrespUnmatched
  with_reducible repeat' (first | assumption | apply State.fsat_inv)

theorem State.shardAnswer_inv (s : State) (q : ShardQ) (t : Nat) (h0 : Nat) (b : List Byte) (hs0 : s.Inv n v) :
    (State.shardAnswer s q t h0 b).Inv n v := by
  unfold State.shardAnswer
  with_reducible
    repeat' (first
      | assumption | apply State.closeShard_inv | apply State.targetLost_inv
      | apply State.setShard_inv | apply State.failQuery_inv | (dsimp only) | split)

theorem State.takePartial_inv (s : State) (p : Pkt) (b : List Byte) (hs0 : s.Inv n v) :
    (State.takePartial s p b).Inv n v := by
  unfold State.takePartial
  with_reducible
    repeat' (first
      | assumption | apply State.qrespUnmatched_inv | apply State.shardAnswer_inv
      | (dsimp only) | split)

theorem qrespPartialStep_inv (p : Pkt) (s : State) (hs1 : s.Inv n v) :
    (qrespPartialStep p s).Inv n v := by
  unfold qrespPartialStep
  with_reducible
    repeat' (first
      | assumption | apply State.when_inv | apply State.arriveMsg_inv
      | apply State.takePartial_inv | intro _)

theorem execQrespPartial_inv (p : Pkt) (s : State) (hs1 : s.Inv n v) :
    Res.Keeps (execQrespPartial p s) n v := by
  unfold execQrespPartial
  with_reducible repeat' (first | apply Res.Keeps.next | assumption | apply qrespPartialStep_inv)

theorem State.takeKvack_inv (s : State) (b : List Byte) (hs0 : s.Inv n v) :
    (State.takeKvack s b).Inv n v := by
  unfold State.takeKvack
  with_reducible
    repeat' (first
      | assumption | apply State.qrespUnmatched_inv | apply State.setFlight_inv
      | apply State.failDesc_inv | simp only [Inv.mk_eq] | apply InvOf.mix | split)

theorem kvackStep_inv (p : Pkt) (s : State) (hs1 : s.Inv n v) :
    (kvackStep p s).Inv n v := by
  unfold kvackStep
  with_reducible
    repeat' (first
      | assumption | apply State.when_inv | apply State.arriveMsg_inv
      | apply State.takeKvack_inv | intro _)

theorem execKvack_inv (p : Pkt) (s : State) (hs1 : s.Inv n v) :
    Res.Keeps (execKvack p s) n v := by
  unfold execKvack
  with_reducible repeat' (first | apply Res.Keeps.next | assumption | apply kvackStep_inv)

theorem State.serviceReset_inv (s : State) (ctx : Nat) (e : Nat × Nat) (hs0 : s.Inv n v) :
    (State.serviceReset s ctx e).Inv n v := by
  unfold State.serviceReset
  with_reducible repeat' (first | assumption | apply State.ctxReset_inv)

theorem State.remoteSeq_inv (s : State) (part : Nat) (world : Nat) (slot : Nat) (id : Nat) (hs0 : s.Inv n v) :
    (State.remoteSeq s part world slot id).2.Inv n v := by
  unfold State.remoteSeq
  with_reducible repeat' (first | assumption | apply State.seqLookup_inv | apply attBad_inv | (dsimp only) | split)

theorem State.remoteCheck_inv (s : State) (part : Nat) (world : Nat) (slot : Nat) (id : Nat) (hs0 : s.Inv n v) :
    (State.remoteCheck s part world slot id).2.Inv n v := by
  unfold State.remoteCheck
  with_reducible
    repeat' (first
      | assumption | apply Got.then_inv | apply State.remoteSeq_inv | apply attBad_inv
      | intro _ | (dsimp only) | split)

theorem State.judgeQuery_inv (s : State) (part : Nat) (world : Nat) (h0 : Nat) (b : List Byte) (hs0 : s.Inv n v) :
    (State.judgeQuery s part world h0 b).2.Inv n v := by
  unfold State.judgeQuery
  with_reducible
    repeat' (first
      | assumption | apply attBad_inv | apply Got.then_inv | apply State.remoteCheck_inv
      | intro _ | split)

theorem State.takeQuery_inv (s : State) (p : Pkt) (t : DStream) (b : List Byte) (hs0 : s.Inv n v) :
    (State.takeQuery s p t b).Inv n v := by
  unfold State.takeQuery
  with_reducible
    repeat' (first
      | assumption | apply State.wake_inv | apply State.judgeQuery_inv
      | apply State.qrespErr_inv | simp only [Inv.mk_eq] | apply InvOf.mix | split)

theorem queryStep_inv (p : Pkt) (hbm : List Nat) (s : State) (hs2 : s.Inv n v) :
    (queryStep p hbm s).Inv n v := by
  unfold queryStep
  with_reducible
    repeat' (first
      | assumption | apply State.when_inv | apply State.arriveMsg_inv
      | apply State.markBad_inv | apply State.takeQuery_inv | intro _)

theorem execQuery_inv (p : Pkt) (hbm : List Nat) (s : State) (hs2 : s.Inv n v) :
    Res.Keeps (execQuery p hbm s) n v := by
  unfold execQuery
  with_reducible repeat' (first | apply Res.Keeps.next | assumption | apply queryStep_inv)

theorem State.servePartials_inv (s : State) (q : QHeld) (hs0 : s.Inv n v) :
    (State.servePartials s q).2.Inv n v := by
  unfold State.servePartials
  with_reducible
    repeat' (first
      | assumption | apply Got.then_inv | apply State.seqLookup_inv
      | apply State.freshSeq_inv | apply State.selectPages_inv | apply gotAll_inv | apply State.readPage_inv | intro _)

theorem State.dropHeld_inv (s : State) (n0 : Nat) (hs0 : s.Inv n v) :
    (State.dropHeld s n0).Inv n v := by
  unfold State.dropHeld
  with_reducible repeat' (first | assumption | simp only [Inv.mk_eq] | apply InvOf.mix)

theorem queryServeStep_inv (n0 : Nat) (hbm : List Nat) (s : State) (hs2 : s.Inv n v) :
    (queryServeStep n0 hbm s).Inv n v := by
  unfold queryServeStep
  with_reducible
    repeat' (first
      | assumption | apply State.when_inv | apply State.servePartials_inv
      | apply State.markBad_inv | apply State.qresp_inv | apply State.dropHeld_inv | apply State.serviceReset_inv
      | apply State.qrespErr_inv | intro _ | (dsimp only) | split)

theorem execQueryServe_inv (n0 : Nat) (hbm : List Nat) (s : State) (hs2 : s.Inv n v) :
    Res.Keeps (execQueryServe n0 hbm s) n v := by
  unfold execQueryServe
  with_reducible repeat' (first | apply Res.Keeps.next | assumption | apply queryServeStep_inv)

theorem queryStaleTimeoutStep_inv (n0 : Nat) (s : State) (hs1 : s.Inv n v) :
    (queryStaleTimeoutStep n0 s).Inv n v := by
  unfold queryStaleTimeoutStep
  with_reducible
    repeat' (first
      | assumption | apply State.when_inv | apply State.qrespErr_inv
      | apply State.dropHeld_inv | intro _ | (dsimp only) | split)

theorem execQueryStaleTimeout_inv (n0 : Nat) (s : State) (hs1 : s.Inv n v) :
    Res.Keeps (execQueryStaleTimeout n0 s) n v := by
  unfold execQueryStaleTimeout
  with_reducible repeat' (first | apply Res.Keeps.next | assumption | apply queryStaleTimeoutStep_inv)

theorem State.shipAt_inv (s : State) (part : Nat) (world : Nat) (b : List Byte) (hs0 : s.Inv n v) :
    (State.shipAt s part world b).2.Inv n v := by
  unfold State.shipAt
  with_reducible
    repeat' (first
      | assumption | apply attBad_inv | apply Got.then_inv | apply State.remoteCheck_inv
      | apply State.shipTo_inv | apply State.serviceReset_inv | intro _ | (dsimp only) | split)

theorem State.takeShip_inv (s : State) (p : Pkt) (t : DStream) (b : List Byte) (hs0 : s.Inv n v) :
    (State.takeShip s p t b).Inv n v := by
  unfold State.takeShip
  with_reducible repeat' (first | assumption | apply State.shipAt_inv | apply State.wake_inv | apply State.qresp_inv)

theorem kvShipmentStep_inv (p : Pkt) (hbm : List Nat) (s : State) (hs2 : s.Inv n v) :
    (kvShipmentStep p hbm s).Inv n v := by
  unfold kvShipmentStep
  with_reducible
    repeat' (first
      | assumption | apply State.when_inv | apply State.arriveMsg_inv
      | apply State.markBad_inv | apply State.takeShip_inv | intro _)

theorem execKvShipment_inv (p : Pkt) (hbm : List Nat) (s : State) (hs2 : s.Inv n v) :
    Res.Keeps (execKvShipment p hbm s) n v := by
  unfold execKvShipment
  with_reducible repeat' (first | apply Res.Keeps.next | assumption | apply kvShipmentStep_inv)

end Sys2Proof.Machine
end

