-- ==== Sys2Proof/Laws/InvFabric.lean ====
section
/-! SUPPORT. One lemma for each definition that gives a state: it keeps `State.Inv`. Here: what
the collective, fabric, token and front-end commands keep. -/

namespace Sys2Proof.Machine

variable {n : Nat} {v : Nat → Nat}

/-! Machine/CollOps.lean. -/

theorem State.collCheck_inv (s : State) (_ctx : Nat) (w : Nat) (hs0 : s.Inv n v) :
    (State.collCheck s _ctx w).2.2.2.Inv n v := by
  unfold State.collCheck
  with_reducible repeat' (first | assumption)

theorem State.setInst_inv (s : State) (i : Inst) (hs0 : s.Inv n v) :
    (State.setInst s i).Inv n v := by
  unfold State.setInst
  with_reducible repeat' (first | assumption | simp only [Inv.mk_eq] | apply InvOf.mix)

theorem State.instUp_inv (s : State) (i : Inst) (hs0 : s.Inv n v) :
    (State.instUp s i).Inv n v := by
  unfold State.instUp
  with_reducible repeat' (first | assumption | apply State.progress_inv | apply State.setInst_inv)

theorem State.checkInst_inv (s : State) (g : Nat) (q : Nat) (hs0 : s.Inv n v) :
    (State.checkInst s g q).Inv n v := by
  unfold State.checkInst
  with_reducible repeat' (first | assumption | apply State.undefRest_inv | simp only [Inv.mk_eq] | apply InvOf.mix | split)

theorem State.instSend_inv (s : State) (i : Inst) (x : Xfer) (hs0 : s.Inv n v) :
    (State.instSend s i x).Inv n v := by
  unfold State.instSend
  with_reducible
    repeat' (first
      | assumption | apply State.begin_inv | apply State.failInst_inv
      | refine OptKeeps.get (by assumption) ?_ | split)

theorem State.instMsg_inv (s : State) (i : Inst) (owner : Owner) (dest : Nat) (hdr : List Byte) (hs0 : s.Inv n v) :
    (State.instMsg s i owner dest hdr).Inv n v := by
  unfold State.instMsg
  with_reducible repeat' (first | assumption | apply State.instSend_inv)

theorem State.grantPieces_inv (s : State) (i : Inst) (pkind : Nat) (n0 : Nat) (hs0 : s.Inv n v) :
    (State.grantPieces s i pkind n0).Inv n v := by
  unfold State.grantPieces
  with_reducible repeat' (first | assumption | apply State.instMsg_inv)

theorem State.addColl_inv (s : State) (i : Inst) (ctr : Nat) (inc : Nat) (hs0 : s.Inv n v) :
    (State.addColl s i ctr inc).Inv n v := by
  unfold State.addColl
  with_reducible repeat' (first | assumption | apply State.failInst_inv | apply State.setInst_inv | split)

theorem State.signalColl_inv (s : State) (g : Nat) (q : Nat) (kind : Nat) (a : Nat) (b : Nat) (hs0 : s.Inv n v) :
    (State.signalColl s g q kind a b).Inv n v := by
  unfold State.signalColl
  with_reducible
    repeat' (first
      | assumption | apply State.addColl_inv | apply State.setInst_inv
      | apply State.logC_inv | simp only [Inv.mk_eq] | apply InvOf.mix | split)

theorem State.applyEarly_inv (s : State) (g : Nat) (q : Nat) (hs0 : s.Inv n v) :
    (State.applyEarly s g q).Inv n v := by
  unfold State.applyEarly
  with_reducible
    repeat' (first
      | assumption | apply Inv.foldl | apply State.signalColl_inv | intro _
      | simp only [Inv.mk_eq] | apply InvOf.mix)

theorem State.member_inv (s : State) (i : Inst) (m : Nat) (hs0 : s.Inv n v) :
    (State.member s i m).st.Inv n v := by
  unfold State.member
  with_reducible repeat' (first | assumption | apply State.memRead_inv)

theorem State.ackedColl_inv (s : State) (x : Xfer) (hs0 : s.Inv n v) :
    (State.ackedColl s x).Inv n v := by
  unfold State.ackedColl
  with_reducible
    repeat' (first
      | assumption | apply State.checkInst_inv | apply State.dropXfers_inv
      | apply State.setInst_inv | (dsimp only) | split)

theorem State.ackProgress_inv (s : State) (x : Xfer) (hs0 : s.Inv n v) :
    (State.ackProgress s x).Inv n v := by
  unfold State.ackProgress
  with_reducible repeat' (first | assumption | apply State.instUp_inv | (dsimp only) | split)

/-! Machine/FabricRows.lean. -/

theorem State.abandonId_inv (s : State) (id : Nat) (hs0 : s.Inv n v) :
    (State.abandonId s id).Inv n v := by
  unfold State.abandonId
  with_reducible repeat' (first | assumption | apply State.abandon_inv | split)

theorem State.refuseGet_inv (s : State) (x : Xfer) (code : Nat) (hs0 : s.Inv n v) :
    (State.refuseGet s x code).Inv n v := by
  unfold State.refuseGet
  with_reducible repeat' (first | assumption | apply State.hubSend_inv)

theorem State.failFlight_inv (s : State) (lcore : Nat) (ring : Nat) (seq : Nat) (fid : Nat) (code : Nat) (data : Nat)
    (hs0 : s.Inv n v) :
    (State.failFlight s lcore ring seq fid code data).Inv n v := by
  unfold State.failFlight
  with_reducible repeat' (first | assumption | apply State.failData_inv | split)

theorem State.failShard_inv (s : State) (x : Xfer) (tag : Nat) (hs0 : s.Inv n v) :
    (State.failShard s x tag).Inv n v := by
  unfold State.failShard
  with_reducible repeat' (first | assumption | apply State.targetLost_inv | split)

theorem State.resyncFail_inv (s : State) (hs0 : s.Inv n v) :
    (State.resyncFail s).Inv n v := by
  unfold State.resyncFail
  with_reducible
    repeat' (first
      | assumption | apply State.fset_inv | apply State.log_inv | simp only [Inv.mk_eq]
      | apply InvOf.mix | split)

theorem State.failXfer_inv (s : State) (x : Xfer) (code : Nat) (at_ : Nat) (hs0 : s.Inv n v) :
    (State.failXfer s x code at_).Inv n v := by
  unfold State.failXfer
  with_reducible
    repeat' (first
      | assumption | apply State.failFlight_inv | apply State.failShard_inv
      | apply State.abandonId_inv | apply State.failInst_inv | apply State.refuseGet_inv | apply State.resyncFail_inv | split)

theorem State.payFor_inv (s : State) (x : Xfer) (off : Nat) (len : Nat) (hs0 : s.Inv n v) :
    (State.payFor s x off len).st.Inv n v := by
  unfold State.payFor
  with_reducible repeat' (first | assumption | apply State.srcRead_inv | split)

theorem State.sendRead_inv (s : State) (id : Nat) (hs0 : s.Inv n v) :
    (State.sendRead s id).Inv n v := by
  unfold State.sendRead
  with_reducible
    repeat' (first
      | assumption | apply State.payFor_inv | apply State.failXfer_inv
      | apply State.sendNext_inv | (dsimp only) | split)

theorem State.eccFor_inv (s : State) (x : Xfer) (ecc : Ecc) (k : State → State) (hs0 : s.Inv n v)
    (hs3 : ∀ y0, y0.Inv n v → (k y0).Inv n v) :
    (State.eccFor s x ecc k).Inv n v := by
  unfold State.eccFor
  with_reducible repeat' (first | assumption | apply hs3 | apply State.withEcc_inv | split)

theorem packetSendStep_inv (id : Nat) (hbm : List Nat) (ecc : Ecc) (s : State) (hs3 : s.Inv n v) :
    (packetSendStep id hbm ecc s).Inv n v := by
  unfold packetSendStep
  with_reducible
    repeat' (first
      | assumption | apply State.when_inv | apply State.voidRest_inv
      | apply State.failXfer_inv | apply State.eccFor_inv | apply State.markBad_inv | apply State.sendRead_inv | intro _
      | split)

theorem execPacketSend_inv (id : Nat) (hbm : List Nat) (ecc : Ecc) (s : State) (hs3 : s.Inv n v) :
    Res.Keeps (execPacketSend id hbm ecc s) n v := by
  unfold execPacketSend
  with_reducible repeat' (first | apply Res.Keeps.next | assumption | apply packetSendStep_inv)

theorem State.setOut_inv (s : State) (t : SStream) (o : OutPkt) (hs0 : s.Inv n v) :
    (State.setOut s t o).Inv n v := by
  unfold State.setOut
  with_reducible repeat' (first | assumption | apply State.setStream_inv)

theorem State.resend_inv (s : State) (t : SStream) (o : OutPkt) (ecc : Ecc) (hs0 : s.Inv n v) :
    (State.resend s t o ecc).Inv n v := by
  unfold State.resend
  with_reducible
    repeat' (first
      | assumption | apply State.hubSend_inv | apply State.setOut_inv
      | apply State.eccFor_inv | apply State.payFor_inv | apply State.failXfer_inv | intro _ | (dsimp only) | split)

theorem rtoTimeoutStep_inv (ep : Nat) (dmod : Nat) (dep : Nat) (seq : Nat) (hbm : List Nat) (ecc : Ecc) (s : State)
    (hs6 : s.Inv n v) :
    (rtoTimeoutStep ep dmod dep seq hbm ecc s).Inv n v := by
  unfold rtoTimeoutStep
  with_reducible
    repeat' (first
      | assumption | apply State.when_inv | apply State.resend_inv | apply State.markBad_inv
      | intro _ | split)

theorem execRtoTimeout_inv (ep : Nat) (dmod : Nat) (dep : Nat) (seq : Nat) (hbm : List Nat) (ecc : Ecc) (s : State)
    (hs6 : s.Inv n v) :
    Res.Keeps (execRtoTimeout ep dmod dep seq hbm ecc s) n v := by
  unfold execRtoTimeout
  with_reducible repeat' (first | apply Res.Keeps.next | assumption | apply rtoTimeoutStep_inv)

theorem windowStallStep_inv (ep : Nat) (dmod : Nat) (dep : Nat) (s : State) (hs3 : s.Inv n v) :
    (windowStallStep ep dmod dep s).Inv n v := by
  unfold windowStallStep
  with_reducible repeat' (first | assumption | apply State.when_inv | apply State.failXfer_inv | intro _ | split)

theorem execWindowStall_inv (ep : Nat) (dmod : Nat) (dep : Nat) (s : State) (hs3 : s.Inv n v) :
    Res.Keeps (execWindowStall ep dmod dep s) n v := by
  unfold execWindowStall
  with_reducible repeat' (first | apply Res.Keeps.next | assumption | apply windowStallStep_inv)

theorem State.releaseStream_inv (s : State) (t : SStream) (hs0 : s.Inv n v) :
    (State.releaseStream s t).Inv n v := by
  unfold State.releaseStream
  with_reducible repeat' (first | assumption | apply State.dropXfers_inv | simp only [Inv.mk_eq] | apply InvOf.mix)

theorem voidStallStep_inv (ep : Nat) (dmod : Nat) (dep : Nat) (s : State) (hs3 : s.Inv n v) :
    (voidStallStep ep dmod dep s).Inv n v := by
  unfold voidStallStep
  with_reducible
    repeat' (first
      | assumption | apply State.when_inv | apply State.log_inv
      | apply State.releaseStream_inv | intro _ | split)

theorem execVoidStall_inv (ep : Nat) (dmod : Nat) (dep : Nat) (s : State) (hs3 : s.Inv n v) :
    Res.Keeps (execVoidStall ep dmod dep s) n v := by
  unfold execVoidStall
  with_reducible repeat' (first | apply Res.Keeps.next | assumption | apply voidStallStep_inv)

theorem streamIdleStep_inv (smod : Nat) (sep : Nat) (dep : Nat) (s : State) (hs3 : s.Inv n v) :
    (streamIdleStep smod sep dep s).Inv n v := by
  unfold streamIdleStep
  with_reducible repeat' (first | assumption | apply State.when_inv | intro _ | simp only [Inv.mk_eq] | apply InvOf.mix | split)

theorem execStreamIdle_inv (smod : Nat) (sep : Nat) (dep : Nat) (s : State) (hs3 : s.Inv n v) :
    Res.Keeps (execStreamIdle smod sep dep s) n v := by
  unfold execStreamIdle
  with_reducible repeat' (first | apply Res.Keeps.next | assumption | apply streamIdleStep_inv)

theorem sourceStreamReleaseStep_inv (ep : Nat) (dmod : Nat) (dep : Nat) (s : State) (hs3 : s.Inv n v) :
    (sourceStreamReleaseStep ep dmod dep s).Inv n v := by
  unfold sourceStreamReleaseStep
  with_reducible repeat' (first | assumption | apply State.when_inv | apply State.releaseStream_inv | intro _ | split)

theorem execSourceStreamRelease_inv (ep : Nat) (dmod : Nat) (dep : Nat) (s : State) (hs3 : s.Inv n v) :
    Res.Keeps (execSourceStreamRelease ep dmod dep s) n v := by
  unfold execSourceStreamRelease
  with_reducible repeat' (first | apply Res.Keeps.next | assumption | apply sourceStreamReleaseStep_inv)

theorem State.ackedMore_inv (s : State) (x : Xfer) (hs0 : s.Inv n v) :
    (State.ackedMore s x).Inv n v := by
  unfold State.ackedMore
  with_reducible
    repeat' (first
      | assumption | apply State.ackProgress_inv | apply State.dropXfers_inv
      | apply State.ackedColl_inv | split)

theorem ackStep_inv (p : Pkt) (s : State) (hs1 : s.Inv n v) :
    (ackStep p s).Inv n v := by
  unfold ackStep
  with_reducible
    repeat' (first
      | assumption | apply Inv.foldl | apply State.when_inv | apply State.release_inv
      | apply State.ackedMore_inv | intro _)

theorem execAck_inv (p : Pkt) (s : State) (hs1 : s.Inv n v) :
    Res.Keeps (execAck p s) n v := by
  unfold execAck
  with_reducible repeat' (first | apply Res.Keeps.next | assumption | apply ackStep_inv)

theorem State.dropOut_inv (s : State) (t : SStream) (o : OutPkt) (hs0 : s.Inv n v) :
    (State.dropOut s t o).Inv n v := by
  unfold State.dropOut
  with_reducible repeat' (first | assumption | apply State.dropXfers_inv | apply State.setStream_inv)

theorem State.failOut_inv (s : State) (o : OutPkt) (code : Nat) (hs0 : s.Inv n v) :
    (State.failOut s o code).Inv n v := by
  unfold State.failOut
  with_reducible repeat' (first | assumption | apply State.failXfer_inv | split)

theorem State.nacked_inv (s : State) (t : SStream) (o : OutPkt) (code : Nat) (ecc : Ecc) (hs0 : s.Inv n v) :
    (State.nacked s t o code ecc).Inv n v := by
  unfold State.nacked
  with_reducible
    repeat' (first
      | assumption | apply State.failOut_inv | apply State.setOut_inv
      | apply State.resend_inv | apply State.dropOut_inv | (dsimp only) | split)

theorem nackStep_inv (p : Pkt) (hbm : List Nat) (ecc : Ecc) (s : State) (hs3 : s.Inv n v) :
    (nackStep p hbm ecc s).Inv n v := by
  unfold nackStep
  with_reducible
    repeat' (first
      | assumption | apply State.when_inv | apply State.nacked_inv | apply State.markBad_inv
      | apply State.failXfer_inv | intro _ | (dsimp only) | split)

theorem execNack_inv (p : Pkt) (hbm : List Nat) (ecc : Ecc) (s : State) (hs3 : s.Inv n v) :
    Res.Keeps (execNack p hbm ecc s) n v := by
  unfold execNack
  with_reducible repeat' (first | apply Res.Keeps.next | assumption | apply nackStep_inv)

theorem putStep_inv (p : Pkt) (hbm : List Nat) (s : State) (hs2 : s.Inv n v) :
    (putStep p hbm s).Inv n v := by
  unfold putStep
  with_reducible
    repeat' (first
      | assumption | apply State.when_inv | apply State.arrive_inv | apply State.markBad_inv
      | apply State.withMsg_inv | apply State.memWrite_inv | intro _)

theorem execPut_inv (p : Pkt) (hbm : List Nat) (s : State) (hs2 : s.Inv n v) :
    Res.Keeps (execPut p hbm s) n v := by
  unfold execPut
  with_reducible repeat' (first | apply Res.Keeps.next | assumption | apply putStep_inv)

theorem getReqStep_inv (p : Pkt) (s : State) (hs1 : s.Inv n v) :
    (getReqStep p s).Inv n v := by
  unfold getReqStep
  with_reducible
    repeat' (first
      | assumption | apply State.when_inv | apply State.arrive_inv | apply State.finish_inv
      | apply State.sendNack_inv | intro _ | simp only [Inv.mk_eq] | apply InvOf.mix | split)

theorem execGetReq_inv (p : Pkt) (s : State) (hs1 : s.Inv n v) :
    Res.Keeps (execGetReq p s) n v := by
  unfold execGetReq
  with_reducible repeat' (first | apply Res.Keeps.next | assumption | apply getReqStep_inv)

theorem State.respond_inv (s : State) (dep : Nat) (smod : Nat) (sep : Nat) (part : Nat) (world : Nat) (msgid : Nat)
    (raddr : Nat) (total : Nat) (seq : Nat) (src : Src) (hs0 : s.Inv n v) :
    (State.respond s dep smod sep part world msgid raddr total seq src).Inv n v := by
  unfold State.respond
  with_reducible repeat' (first | assumption | apply Inv.foldl | apply State.beginHub_inv | intro _)

theorem getServeStep_inv (n0 : Nat) (s : State) (hs1 : s.Inv n v) :
    (getServeStep n0 s).Inv n v := by
  unfold getServeStep
  with_reducible
    repeat' (first
      | assumption | apply State.when_inv | apply State.respond_inv | intro _
      | simp only [Inv.mk_eq] | apply InvOf.mix | split)

theorem execGetServe_inv (n0 : Nat) (s : State) (hs1 : s.Inv n v) :
    Res.Keeps (execGetServe n0 s) n v := by
  unfold execGetServe
  with_reducible repeat' (first | apply Res.Keeps.next | assumption | apply getServeStep_inv)

theorem State.gotBytes_inv (s : State) (x : Xfer) (off : Nat) (n0 : Nat) (hs0 : s.Inv n v) :
    (State.gotBytes s x off n0).Inv n v := by
  unfold State.gotBytes
  with_reducible
    repeat' (first
      | assumption | apply State.ackProgress_inv | apply State.setXfer_inv
      | apply State.ackedColl_inv | (dsimp only) | split)

theorem State.respWrite_inv (s : State) (p : Pkt) (t : DStream) (hs0 : s.Inv n v) :
    (State.respWrite s p t).st.Inv n v := by
  unfold State.respWrite
  with_reducible
    repeat' (first
      | assumption | apply State.memWrite_inv | apply State.failXfer_inv
      | apply State.gotBytes_inv | apply State.csWrite_inv | (dsimp only) | split)

theorem getRespStep_inv (p : Pkt) (hbm : List Nat) (s : State) (hs2 : s.Inv n v) :
    (getRespStep p hbm s).Inv n v := by
  unfold getRespStep
  with_reducible
    repeat' (first
      | assumption | apply State.when_inv | apply State.arrive_inv | apply State.markBad_inv
      | apply State.withMsg_inv | apply State.respWrite_inv | intro _)

theorem execGetResp_inv (p : Pkt) (hbm : List Nat) (s : State) (hs2 : s.Inv n v) :
    Res.Keeps (execGetResp p hbm s) n v := by
  unfold execGetResp
  with_reducible repeat' (first | apply Res.Keeps.next | assumption | apply getRespStep_inv)

theorem State.inboundAtom_inv (s : State) (p : Pkt) (t : DStream) (hs0 : s.Inv n v) :
    (State.inboundAtom s p t).st.Inv n v := by
  unfold State.inboundAtom
  with_reducible
    repeat' (first
      | assumption | apply State.drew_inv | apply State.memRead_inv | apply State.memPut_inv
      | apply State.respond_inv | (dsimp only) | split)

theorem atomicStep_inv (p : Pkt) (hbm : List Nat) (s : State) (hs2 : s.Inv n v) :
    (atomicStep p hbm s).Inv n v := by
  unfold atomicStep
  with_reducible
    repeat' (first
      | assumption | apply State.when_inv | apply State.arrive_inv | apply State.markBad_inv
      | apply State.withMsg_inv | apply State.inboundAtom_inv | intro _)

theorem execAtomic_inv (p : Pkt) (hbm : List Nat) (s : State) (hs2 : s.Inv n v) :
    Res.Keeps (execAtomic p hbm s) n v := by
  unfold execAtomic
  with_reducible repeat' (first | apply Res.Keeps.next | assumption | apply atomicStep_inv)

theorem mgmtStep_inv (p : Pkt) (s : State) (hs1 : s.Inv n v) :
    (mgmtStep p s).Inv n v := by
  unfold mgmtStep
  with_reducible
    repeat' (first
      | assumption | apply State.when_inv | apply State.arriveMsg_inv
      | apply State.reshape_inv | intro _)

theorem execMgmt_inv (p : Pkt) (s : State) (hs1 : s.Inv n v) :
    Res.Keeps (execMgmt p s) n v := by
  unfold execMgmt
  with_reducible repeat' (first | apply Res.Keeps.next | assumption | apply mgmtStep_inv)

/-! Machine/TokenRows.lean. -/

theorem State.finishNow_inv (s : State) (r : Rsd) (d : Nat) (hs0 : s.Inv n v) :
    (State.finishNow s r d).Inv n v := by
  unfold State.finishNow
  with_reducible
    repeat' (first
      | assumption | apply State.headerSig_inv | apply State.dumpTensor_inv
      | simp only [Inv.mk_eq] | apply InvOf.mix)

theorem tsigEffect_inv (x0 : Rsd) (x1 : Nat) (x2 : State) (hs2 : x2.Inv n v) :
    (tsigEffect x0 x1 x2).Inv n v := by
  unfold tsigEffect
  with_reducible repeat' (first | assumption | apply State.finishNow_inv)

theorem tsigStep_inv (lcore : Nat) (ring : Nat) (seq : Nat) (f : FireIn) (s : State) (hs4 : s.Inv n v) :
    (tsigStep lcore ring seq f s).Inv n v := by
  unfold tsigStep
  with_reducible repeat' (first | assumption | apply State.fire_inv | apply tsigEffect_inv)

theorem execTsig_inv (lcore : Nat) (ring : Nat) (seq : Nat) (f : FireIn) (s : State) (hs4 : s.Inv n v) :
    Res.Keeps (execTsig lcore ring seq f s) n v := by
  unfold execTsig
  with_reducible repeat' (first | apply Res.Keeps.need | assumption | apply tsigStep_inv)

theorem tsigallEffect_inv (x0 : Rsd) (x1 : Nat) (x2 : State) (hs2 : x2.Inv n v) :
    (tsigallEffect x0 x1 x2).Inv n v := by
  unfold tsigallEffect
  with_reducible
    repeat' (first
      | assumption | apply Inv.foldl | apply State.finishNow_inv | apply State.sendSig_inv
      | intro _ | split)

theorem tsigallStep_inv (lcore : Nat) (ring : Nat) (seq : Nat) (f : FireIn) (s : State) (hs4 : s.Inv n v) :
    (tsigallStep lcore ring seq f s).Inv n v := by
  unfold tsigallStep
  with_reducible repeat' (first | assumption | apply State.fire_inv | apply tsigallEffect_inv)

theorem execTsigall_inv (lcore : Nat) (ring : Nat) (seq : Nat) (f : FireIn) (s : State) (hs4 : s.Inv n v) :
    Res.Keeps (execTsigall lcore ring seq f s) n v := by
  unfold execTsigall
  with_reducible repeat' (first | apply Res.Keeps.need | assumption | apply tsigallStep_inv)

theorem treadEffect_inv (x0 : Rsd) (x1 : Nat) (x2 : State) (hs2 : x2.Inv n v) :
    (treadEffect x0 x1 x2).Inv n v := by
  unfold treadEffect
  with_reducible repeat' (first | assumption | apply State.finishNow_inv | apply State.csWrite_inv | apply State.divergeFor_inv)

theorem treadStep_inv (lcore : Nat) (ring : Nat) (seq : Nat) (f : FireIn) (s : State) (hs4 : s.Inv n v) :
    (treadStep lcore ring seq f s).Inv n v := by
  unfold treadStep
  with_reducible repeat' (first | assumption | apply State.fire_inv | apply treadEffect_inv)

theorem execTread_inv (lcore : Nat) (ring : Nat) (seq : Nat) (f : FireIn) (s : State) (hs4 : s.Inv n v) :
    Res.Keeps (execTread lcore ring seq f s) n v := by
  unfold execTread
  with_reducible repeat' (first | apply Res.Keeps.need | assumption | apply treadStep_inv)

theorem loopbEffect_inv (x0 : Rsd) (x1 : Nat) (x2 : State) (hs2 : x2.Inv n v) :
    (loopbEffect x0 x1 x2).Inv n v := by
  unfold loopbEffect
  with_reducible repeat' (first | assumption | apply State.finishNow_inv | apply State.setRsd_inv)

theorem loopbStep_inv (lcore : Nat) (ring : Nat) (seq : Nat) (f : FireIn) (s : State) (hs4 : s.Inv n v) :
    (loopbStep lcore ring seq f s).Inv n v := by
  unfold loopbStep
  with_reducible repeat' (first | assumption | apply State.fire_inv | apply loopbEffect_inv)

theorem execLoopb_inv (lcore : Nat) (ring : Nat) (seq : Nat) (f : FireIn) (s : State) (hs4 : s.Inv n v) :
    Res.Keeps (execLoopb lcore ring seq f s) n v := by
  unfold execLoopb
  with_reducible repeat' (first | apply Res.Keeps.need | assumption | apply loopbStep_inv)

theorem loopeEffect_inv (x0 : Rsd) (x1 : Nat) (x2 : State) (hs2 : x2.Inv n v) :
    (loopeEffect x0 x1 x2).Inv n v := by
  unfold loopeEffect
  with_reducible repeat' (first | assumption | apply State.finishNow_inv | apply State.setRsd_inv)

theorem loopeStep_inv (lcore : Nat) (ring : Nat) (seq : Nat) (f : FireIn) (s : State) (hs4 : s.Inv n v) :
    (loopeStep lcore ring seq f s).Inv n v := by
  unfold loopeStep
  with_reducible repeat' (first | assumption | apply State.fire_inv | apply loopeEffect_inv)

theorem execLoope_inv (lcore : Nat) (ring : Nat) (seq : Nat) (f : FireIn) (s : State) (hs4 : s.Inv n v) :
    Res.Keeps (execLoope lcore ring seq f s) n v := by
  unfold execLoope
  with_reducible repeat' (first | apply Res.Keeps.need | assumption | apply loopeStep_inv)

theorem skipEffect_inv (e : Ecc) (x1 : Rsd) (x2 : Nat) (x3 : State) (hs3 : x3.Inv n v) :
    (skipEffect e x1 x2 x3).Inv n v := by
  unfold skipEffect
  with_reducible
    repeat' (first
      | assumption | apply State.withEcc_inv | apply State.finishNow_inv
      | apply State.setRsd_inv | intro _ | split)

theorem skipStep_inv (lcore : Nat) (ring : Nat) (seq : Nat) (f : FireIn) (s : State) (hs4 : s.Inv n v) :
    (skipStep lcore ring seq f s).Inv n v := by
  unfold skipStep
  with_reducible repeat' (first | assumption | apply State.fire_inv | apply skipEffect_inv)

theorem execSkip_inv (lcore : Nat) (ring : Nat) (seq : Nat) (f : FireIn) (s : State) (hs4 : s.Inv n v) :
    Res.Keeps (execSkip lcore ring seq f s) n v := by
  unfold execSkip
  with_reducible repeat' (first | apply Res.Keeps.need | assumption | apply skipStep_inv)

theorem endEffect_inv (x0 : Rsd) (x1 : Nat) (x2 : State) (hs2 : x2.Inv n v) :
    (endEffect x0 x1 x2).Inv n v := by
  unfold endEffect
  with_reducible repeat' (first | assumption | apply State.finishNow_inv | apply State.setRsd_inv)

theorem endListStep_inv (lcore : Nat) (ring : Nat) (seq : Nat) (f : FireIn) (s : State) (hs4 : s.Inv n v) :
    (endListStep lcore ring seq f s).Inv n v := by
  unfold endListStep
  with_reducible repeat' (first | assumption | apply State.fire_inv | apply endEffect_inv)

theorem execEndList_inv (lcore : Nat) (ring : Nat) (seq : Nat) (f : FireIn) (s : State) (hs4 : s.Inv n v) :
    Res.Keeps (execEndList lcore ring seq f s) n v := by
  unfold execEndList
  with_reducible repeat' (first | apply Res.Keeps.need | assumption | apply endListStep_inv)

theorem failEffect_inv (x0 : Rsd) (x1 : Nat) (x2 : State) (hs2 : x2.Inv n v) :
    (failEffect x0 x1 x2).Inv n v := by
  unfold failEffect
  with_reducible repeat' (first | assumption | apply State.stopReplay_inv | apply State.ctxReset_inv | split)

theorem failStep_inv (lcore : Nat) (ring : Nat) (seq : Nat) (f : FireIn) (s : State) (hs4 : s.Inv n v) :
    (failStep lcore ring seq f s).Inv n v := by
  unfold failStep
  with_reducible repeat' (first | assumption | apply State.fire_inv | apply failEffect_inv)

theorem execFail_inv (lcore : Nat) (ring : Nat) (seq : Nat) (f : FireIn) (s : State) (hs4 : s.Inv n v) :
    Res.Keeps (execFail lcore ring seq f s) n v := by
  unfold execFail
  with_reducible repeat' (first | apply Res.Keeps.need | assumption | apply failStep_inv)

theorem stampEffect_inv (x0 : Rsd) (x1 : Nat) (x2 : State) (hs2 : x2.Inv n v) :
    (stampEffect x0 x1 x2).Inv n v := by
  unfold stampEffect
  with_reducible repeat' (first | assumption | apply State.finishNow_inv | apply State.csWrite_inv)

theorem stampStep_inv (lcore : Nat) (ring : Nat) (seq : Nat) (f : FireIn) (s : State) (hs4 : s.Inv n v) :
    (stampStep lcore ring seq f s).Inv n v := by
  unfold stampStep
  with_reducible repeat' (first | assumption | apply State.fire_inv | apply stampEffect_inv)

theorem execStamp_inv (lcore : Nat) (ring : Nat) (seq : Nat) (f : FireIn) (s : State) (hs4 : s.Inv n v) :
    Res.Keeps (execStamp lcore ring seq f s) n v := by
  unfold execStamp
  with_reducible repeat' (first | apply Res.Keeps.need | assumption | apply stampStep_inv)

theorem State.atomOld_inv (s : State) (r : Rsd) (f : Flight) (hs0 : s.Inv n v) :
    (State.atomOld s r f).Inv n v := by
  unfold State.atomOld
  with_reducible repeat' (first | assumption | apply State.csWrite_inv | split)

theorem descCompleteStep_inv (lcore : Nat) (ring : Nat) (seq : Nat) (k : Nat) (steps : Nat) (s : State) (hs5 : s.Inv n v) :
    (descCompleteStep lcore ring seq k steps s).Inv n v := by
  unfold descCompleteStep
  with_reducible
    repeat' (first
      | assumption | apply State.when_inv | apply State.endFlight_inv
      | apply State.addBusy_inv | apply State.atomOld_inv | apply State.engines_inv | apply State.dropXfers_inv | intro _
      | split)

theorem execDescComplete_inv (lcore : Nat) (ring : Nat) (seq : Nat) (k : Nat) (steps : Nat) (s : State) (hs5 : s.Inv n v) :
    Res.Keeps (execDescComplete lcore ring seq k steps s) n v := by
  unfold execDescComplete
  with_reducible repeat' (first | apply Res.Keeps.need | assumption | apply descCompleteStep_inv)

theorem State.overflowSig_inv (s : State) (g : Sig) (hs0 : s.Inv n v) :
    (State.overflowSig s g).Inv n v := by
  unfold State.overflowSig
  with_reducible repeat' (first | assumption | apply State.stopReplay_inv | apply State.ctxReset_inv | split)

theorem State.addSig_inv (s : State) (r : Rsd) (g : Sig) (hs0 : s.Inv n v) :
    (State.addSig s r g).Inv n v := by
  unfold State.addSig
  with_reducible repeat' (first | assumption | apply State.overflowSig_inv | apply State.setRsd_inv | (dsimp only) | split)

theorem tokenSignalStep_inv (n0 : Nat) (s : State) (hs1 : s.Inv n v) :
    (tokenSignalStep n0 s).Inv n v := by
  unfold tokenSignalStep
  with_reducible
    repeat' (first
      | assumption | apply State.when_inv | apply State.engines_inv | apply State.addSig_inv
      | intro _ | simp only [Inv.mk_eq] | apply InvOf.mix | split)

theorem execTokenSignal_inv (n0 : Nat) (s : State) (hs1 : s.Inv n v) :
    Res.Keeps (execTokenSignal n0 s) n v := by
  unfold execTokenSignal
  with_reducible repeat' (first | apply Res.Keeps.next | assumption | apply tokenSignalStep_inv)

/-! Machine/CfeRows.lean. -/

theorem gctlRoleWriteStep_inv (w : Who) (v0 : Nat) (s : State) (hs2 : s.Inv n v) :
    (gctlRoleWriteStep w v0 s).Inv n v := by
  unfold gctlRoleWriteStep
  with_reducible
    repeat' (first
      | assumption | apply State.when_inv | apply State.regWrite_inv | apply State.putRW_inv
      | apply State.fput_inv | intro _)

theorem execGctlRoleWrite_inv (w : Who) (v0 : Nat) (s : State) (hs2 : s.Inv n v) :
    Res.Keeps (execGctlRoleWrite w v0 s) n v := by
  unfold execGctlRoleWrite
  with_reducible repeat' (first | apply Res.Keeps.next | assumption | apply gctlRoleWriteStep_inv)

theorem roleTakesEffectStep_inv (s : State) (hs0 : s.Inv n v) :
    (roleTakesEffectStep s).Inv n v := by
  unfold roleTakesEffectStep
  with_reducible repeat' (first | assumption | apply State.when_inv | apply State.fset_inv | intro _)

theorem execRoleTakesEffect_inv (s : State) (hs0 : s.Inv n v) :
    Res.Keeps (execRoleTakesEffect s) n v := by
  unfold execRoleTakesEffect
  with_reducible repeat' (first | apply Res.Keeps.next | assumption | apply roleTakesEffectStep_inv)

theorem armedActionStep_inv (k : Nat) (s : State) (hs1 : s.Inv n v) :
    (armedActionStep k s).Inv n v := by
  unfold armedActionStep
  with_reducible repeat' (first | assumption | apply State.wake_inv | simp only [Inv.mk_eq] | apply InvOf.mix | split)

theorem execArmedAction_inv (k : Nat) (s : State) (hs1 : s.Inv n v) :
    Res.Keeps (execArmedAction k s) n v := by
  unfold execArmedAction
  with_reducible repeat' (first | apply Res.Keeps.next | assumption | apply armedActionStep_inv)

theorem State.bellBad_inv (s : State) (page : Nat) (hs0 : s.Inv n v) :
    (State.bellBad s page).Inv n v := by
  unfold State.bellBad
  with_reducible repeat' (first | assumption | apply State.logX_inv)

theorem State.bell_inv (s : State) (w : Who) (page : Nat) (v0 : Nat) (act : Bool → Nat → State → State) (hs0 : s.Inv n v)
    (hs4 : ∀ y0 y1 y2, y2.Inv n v → (act y0 y1 y2).Inv n v) :
    (State.bell s w page v0 act).Inv n v := by
  unfold State.bell
  with_reducible
    repeat' (first
      | assumption | apply hs4 | apply State.when_inv | apply State.logC_inv
      | apply State.wake_inv | apply State.log_inv | intro _ | (dsimp only) | split)

theorem commandDoorbellStep_inv (w : Who) (page : Nat) (v0 : Nat) (s : State) (hs3 : s.Inv n v) :
    (commandDoorbellStep w page v0 s).Inv n v := by
  unfold commandDoorbellStep
  with_reducible
    repeat' (first
      | assumption | apply State.bell_inv | apply State.fset_inv | apply State.bellBad_inv
      | intro _ | (dsimp only) | split)

theorem execCommandDoorbell_inv (w : Who) (page : Nat) (v0 : Nat) (s : State) (hs3 : s.Inv n v) :
    Res.Keeps (execCommandDoorbell w page v0 s) n v := by
  unfold execCommandDoorbell
  with_reducible repeat' (first | apply Res.Keeps.need | assumption | apply commandDoorbellStep_inv)

theorem completionDoorbellStep_inv (w : Who) (page : Nat) (v0 : Nat) (s : State) (hs3 : s.Inv n v) :
    (completionDoorbellStep w page v0 s).Inv n v := by
  unfold completionDoorbellStep
  with_reducible
    repeat' (first
      | assumption | apply State.bell_inv | apply State.fset_inv | apply State.bellBad_inv
      | intro _ | (dsimp only) | split)

theorem execCompletionDoorbell_inv (w : Who) (page : Nat) (v0 : Nat) (s : State) (hs3 : s.Inv n v) :
    Res.Keeps (execCompletionDoorbell w page v0 s) n v := by
  unfold execCompletionDoorbell
  with_reducible repeat' (first | apply Res.Keeps.need | assumption | apply completionDoorbellStep_inv)

theorem State.readLt_inv (s : State) (ctx : Nat) (word : Nat) (hs0 : s.Inv n v) :
    (State.readLt s ctx word).st.Inv n v := by
  unfold State.readLt
  with_reducible repeat' (first | assumption | apply State.memRead_inv | (dsimp only) | split)

theorem State.checkCmd_inv (s : State) (r : Nat) (word : Nat) (hs0 : s.Inv n v) :
    (State.checkCmd s r word).st.Inv n v := by
  unfold State.checkCmd
  with_reducible repeat' (first | assumption | apply State.readLt_inv | apply State.collCheck_inv | (dsimp only) | split)

theorem State.takeCmd_inv (s : State) (r : Nat) (seq : Nat) (word : Nat) (hs0 : s.Inv n v) :
    (State.takeCmd s r seq word).Inv n v := by
  unfold State.takeCmd
  with_reducible
    repeat' (first
      | assumption | apply State.checkCmd_inv | apply State.complete_inv
      | apply State.ctxReset_inv | apply State.arm_inv | simp only [Inv.mk_eq] | apply InvOf.mix | split)

theorem commandReadStep_inv (r : Nat) (hbm : List Nat) (s : State) (hs2 : s.Inv n v) :
    (commandReadStep r hbm s).Inv n v := by
  unfold commandReadStep
  with_reducible
    repeat' (first
      | assumption | apply State.when_inv | apply State.markBad_inv
      | apply State.rawRead_inv | apply State.ctxReset_inv | apply State.takeCmd_inv | apply State.fset_inv | intro _
      | (dsimp only) | split)

theorem execCommandRead_inv (r : Nat) (hbm : List Nat) (s : State) (hs2 : s.Inv n v) :
    Res.Keeps (execCommandRead r hbm s) n v := by
  unfold execCommandRead
  with_reducible repeat' (first | apply Res.Keeps.need | assumption | apply commandReadStep_inv)

theorem State.setCmd_inv (s : State) (c : Cmd) (hs0 : s.Inv n v) :
    (State.setCmd s c).Inv n v := by
  unfold State.setCmd
  with_reducible repeat' (first | assumption | simp only [Inv.mk_eq] | apply InvOf.mix)

theorem State.launching_inv (s : State) (ring : Nat) (seq : Nat) (op : Nat) (k : Cmd → State → State) (hs0 : s.Inv n v)
    (hs4 : ∀ y0 y1, y1.Inv n v → (k y0 y1).Inv n v) :
    (State.launching s ring seq op k).Inv n v := by
  unfold State.launching
  with_reducible repeat' (first | assumption | apply hs4 | split)

theorem execNop_inv (ring : Nat) (seq : Nat) (s : State) (hs2 : s.Inv n v) :
    Res.Keeps (execNop ring seq s) n v := by
  unfold execNop
  with_reducible
    repeat' (first
      | apply Res.Keeps.need | assumption | apply State.launching_inv
      | apply State.complete_inv | intro _)

theorem State.launched_inv (s : State) (c : Cmd) (expect : Nat) (cnt0 : List (Nat × Nat × Nat × Nat)) (hs0 : s.Inv n v) :
    (State.launched s c expect cnt0).Inv n v := by
  unfold State.launched
  with_reducible repeat' (first | assumption | apply State.setCmd_inv | simp only [Inv.mk_eq] | apply InvOf.mix)

theorem launchStep_inv (ring : Nat) (seq : Nat) (s : State) (hs2 : s.Inv n v) :
    (launchStep ring seq s).Inv n v := by
  unfold launchStep
  with_reducible
    repeat' (first
      | assumption | apply State.launching_inv | apply State.launched_inv
      | apply State.engines_inv | apply State.complete_inv | intro _ | simp only [Inv.mk_eq] | apply InvOf.mix | split)

theorem execLaunch_inv (ring : Nat) (seq : Nat) (s : State) (hs2 : s.Inv n v) :
    Res.Keeps (execLaunch ring seq s) n v := by
  unfold execLaunch
  with_reducible repeat' (first | apply Res.Keeps.need | assumption | apply launchStep_inv)

theorem coreDoneStep_inv (lcore : Nat) (ring : Nat) (seq : Nat) (s : State) (hs3 : s.Inv n v) :
    (coreDoneStep lcore ring seq s).Inv n v := by
  unfold coreDoneStep
  with_reducible repeat' (first | assumption | simp only [Inv.mk_eq] | apply InvOf.mix | split)

theorem execCoreDone_inv (lcore : Nat) (ring : Nat) (seq : Nat) (s : State) (hs3 : s.Inv n v) :
    Res.Keeps (execCoreDone lcore ring seq s) n v := by
  unfold execCoreDone
  with_reducible repeat' (first | apply Res.Keeps.need | assumption | apply coreDoneStep_inv)

theorem doneMessageStep_inv (lcore : Nat) (ring : Nat) (seq : Nat) (s : State) (hs3 : s.Inv n v) :
    (doneMessageStep lcore ring seq s).Inv n v := by
  unfold doneMessageStep
  with_reducible
    repeat' (first
      | assumption | apply State.setCmd_inv | apply State.complete_inv
      | simp only [Inv.mk_eq] | apply InvOf.mix | split)

theorem execDoneMessage_inv (lcore : Nat) (ring : Nat) (seq : Nat) (s : State) (hs3 : s.Inv n v) :
    Res.Keeps (execDoneMessage lcore ring seq s) n v := by
  unfold execDoneMessage
  with_reducible repeat' (first | apply Res.Keeps.need | assumption | apply doneMessageStep_inv)

theorem ringCmdEff_inv (r : Nat) (v0 : Nat) (s : State) (hs2 : s.Inv n v) :
    (ringCmdEff r v0 s).Inv n v := by
  unfold ringCmdEff
  with_reducible repeat' (first | assumption | apply State.putRW_inv | apply State.fset_inv | (dsimp only) | split)

theorem cfeRingCmdWriteStep_inv (w : Who) (r : Nat) (v0 : Nat) (s : State) (hs3 : s.Inv n v) :
    (cfeRingCmdWriteStep w r v0 s).Inv n v := by
  unfold cfeRingCmdWriteStep
  with_reducible repeat' (first | assumption | apply State.when_inv | apply State.regWrite_inv | apply ringCmdEff_inv | intro _)

theorem execCfeRingCmdWrite_inv (w : Who) (r : Nat) (v0 : Nat) (s : State) (hs3 : s.Inv n v) :
    Res.Keeps (execCfeRingCmdWrite w r v0 s) n v := by
  unfold execCfeRingCmdWrite
  with_reducible repeat' (first | apply Res.Keeps.need | assumption | apply cfeRingCmdWriteStep_inv)

theorem cfeRingCplWriteStep_inv (w : Who) (r : Nat) (v0 : Nat) (s : State) (hs3 : s.Inv n v) :
    (cfeRingCplWriteStep w r v0 s).Inv n v := by
  unfold cfeRingCplWriteStep
  with_reducible repeat' (first | assumption | apply State.when_inv | apply State.regWrite_inv | apply State.putRW_inv | intro _)

theorem execCfeRingCplWrite_inv (w : Who) (r : Nat) (v0 : Nat) (s : State) (hs3 : s.Inv n v) :
    Res.Keeps (execCfeRingCplWrite w r v0 s) n v := by
  unfold execCfeRingCplWrite
  with_reducible repeat' (first | apply Res.Keeps.need | assumption | apply cfeRingCplWriteStep_inv)

theorem ctxCfgEff_inv (c : Nat) (v0 : Nat) (s : State) (hs2 : s.Inv n v) :
    (ctxCfgEff c v0 s).Inv n v := by
  unfold ctxCfgEff
  with_reducible
    repeat' (first
      | assumption | apply Inv.foldl | apply State.putRW_inv | apply State.fset_inv
      | intro _ | (dsimp only) | split)

theorem ctxCfgWriteStep_inv (w : Who) (c : Nat) (v0 : Nat) (s : State) (hs3 : s.Inv n v) :
    (ctxCfgWriteStep w c v0 s).Inv n v := by
  unfold ctxCfgWriteStep
  with_reducible repeat' (first | assumption | apply State.when_inv | apply State.regWrite_inv | apply ctxCfgEff_inv | intro _)

theorem execCtxCfgWrite_inv (w : Who) (c : Nat) (v0 : Nat) (s : State) (hs3 : s.Inv n v) :
    Res.Keeps (execCtxCfgWrite w c v0 s) n v := by
  unfold execCtxCfgWrite
  with_reducible repeat' (first | apply Res.Keeps.need | assumption | apply ctxCfgWriteStep_inv)

theorem State.resume_inv (s : State) (c : Nat) (hs0 : s.Inv n v) :
    (State.resume s c).Inv n v := by
  unfold State.resume
  with_reducible repeat' (first | assumption | apply State.logX_inv | apply State.fset_inv | split)

theorem ctxCtlWriteStep_inv (w : Who) (c : Nat) (v0 : Nat) (s : State) (hs3 : s.Inv n v) :
    (ctxCtlWriteStep w c v0 s).Inv n v := by
  unfold ctxCtlWriteStep
  with_reducible
    repeat' (first
      | assumption | apply State.when_inv | apply State.regWrite_inv | apply State.fset_inv
      | apply State.ctxReset_inv | apply State.resume_inv | intro _ | (dsimp only) | split)

theorem execCtxCtlReset_inv (w : Who) (c : Nat) (s : State) (hs2 : s.Inv n v) :
    Res.Keeps (execCtxCtlReset w c s) n v := by
  unfold execCtxCtlReset
  with_reducible repeat' (first | apply Res.Keeps.need | assumption | apply ctxCtlWriteStep_inv)

theorem execCtxCtlResume_inv (w : Who) (c : Nat) (s : State) (hs2 : s.Inv n v) :
    Res.Keeps (execCtxCtlResume w c s) n v := by
  unfold execCtxCtlResume
  with_reducible repeat' (first | apply Res.Keeps.need | assumption | apply ctxCtlWriteStep_inv)

theorem execDivClr_inv (w : Who) (c : Nat) (s : State) (hs2 : s.Inv n v) :
    Res.Keeps (execDivClr w c s) n v := by
  unfold execDivClr
  with_reducible repeat' (first | apply Res.Keeps.need | assumption | apply ctxCtlWriteStep_inv)

theorem hangTimeoutStep_inv (ring : Nat) (seq : Nat) (s : State) (hs2 : s.Inv n v) :
    (hangTimeoutStep ring seq s).Inv n v := by
  unfold hangTimeoutStep
  with_reducible repeat' (first | assumption | apply State.ctxReset_inv | apply State.trigger_inv | (dsimp only) | split)

theorem execHangTimeout_inv (ring : Nat) (seq : Nat) (s : State) (hs2 : s.Inv n v) :
    Res.Keeps (execHangTimeout ring seq s) n v := by
  unfold execHangTimeout
  with_reducible repeat' (first | apply Res.Keeps.need | assumption | apply hangTimeoutStep_inv)

theorem contextResetDoneStep_inv (c : Nat) (s : State) (hs1 : s.Inv n v) :
    (contextResetDoneStep c s).Inv n v := by
  unfold contextResetDoneStep
  with_reducible
    repeat' (first
      | assumption | apply Inv.foldl | apply State.when_inv | apply State.complete_inv
      | apply State.fsat_inv | apply State.fset_inv | intro _ | simp only [Inv.mk_eq] | apply InvOf.mix)

theorem execContextResetDone_inv (c : Nat) (s : State) (hs1 : s.Inv n v) :
    Res.Keeps (execContextResetDone c s) n v := by
  unfold execContextResetDone
  with_reducible repeat' (first | apply Res.Keeps.need | assumption | apply contextResetDoneStep_inv)

/-! Machine/CollRows.lean. -/

theorem collGrpWriteStep_inv (w : Who) (g : Nat) (k : Nat) (v0 : Nat) (s : State) (hs4 : s.Inv n v) :
    (collGrpWriteStep w g k v0 s).Inv n v := by
  unfold collGrpWriteStep
  with_reducible repeat' (first | assumption | apply State.when_inv | apply State.regWrite_inv | apply State.putRW_inv | intro _)

theorem execCollGrpWrite_inv (w : Who) (g : Nat) (k : Nat) (v0 : Nat) (s : State) (hs4 : s.Inv n v) :
    Res.Keeps (execCollGrpWrite w g k v0 s) n v := by
  unfold execCollGrpWrite
  with_reducible repeat' (first | apply Res.Keeps.need | assumption | apply collGrpWriteStep_inv)

theorem State.withInst_inv (s : State) (g : Nat) (q : Nat) (k : Inst → State → State) (hs0 : s.Inv n v)
    (hs3 : ∀ y0 y1, y1.Inv n v → (k y0 y1).Inv n v) :
    (State.withInst s g q k).Inv n v := by
  unfold State.withInst
  with_reducible repeat' (first | assumption | apply hs3 | split)

theorem State.instRead_inv (s : State) (i : Inst) (addr : Nat) (n0 : Nat) (k : List Byte → State → State) (hs0 : s.Inv n v)
    (hs4 : ∀ y0 y1, y1.Inv n v → (k y0 y1).Inv n v) :
    (State.instRead s i addr n0 k).Inv n v := by
  unfold State.instRead
  with_reducible
    repeat' (first
      | assumption | apply hs4 | apply State.memRead_inv | apply State.ctxReset_inv
      | (dsimp only) | split)

theorem State.instWrite_inv (s : State) (i : Inst) (addr : Nat) (b : List Byte) (k : State → State) (hs0 : s.Inv n v)
    (hs4 : ∀ y0, y0.Inv n v → (k y0).Inv n v) :
    (State.instWrite s i addr b k).Inv n v := by
  unfold State.instWrite
  with_reducible
    repeat' (first
      | assumption | apply hs4 | apply State.memWrite_inv | apply State.ctxReset_inv
      | (dsimp only) | split)

theorem State.ownChunk_inv (s : State) (i : Inst) (hs0 : s.Inv n v) :
    (State.ownChunk s i).Inv n v := by
  unfold State.ownChunk
  with_reducible
    repeat' (first
      | assumption | apply Inv.ident | apply State.instRead_inv | apply State.instWrite_inv
      | intro _ | (dsimp only) | split)

theorem State.startRing_inv (s : State) (c : Cmd) (i : Inst) (hs0 : s.Inv n v) :
    (State.startRing s c i).Inv n v := by
  unfold State.startRing
  with_reducible
    repeat' (first
      | assumption | apply State.launched_inv | apply State.ownChunk_inv
      | apply State.withInst_inv | apply State.grantPieces_inv | apply State.applyEarly_inv | apply State.checkInst_inv
      | apply State.ctxReset_inv | intro _ | simp only [Inv.mk_eq] | apply InvOf.mix | split)

theorem collStartStep_inv (kind : Nat) (ring : Nat) (seq : Nat) (hbm : List Nat) (s : State) (hs4 : s.Inv n v) :
    (collStartStep kind ring seq hbm s).Inv n v := by
  unfold collStartStep
  with_reducible
    repeat' (first
      | assumption | apply State.launching_inv | apply State.startRing_inv
      | apply State.markBad_inv | apply State.complete_inv | intro _ | (dsimp only) | split)

theorem execAllreduce_inv (ring : Nat) (seq : Nat) (hbm : List Nat) (s : State) (hs3 : s.Inv n v) :
    Res.Keeps (execAllreduce ring seq hbm s) n v := by
  unfold execAllreduce
  with_reducible repeat' (first | apply Res.Keeps.need | assumption | apply collStartStep_inv)

theorem execReduceScatter_inv (ring : Nat) (seq : Nat) (hbm : List Nat) (s : State) (hs3 : s.Inv n v) :
    Res.Keeps (execReduceScatter ring seq hbm s) n v := by
  unfold execReduceScatter
  with_reducible repeat' (first | apply Res.Keeps.need | assumption | apply collStartStep_inv)

theorem execAllgather_inv (ring : Nat) (seq : Nat) (hbm : List Nat) (s : State) (hs3 : s.Inv n v) :
    Res.Keeps (execAllgather ring seq hbm s) n v := by
  unfold execAllgather
  with_reducible repeat' (first | apply Res.Keeps.need | assumption | apply collStartStep_inv)

theorem triggeredStep_inv (ring : Nat) (seq : Nat) (hbm : List Nat) (s : State) (hs3 : s.Inv n v) :
    (triggeredStep ring seq hbm s).Inv n v := by
  unfold triggeredStep
  with_reducible
    repeat' (first
      | assumption | apply State.launching_inv | apply State.complete_inv
      | apply State.memRead_inv | apply State.markBad_inv | apply State.ctxReset_inv | apply State.launched_inv
      | apply State.applyEarly_inv | intro _ | simp only [Inv.mk_eq] | apply InvOf.mix | split)

theorem execTriggered_inv (ring : Nat) (seq : Nat) (hbm : List Nat) (s : State) (hs3 : s.Inv n v) :
    Res.Keeps (execTriggered ring seq hbm s) n v := by
  unfold execTriggered
  with_reducible repeat' (first | apply Res.Keeps.need | assumption | apply triggeredStep_inv)

theorem State.fireTop_inv (s : State) (g : Nat) (q : Nat) (idx : Nat) (op : Nat) (k : Inst → Nat → State → State)
    (hs0 : s.Inv n v) (hs5 : ∀ y0 y1 y2, y2.Inv n v → (k y0 y1 y2).Inv n v) :
    (State.fireTop s g q idx op k).Inv n v := by
  unfold State.fireTop
  with_reducible
    repeat' (first
      | assumption | apply hs5 | apply State.when_inv | apply State.withInst_inv
      | apply State.diverge_inv | apply State.progress_inv | apply State.setInst_inv | intro _ | split)

theorem State.topFinish_inv (s : State) (i : Inst) (idx : Nat) (e : Nat) (hs0 : s.Inv n v) :
    (State.topFinish s i idx e).Inv n v := by
  unfold State.topFinish
  with_reducible
    repeat' (first
      | assumption | apply State.progress_inv | apply State.setInst_inv
      | apply State.addColl_inv | apply State.checkInst_inv | split)

theorem State.withMember_inv (s : State) (i : Inst) (e : Nat) (k : Nat → State → State) (hs0 : s.Inv n v)
    (hs3 : ∀ y0 y1, y1.Inv n v → (k y0 y1).Inv n v) :
    (State.withMember s i e k).Inv n v := by
  unfold State.withMember
  with_reducible
    repeat' (first
      | assumption | apply hs3 | apply State.member_inv | apply State.ctxReset_inv
      | (dsimp only) | split)

theorem topNopStep_inv (g : Nat) (q : Nat) (idx : Nat) (s : State) (hs3 : s.Inv n v) :
    (topNopStep g q idx s).Inv n v := by
  unfold topNopStep
  with_reducible repeat' (first | assumption | apply State.fireTop_inv | apply State.topFinish_inv | intro _)

theorem execTopNop_inv (g : Nat) (q : Nat) (idx : Nat) (s : State) (hs3 : s.Inv n v) :
    Res.Keeps (execTopNop g q idx s) n v := by
  unfold execTopNop
  with_reducible repeat' (first | apply Res.Keeps.need | assumption | apply topNopStep_inv)

theorem topPutStep_inv (g : Nat) (q : Nat) (idx : Nat) (hbm : List Nat) (s : State) (hs4 : s.Inv n v) :
    (topPutStep g q idx hbm s).Inv n v := by
  unfold topPutStep
  with_reducible
    repeat' (first
      | assumption | apply State.fireTop_inv | apply State.withMember_inv
      | apply State.markBad_inv | apply State.instSend_inv | intro _)

theorem execTopPut_inv (g : Nat) (q : Nat) (idx : Nat) (hbm : List Nat) (s : State) (hs4 : s.Inv n v) :
    Res.Keeps (execTopPut g q idx hbm s) n v := by
  unfold execTopPut
  with_reducible repeat' (first | apply Res.Keeps.need | assumption | apply topPutStep_inv)

theorem topGetStep_inv (g : Nat) (q : Nat) (idx : Nat) (hbm : List Nat) (s : State) (hs4 : s.Inv n v) :
    (topGetStep g q idx hbm s).Inv n v := by
  unfold topGetStep
  with_reducible
    repeat' (first
      | assumption | apply State.fireTop_inv | apply State.withMember_inv
      | apply State.markBad_inv | apply State.instSend_inv | intro _)

theorem execTopGet_inv (g : Nat) (q : Nat) (idx : Nat) (hbm : List Nat) (s : State) (hs4 : s.Inv n v) :
    Res.Keeps (execTopGet g q idx hbm s) n v := by
  unfold execTopGet
  with_reducible repeat' (first | apply Res.Keeps.need | assumption | apply topGetStep_inv)

theorem topReduceStep_inv (g : Nat) (q : Nat) (idx : Nat) (hbm : List Nat) (s : State) (hs4 : s.Inv n v) :
    (topReduceStep g q idx hbm s).Inv n v := by
  unfold topReduceStep
  with_reducible
    repeat' (first
      | assumption | apply State.fireTop_inv | apply State.instRead_inv
      | apply State.markBad_inv | apply State.instWrite_inv | apply State.instUp_inv | intro _)

theorem execTopReduce_inv (g : Nat) (q : Nat) (idx : Nat) (hbm : List Nat) (s : State) (hs4 : s.Inv n v) :
    Res.Keeps (execTopReduce g q idx hbm s) n v := by
  unfold execTopReduce
  with_reducible repeat' (first | apply Res.Keeps.need | assumption | apply topReduceStep_inv)

theorem topSignalStep_inv (g : Nat) (q : Nat) (idx : Nat) (hbm : List Nat) (s : State) (hs4 : s.Inv n v) :
    (topSignalStep g q idx hbm s).Inv n v := by
  unfold topSignalStep
  with_reducible
    repeat' (first
      | assumption | apply State.fireTop_inv | apply State.withMember_inv
      | apply State.markBad_inv | apply State.instMsg_inv | apply State.topFinish_inv | intro _ | split)

theorem execTopSignal_inv (g : Nat) (q : Nat) (idx : Nat) (hbm : List Nat) (s : State) (hs4 : s.Inv n v) :
    Res.Keeps (execTopSignal g q idx hbm s) n v := by
  unfold execTopSignal
  with_reducible repeat' (first | apply Res.Keeps.need | assumption | apply topSignalStep_inv)

theorem topCompleteStep_inv (g : Nat) (q : Nat) (idx : Nat) (s : State) (hs3 : s.Inv n v) :
    (topCompleteStep g q idx s).Inv n v := by
  unfold topCompleteStep
  with_reducible
    repeat' (first
      | assumption | apply State.when_inv | apply State.withInst_inv
      | apply State.topFinish_inv | intro _ | split)

theorem execTopComplete_inv (g : Nat) (q : Nat) (idx : Nat) (s : State) (hs3 : s.Inv n v) :
    Res.Keeps (execTopComplete g q idx s) n v := by
  unfold execTopComplete
  with_reducible repeat' (first | apply Res.Keeps.need | assumption | apply topCompleteStep_inv)

theorem pieceSendStep_inv (g : Nat) (q : Nat) (ph : Nat) (k : Nat) (p : Nat) (s : State) (hs5 : s.Inv n v) :
    (pieceSendStep g q ph k p s).Inv n v := by
  unfold pieceSendStep
  with_reducible
    repeat' (first
      | assumption | apply State.when_inv | apply State.withInst_inv
      | apply State.instSend_inv | apply State.progress_inv | apply State.setInst_inv | intro _ | (dsimp only) | split)

theorem execPieceSend_inv (g : Nat) (q : Nat) (ph : Nat) (k : Nat) (p : Nat) (s : State) (hs5 : s.Inv n v) :
    Res.Keeps (execPieceSend g q ph k p s) n v := by
  unfold execPieceSend
  with_reducible repeat' (first | apply Res.Keeps.need | assumption | apply pieceSendStep_inv)

theorem pieceWriteStep_inv (g : Nat) (q : Nat) (ph : Nat) (k : Nat) (p : Nat) (s : State) (hs5 : s.Inv n v) :
    (pieceWriteStep g q ph k p s).Inv n v := by
  unfold pieceWriteStep
  with_reducible
    repeat' (first
      | assumption | apply State.when_inv | apply State.withInst_inv
      | apply State.instWrite_inv | apply State.checkInst_inv | apply State.grantPieces_inv | apply State.instUp_inv | intro _
      | (dsimp only) | split)

theorem execPieceWrite_inv (g : Nat) (q : Nat) (ph : Nat) (k : Nat) (p : Nat) (s : State) (hs5 : s.Inv n v) :
    Res.Keeps (execPieceWrite g q ph k p s) n v := by
  unfold execPieceWrite
  with_reducible repeat' (first | apply Res.Keeps.need | assumption | apply pieceWriteStep_inv)

theorem unmatched_inv (s : State) (hs0 : s.Inv n v) :
    (unmatched s).st.Inv n v := by
  unfold unmatched
  with_reducible repeat' (first | assumption | apply State.logC_inv)

theorem State.stagePiece_inv (s : State) (p : Pkt) (ph : Nat) (hs0 : s.Inv n v) :
    (State.stagePiece s p ph).st.Inv n v := by
  unfold State.stagePiece
  with_reducible
    repeat' (first
      | assumption | apply unmatched_inv | apply State.failInst_inv
      | apply State.setInst_inv | apply State.instRead_inv | intro _ | (dsimp only) | split)

theorem nothingAfter_inv (x0 : Msg) (s : State) (hs1 : s.Inv n v) :
    (nothingAfter x0 s).Inv n v := by
  unfold nothingAfter
  with_reducible repeat' (first | assumption)

theorem rsDataStep_inv (p : Pkt) (hbm : List Nat) (s : State) (hs2 : s.Inv n v) :
    (rsDataStep p hbm s).Inv n v := by
  unfold rsDataStep
  with_reducible
    repeat' (first
      | assumption | apply State.when_inv | apply State.arrive_inv | apply State.markBad_inv
      | apply State.withMsg_inv | apply State.stagePiece_inv | apply nothingAfter_inv | intro _)

theorem execRsData_inv (p : Pkt) (hbm : List Nat) (s : State) (hs2 : s.Inv n v) :
    Res.Keeps (execRsData p hbm s) n v := by
  unfold execRsData
  with_reducible repeat' (first | apply Res.Keeps.next | assumption | apply rsDataStep_inv)

theorem agDataStep_inv (p : Pkt) (s : State) (hs1 : s.Inv n v) :
    (agDataStep p s).Inv n v := by
  unfold agDataStep
  with_reducible
    repeat' (first
      | assumption | apply State.when_inv | apply State.arrive_inv | apply State.withMsg_inv
      | apply State.stagePiece_inv | apply nothingAfter_inv | intro _)

theorem execAgData_inv (p : Pkt) (s : State) (hs1 : s.Inv n v) :
    Res.Keeps (execAgData p s) n v := by
  unfold execAgData
  with_reducible repeat' (first | apply Res.Keeps.next | assumption | apply agDataStep_inv)

theorem State.takeSignal_inv (s : State) (p : Pkt) (kind : Nat) (hs0 : s.Inv n v) :
    (State.takeSignal s p kind).st.Inv n v := by
  unfold State.takeSignal
  with_reducible repeat' (first | assumption | apply State.signalColl_inv | split)

theorem State.arriveSignal_inv (s : State) (p : Pkt) (kind : Nat) (hs0 : s.Inv n v) :
    (State.arriveSignal s p kind).Inv n v := by
  unfold State.arriveSignal
  with_reducible
    repeat' (first
      | assumption | apply State.when_inv | apply State.arrive_inv
      | apply State.sendNack_inv | apply State.withMsg_inv | apply State.takeSignal_inv | apply nothingAfter_inv | intro _
      | split)

theorem execCollReady_inv (p : Pkt) (s : State) (hs1 : s.Inv n v) :
    Res.Keeps (execCollReady p s) n v := by
  unfold execCollReady
  with_reducible repeat' (first | apply Res.Keeps.next | assumption | apply State.arriveSignal_inv)

theorem execCollCredit_inv (p : Pkt) (s : State) (hs1 : s.Inv n v) :
    Res.Keeps (execCollCredit p s) n v := by
  unfold execCollCredit
  with_reducible repeat' (first | apply Res.Keeps.next | assumption | apply State.arriveSignal_inv)

theorem execCollTsig_inv (p : Pkt) (s : State) (hs1 : s.Inv n v) :
    Res.Keeps (execCollTsig p s) n v := by
  unfold execCollTsig
  with_reducible repeat' (first | apply Res.Keeps.next | assumption | apply State.arriveSignal_inv)

theorem State.tputWrite_inv (s : State) (p : Pkt) (hs0 : s.Inv n v) :
    (State.tputWrite s p).st.Inv n v := by
  unfold State.tputWrite
  with_reducible
    repeat' (first
      | assumption | apply unmatched_inv | apply State.memWrite_inv
      | apply State.withInst_inv | apply State.instUp_inv | intro _ | (dsimp only) | split)

theorem tputAfter_inv (p : Pkt) (m : Msg) (s : State) (hs2 : s.Inv n v) :
    (tputAfter p m s).Inv n v := by
  unfold tputAfter
  with_reducible repeat' (first | assumption | apply State.signalColl_inv | (dsimp only) | split)

theorem collTputStep_inv (p : Pkt) (hbm : List Nat) (s : State) (hs2 : s.Inv n v) :
    (collTputStep p hbm s).Inv n v := by
  unfold collTputStep
  with_reducible
    repeat' (first
      | assumption | apply State.when_inv | apply State.arrive_inv | apply State.markBad_inv
      | apply State.sendNack_inv | apply State.withMsg_inv | apply State.tputWrite_inv | apply nothingAfter_inv
      | apply tputAfter_inv | intro _ | split)

theorem execCollTput_inv (p : Pkt) (hbm : List Nat) (s : State) (hs2 : s.Inv n v) :
    Res.Keeps (execCollTput p hbm s) n v := by
  unfold execCollTput
  with_reducible repeat' (first | apply Res.Keeps.next | assumption | apply collTputStep_inv)

theorem collStallStep_inv (g : Nat) (q : Nat) (s : State) (hs2 : s.Inv n v) :
    (collStallStep g q s).Inv n v := by
  unfold collStallStep
  with_reducible
    repeat' (first
      | assumption | apply State.when_inv | apply State.withInst_inv
      | apply State.failInst_inv | intro _ | split)

theorem execCollStall_inv (g : Nat) (q : Nat) (s : State) (hs2 : s.Inv n v) :
    Res.Keeps (execCollStall g q s) n v := by
  unfold execCollStall
  with_reducible repeat' (first | apply Res.Keeps.need | assumption | apply collStallStep_inv)

theorem earlyEntryExpiryStep_inv (n0 : Nat) (s : State) (hs1 : s.Inv n v) :
    (earlyEntryExpiryStep n0 s).Inv n v := by
  unfold earlyEntryExpiryStep
  with_reducible
    repeat' (first
      | assumption | apply State.when_inv | apply State.logC_inv | intro _
      | simp only [Inv.mk_eq] | apply InvOf.mix | split)

theorem execEarlyEntryExpiry_inv (n0 : Nat) (s : State) (hs1 : s.Inv n v) :
    Res.Keeps (execEarlyEntryExpiry n0 s) n v := by
  unfold execEarlyEntryExpiry
  with_reducible repeat' (first | apply Res.Keeps.next | assumption | apply earlyEntryExpiryStep_inv)

end Sys2Proof.Machine
end

