-- ==== Sys2Proof/Laws/InvPower.lean ====
section
/-! SUPPORT. One lemma for each definition that gives a state: it keeps `State.Inv`. Here: what
the power, recovery, pair, boot and firmware commands keep. -/

namespace Sys2Proof.Machine

variable {n : Nat} {v : Nat → Nat}

/-! Machine/Power.lean. -/

theorem State.setVs_inv (s : State) (d : Nat) (v0 : Nat) (hs0 : s.Inv n v) :
    (State.setVs s d v0).Inv n v := by
  unfold State.setVs
  with_reducible repeat' (first | assumption | simp only [Inv.mk_eq] | apply InvOf.mix | split)

theorem State.followPolicy_inv (s : State) (hs0 : s.Inv n v) :
    (State.followPolicy s).Inv n v := by
  unfold State.followPolicy
  with_reducible repeat' (first | assumption | apply Inv.foldl | apply State.setVs_inv | intro _ | split)

theorem State.capGate_inv (s : State) (hs0 : s.Inv n v) :
    (State.capGate s).Inv n v := by
  unfold State.capGate
  with_reducible repeat' (first | assumption | simp only [Inv.mk_eq] | apply InvOf.mix)

theorem State.capLower_inv (s : State) (hs0 : s.Inv n v) :
    (State.capLower s).Inv n v := by
  unfold State.capLower
  with_reducible repeat' (first | assumption | apply State.capGate_inv | simp only [Inv.mk_eq] | apply InvOf.mix | split)

theorem State.capReached_inv (s : State) (hs0 : s.Inv n v) :
    (State.capReached s).Inv n v := by
  unfold State.capReached
  with_reducible repeat' (first | assumption | simp only [Inv.mk_eq] | apply InvOf.mix)

theorem State.lehr_inv (s : State) (hs0 : s.Inv n v) :
    (State.lehr s).Inv n v := by
  unfold State.lehr
  with_reducible
    repeat' (first
      | assumption | apply State.fput_inv | apply State.fset_inv | apply State.logC_inv
      | simp only [Inv.mk_eq] | apply InvOf.mix | split)

theorem State.recap_inv (s : State) (hs0 : s.Inv n v) :
    (State.recap s).Inv n v := by
  unfold State.recap
  with_reducible
    repeat' (first
      | assumption | apply State.lehr_inv | apply State.fset_inv | apply State.capGate_inv
      | apply State.followPolicy_inv | apply State.logC_inv | simp only [Inv.mk_eq] | apply InvOf.mix | split)

theorem State.dark_inv (s : State) (hs0 : s.Inv n v) :
    (State.dark s).Inv n v := by
  unfold State.dark
  with_reducible repeat' (first | assumption | apply Inv.foldl | apply State.note_inv | intro _)

theorem State.railsOff_inv (s : State) (h : s.Inv n v) : s.railsOff.Inv n v :=
  { mem := rfl, cs := rfl, staging := rfl, cal := rfl, token := rfl, epochs := h.epochs, svn := h.svn }

theorem State.shutdown_inv (s : State) (cause : Nat) (hs0 : s.Inv n v) :
    (State.shutdown s cause).Inv n v := by
  unfold State.shutdown
  with_reducible
    repeat' (first
      | assumption | apply State.railsOff_inv | apply State.dark_inv | simp only [Inv.mk_eq]
      | apply InvOf.mix)

theorem State.senseOne_inv (s : State) (e : Nat × Nat × Nat) (hs0 : s.Inv n v) :
    (State.senseOne s e).Inv n v := by
  unfold State.senseOne
  with_reducible repeat' (first | assumption | apply State.pldmEvent_inv | simp only [Inv.mk_eq] | apply InvOf.mix | split)

theorem State.senseAll_inv (s : State) (hs0 : s.Inv n v) :
    (State.senseAll s).Inv n v := by
  unfold State.senseAll
  with_reducible repeat' (first | assumption | apply Inv.foldl | apply State.senseOne_inv)

theorem State.vinCounts_inv (s : State) (v0 : Nat) (hs0 : s.Inv n v) :
    (State.vinCounts s v0).Inv n v := by
  unfold State.vinCounts
  with_reducible repeat' (first | assumption | simp only [Inv.mk_eq] | apply InvOf.mix)

theorem State.vinMeters_inv (s : State) (v0 : Nat) (p : Nat) (hs0 : s.Inv n v) :
    (State.vinMeters s v0 p).Inv n v := by
  unfold State.vinMeters
  with_reducible repeat' (first | assumption | apply State.fset_inv | simp only [Inv.mk_eq] | apply InvOf.mix | split)

theorem State.vinSettle_inv (s : State) (p : Nat) (hs0 : s.Inv n v) :
    (State.vinSettle s p).Inv n v := by
  unfold State.vinSettle
  with_reducible
    repeat' (first
      | assumption | apply State.capReached_inv | apply State.capLower_inv
      | apply State.fsat_inv | apply State.fset_inv | simp only [Inv.mk_eq] | apply InvOf.mix | split)

theorem State.enterHold_inv (s : State) (hs0 : s.Inv n v) :
    (State.enterHold s).Inv n v := by
  unfold State.enterHold
  with_reducible
    repeat' (first
      | assumption | apply State.fset_inv | apply State.fsat_inv | simp only [Inv.mk_eq]
      | apply InvOf.mix)

theorem State.leaveHold_inv (s : State) (hs0 : s.Inv n v) :
    (State.leaveHold s).Inv n v := by
  unfold State.leaveHold
  with_reducible
    repeat' (first
      | assumption | apply State.fset_inv | apply State.recap_inv | apply State.log_inv
      | simp only [Inv.mk_eq] | apply InvOf.mix)

theorem vinSampleStep_inv (v0 : Nat) (p : Nat) (bank : Nat) (s : State) (hs3 : s.Inv n v) :
    (vinSampleStep v0 p bank s).Inv n v := by
  unfold vinSampleStep
  with_reducible
    repeat' (first
      | assumption | apply State.when_inv | apply State.senseAll_inv
      | apply State.vinSettle_inv | apply State.vinMeters_inv | apply State.vinCounts_inv | apply State.shutdown_inv
      | apply State.logC_inv | apply State.leaveHold_inv | apply State.enterHold_inv | intro _ | simp only [Inv.mk_eq]
      | apply InvOf.mix | split)

theorem execVinSample_inv (v0 : Nat) (p : Nat) (bank : Nat) (s : State) (hs3 : s.Inv n v) :
    Res.Keeps (execVinSample v0 p bank s) n v := by
  unfold execVinSample
  with_reducible repeat' (first | apply Res.Keeps.next | assumption | apply vinSampleStep_inv)

theorem execHoldTimeout_inv (s : State) (hs0 : s.Inv n v) :
    Res.Keeps (execHoldTimeout s) n v := by
  unfold execHoldTimeout
  with_reducible
    repeat' (first
      | apply Res.Keeps.next | assumption | apply State.when_inv | apply State.shutdown_inv
      | intro _ | simp only [Inv.mk_eq] | apply InvOf.mix)

theorem railLimitStep_inv (r : Nat) (s : State) (hs1 : s.Inv n v) :
    (railLimitStep r s).Inv n v := by
  unfold railLimitStep
  with_reducible
    repeat' (first
      | assumption | apply State.when_inv | apply State.shutdown_inv | apply State.fsat_inv
      | apply State.logC_inv | intro _ | simp only [Inv.mk_eq] | apply InvOf.mix | split)

theorem execRailLimit_inv (r : Nat) (s : State) (hs1 : s.Inv n v) :
    Res.Keeps (execRailLimit r s) n v := by
  unfold execRailLimit
  with_reducible repeat' (first | apply Res.Keeps.need | assumption | apply railLimitStep_inv)

theorem State.phaseOut_inv (s : State) (r : Nat) (hs0 : s.Inv n v) :
    (State.phaseOut s r).Inv n v := by
  unfold State.phaseOut
  with_reducible repeat' (first | assumption | apply State.fset_inv | apply State.shutdown_inv | (dsimp only) | split)

theorem State.fencePhase_inv (s : State) (r : Nat) (ph : Nat) (origin : Nat) (hs0 : s.Inv n v) :
    (State.fencePhase s r ph origin).Inv n v := by
  unfold State.fencePhase
  with_reducible repeat' (first | assumption | apply State.phaseOut_inv | apply State.recordFence_inv)

theorem phaseFencedStep_inv (r : Nat) (ph : Nat) (s : State) (hs2 : s.Inv n v) :
    (phaseFencedStep r ph s).Inv n v := by
  unfold phaseFencedStep
  with_reducible repeat' (first | assumption | apply State.when_inv | apply State.fencePhase_inv | apply State.log_inv | intro _)

theorem execPhaseFenced_inv (r : Nat) (ph : Nat) (s : State) (hs2 : s.Inv n v) :
    Res.Keeps (execPhaseFenced r ph s) n v := by
  unfold execPhaseFenced
  with_reducible repeat' (first | apply Res.Keeps.need | assumption | apply phaseFencedStep_inv)

theorem railFaultStep_inv (s : State) (hs0 : s.Inv n v) :
    (railFaultStep s).Inv n v := by
  unfold railFaultStep
  with_reducible repeat' (first | assumption | apply State.when_inv | apply State.shutdown_inv | intro _)

theorem execRailFault_inv (r : Nat) (s : State) (hs1 : s.Inv n v) :
    Res.Keeps (execRailFault r s) n v := by
  unfold execRailFault
  with_reducible repeat' (first | apply Res.Keeps.need | assumption | apply railFaultStep_inv)

theorem pwrRailReadStep_inv (w : Who) (r : Nat) (vout : Nat) (iout : Nat) (s : State) (hs4 : s.Inv n v) :
    (pwrRailReadStep w r vout iout s).Inv n v := by
  unfold pwrRailReadStep
  with_reducible repeat' (first | assumption | apply State.when_inv | apply State.fset_inv | apply State.emit_inv | intro _)

theorem execPwrRailRead_inv (w : Who) (r : Nat) (vout : Nat) (iout : Nat) (s : State) (hs4 : s.Inv n v) :
    Res.Keeps (execPwrRailRead w r vout iout s) n v := by
  unfold execPwrRailRead
  with_reducible repeat' (first | apply Res.Keeps.need | assumption | apply pwrRailReadStep_inv)

theorem pwrEvtReadStep_inv (w : Who) (s : State) (hs1 : s.Inv n v) :
    (pwrEvtReadStep w s).Inv n v := by
  unfold pwrEvtReadStep
  with_reducible repeat' (first | assumption | apply State.when_inv | apply State.fset_inv | apply State.emit_inv | intro _)

theorem execPwrEvtRead_inv (w : Who) (s : State) (hs1 : s.Inv n v) :
    Res.Keeps (execPwrEvtRead w s) n v := by
  unfold execPwrEvtRead
  with_reducible repeat' (first | apply Res.Keeps.next | assumption | apply pwrEvtReadStep_inv)

theorem pwrPolicyWriteStep_inv (w : Who) (v0 : Nat) (s : State) (hs2 : s.Inv n v) :
    (pwrPolicyWriteStep w v0 s).Inv n v := by
  unfold pwrPolicyWriteStep
  with_reducible
    repeat' (first
      | assumption | apply State.when_inv | apply State.regWrite_inv
      | apply State.followPolicy_inv | apply State.recap_inv | apply State.putRW_inv | intro _)

theorem execPwrPolicyWrite_inv (w : Who) (v0 : Nat) (s : State) (hs2 : s.Inv n v) :
    Res.Keeps (execPwrPolicyWrite w v0 s) n v := by
  unfold execPwrPolicyWrite
  with_reducible repeat' (first | apply Res.Keeps.next | assumption | apply pwrPolicyWriteStep_inv)

theorem execHeartbeatLoss_inv (s : State) (hs0 : s.Inv n v) :
    Res.Keeps (execHeartbeatLoss s) n v := by
  unfold execHeartbeatLoss
  with_reducible
    repeat' (first
      | apply Res.Keeps.next | assumption | apply State.when_inv | apply State.recap_inv
      | apply State.logC_inv | apply State.fset_inv | intro _ | simp only [Inv.mk_eq] | apply InvOf.mix)

theorem floorRecomputeStep_inv (f : Nat) (s : State) (hs1 : s.Inv n v) :
    (floorRecomputeStep f s).Inv n v := by
  unfold floorRecomputeStep
  with_reducible repeat' (first | assumption | apply State.when_inv | apply State.recap_inv | apply State.fset_inv | intro _)

theorem execFloorRecompute_inv (f : Nat) (s : State) (hs1 : s.Inv n v) :
    Res.Keeps (execFloorRecompute f s) n v := by
  unfold execFloorRecompute
  with_reducible repeat' (first | apply Res.Keeps.next | assumption | apply floorRecomputeStep_inv)

theorem State.divEither_inv (s : State) (num : Int) (den : Int) (hs0 : s.Inv n v) :
    (State.divEither s num den).2.Inv n v := by
  unfold State.divEither
  with_reducible repeat' (first | assumption | apply State.drew_inv | split)

theorem State.fit_inv (s : State) (w : Nat) (v0 : Int) (hs0 : s.Inv n v) :
    (State.fit s w v0).2.Inv n v := by
  unfold State.fit
  with_reducible repeat' (first | assumption | apply State.drew_inv | split)

theorem State.thetaUpdate_inv (s : State) (hs0 : s.Inv n v) :
    (State.thetaUpdate s).Inv n v := by
  unfold State.thetaUpdate
  with_reducible
    repeat' (first
      | assumption | apply State.divEither_inv | apply State.fit_inv | apply State.fset_inv
      | (dsimp only) | split)

theorem State.tcapUpdate_inv (s : State) (hs0 : s.Inv n v) :
    (State.tcapUpdate s).Inv n v := by
  unfold State.tcapUpdate
  with_reducible
    repeat' (first
      | assumption | apply State.fset_inv | apply State.drew_inv | apply State.divEither_inv
      | apply State.fit_inv | (dsimp only) | split)

theorem execThermalUpdate_inv (s : State) (hs0 : s.Inv n v) :
    Res.Keeps (execThermalUpdate s) n v := by
  unfold execThermalUpdate
  with_reducible
    repeat' (first
      | apply Res.Keeps.next | assumption | apply State.when_inv | apply State.recap_inv
      | apply State.tcapUpdate_inv | apply State.thetaUpdate_inv | intro _)

theorem State.disagree_inv (s : State) (h0 : Nat) (a : Int) (b : Int) (hs0 : s.Inv n v) :
    (State.disagree s h0 a b).Inv n v := by
  unfold State.disagree
  with_reducible repeat' (first | assumption | apply State.logC_inv | simp only [Inv.mk_eq] | apply InvOf.mix | split)

theorem State.setTj_inv (s : State) (hs0 : s.Inv n v) :
    (State.setTj s).Inv n v := by
  unfold State.setTj
  with_reducible repeat' (first | assumption | apply State.fit_inv | apply State.fset_inv | split)

theorem sensorSampleStep_inv (h0 : Nat) (a : Int) (b : Int) (dpa : Bool) (dpb : Bool) (s : State) (hs5 : s.Inv n v) :
    (sensorSampleStep h0 a b dpa dpb s).Inv n v := by
  unfold sensorSampleStep
  with_reducible
    repeat' (first
      | assumption | apply State.when_inv | apply State.logC_inv | apply State.setTj_inv
      | apply State.disagree_inv | intro _ | simp only [Inv.mk_eq] | apply InvOf.mix | split)

theorem execSensorSample_inv (h0 : Nat) (a : Int) (b : Int) (dpa : Bool) (dpb : Bool) (s : State) (hs5 : s.Inv n v) :
    Res.Keeps (execSensorSample h0 a b dpa dpb s) n v := by
  unfold execSensorSample
  with_reducible repeat' (first | apply Res.Keeps.need | assumption | apply sensorSampleStep_inv)

theorem throttleStep_inv (d : Nat) (s : State) (hs1 : s.Inv n v) :
    (throttleStep d s).Inv n v := by
  unfold throttleStep
  with_reducible repeat' (first | assumption | apply State.when_inv | intro _ | simp only [Inv.mk_eq] | apply InvOf.mix | split)

theorem execThrottle_inv (d : Nat) (s : State) (hs1 : s.Inv n v) :
    Res.Keeps (execThrottle d s) n v := by
  unfold execThrottle
  with_reducible repeat' (first | apply Res.Keeps.need | assumption | apply throttleStep_inv)

theorem thermTripStep_inv (h0 : Nat) (s : State) (hs1 : s.Inv n v) :
    (thermTripStep h0 s).Inv n v := by
  unfold thermTripStep
  with_reducible
    repeat' (first
      | assumption | apply Inv.foldl | apply State.when_inv | apply State.note_inv
      | apply State.ratesOff_inv | apply State.selfRefresh_inv | apply State.log_inv | apply State.trigger_inv | intro _
      | simp only [Inv.mk_eq] | apply InvOf.mix | split)

theorem execThermTrip_inv (h0 : Nat) (s : State) (hs1 : s.Inv n v) :
    Res.Keeps (execThermTrip h0 s) n v := by
  unfold execThermTrip
  with_reducible repeat' (first | apply Res.Keeps.need | assumption | apply thermTripStep_inv)

theorem adaptChoiceStep_inv (e : List (List Nat)) (s : State) (hs1 : s.Inv n v) :
    (adaptChoiceStep e s).Inv n v := by
  unfold adaptChoiceStep
  with_reducible
    repeat' (first
      | assumption | apply Inv.foldl | apply State.when_inv | apply State.setVs_inv
      | apply State.fsat_inv | intro _)

theorem execAdaptChoice_inv (e : List (List Nat)) (s : State) (hs1 : s.Inv n v) :
    Res.Keeps (execAdaptChoice e s) n v := by
  unfold execAdaptChoice
  with_reducible repeat' (first | apply Res.Keeps.next | assumption | apply adaptChoiceStep_inv)

theorem State.capLift_inv (s : State) (d : Nat) (v0 : Nat) (hs0 : s.Inv n v) :
    (State.capLift s d v0).Inv n v := by
  unfold State.capLift
  with_reducible repeat' (first | assumption | simp only [Inv.mk_eq] | apply InvOf.mix)

theorem loadHintStep_inv (k : Nat) (other : Nat) (pred : List Nat) (s : State) (hs3 : s.Inv n v) :
    (loadHintStep k other pred s).Inv n v := by
  unfold loadHintStep
  with_reducible
    repeat' (first
      | assumption | apply State.setVs_inv | apply State.capLift_inv | apply State.fsat_inv
      | simp only [Inv.mk_eq] | apply InvOf.mix | split)

theorem execLoadHint_inv (k : Nat) (other : Nat) (pred : List Nat) (s : State) (hs3 : s.Inv n v) :
    Res.Keeps (execLoadHint k other pred s) n v := by
  unfold execLoadHint
  with_reducible repeat' (first | apply Res.Keeps.next | assumption | apply loadHintStep_inv)

theorem execCoolStale_inv (s : State) (hs0 : s.Inv n v) :
    Res.Keeps (execCoolStale s) n v := by
  unfold execCoolStale
  with_reducible
    repeat' (first
      | apply Res.Keeps.next | assumption | apply State.when_inv | apply State.logC_inv
      | apply State.fset_inv | intro _ | simp only [Inv.mk_eq] | apply InvOf.mix)

theorem State.enterFlowHold_inv (s : State) (hs0 : s.Inv n v) :
    (State.enterFlowHold s).Inv n v := by
  unfold State.enterFlowHold
  with_reducible repeat' (first | assumption | apply State.logC_inv | apply State.fset_inv)

theorem State.putCoolant_inv (s : State) (c : Coolant) (hs0 : s.Inv n v) :
    (State.putCoolant s c).Inv n v := by
  unfold State.putCoolant
  with_reducible repeat' (first | assumption | apply State.fit_inv | apply State.fset_inv)

theorem State.flowHold_inv (s : State) (c : Coolant) (hs0 : s.Inv n v) :
    (State.flowHold s c).Inv n v := by
  unfold State.flowHold
  with_reducible
    repeat' (first
      | assumption | apply State.recap_inv | apply State.fset_inv
      | apply State.enterFlowHold_inv | simp only [Inv.mk_eq] | apply InvOf.mix | split)

theorem trayFrameStep_inv (b : List Byte) (s : State) (hs1 : s.Inv n v) :
    (trayFrameStep b s).Inv n v := by
  unfold trayFrameStep
  with_reducible
    repeat' (first
      | assumption | apply State.when_inv | apply State.putCoolant_inv
      | apply State.flowHold_inv | intro _ | simp only [Inv.mk_eq] | apply InvOf.mix)

theorem execTrayFrame_inv (b : List Byte) (s : State) (hs1 : s.Inv n v) :
    Res.Keeps (execTrayFrame b s) n v := by
  unfold execTrayFrame
  with_reducible repeat' (first | apply Res.Keeps.next | assumption | apply trayFrameStep_inv)

theorem State.portsLs2_inv (s : State) (hs0 : s.Inv n v) :
    (State.portsLs2 s).Inv n v := by
  unfold State.portsLs2
  with_reducible repeat' (first | assumption | apply Inv.foldl | apply State.ask_inv | intro _ | split)

theorem idleEntryStep_inv (idleNs : Nat) (quietNs : Nat) (want : Nat) (s : State) (hs3 : s.Inv n v) :
    (idleEntryStep idleNs quietNs want s).Inv n v := by
  unfold idleEntryStep
  with_reducible
    repeat' (first
      | assumption | apply State.when_inv | apply State.fset_inv | apply State.ratesOff_inv
      | apply State.portsLs2_inv | apply State.selfRefresh_inv | apply State.lehr_inv | intro _ | simp only [Inv.mk_eq]
      | apply InvOf.mix | split)

theorem execIdleEntry_inv (idleNs : Nat) (quietNs : Nat) (want : Nat) (s : State) (hs3 : s.Inv n v) :
    Res.Keeps (execIdleEntry idleNs quietNs want s) n v := by
  unfold execIdleEntry
  with_reducible repeat' (first | apply Res.Keeps.next | assumption | apply idleEntryStep_inv)

theorem execPowerWake_inv (s : State) (hs0 : s.Inv n v) :
    Res.Keeps (execPowerWake s) n v := by
  unfold execPowerWake
  with_reducible repeat' (first | apply Res.Keeps.next | assumption | apply State.when_inv | apply State.wake_inv)

/-! Machine/Recovery.lean. -/

theorem spareSubstitutionStep_inv (site : Nat) (s : State) (hs1 : s.Inv n v) :
    (spareSubstitutionStep site s).Inv n v := by
  unfold spareSubstitutionStep
  with_reducible repeat' (first | assumption | apply State.when_inv | apply State.fenceSite_inv | intro _)

theorem execSpareSubstitution_inv (site : Nat) (s : State) (hs1 : s.Inv n v) :
    Res.Keeps (execSpareSubstitution site s) n v := by
  unfold execSpareSubstitution
  with_reducible repeat' (first | apply Res.Keeps.need | assumption | apply spareSubstitutionStep_inv)

theorem State.setMember_inv (s : State) (lcore : Nat) (pos : Nat) (hs0 : s.Inv n v) :
    (State.setMember s lcore pos).Inv n v := by
  unfold State.setMember
  with_reducible repeat' (first | assumption | apply State.fset_inv)

theorem State.substitute_inv (s : State) (f : Fencing) (wakeOk : Bool) (hs0 : s.Inv n v) :
    (State.substitute s f wakeOk).Inv n v := by
  unfold State.substitute
  with_reducible
    repeat' (first
      | assumption | apply State.fset_inv | apply State.recordFence_inv
      | apply State.setMember_inv | apply State.csZero_inv | apply State.gateSite_inv | (dsimp only) | split)

theorem substitutionDoneStep_inv (site : Nat) (wakeOk : Bool) (s : State) (hs2 : s.Inv n v) :
    (substitutionDoneStep site wakeOk s).Inv n v := by
  unfold substitutionDoneStep
  with_reducible
    repeat' (first
      | assumption | apply State.when_inv | apply State.dropFencing_inv
      | apply State.freeCore_inv | apply State.substitute_inv | intro _ | split)

theorem execSubstitutionDone_inv (site : Nat) (wakeOk : Bool) (s : State) (hs2 : s.Inv n v) :
    Res.Keeps (execSubstitutionDone site wakeOk s) n v := by
  unfold execSubstitutionDone
  with_reducible repeat' (first | apply Res.Keeps.need | assumption | apply substitutionDoneStep_inv)

theorem State.startDrain_inv (s : State) (site : Nat) (lcore : Nat) (hs0 : s.Inv n v) :
    (State.startDrain s site lcore).Inv n v := by
  unfold State.startDrain
  with_reducible repeat' (first | assumption | apply State.addFencing_inv | apply State.holdCore_inv)

theorem State.hostFence_inv (s : State) (k : Nat) (u : Nat) (drain : Bool) (hs0 : s.Inv n v) :
    (State.hostFence s k u drain).Inv n v := by
  unfold State.hostFence
  with_reducible
    repeat' (first
      | assumption | apply State.fset_inv | apply State.startDrain_inv
      | apply State.fenceSite_inv | apply State.repairRow_inv | apply State.fencePhase_inv | apply State.recordFence_inv
      | (dsimp only) | split)

theorem State.cancelDrain_inv (s : State) (hs0 : s.Inv n v) :
    (State.cancelDrain s).Inv n v := by
  unfold State.cancelDrain
  with_reducible repeat' (first | assumption | apply Inv.foldl | apply State.dropFencing_inv | apply State.freeCore_inv | intro _)

theorem spareFenceWrite_inv (w : Who) (v0 : Nat) (s : State) (hs2 : s.Inv n v) :
    (spareFenceWrite w v0 s).Inv n v := by
  unfold spareFenceWrite
  with_reducible
    repeat' (first
      | assumption | apply State.when_inv | apply State.regWrite_inv | apply State.putRW_inv
      | apply State.cancelDrain_inv | apply State.hostFence_inv | intro _ | split)

theorem execSpareFenceGo_inv (w : Who) (v0 : Nat) (s : State) (hs2 : s.Inv n v) :
    Res.Keeps (execSpareFenceGo w v0 s) n v := by
  unfold execSpareFenceGo
  with_reducible repeat' (first | apply Res.Keeps.next | assumption | apply State.when_inv | apply spareFenceWrite_inv)

theorem execSpareFenceCancel_inv (w : Who) (v0 : Nat) (s : State) (hs2 : s.Inv n v) :
    Res.Keeps (execSpareFenceCancel w v0 s) n v := by
  unfold execSpareFenceCancel
  with_reducible repeat' (first | apply Res.Keeps.next | assumption | apply State.when_inv | apply spareFenceWrite_inv)

theorem drainCompleteStep_inv (site : Nat) (s : State) (hs1 : s.Inv n v) :
    (drainCompleteStep site s).Inv n v := by
  unfold drainCompleteStep
  with_reducible
    repeat' (first
      | assumption | apply State.when_inv | apply State.gateSite_inv | intro _
      | simp only [Inv.mk_eq] | apply InvOf.mix | split)

theorem execDrainComplete_inv (site : Nat) (s : State) (hs1 : s.Inv n v) :
    Res.Keeps (execDrainComplete site s) n v := by
  unfold execDrainComplete
  with_reducible repeat' (first | apply Res.Keeps.need | assumption | apply drainCompleteStep_inv)

theorem State.wearRead_inv (s : State) (site : Nat) (ps : Nat) (tj : Nat) (hs0 : s.Inv n v) :
    (State.wearRead s site ps tj).Inv n v := by
  unfold State.wearRead
  with_reducible
    repeat' (first
      | assumption | apply State.drew_inv | apply State.fset_inv | apply State.log_inv
      | simp only [Inv.mk_eq] | apply InvOf.mix | split)

theorem wearReadingStep_inv (site : Nat) (ps : Nat) (tj : Nat) (s : State) (hs3 : s.Inv n v) :
    (wearReadingStep site ps tj s).Inv n v := by
  unfold wearReadingStep
  with_reducible repeat' (first | assumption | apply State.when_inv | apply State.wearRead_inv | intro _)

theorem execWearReading_inv (site : Nat) (ps : Nat) (tj : Nat) (s : State) (hs3 : s.Inv n v) :
    Res.Keeps (execWearReading site ps tj s) n v := by
  unfold execWearReading
  with_reducible repeat' (first | apply Res.Keeps.need | assumption | apply wearReadingStep_inv)

theorem State.showInv_inv (s : State) (st : Nat) (hs0 : s.Inv n v) :
    (State.showInv s st).Inv n v := by
  unfold State.showInv
  with_reducible repeat' (first | assumption | apply State.fset_inv | (dsimp only) | split)

theorem State.nextInv_inv (s : State) (hs0 : s.Inv n v) :
    (State.nextInv s).Inv n v := by
  unfold State.nextInv
  with_reducible repeat' (first | assumption | apply State.showInv_inv | simp only [Inv.mk_eq] | apply InvOf.mix | split)

theorem State.investigate_inv (s : State) (site : Nat) (lcore : Nat) (kind : Nat) (ring : Nat) (seq : Nat) (pos : Nat)
    (iter : Nat) (hs0 : s.Inv n v) :
    (State.investigate s site lcore kind ring seq pos iter).Inv n v := by
  unfold State.investigate
  with_reducible
    repeat' (first
      | assumption | apply State.fset_inv | apply State.fenceSite_inv
      | apply State.escalate_inv | apply State.resetMany_inv | apply State.trigger_inv | apply State.holdCore_inv
      | apply State.nextInv_inv | simp only [Inv.mk_eq] | apply InvOf.mix | split)

theorem State.ambiguous_inv (s : State) (kind : Nat) (site : Nat) (ring : Nat) (seq : Nat) (pos : Nat) (iter : Nat)
    (hs0 : s.Inv n v) :
    (State.ambiguous s kind site ring seq pos iter).Inv n v := by
  unfold State.ambiguous
  with_reducible repeat' (first | assumption | apply State.investigate_inv | split)

theorem execHandshakeStall_inv (site : Nat) (ring : Nat) (seq : Nat) (pos : Nat) (iter : Nat) (s : State) (hs5 : s.Inv n v) :
    Res.Keeps (execHandshakeStall site ring seq pos iter s) n v := by
  unfold execHandshakeStall
  with_reducible repeat' (first | apply Res.Keeps.need | assumption | apply State.ambiguous_inv)

theorem execMicrocodeCheck_inv (site : Nat) (ring : Nat) (seq : Nat) (pos : Nat) (iter : Nat) (s : State) (hs5 : s.Inv n v) :
    Res.Keeps (execMicrocodeCheck site ring seq pos iter s) n v := by
  unfold execMicrocodeCheck
  with_reducible repeat' (first | apply Res.Keeps.need | assumption | apply State.ambiguous_inv)

theorem hubEngineFaultStep_inv (e : Nat) (s : State) (hs1 : s.Inv n v) :
    (hubEngineFaultStep e s).Inv n v := by
  unfold hubEngineFaultStep
  with_reducible
    repeat' (first
      | assumption | apply State.when_inv | apply State.escalate_inv
      | apply State.resetMany_inv | intro _)

theorem execHubEngineFault_inv (e : Nat) (s : State) (hs1 : s.Inv n v) :
    Res.Keeps (execHubEngineFault e s) n v := by
  unfold execHubEngineFault
  with_reducible repeat' (first | apply Res.Keeps.next | assumption | apply hubEngineFaultStep_inv)

theorem State.verdict_inv (s : State) (i : Invest) (v0 : Nat) (ctx : Nat) (hs0 : s.Inv n v) :
    (State.verdict s i v0 ctx).Inv n v := by
  unfold State.verdict
  with_reducible
    repeat' (first
      | assumption | apply State.fset_inv | apply State.freeCore_inv
      | apply State.escalate_inv | apply State.drew_inv | apply State.log_inv | apply State.nextInv_inv | split)

theorem State.siteGuilty_inv (s : State) (i : Invest) (hs0 : s.Inv n v) :
    (State.siteGuilty s i).Inv n v := by
  unfold State.siteGuilty
  with_reducible repeat' (first | assumption | apply State.verdict_inv | apply State.fenceSite_inv)

theorem State.unsettled_inv (s : State) (i : Invest) (hs0 : s.Inv n v) :
    (State.unsettled s i).Inv n v := by
  unfold State.unsettled
  with_reducible
    repeat' (first
      | assumption | apply State.fset_inv | apply State.siteGuilty_inv
      | apply State.verdict_inv | (dsimp only) | split)

theorem State.setInv_inv (s : State) (i : Invest) (hs0 : s.Inv n v) :
    (State.setInv s i).Inv n v := by
  unfold State.setInv
  with_reducible repeat' (first | assumption | simp only [Inv.mk_eq] | apply InvOf.mix)

theorem State.startReplay_inv (s : State) (i : Invest) (c : Cmd) (hs0 : s.Inv n v) :
    (State.startReplay s i c).Inv n v := by
  unfold State.startReplay
  with_reducible
    repeat' (first
      | assumption | apply Inv.foldl | apply State.holdCore_inv | apply State.engines_inv
      | apply State.setInv_inv | simp only [Inv.mk_eq] | apply InvOf.mix)

theorem State.nextReplay_inv (k : Nat) (s : State) (h : s.Inv n v) : (s.nextReplay k).Inv n v := by
  induction k generalizing s with
  | zero => exact h
  | succ k ih =>
    unfold State.nextReplay
    split
    · exact h
    · split
      · exact State.unsettled_inv _ _ h
      · exact Inv.ite (ih _ (State.setInv_inv _ _ h)) (Inv.ite (State.startReplay_inv _ _ _ h) h)

theorem investigationSelftestDoneStep_inv (pass : Bool) (s : State) (hs1 : s.Inv n v) :
    (investigationSelftestDoneStep pass s).Inv n v := by
  unfold investigationSelftestDoneStep
  with_reducible
    repeat' (first
      | assumption | apply State.siteGuilty_inv | apply State.fset_inv
      | apply State.setInv_inv | apply State.nextReplay_inv | split)

theorem execInvestigationSelftestDone_inv (pass : Bool) (s : State) (hs1 : s.Inv n v) :
    Res.Keeps (execInvestigationSelftestDone pass s) n v := by
  unfold execInvestigationSelftestDone
  with_reducible repeat' (first | apply Res.Keeps.next | assumption | apply investigationSelftestDoneStep_inv)

theorem State.endReplay_inv (s : State) (i : Invest) (c : Cmd) (hs0 : s.Inv n v) :
    (State.endReplay s i c).Inv n v := by
  unfold State.endReplay
  with_reducible
    repeat' (first
      | assumption | apply Inv.foldl | apply State.dropWork_inv | apply State.freeCore_inv
      | apply State.setInv_inv | simp only [Inv.mk_eq] | apply InvOf.mix)

theorem replayCommandEndStep_inv (repro : Bool) (s : State) (hs1 : s.Inv n v) :
    (replayCommandEndStep repro s).Inv n v := by
  unfold replayCommandEndStep
  with_reducible
    repeat' (first
      | assumption | apply State.nextReplay_inv | apply State.verdict_inv
      | apply State.logX_inv | apply State.endReplay_inv | (dsimp only) | split)

theorem execReplayCommandEnd_inv (repro : Bool) (s : State) (hs1 : s.Inv n v) :
    Res.Keeps (execReplayCommandEnd repro s) n v := by
  unfold execReplayCommandEnd
  with_reducible repeat' (first | apply Res.Keeps.next | assumption | apply replayCommandEndStep_inv)

theorem replayTmoStep_inv (s : State) (hs0 : s.Inv n v) :
    (replayTmoStep s).Inv n v := by
  unfold replayTmoStep
  with_reducible repeat' (first | assumption | apply State.nextReplay_inv | apply State.endReplay_inv | split)

theorem execReplayTmo_inv (s : State) (hs0 : s.Inv n v) :
    Res.Keeps (execReplayTmo s) n v := by
  unfold execReplayTmo
  with_reducible repeat' (first | apply Res.Keeps.next | assumption | apply replayTmoStep_inv)

theorem spareAbindWriteStep_inv (w : Who) (g : Nat) (v0 : Nat) (s : State) (hs3 : s.Inv n v) :
    (spareAbindWriteStep w g v0 s).Inv n v := by
  unfold spareAbindWriteStep
  with_reducible repeat' (first | assumption | apply State.when_inv | apply State.regWrite_inv | apply State.putRW_inv | intro _)

theorem execSpareAbindWrite_inv (w : Who) (g : Nat) (v0 : Nat) (s : State) (hs3 : s.Inv n v) :
    Res.Keeps (execSpareAbindWrite w g v0 s) n v := by
  unfold execSpareAbindWrite
  with_reducible repeat' (first | apply Res.Keeps.need | assumption | apply spareAbindWriteStep_inv)

theorem State.abortInsts_inv (s : State) (g : Nat) (hs0 : s.Inv n v) :
    (State.abortInsts s g).Inv n v := by
  unfold State.abortInsts
  with_reducible
    repeat' (first
      | assumption | apply Inv.foldl | apply State.endInst_inv | apply State.complete_inv
      | intro _ | (dsimp only) | split)

theorem State.actAbort_inv (s : State) (g : Nat) (p : Pkt) (hs0 : s.Inv n v) :
    (State.actAbort s g p).Inv n v := by
  unfold State.actAbort
  with_reducible repeat' (first | assumption | apply State.ctxReset_inv | apply State.abortInsts_inv | split)

theorem abortStep_inv (arr : Nat) (p : Pkt) (s : State) (hs2 : s.Inv n v) :
    (abortStep arr p s).Inv n v := by
  unfold abortStep
  with_reducible
    repeat' (first
      | assumption | apply State.when_inv | apply State.actAbort_inv
      | apply State.spreadAbort_inv | apply State.recordAbort_inv | intro _ | (dsimp only) | split)

theorem execAbort_inv (arr : Nat) (p : Pkt) (s : State) (hs2 : s.Inv n v) :
    Res.Keeps (execAbort arr p s) n v := by
  unfold execAbort
  with_reducible repeat' (first | apply Res.Keeps.need | assumption | apply abortStep_inv)

theorem elogNotifyStep_inv (s : State) (hs0 : s.Inv n v) :
    (elogNotifyStep s).Inv n v := by
  unfold elogNotifyStep
  with_reducible repeat' (first | assumption | apply State.msix_inv | simp only [Inv.mk_eq] | apply InvOf.mix | split)

theorem execElogNotify_inv (s : State) (hs0 : s.Inv n v) :
    Res.Keeps (execElogNotify s) n v := by
  unfold execElogNotify
  with_reducible repeat' (first | apply Res.Keeps.next | assumption | apply elogNotifyStep_inv)

theorem spareDumpWrite_inv (w : Who) (k : Nat) (v0 : Nat) (s : State) (hs3 : s.Inv n v) :
    (spareDumpWrite w k v0 s).Inv n v := by
  unfold spareDumpWrite
  with_reducible
    repeat' (first
      | assumption | apply State.when_inv | apply State.regWrite_inv | apply State.putRW_inv
      | apply State.trigger_inv | apply State.fset_inv | intro _ | simp only [Inv.mk_eq] | apply InvOf.mix | split)

theorem execDumpTake_inv (w : Who) (v0 : Nat) (s : State) (hs2 : s.Inv n v) :
    Res.Keeps (execDumpTake w v0 s) n v := by
  unfold execDumpTake
  with_reducible repeat' (first | apply Res.Keeps.next | assumption | apply State.when_inv | apply spareDumpWrite_inv)

theorem execDumpUsedClear_inv (w : Who) (v0 : Nat) (s : State) (hs2 : s.Inv n v) :
    Res.Keeps (execDumpUsedClear w v0 s) n v := by
  unfold execDumpUsedClear
  with_reducible repeat' (first | apply Res.Keeps.next | assumption | apply State.when_inv | apply spareDumpWrite_inv)

theorem execDumpXgo_inv (w : Who) (v0 : Nat) (s : State) (hs2 : s.Inv n v) :
    Res.Keeps (execDumpXgo w v0 s) n v := by
  unfold execDumpXgo
  with_reducible repeat' (first | apply Res.Keeps.next | assumption | apply State.when_inv | apply spareDumpWrite_inv)

theorem captureDoneStep_inv (s : State) (hs0 : s.Inv n v) :
    (captureDoneStep s).Inv n v := by
  unfold captureDoneStep
  with_reducible
    repeat' (first
      | assumption | apply State.obsStall_inv | apply State.fset_inv | simp only [Inv.mk_eq]
      | apply InvOf.mix | split)

theorem execCaptureDone_inv (s : State) (hs0 : s.Inv n v) :
    Res.Keeps (execCaptureDone s) n v := by
  unfold execCaptureDone
  with_reducible repeat' (first | apply Res.Keeps.next | assumption | apply captureDoneStep_inv)

theorem State.copyFrame_inv (s : State) (b : List Byte) (slot : Nat) (lo : Nat) (n0 : Nat) (dst : Nat) (j : Nat) (hs0 : s.Inv n v) :
    (State.copyFrame s b slot lo n0 dst j).Inv n v := by
  unfold State.copyFrame
  with_reducible repeat' (first | assumption | apply State.log_inv | apply State.rawWrite_inv | (dsimp only) | split)

theorem dumpCopyDoneStep_inv (s : State) (hs0 : s.Inv n v) :
    (dumpCopyDoneStep s).Inv n v := by
  unfold dumpCopyDoneStep
  with_reducible
    repeat' (first
      | assumption | apply Inv.foldl | apply State.when_inv | apply State.copyFrame_inv
      | apply State.fset_inv | intro _)

theorem execDumpCopyDone_inv (s : State) (hs0 : s.Inv n v) :
    Res.Keeps (execDumpCopyDone s) n v := by
  unfold execDumpCopyDone
  with_reducible repeat' (first | apply Res.Keeps.next | assumption | apply dumpCopyDoneStep_inv)

/-! Machine/Pair.lean. -/

theorem State.setRole_inv (s : State) (r : Nat) (armed : Bool) (hs0 : s.Inv n v) :
    (State.setRole s r armed).Inv n v := by
  unfold State.setRole
  with_reducible repeat' (first | assumption | apply State.fput_inv | apply State.fset_inv)

theorem State.becomePrimary_inv (s : State) (hs0 : s.Inv n v) :
    (State.becomePrimary s).Inv n v := by
  unfold State.becomePrimary
  with_reducible repeat' (first | assumption | apply State.setRole_inv | simp only [Inv.mk_eq] | apply InvOf.mix)

theorem sparePairWriteStep_inv (w : Who) (v0 : Nat) (s : State) (hs2 : s.Inv n v) :
    (sparePairWriteStep w v0 s).Inv n v := by
  unfold sparePairWriteStep
  with_reducible
    repeat' (first
      | assumption | apply State.when_inv | apply State.regWrite_inv | apply State.putRW_inv
      | apply State.becomePrimary_inv | apply State.setRole_inv | intro _ | simp only [Inv.mk_eq] | apply InvOf.mix | split)

theorem execSparePairWrite_inv (w : Who) (v0 : Nat) (s : State) (hs2 : s.Inv n v) :
    Res.Keeps (execSparePairWrite w v0 s) n v := by
  unfold execSparePairWrite
  with_reducible repeat' (first | apply Res.Keeps.next | assumption | apply sparePairWriteStep_inv)

theorem State.toPartner_inv (s : State) (b : List Byte) (hs0 : s.Inv n v) :
    (State.toPartner s b).Inv n v := by
  unfold State.toPartner
  with_reducible repeat' (first | assumption | apply State.beginHub_inv)

theorem renewSendStep_inv (s : State) (hs0 : s.Inv n v) :
    (renewSendStep s).Inv n v := by
  unfold renewSendStep
  with_reducible
    repeat' (first
      | assumption | apply State.when_inv | apply State.toPartner_inv | intro _
      | simp only [Inv.mk_eq] | apply InvOf.mix)

theorem execRenewSend_inv (s : State) (hs0 : s.Inv n v) :
    Res.Keeps (execRenewSend s) n v := by
  unfold execRenewSend
  with_reducible repeat' (first | apply Res.Keeps.next | assumption | apply renewSendStep_inv)

theorem State.grantTo_inv (s : State) (b : List Byte) (hs0 : s.Inv n v) :
    (State.grantTo s b).Inv n v := by
  unfold State.grantTo
  with_reducible repeat' (first | assumption | apply State.toPartner_inv)

theorem State.heardRenew_inv (s : State) (b : List Byte) (hs0 : s.Inv n v) :
    (State.heardRenew s b).Inv n v := by
  unfold State.heardRenew
  with_reducible repeat' (first | assumption | simp only [Inv.mk_eq] | apply InvOf.mix)

theorem State.takeRenew_inv (s : State) (b : List Byte) (hs0 : s.Inv n v) :
    (State.takeRenew s b).Inv n v := by
  unfold State.takeRenew
  with_reducible
    repeat' (first
      | assumption | apply State.grantTo_inv | apply State.setRole_inv
      | apply State.heardRenew_inv | apply State.fset_inv | simp only [Inv.mk_eq] | apply InvOf.mix | split)

theorem State.fromPartner_inv (s : State) (p : Pkt) (k : List Byte → State → State) (hs0 : s.Inv n v)
    (hs2 : ∀ y0 y1, y1.Inv n v → (k y0 y1).Inv n v) :
    (State.fromPartner s p k).Inv n v := by
  unfold State.fromPartner
  with_reducible repeat' (first | assumption | apply hs2 | apply State.when_inv | apply State.arriveMsg_inv | intro _ | split)

theorem execRenew_inv (p : Pkt) (s : State) (hs1 : s.Inv n v) :
    Res.Keeps (execRenew p s) n v := by
  unfold execRenew
  with_reducible
    repeat' (first
      | apply Res.Keeps.next | assumption | apply State.fromPartner_inv
      | apply State.takeRenew_inv | intro _)

theorem State.takeGrant_inv (s : State) (b : List Byte) (hs0 : s.Inv n v) :
    (State.takeGrant s b).Inv n v := by
  unfold State.takeGrant
  with_reducible repeat' (first | assumption | apply State.fset_inv | simp only [Inv.mk_eq] | apply InvOf.mix | split)

theorem execGrant_inv (p : Pkt) (s : State) (hs1 : s.Inv n v) :
    Res.Keeps (execGrant p s) n v := by
  unfold execGrant
  with_reducible
    repeat' (first
      | apply Res.Keeps.next | assumption | apply State.fromPartner_inv
      | apply State.takeGrant_inv | intro _)

theorem leaseExpiryStep_inv (s : State) (hs0 : s.Inv n v) :
    (leaseExpiryStep s).Inv n v := by
  unfold leaseExpiryStep
  with_reducible repeat' (first | assumption | apply State.when_inv | apply State.log_inv | apply State.setRole_inv | intro _)

theorem execLeaseExpiry_inv (s : State) (hs0 : s.Inv n v) :
    Res.Keeps (execLeaseExpiry s) n v := by
  unfold execLeaseExpiry
  with_reducible repeat' (first | apply Res.Keeps.next | assumption | apply leaseExpiryStep_inv)

theorem promotionTimeoutStep_inv (s : State) (hs0 : s.Inv n v) :
    (promotionTimeoutStep s).Inv n v := by
  unfold promotionTimeoutStep
  with_reducible
    repeat' (first
      | assumption | apply State.when_inv | apply State.log_inv | apply State.fsat_inv
      | apply State.becomePrimary_inv | intro _)

theorem execPromotionTimeout_inv (s : State) (hs0 : s.Inv n v) :
    Res.Keeps (execPromotionTimeout s) n v := by
  unfold execPromotionTimeout
  with_reducible repeat' (first | apply Res.Keeps.next | assumption | apply promotionTimeoutStep_inv)

theorem State.startResync_inv (s : State) (hs0 : s.Inv n v) :
    (State.startResync s).Inv n v := by
  unfold State.startResync
  with_reducible
    repeat' (first
      | assumption | apply State.fset_inv | apply State.setDirty_inv | simp only [Inv.mk_eq]
      | apply InvOf.mix)

theorem State.startSwitch_inv (s : State) (hs0 : s.Inv n v) :
    (State.startSwitch s).Inv n v := by
  unfold State.startSwitch
  with_reducible repeat' (first | assumption | simp only [Inv.mk_eq] | apply InvOf.mix)

theorem spareResyncWrite_inv (w : Who) (v0 : Nat) (s : State) (hs2 : s.Inv n v) :
    (spareResyncWrite w v0 s).Inv n v := by
  unfold spareResyncWrite
  with_reducible
    repeat' (first
      | assumption | apply State.when_inv | apply State.regWrite_inv | apply State.putRW_inv
      | apply State.startResync_inv | apply State.startSwitch_inv | intro _ | (dsimp only) | split)

theorem execResyncGo_inv (w : Who) (v0 : Nat) (prole : Nat) (s : State) (hs3 : s.Inv n v) :
    Res.Keeps (execResyncGo w v0 prole s) n v := by
  unfold execResyncGo
  with_reducible
    repeat' (first
      | apply Res.Keeps.next | assumption | apply State.when_inv
      | apply spareResyncWrite_inv | intro _ | simp only [Inv.mk_eq] | apply InvOf.mix)

theorem execResyncSwitch_inv (w : Who) (v0 : Nat) (s : State) (hs2 : s.Inv n v) :
    Res.Keeps (execResyncSwitch w v0 s) n v := by
  unfold execResyncSwitch
  with_reducible repeat' (first | apply Res.Keeps.next | assumption | apply State.when_inv | apply spareResyncWrite_inv)

theorem State.sendFrame_inv (s : State) (hs0 : s.Inv n v) :
    (State.sendFrame s).Inv n v := by
  unfold State.sendFrame
  with_reducible
    repeat' (first
      | assumption | apply State.setDirty_inv | apply State.beginHub_inv
      | apply State.resyncFail_inv | simp only [Inv.mk_eq] | apply InvOf.mix | split)

theorem State.writeFrame_inv (s : State) (p : Pkt) (hs0 : s.Inv n v) :
    (State.writeFrame s p).st.Inv n v := by
  unfold State.writeFrame
  with_reducible repeat' (first | assumption | apply State.memWrite_inv | apply State.resyncFail_inv | (dsimp only) | split)

theorem resyncFrameStep_inv (p : Option Pkt) (s : State) (hs1 : s.Inv n v) :
    (resyncFrameStep p s).Inv n v := by
  unfold resyncFrameStep
  with_reducible
    repeat' (first
      | assumption | apply State.when_inv | apply State.sendFrame_inv
      | apply State.arrive_inv | apply State.withMsg_inv | apply State.writeFrame_inv | intro _ | split)

theorem execResyncFrame_inv (p : Option Pkt) (s : State) (hs1 : s.Inv n v) :
    Res.Keeps (execResyncFrame p s) n v := by
  unfold execResyncFrame
  with_reducible repeat' (first | apply Res.Keeps.next | assumption | apply resyncFrameStep_inv)

theorem resyncPassStep_inv (s : State) (hs0 : s.Inv n v) :
    (resyncPassStep s).Inv n v := by
  unfold resyncPassStep
  with_reducible
    repeat' (first
      | assumption | apply State.when_inv | apply State.setDirty_inv | intro _
      | simp only [Inv.mk_eq] | apply InvOf.mix)

theorem execResyncPass_inv (s : State) (hs0 : s.Inv n v) :
    Res.Keeps (execResyncPass s) n v := by
  unfold execResyncPass
  with_reducible repeat' (first | apply Res.Keeps.next | assumption | apply resyncPassStep_inv)

theorem State.takeStreams_inv (s : State) (src : List (List Nat)) (dst : List (List Nat)) (hs0 : s.Inv n v) :
    (State.takeStreams s src dst).Inv n v := by
  unfold State.takeStreams
  with_reducible repeat' (first | assumption | simp only [Inv.mk_eq] | apply InvOf.mix)

theorem resyncSwitchDoneStep_inv (st : Option (List (List Nat) × List (List Nat))) (s : State) (hs1 : s.Inv n v) :
    (resyncSwitchDoneStep st s).Inv n v := by
  unfold resyncSwitchDoneStep
  with_reducible
    repeat' (first
      | assumption | apply State.when_inv | apply State.toPartner_inv | apply State.fset_inv
      | apply State.setRole_inv | apply State.takeStreams_inv | intro _ | simp only [Inv.mk_eq] | apply InvOf.mix | split)

theorem execResyncSwitchDone_inv (st : Option (List (List Nat) × List (List Nat))) (s : State) (hs1 : s.Inv n v) :
    Res.Keeps (execResyncSwitchDone st s) n v := by
  unfold execResyncSwitchDone
  with_reducible repeat' (first | apply Res.Keeps.next | assumption | apply resyncSwitchDoneStep_inv)

theorem resyncFailStep_inv (lost : Bool) (s : State) (hs1 : s.Inv n v) :
    (resyncFailStep lost s).Inv n v := by
  unfold resyncFailStep
  with_reducible repeat' (first | assumption | apply State.when_inv | apply State.resyncFail_inv)

theorem execResyncFail_inv (lost : Bool) (s : State) (hs1 : s.Inv n v) :
    Res.Keeps (execResyncFail lost s) n v := by
  unfold execResyncFail
  with_reducible repeat' (first | apply Res.Keeps.next | assumption | apply resyncFailStep_inv)

/-! Machine/Boot.lean. -/

theorem State.showFuses_inv (s : State) (hs0 : s.Inv n v) :
    (State.showFuses s).Inv n v := by
  unfold State.showFuses
  with_reducible repeat' (first | assumption | apply State.fset_inv | apply State.fput_inv)

theorem State.newNonce_inv (s : State) (hs0 : s.Inv n v) :
    (State.newNonce s).Inv n v := by
  unfold State.newNonce
  with_reducible repeat' (first | assumption | apply State.drew_inv | apply State.fset_inv)

theorem execEnRise_inv (s : State) (hs0 : s.Inv n v) :
    Res.Keeps (execEnRise s) n v := by
  unfold execEnRise
  with_reducible
    repeat' (first
      | apply Res.Keeps.next | assumption | apply State.when_inv | simp only [Inv.mk_eq]
      | apply InvOf.state)

theorem execEnFall_inv (s : State) (hs0 : s.Inv n v) :
    Res.Keeps (execEnFall s) n v := by
  unfold execEnFall
  with_reducible
    repeat' (first
      | apply Res.Keeps.next | assumption | apply State.railsOff_inv | apply State.dark_inv
      | simp only [Inv.mk_eq] | apply InvOf.mix | split)

theorem State.endStep_inv (s : State) (result : Nat) (code : Nat) (hs0 : s.Inv n v) :
    (State.endStep s result code).Inv n v := by
  unfold State.endStep
  with_reducible repeat' (first | assumption | apply State.fset_inv | split)

theorem State.endPower_inv (s : State) (hs0 : s.Inv n v) :
    (State.endPower s).Inv n v := by
  unfold State.endPower
  with_reducible repeat' (first | assumption | apply State.endStep_inv | split)

theorem State.ucieOut_inv (s : State) (m : Nat) (origin : Nat) (hs0 : s.Inv n v) :
    (State.ucieOut s m origin).Inv n v := by
  unfold State.ucieOut
  with_reducible repeat' (first | assumption | apply State.recordFence_inv | simp only [Inv.mk_eq] | apply InvOf.mix | split)

theorem powerGoodStep_inv (grade : Nat) (tray : Nat) (slot : Nat) (ucie : Nat) (s : State) (hs4 : s.Inv n v) :
    (powerGoodStep grade tray slot ucie s).Inv n v := by
  unfold powerGoodStep
  with_reducible
    repeat' (first
      | assumption | apply Inv.foldl | apply State.when_inv | apply State.fset_inv
      | apply State.newNonce_inv | apply State.showFuses_inv | apply State.ucieOut_inv | apply State.endPower_inv | intro _
      | simp only [Inv.mk_eq] | apply InvOf.mix | split)

theorem execPowerGood_inv (grade : Nat) (tray : Nat) (slot : Nat) (ucie : Nat) (s : State) (hs4 : s.Inv n v) :
    Res.Keeps (execPowerGood grade tray slot ucie s) n v := by
  unfold execPowerGood
  with_reducible repeat' (first | apply Res.Keeps.next | assumption | apply powerGoodStep_inv)

theorem execUcieModuleFail_inv (m : Nat) (s : State) (hs1 : s.Inv n v) :
    Res.Keeps (execUcieModuleFail m s) n v := by
  unfold execUcieModuleFail
  with_reducible repeat' (first | apply Res.Keeps.need | assumption | apply State.when_inv | apply State.ucieOut_inv | intro _)

theorem State.warmRegs_inv (s : State) (hs0 : s.Inv n v) :
    (State.warmRegs s).Inv n v := by
  unfold State.warmRegs
  with_reducible
    repeat' (first
      | assumption | apply Inv.foldl | apply State.fset_inv | intro _
      | simp only [Inv.mk_eq] | apply InvOf.mix)

theorem State.loseWork_inv (s : State) (ps4 : Bool) (hs0 : s.Inv n v) :
    (State.loseWork s ps4).Inv n v := by
  unfold State.loseWork
  with_reducible
    repeat' (first
      | apply Inv.foldl | apply State.fset_inv | apply State.fput_inv
      | apply State.newNonce_inv | apply State.showFuses_inv | intro _ | simp only [Inv.mk_eq] | split)
  all_goals exact InvOf.lose (InvOf.mix hs0 hs0 hs0 hs0 hs0 (State.warmRegs_inv _ (State.note_inv _ _ _ hs0)))

theorem State.startPower_inv (s : State) (why : Nat) (hs0 : s.Inv n v) :
    (State.startPower s why).Inv n v := by
  unfold State.startPower
  with_reducible
    repeat' (first
      | assumption | apply State.fput_inv | apply State.fset_inv | apply State.log_inv
      | apply State.rootLock_inv | (dsimp only) | split)

theorem State.warmReset_inv (s : State) (hs0 : s.Inv n v) :
    (State.warmReset s).Inv n v := by
  unfold State.warmReset
  with_reducible
    repeat' (first
      | assumption | apply State.startPower_inv | apply State.loseWork_inv | intro _
      | apply Inv.ite_mem | apply Inv.ite_snd | split)

theorem State.enterPs4_inv (s : State) (hs0 : s.Inv n v) :
    (State.enterPs4 s).Inv n v := by
  unfold State.enterPs4
  with_reducible
    repeat' (first
      | assumption | apply Inv.foldl | apply State.loseWork_inv | apply State.fset_inv
      | apply State.note_inv | intro _ | apply Inv.ite | apply Inv.ite_mem | simp only [Inv.mk_eq] | apply InvOf.mix
      | (dsimp only))

theorem State.leavePs4_inv (s : State) (hs0 : s.Inv n v) :
    (State.leavePs4 s).Inv n v := by
  unfold State.leavePs4
  with_reducible
    repeat' (first
      | assumption | apply Inv.foldl | apply State.note_inv | apply State.startPower_inv
      | apply State.fset_inv | intro _)

theorem pstateWrite_inv (w : Who) (v0 : Nat) (s : State) (hs2 : s.Inv n v) :
    (pstateWrite w v0 s).Inv n v := by
  unfold pstateWrite
  with_reducible
    repeat' (first
      | assumption | apply State.when_inv | apply State.regWrite_inv | apply State.lehr_inv
      | apply State.putRW_inv | apply State.enterPs4_inv | intro _ | split)

theorem execPs4Req_inv (w : Who) (v0 : Nat) (s : State) (hs2 : s.Inv n v) :
    Res.Keeps (execPs4Req w v0 s) n v := by
  unfold execPs4Req
  with_reducible repeat' (first | apply Res.Keeps.next | assumption | apply State.when_inv | apply pstateWrite_inv)

theorem bootEff_inv (v0 : Nat) (s : State) (hs1 : s.Inv n v) :
    (bootEff v0 s).Inv n v := by
  unfold bootEff
  with_reducible
    repeat' (first
      | assumption | apply State.putRW_inv | apply State.warmReset_inv
      | apply State.fset_inv | simp only [Inv.mk_eq] | apply InvOf.mix | split)

theorem bootCtlWrite_inv (w : Who) (v0 : Nat) (s : State) (hs2 : s.Inv n v) :
    (bootCtlWrite w v0 s).Inv n v := by
  unfold bootCtlWrite
  with_reducible
    repeat' (first
      | assumption | apply State.when_inv | apply State.regWriteOr_inv
      | apply State.logC_inv | apply bootEff_inv | intro _)

theorem goStep_inv (k : Nat) (w : Who) (v0 : Nat) (s : State) (hs3 : s.Inv n v) :
    (goStep k w v0 s).Inv n v := by
  unfold goStep
  with_reducible repeat' (first | assumption | apply State.when_inv | apply bootCtlWrite_inv)

theorem execSecfw_inv (w : Who) (v0 : Nat) (s : State) (hs2 : s.Inv n v) :
    Res.Keeps (execSecfw w v0 s) n v := by
  unfold execSecfw
  with_reducible repeat' (first | apply Res.Keeps.next | assumption | apply goStep_inv)

theorem execIdentity_inv (w : Who) (v0 : Nat) (s : State) (hs2 : s.Inv n v) :
    Res.Keeps (execIdentity w v0 s) n v := by
  unfold execIdentity
  with_reducible repeat' (first | apply Res.Keeps.next | assumption | apply goStep_inv)

theorem execRecord_inv (w : Who) (v0 : Nat) (s : State) (hs2 : s.Inv n v) :
    Res.Keeps (execRecord w v0 s) n v := by
  unfold execRecord
  with_reducible repeat' (first | apply Res.Keeps.next | assumption | apply goStep_inv)

theorem execRecordSafe_inv (w : Who) (v0 : Nat) (s : State) (hs2 : s.Inv n v) :
    Res.Keeps (execRecordSafe w v0 s) n v := by
  unfold execRecordSafe
  with_reducible repeat' (first | apply Res.Keeps.next | assumption | apply State.when_inv | apply goStep_inv)

theorem execGather_inv (w : Who) (v0 : Nat) (s : State) (hs2 : s.Inv n v) :
    Res.Keeps (execGather w v0 s) n v := by
  unfold execGather
  with_reducible repeat' (first | apply Res.Keeps.next | assumption | apply goStep_inv)

theorem execSelftest_inv (w : Who) (v0 : Nat) (s : State) (hs2 : s.Inv n v) :
    Res.Keeps (execSelftest w v0 s) n v := by
  unfold execSelftest
  with_reducible repeat' (first | apply Res.Keeps.next | assumption | apply goStep_inv)

theorem execCullet_inv (w : Who) (v0 : Nat) (s : State) (hs2 : s.Inv n v) :
    Res.Keeps (execCullet w v0 s) n v := by
  unfold execCullet
  with_reducible repeat' (first | apply Res.Keeps.next | assumption | apply goStep_inv)

theorem execReady_inv (w : Who) (v0 : Nat) (s : State) (hs2 : s.Inv n v) :
    Res.Keeps (execReady w v0 s) n v := by
  unfold execReady
  with_reducible repeat' (first | apply Res.Keeps.next | assumption | apply goStep_inv)

theorem execWreset_inv (w : Who) (v0 : Nat) (s : State) (hs2 : s.Inv n v) :
    Res.Keeps (execWreset w v0 s) n v := by
  unfold execWreset
  with_reducible repeat' (first | apply Res.Keeps.next | assumption | apply State.when_inv | apply bootCtlWrite_inv)

theorem State.endSecfw_inv (s : State) (hs0 : s.Inv n v) :
    (State.endSecfw s).Inv n v := by
  unfold State.endSecfw
  with_reducible
    repeat' (first
      | assumption | apply State.endStep_inv | apply State.logC_inv
      | apply State.putEntries_inv | apply State.loadKey_inv | apply State.fset_inv | simp only [Inv.mk_eq] | apply InvOf.mix
      | split)

theorem State.endIdentity_inv (s : State) (burns : Nat) (h : s.Inv n v) : (s.endIdentity burns).Inv n v := by
  have k := State.fset_inv s GCTL_SERIAL.SERIAL 0 (serialOf idKey) h
  unfold State.endIdentity
  split
  · exact State.endStep_inv _ _ _ h
  · dsimp only
    split
    · exact State.endStep_inv _ _ _ (State.logC_inv _ _ (State.fset_inv _ _ _ _ (State.fset_inv _ _ _ _
        (InvOf.burn k k.epochs.2 (Nat.le_refl _)))))
    · rename_i hb
      exact State.endStep_inv _ _ _ (State.fset_inv _ _ _ _ (State.fset_inv _ _ _ _ (State.fset_inv _ _ _ _
        (State.fset_inv _ _ _ _ (InvOf.burn k (by omega) (by omega))))))

theorem State.siteOut_inv (s : State) (site : Nat) (hs0 : s.Inv n v) :
    (State.siteOut s site).Inv n v := by
  unfold State.siteOut
  with_reducible repeat' (first | assumption | apply State.gateSite_inv | split)

theorem State.pcOut_inv (s : State) (k : Nat) (hs0 : s.Inv n v) :
    (State.pcOut s k).Inv n v := by
  unfold State.pcOut
  with_reducible repeat' (first | assumption | apply State.fsat_inv | apply State.fset_inv | split)

theorem State.applyDefect_inv (s : State) (e : Nat) (hs0 : s.Inv n v) :
    (State.applyDefect s e).Inv n v := by
  unfold State.applyDefect
  with_reducible
    repeat' (first
      | assumption | apply Inv.foldl | apply State.siteOut_inv | apply State.fset_inv
      | apply State.phaseOut_inv | apply State.pcOut_inv | simp only [Inv.mk_eq] | apply InvOf.mix | split)

theorem State.endRecord_inv (s : State) (hs0 : s.Inv n v) :
    (State.endRecord s).Inv n v := by
  unfold State.endRecord
  with_reducible
    repeat' (first
      | assumption | apply Inv.foldl | apply State.endStep_inv | apply State.fset_inv
      | apply State.applyDefect_inv | simp only [Inv.mk_eq] | apply InvOf.mix | split)
  exact InvOf.newCal (InvOf.state hs0) (cellsWrites_wf (fun e : Nat × Nat × Nat => e.2.1) _ _ rfl)

theorem State.bootFence_inv (s : State) (code : Nat) (site : Nat) (hs0 : s.Inv n v) :
    (State.bootFence s code site).Inv n v := by
  unfold State.bootFence
  with_reducible
    repeat' (first
      | assumption | apply State.log_inv | apply State.gateSite_inv
      | apply State.recordFence_inv | simp only [Inv.mk_eq] | apply InvOf.mix | split)

theorem State.endGather_inv (s : State) (o : BootIn) (hs0 : s.Inv n v) :
    (State.endGather s o).Inv n v := by
  unfold State.endGather
  with_reducible
    repeat' (first
      | assumption | apply Inv.foldl | apply State.endStep_inv | apply State.deliver_inv
      | apply State.bootFence_inv | apply State.fset_inv | intro _ | (dsimp only) | split)

theorem State.testRow_inv (s : State) (e : Nat × Nat) (hs0 : s.Inv n v) :
    (State.testRow s e).Inv n v := by
  unfold State.testRow
  with_reducible repeat' (first | assumption | apply State.repairRow_inv | apply State.bootFence_inv | split)

theorem State.endSelftest_inv (s : State) (o : BootIn) (hs0 : s.Inv n v) :
    (State.endSelftest s o).Inv n v := by
  unfold State.endSelftest
  with_reducible
    repeat' (first
      | assumption | apply Inv.foldl | apply State.wearRead_inv | apply State.testRow_inv
      | apply State.bootFence_inv | apply State.endStep_inv | intro _ | (dsimp only) | split)

theorem State.culletSeed_inv (s : State) (hs0 : s.Inv n v) :
    (State.culletSeed s).Inv n v := by
  unfold State.culletSeed
  with_reducible
    repeat' (first
      | assumption | apply Inv.foldl | apply State.siteOut_inv | apply State.culletPut_inv
      | intro _ | split)

theorem State.mapCluster_inv (s : State) (cl : Nat) (die : Nat) (pc : Nat) (hs0 : s.Inv n v) :
    (State.mapCluster s cl die pc).Inv n v := by
  unfold State.mapCluster
  with_reducible repeat' (first | assumption | apply Inv.foldl | apply State.fset_inv | intro _)

theorem State.mapDie_inv (s : State) (die : Nat) (hs0 : s.Inv n v) :
    (State.mapDie s die).Inv n v := by
  unfold State.mapDie
  with_reducible
    repeat' (first
      | assumption | apply Inv.foldl | apply State.fset_inv | apply State.mapCluster_inv
      | intro _ | split)

theorem State.culletCold_inv (s : State) (hs0 : s.Inv n v) :
    (State.culletCold s).Inv n v := by
  unfold State.culletCold
  with_reducible
    repeat' (first
      | assumption | apply Inv.foldl | apply State.culletSeed_inv
      | apply State.culletPut_inv | apply State.mapDie_inv | intro _ | simp only [Inv.mk_eq] | apply InvOf.mix)

theorem State.culletReplace_inv (s : State) (noWake : List Nat) (e : Nat × Nat) (hs0 : s.Inv n v) :
    (State.culletReplace s noWake e).Inv n v := by
  unfold State.culletReplace
  with_reducible
    repeat' (first
      | assumption | apply State.substitute_inv | apply State.fset_inv
      | apply State.recordFence_inv | split)

theorem State.culletWarm_inv (s : State) (noWake : List Nat) (hs0 : s.Inv n v) :
    (State.culletWarm s noWake).Inv n v := by
  unfold State.culletWarm
  with_reducible
    repeat' (first
      | assumption | apply Inv.foldl | apply State.culletReplace_inv | intro _
      | simp only [Inv.mk_eq] | apply InvOf.mix)

theorem State.endCullet_inv (s : State) (o : BootIn) (hs0 : s.Inv n v) :
    (State.endCullet s o).Inv n v := by
  unfold State.endCullet
  with_reducible
    repeat' (first
      | assumption | apply State.culletWarm_inv | apply State.culletCold_inv
      | apply State.endStep_inv | (dsimp only) | split)

theorem State.endReady_inv (s : State) (hs0 : s.Inv n v) :
    (State.endReady s).Inv n v := by
  unfold State.endReady
  with_reducible repeat' (first | assumption | apply State.endStep_inv | simp only [Inv.mk_eq] | apply InvOf.mix)

theorem bootStepEndStep_inv (o : BootIn) (s : State) (hs1 : s.Inv n v) :
    (bootStepEndStep o s).Inv n v := by
  unfold bootStepEndStep
  with_reducible
    repeat' (first
      | assumption | apply State.when_inv | apply State.endPower_inv
      | apply State.endSecfw_inv | apply State.endIdentity_inv | apply State.endRecord_inv | apply State.endGather_inv
      | apply State.endSelftest_inv | apply State.endCullet_inv | apply State.endReady_inv | intro _ | split)

theorem execBootStepEnd_inv (o : BootIn) (s : State) (hs1 : s.Inv n v) :
    Res.Keeps (execBootStepEnd o s) n v := by
  unfold execBootStepEnd
  with_reducible repeat' (first | apply Res.Keeps.next | assumption | apply bootStepEndStep_inv)

theorem stagingWriteStep_inv (w : Who) (off : Nat) (v0 : Nat) (s : State) (hs3 : s.Inv n v) :
    (stagingWriteStep w off v0 s).Inv n v := by
  unfold stagingWriteStep
  with_reducible
    repeat' (first
      | assumption | apply State.when_inv | apply State.windowBar_inv | apply State.logC_inv
      | intro _ | simp only [Inv.mk_eq] | apply InvOf.mix | apply InvOf.write_staging | apply OptKeeps.getD | split)

theorem execStagingWrite_inv (w : Who) (off : Nat) (v0 : Nat) (s : State) (hs3 : s.Inv n v) :
    Res.Keeps (execStagingWrite w off v0 s) n v := by
  unfold execStagingWrite
  with_reducible repeat' (first | apply Res.Keeps.next | assumption | apply stagingWriteStep_inv)

theorem calibrationWriteStep_inv (w : Who) (off : Nat) (v0 : Nat) (s : State) (hs3 : s.Inv n v) :
    (calibrationWriteStep w off v0 s).Inv n v := by
  unfold calibrationWriteStep
  with_reducible
    repeat' (first
      | assumption | apply State.when_inv | apply State.windowBar_inv | apply State.fset_inv
      | apply State.logC_inv | intro _ | simp only [Inv.mk_eq] | apply InvOf.mix | apply InvOf.write_cal | apply OptKeeps.getD
      | split)

theorem execCalibrationWrite_inv (w : Who) (off : Nat) (v0 : Nat) (s : State) (hs3 : s.Inv n v) :
    Res.Keeps (execCalibrationWrite w off v0 s) n v := by
  unfold execCalibrationWrite
  with_reducible repeat' (first | apply Res.Keeps.next | assumption | apply calibrationWriteStep_inv)

/-! Machine/Firmware.lean. -/

theorem State.fwuReject_inv (s : State) (hs0 : s.Inv n v) :
    (State.fwuReject s).Inv n v := by
  unfold State.fwuReject
  with_reducible repeat' (first | assumption | apply State.logC_inv | apply State.fset_inv)

theorem State.fwuCheck_inv (s : State) (bits : Nat) (go : State → State) (hs0 : s.Inv n v)
    (hs2 : ∀ y0, y0.Inv n v → (go y0).Inv n v) :
    (State.fwuCheck s bits go).Inv n v := by
  unfold State.fwuCheck
  with_reducible repeat' (first | assumption | apply hs2 | apply State.fset_inv | apply State.logC_inv | split)

theorem State.fwuStage_inv (s : State) (path : Nat) (b : List Byte) (hs0 : s.Inv n v) :
    (State.fwuStage s path b).Inv n v := by
  unfold State.fwuStage
  with_reducible
    repeat' (first
      | assumption | apply State.fwuReject_inv | apply State.fwuCheck_inv
      | apply State.fset_inv | intro _ | simp only [Inv.mk_eq] | apply InvOf.mix | split)

theorem State.fwuActivate_inv (s : State) (path : Nat) (t : Nat) (hs0 : s.Inv n v) :
    (State.fwuActivate s path t).Inv n v := by
  unfold State.fwuActivate
  with_reducible
    repeat' (first
      | assumption | apply State.fwuReject_inv | apply State.fwuCheck_inv
      | apply State.fset_inv | apply State.arm_inv | intro _ | simp only [Inv.mk_eq] | apply InvOf.mix | split)

theorem State.disarmFw_inv (s : State) (hs0 : s.Inv n v) :
    (State.disarmFw s).Inv n v := by
  unfold State.disarmFw
  with_reducible repeat' (first | assumption | simp only [Inv.mk_eq] | apply InvOf.mix)

theorem State.fwuAbandon_inv (s : State) (path : Nat) (hs0 : s.Inv n v) :
    (State.fwuAbandon s path).Inv n v := by
  unfold State.fwuAbandon
  with_reducible
    repeat' (first
      | assumption | apply State.fwuReject_inv | apply State.disarmFw_inv
      | apply State.fset_inv | simp only [Inv.mk_eq] | apply InvOf.mix | split)

theorem State.svnCommit_inv (s : State) (hs0 : s.Inv n v) :
    (State.svnCommit s).Inv n v := by
  unfold State.svnCommit
  with_reducible
    repeat' (first
      | assumption | apply State.fwuReject_inv | apply State.showFuses_inv
      | simp only [Inv.mk_eq] | split)
  exact InvOf.commit (x := fun t => max (s.svnOf t) (min 64 (MFE.SVN.of (s.fwEntry t)))) (InvOf.state hs0)
    fun t a z => ⟨Nat.le_max_left _ _, Nat.max_le.mpr ⟨(hs0.svn t a z).2, Nat.min_le_left _ _⟩⟩

theorem fwuCtlWrite_inv (w : Who) (v0 : Nat) (s : State) (hs2 : s.Inv n v) :
    (fwuCtlWrite w v0 s).Inv n v := by
  unfold fwuCtlWrite
  with_reducible
    repeat' (first
      | assumption | apply State.when_inv | apply State.regWrite_inv
      | apply State.fwuStage_inv | apply State.fwuActivate_inv | apply State.fwuAbandon_inv | apply State.svnCommit_inv
      | intro _ | split)

theorem execFwuStage_inv (w : Who) (v0 : Nat) (s : State) (hs2 : s.Inv n v) :
    Res.Keeps (execFwuStage w v0 s) n v := by
  unfold execFwuStage
  with_reducible repeat' (first | apply Res.Keeps.next | assumption | apply State.when_inv | apply fwuCtlWrite_inv)

theorem execFwuActivate_inv (w : Who) (v0 : Nat) (s : State) (hs2 : s.Inv n v) :
    Res.Keeps (execFwuActivate w v0 s) n v := by
  unfold execFwuActivate
  with_reducible repeat' (first | apply Res.Keeps.next | assumption | apply State.when_inv | apply fwuCtlWrite_inv)

theorem execFwuAbandon_inv (w : Who) (v0 : Nat) (s : State) (hs2 : s.Inv n v) :
    Res.Keeps (execFwuAbandon w v0 s) n v := by
  unfold execFwuAbandon
  with_reducible repeat' (first | apply Res.Keeps.next | assumption | apply State.when_inv | apply fwuCtlWrite_inv)

theorem execSvnCommit_inv (w : Who) (v0 : Nat) (s : State) (hs2 : s.Inv n v) :
    Res.Keeps (execSvnCommit w v0 s) n v := by
  unfold execSvnCommit
  with_reducible repeat' (first | apply Res.Keeps.next | assumption | apply State.when_inv | apply fwuCtlWrite_inv)

theorem State.gatherFence_inv (s : State) (site : Nat) (hs0 : s.Inv n v) :
    (State.gatherFence s site).Inv n v := by
  unfold State.gatherFence
  with_reducible
    repeat' (first
      | assumption | apply State.log_inv | apply State.startDrain_inv
      | apply State.fenceSite_inv | (dsimp only) | split)

theorem stagingDoneStep_inv (copies : List BlockCopy) (s : State) (hs1 : s.Inv n v) :
    (stagingDoneStep copies s).Inv n v := by
  unfold stagingDoneStep
  with_reducible
    repeat' (first
      | assumption | apply Inv.foldl | apply State.when_inv | apply State.fset_inv
      | apply State.deliver_inv | apply State.gatherFence_inv | apply State.logC_inv | intro _ | simp only [Inv.mk_eq]
      | apply InvOf.mix | split)

theorem execStagingDone_inv (copies : List BlockCopy) (s : State) (hs1 : s.Inv n v) :
    Res.Keeps (execStagingDone copies s) n v := by
  unfold execStagingDone
  with_reducible repeat' (first | apply Res.Keeps.next | assumption | apply stagingDoneStep_inv)

theorem State.actFail_inv (s : State) (code : Nat) (hs0 : s.Inv n v) :
    (State.actFail s code).Inv n v := by
  unfold State.actFail
  with_reducible repeat' (first | assumption | apply State.fset_inv | apply State.withdraw_inv | apply State.logC_inv | split)

theorem State.actStart_inv (s : State) (hs0 : s.Inv n v) :
    (State.actStart s).Inv n v := by
  unfold State.actStart
  with_reducible
    repeat' (first
      | assumption | apply State.disarmFw_inv | apply State.fset_inv
      | apply State.fwuCheck_inv | intro _ | simp only [Inv.mk_eq] | apply InvOf.mix | split)

theorem State.actEnd_inv (s : State) (hs0 : s.Inv n v) :
    (State.actEnd s).Inv n v := by
  unfold State.actEnd
  with_reducible
    repeat' (first
      | assumption | apply State.fset_inv | apply State.putEntries_inv
      | simp only [Inv.mk_eq] | apply InvOf.mix | split)

theorem activationStep_inv (ready : Bool) (alt : List (Nat × Nat)) (s : State) (hs2 : s.Inv n v) :
    (activationStep ready alt s).Inv n v := by
  unfold activationStep
  with_reducible
    repeat' (first
      | assumption | apply State.when_inv | apply State.actStart_inv
      | apply State.actFail_inv | apply State.actEnd_inv | intro _ | split)

theorem execActivation_inv (ready : Bool) (alt : List (Nat × Nat)) (s : State) (hs2 : s.Inv n v) :
    Res.Keeps (execActivation ready alt s) n v := by
  unfold execActivation
  with_reducible repeat' (first | apply Res.Keeps.next | assumption | apply activationStep_inv)

theorem execActTimeout_inv (s : State) (hs0 : s.Inv n v) :
    Res.Keeps (execActTimeout s) n v := by
  unfold execActTimeout
  with_reducible repeat' (first | apply Res.Keeps.next | assumption | apply State.when_inv | apply State.actFail_inv | intro _)

end Sys2Proof.Machine
end

