-- ==== Sys2Proof/Laws/InvHost.lean ====
section
/-! SUPPORT. One lemma for each definition that gives a state: it keeps `State.Inv`. Here: what
the management, SPDM, observation, security, lane, memory and access commands keep. -/

namespace Sys2Proof.Machine

variable {n : Nat} {v : Nat → Nat}

/-! Machine/Mgmt.lean. -/

theorem State.setDyn_inv (s : State) (tb : Bool) (da : Nat) (hs0 : s.Inv n v) :
    (State.setDyn s tb da).Inv n v := by
  unfold State.setDyn
  with_reducible
    repeat' (first
      | assumption | apply State.fput_inv | apply State.fset_inv | simp only [Inv.mk_eq]
      | apply InvOf.mix | split)

theorem execSetdasa_inv (tb : Bool) (static : Nat) (da : Nat) (s : State) (hs3 : s.Inv n v) :
    Res.Keeps (execSetdasa tb static da s) n v := by
  unfold execSetdasa
  with_reducible repeat' (first | apply Res.Keeps.next | assumption | apply State.when_inv | apply State.setDyn_inv | intro _)

theorem execEntdaa_inv (tb : Bool) (da : Nat) (s : State) (hs2 : s.Inv n v) :
    Res.Keeps (execEntdaa tb da s) n v := by
  unfold execEntdaa
  with_reducible
    repeat' (first
      | apply Res.Keeps.next | assumption | apply State.when_inv | apply State.setDyn_inv
      | apply State.emit_inv | intro _)

theorem execRstdaa_inv (tb : Bool) (s : State) (hs1 : s.Inv n v) :
    Res.Keeps (execRstdaa tb s) n v := by
  unfold execRstdaa
  with_reducible repeat' (first | apply Res.Keeps.next | assumption | apply State.when_inv | apply State.setDyn_inv | intro _)

theorem State.i3cRead_inv (s : State) (tb : Bool) (b : List Byte) (hs0 : s.Inv n v) :
    (State.i3cRead s tb b).Inv n v := by
  unfold State.i3cRead
  with_reducible repeat' (first | assumption | apply State.when_inv | apply State.emit_inv | intro _)

theorem execGetpid_inv (tb : Bool) (s : State) (hs1 : s.Inv n v) :
    Res.Keeps (execGetpid tb s) n v := by
  unfold execGetpid
  with_reducible repeat' (first | apply Res.Keeps.next | assumption | apply State.i3cRead_inv)

theorem execGetbcr_inv (tb : Bool) (s : State) (hs1 : s.Inv n v) :
    Res.Keeps (execGetbcr tb s) n v := by
  unfold execGetbcr
  with_reducible repeat' (first | apply Res.Keeps.next | assumption | apply State.i3cRead_inv)

theorem execGetdcr_inv (tb : Bool) (s : State) (hs1 : s.Inv n v) :
    Res.Keeps (execGetdcr tb s) n v := by
  unfold execGetdcr
  with_reducible repeat' (first | apply Res.Keeps.next | assumption | apply State.i3cRead_inv)

theorem execGetmrl_inv (tb : Bool) (s : State) (hs1 : s.Inv n v) :
    Res.Keeps (execGetmrl tb s) n v := by
  unfold execGetmrl
  with_reducible repeat' (first | apply Res.Keeps.next | assumption | apply State.i3cRead_inv)

theorem execGetmwl_inv (tb : Bool) (s : State) (hs1 : s.Inv n v) :
    Res.Keeps (execGetmwl tb s) n v := by
  unfold execGetmwl
  with_reducible repeat' (first | apply Res.Keeps.next | assumption | apply State.i3cRead_inv)

theorem State.setIbi_inv (s : State) (tb : Bool) (events : Nat) (on : Bool) (hs0 : s.Inv n v) :
    (State.setIbi s tb events on).Inv n v := by
  unfold State.setIbi
  with_reducible repeat' (first | assumption | apply State.when_inv | simp only [Inv.mk_eq] | apply InvOf.state)

theorem execEnec_inv (tb : Bool) (events : Nat) (s : State) (hs2 : s.Inv n v) :
    Res.Keeps (execEnec tb events s) n v := by
  unfold execEnec
  with_reducible repeat' (first | apply Res.Keeps.next | assumption | apply State.setIbi_inv)

theorem execDisec_inv (tb : Bool) (events : Nat) (s : State) (hs2 : s.Inv n v) :
    Res.Keeps (execDisec tb events s) n v := by
  unfold execDisec
  with_reducible repeat' (first | apply Res.Keeps.next | assumption | apply State.setIbi_inv)

theorem State.mbReq_inv (s : State) (k : State → State) (hs0 : s.Inv n v) (hs1 : ∀ y0, y0.Inv n v → (k y0).Inv n v) :
    (State.mbReq s k).Inv n v := by
  unfold State.mbReq
  with_reducible repeat' (first | assumption | apply hs1 | apply State.when_inv | apply State.wake_inv | intro _)

theorem setEndpointIdStep_inv (dest : Nat) (src : Nat) (eid : Nat) (s : State) (hs3 : s.Inv n v) :
    (setEndpointIdStep dest src eid s).Inv n v := by
  unfold setEndpointIdStep
  with_reducible
    repeat' (first
      | assumption | apply State.when_inv | apply State.wake_inv | apply State.fset_inv
      | apply State.mgPut_inv | intro _ | simp only [Inv.mk_eq] | apply InvOf.mix | split)

theorem execSetEndpointId_inv (dest : Nat) (src : Nat) (eid : Nat) (s : State) (hs3 : s.Inv n v) :
    Res.Keeps (execSetEndpointId dest src eid s) n v := by
  unfold execSetEndpointId
  with_reducible repeat' (first | apply Res.Keeps.next | assumption | apply setEndpointIdStep_inv)

theorem mctpControlStep_inv (dest : Nat) (code : Nat) (s : State) (hs2 : s.Inv n v) :
    (mctpControlStep dest code s).Inv n v := by
  unfold mctpControlStep
  with_reducible
    repeat' (first
      | assumption | apply State.when_inv | apply State.wake_inv | apply State.mgPut_inv
      | apply State.drew_inv | intro _ | split)

theorem execMctpControl_inv (dest : Nat) (code : Nat) (s : State) (hs2 : s.Inv n v) :
    Res.Keeps (execMctpControl dest code s) n v := by
  unfold execMctpControl
  with_reducible repeat' (first | apply Res.Keeps.next | assumption | apply mctpControlStep_inv)

theorem messageReadStep_inv (s : State) (hs0 : s.Inv n v) :
    (messageReadStep s).Inv n v := by
  unfold messageReadStep
  with_reducible
    repeat' (first
      | assumption | apply State.emit_inv | apply State.drew_inv | apply State.when_inv
      | intro _ | simp only [Inv.mk_eq] | apply InvOf.mix | split)

theorem execMessageRead_inv (s : State) (hs0 : s.Inv n v) :
    Res.Keeps (execMessageRead s) n v := by
  unfold execMessageRead
  with_reducible repeat' (first | apply Res.Keeps.next | assumption | apply messageReadStep_inv)

theorem State.pldm_inv (s : State) (code : Nat) (b : List Byte) (hs0 : s.Inv n v) :
    (State.pldm s code b).Inv n v := by
  unfold State.pldm
  with_reducible repeat' (first | assumption | apply State.mgPut_inv)

theorem getSensorReadingStep_inv (id : Nat) (iout : Nat) (s : State) (hs2 : s.Inv n v) :
    (getSensorReadingStep id iout s).Inv n v := by
  unfold getSensorReadingStep
  with_reducible
    repeat' (first
      | assumption | apply State.mbReq_inv | apply State.fset_inv | apply State.pldm_inv
      | intro _ | (dsimp only) | split)

theorem execGetSensorReading_inv (id : Nat) (iout : Nat) (s : State) (hs2 : s.Inv n v) :
    Res.Keeps (execGetSensorReading id iout s) n v := by
  unfold execGetSensorReading
  with_reducible repeat' (first | apply Res.Keeps.next | assumption | apply getSensorReadingStep_inv)

theorem setSensorThresholdsStep_inv (id : Nat) (lo : Nat) (hi : Nat) (s : State) (hs3 : s.Inv n v) :
    (setSensorThresholdsStep id lo hi s).Inv n v := by
  unfold setSensorThresholdsStep
  with_reducible
    repeat' (first
      | assumption | apply State.mbReq_inv | apply State.senseAll_inv | apply State.pldm_inv
      | intro _ | simp only [Inv.mk_eq] | apply InvOf.mix | split)

theorem execSetSensorThresholds_inv (id : Nat) (lo : Nat) (hi : Nat) (s : State) (hs3 : s.Inv n v) :
    Res.Keeps (execSetSensorThresholds id lo hi s) n v := by
  unfold execSetSensorThresholds
  with_reducible repeat' (first | apply Res.Keeps.next | assumption | apply setSensorThresholdsStep_inv)

theorem setEventReceiverStep_inv (en : Bool) (eid : Nat) (s : State) (hs2 : s.Inv n v) :
    (setEventReceiverStep en eid s).Inv n v := by
  unfold setEventReceiverStep
  with_reducible
    repeat' (first
      | assumption | apply State.mbReq_inv | apply State.pldm_inv | intro _
      | simp only [Inv.mk_eq] | apply InvOf.mix)

theorem execSetEventReceiver_inv (en : Bool) (eid : Nat) (s : State) (hs2 : s.Inv n v) :
    Res.Keeps (execSetEventReceiver en eid s) n v := by
  unfold execSetEventReceiver
  with_reducible repeat' (first | apply Res.Keeps.next | assumption | apply setEventReceiverStep_inv)

theorem State.effect_inv (s : State) (inRange : Bool) (ready : Bool) (echo : List Byte) (k : State → State) (hs0 : s.Inv n v)
    (hs4 : ∀ y0, y0.Inv n v → (k y0).Inv n v) :
    (State.effect s inRange ready echo k).Inv n v := by
  unfold State.effect
  with_reducible repeat' (first | assumption | apply hs4 | apply State.mbReq_inv | apply State.pldm_inv | intro _ | split)

theorem State.heartbeat_inv (s : State) (hs0 : s.Inv n v) :
    (State.heartbeat s).Inv n v := by
  unfold State.heartbeat
  with_reducible
    repeat' (first
      | assumption | apply State.fset_inv | apply State.recap_inv | simp only [Inv.mk_eq]
      | apply InvOf.mix | split)

theorem heartbeatStep_inv (src : Nat) (v0 : Nat) (s : State) (hs2 : s.Inv n v) :
    (heartbeatStep src v0 s).Inv n v := by
  unfold heartbeatStep
  with_reducible repeat' (first | assumption | apply State.effect_inv | apply State.heartbeat_inv | intro _ | split)

theorem execHeartbeat_inv (src : Nat) (v0 : Nat) (s : State) (hs2 : s.Inv n v) :
    Res.Keeps (execHeartbeat src v0 s) n v := by
  unfold execHeartbeat
  with_reducible repeat' (first | apply Res.Keeps.next | assumption | apply heartbeatStep_inv)

theorem execRcap_inv (v0 : Nat) (s : State) (hs1 : s.Inv n v) :
    Res.Keeps (execRcap v0 s) n v := by
  unfold execRcap
  with_reducible
    repeat' (first
      | apply Res.Keeps.next | assumption | apply State.effect_inv | apply State.recap_inv
      | apply State.fset_inv | intro _)

theorem ownerStep_inv (v0 : Nat) (s : State) (hs1 : s.Inv n v) :
    (ownerStep v0 s).Inv n v := by
  unfold ownerStep
  with_reducible
    repeat' (first
      | assumption | apply State.mbReq_inv | apply State.pldm_inv | apply State.putRW_inv
      | apply State.fset_inv | intro _ | split)

theorem execOwner_inv (v0 : Nat) (s : State) (hs1 : s.Inv n v) :
    Res.Keeps (execOwner v0 s) n v := by
  unfold execOwner
  with_reducible repeat' (first | apply Res.Keeps.next | assumption | apply ownerStep_inv)

theorem State.tripRails_inv (s : State) (hs0 : s.Inv n v) :
    (State.tripRails s).Inv n v := by
  unfold State.tripRails
  with_reducible repeat' (first | assumption | apply Inv.foldl | apply State.note_inv | intro _ | split)

theorem warmResetRow_inv (v0 : Nat) (cool : Bool) (s : State) (hs2 : s.Inv n v) :
    (warmResetRow v0 cool s).Inv n v := by
  unfold warmResetRow
  with_reducible
    repeat' (first
      | assumption | apply State.effect_inv | apply State.warmReset_inv
      | apply State.tripRails_inv | intro _)

theorem execWarmReset_inv (v0 : Nat) (cool : Bool) (s : State) (hs2 : s.Inv n v) :
    Res.Keeps (execWarmReset v0 cool s) n v := by
  unfold execWarmReset
  with_reducible repeat' (first | apply Res.Keeps.next | assumption | apply warmResetRow_inv)

theorem execPs4Exit_inv (v0 : Nat) (s : State) (hs1 : s.Inv n v) :
    Res.Keeps (execPs4Exit v0 s) n v := by
  unfold execPs4Exit
  with_reducible repeat' (first | apply Res.Keeps.next | assumption | apply State.effect_inv | apply State.leavePs4_inv)

theorem execFwTact_inv (t : Nat) (s : State) (hs1 : s.Inv n v) :
    Res.Keeps (execFwTact t s) n v := by
  unfold execFwTact
  with_reducible
    repeat' (first
      | apply Res.Keeps.next | assumption | apply State.effect_inv | simp only [Inv.mk_eq]
      | apply InvOf.state)

theorem State.holdPort_inv (s : State) (p : Nat) (hs0 : s.Inv n v) :
    (State.holdPort s p).Inv n v := by
  unfold State.holdPort
  with_reducible repeat' (first | assumption | apply State.portService_inv | apply State.viewCheck_inv | apply State.fput_inv)

theorem portMgmtStep_inv (p : Nat) (v0 : Nat) (s : State) (hs2 : s.Inv n v) :
    (portMgmtStep p v0 s).Inv n v := by
  unfold portMgmtStep
  with_reducible repeat' (first | assumption | apply State.effect_inv | apply State.holdPort_inv | apply State.fset_inv | intro _)

theorem execPortMgmt_inv (p : Nat) (v0 : Nat) (s : State) (hs2 : s.Inv n v) :
    Res.Keeps (execPortMgmt p v0 s) n v := by
  unfold execPortMgmt
  with_reducible repeat' (first | apply Res.Keeps.need | assumption | apply portMgmtStep_inv)

theorem requestFirmwareDataStep_inv (off : Nat) (b : List Byte) (last : Bool) (s : State) (hs3 : s.Inv n v) :
    (requestFirmwareDataStep off b last s).Inv n v := by
  unfold requestFirmwareDataStep
  with_reducible
    repeat' (first
      | assumption | apply State.mbReq_inv | apply State.pldm_inv
      | apply State.fwuReject_inv | apply State.fwuStage_inv | intro _ | simp only [Inv.mk_eq] | apply InvOf.mix | split)

theorem execRequestFirmwareData_inv (off : Nat) (b : List Byte) (last : Bool) (s : State) (hs3 : s.Inv n v) :
    Res.Keeps (execRequestFirmwareData off b last s) n v := by
  unfold execRequestFirmwareData
  with_reducible repeat' (first | apply Res.Keeps.next | assumption | apply requestFirmwareDataStep_inv)

theorem verifyCompleteStep_inv (s : State) (hs0 : s.Inv n v) :
    (verifyCompleteStep s).Inv n v := by
  unfold verifyCompleteStep
  with_reducible repeat' (first | assumption | apply State.mbReq_inv | apply State.pldm_inv | intro _ | split)

theorem execVerifyComplete_inv (s : State) (hs0 : s.Inv n v) :
    Res.Keeps (execVerifyComplete s) n v := by
  unfold execVerifyComplete
  with_reducible repeat' (first | apply Res.Keeps.next | assumption | apply verifyCompleteStep_inv)

theorem activateFirmwareStep_inv (s : State) (hs0 : s.Inv n v) :
    (activateFirmwareStep s).Inv n v := by
  unfold activateFirmwareStep
  with_reducible
    repeat' (first
      | assumption | apply State.mbReq_inv | apply State.fwuActivate_inv
      | apply State.pldm_inv | intro _ | (dsimp only) | split)

theorem execActivateFirmware_inv (s : State) (hs0 : s.Inv n v) :
    Res.Keeps (execActivateFirmware s) n v := by
  unfold execActivateFirmware
  with_reducible repeat' (first | apply Res.Keeps.next | assumption | apply activateFirmwareStep_inv)

theorem pathDisagreeStep_inv (p : Nat) (s : State) (hs1 : s.Inv n v) :
    (pathDisagreeStep p s).Inv n v := by
  unfold pathDisagreeStep
  with_reducible repeat' (first | assumption | apply State.when_inv | apply State.log_inv | apply State.fset_inv | intro _)

theorem execPathDisagree_inv (p : Nat) (s : State) (hs1 : s.Inv n v) :
    Res.Keeps (execPathDisagree p s) n v := by
  unfold execPathDisagree
  with_reducible repeat' (first | apply Res.Keeps.need | assumption | apply pathDisagreeStep_inv)

/-! Machine/Spdm.lean. -/

theorem State.spdmError_inv (s : State) (code : Nat) (data : Nat) (ext : List Byte) (hs0 : s.Inv n v) :
    (State.spdmError s code data ext).Inv n v := by
  unfold State.spdmError
  with_reducible repeat' (first | assumption | apply State.mgPut_inv)

theorem State.spdmAnswer_inv (s : State) (b : List Byte) (hs0 : s.Inv n v) :
    (State.spdmAnswer s b).Inv n v := by
  unfold State.spdmAnswer
  with_reducible
    repeat' (first
      | assumption | apply State.mgPut_inv | apply State.spdmError_inv
      | simp only [Inv.mk_eq] | apply InvOf.mix | split)

theorem State.spdmReq_inv (s : State) (b : List Byte) (code : Nat) (inOrder : Bool) (k : State → State) (hs0 : s.Inv n v)
    (hs4 : ∀ y0, y0.Inv n v → (k y0).Inv n v) :
    (State.spdmReq s b code inOrder k).Inv n v := by
  unfold State.spdmReq
  with_reducible
    repeat' (first
      | assumption | apply hs4 | apply State.when_inv | apply State.mbReq_inv
      | apply State.spdmError_inv | intro _ | simp only [Inv.mk_eq] | apply InvOf.mix | split)

theorem State.spdmSign_inv (s : State) (context : String) (before : List Byte) (b : List Byte) (k : State → State)
    (hs0 : s.Inv n v) (hs4 : ∀ y0, y0.Inv n v → (k y0).Inv n v) :
    (State.spdmSign s context before b k).Inv n v := by
  unfold State.spdmSign
  with_reducible
    repeat' (first
      | assumption | apply hs4 | apply State.sign_inv | apply State.spdmError_inv
      | apply State.spdmAnswer_inv | refine PairKeeps.get (by assumption) ?_ | split)

theorem execGetVersion_inv (b : List Byte) (s : State) (hs1 : s.Inv n v) :
    Res.Keeps (execGetVersion b s) n v := by
  unfold execGetVersion
  with_reducible
    repeat' (first
      | apply Res.Keeps.next | assumption | apply State.spdmReq_inv
      | apply State.spdmAnswer_inv | intro _ | simp only [Inv.mk_eq] | apply InvOf.mix)

theorem execGetCapabilities_inv (b : List Byte) (s : State) (hs1 : s.Inv n v) :
    Res.Keeps (execGetCapabilities b s) n v := by
  unfold execGetCapabilities
  with_reducible
    repeat' (first
      | apply Res.Keeps.next | assumption | apply State.spdmReq_inv
      | apply State.spdmAnswer_inv | intro _ | simp only [Inv.mk_eq] | apply InvOf.mix)

theorem execNegotiateAlgorithms_inv (b : List Byte) (s : State) (hs1 : s.Inv n v) :
    Res.Keeps (execNegotiateAlgorithms b s) n v := by
  unfold execNegotiateAlgorithms
  with_reducible
    repeat' (first
      | apply Res.Keeps.next | assumption | apply State.spdmReq_inv
      | apply State.spdmAnswer_inv | intro _ | simp only [Inv.mk_eq] | apply InvOf.mix)

theorem execGetDigests_inv (b : List Byte) (s : State) (hs1 : s.Inv n v) :
    Res.Keeps (execGetDigests b s) n v := by
  unfold execGetDigests
  with_reducible
    repeat' (first
      | apply Res.Keeps.next | assumption | apply State.spdmReq_inv
      | apply State.spdmAnswer_inv | intro _ | simp only [Inv.mk_eq] | apply InvOf.mix)

theorem execGetCertificate_inv (b : List Byte) (s : State) (hs1 : s.Inv n v) :
    Res.Keeps (execGetCertificate b s) n v := by
  unfold execGetCertificate
  with_reducible
    repeat' (first
      | apply Res.Keeps.next | assumption | apply State.spdmReq_inv
      | apply State.spdmError_inv | apply State.spdmAnswer_inv | intro _ | simp only [Inv.mk_eq] | apply InvOf.mix | split)

theorem execChallenge_inv (b : List Byte) (s : State) (hs1 : s.Inv n v) :
    Res.Keeps (execChallenge b s) n v := by
  unfold execChallenge
  with_reducible
    repeat' (first
      | apply Res.Keeps.next | assumption | apply State.spdmReq_inv
      | apply State.spdmError_inv | apply State.spdmSign_inv | apply State.drew_inv | intro _ | simp only [Inv.mk_eq]
      | apply InvOf.mix | split)

theorem execGetMeasurements_inv (b : List Byte) (s : State) (hs1 : s.Inv n v) :
    Res.Keeps (execGetMeasurements b s) n v := by
  unfold execGetMeasurements
  with_reducible
    repeat' (first
      | apply Res.Keeps.next | assumption | apply State.spdmReq_inv
      | apply State.spdmError_inv | apply State.drew_inv | apply State.spdmSign_inv | apply State.spdmAnswer_inv | intro _
      | simp only [Inv.mk_eq] | apply InvOf.mix | split)

theorem chunkGetStep_inv (b : List Byte) (s : State) (hs1 : s.Inv n v) :
    (chunkGetStep b s).Inv n v := by
  unfold chunkGetStep
  with_reducible
    repeat' (first
      | assumption | apply State.when_inv | apply State.mbReq_inv
      | apply State.spdmError_inv | apply State.mgPut_inv | intro _ | simp only [Inv.mk_eq] | apply InvOf.mix | split)

theorem execChunkGet_inv (b : List Byte) (s : State) (hs1 : s.Inv n v) :
    Res.Keeps (execChunkGet b s) n v := by
  unfold execChunkGet
  with_reducible repeat' (first | apply Res.Keeps.next | assumption | apply chunkGetStep_inv)

/-! Machine/Observation.lean. -/

theorem State.markArmed_inv (s : State) (slot : Nat) (ns : Bool) (hs0 : s.Inv n v) :
    (State.markArmed s slot ns).Inv n v := by
  unfold State.markArmed
  with_reducible repeat' (first | assumption | simp only [Inv.mk_eq] | apply InvOf.mix)

theorem traceEff_inv (w : Who) (k : Nat) (v0 : Nat) (s : State) (hs3 : s.Inv n v) :
    (traceEff w k v0 s).Inv n v := by
  unfold traceEff
  with_reducible
    repeat' (first
      | assumption | apply State.putRW_inv | apply State.wake_inv
      | apply State.markArmed_inv | apply State.fset_inv | (dsimp only) | split)

theorem traceSlotWriteStep_inv (w : Who) (k : Nat) (j : Nat) (v0 : Nat) (s : State) (hs4 : s.Inv n v) :
    (traceSlotWriteStep w k j v0 s).Inv n v := by
  unfold traceSlotWriteStep
  with_reducible
    repeat' (first
      | assumption | apply State.when_inv | apply State.regWriteOr_inv
      | apply State.logC_inv | apply traceEff_inv | intro _ | split)

theorem execTraceSlotWrite_inv (w : Who) (k : Nat) (j : Nat) (v0 : Nat) (s : State) (hs4 : s.Inv n v) :
    Res.Keeps (execTraceSlotWrite w k j v0 s) n v := by
  unfold execTraceSlotWrite
  with_reducible repeat' (first | apply Res.Keeps.need | assumption | apply traceSlotWriteStep_inv)

theorem dumpEff_inv (w : Who) (k : Nat) (v0 : Nat) (s : State) (hs3 : s.Inv n v) :
    (dumpEff w k v0 s).Inv n v := by
  unfold dumpEff
  with_reducible
    repeat' (first
      | assumption | apply State.putRW_inv | apply State.wake_inv
      | apply State.markArmed_inv | apply State.fset_inv | simp only [Inv.mk_eq] | apply InvOf.mix | split)

theorem dumpSlotWriteStep_inv (w : Who) (k : Nat) (j : Nat) (v0 : Nat) (s : State) (hs4 : s.Inv n v) :
    (dumpSlotWriteStep w k j v0 s).Inv n v := by
  unfold dumpSlotWriteStep
  with_reducible
    repeat' (first
      | assumption | apply State.when_inv | apply State.regWriteOr_inv
      | apply State.logC_inv | apply dumpEff_inv | intro _ | split)

theorem execDumpSlotWrite_inv (w : Who) (k : Nat) (j : Nat) (v0 : Nat) (s : State) (hs4 : s.Inv n v) :
    Res.Keeps (execDumpSlotWrite w k j v0 s) n v := by
  unfold execDumpSlotWrite
  with_reducible repeat' (first | apply Res.Keeps.need | assumption | apply dumpSlotWriteStep_inv)

theorem State.sendFreeze_inv (s : State) (p : Nat) (id : Nat) (hs0 : s.Inv n v) :
    (State.sendFreeze s p id).Inv n v := by
  unfold State.sendFreeze
  with_reducible repeat' (first | assumption | apply State.freezeSeq_inv)

theorem State.freezeStart_inv (s : State) (id : Nat) (ns : Bool) (hs0 : s.Inv n v) :
    (State.freezeStart s id ns).Inv n v := by
  unfold State.freezeStart
  with_reducible
    repeat' (first
      | assumption | apply Inv.foldl | apply State.wake_inv | apply State.fset_inv
      | apply State.sendFreeze_inv | intro _ | simp only [Inv.mk_eq] | apply InvOf.mix)

theorem State.freezeEnd_inv (s : State) (hs0 : s.Inv n v) :
    (State.freezeEnd s).Inv n v := by
  unfold State.freezeEnd
  with_reducible
    repeat' (first
      | assumption | apply Inv.foldl | apply State.fset_inv | apply State.inject_inv
      | apply State.routeIn_inv | apply State.resetOnce_inv | intro _ | simp only [Inv.mk_eq] | apply InvOf.mix | split)

theorem freezeEff_inv (w : Who) (v0 : Nat) (s : State) (hs2 : s.Inv n v) :
    (freezeEff w v0 s).Inv n v := by
  unfold freezeEff
  with_reducible
    repeat' (first
      | assumption | apply State.putRW_inv | apply State.wake_inv
      | apply State.freezeEnd_inv | apply State.freezeStart_inv | split)

theorem freezeWrite_inv (w : Who) (v0 : Nat) (s : State) (hs2 : s.Inv n v) :
    (freezeWrite w v0 s).Inv n v := by
  unfold freezeWrite
  with_reducible
    repeat' (first
      | assumption | apply State.when_inv | apply State.regWriteOr_inv
      | apply State.logC_inv | apply freezeEff_inv | intro _ | split)

theorem execFreezeGo_inv (w : Who) (v0 : Nat) (s : State) (hs2 : s.Inv n v) :
    Res.Keeps (execFreezeGo w v0 s) n v := by
  unfold execFreezeGo
  with_reducible repeat' (first | apply Res.Keeps.next | assumption | apply State.when_inv | apply freezeWrite_inv)

theorem execFreezeResume_inv (w : Who) (v0 : Nat) (s : State) (hs2 : s.Inv n v) :
    Res.Keeps (execFreezeResume w v0 s) n v := by
  unfold execFreezeResume
  with_reducible repeat' (first | apply Res.Keeps.next | assumption | apply State.when_inv | apply freezeWrite_inv)

theorem State.marker_inv (s : State) (p : Nat) (id : Nat) (hs0 : s.Inv n v) :
    (State.marker s p id).Inv n v := by
  unfold State.marker
  with_reducible repeat' (first | assumption | apply State.fset_inv | simp only [Inv.mk_eq] | apply InvOf.mix)

theorem State.freezeCame_inv (s : State) (p : Nat) (id : Nat) (hs0 : s.Inv n v) :
    (State.freezeCame s p id).Inv n v := by
  unfold State.freezeCame
  with_reducible
    repeat' (first
      | assumption | apply State.marker_inv | apply State.freezeStart_inv
      | apply State.sendFreeze_inv | split)

theorem freezeStep_inv (p : Nat) (rx : List (List Nat)) (s : State) (hs2 : s.Inv n v) :
    (freezeStep p rx s).Inv n v := by
  unfold freezeStep
  with_reducible
    repeat' (first
      | assumption | apply State.when_inv | apply State.wide_inv | apply State.setLp_inv
      | apply State.freezeCame_inv | intro _ | (dsimp only) | split)

theorem execFreeze_inv (p : Nat) (rx : List (List Nat)) (s : State) (hs2 : s.Inv n v) :
    Res.Keeps (execFreeze p rx s) n v := by
  unfold execFreeze
  with_reducible repeat' (first | apply Res.Keeps.need | assumption | apply freezeStep_inv)

theorem State.freezeDone_inv (s : State) (smear : Bool) (hs0 : s.Inv n v) :
    (State.freezeDone s smear).Inv n v := by
  unfold State.freezeDone
  with_reducible repeat' (first | assumption | apply State.fset_inv | apply State.trigger_inv | (dsimp only) | split)

theorem execFrozen_inv (s : State) (hs0 : s.Inv n v) :
    Res.Keeps (execFrozen s) n v := by
  unfold execFrozen
  with_reducible repeat' (first | apply Res.Keeps.next | assumption | apply State.when_inv | apply State.freezeDone_inv | intro _)

theorem execFreezeTimeout_inv (s : State) (hs0 : s.Inv n v) :
    Res.Keeps (execFreezeTimeout s) n v := by
  unfold execFreezeTimeout
  with_reducible
    repeat' (first
      | apply Res.Keeps.next | assumption | apply State.when_inv
      | apply State.freezeDone_inv | apply State.logC_inv | apply State.fset_inv | intro _)

theorem State.disarm_inv (s : State) (en : Fld) (ctx : Fld) (base : Nat) (k : Nat) (hs0 : s.Inv n v) :
    (State.disarm s en ctx base k).Inv n v := by
  unfold State.disarm
  with_reducible repeat' (first | assumption | apply State.markArmed_inv | apply State.fset_inv | split)

theorem State.levelFell_inv (s : State) (hs0 : s.Inv n v) :
    (State.levelFell s).Inv n v := by
  unfold State.levelFell
  with_reducible
    repeat' (first
      | assumption | apply Inv.foldl | apply State.disarm_inv | apply State.freezeEnd_inv
      | intro _ | (dsimp only) | split)

theorem obsPortReadStep_inv (w : Who) (p : Nat) (s : State) (hs2 : s.Inv n v) :
    (obsPortReadStep w p s).Inv n v := by
  unfold obsPortReadStep
  with_reducible
    repeat' (first
      | assumption | apply Inv.foldl | apply State.when_inv | apply State.emit_inv
      | apply State.fset_inv | intro _ | split)

theorem execObsPortRead_inv (w : Who) (p : Nat) (s : State) (hs2 : s.Inv n v) :
    Res.Keeps (execObsPortRead w p s) n v := by
  unfold execObsPortRead
  with_reducible repeat' (first | apply Res.Keeps.need | assumption | apply obsPortReadStep_inv)

theorem execObsHubRead_inv (w : Who) (s : State) (hs1 : s.Inv n v) :
    Res.Keeps (execObsHubRead w s) n v := by
  unfold execObsHubRead
  with_reducible
    repeat' (first
      | apply Res.Keeps.next | assumption | apply Inv.foldl | apply State.when_inv
      | apply State.emit_inv | apply State.fset_inv | intro _ | split)

/-! Machine/Security.lean. -/

theorem State.secBusy_inv (s : State) (r : SecRun) (b : Nat) (hs0 : s.Inv n v) :
    (State.secBusy s r b).Inv n v := by
  unfold State.secBusy
  with_reducible repeat' (first | assumption | apply State.fset_inv | split)

theorem State.secReject_inv (s : State) (code : Nat) (hs0 : s.Inv n v) :
    (State.secReject s code).Inv n v := by
  unfold State.secReject
  with_reducible repeat' (first | assumption | apply State.logC_inv | apply State.fset_inv)

theorem State.secStart_inv (s : State) (r : SecRun) (hs0 : s.Inv n v) :
    (State.secStart s r).Inv n v := by
  unfold State.secStart
  with_reducible
    repeat' (first
      | assumption | apply Inv.foldl | apply State.secBusy_inv | apply State.fset_inv
      | apply State.holdCore_inv | apply State.wake_inv | simp only [Inv.mk_eq] | apply InvOf.mix | split)

theorem State.secGo_inv (s : State) (v0 : Nat) (hs0 : s.Inv n v) :
    (State.secGo s v0).Inv n v := by
  unfold State.secGo
  with_reducible
    repeat' (first
      | assumption | apply State.newNonce_inv | apply State.secStart_inv
      | apply State.secReject_inv | (dsimp only) | split)

theorem secCmdWrite_inv (w : Who) (v0 : Nat) (s : State) (hs2 : s.Inv n v) :
    (secCmdWrite w v0 s).Inv n v := by
  unfold secCmdWrite
  with_reducible
    repeat' (first
      | assumption | apply State.when_inv | apply State.secReject_inv
      | apply State.regWriteOr_inv | apply State.logC_inv | apply State.fset_inv | apply State.putRW_inv | apply State.secGo_inv
      | intro _ | split)

theorem secOp_inv (op : Nat) (w : Who) (v0 : Nat) (s : State) (hs3 : s.Inv n v) :
    (secOp op w v0 s).Inv n v := by
  unfold secOp
  with_reducible repeat' (first | assumption | apply State.when_inv | apply secCmdWrite_inv)

theorem secMove_inv (kind : Nat) (w : Who) (v0 : Nat) (s : State) (hs3 : s.Inv n v) :
    (secMove kind w v0 s).Inv n v := by
  unfold secMove
  with_reducible repeat' (first | assumption | apply State.when_inv | apply secOp_inv)

theorem execPartOpen_inv (w : Who) (v0 : Nat) (s : State) (hs2 : s.Inv n v) :
    Res.Keeps (execPartOpen w v0 s) n v := by
  unfold execPartOpen
  with_reducible repeat' (first | apply Res.Keeps.next | assumption | apply secOp_inv)

theorem execPartClose_inv (w : Who) (v0 : Nat) (s : State) (hs2 : s.Inv n v) :
    Res.Keeps (execPartClose w v0 s) n v := by
  unfold execPartClose
  with_reducible repeat' (first | apply Res.Keeps.next | assumption | apply secOp_inv)

theorem execMoveCluster_inv (w : Who) (v0 : Nat) (s : State) (hs2 : s.Inv n v) :
    Res.Keeps (execMoveCluster w v0 s) n v := by
  unfold execMoveCluster
  with_reducible repeat' (first | apply Res.Keeps.next | assumption | apply secMove_inv)

theorem execMoveContext_inv (w : Who) (v0 : Nat) (s : State) (hs2 : s.Inv n v) :
    Res.Keeps (execMoveContext w v0 s) n v := by
  unfold execMoveContext
  with_reducible repeat' (first | apply Res.Keeps.next | assumption | apply secMove_inv)

theorem execMoveEndpoint_inv (w : Who) (v0 : Nat) (s : State) (hs2 : s.Inv n v) :
    Res.Keeps (execMoveEndpoint w v0 s) n v := by
  unfold execMoveEndpoint
  with_reducible repeat' (first | apply Res.Keeps.next | assumption | apply secMove_inv)

theorem execMoveKeyslot_inv (w : Who) (v0 : Nat) (s : State) (hs2 : s.Inv n v) :
    Res.Keeps (execMoveKeyslot w v0 s) n v := by
  unfold execMoveKeyslot
  with_reducible repeat' (first | apply Res.Keeps.next | assumption | apply secMove_inv)

theorem execScrub_inv (w : Who) (v0 : Nat) (s : State) (hs2 : s.Inv n v) :
    Res.Keeps (execScrub w v0 s) n v := by
  unfold execScrub
  with_reducible repeat' (first | apply Res.Keeps.next | assumption | apply secOp_inv)

theorem execSetDl_inv (w : Who) (v0 : Nat) (s : State) (hs2 : s.Inv n v) :
    Res.Keeps (execSetDl w v0 s) n v := by
  unfold execSetDl
  with_reducible repeat' (first | apply Res.Keeps.next | assumption | apply secOp_inv)

theorem execUnlock_inv (w : Who) (v0 : Nat) (s : State) (hs2 : s.Inv n v) :
    Res.Keeps (execUnlock w v0 s) n v := by
  unfold execUnlock
  with_reducible repeat' (first | apply Res.Keeps.next | assumption | apply secOp_inv)

theorem execOwnerLock_inv (w : Who) (v0 : Nat) (s : State) (hs2 : s.Inv n v) :
    Res.Keeps (execOwnerLock w v0 s) n v := by
  unfold execOwnerLock
  with_reducible repeat' (first | apply Res.Keeps.next | assumption | apply secOp_inv)

theorem execOwnerBind_inv (w : Who) (v0 : Nat) (s : State) (hs2 : s.Inv n v) :
    Res.Keeps (execOwnerBind w v0 s) n v := by
  unfold execOwnerBind
  with_reducible repeat' (first | apply Res.Keeps.next | assumption | apply secOp_inv)

theorem execLifecycle_inv (w : Who) (v0 : Nat) (s : State) (hs2 : s.Inv n v) :
    Res.Keeps (execLifecycle w v0 s) n v := by
  unfold execLifecycle
  with_reducible repeat' (first | apply Res.Keeps.next | assumption | apply secOp_inv)

theorem State.zeroCluster_inv (s : State) (cl : Nat) (hs0 : s.Inv n v) :
    (State.zeroCluster s cl).Inv n v := by
  unfold State.zeroCluster
  with_reducible repeat' (first | assumption | apply Inv.foldl | apply State.csZero_inv | split)

theorem State.fillOutside_inv (s : State) (lo : Nat) (hi : Nat) (slot : Nat) (hs0 : s.Inv n v) :
    (State.fillOutside s lo hi slot).Inv n v := by
  unfold State.fillOutside
  with_reducible repeat' (first | assumption | apply State.fillFrames_inv | split)

theorem State.scrub_inv (s : State) (p : Nat) (hs0 : s.Inv n v) :
    (State.scrub s p).Inv n v := by
  unfold State.scrub
  with_reducible
    repeat' (first
      | assumption | apply Inv.foldl | apply Inv.foldr | apply State.zeroCluster_inv
      | apply State.loadKey_inv | apply State.fillOutside_inv | intro _ | (dsimp only) | split)

theorem State.closeEntry_inv (s : State) (i : Nat) (hs0 : s.Inv n v) :
    (State.closeEntry s i).Inv n v := by
  unfold State.closeEntry
  with_reducible repeat' (first | assumption | apply State.fset_inv | simp only [Inv.mk_eq] | apply InvOf.mix)

theorem State.closePart_inv (s : State) (p : Nat) (hs0 : s.Inv n v) :
    (State.closePart s p).Inv n v := by
  unfold State.closePart
  with_reducible
    repeat' (first
      | assumption | apply Inv.foldl | apply State.closeEntry_inv
      | apply State.levelFell_inv | apply State.fset_inv | intro _)

theorem State.moveMask_inv (s : State) (r : SecRun) (hs0 : s.Inv n v) :
    (State.moveMask s r).Inv n v := by
  unfold State.moveMask
  with_reducible repeat' (first | assumption | apply State.fset_inv | split)

theorem State.moveWipe_inv (s : State) (r : SecRun) (hs0 : s.Inv n v) :
    (State.moveWipe s r).Inv n v := by
  unfold State.moveWipe
  with_reducible
    repeat' (first
      | assumption | apply Inv.foldl | apply State.freeCore_inv
      | apply State.zeroCluster_inv | apply State.releaseStream_inv | apply State.loadKey_inv | simp only [Inv.mk_eq]
      | apply InvOf.mix | split)

theorem State.setDl_inv (s : State) (r : SecRun) (hs0 : s.Inv n v) :
    (State.setDl s r).Inv n v := by
  unfold State.setDl
  with_reducible repeat' (first | assumption | apply State.fset_inv | apply State.levelFell_inv | (dsimp only) | split)

theorem State.secEffect_inv (s : State) (r : SecRun) (hs0 : s.Inv n v) :
    (State.secEffect s r).Inv n v := by
  unfold State.secEffect
  with_reducible
    repeat' (first
      | assumption | apply State.scrub_inv | apply State.fset_inv
      | apply State.closePart_inv | apply State.moveMask_inv | apply State.moveWipe_inv | apply State.setDl_inv
      | apply State.showFuses_inv | simp only [Inv.mk_eq] | split)
  all_goals
    with_reducible apply InvOf.owner
    with_reducible apply InvOf.state
    first | with_reducible exact hs0 | with_reducible exact State.scrub_inv _ _ hs0

theorem State.secFail_inv (s : State) (r : SecRun) (hs0 : s.Inv n v) :
    (State.secFail s r).Inv n v := by
  unfold State.secFail
  with_reducible
    repeat' (first
      | assumption | apply Inv.foldl | apply State.freeCore_inv | apply State.logC_inv
      | apply State.fset_inv | split)

theorem secCmdDoneStep_inv (s : State) (hs0 : s.Inv n v) :
    (secCmdDoneStep s).Inv n v := by
  unfold secCmdDoneStep
  with_reducible
    repeat' (first
      | assumption | apply State.when_inv | apply State.secFail_inv | apply State.fset_inv
      | apply State.secEffect_inv | apply State.secBusy_inv | intro _ | simp only [Inv.mk_eq] | apply InvOf.mix | split)

theorem execSecCmdDone_inv (s : State) (hs0 : s.Inv n v) :
    Res.Keeps (execSecCmdDone s) n v := by
  unfold execSecCmdDone
  with_reducible repeat' (first | apply Res.Keeps.next | assumption | apply secCmdDoneStep_inv)

theorem secClWorldWriteStep_inv (w : Who) (k : Nat) (v0 : Nat) (s : State) (hs3 : s.Inv n v) :
    (secClWorldWriteStep w k v0 s).Inv n v := by
  unfold secClWorldWriteStep
  with_reducible
    repeat' (first
      | assumption | apply State.when_inv | apply State.regWriteOr_inv
      | apply State.logC_inv | apply State.putRW_inv | intro _)

theorem execSecClWorldWrite_inv (w : Who) (k : Nat) (v0 : Nat) (s : State) (hs3 : s.Inv n v) :
    Res.Keeps (execSecClWorldWrite w k v0 s) n v := by
  unfold execSecClWorldWrite
  with_reducible repeat' (first | apply Res.Keeps.need | assumption | apply secClWorldWriteStep_inv)

theorem execTrngHealthFail_inv (s : State) (hs0 : s.Inv n v) :
    Res.Keeps (execTrngHealthFail s) n v := by
  unfold execTrngHealthFail
  with_reducible repeat' (first | apply Res.Keeps.next | assumption | apply State.when_inv | apply State.fset_inv | intro _)

theorem execTrngStartupPass_inv (s : State) (hs0 : s.Inv n v) :
    Res.Keeps (execTrngStartupPass s) n v := by
  unfold execTrngStartupPass
  with_reducible repeat' (first | apply Res.Keeps.next | assumption | apply State.when_inv | apply State.fset_inv | intro _)

/-! Machine/Lanes.lean. -/

theorem pctlRejected_inv (v0 : Nat) (s : State) (hs1 : s.Inv n v) :
    (pctlRejected v0 s).Inv n v := by
  unfold pctlRejected
  with_reducible repeat' (first | assumption | apply State.logC_inv | split)

theorem State.loopOn_inv (s : State) (p : Nat) (hs0 : s.Inv n v) :
    (State.loopOn s p).Inv n v := by
  unfold State.loopOn
  with_reducible repeat' (first | assumption | apply State.setStage_inv | apply State.setLp_inv | split)

theorem State.loopOff_inv (s : State) (p : Nat) (hs0 : s.Inv n v) :
    (State.loopOff s p).Inv n v := by
  unfold State.loopOff
  with_reducible repeat' (first | assumption | apply State.setStage_inv | apply State.setLp_inv | split)

theorem State.loopSet_inv (s : State) (p : Nat) (old : Nat) (hs0 : s.Inv n v) :
    (State.loopSet s p old).Inv n v := by
  unfold State.loopSet
  with_reducible
    repeat' (first
      | assumption | apply State.loopOff_inv | apply State.notice_inv
      | apply State.answered_inv | apply State.ask_inv | apply State.loopOn_inv | split)

theorem State.laserSwap_inv (s : State) (p : Nat) (l : Nat) (ok : Bool) (hs0 : s.Inv n v) :
    (State.laserSwap s p l ok).Inv n v := by
  unfold State.laserSwap
  with_reducible
    repeat' (first
      | assumption | apply State.ask_inv | apply State.logC_inv | apply State.trainFail_inv
      | apply State.linkUp_inv | apply State.newTxMap_inv | apply State.fset_inv | apply State.setLp_inv | apply State.log_inv
      | (dsimp only) | split)

theorem State.laneGo_inv (s : State) (p : Nat) (hs0 : s.Inv n v) :
    (State.laneGo s p).Inv n v := by
  unfold State.laneGo
  with_reducible
    repeat' (first
      | assumption | apply State.calClose_inv | apply State.trainAgain_inv
      | apply State.notice_inv | split)

theorem State.ls2Set_inv (s : State) (p : Nat) (old : Bool) (hs0 : s.Inv n v) :
    (State.ls2Set s p old).Inv n v := by
  unfold State.ls2Set
  with_reducible
    repeat' (first
      | assumption | apply State.ask_inv | apply State.leaveLs2_inv
      | apply State.answered_inv | (dsimp only) | split)

theorem pctlEff_inv (p : Nat) (v0 : Nat) (ok : Bool) (s : State) (hs3 : s.Inv n v) :
    (pctlEff p v0 ok s).Inv n v := by
  unfold pctlEff
  with_reducible
    repeat' (first
      | assumption | apply Inv.foldl | apply State.putRW_inv | apply State.loopSet_inv
      | apply State.sendPattern_inv | apply State.laneFail_inv | apply State.laserSwap_inv | apply State.ls2Set_inv
      | apply State.laneGo_inv | intro _ | split)

theorem lanePctlWrite_inv (w : Who) (p : Nat) (v0 : Nat) (ok : Bool) (s : State) (hs4 : s.Inv n v) :
    (lanePctlWrite w p v0 ok s).Inv n v := by
  unfold lanePctlWrite
  with_reducible
    repeat' (first
      | assumption | apply State.when_inv | apply State.regWriteOr_inv
      | apply pctlRejected_inv | apply pctlEff_inv | intro _)

theorem trainGoStep_inv (w : Who) (p : Nat) (v0 : Nat) (ok : Bool) (s : State) (hs4 : s.Inv n v) :
    (trainGoStep w p v0 ok s).Inv n v := by
  unfold trainGoStep
  with_reducible repeat' (first | assumption | apply State.when_inv | apply lanePctlWrite_inv)

theorem execTrainGo_inv (w : Who) (p : Nat) (v0 : Nat) (ok : Bool) (s : State) (hs4 : s.Inv n v) :
    Res.Keeps (execTrainGo w p v0 ok s) n v := by
  unfold execTrainGo
  with_reducible repeat' (first | apply Res.Keeps.need | assumption | apply trainGoStep_inv)

theorem forceOutStep_inv (w : Who) (p : Nat) (v0 : Nat) (ok : Bool) (s : State) (hs4 : s.Inv n v) :
    (forceOutStep w p v0 ok s).Inv n v := by
  unfold forceOutStep
  with_reducible repeat' (first | assumption | apply State.when_inv | apply lanePctlWrite_inv)

theorem execForceOut_inv (w : Who) (p : Nat) (v0 : Nat) (ok : Bool) (s : State) (hs4 : s.Inv n v) :
    Res.Keeps (execForceOut w p v0 ok s) n v := by
  unfold execForceOut
  with_reducible repeat' (first | apply Res.Keeps.need | assumption | apply forceOutStep_inv)

theorem laserSwapStep_inv (w : Who) (p : Nat) (v0 : Nat) (ok : Bool) (s : State) (hs4 : s.Inv n v) :
    (laserSwapStep w p v0 ok s).Inv n v := by
  unfold laserSwapStep
  with_reducible repeat' (first | assumption | apply State.when_inv | apply lanePctlWrite_inv)

theorem execLaserSwap_inv (w : Who) (p : Nat) (v0 : Nat) (ok : Bool) (s : State) (hs4 : s.Inv n v) :
    Res.Keeps (execLaserSwap w p v0 ok s) n v := by
  unfold execLaserSwap
  with_reducible repeat' (first | apply Res.Keeps.need | assumption | apply laserSwapStep_inv)

theorem loopStep_inv (w : Who) (p : Nat) (v0 : Nat) (ok : Bool) (s : State) (hs4 : s.Inv n v) :
    (loopStep w p v0 ok s).Inv n v := by
  unfold loopStep
  with_reducible repeat' (first | assumption | apply State.when_inv | apply lanePctlWrite_inv)

theorem execLoop_inv (w : Who) (p : Nat) (v0 : Nat) (ok : Bool) (s : State) (hs4 : s.Inv n v) :
    Res.Keeps (execLoop w p v0 ok s) n v := by
  unfold execLoop
  with_reducible repeat' (first | apply Res.Keeps.need | assumption | apply loopStep_inv)

theorem lanePctlLs2Step_inv (w : Who) (p : Nat) (v0 : Nat) (ok : Bool) (s : State) (hs4 : s.Inv n v) :
    (lanePctlLs2Step w p v0 ok s).Inv n v := by
  unfold lanePctlLs2Step
  with_reducible repeat' (first | assumption | apply State.when_inv | apply lanePctlWrite_inv)

theorem execLaneLs2Req_inv (w : Who) (p : Nat) (v0 : Nat) (ok : Bool) (s : State) (hs4 : s.Inv n v) :
    Res.Keeps (execLaneLs2Req w p v0 ok s) n v := by
  unfold execLaneLs2Req
  with_reducible repeat' (first | apply Res.Keeps.need | assumption | apply lanePctlLs2Step_inv)

theorem State.detected_inv (s : State) (p : Nat) (l : Nat) (hs0 : s.Inv n v) :
    (State.detected s p l).Inv n v := by
  unfold State.detected
  with_reducible repeat' (first | assumption | apply State.setLp_inv | apply State.enter_inv | (dsimp only) | split)

theorem signalDetectStep_inv (p : Nat) (l : Nat) (s : State) (hs2 : s.Inv n v) :
    (signalDetectStep p l s).Inv n v := by
  unfold signalDetectStep
  with_reducible
    repeat' (first
      | assumption | apply State.when_inv | apply State.fset_inv | apply State.wake_inv
      | apply State.detected_inv | apply State.leaveLs2_inv | intro _ | (dsimp only) | split)

theorem execSignalDetect_inv (p : Nat) (l : Nat) (s : State) (hs2 : s.Inv n v) :
    Res.Keeps (execSignalDetect p l s) n v := by
  unfold execSignalDetect
  with_reducible repeat' (first | apply Res.Keeps.need | assumption | apply signalDetectStep_inv)

theorem alignTimeoutStep_inv (p : Nat) (l : Nat) (s : State) (hs2 : s.Inv n v) :
    (alignTimeoutStep p l s).Inv n v := by
  unfold alignTimeoutStep
  with_reducible
    repeat' (first
      | assumption | apply State.when_inv | apply State.alignDone_inv
      | apply State.laneOut_inv | intro _ | (dsimp only) | split)

theorem execAlignTimeout_inv (p : Nat) (l : Nat) (s : State) (hs2 : s.Inv n v) :
    Res.Keeps (execAlignTimeout p l s) n v := by
  unfold execAlignTimeout
  with_reducible repeat' (first | apply Res.Keeps.need | assumption | apply alignTimeoutStep_inv)

theorem State.partnerKnown_inv (s : State) (p : Nat) (m : Nat) (q : Nat) (hs0 : s.Inv n v) :
    (State.partnerKnown s p m q).Inv n v := by
  unfold State.partnerKnown
  with_reducible
    repeat' (first
      | assumption | apply State.logC_inv | apply State.trainFail_inv | apply State.fset_inv
      | apply State.fallBack_inv | apply State.setStage_inv | apply State.equalise_inv | (dsimp only) | split)

theorem State.alignBlock_inv (s : State) (p : Nat) (l : Nat) (hs0 : s.Inv n v) :
    (State.alignBlock s p l).Inv n v := by
  unfold State.alignBlock
  with_reducible repeat' (first | assumption | apply State.alignDone_inv | apply State.setLp_inv | (dsimp only) | split)

theorem State.slip_inv (s : State) (p : Nat) (l : Nat) (hs0 : s.Inv n v) :
    (State.slip s p l).Inv n v := by
  unfold State.slip
  with_reducible repeat' (first | assumption | apply State.setLp_inv | (dsimp only) | split)

theorem State.statusIn_inv (s : State) (p : Nat) (led : Bool) (b : List Nat) (hs0 : s.Inv n v) :
    (State.statusIn s p led b).Inv n v := by
  unfold State.statusIn
  with_reducible
    repeat' (first
      | assumption | apply State.setLp_inv | apply State.partnerKnown_inv
      | apply State.trainAgain_inv | apply State.sendPattern_inv | (dsimp only) | split)

theorem statusStep_inv (p : Nat) (l : Nat) (chars : List Nat) (s : State) (hs3 : s.Inv n v) :
    (statusStep p l chars s).Inv n v := by
  unfold statusStep
  with_reducible
    repeat' (first
      | assumption | apply State.when_inv | apply State.oneLane_inv
      | apply State.alignBlock_inv | apply State.slip_inv | apply State.statusIn_inv | apply State.setLp_inv | intro _
      | (dsimp only) | split)

theorem execStatus_inv (p : Nat) (l : Nat) (chars : List Nat) (s : State) (hs3 : s.Inv n v) :
    Res.Keeps (execStatus p l chars s) n v := by
  unfold execStatus
  with_reducible repeat' (first | apply Res.Keeps.need | assumption | apply statusStep_inv)

theorem statusSendStep_inv (p : Nat) (s : State) (hs1 : s.Inv n v) :
    (statusSendStep p s).Inv n v := by
  unfold statusSendStep
  with_reducible
    repeat' (first
      | assumption | apply State.when_inv | apply State.sendBlocks_inv
      | apply State.sendStatus_inv | intro _ | split)

theorem execStatusSend_inv (p : Nat) (s : State) (hs1 : s.Inv n v) :
    Res.Keeps (execStatusSend p s) n v := by
  unfold execStatusSend
  with_reducible repeat' (first | apply Res.Keeps.need | assumption | apply statusSendStep_inv)

theorem State.setTaps_inv (s : State) (p : Nat) (l : Nat) (t : List Int) (hs0 : s.Inv n v) :
    (State.setTaps s p l t).Inv n v := by
  unfold State.setTaps
  with_reducible repeat' (first | assumption | apply Inv.foldl | apply State.fset_inv | intro _)

theorem State.tapAnswer_inv (s : State) (p : Nat) (l : Nat) (cmd : Nat) (arg : Nat) (hs0 : s.Inv n v) :
    PairKeeps (State.tapAnswer s p l cmd arg) n v := by
  unfold State.tapAnswer
  with_reducible
    repeat' (first
      | apply PairKeeps.some | apply PairKeeps.none | assumption | apply State.fset_inv
      | apply State.setTaps_inv | apply State.setLp_inv | (dsimp only) | split)

theorem State.nextRequest_inv (s : State) (p : Nat) (l : Nat) (hs0 : s.Inv n v) :
    (State.nextRequest s p l).Inv n v := by
  unfold State.nextRequest
  with_reducible repeat' (first | assumption | apply State.request_inv | apply State.drew_inv | split)

theorem State.trained_inv (s : State) (p : Nat) (l : Nat) (cmd : Nat) (arg : Nat) (hs0 : s.Inv n v) :
    (State.trained s p l cmd arg).Inv n v := by
  unfold State.trained
  with_reducible
    repeat' (first
      | assumption | apply State.tapAnswer_inv | apply State.train_inv
      | apply State.fsat_inv | apply State.equalised_inv | apply State.drew_inv | apply State.setLp_inv
      | apply State.nextRequest_inv | (dsimp only) | refine PairKeeps.get (by assumption) ?_ | split)

theorem trainStep_inv (p : Nat) (l : Nat) (chars : List Nat) (s : State) (hs3 : s.Inv n v) :
    (trainStep p l chars s).Inv n v := by
  unfold trainStep
  with_reducible
    repeat' (first
      | assumption | apply State.when_inv | apply State.oneLane_inv
      | apply State.trained_inv | intro _ | split)

theorem execTrain_inv (p : Nat) (l : Nat) (chars : List Nat) (s : State) (hs3 : s.Inv n v) :
    Res.Keeps (execTrain p l chars s) n v := by
  unfold execTrain
  with_reducible repeat' (first | apply Res.Keeps.need | assumption | apply trainStep_inv)

theorem equaliseTimeoutStep_inv (p : Nat) (l : Nat) (s : State) (hs2 : s.Inv n v) :
    (equaliseTimeoutStep p l s).Inv n v := by
  unfold equaliseTimeoutStep
  with_reducible
    repeat' (first
      | assumption | apply State.when_inv | apply State.equalised_inv
      | apply State.laneOut_inv | intro _ | (dsimp only) | split)

theorem execEqualiseTimeout_inv (p : Nat) (l : Nat) (s : State) (hs2 : s.Inv n v) :
    Res.Keeps (execEqualiseTimeout p l s) n v := by
  unfold execEqualiseTimeout
  with_reducible repeat' (first | apply Res.Keeps.need | assumption | apply equaliseTimeoutStep_inv)

theorem deskewStep_inv (p : Nat) (skews : List Nat) (s : State) (hs2 : s.Inv n v) :
    (deskewStep p skews s).Inv n v := by
  unfold deskewStep
  with_reducible
    repeat' (first
      | assumption | apply Inv.foldl | apply State.when_inv | apply State.laneOut_inv
      | apply State.setLp_inv | apply State.fset_inv | apply State.trainFail_inv | apply State.equalise_inv
      | apply State.setStage_inv | apply State.keysBegin_inv | apply State.afterKeys_inv | intro _ | (dsimp only) | split)

theorem execDeskew_inv (p : Nat) (skews : List Nat) (s : State) (hs2 : s.Inv n v) :
    Res.Keeps (execDeskew p skews s) n v := by
  unfold execDeskew
  with_reducible repeat' (first | apply Res.Keeps.need | assumption | apply deskewStep_inv)

theorem gateEndStep_inv (p : Nat) (runs : List (List (Nat × Nat))) (s : State) (hs2 : s.Inv n v) :
    (gateEndStep p runs s).Inv n v := by
  unfold gateEndStep
  with_reducible
    repeat' (first
      | assumption | apply Inv.foldl | apply State.when_inv | apply State.fsat_inv
      | apply State.fput_inv | apply State.logC_inv | apply State.trainFail_inv | apply State.fset_inv | apply State.askMap_inv
      | intro _ | (dsimp only) | split)

theorem execGateEnd_inv (p : Nat) (runs : List (List (Nat × Nat))) (s : State) (hs2 : s.Inv n v) :
    Res.Keeps (execGateEnd p runs s) n v := by
  unfold execGateEnd
  with_reducible repeat' (first | apply Res.Keeps.need | assumption | apply gateEndStep_inv)

theorem mapReqStep_inv (p : Nat) (rx : List (List Nat)) (s : State) (hs2 : s.Inv n v) :
    (mapReqStep p rx s).Inv n v := by
  unfold mapReqStep
  with_reducible
    repeat' (first
      | assumption | apply State.when_inv | apply State.noticed_inv
      | apply State.newTxMap_inv | intro _)

theorem execMapReq_inv (p : Nat) (rx : List (List Nat)) (s : State) (hs2 : s.Inv n v) :
    Res.Keeps (execMapReq p rx s) n v := by
  unfold execMapReq
  with_reducible repeat' (first | apply Res.Keeps.need | assumption | apply mapReqStep_inv)

theorem mapSwitchStep_inv (p : Nat) (rx : List (List Nat)) (s : State) (hs2 : s.Inv n v) :
    (mapSwitchStep p rx s).Inv n v := by
  unfold mapSwitchStep
  with_reducible
    repeat' (first
      | assumption | apply State.when_inv | apply State.noticed_inv
      | apply State.newRxMap_inv | intro _)

theorem execMapSwitch_inv (p : Nat) (rx : List (List Nat)) (s : State) (hs2 : s.Inv n v) :
    Res.Keeps (execMapSwitch p rx s) n v := by
  unfold execMapSwitch
  with_reducible repeat' (first | apply Res.Keeps.need | assumption | apply mapSwitchStep_inv)

theorem retrainStep_inv (p : Nat) (rx : List (List Nat)) (s : State) (hs2 : s.Inv n v) :
    (retrainStep p rx s).Inv n v := by
  unfold retrainStep
  with_reducible
    repeat' (first
      | assumption | apply State.when_inv | apply State.noticed_inv
      | apply State.trainAgain_inv | intro _)

theorem execRetrain_inv (p : Nat) (rx : List (List Nat)) (s : State) (hs2 : s.Inv n v) :
    Res.Keeps (execRetrain p rx s) n v := by
  unfold execRetrain
  with_reducible repeat' (first | apply Res.Keeps.need | assumption | apply retrainStep_inv)

theorem noticeLaserSwapStep_inv (p : Nat) (rx : List (List Nat)) (ok : Bool) (s : State) (hs3 : s.Inv n v) :
    (noticeLaserSwapStep p rx ok s).Inv n v := by
  unfold noticeLaserSwapStep
  with_reducible
    repeat' (first
      | assumption | apply State.when_inv | apply State.noticed_inv | apply State.notice_inv
      | apply State.laneFail_inv | intro _ | split)

theorem execNoticeLaserSwap_inv (p : Nat) (rx : List (List Nat)) (ok : Bool) (s : State) (hs3 : s.Inv n v) :
    Res.Keeps (execNoticeLaserSwap p rx ok s) n v := by
  unfold execNoticeLaserSwap
  with_reducible repeat' (first | apply Res.Keeps.need | assumption | apply noticeLaserSwapStep_inv)

theorem noticeRepeatStep_inv (p : Nat) (code : Nat) (s : State) (hs2 : s.Inv n v) :
    (noticeRepeatStep p code s).Inv n v := by
  unfold noticeRepeatStep
  with_reducible repeat' (first | assumption | apply State.when_inv | apply State.ask_inv | intro _ | split)

theorem execNoticeRepeat_inv (p : Nat) (code : Nat) (s : State) (hs2 : s.Inv n v) :
    Res.Keeps (execNoticeRepeat p code s) n v := by
  unfold execNoticeRepeat
  with_reducible repeat' (first | apply Res.Keeps.need | assumption | apply noticeRepeatStep_inv)

theorem ls1IdleStep_inv (p : Nat) (idleUs : Nat) (s : State) (hs2 : s.Inv n v) :
    (ls1IdleStep p idleUs s).Inv n v := by
  unfold ls1IdleStep
  with_reducible repeat' (first | assumption | apply State.when_inv | apply State.ask_inv | intro _)

theorem execLs1Idle_inv (p : Nat) (idleUs : Nat) (s : State) (hs2 : s.Inv n v) :
    Res.Keeps (execLs1Idle p idleUs s) n v := by
  unfold execLs1Idle
  with_reducible repeat' (first | apply Res.Keeps.need | assumption | apply ls1IdleStep_inv)

theorem ls1ReqStep_inv (p : Nat) (rx : List (List Nat)) (idle : Bool) (s : State) (hs3 : s.Inv n v) :
    (ls1ReqStep p rx idle s).Inv n v := by
  unfold ls1ReqStep
  with_reducible
    repeat' (first
      | assumption | apply State.when_inv | apply State.noticed_inv | apply State.fset_inv
      | apply State.notice_inv | intro _)

theorem execLs1Req_inv (p : Nat) (rx : List (List Nat)) (idle : Bool) (s : State) (hs3 : s.Inv n v) :
    Res.Keeps (execLs1Req p rx idle s) n v := by
  unfold execLs1Req
  with_reducible repeat' (first | apply Res.Keeps.need | assumption | apply ls1ReqStep_inv)

theorem ls1AckStep_inv (p : Nat) (rx : List (List Nat)) (s : State) (hs2 : s.Inv n v) :
    (ls1AckStep p rx s).Inv n v := by
  unfold ls1AckStep
  with_reducible
    repeat' (first
      | assumption | apply State.when_inv | apply State.noticed_inv | apply State.fset_inv
      | apply State.answered_inv | intro _)

theorem execLs1Ack_inv (p : Nat) (rx : List (List Nat)) (s : State) (hs2 : s.Inv n v) :
    Res.Keeps (execLs1Ack p rx s) n v := by
  unfold execLs1Ack
  with_reducible repeat' (first | apply Res.Keeps.need | assumption | apply ls1AckStep_inv)

theorem ls1ExitStep_inv (p : Nat) (s : State) (hs1 : s.Inv n v) :
    (ls1ExitStep p s).Inv n v := by
  unfold ls1ExitStep
  with_reducible repeat' (first | assumption | apply State.when_inv | apply State.leaveLs1_inv | intro _)

theorem execLs1Exit_inv (p : Nat) (s : State) (hs1 : s.Inv n v) :
    Res.Keeps (execLs1Exit p s) n v := by
  unfold execLs1Exit
  with_reducible repeat' (first | apply Res.Keeps.need | assumption | apply ls1ExitStep_inv)

theorem wakeNoticeStep_inv (p : Nat) (rx : List (List Nat)) (s : State) (hs2 : s.Inv n v) :
    (wakeNoticeStep p rx s).Inv n v := by
  unfold wakeNoticeStep
  with_reducible repeat' (first | assumption | apply State.when_inv | apply State.noticed_inv | apply State.fset_inv | intro _)

theorem execWake_inv (p : Nat) (rx : List (List Nat)) (s : State) (hs2 : s.Inv n v) :
    Res.Keeps (execWake p rx s) n v := by
  unfold execWake
  with_reducible repeat' (first | apply Res.Keeps.need | assumption | apply wakeNoticeStep_inv)

theorem ls2ReqStep_inv (p : Nat) (rx : List (List Nat)) (s : State) (hs2 : s.Inv n v) :
    (ls2ReqStep p rx s).Inv n v := by
  unfold ls2ReqStep
  with_reducible
    repeat' (first
      | assumption | apply State.when_inv | apply State.noticed_inv
      | apply State.enterLs2_inv | apply State.notice_inv | intro _)

theorem execLs2Req_inv (p : Nat) (rx : List (List Nat)) (s : State) (hs2 : s.Inv n v) :
    Res.Keeps (execLs2Req p rx s) n v := by
  unfold execLs2Req
  with_reducible repeat' (first | apply Res.Keeps.need | assumption | apply ls2ReqStep_inv)

theorem ls2AckStep_inv (p : Nat) (rx : List (List Nat)) (s : State) (hs2 : s.Inv n v) :
    (ls2AckStep p rx s).Inv n v := by
  unfold ls2AckStep
  with_reducible
    repeat' (first
      | assumption | apply State.when_inv | apply State.noticed_inv
      | apply State.enterLs2_inv | intro _)

theorem execLs2Ack_inv (p : Nat) (rx : List (List Nat)) (s : State) (hs2 : s.Inv n v) :
    Res.Keeps (execLs2Ack p rx s) n v := by
  unfold execLs2Ack
  with_reducible repeat' (first | apply Res.Keeps.need | assumption | apply ls2AckStep_inv)

theorem feReqStep_inv (p : Nat) (rx : List (List Nat)) (s : State) (hs2 : s.Inv n v) :
    (feReqStep p rx s).Inv n v := by
  unfold feReqStep
  with_reducible
    repeat' (first
      | assumption | apply State.when_inv | apply State.noticed_inv | apply State.loopOn_inv
      | apply State.notice_inv | intro _ | split)

theorem execFeReq_inv (p : Nat) (rx : List (List Nat)) (s : State) (hs2 : s.Inv n v) :
    Res.Keeps (execFeReq p rx s) n v := by
  unfold execFeReq
  with_reducible repeat' (first | apply Res.Keeps.need | assumption | apply feReqStep_inv)

theorem State.feAnswer_inv (s : State) (p : Nat) (code : Nat) (rx : List (List Nat)) (f : State → State) (hs0 : s.Inv n v)
    (hs4 : ∀ y0, y0.Inv n v → (f y0).Inv n v) :
    (State.feAnswer s p code rx f).Inv n v := by
  unfold State.feAnswer
  with_reducible
    repeat' (first
      | assumption | apply hs4 | apply State.when_inv | apply State.noticed_inv
      | apply State.answered_inv | intro _)

theorem feAckStep_inv (p : Nat) (rx : List (List Nat)) (s : State) (hs2 : s.Inv n v) :
    (feAckStep p rx s).Inv n v := by
  unfold feAckStep
  with_reducible repeat' (first | assumption | apply State.feAnswer_inv | apply State.loopOn_inv | intro _)

theorem execFeAck_inv (p : Nat) (rx : List (List Nat)) (s : State) (hs2 : s.Inv n v) :
    Res.Keeps (execFeAck p rx s) n v := by
  unfold execFeAck
  with_reducible repeat' (first | apply Res.Keeps.need | assumption | apply feAckStep_inv)

theorem feRefuseStep_inv (p : Nat) (rx : List (List Nat)) (s : State) (hs2 : s.Inv n v) :
    (feRefuseStep p rx s).Inv n v := by
  unfold feRefuseStep
  with_reducible repeat' (first | assumption | apply State.feAnswer_inv | apply State.logC_inv | intro _)

theorem execFeRefuse_inv (p : Nat) (rx : List (List Nat)) (s : State) (hs2 : s.Inv n v) :
    Res.Keeps (execFeRefuse p rx s) n v := by
  unfold execFeRefuse
  with_reducible repeat' (first | apply Res.Keeps.need | assumption | apply feRefuseStep_inv)

theorem feEndStep_inv (p : Nat) (rx : List (List Nat)) (s : State) (hs2 : s.Inv n v) :
    (feEndStep p rx s).Inv n v := by
  unfold feEndStep
  with_reducible repeat' (first | assumption | apply State.when_inv | apply State.noticed_inv | apply State.loopOff_inv | intro _)

theorem execFeEnd_inv (p : Nat) (rx : List (List Nat)) (s : State) (hs2 : s.Inv n v) :
    Res.Keeps (execFeEnd p rx s) n v := by
  unfold execFeEnd
  with_reducible repeat' (first | apply Res.Keeps.need | assumption | apply feEndStep_inv)

theorem State.credited_inv (s : State) (p : Nat) (pool : Nat) (total : Nat) (hs0 : s.Inv n v) :
    (State.credited s p pool total).Inv n v := by
  unfold State.credited
  with_reducible
    repeat' (first
      | assumption | apply State.creditCame_inv | apply State.setCredit_inv
      | simp only [Inv.mk_eq] | apply InvOf.mix | split)

theorem laneCreditStep_inv (p : Nat) (rx : List (List Nat)) (q : List Nat) (s : State) (hs3 : s.Inv n v) :
    (laneCreditStep p rx q s).Inv n v := by
  unfold laneCreditStep
  with_reducible
    repeat' (first
      | assumption | apply State.when_inv | apply State.wide_inv | apply State.credited_inv
      | apply State.setDepths_inv | intro _)

theorem execLaneCredit_inv (p : Nat) (rx : List (List Nat)) (q : List Nat) (s : State) (hs3 : s.Inv n v) :
    Res.Keeps (execLaneCredit p rx q s) n v := by
  unfold execLaneCredit
  with_reducible repeat' (first | apply Res.Keeps.need | assumption | apply laneCreditStep_inv)

theorem creditSendStep_inv (p : Nat) (pool : Nat) (s : State) (hs2 : s.Inv n v) :
    (creditSendStep p pool s).Inv n v := by
  unfold creditSendStep
  with_reducible repeat' (first | assumption | apply State.when_inv | apply State.creditSeq_inv | intro _)

theorem execCreditSend_inv (p : Nat) (pool : Nat) (s : State) (hs2 : s.Inv n v) :
    Res.Keeps (execCreditSend p pool s) n v := by
  unfold execCreditSend
  with_reducible repeat' (first | apply Res.Keeps.need | assumption | apply creditSendStep_inv)

theorem skipColumnStep_inv (p : Nat) (rx : List (List Nat)) (s : State) (hs2 : s.Inv n v) :
    (skipColumnStep p rx s).Inv n v := by
  unfold skipColumnStep
  with_reducible
    repeat' (first
      | assumption | apply State.when_inv | apply State.hear_inv | apply State.setLp_inv
      | intro _ | (dsimp only) | split)

theorem execSkipColumn_inv (p : Nat) (rx : List (List Nat)) (s : State) (hs2 : s.Inv n v) :
    Res.Keeps (execSkipColumn p rx s) n v := by
  unfold execSkipColumn
  with_reducible repeat' (first | apply Res.Keeps.need | assumption | apply skipColumnStep_inv)

theorem State.laneTrouble_inv (s : State) (p : Nat) (l : Nat) (cause : Nat) (reading : Nat) (hs0 : s.Inv n v) :
    (State.laneTrouble s p l cause reading).Inv n v := by
  unfold State.laneTrouble
  with_reducible repeat' (first | assumption | apply State.fset_inv | apply State.laneFail_inv | (dsimp only) | split)

theorem laneFailStep_inv (p : Nat) (l : Nat) (cause : Nat) (reading : Nat) (s : State) (hs4 : s.Inv n v) :
    (laneFailStep p l cause reading s).Inv n v := by
  unfold laneFailStep
  with_reducible repeat' (first | assumption | apply State.when_inv | apply State.laneTrouble_inv | intro _)

theorem execLaneFail_inv (p : Nat) (l : Nat) (cause : Nat) (reading : Nat) (s : State) (hs4 : s.Inv n v) :
    Res.Keeps (execLaneFail p l cause reading s) n v := by
  unfold execLaneFail
  with_reducible repeat' (first | apply Res.Keeps.need | assumption | apply laneFailStep_inv)

theorem lanePstatReadStep_inv (w : Who) (p : Nat) (s : State) (hs2 : s.Inv n v) :
    (lanePstatReadStep w p s).Inv n v := by
  unfold lanePstatReadStep
  with_reducible repeat' (first | assumption | apply State.when_inv | apply State.fset_inv | apply State.emit_inv | intro _)

theorem execLanePstatRead_inv (w : Who) (p : Nat) (s : State) (hs2 : s.Inv n v) :
    Res.Keeps (execLanePstatRead w p s) n v := by
  unfold execLanePstatRead
  with_reducible repeat' (first | apply Res.Keeps.need | assumption | apply lanePstatReadStep_inv)

theorem laneMonReadStep_inv (w : Who) (p : Nat) (l : Nat) (chars : List Nat) (s : State) (hs4 : s.Inv n v) :
    (laneMonReadStep w p l chars s).Inv n v := by
  unfold laneMonReadStep
  with_reducible
    repeat' (first
      | assumption | apply State.when_inv | apply State.hear_inv | apply State.fsat_inv
      | apply State.fset_inv | apply State.emit_inv | intro _ | split)

theorem execLaneMonRead_inv (w : Who) (p : Nat) (l : Nat) (chars : List Nat) (s : State) (hs4 : s.Inv n v) :
    Res.Keeps (execLaneMonRead w p l chars s) n v := by
  unfold execLaneMonRead
  with_reducible repeat' (first | apply Res.Keeps.need | assumption | apply laneMonReadStep_inv)

theorem eyeMeasureStep_inv (p : Nat) (l : Nat) (h0 : Nat) (v0 : Nat) (s : State) (hs4 : s.Inv n v) :
    (eyeMeasureStep p l h0 v0 s).Inv n v := by
  unfold eyeMeasureStep
  with_reducible repeat' (first | assumption | apply State.when_inv | apply State.fset_inv | intro _)

theorem execEyeMeasure_inv (p : Nat) (l : Nat) (h0 : Nat) (v0 : Nat) (s : State) (hs4 : s.Inv n v) :
    Res.Keeps (execEyeMeasure p l h0 v0 s) n v := by
  unfold execEyeMeasure
  with_reducible repeat' (first | apply Res.Keeps.need | assumption | apply eyeMeasureStep_inv)

theorem optMonitorStep_inv (p : Nat) (l : Nat) (rx : Nat) (tx : Nat) (refl : Nat) (bias : Nat) (s : State) (hs6 : s.Inv n v) :
    (optMonitorStep p l rx tx refl bias s).Inv n v := by
  unfold optMonitorStep
  with_reducible
    repeat' (first
      | assumption | apply State.when_inv | apply State.fset_inv | apply State.setLp_inv
      | apply State.log_inv | apply State.laneTrouble_inv | intro _ | (dsimp only) | split)

theorem execOptMonitor_inv (p : Nat) (l : Nat) (rx : Nat) (tx : Nat) (refl : Nat) (bias : Nat) (s : State) (hs6 : s.Inv n v) :
    Res.Keeps (execOptMonitor p l rx tx refl bias s) n v := by
  unfold execOptMonitor
  with_reducible repeat' (first | apply Res.Keeps.need | assumption | apply optMonitorStep_inv)

/-! Machine/MemoryRows.lean. -/

theorem memHostWriteStep_inv (w : Who) (v0 : Nat) (s : State) (hs2 : s.Inv n v) :
    (memHostWriteStep w v0 s).Inv n v := by
  unfold memHostWriteStep
  with_reducible repeat' (first | assumption | apply State.when_inv | apply State.regWrite_inv | apply State.putRW_inv | intro _)

theorem execMemHostWrite_inv (w : Who) (v0 : Nat) (s : State) (hs2 : s.Inv n v) :
    Res.Keeps (execMemHostWrite w v0 s) n v := by
  unfold execMemHostWrite
  with_reducible repeat' (first | apply Res.Keeps.next | assumption | apply memHostWriteStep_inv)

theorem State.hostHolds_inv (s : State) (l : Nat) (hs0 : s.Inv n v) :
    (State.hostHolds s l).Inv n v := by
  unfold State.hostHolds
  with_reducible repeat' (first | assumption | simp only [Inv.mk_eq] | apply InvOf.mix | split)

theorem cxlMemReadStep_inv (x : Nat) (hbm : List Nat) (s : State) (hs2 : s.Inv n v) :
    (cxlMemReadStep x hbm s).Inv n v := by
  unfold cxlMemReadStep
  with_reducible
    repeat' (first
      | assumption | apply State.when_inv | apply State.markBad_inv | apply State.logC_inv
      | apply State.emit_inv | apply State.hostRead_inv | apply State.hostHolds_inv | intro _ | (dsimp only) | split)

theorem execCxlMemRead_inv (x : Nat) (hbm : List Nat) (s : State) (hs2 : s.Inv n v) :
    Res.Keeps (execCxlMemRead x hbm s) n v := by
  unfold execCxlMemRead
  with_reducible repeat' (first | apply Res.Keeps.next | assumption | apply cxlMemReadStep_inv)

theorem cxlMemWriteStep_inv (x : Nat) (b : List Byte) (en : Nat) (s : State) (hs3 : s.Inv n v) :
    (cxlMemWriteStep x b en s).Inv n v := by
  unfold cxlMemWriteStep
  with_reducible
    repeat' (first
      | assumption | apply State.when_inv | apply State.logC_inv
      | apply State.hostUpdate_inv | intro _ | split)

theorem execCxlMemWrite_inv (x : Nat) (b : List Byte) (en : Nat) (s : State) (hs3 : s.Inv n v) :
    Res.Keeps (execCxlMemWrite x b en s) n v := by
  unfold execCxlMemWrite
  with_reducible repeat' (first | apply Res.Keeps.next | assumption | apply cxlMemWriteStep_inv)

theorem State.holdEntry_inv (s : State) (i : Nat) (hs0 : s.Inv n v) :
    (State.holdEntry s i).Inv n v := by
  unfold State.holdEntry
  with_reducible repeat' (first | assumption | simp only [Inv.mk_eq] | apply InvOf.mix)

theorem regionEntryWriteStep_inv (w : Who) (i : Nat) (k : Nat) (v0 : Nat) (s : State) (hs4 : s.Inv n v) :
    (regionEntryWriteStep w i k v0 s).Inv n v := by
  unfold regionEntryWriteStep
  with_reducible
    repeat' (first
      | assumption | apply State.when_inv | apply State.logC_inv | apply State.setRej_inv
      | apply State.fset_inv | apply State.putRW_inv | apply State.holdEntry_inv | apply State.bar_inv | intro _ | (dsimp only)
      | split)

theorem execRegionEntryWrite_inv (w : Who) (i : Nat) (k : Nat) (v0 : Nat) (s : State) (hs4 : s.Inv n v) :
    Res.Keeps (execRegionEntryWrite w i k v0 s) n v := by
  unfold execRegionEntryWrite
  with_reducible repeat' (first | apply Res.Keeps.need | assumption | apply regionEntryWriteStep_inv)

theorem execRegionChangeApplied_inv (s : State) (hs0 : s.Inv n v) :
    Res.Keeps (execRegionChangeApplied s) n v := by
  unfold execRegionChangeApplied
  with_reducible
    repeat' (first
      | apply Res.Keeps.next | assumption | apply State.when_inv | apply State.fset_inv
      | intro _ | simp only [Inv.mk_eq] | apply InvOf.mix)

theorem State.doFill_inv (s : State) (hs0 : s.Inv n v) :
    (State.doFill s).Inv n v := by
  unfold State.doFill
  with_reducible repeat' (first | assumption | apply State.fillFrames_inv | simp only [Inv.mk_eq] | apply InvOf.mix)

theorem State.fillGo_inv (s : State) (hs0 : s.Inv n v) :
    (State.fillGo s).Inv n v := by
  unfold State.fillGo
  with_reducible repeat' (first | assumption | apply State.fset_inv | simp only [Inv.mk_eq] | apply InvOf.mix)

theorem memFillGoStep_inv (w : Who) (v0 : Nat) (s : State) (hs2 : s.Inv n v) :
    (memFillGoStep w v0 s).Inv n v := by
  unfold memFillGoStep
  with_reducible
    repeat' (first
      | assumption | apply State.when_inv | apply State.logC_inv | apply State.setRej_inv
      | apply State.regWrite_inv | apply State.putRW_inv | apply State.fillGo_inv | intro _ | split)

theorem execMemFillGo_inv (w : Who) (v0 : Nat) (s : State) (hs2 : s.Inv n v) :
    Res.Keeps (execMemFillGo w v0 s) n v := by
  unfold execMemFillGo
  with_reducible repeat' (first | apply Res.Keeps.next | assumption | apply memFillGoStep_inv)

theorem execFillDone_inv (s : State) (hs0 : s.Inv n v) :
    Res.Keeps (execFillDone s) n v := by
  unfold execFillDone
  with_reducible
    repeat' (first
      | apply Res.Keeps.next | assumption | apply State.when_inv | apply State.doFill_inv
      | apply State.fset_inv | intro _)

theorem repairWrite_inv (w : Who) (v0 : Nat) (s : State) (hs2 : s.Inv n v) :
    (repairWrite w v0 s).Inv n v := by
  unfold repairWrite
  with_reducible
    repeat' (first
      | assumption | apply State.when_inv | apply State.regWrite_inv | apply State.putRW_inv
      | apply State.fset_inv | intro _ | simp only [Inv.mk_eq] | apply InvOf.mix | split)

theorem repairStep_inv (w : Who) (stack : Nat) (op : Nat) (pc : Nat) (row : Nat) (s : State) (hs5 : s.Inv n v) :
    (repairStep w stack op pc row s).Inv n v := by
  unfold repairStep
  with_reducible repeat' (first | assumption | apply repairWrite_inv)

theorem execRepairRemapRow_inv (w : Who) (stack : Nat) (pc : Nat) (row : Nat) (s : State) (hs4 : s.Inv n v) :
    Res.Keeps (execRepairRemapRow w stack pc row s) n v := by
  unfold execRepairRemapRow
  with_reducible repeat' (first | apply Res.Keeps.need | assumption | apply repairStep_inv)

theorem execRepairSubstitutePc_inv (w : Who) (stack : Nat) (pc : Nat) (s : State) (hs3 : s.Inv n v) :
    Res.Keeps (execRepairSubstitutePc w stack pc s) n v := by
  unfold execRepairSubstitutePc
  with_reducible repeat' (first | apply Res.Keeps.need | assumption | apply repairStep_inv)

theorem execRepairLoadRowRemap_inv (w : Who) (stack : Nat) (pc : Nat) (row : Nat) (s : State) (hs4 : s.Inv n v) :
    Res.Keeps (execRepairLoadRowRemap w stack pc row s) n v := by
  unfold execRepairLoadRowRemap
  with_reducible repeat' (first | apply Res.Keeps.need | assumption | apply repairStep_inv)

theorem repairDoneStep_inv (sppr : Bool) (lost : List Nat) (s : State) (hs2 : s.Inv n v) :
    (repairDoneStep sppr lost s).Inv n v := by
  unfold repairDoneStep
  with_reducible
    repeat' (first
      | assumption | apply State.when_inv | apply State.fset_inv | apply State.markBad_inv
      | apply State.recordFence_inv | apply State.fsat_inv | intro _ | simp only [Inv.mk_eq] | apply InvOf.mix | split)

theorem execRepairDone_inv (sppr : Bool) (lost : List Nat) (s : State) (hs2 : s.Inv n v) :
    Res.Keeps (execRepairDone sppr lost s) n v := by
  unfold execRepairDone
  with_reducible repeat' (first | apply Res.Keeps.next | assumption | apply repairDoneStep_inv)

theorem State.trainGo_inv (s : State) (hs0 : s.Inv n v) :
    (State.trainGo s).Inv n v := by
  unfold State.trainGo
  with_reducible repeat' (first | assumption | apply State.fset_inv | apply State.calClose_inv | (dsimp only) | split)

theorem memTrainGoStep_inv (w : Who) (v0 : Nat) (s : State) (hs2 : s.Inv n v) :
    (memTrainGoStep w v0 s).Inv n v := by
  unfold memTrainGoStep
  with_reducible
    repeat' (first
      | assumption | apply State.when_inv | apply State.regWrite_inv | apply State.logC_inv
      | apply State.trainGo_inv | intro _ | split)

theorem execMemTrainGo_inv (w : Who) (v0 : Nat) (s : State) (hs2 : s.Inv n v) :
    Res.Keeps (execMemTrainGo w v0 s) n v := by
  unfold execMemTrainGo
  with_reducible repeat' (first | apply Res.Keeps.next | assumption | apply memTrainGoStep_inv)

theorem State.trainSubst_inv (s : State) (k : Nat) (pc : Nat) (hs0 : s.Inv n v) :
    (State.trainSubst s k pc).Inv n v := by
  unfold State.trainSubst
  with_reducible repeat' (first | assumption | apply State.recordFence_inv | apply State.log_inv | apply State.fsat_inv)

theorem State.trainFence_inv (s : State) (k : Nat) (hs0 : s.Inv n v) :
    (State.trainFence s k).Inv n v := by
  unfold State.trainFence
  with_reducible repeat' (first | assumption | apply State.recordFence_inv | apply State.log_inv | apply State.fset_inv)

theorem trainStackDoneStep_inv (k : Nat) (pcs : List Nat) (cmdFail : Bool) (lost : List Nat) (s : State) (hs4 : s.Inv n v) :
    (trainStackDoneStep k pcs cmdFail lost s).Inv n v := by
  unfold trainStackDoneStep
  with_reducible
    repeat' (first
      | assumption | apply Inv.foldl | apply State.when_inv | apply State.trainFence_inv
      | apply State.trainSubst_inv | apply State.markBad_inv | apply State.fset_inv | intro _ | (dsimp only) | split)

theorem execTrainStackDone_inv (k : Nat) (pcs : List Nat) (cmdFail : Bool) (lost : List Nat) (s : State) (hs4 : s.Inv n v) :
    Res.Keeps (execTrainStackDone k pcs cmdFail lost s) n v := by
  unfold execTrainStackDone
  with_reducible repeat' (first | apply Res.Keeps.need | assumption | apply trainStackDoneStep_inv)

theorem hbmRefreshStep_inv (k : Nat) (temp : Nat) (s : State) (hs2 : s.Inv n v) :
    (hbmRefreshStep k temp s).Inv n v := by
  unfold hbmRefreshStep
  with_reducible
    repeat' (first
      | assumption | apply State.when_inv | apply State.fset_inv | intro _
      | simp only [Inv.mk_eq] | apply InvOf.mix)

theorem execHbmRefresh_inv (k : Nat) (temp : Nat) (s : State) (hs2 : s.Inv n v) :
    Res.Keeps (execHbmRefresh k temp s) n v := by
  unfold execHbmRefresh
  with_reducible repeat' (first | apply Res.Keeps.need | assumption | apply hbmRefreshStep_inv)

theorem memStkStatusReadStep_inv (w : Who) (k : Nat) (ce : Nat) (s : State) (hs3 : s.Inv n v) :
    (memStkStatusReadStep w k ce s).Inv n v := by
  unfold memStkStatusReadStep
  with_reducible
    repeat' (first
      | assumption | apply State.when_inv | apply State.fsat_inv | apply State.fset_inv
      | apply State.emit_inv | intro _)

theorem execMemStkStatusRead_inv (w : Who) (k : Nat) (ce : Nat) (s : State) (hs3 : s.Inv n v) :
    Res.Keeps (execMemStkStatusRead w k ce s) n v := by
  unfold execMemStkStatusRead
  with_reducible repeat' (first | apply Res.Keeps.need | assumption | apply memStkStatusReadStep_inv)

/-! Machine/Access.lean. -/

theorem fabPortWrite_inv (w : Who) (p : Nat) (v0 : Nat) (s : State) (hs3 : s.Inv n v) :
    (fabPortWrite w p v0 s).Inv n v := by
  unfold fabPortWrite
  with_reducible
    repeat' (first
      | assumption | apply State.when_inv | apply State.clrW1C_inv | apply State.fset_inv
      | apply State.holdPort_inv | apply State.bar_inv | intro _ | simp only [Inv.mk_eq] | apply InvOf.mix | split)

theorem plainWrite_inv (w : Who) (r : Reg) (i : Nat) (v0 : Nat) (reject : State → Bool) (s : State) (hs5 : s.Inv n v) :
    (plainWrite w r i v0 reject s).Inv n v := by
  unfold plainWrite
  with_reducible repeat' (first | assumption | apply State.when_inv | apply State.regWrite_inv | apply State.putRW_inv | intro _)

theorem lanePctlPlain_inv (w : Who) (p : Nat) (v0 : Nat) (s : State) (hs3 : s.Inv n v) :
    (lanePctlPlain w p v0 s).Inv n v := by
  unfold lanePctlPlain
  with_reducible repeat' (first | assumption | apply State.drew_inv | apply lanePctlWrite_inv | split)

theorem regPut_inv (w : Who) (r : Reg) (i : Nat) (k : Nat) (v0 : Nat) (s : State) (hs5 : s.Inv n v) :
    (regPut w r i k v0 s).Inv n v := by
  unfold regPut
  with_reducible
    repeat' (first
      | assumption | apply gctlRoleWriteStep_inv | apply gctlOwnerWriteStep_inv
      | apply gctlSeqtabWriteStep_inv | apply bootCtlWrite_inv | apply timeCtlWriteStep_inv | apply memHostWriteStep_inv
      | apply regionEntryWriteStep_inv | apply memFillGoStep_inv | apply repairWrite_inv | apply memTrainGoStep_inv
      | apply cfeRingCmdWriteStep_inv | apply cfeRingCplWriteStep_inv | apply ctxCfgWriteStep_inv | apply ctxCtlWriteStep_inv
      | apply fabCtlWriteStep_inv | apply plainWrite_inv | apply fabPortWrite_inv | apply lanePctlPlain_inv
      | apply collGrpWriteStep_inv | apply spareFenceWrite_inv | apply spareAbindWriteStep_inv | apply spareDumpWrite_inv
      | apply sparePairWriteStep_inv | apply spareResyncWrite_inv | apply pwrPolicyWriteStep_inv | apply pstateWrite_inv
      | apply secClWorldWriteStep_inv | apply secCmdWrite_inv | apply fwuCtlWrite_inv | apply traceSlotWriteStep_inv
      | apply dumpSlotWriteStep_inv | apply freezeWrite_inv | split)

theorem regWriteAt_inv (w : Who) (r : Reg) (i : Nat) (b : Nat) (n0 : Nat) (v0 : Nat) (s : State) (hs6 : s.Inv n v) :
    (regWriteAt w r i b n0 v0 s).Inv n v := by
  unfold regWriteAt
  with_reducible repeat' (first | assumption | apply regPut_inv)

theorem State.nowhere_inv (s : State) (w : Who) (off : Nat) (hs0 : s.Inv n v) :
    (State.nowhere s w off).Inv n v := by
  unfold State.nowhere
  with_reducible repeat' (first | assumption | apply State.when_inv | apply State.logC_inv | intro _)

theorem tokenWrite_inv (w : Who) (off : Nat) (n0 : Nat) (v0 : Nat) (s : State) (hs4 : s.Inv n v) :
    (tokenWrite w off n0 v0 s).Inv n v := by
  unfold tokenWrite
  with_reducible
    repeat' (first
      | assumption | apply State.when_inv | intro _ | simp only [Inv.mk_eq]
      | apply InvOf.mix | apply InvOf.write_token)

theorem barWrite_inv (w : Who) (off : Nat) (n0 : Nat) (v0 : Nat) (s : State) (hs4 : s.Inv n v) :
    (barWrite w off n0 v0 s).Inv n v := by
  unfold barWrite
  with_reducible
    repeat' (first
      | assumption | apply State.nowhere_inv | apply commandDoorbellStep_inv
      | apply completionDoorbellStep_inv | apply stagingWriteStep_inv | apply calibrationWriteStep_inv | apply tokenWrite_inv
      | apply regWriteAt_inv | (dsimp only) | split)

theorem State.barRead_inv (s : State) (w : Who) (off : Nat) (n0 : Nat) (hs0 : s.Inv n v) :
    (State.barRead s w off n0).2.Inv n v := by
  unfold State.barRead
  with_reducible repeat' (first | assumption | apply State.nowhere_inv | (dsimp only) | split)

theorem State.unmask_inv (s : State) (v0 : Nat) (hs0 : s.Inv n v) :
    (State.unmask s v0).Inv n v := by
  unfold State.unmask
  with_reducible repeat' (first | assumption | apply State.msix_inv | simp only [Inv.mk_eq] | apply InvOf.mix | split)

theorem msixWrite_inv (off : Nat) (v0 : Nat) (s : State) (hs2 : s.Inv n v) :
    (msixWrite off v0 s).Inv n v := by
  unfold msixWrite
  with_reducible repeat' (first | assumption | apply State.unmask_inv | simp only [Inv.mk_eq] | apply InvOf.mix | split)

theorem bar2Write_inv (w : Who) (off : Nat) (n0 : Nat) (v0 : Nat) (s : State) (hs4 : s.Inv n v) :
    (bar2Write w off n0 v0 s).Inv n v := by
  unfold bar2Write
  with_reducible repeat' (first | assumption | apply State.when_inv | apply msixWrite_inv | intro _ | split)

theorem registerWriteStep_inv (w : Who) (bar2 : Bool) (off : Nat) (n0 : Nat) (v0 : Nat) (s : State) (hs5 : s.Inv n v) :
    (registerWriteStep w bar2 off n0 v0 s).Inv n v := by
  unfold registerWriteStep
  with_reducible repeat' (first | assumption | apply State.nowhere_inv | apply bar2Write_inv | apply barWrite_inv | split)

theorem execRegisterWrite_inv (w : Who) (bar2 : Bool) (off : Nat) (n0 : Nat) (v0 : Nat) (s : State) (hs5 : s.Inv n v) :
    Res.Keeps (execRegisterWrite w bar2 off n0 v0 s) n v := by
  unfold execRegisterWrite
  with_reducible repeat' (first | apply Res.Keeps.next | assumption | apply registerWriteStep_inv)

/-! Machine/Step.lean. -/

theorem State.rest_inv (s : State) (q : List Instr) (hs0 : s.Inv n v) :
    (State.rest s q).Inv n v := by
  unfold State.rest
  with_reducible repeat' (first | assumption | simp only [Inv.mk_eq] | apply InvOf.mix)

theorem State.withFetchWord_inv (s : State) (nbits : Nat) (w : Nat) (hs0 : s.Inv n v) :
    (State.withFetchWord s nbits w).Inv n v := by
  unfold State.withFetchWord
  with_reducible repeat' (first | assumption | simp only [Inv.mk_eq] | apply InvOf.mix | split)

end Sys2Proof.Machine
end

