-- ==== Sys2Proof/Laws/Lines.lean ====
section
/-! SUPPORT. What a sequence that a port's lanes agree on does, and what reading it leaves alone. -/
set_option autoImplicit false
namespace Sys2Proof.Machine

/-- A sequence that the lanes agree on is acted on. -/
theorem State.Hears.wide {s h : State} {p k n : Nat} {rx : List (List Nat)} {d : List Nat} (f : List Nat → State → State)
    (a : s.Hears p k n rx d h) : s.wide p k n rx f = f d h := by
  obtain ⟨l, hl, hd⟩ := Option.bind_eq_some_iff.mp a.agree
  simp only [State.wide, a.hears, hl, hd, ← a.after, if_true]

/-- A NOTICE with the code of a row is acted on. -/
theorem State.Hears.noticed {s h : State} {p code arg : Nat} {rx : List (List Nat)} (f : Nat → State → State)
    (a : s.Hears p kNOTICE 2 rx (noticeData code arg) h) : s.noticed p code rx f = f arg h := by
  simp [State.noticed, a.wide, noticeData]

end Sys2Proof.Machine
end

