-- ==== Sys2Proof/Laws/Table.lean ====
section
/-! SUPPORT. What a table holds after a key is set, removed or put. -/
set_option autoImplicit false
namespace Sys2Proof.Machine

theorem tget_tdel_same {α : Type} (t : Table α) (k : Nat) (d : α) : tget (tdel t k) k d = d := by
  induction t with
  | nil => rfl
  | cons e r ih =>
    obtain ⟨k', v⟩ := e
    unfold tdel
    split
    · exact ih
    · rename_i h
      simp [tget, h, ih]

theorem tget_tdel_ne {α : Type} (t : Table α) {k j : Nat} (d : α) (h : j ≠ k) : tget (tdel t k) j d = tget t j d := by
  induction t with
  | nil => rfl
  | cons e r ih =>
    obtain ⟨k', v⟩ := e
    unfold tdel
    split
    · rename_i hk
      subst hk
      simp [tget, ih, Ne.symm h]
    · simp [tget, ih]

theorem tget_tins_same {α : Type} (t : Table α) (k : Nat) (v d : α) (h : ∀ e ∈ t, e.1 ≠ k) : tget (tins t k v) k d = v := by
  induction t with
  | nil => simp [tins, tget]
  | cons e r ih =>
    obtain ⟨k', v'⟩ := e
    have hk : k' ≠ k := h (k', v') (by simp)
    have hr : ∀ e ∈ r, e.1 ≠ k := fun e he => h e (by simp [he])
    unfold tins
    split
    · simp [tget]
    · simp [tget, hk, ih hr]

theorem tget_tins_ne {α : Type} (t : Table α) {k j : Nat} (v d : α) (h : j ≠ k) : tget (tins t k v) j d = tget t j d := by
  induction t with
  | nil => simp [tins, tget, Ne.symm h]
  | cons e r ih =>
    obtain ⟨k', v'⟩ := e
    unfold tins
    split
    · simp [tget, Ne.symm h]
    · simp [tget, ih]

theorem tdel_keys {α : Type} (t : Table α) (k : Nat) : ∀ e ∈ tdel t k, e.1 ≠ k := by
  induction t with
  | nil => intro e he; simp [tdel] at he
  | cons e r ih =>
    obtain ⟨k', v⟩ := e
    unfold tdel
    split
    · exact ih
    · rename_i h
      intro e he
      rcases List.mem_cons.mp he with rfl | hr
      · exact h
      · exact ih e hr

/-- A key just set reads as its value. -/
@[simp] theorem tget_tset_same {α : Type} [DecidableEq α] (t : Table α) (k : Nat) (v d : α) : tget (tset t k v d) k d = v := by
  unfold tset
  split
  · rename_i h
    subst h
    exact tget_tdel_same t k v
  · exact tget_tins_same _ k v d (tdel_keys t k)

/-- Setting a key leaves every other key as it was. -/
theorem tget_tset_ne {α : Type} [DecidableEq α] (t : Table α) {k j : Nat} (v d d' : α) (h : j ≠ k) :
    tget (tset t k v d) j d' = tget t j d' := by
  unfold tset
  split
  · exact tget_tdel_ne t d' h
  · rw [tget_tins_ne _ v d' h, tget_tdel_ne t d' h]

end Sys2Proof.Machine
end

