-- ==== Sys2Proof/Laws/Ops.lean ====
section
/-! SUPPORT. What a register field holds after a field is set, and the keys that keep fields apart. -/
set_option autoImplicit false
namespace Sys2Proof.Machine

/-- A field just set holds its value, as its width cuts it. -/
@[simp] theorem State.fget_fset_same (s : State) (f : Fld) (i v : Nat) : (s.fset f i v).fget f i = v % 2 ^ f.w := by
  simp [State.fget, State.fset]

/-- A field just set holds a value that fits it. -/
theorem State.fget_fset_lt (s : State) (f : Fld) (i v : Nat) (h : v < 2 ^ f.w) : (s.fset f i v).fget f i = v := by
  rw [State.fget_fset_same, Nat.mod_eq_of_lt h]

/-- Setting a field leaves every field with another key as it was. -/
theorem State.fget_fset_ne (s : State) (f g : Fld) (i j v : Nat) (h : g.key j ≠ f.key i) :
    (s.fset f i v).fget g j = s.fget g j := by
  simp [State.fget, State.fset, tget_tset_ne _ _ _ _ h]

/-- Fields of two registers, or at two places of one, have different keys. -/
theorem Fld.key_ne (f g : Fld) {i j : Nat} (hi : i < 65536) (hj : j < 65536) (hf : f.lsb < 1024) (hg : g.lsb < 1024)
    (h : f.reg.code ≠ g.reg.code ∨ i ≠ j ∨ f.lsb ≠ g.lsb) : f.key i ≠ g.key j := by
  unfold Fld.key
  omega

@[simp] theorem State.fget_fput_same (s : State) (f : Fld) (i : Nat) (b : Bool) :
    (s.fput f i b).fget f i = b2n b % 2 ^ f.w := by
  simp [State.fput]

@[simp] theorem need_true (s : State) : need true s = .next s := rfl

@[simp] theorem State.when_true (s : State) (f : State → State) : s.when true f = f s := rfl

@[simp] theorem State.when_false (s : State) (f : State → State) : s.when false f = s := rfl

/-- A field depends on the registers only. -/
@[simp] theorem State.fget_mk (f : Fld) (i : Nat) (x0 : Table Nat) (x1 : TimeSt) (x2 : CfeSt) (x3 : MemSt) (x4 : CoreSt)
    (x5 : FabSt) (x6 : AttSt) (x7 : CollSt) (x8 : SpareSt) (x9 : ObsSt) (x10 : BootSt) (x11 : PwrSt) (x12 : FuseSt)
    (x13 : MgmtSt) (x14 : Table LanePort) (x15 : SecSt) (x16 : FwSt) (x17 : Nat) (x18 : List Out) (x19 : List Instr) :
    State.fget ⟨x0, x1, x2, x3, x4, x5, x6, x7, x8, x9, x10, x11, x12, x13, x14, x15, x16, x17, x18, x19⟩ f i =
      tget x0 (f.key i) f.up := rfl

/-- What the register table holds under a field's key is the field. -/
theorem State.tget_regs (s : State) (f : Fld) (i : Nat) : tget s.regs (f.key i) f.up = s.fget f i := rfl

@[simp] theorem State.fget_emit (s : State) (x : Out) (f : Fld) (i : Nat) : (s.emit x).fget f i = s.fget f i := rfl

@[simp] theorem State.fget_note (s : State) (k v : Nat) (f : Fld) (i : Nat) : (s.note k v).fget f i = s.fget f i := rfl

@[simp] theorem State.fget_drew (s : State) (f : Fld) (i : Nat) : s.drew.fget f i = s.fget f i := rfl

end Sys2Proof.Machine
end

