-- ==== Sys2Proof/Laws/Regs.lean ====
section
/-! SUPPORT. Fields of different registers never share a key; what follows for the registers a sequence of updates leaves alone. -/
set_option autoImplicit false
namespace Sys2Proof.Machine

/-- No two registers have one code. -/
theorem Reg.code_inj {r q : Reg} (h : r.code = q.code) : r = q := by
  have e : ∀ x : Reg, x.code = x.ctorIdx := fun x => by cases x <;> rfl
  rw [e, e] at h
  have := congrArg Reg.ofNat h
  rwa [Reg.ofNat_ctorIdx, Reg.ofNat_ctorIdx] at this

/-- Every field of the register table names its own register and lies below bit 1,024. -/
theorem Reg.fields_ok (r : Reg) : ∀ f ∈ r.fields, f.reg = r ∧ f.lsb < 1024 := by
  cases r <;> decide

/-- A field of another register reads as before. -/
theorem State.fget_fset_reg (s : State) {f g : Fld} {i j v : Nat} (hr : g.reg ≠ f.reg) (hi : i < 65536) (hj : j < 65536)
    (hf : f.lsb < 1024) (hg : g.lsb < 1024) : (s.fset f i v).fget g j = s.fget g j :=
  s.fget_fset_ne f g i j v (Fld.key_ne g f hj hi hg hf (.inl fun h => hr (Reg.code_inj h)))

@[simp] theorem State.sameRegsBut_refl (s : State) (rs : List Reg) : s.sameRegsBut s rs := fun _ _ _ _ _ _ => rfl

theorem State.sameRegsBut_trans {s t u : State} {rs : List Reg} (h : s.sameRegsBut t rs) (k : t.sameRegsBut u rs) :
    s.sameRegsBut u rs := fun r hr f hf i hi => (k r hr f hf i hi).trans (h r hr f hf i hi)

/-- A set of registers left alone but for `rs` is left alone but for any larger list. -/
theorem State.sameRegsBut_mono {s t : State} {rs qs : List Reg} (h : s.sameRegsBut t rs) (k : ∀ r ∈ rs, r ∈ qs) :
    s.sameRegsBut t qs := fun r hr => h r fun m => hr (k r m)

/-- States with equal register tables. -/
theorem State.sameRegsBut_of_regs {s t : State} (rs : List Reg) (h : t.regs = s.regs) : s.sameRegsBut t rs :=
  fun _ _ _ _ _ _ => by simp [State.fget, h]

/-- Setting a field of a register of `rs` leaves the others alone. -/
theorem State.sameRegsBut_fset (s : State) {f : Fld} {i v : Nat} {rs : List Reg} (h : f.reg ∈ rs) (hi : i < 65536)
    (hf : f.lsb < 1024) : s.sameRegsBut (s.fset f i v) rs := by
  intro r hr g hg j hj
  obtain ⟨e, l⟩ := Reg.fields_ok r g hg
  exact s.fget_fset_reg (by rw [e]; exact fun q => hr (q ▸ h)) hi hj hf l

end Sys2Proof.Machine
end

