-- ==== Sys2Proof/Machine/Pins.lean ====
section
/-! DEFINITION. The module's pins as they stand in a state: where each lane's pins and fibres lie, and how each pin group behaves
unpowered, in reset and running (R480, R494, R842, R850, R852, R854 to R856, R862). The machine's rules read none of these. -/
set_option autoImplicit false
namespace Sys2Proof.Machine

/-! ## Positions -/

/-- A pin or fibre position: its group, its row and its column. -/
structure PinPos where
  group  : String
  row    : Char
  column : Nat
  deriving DecidableEq, Repr

/-- The pins of a copper lane in the order transmit positive, transmit negative, receive positive, receive negative (R850). -/
def copperPins (p l : Nat) : List PinPos :=
  let g := if p < 3 then "HT" else "HS"
  let k := if p < 3 then p else p - 3
  ['B', 'C', 'E', 'F'].map fun r => ⟨g, r, 5 * k + l + 1⟩

/-- The fibres of an optical lane: transmit, then receive (R852). -/
def opticalPins (p l : Nat) : List PinPos :=
  let g := p - 18
  ['A', 'B'].map fun r => ⟨if g < 2 then "OA" else "OB", r, l + 1 + 5 * (g % 2)⟩

/-- Where the partner's plant must lead a lane's transmit positions: for copper the receive pins of the same lane of the partner's port,
for a fibre the other row of the same column of the body of the same name (R851, R853). -/
def mateOf (p l : Nat) : List PinPos :=
  if p < 18 then (copperPins (partnerPort p) l).drop 2 else (opticalPins p l).drop 1

/-- The pins of lane l of a root port (R856). -/
def hostPins (p l : Nat) : List PinPos := ['B', 'C', 'E', 'F'].map fun r => ⟨"PE", r, 16 * p + l + 1⟩

/-! ## Behaviour (R862) -/

/-- What a pin group does. -/
inductive PinState
  | highZ | idle | driven | unterminated | terminated | off | lit | target | low | pulled | open_
  deriving DecidableEq, Repr

/-- A port is in reset: PS4, a trip, its lane firmware not started, OFF or LS2 (R862). -/
def State.portReset (s : State) (p : Nat) : Bool :=
  !s.up || decide (s.stage p = 0) || decide (s.lstate p = 2)

/-- A copper lane's transmitter (R480, R862). -/
def State.copperTx (s : State) (p : Nat) : PinState :=
  if s.portReset p then .highZ else if s.lstate p = 1 then .idle else .driven

/-- A copper lane's receiver: terminated from DETECT on (R862). -/
def State.copperRx (s : State) (p : Nat) : PinState := if s.portReset p then .unterminated else .terminated

/-- The lasers of a G port (R494, R862). -/
def State.laserPin (s : State) (p : Nat) : PinState :=
  if s.portReset p || !(s.lp p).laser then .off else .lit

/-- The I3C pins of both buses: a target once the management controller runs (R824, R862). -/
def State.i3cPins (s : State) : PinState := if s.pwr.on && s.mgmt.run then .target else .highZ

/-- The strap pins are pulled up only while VAUX is on, which PS4 turns off (R716, R855). -/
def State.strapPins (s : State) : PinState :=
  if s.pwr.on && decide (s.fget PWR_PSTATE.STATE 0 ≠ 4) then .pulled else .open_

/-- PERST_N is driven low while the host die is in reset; what it does while the host die runs is that die's (R862). -/
def State.perstPin (s : State) : Option PinState :=
  if !s.pwr.on then some .highZ else if s.cxlUp then none else some .low

end Sys2Proof.Machine
end

