-- ==== Sys2Proof/Tests/Slice0.lean ====
section
/-! SUPPORT. Tests of the model: ill-formed operands, examples of the spec, and for every statement states that meet its hypotheses. -/

namespace Sys2Proof.Tests
open Sys2Proof Sys2Proof.Machine
set_option Elab.async false

/-- The module with its rails up, its management controller running and its link to the host die trained, and nothing else done since
reset. -/
def on : State :=
  { State.reset with
    pwr := { State.reset.pwr with on := true }, cfe := { State.reset.cfe with ucie := 15 }, mgmt := { State.reset.mgmt with run := true } }

/-- The same with some fields of registers at other values. -/
def at_ (l : List (Fld × Nat × Nat)) (s : State := on) : State := l.foldl (fun s e => s.fset e.1 e.2.1 e.2.2) s

/-- A register word of some fields. -/
def wd (l : List (Fld × Nat)) : Nat := l.foldl (fun v e => v + e.2 <<< e.1.lsb) 0

/-- A region table entry that gives partition 0 every right to the first four frames, under key slot 0. -/
def region0 : List (Fld × Nat × Nat) :=
  [(MEM_RGN.VALID, 0, 1), (MEM_RGN.LIMIT, 0, 3), (MEM_RGN.RD, 0, 1), (MEM_RGN.WR, 0, 1), (MEM_RGN.FETCH, 0, 1), (MEM_RGN.ATOM, 0, 1),
   (MEM_RGN.FPUT, 0, 1), (MEM_RGN.FGET, 0, 1)]

/-- A state whose key slot 0 holds a key, under which the first four frames are filled. -/
def keyed (s : State) : State := { s with mem := { s.mem with keyGen := [(0, 1)], fills := [(0, 3, 0, 1)] } }

/-- The characters of a sequence on five lanes of a port that has heard nothing yet. -/
def said (k : Nat) (d : List Nat) : List (List Nat) := List.replicate 5 (encSyms false (seqSyms k d)).1

/-- A child of port 3 with SYNC sent at 0, in state `st` of the timebase. -/
def child (st : Nat) : State :=
  { at_ [(TIME_CTL.SYNC_EN, 0, 1), (TIME_CTL.PARENT, 0, 3), (LANE_PSTAT.STAGE, 3, 8), (LANE_PSTAT.LSTATE, 3, 0), (FAB_PORT.LINK_UP, 3, 1),
      (TIME_STATUS.STATE, 0, st)] with
    time := { on.time with ex := some (7, 0, 40, 60) } }

/-- The hypotheses of each clause of `TimingExchange` are met. -/
theorem witness_timingExchange :
    (∃ (s : State) (p : Nat), p < 22 ∧ s.up = true ∧ s.fon TIME_CTL.SYNC_EN 0 = true ∧ s.portLS01 p = true) ∧
    (∃ (s h : State) (p num t1 : Nat) (rx : List (List Nat)), p < 22 ∧ s.up = true ∧ s.Hears p kTIMING 10 rx (timingData 1 num t1) h ∧
      t1 < 2 ^ 64 ∧ h.childOn p = true) ∧
    (∃ (s h : State) (p num c : Nat) (rx : List (List Nat)), p < 22 ∧ s.up = true ∧ s.Hears p kTIMING 10 rx (timingData 2 num c) h ∧
      h.fon TIME_CTL.SYNC_EN 0 = true ∧ h.portLS0 p = true) ∧
    (∃ (s : State) (p : Nat), s.lstate p ≠ 1) ∧
    (∃ (s h : State) (p num t1 t2 t3 t4 : Nat) (rx : List (List Nat)) (asym : Int), p < 22 ∧ s.up = true ∧ s.Hears p kTIMING 10 rx
      (timingData 3 num t4) h ∧ t4 < 2 ^ 64 ∧ h.childOn p = true ∧ h.time.ex = some (num, t1, t2, t3) ∧ h.asymNs p = asym ∧
      (let st := h.fget TIME_STATUS.STATE 0; st = 0)) ∧
    (∃ (s h : State) (p num t1 t2 t3 t4 : Nat) (rx : List (List Nat)) (asym : Int), p < 22 ∧ s.up = true ∧ s.Hears p kTIMING 10 rx
      (timingData 3 num t4) h ∧ t4 < 2 ^ 64 ∧ h.childOn p = true ∧ h.time.ex = some (num, t1, t2, t3) ∧ h.asymNs p = asym ∧
      (let st := h.fget TIME_STATUS.STATE 0; st = 1 ∧ h.time.loaded = false)) ∧
    (∃ (s h : State) (p num t1 t2 t3 t4 : Nat) (rx : List (List Nat)) (asym : Int), p < 22 ∧ s.up = true ∧ s.Hears p kTIMING 10 rx
      (timingData 3 num t4) h ∧ t4 < 2 ^ 64 ∧ h.childOn p = true ∧ h.time.ex = some (num, t1, t2, t3) ∧ h.asymNs p = asym ∧
      (let offset : Int := (((t2 : Int) - t1) - ((t4 : Int) - t3) - asym).tdiv 2; (let st := h.fget TIME_STATUS.STATE 0; st = 1 ∧
      h.time.loaded = true ∧ 5 < offset.natAbs))) ∧
    (∃ (s h : State) (p num t1 t2 t3 t4 : Nat) (rx : List (List Nat)) (asym : Int), p < 22 ∧ s.up = true ∧ s.Hears p kTIMING 10 rx
      (timingData 3 num t4) h ∧ t4 < 2 ^ 64 ∧ h.childOn p = true ∧ h.time.ex = some (num, t1, t2, t3) ∧ h.asymNs p = asym ∧
      (let offset : Int := (((t2 : Int) - t1) - ((t4 : Int) - t3) - asym).tdiv 2; (let st := h.fget TIME_STATUS.STATE 0; st = 1 ∧
      h.time.loaded = true ∧ offset.natAbs ≤ 5 ∧ h.time.good < 3))) ∧
    (∃ (s h : State) (p num t1 t2 t3 t4 : Nat) (rx : List (List Nat)) (asym : Int), p < 22 ∧ s.up = true ∧ s.Hears p kTIMING 10 rx
      (timingData 3 num t4) h ∧ t4 < 2 ^ 64 ∧ h.childOn p = true ∧ h.time.ex = some (num, t1, t2, t3) ∧ h.asymNs p = asym ∧
      (let offset : Int := (((t2 : Int) - t1) - ((t4 : Int) - t3) - asym).tdiv 2; (let st := h.fget TIME_STATUS.STATE 0; st = 1 ∧
      h.time.loaded = true ∧ offset.natAbs ≤ 5 ∧ h.time.good = 3))) ∧
    (∃ (s h : State) (p num t1 t2 t3 t4 : Nat) (rx : List (List Nat)) (asym : Int), p < 22 ∧ s.up = true ∧ s.Hears p kTIMING 10 rx
      (timingData 3 num t4) h ∧ t4 < 2 ^ 64 ∧ h.childOn p = true ∧ h.time.ex = some (num, t1, t2, t3) ∧ h.asymNs p = asym ∧
      (let offset : Int := (((t2 : Int) - t1) - ((t4 : Int) - t3) - asym).tdiv 2; (let st := h.fget TIME_STATUS.STATE 0; st = 2 ∧
      offset.natAbs ≤ 1000))) ∧
    (∃ (s h : State) (p num t1 t2 t3 t4 : Nat) (rx : List (List Nat)) (asym : Int), p < 22 ∧ s.up = true ∧ s.Hears p kTIMING 10 rx
      (timingData 3 num t4) h ∧ t4 < 2 ^ 64 ∧ h.childOn p = true ∧ h.time.ex = some (num, t1, t2, t3) ∧ h.asymNs p = asym ∧
      (let offset : Int := (((t2 : Int) - t1) - ((t4 : Int) - t3) - asym).tdiv 2; (let st := h.fget TIME_STATUS.STATE 0; st = 2 ∧ 1000
      < offset.natAbs))) ∧
    (∃ (s h : State) (p num t1 t2 t3 t4 : Nat) (rx : List (List Nat)) (asym : Int), p < 22 ∧ s.up = true ∧ s.Hears p kTIMING 10 rx
      (timingData 3 num t4) h ∧ t4 < 2 ^ 64 ∧ h.childOn p = true ∧ h.time.ex = some (num, t1, t2, t3) ∧ h.asymNs p = asym ∧
      (let st := h.fget TIME_STATUS.STATE 0; st = 3)) :=
  ⟨⟨child 0, 3, by decide +kernel⟩,
   ⟨child 0, _, 3, 7, 5, said kTIMING (timingData 1 7 5), by decide +kernel, by decide +kernel, ⟨by decide +kernel, by decide +kernel,
     rfl⟩, by decide +kernel⟩,
   ⟨child 0, _, 3, 7, 0, said kTIMING (timingData 2 7 0), by decide +kernel, by decide +kernel, ⟨by decide +kernel, by decide +kernel,
     rfl⟩, by decide +kernel⟩,
   ⟨child 0, 3, by decide +kernel⟩,
   ⟨child 0, _, 3, 7, 0, 40, 60, 100, said kTIMING (timingData 3 7 100), 0, by decide +kernel, by decide +kernel, ⟨by decide +kernel,
     by decide +kernel, rfl⟩, by decide +kernel⟩,
   ⟨child 1, _, 3, 7, 0, 40, 60, 100, said kTIMING (timingData 3 7 100), 0, by decide +kernel, by decide +kernel, ⟨by decide +kernel,
     by decide +kernel, rfl⟩, by decide +kernel⟩,
   ⟨{ child 1 with time := { (child 1).time with loaded := true } }, _, 3, 7, 0, 40, 60, 70, said kTIMING (timingData 3 7 70), 0,
     by decide +kernel, by decide +kernel, ⟨by decide +kernel, by decide +kernel, rfl⟩, by decide +kernel⟩,
   ⟨{ child 1 with time := { (child 1).time with loaded := true } }, _, 3, 7, 0, 40, 60, 100, said kTIMING (timingData 3 7 100), 0,
     by decide +kernel, by decide +kernel, ⟨by decide +kernel, by decide +kernel, rfl⟩, by decide +kernel⟩,
   ⟨{ child 1 with time := { (child 1).time with loaded := true, good := 3 } }, _, 3, 7, 0, 40, 60, 90, said kTIMING (timingData 3 7
     90), 0, by decide +kernel, by decide +kernel, ⟨by decide +kernel, by decide +kernel, rfl⟩, by decide +kernel⟩,
   ⟨child 2, _, 3, 7, 0, 40, 60, 100, said kTIMING (timingData 3 7 100), 0, by decide +kernel, by decide +kernel, ⟨by decide +kernel,
     by decide +kernel, rfl⟩, by decide +kernel⟩,
   ⟨child 2, _, 3, 7, 0, 40, 60, 5000, said kTIMING (timingData 3 7 5000), 0, by decide +kernel, by decide +kernel, ⟨by decide +kernel,
     by decide +kernel, rfl⟩, by decide +kernel⟩,
   ⟨child 3, _, 3, 7, 0, 40, 60, 100, said kTIMING (timingData 3 7 100), 0, by decide +kernel, by decide +kernel, ⟨by decide +kernel,
     by decide +kernel, rfl⟩, by decide +kernel⟩⟩

/-- The hypotheses of each clause of `TimebaseEvents` are met. -/
theorem witness_timebaseEvents :
    (∃ (n : Nat), n < 4) ∧
    (∃ (s : State), s.pwr.on = true ∧ s.fget TIME_STATUS.STATE 0 = 2 ∧ s.fon TIME_CTL.ROOT 0 = false ∧ s.time.lastEx + 300000 <
      s.time.now) ∧
    (∃ (s : State), s.pwr.on = true ∧ s.fget TIME_STATUS.STATE 0 = 3 ∧ s.fon TIME_CTL.ROOT 0 = false ∧ s.time.holdT + 10000000 ≤
      s.time.now) ∧
    (∃ (s : State) (p : Nat), p < 22 ∧ s.up = true ∧ s.fon TIME_CTL.SYNC_EN 0 = true ∧ s.portLS01 p = true ∧
      (let vc := if isG p then 1 else 0; s.crossing p = false ∧ 2 ≤ s.credit p vc)) ∧
    (∃ (s : State) (p : Nat), p < 22 ∧ s.up = true ∧ s.fon TIME_CTL.SYNC_EN 0 = true ∧ s.portLS01 p = true ∧ s.crossing p = true) ∧
    (∃ (s : State) (p : Nat) (k : Pkt), p < 22 ∧ s.up = true ∧ pktSound k = true ∧ PH.TYPE.of k.hdr = tyTIME ∧ s.fget TIME_CTL.PARENT 0
      = p) ∧
    (∃ (s : State), s.pwr.on = true ∧ s.fon TIME_CTL.ROOT 0 = false ∧ s.time.parent = none) ∧
    (∃ (s : State) (st d t : Nat), s.pwr.on = true ∧ s.fon TIME_CTL.ROOT 0 = false ∧ s.time.parent = some (st, d, t) ∧ t + 3000000 <
      s.time.now) ∧
    (∃ (s : State) (d : Nat), d < 4 ∧ s.pwr.on = true ∧ s.time.replica.length = 4) ∧
    (∃ (s : State), s.up = true ∧ s.fget PWR_PSTATE.STATE 0 = 0) ∧
    (∃ (s : State), s.pwr.on = true ∧ s.diesOff = true) ∧
    (∃ (s : State) (k : Nat) (a : Armed), s.live = true ∧ s.time.armed[k]? = some a ∧ a.count ≤ s.count) :=
  ⟨⟨3, by decide +kernel⟩,
   ⟨{ child 2 with time := { (child 2).time with now := 300001 } }, by decide +kernel⟩,
   ⟨{ child 3 with time := { (child 3).time with now := 10000000 } }, by decide +kernel⟩,
   ⟨{ child 2 with fab := { on.fab with credits := [(24, 2)] } }, 3, by decide +kernel⟩,
   ⟨{ child 2 with fab := { on.fab with cross := [⟨3, 0, mkPkt [] [], 1, 0, 0⟩] } }, 3, by decide +kernel⟩,
   ⟨child 2, 3, mkPkt [(PH.TYPE, tyTIME)] [6], by decide +kernel⟩,
   ⟨on, by decide +kernel⟩,
   ⟨{ on with time := { on.time with now := 3000001, parent := some (2, 0, 0) } }, 2, 0, 0, by decide +kernel⟩,
   ⟨on, 3, by decide +kernel⟩,
   ⟨on, by decide +kernel⟩,
   ⟨at_ [(PWR_PSTATE.STATE, 0, 2)], by decide +kernel⟩,
   ⟨{ on with time := { on.time with armed := [⟨0, 1, 0, 0, false⟩] } }, 0, ⟨0, 1, 0, 0, false⟩, by decide +kernel⟩⟩

/-- The hypotheses of each clause of `BootStepStarts` are met. -/
theorem witness_bootStepStarts :
    (∃ (s : State) (w : Who) (v : Nat), s.reaches w = true ∧ s.barred w .GCTL_BOOT_CTL 0 v = .none ∧ s.isStatus .GCTL_BOOT_CTL 0 v =
      false ∧ GCTL_BOOT_CTL.WRESET.bit v = true) ∧
    (∃ (s : State) (w : Who) (v : Nat), s.reaches w = true ∧ s.barred w .GCTL_BOOT_CTL 0 v = .none ∧ s.isStatus .GCTL_BOOT_CTL 0 v =
      false ∧ (let k := GCTL_BOOT_CTL.STEP.val v; GCTL_BOOT_CTL.GO.bit v = true ∧ GCTL_BOOT_CTL.WRESET.bit v = false ∧ s.fget
      GCTL_BOOT_STAT.RESULT 0 ≠ 0 ∧ s.passed k = false ∧ k = 2 ∧ s.passed 1 = true)) ∧
    (∃ (s : State) (w : Who) (v : Nat), s.reaches w = true ∧ s.barred w .GCTL_BOOT_CTL 0 v = .none ∧ s.isStatus .GCTL_BOOT_CTL 0 v =
      false ∧ (let k := GCTL_BOOT_CTL.STEP.val v; GCTL_BOOT_CTL.GO.bit v = true ∧ GCTL_BOOT_CTL.WRESET.bit v = false ∧ s.fget
      GCTL_BOOT_STAT.RESULT 0 ≠ 0 ∧ s.passed k = false ∧ k = 3 ∧ s.passed 2 = true)) ∧
    (∃ (s : State) (w : Who) (v : Nat), s.reaches w = true ∧ s.barred w .GCTL_BOOT_CTL 0 v = .none ∧ s.isStatus .GCTL_BOOT_CTL 0 v =
      false ∧ (let k := GCTL_BOOT_CTL.STEP.val v; GCTL_BOOT_CTL.GO.bit v = true ∧ GCTL_BOOT_CTL.WRESET.bit v = false ∧ s.fget
      GCTL_BOOT_STAT.RESULT 0 ≠ 0 ∧ s.passed k = false ∧ k = 4 ∧ s.passed 3 = true ∧ GCTL_BOOT_CTL.SAFE.bit v = true)) ∧
    (∃ (s : State) (w : Who) (v : Nat), s.reaches w = true ∧ s.barred w .GCTL_BOOT_CTL 0 v = .none ∧ s.isStatus .GCTL_BOOT_CTL 0 v =
      false ∧ (let k := GCTL_BOOT_CTL.STEP.val v; GCTL_BOOT_CTL.GO.bit v = true ∧ GCTL_BOOT_CTL.WRESET.bit v = false ∧ s.fget
      GCTL_BOOT_STAT.RESULT 0 ≠ 0 ∧ s.passed k = false ∧ k = 8 ∧ s.passed 4 = true ∧ s.fon MEM_TRAIN.BUSY 0 = false ∧ s.fget
      MEM_TRAIN.DONE 0 = 4095)) ∧
    (∃ (s : State) (w : Who) (v : Nat), s.reaches w = true ∧ s.barred w .GCTL_BOOT_CTL 0 v = .none ∧ s.isStatus .GCTL_BOOT_CTL 0 v =
      false ∧ (let k := GCTL_BOOT_CTL.STEP.val v; GCTL_BOOT_CTL.GO.bit v = true ∧ GCTL_BOOT_CTL.WRESET.bit v = false ∧ s.fget
      GCTL_BOOT_STAT.RESULT 0 ≠ 0 ∧ s.passed k = false ∧ k = 9 ∧ s.passed 8 = true)) ∧
    (∃ (s : State) (w : Who) (v : Nat), s.reaches w = true ∧ s.barred w .GCTL_BOOT_CTL 0 v = .none ∧ s.isStatus .GCTL_BOOT_CTL 0 v =
      false ∧ (let k := GCTL_BOOT_CTL.STEP.val v; GCTL_BOOT_CTL.GO.bit v = true ∧ GCTL_BOOT_CTL.WRESET.bit v = false ∧ s.fget
      GCTL_BOOT_STAT.RESULT 0 ≠ 0 ∧ s.passed k = false ∧ k = 10 ∧ s.passed 9 = true)) ∧
    (∃ (s : State) (w : Who) (v : Nat), s.reaches w = true ∧ s.barred w .GCTL_BOOT_CTL 0 v = .none ∧ s.isStatus .GCTL_BOOT_CTL 0 v =
      false ∧ (let k := GCTL_BOOT_CTL.STEP.val v; GCTL_BOOT_CTL.GO.bit v = true ∧ GCTL_BOOT_CTL.WRESET.bit v = false ∧ s.fget
      GCTL_BOOT_STAT.RESULT 0 ≠ 0 ∧ s.passed k = false ∧ k = 10 ∧ s.passed 8 = true ∧ s.fon GCTL_BOOT_STAT.FAST 0 = true)) ∧
    (∃ (s : State) (w : Who) (v : Nat), s.reaches w = true ∧ s.barred w .GCTL_BOOT_CTL 0 v = .none ∧ s.isStatus .GCTL_BOOT_CTL 0 v =
      false ∧ (let k := GCTL_BOOT_CTL.STEP.val v; GCTL_BOOT_CTL.GO.bit v = true ∧ GCTL_BOOT_CTL.WRESET.bit v = false ∧ s.fget
      GCTL_BOOT_STAT.RESULT 0 ≠ 0 ∧ s.passed k = false ∧ k = 11 ∧ s.passed 10 = true)) :=
  ⟨⟨on, .s, wd [(GCTL_BOOT_CTL.WRESET, 1)], by decide +kernel⟩,
   ⟨at_ [(GCTL_BOOT_STAT.RESULT, 0, 1), (GCTL_BOOT_STAT.PASSED, 0, 2)], .s, wd [(GCTL_BOOT_CTL.GO, 1), (GCTL_BOOT_CTL.STEP, 2)],
     by decide +kernel⟩,
   ⟨at_ [(GCTL_BOOT_STAT.RESULT, 0, 1), (GCTL_BOOT_STAT.PASSED, 0, 6)], .s, wd [(GCTL_BOOT_CTL.GO, 1), (GCTL_BOOT_CTL.STEP, 3)],
     by decide +kernel⟩,
   ⟨at_ [(GCTL_BOOT_STAT.RESULT, 0, 1), (GCTL_BOOT_STAT.PASSED, 0, 14)], .s, wd [(GCTL_BOOT_CTL.GO, 1), (GCTL_BOOT_CTL.STEP, 4),
     (GCTL_BOOT_CTL.SAFE, 1)], by decide +kernel⟩,
   ⟨at_ [(GCTL_BOOT_STAT.RESULT, 0, 1), (GCTL_BOOT_STAT.PASSED, 0, 30), (MEM_TRAIN.DONE, 0, 4095)], .s, wd [(GCTL_BOOT_CTL.GO, 1),
     (GCTL_BOOT_CTL.STEP, 8)], by decide +kernel⟩,
   ⟨at_ [(GCTL_BOOT_STAT.RESULT, 0, 1), (GCTL_BOOT_STAT.PASSED, 0, 286)], .s, wd [(GCTL_BOOT_CTL.GO, 1), (GCTL_BOOT_CTL.STEP, 9)],
     by decide +kernel⟩,
   ⟨at_ [(GCTL_BOOT_STAT.RESULT, 0, 1), (GCTL_BOOT_STAT.PASSED, 0, 798)], .s, wd [(GCTL_BOOT_CTL.GO, 1), (GCTL_BOOT_CTL.STEP, 10)],
     by decide +kernel⟩,
   ⟨at_ [(GCTL_BOOT_STAT.RESULT, 0, 1), (GCTL_BOOT_STAT.PASSED, 0, 286), (GCTL_BOOT_STAT.FAST, 0, 1)], .s, wd [(GCTL_BOOT_CTL.GO, 1),
     (GCTL_BOOT_CTL.STEP, 10)], by decide +kernel⟩,
   ⟨at_ [(GCTL_BOOT_STAT.RESULT, 0, 1), (GCTL_BOOT_STAT.PASSED, 0, 1822)], .s, wd [(GCTL_BOOT_CTL.GO, 1), (GCTL_BOOT_CTL.STEP, 11)],
     by decide +kernel⟩⟩

/-- The hypotheses of each clause of `BootStepEnds` are met. -/
theorem witness_bootStepEnds :
    (∃ (s : State), s.hubUp = true ∧ s.fget GCTL_BOOT_STAT.RESULT 0 = 0 ∧ s.fget GCTL_BOOT_STAT.STEP 0 = 1 ∧ s.fget GCTL_PART_ID.GRADE
      0 = 15) ∧
    (∃ (s : State), s.hubUp = true ∧ s.fget GCTL_BOOT_STAT.RESULT 0 = 0 ∧ s.fget GCTL_BOOT_STAT.STEP 0 = 2 ∧ s.fget SEC_LIFE.LCS 0 ≠ 4
      ∧ s.fget SEC_FWU_STAT.STATE 0 ≠ 5 ∧ s.bundleCode s.stagedBytes true ≠ 0) ∧
    (∃ (s : State) (o : BootIn), s.hubUp = true ∧ s.fget GCTL_BOOT_STAT.RESULT 0 = 0 ∧ s.fget GCTL_BOOT_STAT.STEP 0 = 3 ∧ s.fget
      SEC_ID_STAT.STATE 0 ≠ 1 ∧ s.fuse.epochs + o.burns < 32768) ∧
    (∃ (s : State) (o : BootIn), s.hubUp = true ∧ s.fget GCTL_BOOT_STAT.RESULT 0 = 0 ∧ s.fget GCTL_BOOT_STAT.STEP 0 = 3 ∧ s.fget
      SEC_ID_STAT.STATE 0 ≠ 1 ∧ 32768 ≤ s.fuse.epochs + o.burns) ∧
    (∃ (s : State), s.hubUp = true ∧ s.fget GCTL_BOOT_STAT.RESULT 0 = 0 ∧ s.fget GCTL_BOOT_STAT.STEP 0 = 4 ∧ s.boot.recorded = false ∧
      s.boot.stepSafe = true) ∧
    (∃ (s : State), s.hubUp = true ∧ s.fget GCTL_BOOT_STAT.RESULT 0 = 0 ∧ s.fget GCTL_BOOT_STAT.STEP 0 = 8 ∧ s.gatherImage = none) ∧
    (∃ (s : State) (o : BootIn), s.hubUp = true ∧ s.fget GCTL_BOOT_STAT.RESULT 0 = 0 ∧ s.fget GCTL_BOOT_STAT.STEP 0 = 9 ∧ o.rows = [] ∧
      o.sites = [] ∧ o.delays = [] ∧ o.wakes = []) ∧
    (∃ (s : State), s.hubUp = true ∧ s.fget GCTL_BOOT_STAT.RESULT 0 = 0 ∧ s.fget GCTL_BOOT_STAT.STEP 0 = 11) :=
  ⟨⟨at_ [(GCTL_BOOT_STAT.RESULT, 0, 0), (GCTL_BOOT_STAT.STEP, 0, 1), (GCTL_PART_ID.GRADE, 0, 15)], by decide +kernel⟩,
   ⟨at_ [(GCTL_BOOT_STAT.RESULT, 0, 0), (GCTL_BOOT_STAT.STEP, 0, 2)], by decide +kernel⟩,
   ⟨at_ [(GCTL_BOOT_STAT.RESULT, 0, 0), (GCTL_BOOT_STAT.STEP, 0, 3)], ⟨32767, [], [], [], [], [], []⟩, by decide +kernel⟩,
   ⟨at_ [(GCTL_BOOT_STAT.RESULT, 0, 0), (GCTL_BOOT_STAT.STEP, 0, 3)], ⟨32768, [], [], [], [], [], []⟩, by decide +kernel⟩,
   ⟨{ at_ [(GCTL_BOOT_STAT.RESULT, 0, 0), (GCTL_BOOT_STAT.STEP, 0, 4)] with boot := { on.boot with stepSafe := true } },
     by decide +kernel⟩,
   ⟨at_ [(GCTL_BOOT_STAT.RESULT, 0, 0), (GCTL_BOOT_STAT.STEP, 0, 8)], by decide +kernel⟩,
   ⟨at_ [(GCTL_BOOT_STAT.RESULT, 0, 0), (GCTL_BOOT_STAT.STEP, 0, 9)], ⟨0, [], [], [], [], [], []⟩, by decide +kernel⟩,
   ⟨at_ [(GCTL_BOOT_STAT.RESULT, 0, 0), (GCTL_BOOT_STAT.STEP, 0, 11)], by decide +kernel⟩⟩

/-- The hypotheses of each clause of `StagingAndCalibration` are met. -/
theorem witness_stagingAndCalibration :
    (∃ (s : State) (off : Nat), s.reaches .s = true ∧ off % 8 = 0 ∧ off < 4194304 ∧ s.passed 4 = false ∧ s.fget GCTL_BOOT_STAT.RESULT 0
      ≠ 0) ∧
    (∃ (s : State) (off : Nat), s.reaches .s = true ∧ off % 8 = 0 ∧ off < 4194304 ∧ ((s.passed 4 = true ∨ s.fget GCTL_BOOT_STAT.RESULT
      0 = 0))) ∧
    (∃ (s : State) (off : Nat), s.reaches .ns = true ∧ off % 8 = 0 ∧ off < 4194304) ∧
    (∃ (s : State) (off : Nat), s.reaches .fw = true ∧ off % 8 = 0 ∧ off < 4194304) ∧
    (∃ (s : State) (off v k : Nat), s.reaches .s = true ∧ off % 8 = 0 ∧ calSection off = some k ∧ s.fon CAL_STAT.OPEN 0 = true ∧
      calValueOk k off (v % 2 ^ 64) = true) ∧
    (∃ (s : State) (off v k : Nat), s.reaches .s = true ∧ off % 8 = 0 ∧ calSection off = some k ∧ ((s.fon CAL_STAT.OPEN 0 = false ∨
      calValueOk k off (v % 2 ^ 64) = false))) ∧
    (∃ (s : State) (off k : Nat), s.reaches .ns = true ∧ off % 8 = 0 ∧ calSection off = some k) :=
  ⟨⟨at_ [(GCTL_BOOT_STAT.RESULT, 0, 1)], 4194296, by decide +kernel⟩,
   ⟨at_ [(GCTL_BOOT_STAT.RESULT, 0, 0)], 0, by decide +kernel⟩,
   ⟨on, 8, by decide +kernel⟩,
   ⟨on, 8, by decide +kernel⟩,
   ⟨at_ [(CAL_STAT.OPEN, 0, 1)], 0x56D0, 7, 3, by decide +kernel⟩,
   ⟨at_ [(CAL_STAT.OPEN, 0, 1)], 0x5000, 8, 3, by decide +kernel⟩,
   ⟨on, 0x17E58, 5, by decide +kernel⟩⟩

/-- The hypotheses of each clause of `PowerStage` are met. -/
theorem witness_powerStage :
    (∃ (s : State), s.pwr.on = false ∧ s.pwr.starting = false ∧ s.pwr.offT = none) ∧
    (∃ (s : State) (t : Nat), s.pwr.on = false ∧ s.pwr.starting = false ∧ s.pwr.offT = some t ∧ t + 100000000 ≤ s.time.now) ∧
    (∃ (s : State), (s.pwr.on = true ∨ s.pwr.starting = true)) ∧
    (∃ (s : State) (grade tray slot : Nat), s.pwr.starting = true ∧ s.pwr.on = false ∧ grade < 15 ∧ tray < 16 ∧ slot < 4 ∧ s.fget
      GCTL_BOOT_STAT.STEP 0 = 1) ∧
    (∃ (s : State), s.pwr.starting = true ∧ s.pwr.on = false) ∧
    (∃ (s : State) (m : Nat), m < 4 ∧ s.pwr.on = true ∧ s.cfe.ucie.testBit m = true) :=
  ⟨⟨State.reset, by decide +kernel⟩,
   ⟨{ State.reset with pwr := { State.reset.pwr with offT := some 0 }, time := { State.reset.time with now := 100000000 } }, 0,
     by decide +kernel⟩,
   ⟨on, by decide +kernel⟩,
   ⟨{ at_ [(GCTL_BOOT_STAT.STEP, 0, 1)] State.reset with pwr := { State.reset.pwr with starting := true } }, 14, 15, 3,
     by decide +kernel⟩,
   ⟨{ State.reset with pwr := { State.reset.pwr with starting := true } }, by decide +kernel⟩,
   ⟨on, 3, by decide +kernel⟩⟩

/-- The hypotheses of each clause of `PowerInput` are met. -/
theorem witness_powerInput :
    (∃ (s : State) (v bank : Nat), s.pwr.on = true ∧ 3350 ≤ v ∧ v ≤ 4000 ∧ 3400 ≤ bank ∧ s.fon PWR_STATUS.HOLD 0 = false ∧
      s.pwr.settling = false ∧ s.mgmt.thresholds = [] ∧ s.pwr.nSum < 9999) ∧
    (∃ (s : State) (v bank : Nat), s.up = true ∧ 2900 ≤ v ∧ v < 3300 ∧ 3400 ≤ bank ∧ s.fon PWR_STATUS.HOLD 0 = false ∧ s.pwr.nLow = 1 ∧
      s.pwr.settling = false ∧ s.mgmt.thresholds = []) ∧
    (∃ (s : State) (v : Nat), s.pwr.on = true ∧ v < 2900 ∧ s.pwr.nCrit = 1 ∧ s.pwr.settling = false ∧ s.mgmt.thresholds = [] ∧
      s.mgmt.receiver = none) ∧
    (∃ (s : State), s.pwr.on = true ∧ s.fon PWR_STATUS.HOLD 0 = true ∧ s.pwr.holdT + 5000000 ≤ s.time.now) :=
  ⟨⟨on, 3350, 3400, by decide +kernel⟩,
   ⟨{ on with pwr := { on.pwr with nLow := 1 } }, 3299, 3400, by decide +kernel⟩,
   ⟨{ on with pwr := { on.pwr with nCrit := 1 } }, 2899, by decide +kernel⟩,
   ⟨{ at_ [(PWR_STATUS.HOLD, 0, 1)] with time := { on.time with now := 5000000 } }, by decide +kernel⟩⟩

/-- The hypotheses of each clause of `PowerRails` are met. -/
theorem witness_powerRails :
    (∃ (s : State) (r : Nat), r < 9 ∧ s.pwr.on = true ∧ tget s.pwr.limT r 0 = 0) ∧
    (∃ (s : State) (r : Nat), 9 ≤ r ∧ r < 11 ∧ s.pwr.on = true) ∧
    (∃ (s : State) (r ph : Nat), r < 11 ∧ s.pwr.on = true ∧ ph < phasesAll r ∧ s.inCullet 6 (r + 16 * ph) = false) ∧
    (∃ (s : State) (r : Nat), r < 11 ∧ 1 < s.fget PWR_RAIL.PH_IN r ∧ s.fget PWR_RAIL.PH_IN r ≤ phasesAll r) ∧
    (∃ (s : State) (r : Nat), r < 11 ∧ s.pwr.on = true) ∧
    (∃ (s : State) (w : Who) (r : Nat), r < 11 ∧ s.reaches w = true ∧ w ≠ .ns) ∧
    (∃ (s : State) (w : Who), s.reaches w = true ∧ w ≠ .ns) :=
  ⟨⟨on, 8, by decide +kernel⟩,
   ⟨on, 9, by decide +kernel⟩,
   ⟨on, 10, 0, by decide +kernel⟩,
   ⟨at_ [(PWR_RAIL.PH_IN, 0, 2)], 0, by decide +kernel⟩,
   ⟨on, 10, by decide +kernel⟩,
   ⟨on, .s, 10, by decide +kernel⟩,
   ⟨on, .mc, by decide +kernel⟩⟩

/-- The hypotheses of each clause of `PowerCaps` are met. -/
theorem witness_powerCaps :
    (∃ (s : State) (w : Who) (v : Nat), s.reaches w = true ∧ s.barred w .PWR_POLICY 0 v = .none ∧ s.isStatus .PWR_POLICY 0 v = false ∧
      policyBad v = false) ∧
    (∃ (s : State), s.pwr.on = true ∧ s.fon PWR_RACK.HB_ARMED 0 = true ∧ s.fon PWR_RACK.AUTO 0 = false ∧ s.pwr.hbT + 2000000000 ≤
      s.time.now) ∧
    (∃ (s : State), s.up = true) ∧
    (∃ (s : State), s.up = true ∧ s.fget PWR_STATUS.PIN 0 < 500 ∧ s.inlet < s.fget PWR_POLICY.TTARGET 0 ∧ s.fget PWR_THERM.THETA 0 ≠ 0
      ∧ ((s.fget PWR_POLICY.TTARGET 0 - s.inlet) * 100000) % s.fget PWR_THERM.THETA 0 = 0 ∧ ((s.fget PWR_POLICY.TTARGET 0 - s.inlet) *
      100000) / s.fget PWR_THERM.THETA 0 < 65536) ∧
    (∃ (s : State), s.up = true ∧ s.fget PWR_STATUS.PIN 0 < 500 ∧ s.fget PWR_POLICY.TTARGET 0 ≤ s.inlet) :=
  ⟨⟨on, .s, wd [(PWR_POLICY.CAP, 4000), (PWR_POLICY.TTARGET, 60), (PWR_POLICY.SAFE_CAP, 500), (PWR_POLICY.FLOW_SET, 200)],
     by decide +kernel⟩,
   ⟨{ at_ [(PWR_RACK.HB_ARMED, 0, 1)] with time := { on.time with now := 2000000000 } }, by decide +kernel⟩,
   ⟨on, by decide +kernel⟩,
   ⟨at_ [(PWR_THERM.THETA, 0, 1000), (PWR_POLICY.TTARGET, 0, 75)], by decide +kernel⟩,
   ⟨at_ [(PWR_POLICY.TTARGET, 0, 40)], by decide +kernel⟩⟩

/-- The hypotheses of each clause of `EcapValue` are met. -/
theorem witness_ecapValue :
    (∃ (s : State) (m : Nat), s.held = false ∧ m =
      (let a := min 4000 (min (s.fget PWR_RACK.RCAP 0) (min (s.fget PWR_POLICY.CAP 0) (s.fget PWR_THERM.TCAP 0))); if s.fon
      PWR_RACK.AUTO 0 then min a (min s.pwr.rcapLoss (s.fget PWR_POLICY.SAFE_CAP 0)) else a) ∧ s.fget PWR_EVT.FLOOR 0 < 65536 ∧
      s.recap.fget PWR_STATUS.BIND 0 = 0) ∧
    (∃ (s : State) (m : Nat), s.held = false ∧ m =
      (let a := min 4000 (min (s.fget PWR_RACK.RCAP 0) (min (s.fget PWR_POLICY.CAP 0) (s.fget PWR_THERM.TCAP 0))); if s.fon
      PWR_RACK.AUTO 0 then min a (min s.pwr.rcapLoss (s.fget PWR_POLICY.SAFE_CAP 0)) else a) ∧ s.fget PWR_EVT.FLOOR 0 < 65536 ∧
      s.recap.fget PWR_STATUS.BIND 0 = 1) ∧
    (∃ (s : State) (m : Nat), s.held = false ∧ m =
      (let a := min 4000 (min (s.fget PWR_RACK.RCAP 0) (min (s.fget PWR_POLICY.CAP 0) (s.fget PWR_THERM.TCAP 0))); if s.fon
      PWR_RACK.AUTO 0 then min a (min s.pwr.rcapLoss (s.fget PWR_POLICY.SAFE_CAP 0)) else a) ∧ s.fget PWR_EVT.FLOOR 0 < 65536 ∧
      s.recap.fget PWR_STATUS.BIND 0 = 2) ∧
    (∃ (s : State) (m : Nat), s.held = false ∧ m =
      (let a := min 4000 (min (s.fget PWR_RACK.RCAP 0) (min (s.fget PWR_POLICY.CAP 0) (s.fget PWR_THERM.TCAP 0))); if s.fon
      PWR_RACK.AUTO 0 then min a (min s.pwr.rcapLoss (s.fget PWR_POLICY.SAFE_CAP 0)) else a) ∧ s.fget PWR_EVT.FLOOR 0 < 65536 ∧
      s.recap.fget PWR_STATUS.BIND 0 = 3) ∧
    (∃ (s : State) (m : Nat), s.held = false ∧ m =
      (let a := min 4000 (min (s.fget PWR_RACK.RCAP 0) (min (s.fget PWR_POLICY.CAP 0) (s.fget PWR_THERM.TCAP 0))); if s.fon
      PWR_RACK.AUTO 0 then min a (min s.pwr.rcapLoss (s.fget PWR_POLICY.SAFE_CAP 0)) else a) ∧ s.fget PWR_EVT.FLOOR 0 < 65536 ∧
      s.recap.fget PWR_STATUS.BIND 0 = 4) :=
  ⟨⟨at_ [(PWR_RACK.RCAP, 0, 4000), (PWR_POLICY.CAP, 0, 4000), (PWR_THERM.TCAP, 0, 4000)], 4000, by decide +kernel⟩,
   ⟨at_ [(PWR_RACK.RCAP, 0, 3000), (PWR_POLICY.CAP, 0, 4000), (PWR_THERM.TCAP, 0, 4000)], 3000, by decide +kernel⟩,
   ⟨at_ [(PWR_RACK.RCAP, 0, 4000), (PWR_POLICY.CAP, 0, 3000), (PWR_THERM.TCAP, 0, 4000)], 3000, by decide +kernel⟩,
   ⟨{ at_ [(PWR_RACK.RCAP, 0, 4000), (PWR_POLICY.CAP, 0, 4000), (PWR_THERM.TCAP, 0, 4000), (PWR_RACK.AUTO, 0, 1), (PWR_POLICY.SAFE_CAP, 0, 900)] with pwr := { on.pwr with rcapLoss := 4000 } },
     900, by decide +kernel⟩,
   ⟨at_ [(PWR_RACK.RCAP, 0, 4000), (PWR_POLICY.CAP, 0, 4000), (PWR_THERM.TCAP, 0, 3000)], 3000, by decide +kernel⟩⟩

/-- Both sensors of hot spot 16 read `x`. -/
def warm (x : Int) : State := { on with pwr := { on.pwr with sensors := [(32, ⟨x, 0, false, 0⟩), (33, ⟨x, 0, false, 0⟩)] } }

/-- The hypotheses of each clause of `PowerThermal` are met. -/
theorem witness_powerThermal :
    (∃ (s : State) (d : Nat) (x : Int), d < 4 ∧ s.pwr.on = true ∧ s.hottest (dieSpots d) = some x ∧ s.throttleAt ≤ x ∧ x < 103) ∧
    (∃ (s : State) (d : Nat) (x : Int), d < 4 ∧ s.pwr.on = true ∧ s.hottest (dieSpots d) = some x ∧ x < s.throttleAt - 2 ∧ x < 103) ∧
    (∃ (s : State) (h : Nat) (x : Int), h < 73 ∧ s.pwr.on = true ∧ -10 ≤ x ∧ x ≤ 150 ∧ tfind s.pwr.sensors (2 * h) = none ∧ tfind
      s.pwr.sensors (2 * h + 1) = none) ∧
    (∃ (s : State) (h : Nat), h < 72 ∧ s.pwr.on = true ∧ s.fget PWR_PSTATE.STATE 0 ≠ 4) ∧
    (∃ (s : State), s.up = true ∧ s.fon PWR_POLICY.ADAPT 0 = false ∧ s.fon GCTL_BOOT_STAT.SAFE_MODE 0 = false ∧ s.fget
      PWR_POLICY.VS_MIN 0 ≤ s.fget PWR_POLICY.VS_MAX 0 ∧ s.fget PWR_POLICY.VS_MAX 0 < 15 ∧ s.fon PWR_PSTATE.LEHR_EN 0 = false ∧
      s.pwr.capStep = [15, 15, 15, 15] ∧ s.pwr.lowering = [false, false, false, false] ∧ s.pwr.vs.length = 4 ∧ s.fget PWR_EVT.CLIP 0 <
      65536) ∧
    (∃ (s : State) (k other d hint t : Nat) (pred : List Nat), d < 4 ∧ s.live = true ∧ s.core.hints[k]? = some (d, hint, t) ∧ hintDue
      hint t ≤ s.time.now ∧ s.fon PWR_POLICY.HINT_EN 0 = true ∧ s.fget PWR_POLICY.VS_MIN 0 ≤ s.fget PWR_POLICY.VS_MAX 0 ∧
      s.pwr.lowering.getD d false = false ∧ s.pwr.capStep.length = 4 ∧ (let v := s.policyStep (s.fget PWR_POLICY.VS_MAX 0); hint % 16 *
      pred.getD v 0 ≤ 16 * ((s.fget PWR_STATUS.ECAP 0 - other) / 4) ∧ s.pwr.vs.getD d 0 < v)) :=
  ⟨⟨warm 95, 1, 95, by decide +kernel⟩,
   ⟨warm 92, 1, 92, by decide +kernel⟩,
   ⟨on, 72, 150, by decide +kernel⟩,
   ⟨on, 71, by decide +kernel⟩,
   ⟨at_ [(PWR_POLICY.ADAPT, 0, 0)], by decide +kernel⟩,
   ⟨{ at_ [(PWR_POLICY.HINT_EN, 0, 1), (PWR_POLICY.VS_MAX, 0, 10), (PWR_STATUS.ECAP, 0, 400)] with core := { on.core with hints := [(3, 0xF0, 0)] } },
     0, 0, 3, 0xF0, 0, [0, 0, 0, 0, 0, 0, 0, 0, 0, 0, 100], by decide +kernel⟩⟩

/-- A tray frame of its number, two temperatures and flow. -/
def frame (n tin tout flow : Nat) : List Byte :=
  let b := leBytes 2 n ++ leBytes 2 tin ++ leBytes 2 tout ++ leBytes 2 flow ++ zeros 3
  b ++ leBytes 1 (crc8 b)

/-- The hypotheses of each clause of `CoolantAndIdle` are met. -/
theorem witness_coolantAndIdle :
    (∃ (s : State), s.pwr.on = true ∧ s.pwr.stale = false ∧ s.pwr.cool = none ∧ s.pwr.onT + 1000000000 ≤ s.time.now) ∧
    (∃ (s : State) (b : List Byte), s.i3cUp = true ∧ s.frameOk b = true ∧ s.fon PWR_STATUS.FLOW_HOLD 0 = false ∧ s.up = true ∧ leAt b 6
      2 < s.fget PWR_POLICY.FLOW_SET 0) ∧
    (∃ (s : State) (b : List Byte), s.i3cUp = true ∧ s.frameOk b = true ∧ s.fon PWR_STATUS.FLOW_HOLD 0 = false ∧ s.pwr.cool = none ∧
      s.fget PWR_POLICY.FLOW_SET 0 ≤ leAt b 6 2 ∧ leAt b 2 2 < 25500 ∧ leAt b 4 2 < 25500 ∧ leAt b 6 2 < 1278) ∧
    (∃ (s : State) (idleNs quietNs : Nat), s.live = true ∧ s.idle = true ∧ 10000 ≤ idleNs ∧ quietNs < 1000000 ∧ 30 ≤ s.tolerance ∧
      s.fget PWR_PSTATE.STATE 0 = 0 ∧ s.fon PWR_PSTATE.LEHR_EN 0 = false) ∧
    (∃ (s : State), s.up = true ∧ (s.fget PWR_PSTATE.STATE 0 = 1 ∨ s.fget PWR_PSTATE.STATE 0 = 2)) ∧
    (∃ (s : State) (w : Who) (v : Nat), s.reaches w = true ∧ s.barred w .PWR_PSTATE 0 v = .none ∧ PWR_PSTATE.PS4_REQ.bit v = true ∧
      s.isStatus .PWR_PSTATE 0 v = false ∧ s.anyLaunched = false ∧ 20 ≤ PWR_PSTATE.LEHR_FLOOR.val v ∧ PWR_PSTATE.LEHR_FLOOR.val v ≤ 70) :=
  ⟨⟨{ on with time := { on.time with now := 1000000000 } }, by decide +kernel⟩,
   ⟨on, frame 1 3000 4000 19, by decide +kernel⟩,
   ⟨at_ [(PWR_POLICY.FLOW_SET, 0, 20)], frame 1 25499 25499 1277, by decide +kernel⟩,
   ⟨at_ [(CFE_WAKE.WAKE, 0, 30)], 10000, 999999, by decide +kernel⟩,
   ⟨at_ [(PWR_PSTATE.STATE, 0, 2)], by decide +kernel⟩,
   ⟨on, .s, wd [(PWR_PSTATE.PS4_REQ, 1), (PWR_PSTATE.LEHR_FLOOR, 70)], by decide +kernel⟩⟩

/-- Logical core 0 stands on site 0, and its cluster's spare at position `sp`. -/
def mapped (sp : Nat := 8) (l : List (Fld × Nat × Nat) := []) : State :=
  at_ ([(SPARE_CMAP.VALID, 0, 1), (SPARE_CMAP.ABSENT, 0, 0), (SPARE_CMAP.PCLUST, 0, 0), (SPARE_CMAP.M0, 0, 0), (SPARE_CMAP.SPARE_POS, 0, sp)] ++ l)

/-- The same with a core that is being fenced or drained. -/
def fencing (d : Bool) (sp : Nat := 8) : State := { mapped sp with spare := { on.spare with fencing := [⟨0, 0, 3, d⟩] } }

/-- The hypotheses of each clause of `SpareFencing` are met. -/
theorem witness_spareFencing :
    (∃ (s : State) (site l : Nat), site < 2304 ∧ s.hubUp = true ∧ s.spare.fenced.contains site = false ∧ s.siteCore site = some l ∧
      s.siteCtxs site = []) ∧
    (∃ (s : State) (site : Nat) (f : Fencing), site < 2304 ∧ s.hubUp = true ∧ (s.spare.fencing.find? (fun f => decide (f.site = site)
      && !f.drain) = some f) ∧ s.fget SPARE_CMAP.SPARE_POS (f.lcore / 8) = 15) ∧
    (∃ (s : State) (site sp : Nat) (f : Fencing), site < 2304 ∧ s.hubUp = true ∧ (s.spare.fencing.find? (fun f => decide (f.site =
      site) && !f.drain) = some f) ∧ s.fget SPARE_CMAP.SPARE_POS (f.lcore / 8) = sp ∧ sp < 9) ∧
    (∃ (s : State) (w : Who) (v site l : Nat), s.reaches w = true ∧ s.barred w .SPARE_FENCE 0 v = .none ∧ s.isStatus .SPARE_FENCE 0 v =
      false ∧ s.fenceGoBad v = false ∧ SPARE_FENCE.GO.bit v = true ∧ SPARE_FENCE.CANCEL.bit v = false ∧ SPARE_FENCE.KIND.val v = 1 ∧
      SPARE_FENCE.DRAIN.bit v = true ∧ unitSite (SPARE_FENCE.UNIT.val v) = some site ∧
      (let u := (s.clrW1C .SPARE_FENCE 0 v).putRW .SPARE_FENCE 0 v; u.inCullet 1 (SPARE_FENCE.UNIT.val v) = false ∧ u.siteCore site =
      some l)) ∧
    (∃ (s : State) (w : Who) (v site l : Nat), s.reaches w = true ∧ s.barred w .SPARE_FENCE 0 v = .none ∧ s.isStatus .SPARE_FENCE 0 v =
      false ∧ SPARE_FENCE.GO.bit v = false ∧ SPARE_FENCE.CANCEL.bit v = true ∧ s.spare.fencing = [⟨l, site, 3, true⟩]) ∧
    (∃ (s : State) (site l o : Nat), site < 2304 ∧ s.hubUp = true ∧ s.core.rsds = [] ∧ s.spare.fencing = [⟨l, site, o, true⟩]) ∧
    (∃ (s : State) (site ps base : Nat), site < 2304 ∧ s.hubUp = true ∧ s.fget SPARE_WEAR.USE site ≤ 1 ∧ s.fon GCTL_BOOT_STAT.SAFE_MODE
      0 = false ∧ s.wearBase site (s.pwr.vs.getD (siteDie site) 0) ps = base ∧ 0 < base ∧ 10000 * ((ps : Int) - base) % base = 0 ∧
      10000 * ((ps : Int) - base) / base ≤ (s.fget SPARE_WEAR_CTL.WARN 0 : Int) * 10) :=
  ⟨⟨mapped, 0, 0, by decide +kernel⟩,
   ⟨fencing false 15, 0, ⟨0, 0, 3, false⟩, by decide +kernel⟩,
   ⟨fencing false, 0, 8, ⟨0, 0, 3, false⟩, by decide +kernel⟩,
   ⟨mapped, .s, wd [(SPARE_FENCE.GO, 1), (SPARE_FENCE.KIND, 1), (SPARE_FENCE.DRAIN, 1)], 0, 0, by decide +kernel⟩,
   ⟨fencing true, .s, wd [(SPARE_FENCE.CANCEL, 1)], 0, 0, by decide +kernel⟩,
   ⟨fencing true, 0, 0, 3, by decide +kernel⟩,
   ⟨{ at_ [(SPARE_WEAR_CTL.WARN, 0, 100), (SPARE_WEAR.USE, 0, 0)] with boot := { on.boot with cal := cellsWrite [] 0x7010 [16, 39] } },
     0, 10010, 10000, by decide +kernel⟩⟩

/-- An investigation of site 0 in the state `st` of `SPARE_REPLAY_STAT`. -/
def investigating (st : Nat) (i : Invest) : State := { mapped 8 [(SPARE_REPLAY_STAT.STATE, 0, st)] with spare := { on.spare with inv := some i } }

/-- A command that waits on ring 3. -/
def waits (op : Nat) (x : List (BF × Nat) := []) (lt : List Nat := []) : Cmd := newCmd 3 5 (packFields ((CMD.OP, op) :: x)) lt

/-- The hypotheses of each clause of `Investigations` are met. -/
theorem witness_investigations :
    (∃ (s : State) (site ring l : Nat), site < 2304 ∧ ring < 8192 ∧ s.live = true ∧ s.siteCore site = some l ∧ s.investigated site =
      false ∧ s.spare.fenced.contains site = false) ∧
    (∃ (s : State) (site : Nat), s.spare.inv = none ∧ s.spare.invQ = [] ∧ s.siteCtxs site = [] ∧ s.siteCmds site = [] ∧ s.fon
      SPARE_DUMP.BUSY 0 = true ∧ s.freeSlot.isSome = true) ∧
    (∃ (s : State), s.hubUp = true) ∧
    (∃ (s : State) (i : Invest), s.hubUp = true ∧ s.spare.inv = some i ∧ s.fget SPARE_REPLAY_STAT.STATE 0 = 1 ∧ i.suspects = []) ∧
    (∃ (s : State) (i : Invest), s.live = true ∧ s.spare.inv = some i ∧ s.fget SPARE_REPLAY_STAT.STATE 0 = 2 ∧ i.running = false ∧
      i.todo = [] ∧ s.fget SPARE_WEAR.TRANS i.site = 0) ∧
    (∃ (s : State) (i : Invest) (c : Cmd), s.hubUp = true ∧ s.spare.inv = some i ∧ i.todo = [c] ∧ i.running = true ∧ i.tRun + s.fget
      SPARE_REPLAY_CTL.TMO 0 * 1000000 ≤ s.time.run) :=
  ⟨⟨mapped, 0, 8191, 0, by decide +kernel⟩,
   ⟨mapped 8 [(SPARE_DUMP.BUSY, 0, 1)], 0, by decide +kernel⟩,
   ⟨on, by decide +kernel⟩,
   ⟨investigating 1 ⟨0, 0, 0, 0, 0, 3, 5, [], false, [], false, 0⟩, ⟨0, 0, 0, 0, 0, 3, 5, [], false, [], false, 0⟩, by decide +kernel⟩,
   ⟨investigating 2 ⟨0, 0, 1, 0, 0, 3, 5, [], true, [], false, 0⟩, ⟨0, 0, 1, 0, 0, 3, 5, [], true, [], false, 0⟩, by decide +kernel⟩,
   ⟨{ investigating 2 ⟨0, 0, 0, 0, 0, 3, 5, [], false, [waits 1], true, 0⟩ with time := { on.time with run := 10000000000 } }, ⟨0, 0,
     0, 0, 0, 3, 5, [], false, [waits 1], true, 0⟩, waits 1, by decide +kernel⟩⟩

/-- The hypotheses of each clause of `AbortsAndDump` are met. -/
theorem witness_abortsAndDump :
    (∃ (s : State) (w : Who) (g v : Nat), g < 4096 ∧ s.reaches w = true ∧ s.barred w .SPARE_ABIND g v = .none ∧ s.isStatus .SPARE_ABIND
      g v = false ∧ s.abindBad g v = false) ∧
    (∃ (s : State) (arr : Nat) (p : Pkt), arr < 22 ∧ s.hubUp = true ∧ s.fon FAB_CTL.EN 0 = true ∧ PH.TYPE.of p.hdr = tyABORT ∧ pktSound
      p = true ∧ s.fon FAB_MCG.VALID (pktGroup p) = true ∧ s.seenAbort (pktGroup p) (ABP.ORIGIN.of (ofLE p.pay)) (ABP.ANUM.of (ofLE
      p.pay)) = false) ∧
    (∃ (s : State) (t : Nat), s.pwr.on = true ∧ s.spare.elogT = some t ∧ s.spare.elogOwed = true ∧ t + 10000 ≤ s.time.now ∧ s.fon
      SPARE_ELOG_PTR.NOTIFY 0 = true ∧ tget s.cfe.masked 0 1 = 0) ∧
    (∃ (s : State) (w : Who) (v : Nat), s.reaches w = true ∧ (let full := s.wordPut .SPARE_DUMP 0 0 v; s.barred w .SPARE_DUMP 0 full
      = .none ∧ s.isStatus .SPARE_DUMP 0 full = false ∧ s.xgoBad full = false ∧ SPARE_DUMP.TAKE.bit v = true ∧ SPARE_DUMP.TAKE.bit full
      = true ∧ SPARE_DUMP.XGO.bit full = false)) ∧
    (∃ (s : State) (w : Who) (v : Nat), s.reaches w = true ∧ (let full := s.wordPut .SPARE_DUMP 0 0 v; s.barred w .SPARE_DUMP 0 full
      = .none ∧ s.isStatus .SPARE_DUMP 0 full = false ∧ s.xgoBad full = false ∧ SPARE_DUMP.XGO.bit v = true ∧ SPARE_DUMP.XGO.bit full =
      true ∧ SPARE_DUMP.TAKE.bit full = false)) ∧
    (∃ (s : State) (w : Who) (v : Nat), s.reaches w = true ∧ (let full := s.wordPut .SPARE_DUMP 0 0 v; s.barred w .SPARE_DUMP 0 full
      = .none ∧ s.isStatus .SPARE_DUMP 0 full = false ∧ s.xgoBad full = false ∧ SPARE_DUMP.USED.val v ≠ 0 ∧ SPARE_DUMP.TAKE.bit full =
      false ∧ SPARE_DUMP.XGO.bit full = false)) ∧
    (∃ (s : State) (w : Who) (v : Nat), s.reaches w = true ∧ s.barred w .SPARE_DUMP 0 (s.wordPut .SPARE_DUMP 0 0 v) = .none ∧
      s.isStatus .SPARE_DUMP 0 (s.wordPut .SPARE_DUMP 0 0 v) = true ∧ SPARE_DUMP.USED.val v ≠ 0) ∧
    (∃ (s : State) (c : Capture), s.hubUp = true ∧ s.fon SPARE_DUMP.BUSY 0 = true ∧ s.mem.capNow = some c) ∧
    (∃ (s : State) (c : Capture) (n lo dst j : Nat), s.hubUp = true ∧ s.fon SPARE_DUMP.XBUSY 0 = true ∧ s.capture (SPARE_DUMP.XSLOT.val
      s.mem.copyJob) = some c ∧ n = (SPARE_DUMP.XLEN_M1.val s.mem.copyJob + 1) * 4096 ∧ lo = SPARE_DUMP.XOFF.val s.mem.copyJob * 4096 ∧
      dst = SPARE_DUMP.XDST.val s.mem.copyJob * 4096 ∧ j * 2 ^ 21 ≤ lo ∧ lo + n ≤ (j + 1) * 2 ^ 21 ∧ j < 64 ∧ s.fon
      MEM_STK_STATUS.FENCED (stackOf (dumpFrame + 64 * SPARE_DUMP.XSLOT.val s.mem.copyJob + j)) = false) :=
  ⟨⟨on, .s, 4095, wd [(SPARE_ABIND.CTX, 7)], by decide +kernel⟩,
   ⟨at_ [(FAB_CTL.EN, 0, 1), (FAB_MCG.VALID, 9, 1)], 21, mkPkt [(PH.TYPE, tyABORT), (PH.DEST, 9), (PH.MCAST, 1)] (leBytes 16 77),
     by decide +kernel⟩,
   ⟨{ at_ [(SPARE_ELOG_PTR.NOTIFY, 0, 1)] with time := { on.time with now := 10000 }, spare := { on.spare with elogT := some 0, elogOwed := true }, cfe := { on.cfe with masked := [(0, 0)] } },
     0, by decide +kernel⟩,
   ⟨on, .s, wd [(SPARE_DUMP.TAKE, 1)], by decide +kernel⟩,
   ⟨at_ [(SPARE_DUMP.USED, 0, 1), (MEM_HOST.EN, 0, 1), (MEM_HOST.SIZE_M1, 0, 3)], .s, wd [(SPARE_DUMP.XGO, 1)], by decide +kernel⟩,
   ⟨at_ [(SPARE_DUMP.USED, 0, 3)], .s, wd [(SPARE_DUMP.USED, 1), (SPARE_DUMP.XSLOT, 1)], by decide +kernel⟩,
   ⟨at_ [(SPARE_DUMP.USED, 0, 3)], .s, wd [(SPARE_DUMP.USED, 1)], by decide +kernel⟩,
   ⟨{ at_ [(SPARE_DUMP.BUSY, 0, 1)] with mem := { on.mem with capNow := some ⟨3, 0, 0, true, false, []⟩ } }, ⟨3, 0, 0, true, false,
     []⟩, by decide +kernel⟩,
   ⟨{ at_ [(SPARE_DUMP.XBUSY, 0, 1)] with mem := { on.mem with captures := [⟨0, 0, 0, true, false, [1]⟩] } }, ⟨0, 0, 0, true, false,
     [1]⟩, 4096, 0, 0, 0, by decide +kernel⟩⟩

/-- A member of a mirror pair with module 5, in a role, and a message of its partner's hub. -/
def paired (role : Nat) (l : List (Fld × Nat × Nat) := []) : State :=
  at_ ([(FAB_CTL.EN, 0, 1), (SPARE_PAIR.VALID, 0, 1), (SPARE_PAIR.PARTNER, 0, 5), (SPARE_PAIR_STATE.ROLE, 0, role)] ++ l)

/-- A whole MGMT message from the hub of module 5. -/
def hubMsg (b : List Byte) : Pkt := mkPkt [(PH.TYPE, tyMGMT), (PH.SRC, epAddr 5 0), (PH.MTLEN, b.length)] b

/-- The PRIMARY that has sent one RENEW. -/
def renewing : State := { paired 1 with spare := { on.spare with renews := [(4, 99)] } }

/-- The stream of such a message. -/
def hubStream : DStream := ⟨5, 0, 0, 0, 0, [], [], 0⟩

/-- The hypotheses of `Takes` on a RENEW. -/
theorem takes_renew : (paired 2).Takes (hubMsg (zeros 20)) hubStream := by constructor <;> decide +kernel

/-- The hypotheses of `Takes` on a GRANT. -/
theorem takes_grant : renewing.Takes (hubMsg (leBytes 8 99 ++ leBytes 4 4)) hubStream := by constructor <;> decide +kernel

/-- The hypotheses of each clause of `MirrorPair` are met. -/
theorem witness_mirrorPair :
    (∃ (s : State) (w : Who) (v : Nat), s.reaches w = true ∧ s.barred w .SPARE_PAIR 0 v = .none ∧ s.isStatus .SPARE_PAIR 0 v = false ∧
      s.fon SPARE_PAIR.VALID 0 = false ∧ SPARE_PAIR.VALID.bit v = true ∧ SPARE_PAIR.REQ.val v = 1) ∧
    (∃ (s : State), s.hubUp = true ∧ s.inPair = true ∧ s.role = 1 ∧ s.spare.renewT + 1000000 ≤ s.count) ∧
    (∃ (s : State) (p : Pkt) (t : DStream), s.Takes p t ∧ PH.TYPE.of p.hdr = tyMGMT ∧ s.inPair = true ∧ pktMod p = s.partner ∧ s.role =
      2) ∧
    (∃ (s : State) (p : Pkt) (t : DStream) (n c : Nat), s.Takes p t ∧ PH.TYPE.of p.hdr = tyMGMT ∧ s.inPair = true ∧ pktMod p =
      s.partner ∧ s.role = 1 ∧ s.spare.renews = [(n, c)] ∧ leAt (pktKept p) 8 4 = n ∧ leAt (pktKept p) 0 8 = c) ∧
    (∃ (s : State), s.up = true ∧ s.role = 1 ∧ s.spare.granted = true ∧ s.spare.leaseEnd ≤ s.count) ∧
    (∃ (s : State), s.hubUp = true ∧ s.role = 2 ∧ s.fon SPARE_PAIR_STATE.ARMED 0 = true ∧ s.spare.lastRx + 3000000 ≤ s.count) :=
  ⟨⟨on, .s, wd [(SPARE_PAIR.VALID, 1), (SPARE_PAIR.REQ, 1), (SPARE_PAIR.PARTNER, 5)], by decide +kernel⟩,
   ⟨paired 1 [(TIME_COUNT.COUNT, 0, 1000000)], by decide +kernel⟩,
   ⟨paired 2, hubMsg (zeros 20), hubStream, takes_renew, by decide +kernel⟩,
   ⟨renewing, hubMsg (leBytes 8 99 ++ leBytes 4 4), hubStream, 4, 99, takes_grant, by decide +kernel⟩,
   ⟨{ paired 1 with spare := { on.spare with granted := true } }, by decide +kernel⟩,
   ⟨paired 2 [(SPARE_PAIR_STATE.ARMED, 0, 1), (TIME_COUNT.COUNT, 0, 3000000)], by decide +kernel⟩⟩

/-- A module that resynchronises its partner, with frames still to copy and frames written since. -/
def resyncing (c d : List Nat) (l : List (Fld × Nat × Nat) := []) : State :=
  { paired 1 ((SPARE_RESYNC.BUSY, 0, 1) :: l) with spare := { on.spare with toCopy := c }, mem := { on.mem with dirty := d } }

/-- The hypotheses of each clause of `Resynchronisation` are met. -/
theorem witness_resynchronisation :
    (∃ (s : State) (w : Who) (v : Nat), s.reaches w = true ∧ s.barred w .SPARE_RESYNC 0 v = .none ∧ s.isStatus .SPARE_RESYNC 0 v =
      false ∧ SPARE_RESYNC.GO.bit v = true ∧ SPARE_RESYNC.SWITCH.bit v = false ∧ (s.role = 1 ∨ s.role = 2) ∧ s.fon SPARE_RESYNC.BUSY 0
      = false) ∧
    (∃ (s : State) (f : Nat) (r : List Nat), s.live = true ∧ s.fon SPARE_RESYNC.BUSY 0 = true ∧ s.spare.frameT ≤ s.time.now ∧
      s.spare.toCopy = f :: r ∧ (let part := s.listPart f; (let world := s.fget SEC_PART.PWORLD part; s.checkFrame ⟨part, world, none,
      5⟩ MEM_RGN.RD f = 0))) ∧
    (∃ (s : State), s.live = true ∧ s.fon SPARE_RESYNC.BUSY 0 = true ∧ s.spare.toCopy = [] ∧ s.mem.dirty ≠ []) ∧
    (∃ (s : State) (w : Who) (v : Nat), s.reaches w = true ∧ s.barred w .SPARE_RESYNC 0 v = .none ∧ s.isStatus .SPARE_RESYNC 0 v =
      false ∧ SPARE_RESYNC.GO.bit v = false ∧ SPARE_RESYNC.SWITCH.bit v = true ∧
      (let u := (s.clrW1C .SPARE_RESYNC 0 v).putRW .SPARE_RESYNC 0 v; u.fon SPARE_RESYNC.BUSY 0 = true)) ∧
    (∃ (s : State), s.hubUp = true ∧ s.role = 4) ∧
    (∃ (s : State), s.live = true ∧ s.switchReady = true) ∧
    (∃ (s : State), s.hubUp = true ∧ s.fon SPARE_RESYNC.BUSY 0 = true ∧ s.spare.progT + 100000000 ≤ s.time.now) :=
  ⟨⟨paired 1, .s, wd [(SPARE_RESYNC.GO, 1)], by decide +kernel⟩,
   ⟨keyed (resyncing [3] [] region0), 3, [], by decide +kernel⟩,
   ⟨resyncing [] [0], by decide +kernel⟩,
   ⟨resyncing [] [], .s, wd [(SPARE_RESYNC.SWITCH, 1)], by decide +kernel⟩,
   ⟨paired 4, by decide +kernel⟩,
   ⟨{ resyncing [] [] with spare := { on.spare with switching := true } }, by decide +kernel⟩,
   ⟨{ resyncing [] [] with time := { on.time with now := 100000000 } }, by decide +kernel⟩⟩

/-- The hypotheses of each clause of `SharedControls` are met. -/
theorem witness_sharedControls :
    (∃ (s : State) (w : Who) (v : Nat), s.reaches w = true ∧ s.barred w .TIME_CTL 0 v = .none ∧ s.isStatus .TIME_CTL 0 v = false ∧
      (TIME_CTL.PARENT.val v ≤ 21 ∨ TIME_CTL.PARENT.val v = 31) ∧ (let u := (s.clrW1C .TIME_CTL 0 v).putRW .TIME_CTL 0 v; u.fget
      TIME_CTL.PARENT 0 = s.fget TIME_CTL.PARENT 0 ∧ s.fon TIME_CTL.ROOT 0 = false ∧ u.fon TIME_CTL.ROOT 0 = false)) ∧
    (∃ (s : State) (w : Who) (v : Nat), s.reaches w = true ∧ s.barred w .TIME_CTL 0 v = .none ∧ s.isStatus .TIME_CTL 0 v = false ∧
      (TIME_CTL.PARENT.val v ≤ 21 ∨ TIME_CTL.PARENT.val v = 31) ∧ (let u := (s.clrW1C .TIME_CTL 0 v).putRW .TIME_CTL 0 v; u.fget
      TIME_CTL.PARENT 0 = s.fget TIME_CTL.PARENT 0 ∧ s.fon TIME_CTL.ROOT 0 = false ∧ u.fon TIME_CTL.ROOT 0 = true)) ∧
    (∃ (s : State) (w : Who) (v : Nat), s.reaches w = true ∧ s.barred w .TIME_CTL 0 v = .none ∧ s.isStatus .TIME_CTL 0 v = false ∧ 21 <
      TIME_CTL.PARENT.val v ∧ TIME_CTL.PARENT.val v ≠ 31) ∧
    (∃ (s : State) (w : Who) (v : Nat), s.reaches w = true ∧ s.barred w .GCTL_OWNER 0 v = .none ∧ ((∀ f ∈ [GCTL_OWNER.PWR,
      GCTL_OWNER.OBS, GCTL_OWNER.SPARE, GCTL_OWNER.TIME], f.val v = s.fget f 0 ∨ (s.fon f 0 = true ↔ w = .mc)))) ∧
    (∃ (s : State) (w : Who) (v : Nat), s.reaches w = true ∧ s.barred w .GCTL_ROLE 0 v = .none ∧ s.isStatus .GCTL_ROLE 0 v = false ∧
      s.roleBad v = false) ∧
    (∃ (s : State), s.hubUp = true ∧ s.fon GCTL_ROLE.PEND 0 = true ∧ s.cfe.cmds = [] ∧ s.att.queries = []) :=
  ⟨⟨on, .s, wd [(TIME_CTL.SYNC_EN, 1)], by decide +kernel⟩,
   ⟨at_ [(TIME_CTL.PARENT, 0, 31)], .s, wd [(TIME_CTL.PARENT, 31), (TIME_CTL.ROOT, 1)], by decide +kernel⟩,
   ⟨on, .s, wd [(TIME_CTL.PARENT, 22)], by decide +kernel⟩,
   ⟨on, .s, wd [(GCTL_OWNER.SPARE, 1)], by decide +kernel⟩,
   ⟨at_ ((List.range 256).map fun c => (SPARE_CMAP.ABSENT, c, 0)), .s, wd [(GCTL_ROLE.ROLE, 3), (GCTL_ROLE.SERVE_CL, 60)],
     by decide +kernel⟩,
   ⟨at_ [(GCTL_ROLE.PEND, 0, 1)], by decide +kernel⟩⟩

/-- The hypotheses of each clause of `RingsAndDoorbells` are met. -/
theorem witness_ringsAndDoorbells :
    (∃ (s u : State) (w : Who) (page v : Nat), page < 8192 ∧ s.reaches w = true ∧ u = s.wake ∧ (w = .s ∨ (w = .ns ∧ u.ctxWorld (page /
      32) = 0)) ∧ u.fon CFE_RING_CMD.EN page = true ∧ BELL.RING.of v = page ∧ wrapSub 32 (BELL.IDX.of v) (u.fget CFE_RING_PTR.TAIL
      page) < 2 ^ 31 ∧ wrapSub 32 (BELL.IDX.of v) (u.fget CFE_RING_PTR.HEAD page) ≤ 2 ^ u.fget CFE_RING_CMD.K page) ∧
    (∃ (s u : State) (w : Who) (page v : Nat), page < 8192 ∧ s.reaches w = true ∧ u = s.wake ∧ (w = .s ∨ (w = .ns ∧ u.ctxWorld (page /
      32) = 0)) ∧ u.fon CFE_RING_CMD.EN page = true ∧ BELL.RING.of v = page ∧ 2 ^ 31 ≤ wrapSub 32 (BELL.IDX.of v) (u.fget
      CFE_RING_PTR.TAIL page)) ∧
    (∃ (s u : State) (w : Who) (page v : Nat), page < 8192 ∧ s.reaches w = true ∧ u = s.wake ∧ (w = .s ∨ (w = .ns ∧ u.ctxWorld (page /
      32) = 0)) ∧ u.fon CFE_RING_CMD.EN page = true ∧ BELL.RING.of v = page ∧ wrapSub 32 (BELL.IDX.of v) (u.fget CFE_RING_CPTR.CHEAD
      page) ≤ wrapSub 32 (u.fget CFE_RING_CPTR.CTAIL page) (u.fget CFE_RING_CPTR.CHEAD page)) ∧
    (∃ (s : State), s.fget PWR_PSTATE.STATE 0 = 0) ∧
    (∃ (s : State), 1 ≤ s.fget PWR_PSTATE.STATE 0 ∧ s.fget PWR_PSTATE.STATE 0 ≤ 3) ∧
    (∃ (s : State) (w : Who) (r v : Nat), r < 8192 ∧ s.reaches w = true ∧ s.barred w .CFE_RING_CMD r v = .none ∧
      s.isStatus .CFE_RING_CMD r v = false ∧ s.ringCmdBad r v = false ∧ CFE_RING_CMD.EN.bit v = true) ∧
    (∃ (s : State) (w : Who) (r v : Nat), r < 8192 ∧ s.reaches w = true ∧ s.barred w .CFE_RING_CMD r v = .none ∧
      s.isStatus .CFE_RING_CMD r v = false ∧ s.ringCmdBad r v = true) ∧
    (∃ (s : State) (w : Who) (r v : Nat), r < 8192 ∧ s.reaches w = true ∧ s.barred w .CFE_RING_CPL r v = .none ∧
      s.isStatus .CFE_RING_CPL r v = false ∧ s.fon CFE_RING_CMD.EN r = false) ∧
    (∃ (s : State) (w : Who) (r v : Nat), r < 8192 ∧ s.reaches w = true ∧ s.barred w .CFE_RING_CPL r v = .none ∧
      s.isStatus .CFE_RING_CPL r v = false ∧ s.fon CFE_RING_CMD.EN r = true) :=
  ⟨⟨at_ [(CFE_RING_CMD.EN, 8191, 1), (CFE_RING_CMD.K, 8191, 4)], at_ [(CFE_RING_CMD.EN, 8191, 1), (CFE_RING_CMD.K, 8191, 4)], .ns,
     8191, BELL.RING.mk1 8191 + BELL.IDX.mk1 16, by decide +kernel⟩,
   ⟨at_ [(CFE_RING_CMD.EN, 8191, 1)], at_ [(CFE_RING_CMD.EN, 8191, 1)], .s, 8191, BELL.RING.mk1 8191 + BELL.IDX.mk1 (2 ^ 31),
     by decide +kernel⟩,
   ⟨at_ [(CFE_RING_CMD.EN, 8191, 1), (CFE_RING_CPTR.CTAIL, 8191, 3)], at_ [(CFE_RING_CMD.EN, 8191, 1), (CFE_RING_CPTR.CTAIL, 8191,
     3)], .s, 8191, BELL.RING.mk1 8191 + BELL.IDX.mk1 3, by decide +kernel⟩,
   ⟨on, by decide +kernel⟩,
   ⟨at_ [(PWR_PSTATE.STATE, 0, 3)], by decide +kernel⟩,
   ⟨at_ [(CTX_CFG.EN, 0, 1), (CFE_RING_CPL.J, 0, 16), (CFE_RING_CPL.BASE, 0, 0), (MEM_HOST.EN, 0, 1), (MEM_HOST.SIZE_M1, 0, 7)], .s, 0,
     wd [(CFE_RING_CMD.EN, 1), (CFE_RING_CMD.K, 1), (CFE_RING_CMD.BASE, 1024)], by decide +kernel⟩,
   ⟨on, .s, 0, wd [(CFE_RING_CMD.EN, 1)], by decide +kernel⟩,
   ⟨on, .s, 8191, wd [(CFE_RING_CPL.BASE, 1)], by decide +kernel⟩,
   ⟨at_ [(CFE_RING_CMD.EN, 0, 1)], .s, 0, wd [(CFE_RING_CPL.BASE, 1)], by decide +kernel⟩⟩

/-- The module in service: context 0 runs, ring 3 is enabled, and the key of slot 0 is loaded. -/
def serving (l : List (Fld × Nat × Nat) := []) : State :=
  keyed (mapped 8 ([(GCTL_BOOT_STAT.PASSED, 0, 2048), (CTX_STATE.STATE, 0, 1), (CFE_RING_CMD.EN, 3, 1), (CFE_RING_CMD.K, 3, 4),
    (CFE_RING_CPL.J, 3, 4), (SEC_PART.VALID, 0, 1), (SEC_PART.PWORLD, 0, 0), (SEC_PART.CL, 0, 1), (SEC_PART.CTXM, 0, 1)] ++ l))

/-- A launch-table entry that names logical core 0. -/
def entry0 : Nat := packFields [(LTE.WIN_LEN, 1), (LTE.WL_LEN, 1)]

/-- The module in service with a command that waits. -/
def waiting (c : Cmd) (l : List (Fld × Nat × Nat) := []) : State := { serving l with cfe := { on.cfe with cmds := [c] } }

/-- What a core holds of a command: a work list of `n` descriptors from address 0. -/
def resident (n : Nat) : Rsd := { (serving).resident (waits 1) entry0 with wlLen := n }

/-- The hypotheses of each clause of `CommandsRun` are met. -/
theorem witness_commandsRun :
    (∃ (s : State) (r : Nat), r < 8192 ∧ s.live = true ∧ s.mayRead r = true ∧ (let head := s.fget CFE_RING_PTR.HEAD r;
      (let m := s.rawRead (s.accOf (r / 32) 2) (s.fget CFE_RING_CMD.BASE r * 4096 + 64 * (head % 2 ^ s.fget CFE_RING_CMD.K r)) 64;
      m.code = 0 ∧ ofLE m.bytes = 0))) ∧
    (∃ (s : State) (ring seq : Nat) (c : Cmd), ring < 8192 ∧ s.cmdAt ring seq = some c ∧ CMD.OP.of c.word = 0 ∧ s.mayLaunch c = true) ∧
    (∃ (s : State) (ring seq : Nat) (c : Cmd), ring < 8192 ∧ s.cmdAt ring seq = some c ∧ CMD.OP.of c.word = 1 ∧ s.mayLaunch c = true ∧
      s.placeCode c = 0 ∧ ((∀ l ∈ c.cores, s.room l c.nctr = true ∧ s.coreHeld l = false)) ∧ CMD.HINT.of c.word = 0) ∧
    (∃ (s : State) (ring seq : Nat) (c : Cmd), ring < 8192 ∧ s.cmdAt ring seq = some c ∧ CMD.OP.of c.word = 1 ∧ s.mayLaunch c = true ∧
      s.placeCode c ≠ 0) ∧
    (∃ (s : State) (lcore ring seq : Nat) (r : Rsd), lcore < 2048 ∧ ring < 8192 ∧ s.hubUp = true ∧ (s.core.rsds.find? (fun r => decide
      (r.lcore = lcore) && decide (r.ring = ring) && decide (r.seq = seq)) = some r) ∧ r.ended = true ∧ r.flights = [] ∧ r.doneSent =
      false ∧ r.dead = false ∧ s.workSettled r = true) ∧
    (∃ (s : State) (lcore ring seq : Nat) (c : Cmd), lcore < 2048 ∧ ring < 8192 ∧ s.hubUp = true ∧ s.cfe.dones = [(ring, seq, lcore)] ∧
      s.cmdAt ring seq = some c ∧ c.expect ≤ c.ndone + 1 ∧ s.fget CTX_STATE.STATE (ring / 32) = 1) :=
  ⟨⟨serving [(CFE_RING_PTR.TAIL, 3, 1)], 3, by decide +kernel⟩,
   ⟨waiting (waits 0), 3, 5, waits 0, by decide +kernel⟩,
   ⟨waiting (waits 1 [] [entry0]), 3, 5, waits 1 [] [entry0], by decide +kernel⟩,
   ⟨waiting (waits 1 [] [entry0 + LTE.LCORE.mk1 2047]), 3, 5, waits 1 [] [entry0 + LTE.LCORE.mk1 2047], by decide +kernel⟩,
   ⟨{ serving with core := { on.core with rsds := [{ resident 1 with ended := true }] } }, 0, 3, 5, { resident 1 with ended := true },
     by decide +kernel⟩,
   ⟨{ waiting (waits 1) with cfe := { on.cfe with cmds := [{ waits 1 with expect := 1 }], dones := [(3, 5, 0)] } }, 0, 3, 5,
     { waits 1 with expect := 1 }, by decide +kernel⟩⟩

/-- The hypotheses of `CompletionRecord` are met. -/
theorem witness_completionRecord :
    ∃ (c : Cmd), c.ring < 8192 :=
  ⟨{ waits 0 with ring := 8191 }, by decide +kernel⟩

/-- The hypotheses of each clause of `Contexts` are met. -/
theorem witness_contexts :
    (∃ (s : State) (w : Who) (c v : Nat), c < 256 ∧ s.reaches w = true ∧ s.barred w .CTX_CFG c v = .none ∧ s.isStatus .CTX_CFG c v =
      false ∧ s.ctxCfgBad c v = false ∧ s.fon CTX_CFG.EN c = false ∧ CTX_CFG.EN.bit v = true ∧ (let u := s.clrW1C .CTX_CFG c v; u.fon
      CTX_CFG.EN c = false)) ∧
    (∃ (s : State) (w : Who) (c : Nat), c < 256 ∧ s.reaches w = true ∧ s.barred w .CTX_CTL c 1 = .none ∧ s.fget CTX_STATE.STATE c = 1) ∧
    (∃ (s : State) (w : Who) (c : Nat), c < 256 ∧ s.reaches w = true ∧ s.barred w .CTX_CTL c 2 = .none ∧ s.fget CTX_STATE.STATE c = 3 ∧
      s.suspect c = false ∧ s.fon SPARE_ESC.WITHDRAWN 0 = false ∧ s.scrubbing (s.ctxPart c) = false) ∧
    (∃ (s : State) (w : Who) (c : Nat), c < 256 ∧ s.reaches w = true ∧ s.barred w .CTX_CTL c 4 = .none) ∧
    (∃ (s : State) (ring seq : Nat) (c : Cmd), ring < 8192 ∧ s.live = true ∧ s.cmdAt ring seq = some c ∧ c.launched = true ∧ s.fget
      CTX_CFG.HANG (ring / 32) ≠ 0 ∧ s.fget CTX_STATE.STATE (ring / 32) = 1 ∧ c.lastProg + s.fget CTX_CFG.HANG (ring / 32) * 1000000 ≤
      s.time.run) ∧
    (∃ (s : State) (c code : Nat), c < 256 ∧ s.hubUp = true ∧ s.fget CTX_STATE.STATE c = 2 ∧ s.cfe.cmds = [] ∧ s.cfe.rst = [(c, code)]) :=
  ⟨⟨at_ [(SEC_PART.VALID, 0, 1), (SEC_PART.CTXM, 0, 2 ^ 255)], .s, 255, wd [(CTX_CFG.EN, 1)], by decide +kernel⟩,
   ⟨serving, .ns, 0, by decide +kernel⟩,
   ⟨at_ [(CTX_STATE.STATE, 255, 3)], .s, 255, by decide +kernel⟩,
   ⟨on, .s, 255, by decide +kernel⟩,
   ⟨{ waiting (waits 1) [(CTX_CFG.HANG, 0, 1)] with cfe := { on.cfe with cmds := [{ waits 1 with launched := true }] }, time := { on.time with run := 1000000 } },
     3, 5, { waits 1 with launched := true }, by decide +kernel⟩,
   ⟨{ at_ [(CTX_STATE.STATE, 255, 2)] with cfe := { on.cfe with rst := [(255, 0x0707)] } }, 255, 0x0707, by decide +kernel⟩⟩

/-- The module in service with endpoint 5 of context 0, a group of two in group entry 9, and every frame right in four frames. -/
def joining (l : List (Fld × Nat × Nat) := []) : State :=
  serving (region0 ++ [(FAB_EP.VALID, 5, 1), (FAB_EP.RX_EN, 5, 1), (FAB_CTL.EN, 0, 1), (COLL_GRP.VALID, 9, 1), (COLL_GRP.N_M1, 9, 1),
    (COLL_GRP.LIST, 9, 8), (COLL_GRP.PRED, 9, epAddr 5 5), (COLL_GRP.SUCC, 9, epAddr 5 5)] ++ l)

/-- A COLL command of group 9 that waits on ring 3: its kind, 32 elements of BF16 in two pieces, and an address of its list. -/
def coll (k : Nat) : Cmd :=
  waits 2 [(CBODY.CKIND, k), (CBODY.GROUP, 9), (CBODY.CSEQ, 7), (CBODY.DFMT, BF16), (CBODY.DST_ADDR, 4096), (CBODY.COUNT, 32), (CBODY.WDOG, 200)]

/-- Such a command waiting; with bytes at the start of memory. -/
def called (k : Nat) (b : List Byte := []) : State :=
  { joining with cfe := { on.cfe with cmds := [coll k] }, mem := { joining.mem with bytes := cellsOf 0 b } }

/-- A list of one triggered operation. -/
def top (l : List (BF × Nat)) : Nat := packFields ((TOP.INC, 1) :: l)

/-- The hypotheses of each clause of `CollectivesStart` are met. -/
theorem witness_collectivesStart :
    (∃ (s : State) (w : Who) (g k v : Nat), g < 4096 ∧ k < 2 ∧ s.reaches w = true ∧ (let full := s.wordPut .COLL_GRP g k v; s.barred
      w .COLL_GRP g full = .none ∧ s.isStatus .COLL_GRP g full = false ∧ s.grpReject g full = false)) ∧
    (∃ (s : State) (w : Who) (g k v : Nat), g < 4096 ∧ k < 2 ∧ s.reaches w = true ∧ (let full := s.wordPut .COLL_GRP g k v; s.barred
      w .COLL_GRP g full = .none ∧ s.isStatus .COLL_GRP g full = false ∧ s.grpReject g full = true)) ∧
    (∃ (s : State) (ring seq : Nat) (c : Cmd), ring < 8192 ∧ s.cmdAt ring seq = some c ∧ CMD.OP.of c.word = 2 ∧ s.mayLaunch c = true ∧
      (let i := s.newInst c []; s.collStartCode i ≠ 0 ∧ CBODY.CKIND.of c.word = 0)) ∧
    (∃ (s : State) (ring seq : Nat) (c : Cmd), ring < 8192 ∧ s.cmdAt ring seq = some c ∧ CMD.OP.of c.word = 2 ∧ s.mayLaunch c = true ∧
      (let i := s.newInst c []; s.collStartCode i ≠ 0 ∧ CBODY.CKIND.of c.word = 1)) ∧
    (∃ (s : State) (ring seq : Nat) (c : Cmd), ring < 8192 ∧ s.cmdAt ring seq = some c ∧ CMD.OP.of c.word = 2 ∧ s.mayLaunch c = true ∧
      (let i := s.newInst c []; s.collStartCode i ≠ 0 ∧ CBODY.CKIND.of c.word = 2)) ∧
    (∃ (s : State) (ring seq : Nat) (c : Cmd), ring < 8192 ∧ s.cmdAt ring seq = some c ∧ CMD.OP.of c.word = 2 ∧ s.mayLaunch c = true ∧
      (let i := s.newInst c []; s.collStartCode i ≠ 0 ∧ CBODY.CKIND.of c.word = 3)) ∧
    (∃ (s : State) (ring seq : Nat) (c : Cmd), ring < 8192 ∧ s.cmdAt ring seq = some c ∧ CMD.OP.of c.word = 2 ∧ s.mayLaunch c = true ∧
      (let i := s.newInst c []; s.collStartCode i = 0 ∧ s.collRoom i = true ∧ CBODY.CKIND.of c.word = 0)) ∧
    (∃ (s : State) (ring seq : Nat) (c : Cmd), ring < 8192 ∧ s.cmdAt ring seq = some c ∧ CMD.OP.of c.word = 2 ∧ s.mayLaunch c = true ∧
      (let i := s.newInst c []; s.collStartCode i = 0 ∧ s.collRoom i = true ∧ CBODY.CKIND.of c.word = 1)) ∧
    (∃ (s : State) (ring seq : Nat) (c : Cmd), ring < 8192 ∧ s.cmdAt ring seq = some c ∧ CMD.OP.of c.word = 2 ∧ s.mayLaunch c = true ∧
      (let i := s.newInst c []; s.collStartCode i = 0 ∧ s.collRoom i = true ∧ CBODY.CKIND.of c.word = 2)) ∧
    (∃ (s : State) (ring seq : Nat) (c : Cmd) (b : List Byte), ring < 8192 ∧ s.cmdAt ring seq = some c ∧ CMD.OP.of c.word = 2 ∧
      s.mayLaunch c = true ∧ (let i := s.newInst c []; s.collStartCode i = 0 ∧ CBODY.CKIND.of c.word = 3 ∧ s.memRead (s.accOf (ring /
      32) 3) MEM_RGN.FETCH (CMD.LT_ADDR.of c.word * 64) (64 * (CMD.NCORES_M1.of c.word + 1)) = ⟨0, b, s⟩ ∧ c.ring = ring ∧
      (let tops := (List.range (CMD.NCORES_M1.of c.word + 1)).map fun k => leAt b (64 * k) 64; (let j := s.newInst c tops; s.topsCode
      j.ctx c.nctr (j.n - 1) tops ≠ 0)))) ∧
    (∃ (s : State) (ring seq : Nat) (c : Cmd) (b : List Byte), ring < 8192 ∧ s.cmdAt ring seq = some c ∧ CMD.OP.of c.word = 2 ∧
      s.mayLaunch c = true ∧ (let i := s.newInst c []; s.collStartCode i = 0 ∧ CBODY.CKIND.of c.word = 3 ∧ s.memRead (s.accOf (ring /
      32) 3) MEM_RGN.FETCH (CMD.LT_ADDR.of c.word * 64) (64 * (CMD.NCORES_M1.of c.word + 1)) = ⟨0, b, s⟩ ∧ c.ring = ring ∧
      (let tops := (List.range (CMD.NCORES_M1.of c.word + 1)).map fun k => leAt b (64 * k) 64; (let j := s.newInst c tops; s.topsCode
      j.ctx c.nctr (j.n - 1) tops = 0 ∧ s.collRoom j = true ∧ s.coll.early = [])))) :=
  ⟨⟨on, .s, 4095, 0, wd [(COLL_GRP.N_M1, 1)], by decide +kernel⟩,
   ⟨on, .s, 4095, 0, wd [(COLL_GRP.VALID, 1), (COLL_GRP.N_M1, 1), (COLL_GRP.MYIDX, 2)], by decide +kernel⟩,
   ⟨waiting (coll 0), 3, 5, coll 0, by decide +kernel⟩,
   ⟨waiting (coll 1), 3, 5, coll 1, by decide +kernel⟩,
   ⟨waiting (coll 2), 3, 5, coll 2, by decide +kernel⟩,
   ⟨waiting (coll 3), 3, 5, coll 3, by decide +kernel⟩,
   ⟨called 0, 3, 5, coll 0, by decide +kernel⟩,
   ⟨called 1, 3, 5, coll 1, by decide +kernel⟩,
   ⟨called 2, 3, 5, coll 2, by decide +kernel⟩,
   ⟨called 3, 3, 5, coll 3, zeros 64, by decide +kernel⟩,
   ⟨called 3 (leBytes 64 (top [])), 3, 5, coll 3, leBytes 64 (top []), by decide +kernel⟩⟩

/-- The instance of such a command, with two credits. -/
def inst (k : Nat) (tops : List Nat := []) : Inst := { joining.newInst (coll k) tops with credit := 2 }

/-- The module with an instance. -/
def with_ (i : Inst) (s : State := joining) : State := { s with coll := { s.coll with insts := [i] } }

/-- A COLL packet from module 5 to endpoint 5: fields of its header, and the data behind it. -/
def collPkt (l : List (BF × Nat)) (d : List Byte := []) : Pkt :=
  mkPkt [(PH.TYPE, tyCOLL), (PH.SRC, epAddr 5 5), (PH.DEST, epAddr 0 5), (PH.RADDR, 128), (PH.MTLEN, 32 + d.length)]
    (collHdr ([(CH.GROUP, 9), (CH.CSEQ, 7), (CH.COUNT, 32)] ++ l) ++ d)

/-- The stream of such a packet. -/
def collStream : DStream := ⟨5, 5, 5, 0, 0, [], [], 0⟩

/-- A piece of chunk 1 arrives in a reduce-scatter of two members. -/
def rsPkt : Pkt := collPkt [(CH.PKIND, 0), (CH.FMT, BF16), (CH.CHUNK, 0), (CH.PIECE, 1)] (zeros 32)

/-- A piece of chunk 1 arrives in an all-gather. -/
def agPkt : Pkt := collPkt [(CH.PKIND, 1), (CH.CKIND, 2), (CH.FMT, BF16), (CH.CHUNK, 1), (CH.PIECE, 1)] (zeros 32)

/-- The hypotheses of `Takes` on these. -/
theorem takes_rs : (with_ (inst 0)).Takes rsPkt collStream ∧ (with_ (inst 2)).Takes agPkt collStream := by
  constructor <;> constructor <;> decide +kernel

/-- The hypotheses of each clause of `RingPieces` are met. -/
theorem witness_ringPieces :
    (∃ (s : State) (g q ph k p : Nat) (i : Inst), g < 4096 ∧ s.live = true ∧ s.inst g q = some i ∧ i.sends ph k = true ∧ p < i.pieces ∧
      i.holds ph k p = true ∧ i.sent.contains (pieceKey ph k p) = false ∧ 0 < i.credit) ∧
    (∃ (s : State) (p : Pkt) (t : DStream) (i : Inst) (b : List Byte), s.Takes p t ∧ PH.TYPE.of p.hdr = tyCOLL ∧ s.inst (collKey p).1
      (collKey p).2 = some i ∧ (let h := collHdrOf p; (let k := CH.CHUNK.of h; (let n := CH.PIECE.of h; CH.PKIND.of h = 0 ∧ i.pieceBad
      0 h (p.pay.drop 32).length = false ∧ s.memRead (s.instAcc i) MEM_RGN.RD (i.srcAt k n) (i.lenOf n * collBytes i.dfmt) = ⟨0, b,
      s⟩)))) ∧
    (∃ (s : State) (p : Pkt) (t : DStream) (i : Inst), s.Takes p t ∧ PH.TYPE.of p.hdr = tyCOLL ∧ s.inst (collKey p).1 (collKey p).2 =
      some i ∧ (let h := collHdrOf p; CH.PKIND.of h = 1 ∧ i.pieceBad 1 h (p.pay.drop 32).length = false)) ∧
    (∃ (s : State) (g q ph k p : Nat) (i : Inst) (b : List Byte), g < 4096 ∧ s.hubUp = true ∧ s.inst g q = some i ∧ (i.staged.find?
      (fun e => decide (e.1 = pieceKey ph k p)) = some (pieceKey ph k p, b)) ∧ ((ph = 1 → i.sends 0 k = true → (i.fromSrc 0 k = false ∨
      i.src = i.dst) → i.acked.contains (pieceKey 0 k p) = true)) ∧ (let m := s.memWrite (s.instAcc i) MEM_RGN.WR (i.dstAt k p) b;
      m.code = 0)) :=
  ⟨⟨with_ (inst 0), 9, 7, 0, 1, 1, inst 0, by decide +kernel⟩,
   ⟨with_ (inst 0), rsPkt, collStream, inst 0, zeros 32, takes_rs.1, by decide +kernel⟩,
   ⟨with_ (inst 2), agPkt, collStream, inst 2, takes_rs.2, by decide +kernel⟩,
   ⟨with_ { inst 0 with staged := [(pieceKey 0 0 1, zeros 64)] }, 9, 7, 0, 0, 1,
     { inst 0 with staged := [(pieceKey 0 0 1, zeros 64)] }, zeros 64, by decide +kernel⟩⟩

/-- An instance of a triggered list with two counters. -/
def trig (tops : List Nat) : Inst := { inst 3 tops with ctrs := [0, 5] }

/-- A signal of a kind, READY 2 to TSIG 5. -/
def sigPkt (k : Nat) : Pkt := collPkt [(CH.PKIND, k), (CH.RCTR, 1), (CH.INC, 255), (CH.NCRED, 64)]

/-- Triggered data, with or without a remote signal. -/
def tput (r : Nat) : Pkt := collPkt [(CH.PKIND, 4), (CH.R_EN, r)] [1, 2]

/-- The hypotheses of `Takes` on these. -/
theorem takes_sig : (with_ (trig [])).Takes (sigPkt 2) collStream ∧ (with_ (trig [])).Takes (sigPkt 3) collStream ∧
    (with_ (trig [])).Takes (sigPkt 5) collStream ∧ (with_ (trig [])).Takes (tput 0) collStream ∧
    (with_ (trig [])).Takes (tput 1) collStream ∧ joining.Takes (sigPkt 2) collStream := by
  refine ⟨?_, ?_, ?_, ?_, ?_, ?_⟩ <;> constructor <;> decide +kernel

/-- The hypotheses of each clause of `CollectiveSignals` are met. -/
theorem witness_collectiveSignals :
    (∃ (s : State) (p : Pkt) (t : DStream) (i : Inst), s.Takes p t ∧ PH.TYPE.of p.hdr = tyCOLL ∧ s.inst (collKey p).1 (collKey p).2 =
      some i ∧ (let h := collHdrOf p; CH.PKIND.of h = 2)) ∧
    (∃ (s : State) (p : Pkt) (t : DStream) (i : Inst), s.Takes p t ∧ PH.TYPE.of p.hdr = tyCOLL ∧ s.inst (collKey p).1 (collKey p).2 =
      some i ∧ (let h := collHdrOf p; CH.PKIND.of h = 3)) ∧
    (∃ (s : State) (p : Pkt) (t : DStream) (i : Inst) (v : _), s.Takes p t ∧ PH.TYPE.of p.hdr = tyCOLL ∧ s.inst (collKey p).1 (collKey
      p).2 = some i ∧ (let h := collHdrOf p; CH.PKIND.of h = 5 ∧ i.ctrs[CH.RCTR.of h]? = some v ∧ v + CH.INC.of h < 2 ^ 32)) ∧
    (∃ (s : State) (p : Pkt) (t : DStream) (i : Inst), s.Takes p t ∧ PH.TYPE.of p.hdr = tyCOLL ∧ s.inst (collKey p).1 (collKey p).2 =
      some i ∧ (let h := collHdrOf p;
      (let m := s.memWrite ⟨PH.PART.of p.hdr, PH.WORLD.of p.hdr, none, 5⟩ MEM_RGN.FPUT (PH.RADDR.of p.hdr) (p.pay.drop 32); CH.PKIND.of
      h = 4 ∧ m.code = 0 ∧ CH.R_EN.on h = false))) ∧
    (∃ (s : State) (p : Pkt) (t : DStream) (i : Inst), s.Takes p t ∧ PH.TYPE.of p.hdr = tyCOLL ∧ s.inst (collKey p).1 (collKey p).2 =
      some i ∧ (let h := collHdrOf p;
      (let m := s.memWrite ⟨PH.PART.of p.hdr, PH.WORLD.of p.hdr, none, 5⟩ MEM_RGN.FPUT (PH.RADDR.of p.hdr) (p.pay.drop 32); CH.PKIND.of
      h = 4 ∧ m.code = 0 ∧ CH.R_EN.on h = true))) ∧
    (∃ (s : State) (p : Pkt) (t : DStream), s.Takes p t ∧ PH.TYPE.of p.hdr = tyCOLL ∧ s.inst (collKey p).1 (collKey p).2 = none ∧
      s.wasInst (collKey p).1 (collKey p).2 = false ∧ s.coll.early.length < 4096 ∧ CH.PKIND.of (collHdrOf p) = 2) ∧
    (∃ (s : State) (n : Nat) (e : Early), s.hubUp = true ∧ s.coll.early[n]? = some e ∧ e.t0 + 1000000000 ≤ s.time.now) ∧
    (∃ (s : State) (g q : Nat) (i : Inst), g < 4096 ∧ s.hubUp = true ∧ s.inst g q = some i ∧ i.lastUp + i.wdog * 1000000 ≤ s.time.run) :=
  ⟨⟨with_ (trig []), sigPkt 2, collStream, trig [], takes_sig.1, by decide +kernel⟩,
   ⟨with_ (trig []), sigPkt 3, collStream, trig [], takes_sig.2.1, by decide +kernel⟩,
   ⟨with_ (trig []), sigPkt 5, collStream, trig [], 5, takes_sig.2.2.1, by decide +kernel⟩,
   ⟨with_ (trig []), tput 0, collStream, trig [], takes_sig.2.2.2.1, by decide +kernel⟩,
   ⟨with_ (trig []), tput 1, collStream, trig [], takes_sig.2.2.2.2.1, by decide +kernel⟩,
   ⟨joining, sigPkt 2, collStream, takes_sig.2.2.2.2.2, by decide +kernel⟩,
   ⟨{ on with coll := { on.coll with early := [⟨9, 7, 2, 1, 0, 0⟩] }, time := { on.time with now := 1000000000 } }, 0, ⟨9, 7, 2, 1, 0,
     0⟩, by decide +kernel⟩,
   ⟨{ with_ (inst 0) with time := { on.time with run := 200000000 } }, 9, 7, inst 0, by decide +kernel⟩⟩

/-- The hypotheses of each clause of `TriggeredOperations` are met. -/
theorem witness_triggeredOperations :
    (∃ (s : State) (g q idx e : Nat) (i : Inst), g < 4096 ∧ s.live = true ∧ s.inst g q = some i ∧ i.tops[idx]? = some e ∧
      i.fired.contains idx = false ∧ s.topReady i e = true ∧ TOP.TOP.of e = 0) ∧
    (∃ (s : State) (g q idx e : Nat) (i : Inst), g < 4096 ∧ s.live = true ∧ s.inst g q = some i ∧ i.tops[idx]? = some e ∧
      i.fired.contains idx = false ∧ s.topReady i e = true ∧ TOP.TOP.of e = 4 ∧ TOP.R_EN.on e = false) ∧
    (∃ (s : State) (g q idx e : Nat) (i : Inst) (b : List Byte), g < 4096 ∧ s.live = true ∧ s.inst g q = some i ∧ i.tops[idx]? = some e
      ∧ i.fired.contains idx = false ∧ s.topReady i e = true ∧ (let s1 := if TOP.TSRC.on e then s.diverge i.ctx 1 else s;
      (let j : Inst := { i with fired := i.fired ++ [idx] }; (let u := (s1.setInst j).progress i.ring i.seq; u.member j (TOP.MEMB.of e)
      = ⟨0, b, u⟩ ∧ TOP.TOP.of e = 4 ∧ TOP.R_EN.on e = true)))) ∧
    (∃ (s : State) (g q idx e : Nat) (i : Inst) (b : List Byte), g < 4096 ∧ s.live = true ∧ s.inst g q = some i ∧ i.tops[idx]? = some e
      ∧ i.fired.contains idx = false ∧ s.topReady i e = true ∧ (let s1 := if TOP.TSRC.on e then s.diverge i.ctx 1 else s;
      (let j : Inst := { i with fired := i.fired ++ [idx] }; (let u := (s1.setInst j).progress i.ring i.seq; u.member j (TOP.MEMB.of e)
      = ⟨0, b, u⟩ ∧ TOP.TOP.of e = 1)))) ∧
    (∃ (s : State) (g q idx e : Nat) (i : Inst) (b : List Byte), g < 4096 ∧ s.live = true ∧ s.inst g q = some i ∧ i.tops[idx]? = some e
      ∧ i.fired.contains idx = false ∧ s.topReady i e = true ∧ (let s1 := if TOP.TSRC.on e then s.diverge i.ctx 1 else s;
      (let j : Inst := { i with fired := i.fired ++ [idx] }; (let u := (s1.setInst j).progress i.ring i.seq; u.member j (TOP.MEMB.of e)
      = ⟨0, b, u⟩ ∧ TOP.TOP.of e = 2)))) ∧
    (∃ (s : State) (g q idx e : Nat) (i : Inst) (a b : List Byte), g < 4096 ∧ s.live = true ∧ s.inst g q = some i ∧ i.tops[idx]? = some
      e ∧ i.fired.contains idx = false ∧ s.topReady i e = true ∧ (let s1 := if TOP.TSRC.on e then s.diverge i.ctx 1 else s;
      (let j : Inst := { i with fired := i.fired ++ [idx] }; (let u := (s1.setInst j).progress i.ring i.seq; TOP.TOP.of e = 3 ∧
      u.memRead (u.instAcc j) MEM_RGN.RD (TOP.A_ADDR.of e) (TOP.LEN.of e) = ⟨0, a, u⟩ ∧ u.memRead (u.instAcc j) MEM_RGN.RD
      (TOP.B_ADDR.of e) (TOP.LEN.of e) = ⟨0, b, u⟩ ∧
      (let m := u.memWrite (u.instAcc j) MEM_RGN.WR (TOP.D_ADDR.of e) (combineRuns (TOP.DFMT.of e) (TOP.DFMT.of e) (reduceOut (TOP.DFMT.of e) (TOP.ROP.of e)) (TOP.ROP.of e) a b);
      m.code = 0))))) ∧
    (∃ (s : State) (g q idx e : Nat) (i : Inst), g < 4096 ∧ s.hubUp = true ∧ s.inst g q = some i ∧ i.tops[idx]? = some e ∧
      i.acked.contains (topKey idx) = true ∧ i.doneT.contains idx = false) :=
  ⟨⟨with_ (trig [top []]), 9, 7, 0, top [], trig [top []], by decide +kernel⟩,
   ⟨with_ (trig [top [(TOP.TOP, 4)]]), 9, 7, 0, top [(TOP.TOP, 4)], trig [top [(TOP.TOP, 4)]], by decide +kernel⟩,
   ⟨with_ (trig [top [(TOP.TOP, 4), (TOP.R_EN, 1), (TOP.TCTR, 1), (TOP.THR, 5)]]), 9, 7, 0, top [(TOP.TOP, 4), (TOP.R_EN, 1),
     (TOP.TCTR, 1), (TOP.THR, 5)], trig [top [(TOP.TOP, 4), (TOP.R_EN, 1), (TOP.TCTR, 1), (TOP.THR, 5)]], zeros 4, by decide +kernel⟩,
   ⟨with_ (trig [top [(TOP.TOP, 1), (TOP.LEN, 32)]]), 9, 7, 0, top [(TOP.TOP, 1), (TOP.LEN, 32)], trig [top [(TOP.TOP, 1), (TOP.LEN,
     32)]], zeros 4, by decide +kernel⟩,
   ⟨with_ (trig [top [(TOP.TOP, 2), (TOP.LEN, 32)]]), 9, 7, 0, top [(TOP.TOP, 2), (TOP.LEN, 32)], trig [top [(TOP.TOP, 2), (TOP.LEN,
     32)]], zeros 4, by decide +kernel⟩,
   ⟨with_ (trig [top [(TOP.TOP, 3), (TOP.LEN, 32), (TOP.DFMT, INT32)]]), 9, 7, 0, top [(TOP.TOP, 3), (TOP.LEN, 32), (TOP.DFMT, INT32)],
     trig [top [(TOP.TOP, 3), (TOP.LEN, 32), (TOP.DFMT, INT32)]], zeros 32, zeros 32, by decide +kernel⟩,
   ⟨with_ { trig [top []] with acked := [topKey 0] }, 9, 7, 0, top [], { trig [top []] with acked := [topKey 0] }, by decide +kernel⟩⟩

/-- Nothing happens at a firing but the firing. -/
def calm : FireIn := ⟨[], .clean, 0⟩

/-- A descriptor of an opcode with some fields set. -/
def desc (op : Nat) (l : List (BF × Nat) := []) : Nat := packFields ((DESC.OPCODE, op) :: l)

/-- What a core holds of a command whose list is one descriptor long. -/
def one : Rsd := resident 1

/-- What it holds once the descriptor has become ready to fire. -/
def due (d : Nat) (r : Rsd := one) : Rsd := { r with next := some d, won := some ⟨true, true, (0, 0, 0), 0⟩ }

/-- A sequence of one page of keys and values, in slot 0 of the table at 1,024: page list at 2,048, counts at 3,072, summaries at 4,096. -/
def seq0 : Nat := packFields [(SEQD.SEQ_ID, 7), (SEQD.VALID, 1), (SEQD.PL_BASE, 2048), (SEQD.SM_BASE, 4096), (SEQD.CT_BASE, 3072)]

/-- Memory of that sequence, with one position written and its page at 8,192. -/
def seqMem : List Host.Cell := cellsOf 1024 (leBytes 64 seq0) ++ cellsOf 2048 (leBytes 8 (2 ^ 63 + 2)) ++ cellsOf 3072 (leBytes 64 1)

/-- The module in service with that sequence and a list whose descriptor is due. -/
def firing (d : Nat) (r : Rsd := due d) (l : List (Fld × Nat × Nat) := [(GCTL_ROLE.ROLE_ACT, 0, 2)]) : State :=
  { joining ([(GCTL_SEQTAB.EN, 0, 1), (GCTL_SEQTAB.BASE, 0, 16)] ++ l) with
    mem := { joining.mem with bytes := cellsOf 0 (leBytes 64 d) ++ seqMem }, core := { on.core with rsds := [r] } }

/-- The descriptor fires: what `Fires` asks, so that it can be decided. -/
def firesOk (op d : Nat) (r : Rsd) : Bool :=
  decide ((firing d r).rsd 0 3 5 = some r ∧ (firing d r).mayFire r = true ∧ r.next = some d ∧ DESC.OPCODE.of d = op ∧
    (firing d r).granted r.lcore = some r ∧ (firing d r).replaying r.ring r.seq = false)

/-- The hypotheses of `Fires`. -/
theorem fires_of {op d : Nat} {r : Rsd} (h : firesOk op d r = true) : (firing d r).Fires 0 3 5 op calm r d :=
  have h := of_decide_eq_true h
  ⟨by decide, by decide, h.1, h.2.1, h.2.2.1, h.2.2.2.1, h.2.2.2.2.1, h.2.2.2.2.2, ⟨rfl, rfl⟩⟩

/-- The hypotheses of each clause of `FiringCommon` are met. -/
theorem witness_firingCommon :
    (∃ (s : State) (lcore ring seq op : Nat) (f : FireIn) (r : Rsd) (d : Nat), s.Fires lcore ring seq op f r d ∧ r.ctx < 256 ∧ r.waitT0
      = none) ∧
    (∃ (s : State) (r : Rsd) (d : Nat), s.Becomes r d) ∧
    (∃ (s : State) (r : Rsd) (d : Nat), s.mayFire r = true ∧ r.next = none ∧ r.pos < r.wlLen ∧ (s.fillBuf r).1 = s ∧ tfind (s.fillBuf
      r).2.buf r.pos = some d ∧ (let q := (s.fillBuf r).2; (let j := s.descCheck q d; j.code ≠ 0))) :=
  ⟨⟨firing (desc 0x40), 0, 3, 5, 0x40, calm, due (desc 0x40), desc 0x40, fires_of (by decide +kernel), by decide +kernel⟩,
   ⟨firing (desc 0x40) one, one, desc 0x40, by constructor <;> decide +kernel⟩,
   ⟨firing (desc 0x7F) one, one, desc 0x7F, by decide +kernel⟩⟩

/-- The hypotheses of each clause of `EnginesFire` are met. -/
theorem witness_enginesFire :
    (∃ (s : State) (lcore ring seq op : Nat) (f : FireIn) (r : Rsd) (d : Nat), s.Fires lcore ring seq op f r d ∧
      (let u := s.fireCommon r d f.twait; (let q := r.fired d; op = 0x10 ∧ ((TEN.INIT.of d = 0 → tget u.core.chain r.site 0 = r.ctx +
      1)) ∧ (let t := u.initTile q d; t.1 = 0 ∧ limitBad t.2.1 (TEN.M_M1.of d + 1) (TEN.N_M1.of d + 1) (TEN.K.of d) = false)))) ∧
    (∃ (s : State) (lcore ring seq op : Nat) (f : FireIn) (r : Rsd) (d : Nat), s.Fires lcore ring seq op f r d ∧ op = 0x20) ∧
    (∃ (s : State) (lcore ring seq op : Nat) (f : FireIn) (r : Rsd) (d : Nat), s.Fires lcore ring seq op f r d ∧ op = 0x21) ∧
    (∃ (s : State) (lcore ring seq op : Nat) (f : FireIn) (r : Rsd) (d : Nat), s.Fires lcore ring seq op f r d ∧ op = 0x22) ∧
    (∃ (s : State) (lcore ring seq op : Nat) (f : FireIn) (r : Rsd) (d : Nat), s.Fires lcore ring seq op f r d ∧ op = 0x23) ∧
    (∃ (s : State) (lcore ring seq op : Nat) (f : FireIn) (r : Rsd) (d : Nat) (b : List Byte), s.Fires lcore ring seq op f r d ∧
      (let u := s.fireCommon r d f.twait; (let i := r.iter; op = 0x31 ∧ u.memRead (u.accOf r.ctx 0) MEM_RGN.ATOM (byteAddr d i
      SA.A_DADDR 0) 8 = ⟨0, b, u⟩ ∧ (let old := ofLE b; (let x := SA.OPND.of d;
      (let w (v : Nat) : MemRes := u.memPut (u.accOf r.ctx 0) MEM_RGN.ATOM (byteAddr d i SA.A_DADDR 0) (leBytes 8 v); SA.AOP.of d = 0 ∧
      (w (wrapAdd 64 old x)).code = 0)))))) ∧
    (∃ (s : State) (lcore ring seq op : Nat) (f : FireIn) (r : Rsd) (d : Nat) (b : List Byte), s.Fires lcore ring seq op f r d ∧
      (let u := s.fireCommon r d f.twait; (let i := r.iter; op = 0x31 ∧ u.memRead (u.accOf r.ctx 0) MEM_RGN.ATOM (byteAddr d i
      SA.A_DADDR 0) 8 = ⟨0, b, u⟩ ∧ (let old := ofLE b; (let x := SA.OPND.of d;
      (let w (v : Nat) : MemRes := u.memPut (u.accOf r.ctx 0) MEM_RGN.ATOM (byteAddr d i SA.A_DADDR 0) (leBytes 8 v); SA.AOP.of d = 1 ∧
      (w (wrapAdd 64 old x)).code = 0)))))) ∧
    (∃ (s : State) (lcore ring seq op : Nat) (f : FireIn) (r : Rsd) (d : Nat) (b : List Byte), s.Fires lcore ring seq op f r d ∧
      (let u := s.fireCommon r d f.twait; (let i := r.iter; op = 0x31 ∧ u.memRead (u.accOf r.ctx 0) MEM_RGN.ATOM (byteAddr d i
      SA.A_DADDR 0) 8 = ⟨0, b, u⟩ ∧ (let x := SA.OPND.of d;
      (let w (v : Nat) : MemRes := u.memPut (u.accOf r.ctx 0) MEM_RGN.ATOM (byteAddr d i SA.A_DADDR 0) (leBytes 8 v); SA.AOP.of d = 2 ∧
      (w x).code = 0))))) ∧
    (∃ (s : State) (lcore ring seq op : Nat) (f : FireIn) (r : Rsd) (d : Nat) (b : List Byte), s.Fires lcore ring seq op f r d ∧
      (let u := s.fireCommon r d f.twait; (let i := r.iter; op = 0x31 ∧ u.memRead (u.accOf r.ctx 0) MEM_RGN.ATOM (byteAddr d i
      SA.A_DADDR 0) 8 = ⟨0, b, u⟩ ∧ (let old := ofLE b; (let x := SA.OPND.of d;
      (let w (v : Nat) : MemRes := u.memPut (u.accOf r.ctx 0) MEM_RGN.ATOM (byteAddr d i SA.A_DADDR 0) (leBytes 8 v); SA.AOP.of d = 3 ∧
      (w (if old = SA.CMP.of d then x else old)).code = 0)))))) ∧
    (∃ (s : State) (lcore ring seq op : Nat) (f : FireIn) (r : Rsd) (d : Nat) (b : List Byte), s.Fires lcore ring seq op f r d ∧
      (let u := s.fireCommon r d f.twait; (let i := r.iter; op = 0x31 ∧ u.memRead (u.accOf r.ctx 0) MEM_RGN.ATOM (byteAddr d i
      SA.A_DADDR 0) 8 = ⟨0, b, u⟩ ∧ (let old := ofLE b; (let x := SA.OPND.of d;
      (let w (v : Nat) : MemRes := u.memPut (u.accOf r.ctx 0) MEM_RGN.ATOM (byteAddr d i SA.A_DADDR 0) (leBytes 8 v); SA.AOP.of d = 4 ∧
      (w (max old x)).code = 0)))))) :=
  ⟨⟨firing (desc 0x10 [(TEN.INIT, 1)]), 0, 3, 5, 0x10, calm, due (desc 0x10 [(TEN.INIT, 1)]), desc 0x10 [(TEN.INIT, 1)], fires_of
     (by decide +kernel), by decide +kernel⟩,
   ⟨firing (desc 0x20 [(VP.WIDTH_M1, 31)]), 0, 3, 5, 0x20, calm, due (desc 0x20 [(VP.WIDTH_M1, 31)]), desc 0x20 [(VP.WIDTH_M1, 31)],
     fires_of (by decide +kernel), by decide +kernel⟩,
   ⟨firing (desc 0x21), 0, 3, 5, 0x21, calm, due (desc 0x21), desc 0x21, fires_of (by decide +kernel), by decide +kernel⟩,
   ⟨firing (desc 0x22 [(OS.ST2_ADDR, 64)]), 0, 3, 5, 0x22, calm, due (desc 0x22 [(OS.ST2_ADDR, 64)]), desc 0x22 [(OS.ST2_ADDR, 64)],
     fires_of (by decide +kernel), by decide +kernel⟩,
   ⟨firing (desc 0x23 [(OS.OUT_ADDR, 64)]), 0, 3, 5, 0x23, calm, due (desc 0x23 [(OS.OUT_ADDR, 64)]), desc 0x23 [(OS.OUT_ADDR, 64)],
     fires_of (by decide +kernel), by decide +kernel⟩,
   ⟨firing (desc 0x31 [(SA.AOP, 0), (SA.A_DADDR, 16384), (SA.OPND, 5)]), 0, 3, 5, 0x31, calm, due (desc 0x31 [(SA.AOP, 0), (SA.A_DADDR,
     16384), (SA.OPND, 5)]), desc 0x31 [(SA.AOP, 0), (SA.A_DADDR, 16384), (SA.OPND, 5)], zeros 8, fires_of (by decide +kernel),
     by decide +kernel⟩,
   ⟨firing (desc 0x31 [(SA.AOP, 1), (SA.A_DADDR, 16384), (SA.OPND, 2 ^ 64 - 1)]), 0, 3, 5, 0x31, calm, due (desc 0x31 [(SA.AOP, 1),
     (SA.A_DADDR, 16384), (SA.OPND, 2 ^ 64 - 1)]), desc 0x31 [(SA.AOP, 1), (SA.A_DADDR, 16384), (SA.OPND, 2 ^ 64 - 1)], zeros 8,
     fires_of (by decide +kernel), by decide +kernel⟩,
   ⟨firing (desc 0x31 [(SA.AOP, 2), (SA.A_DADDR, 16384), (SA.OPND, 2 ^ 64 - 1)]), 0, 3, 5, 0x31, calm, due (desc 0x31 [(SA.AOP, 2),
     (SA.A_DADDR, 16384), (SA.OPND, 2 ^ 64 - 1)]), desc 0x31 [(SA.AOP, 2), (SA.A_DADDR, 16384), (SA.OPND, 2 ^ 64 - 1)], zeros 8,
     fires_of (by decide +kernel), by decide +kernel⟩,
   ⟨firing (desc 0x31 [(SA.AOP, 3), (SA.A_DADDR, 16384), (SA.OPND, 2 ^ 64 - 1)]), 0, 3, 5, 0x31, calm, due (desc 0x31 [(SA.AOP, 3),
     (SA.A_DADDR, 16384), (SA.OPND, 2 ^ 64 - 1)]), desc 0x31 [(SA.AOP, 3), (SA.A_DADDR, 16384), (SA.OPND, 2 ^ 64 - 1)], zeros 8,
     fires_of (by decide +kernel), by decide +kernel⟩,
   ⟨firing (desc 0x31 [(SA.AOP, 4), (SA.A_DADDR, 16384), (SA.OPND, 2 ^ 64 - 1)]), 0, 3, 5, 0x31, calm, due (desc 0x31 [(SA.AOP, 4),
     (SA.A_DADDR, 16384), (SA.OPND, 2 ^ 64 - 1)]), desc 0x31 [(SA.AOP, 4), (SA.A_DADDR, 16384), (SA.OPND, 2 ^ 64 - 1)], zeros 8,
     fires_of (by decide +kernel), by decide +kernel⟩⟩

/-- The hypotheses of each clause of `ControlDescriptors` are met. -/
theorem witness_controlDescriptors :
    (∃ (s : State) (lcore ring seq op : Nat) (f : FireIn) (r : Rsd) (d : Nat), s.Fires lcore ring seq op f r d ∧ op = 0x40) ∧
    (∃ (s : State) (lcore ring seq op : Nat) (f : FireIn) (r : Rsd) (d : Nat), s.Fires lcore ring seq op f r d ∧ op = 0x41 ∧
      DESC.S_EN.on d = true) ∧
    (∃ (s : State) (lcore ring seq op : Nat) (f : FireIn) (r : Rsd) (d : Nat), s.Fires lcore ring seq op f r d ∧ op = 0x41 ∧
      DESC.S_EN.on d = false) ∧
    (∃ (s : State) (lcore ring seq op : Nat) (f : FireIn) (r : Rsd) (d : Nat), s.Fires lcore ring seq op f r d ∧ op = 0x42) ∧
    (∃ (s : State) (lcore ring seq op : Nat) (f : FireIn) (r : Rsd) (d : Nat), s.Fires lcore ring seq op f r d ∧ op = 0x50) ∧
    (∃ (s : State) (lcore ring seq op : Nat) (f : FireIn) (r : Rsd) (d p n k : Nat) (l : List (Nat × Nat × Nat)), s.Fires lcore ring
      seq op f r d ∧ op = 0x51 ∧ r.loops = (p, n, k) :: l ∧ k + 1 < n) ∧
    (∃ (s : State) (lcore ring seq op : Nat) (f : FireIn) (r : Rsd) (d p n k : Nat) (l : List (Nat × Nat × Nat)), s.Fires lcore ring
      seq op f r d ∧ op = 0x51 ∧ r.loops = (p, n, k) :: l ∧ n ≤ k + 1) ∧
    (∃ (s : State) (lcore ring seq op : Nat) (f : FireIn) (r : Rsd) (d : Nat), s.Fires lcore ring seq op f r d ∧
      (let u := s.fireCommon r d f.twait; (let q := r.fired d; op = 0x52 ∧
      (let w := leAt (u.csRead r.site (32 * SKIPD.C_ADDR.of d) 4) 0 4; q.skips d w = true)))) ∧
    (∃ (s : State) (lcore ring seq op : Nat) (f : FireIn) (r : Rsd) (d : Nat), s.Fires lcore ring seq op f r d ∧
      (let u := s.fireCommon r d f.twait; (let q := r.fired d; op = 0x52 ∧
      (let w := leAt (u.csRead r.site (32 * SKIPD.C_ADDR.of d) 4) 0 4; q.skips d w = false)))) ∧
    (∃ (s : State) (lcore ring seq op : Nat) (f : FireIn) (r : Rsd) (d : Nat), s.Fires lcore ring seq op f r d ∧ op = 0x53) ∧
    (∃ (s : State) (lcore ring seq op : Nat) (f : FireIn) (r : Rsd) (d : Nat), s.Fires lcore ring seq op f r d ∧ op = 0x54) ∧
    (∃ (s : State) (lcore ring seq op : Nat) (f : FireIn) (r : Rsd) (d : Nat), s.Fires lcore ring seq op f r d ∧ op = 0x55) ∧
    (∃ (s : State) (n : Nat) (g : Sig) (r : Rsd), s.hubUp = true ∧ s.core.sigs[n]? = some g ∧ s.sigFirst n g = true ∧ s.rsd g.lcore
      g.ring g.seq = some r ∧ r.dead = false ∧ r.ctrs.getD g.ctr 0 + g.inc < 2 ^ 32) :=
  ⟨⟨firing (desc 0x40 [(DESC.S_EN, 1), (DESC.S_INC, 255)]), 0, 3, 5, 0x40, calm, due (desc 0x40 [(DESC.S_EN, 1), (DESC.S_INC, 255)]),
     desc 0x40 [(DESC.S_EN, 1), (DESC.S_INC, 255)], fires_of (by decide +kernel), by decide +kernel⟩,
   ⟨firing (desc 0x41 [(DESC.S_EN, 1), (DESC.S_INC, 255)]), 0, 3, 5, 0x41, calm, due (desc 0x41 [(DESC.S_EN, 1), (DESC.S_INC, 255)]),
     desc 0x41 [(DESC.S_EN, 1), (DESC.S_INC, 255)], fires_of (by decide +kernel), by decide +kernel⟩,
   ⟨firing (desc 0x41), 0, 3, 5, 0x41, calm, due (desc 0x41), desc 0x41, fires_of (by decide +kernel), by decide +kernel⟩,
   ⟨firing (desc 0x42), 0, 3, 5, 0x42, calm, due (desc 0x42), desc 0x42, fires_of (by decide +kernel), by decide +kernel⟩,
   ⟨firing (desc 0x50 [(LOOPB.COUNT, 2)]), 0, 3, 5, 0x50, calm, due (desc 0x50 [(LOOPB.COUNT, 2)]), desc 0x50 [(LOOPB.COUNT, 2)],
     fires_of (by decide +kernel), by decide +kernel⟩,
   ⟨firing (desc 0x51) (due (desc 0x51) ({ one with loops := [(1, 2, 0)] })), 0, 3, 5, 0x51, calm, due (desc 0x51)
     ({ one with loops := [(1, 2, 0)] }), desc 0x51, 1, 2, 0, [], fires_of (by decide +kernel), by decide +kernel⟩,
   ⟨firing (desc 0x51) (due (desc 0x51) ({ one with loops := [(1, 1, 0)] })), 0, 3, 5, 0x51, calm, due (desc 0x51)
     ({ one with loops := [(1, 1, 0)] }), desc 0x51, 1, 1, 0, [], fires_of (by decide +kernel), by decide +kernel⟩,
   ⟨firing (desc 0x52 [(SKIPD.N, 1)]) (due (desc 0x52 [(SKIPD.N, 1)]) (resident 2)), 0, 3, 5, 0x52, calm, due (desc 0x52 [(SKIPD.N,
     1)]) (resident 2), desc 0x52 [(SKIPD.N, 1)], fires_of (by decide +kernel), by decide +kernel⟩,
   ⟨firing (desc 0x52 [(SKIPD.N, 1), (SKIPD.COND, 5)]) (due (desc 0x52 [(SKIPD.N, 1), (SKIPD.COND, 5)]) (resident 2)), 0, 3, 5, 0x52,
     calm, due (desc 0x52 [(SKIPD.N, 1), (SKIPD.COND, 5)]) (resident 2), desc 0x52 [(SKIPD.N, 1), (SKIPD.COND, 5)], fires_of
     (by decide +kernel), by decide +kernel⟩,
   ⟨firing (desc 0x53), 0, 3, 5, 0x53, calm, due (desc 0x53), desc 0x53, fires_of (by decide +kernel), by decide +kernel⟩,
   ⟨firing (desc 0x54 [(FAILD.UCODE, 7)]), 0, 3, 5, 0x54, calm, due (desc 0x54 [(FAILD.UCODE, 7)]), desc 0x54 [(FAILD.UCODE, 7)],
     fires_of (by decide +kernel), by decide +kernel⟩,
   ⟨firing (desc 0x55), 0, 3, 5, 0x55, calm, due (desc 0x55), desc 0x55, fires_of (by decide +kernel), by decide +kernel⟩,
   ⟨{ firing 0 with core := { on.core with rsds := [one], sigs := [⟨3, 5, 0, 0, 255, 0, 0, 0, 0⟩] } }, 0, ⟨3, 5, 0, 0, 255, 0, 0, 0,
     0⟩, one, by decide +kernel⟩⟩

/-- Whether an act gave a value and left a state. -/
def gotIs {α : Type} [DecidableEq α] (g : Got α) (a : α) (t : State) : Bool :=
  match g with
  | (.ok b, s) => decide (b = a ∧ s = t)
  | (.error _, _) => false

/-- What that says. -/
theorem got_eq {α : Type} [DecidableEq α] {a : α} {t : State} {g : Got α} (h : gotIs g a t = true) : g = (.ok a, t) := by
  obtain ⟨e, s⟩ := g
  cases e with
  | error e => simp [gotIs] at h
  | ok b =>
    simp only [gotIs, decide_eq_true_eq] at h
    rw [h.1, h.2]

/-- A descriptor that has fired with some of its work done. -/
def fly (d started told : Nat) (written : List Nat) (ready : Bool) : Flight := ⟨0, 0, 0, d, 0, started, written, told, [], [0], ready, 0, [], []⟩

/-- What a core holds of a command with that in flight. -/
def flown (f : Flight) : Rsd := { one with flights := [f] }

/-- A transfer of 512 bytes in two parts. -/
def move (src dst : Nat) : Nat := desc 0x30 [(SM.SRC_SP, src), (SM.DST_SP, dst), (SM.SRC_ADDR, 8192), (SM.DST_ADDR, 16384), (SM.LEN, 512)]

/-- The hypotheses of each clause of `Transfers` are met. -/
theorem witness_transfers :
    (∃ (s : State) (lcore ring seq : Nat) (f : FireIn) (r : Rsd) (d : Nat), s.Fires lcore ring seq 0x30 f r d ∧ SM.DST_SP.of d ≠ 3) ∧
    (∃ (s : State) (lcore ring seq : Nat) (f : FireIn) (r : Rsd) (d : Nat) (g : Flight), s.Fires lcore ring seq 0x30 f r d ∧
      SM.DST_SP.of d = 3 ∧ (let v := (s.fireCommon r d f.twait).launchFlight (r.fired d) d id; (v.rsd r.lcore r.ring r.seq).bind
      (·.flights.getLast?) = some g)) ∧
    (∃ (s : State) (lcore ring seq : Nat) (f : FireIn) (r : Rsd) (d : Nat) (l : Nat × List Nat), s.Fires lcore ring seq 0x61 f r d ∧
      (let u := s.fireCommon r d f.twait; u.agather (r.fired d) d = (.ok l, u))) ∧
    (∃ (s : State) (lcore ring seq k : Nat) (f : FireIn) (r : Rsd) (g : Flight) (b : List Byte), lcore < 2048 ∧ ring < 8192 ∧ s.hubUp =
      true ∧ f.hbm = [] ∧ f.ecc = .clean ∧ s.flightAt lcore ring seq k = some (r, g) ∧ DESC.OPCODE.of g.word = 0x30 ∧ SM.SRC_SP.of
      g.word = 1 ∧ SM.DST_SP.of g.word = 0 ∧ g.started < partCount g.word ∧ r.credited g.word g.started = true ∧ (let n := g.started;
      (let d := g.word; s.memRead (s.accOf r.ctx 0) MEM_RGN.RD (byteAddr d g.iter SM.SRC_ADDR 0 + partOff d n) (partLen d n) = ⟨0, b,
      s⟩))) ∧
    (∃ (s : State) (lcore ring seq k : Nat) (f : FireIn) (r : Rsd) (g : Flight), lcore < 2048 ∧ ring < 8192 ∧ s.hubUp = true ∧ f.hbm =
      [] ∧ s.flightAt lcore ring seq k = some (r, g) ∧ DESC.OPCODE.of g.word = 0x30 ∧ g.started < partCount g.word ∧ r.credited g.word
      g.started = true ∧ SM.DST_SP.of g.word = 3) ∧
    (∃ (s : State) (lcore ring seq k : Nat) (f : FireIn) (r : Rsd) (g : Flight), lcore < 2048 ∧ ring < 8192 ∧ s.hubUp = true ∧ f.hbm =
      [] ∧ s.flightAt lcore ring seq k = some (r, g) ∧ DESC.OPCODE.of g.word = 0x30 ∧ g.started < partCount g.word ∧ r.credited g.word
      g.started = true ∧ SM.DST_SP.of g.word ≠ 3 ∧ SM.SRC_SP.of g.word = 3) ∧
    (∃ (s : State) (lcore ring seq k : Nat) (f : FireIn) (r : Rsd) (g : Flight), lcore < 2048 ∧ ring < 8192 ∧ s.hubUp = true ∧ f.hbm =
      [] ∧ s.flightAt lcore ring seq k = some (r, g) ∧ DESC.OPCODE.of g.word = 0x61) ∧
    (∃ (s : State) (lcore ring seq k : Nat) (r : Rsd) (g : Flight), lcore < 2048 ∧ ring < 8192 ∧ s.hubUp = true ∧ s.flightAt lcore ring
      seq k = some (r, g) ∧ g.told < g.started ∧ ((DESC.OPCODE.of g.word = 0x30 ∧ s.partsDone r g g.told = true) ∨ (DESC.OPCODE.of
      g.word = 0x61 ∧ g.written.contains g.told = true))) ∧
    (∃ (s : State) (lcore ring seq k : Nat) (r : Rsd) (g : Flight), lcore < 2048 ∧ ring < 8192 ∧ s.hubUp = true ∧ s.flightAt lcore ring
      seq k = some (r, g) ∧ g.ready = true) :=
  ⟨⟨firing (move 1 0), 0, 3, 5, calm, due (move 1 0), move 1 0, fires_of (by decide +kernel), by decide +kernel⟩,
   ⟨firing (move 0 3), 0, 3, 5, calm, due (move 0 3), move 0 3, ⟨0, 0, 0, move 0 3, 0, 0, [], 0, [], [], false, 0, [], []⟩, fires_of
     (by decide +kernel), by decide +kernel⟩,
   ⟨firing (desc 0x61 [(AGA.RANGE, 1), (AGA.SEQ_ID, 7), (AGA.NTOK, 1), (AGA.DST_ADDR, 64), (AGA.PG_STEP, 1024), (AGA.K_STRIDE, 4),
     (AGA.V_OFF, 256), (AGA.V_STRIDE, 4), (AGA.M_OFF, 512)]), 0, 3, 5, calm, due (desc 0x61 [(AGA.RANGE, 1), (AGA.SEQ_ID, 7),
     (AGA.NTOK, 1), (AGA.DST_ADDR, 64), (AGA.PG_STEP, 1024), (AGA.K_STRIDE, 4), (AGA.V_OFF, 256), (AGA.V_STRIDE, 4), (AGA.M_OFF,
     512)]), desc 0x61 [(AGA.RANGE, 1), (AGA.SEQ_ID, 7), (AGA.NTOK, 1), (AGA.DST_ADDR, 64), (AGA.PG_STEP, 1024), (AGA.K_STRIDE, 4),
     (AGA.V_OFF, 256), (AGA.V_STRIDE, 4), (AGA.M_OFF, 512)], (seq0, [0]), fires_of (by decide +kernel), got_eq (by decide +kernel)⟩,
   ⟨firing 0 (flown (fly (move 1 0) 1 0 [0] false)), 0, 3, 5, 0, calm, flown (fly (move 1 0) 1 0 [0] false), fly (move 1 0) 1 0 [0]
     false, zeros 256, by decide +kernel⟩,
   ⟨firing 0 (flown (fly (move 0 3) 1 0 [] false)), 0, 3, 5, 0, calm, flown (fly (move 0 3) 1 0 [] false), fly (move 0 3) 1 0 [] false,
     by decide +kernel⟩,
   ⟨firing 0 (flown (fly (move 3 0) 1 0 [] false)), 0, 3, 5, 0, calm, flown (fly (move 3 0) 1 0 [] false), fly (move 3 0) 1 0 [] false,
     by decide +kernel⟩,
   ⟨firing 0 (flown (fly (desc 0x61) 0 0 [] false)), 0, 3, 5, 0, calm, flown (fly (desc 0x61) 0 0 [] false), fly (desc 0x61) 0 0 []
     false, by decide +kernel⟩,
   ⟨firing 0 (flown (fly (move 1 0) 2 1 [0, 1] false)), 0, 3, 5, 0, flown (fly (move 1 0) 2 1 [0, 1] false), fly (move 1 0) 2 1 [0, 1]
     false, by decide +kernel⟩,
   ⟨firing 0 (flown (fly (move 1 0) 2 2 [0, 1] true)), 0, 3, 5, 0, flown (fly (move 1 0) 2 2 [0, 1] true), fly (move 1 0) 2 2 [0, 1]
     true, by decide +kernel⟩⟩

/-- The hypotheses of each clause of `ExactAccumulators` are met. -/
theorem witness_exactAccumulators :
    (∃ (a : Accum), -2 ^ 599 ≤ a.i ∧ a.i < 2 ^ 599) ∧
    (∃ (x y : List XV) (l l' : List ((Bool × Nat × Nat) × (Bool × Nat × Nat))), l.Perm l' ∧ (x = l.map (fun e => .fin e.1.1 e.1.2.1
      e.1.2.2)) ∧ (y = l.map (fun e => .fin e.2.1 e.2.2.1 e.2.2.2))) ∧
    (∃ (a : Accum), -2 ^ 599 ≤ a.i ∧ a.i < 2 ^ 599 ∧ a.count < 2 ^ 28) :=
  ⟨⟨⟨2 ^ 599 - 1, true, false, true, 0⟩, by decide +kernel⟩,
   ⟨[.fin false 3 0, .fin true 1 4], [.fin false 1 1, .fin false 2 0], [((false, 3, 0), (false, 1, 1)), ((true, 1, 4), (false, 2, 0))],
     [((true, 1, 4), (false, 2, 0)), ((false, 3, 0), (false, 1, 1))], .swap _ _ _, rfl, rfl⟩,
   ⟨⟨2 ^ 599 - 1, true, false, true, 2 ^ 28 - 1⟩, by decide +kernel⟩⟩

/-- A router with ports 0, 1 and 18 up; module 1 lies beyond port 0, rack 1 beyond port 18. -/
def routing (l : List (Fld × Nat × Nat) := []) : State :=
  at_ ([(FAB_CTL.EN, 0, 1), (FAB_CTL.NRACK_M1, 0, 1), (FAB_PORT.LINK_UP, 0, 1), (FAB_PORT.LINK_UP, 1, 1), (FAB_PORT.LINK_UP, 18, 1),
    (LANE_PSTAT.LSTATE, 0, 0), (LANE_PSTAT.LSTATE, 1, 0), (LANE_PSTAT.LSTATE, 18, 0), (FAB_PORT.PMASK, 0, 1), (FAB_PORT.PMASK, 1, 1),
    (FAB_LOCAL.MASK, 1, 1)] ++ l)

/-- A PUT of module 9 to a module. -/
def putTo (m : Nat) (l : List (BF × Nat) := []) : Pkt := mkPkt ([(PH.TYPE, tyPUT), (PH.SRC, epAddr 9 5), (PH.DEST, epAddr m 5), (PH.MTLEN, 1)] ++ l) [7]

/-- The router with two flits of credit on channel 0 of port 0. -/
def credited : State := { routing with fab := { on.fab with credits := [(0, 2)] } }

/-- The hypotheses of each clause of `Routing` are met. -/
theorem witness_routing :
    (∃ (s : State) (arr : Nat) (p : Pkt) (ctr : Nat) (tagOk : Bool), arr ≤ 22 ∧ s.hubUp = true ∧ s.fon FAB_CTL.EN 0 = true ∧ (arr = 22
      ∨ (s.fon FAB_PORT.LINK_UP arr = true ∧ s.mayCross arr p = true)) ∧ (arr < 18 ∨ arr = 22 ∨ (tagOk = true ∧ tget s.fab.linkRx arr 0
      < ctr)) ∧ s.frozen = false ∧ p.bad = false ∧ PH.HCRC.of p.hdr = hcrcOf p.hdr ∧ 1 ≤ PH.TYPE.of p.hdr ∧ PH.TYPE.of p.hdr ≤ 12 ∧
      (PH.TYPE.of p.hdr = 12 ∨ PH.TYPE.of p.hdr = 10)) ∧
    (∃ (s : State) (arr : Nat) (p : Pkt) (ctr : Nat) (tagOk : Bool), arr ≤ 22 ∧ s.hubUp = true ∧ s.fon FAB_CTL.EN 0 = true ∧ (arr = 22
      ∨ (s.fon FAB_PORT.LINK_UP arr = true ∧ s.mayCross arr p = true)) ∧ (arr < 18 ∨ arr = 22 ∨ (tagOk = true ∧ tget s.fab.linkRx arr 0
      < ctr)) ∧ s.frozen = false ∧ p.bad = false ∧ PH.HCRC.of p.hdr = hcrcOf p.hdr ∧ 1 ≤ PH.TYPE.of p.hdr ∧ PH.TYPE.of p.hdr ≤ 12 ∧
      PH.TYPE.of p.hdr ≠ 12 ∧ PH.TYPE.of p.hdr ≠ 10 ∧ PH.MCAST.on p.hdr = true) ∧
    (∃ (s : State) (arr : Nat) (p : Pkt) (q : List Nat) (ctr : Nat) (tagOk : Bool), arr ≤ 22 ∧ s.hubUp = true ∧ s.fon FAB_CTL.EN 0 =
      true ∧ (arr = 22 ∨ (s.fon FAB_PORT.LINK_UP arr = true ∧ s.mayCross arr p = true)) ∧ (arr < 18 ∨ arr = 22 ∨ (tagOk = true ∧ tget
      s.fab.linkRx arr 0 < ctr)) ∧ s.frozen = false ∧ p.bad = false ∧ PH.HCRC.of p.hdr = hcrcOf p.hdr ∧ 1 ≤ PH.TYPE.of p.hdr ∧
      PH.TYPE.of p.hdr ≤ 12 ∧ (let u := s.heeds arr q ctr; PH.TYPE.of p.hdr ≠ 12 ∧ PH.TYPE.of p.hdr ≠ 10 ∧ PH.MCAST.on p.hdr = false ∧
      u.route arr p = .eject)) ∧
    (∃ (s : State) (arr : Nat) (p : Pkt) (q : List Nat) (ctr : Nat) (tagOk : Bool) (c : _), arr ≤ 22 ∧ s.hubUp = true ∧ s.fon
      FAB_CTL.EN 0 = true ∧ (arr = 22 ∨ (s.fon FAB_PORT.LINK_UP arr = true ∧ s.mayCross arr p = true)) ∧ (arr < 18 ∨ arr = 22 ∨ (tagOk
      = true ∧ tget s.fab.linkRx arr 0 < ctr)) ∧ s.frozen = false ∧ p.bad = false ∧ PH.HCRC.of p.hdr = hcrcOf p.hdr ∧ 1 ≤ PH.TYPE.of
      p.hdr ∧ PH.TYPE.of p.hdr ≤ 12 ∧ (let u := s.heeds arr q ctr; PH.TYPE.of p.hdr ≠ 12 ∧ PH.TYPE.of p.hdr ≠ 10 ∧ PH.MCAST.on p.hdr =
      false ∧ u.route arr p = .nack c)) ∧
    (∃ (s : State) (arr : Nat) (p : Pkt) (q : List Nat) (ctr : Nat) (tagOk : Bool), arr ≤ 22 ∧ s.hubUp = true ∧ s.fon FAB_CTL.EN 0 =
      true ∧ (arr = 22 ∨ (s.fon FAB_PORT.LINK_UP arr = true ∧ s.mayCross arr p = true)) ∧ (arr < 18 ∨ arr = 22 ∨ (tagOk = true ∧ tget
      s.fab.linkRx arr 0 < ctr)) ∧ s.frozen = false ∧ p.bad = false ∧ PH.HCRC.of p.hdr = hcrcOf p.hdr ∧ 1 ≤ PH.TYPE.of p.hdr ∧
      PH.TYPE.of p.hdr ≤ 12 ∧ (let u := s.heeds arr q ctr; PH.TYPE.of p.hdr ≠ 12 ∧ PH.TYPE.of p.hdr ≠ 10 ∧ PH.MCAST.on p.hdr = false ∧
      u.route arr p = .drop)) ∧
    (∃ (s : State) (arr : Nat) (p : Pkt) (q : List Nat) (ctr : Nat) (tagOk : Bool) (l : List Nat) (detour : Bool) (o vc : Nat) (v :
      State), arr ≤ 22 ∧ s.hubUp = true ∧ s.fon FAB_CTL.EN 0 = true ∧ (arr = 22 ∨ (s.fon FAB_PORT.LINK_UP arr = true ∧ s.mayCross arr p
      = true)) ∧ (arr < 18 ∨ arr = 22 ∨ (tagOk = true ∧ tget s.fab.linkRx arr 0 < ctr)) ∧ s.frozen = false ∧ p.bad = false ∧ PH.HCRC.of
      p.hdr = hcrcOf p.hdr ∧ 1 ≤ PH.TYPE.of p.hdr ∧ PH.TYPE.of p.hdr ≤ 12 ∧ (let u := s.heeds arr q ctr; PH.TYPE.of p.hdr ≠ 12 ∧
      PH.TYPE.of p.hdr ≠ 10 ∧ PH.MCAST.on p.hdr = false ∧ u.route arr p = .ports l detour ∧ u.shallowest l = some o ∧ nextVc (arrivedBy
      arr p) (isG o) detour = some vc ∧ u.mayCross o p = true ∧ u.grant o vc p u.time.run arr = some v)) ∧
    (∃ (s : State) (arr : Nat) (p : Pkt) (q : List Nat) (ctr : Nat) (tagOk : Bool) (l : List Nat) (detour : Bool) (o vc : Nat), arr ≤
      22 ∧ s.hubUp = true ∧ s.fon FAB_CTL.EN 0 = true ∧ (arr = 22 ∨ (s.fon FAB_PORT.LINK_UP arr = true ∧ s.mayCross arr p = true)) ∧
      (arr < 18 ∨ arr = 22 ∨ (tagOk = true ∧ tget s.fab.linkRx arr 0 < ctr)) ∧ s.frozen = false ∧ p.bad = false ∧ PH.HCRC.of p.hdr =
      hcrcOf p.hdr ∧ 1 ≤ PH.TYPE.of p.hdr ∧ PH.TYPE.of p.hdr ≤ 12 ∧ (let u := s.heeds arr q ctr; PH.TYPE.of p.hdr ≠ 12 ∧ PH.TYPE.of
      p.hdr ≠ 10 ∧ PH.MCAST.on p.hdr = false ∧ u.route arr p = .ports l detour ∧ u.shallowest l = some o ∧ nextVc (arrivedBy arr p)
      (isG o) detour = some vc ∧ u.mayCross o p = true ∧ u.grant o vc p u.time.run arr = none)) ∧
    (∃ (s : State) (n : Nat) (e : Pkt × Nat × Nat), s.hubUp = true ∧ s.fab.waiting[n]? = some e ∧ e.2.2 + 2000000 < s.time.run) ∧
    (∃ (s : State) (n : Nat) (c : Crossing), s.hubUp = true ∧ s.fab.waiting[n]? = none ∧ s.fab.cross[n - s.fab.waiting.length]? = some
      c ∧ c.since + 2000000 < s.time.run) ∧
    (∃ (s : State) (w : Who) (v : Nat), s.reaches w = true ∧ s.barred w .FAB_CTL 0 v = .none ∧ s.isStatus .FAB_CTL 0 v = false ∧
      s.fabCtlBad v = false ∧ s.fon FAB_CTL.EN 0 = false ∧ FAB_CTL.EN.bit v = true) ∧
    (∃ (s : State) (w : Who) (v : Nat), s.reaches w = true ∧ s.barred w .FAB_CTL 0 v = .none ∧ s.isStatus .FAB_CTL 0 v = false ∧
      s.fabCtlBad v = false ∧ (s.fon FAB_CTL.EN 0 = true ∨ FAB_CTL.EN.bit v = false)) :=
  ⟨⟨routing, 18, mkPkt [(PH.TYPE, tyTIME)] [6], 1, true, by decide +kernel⟩,
   ⟨routing, 0, mkPkt [(PH.TYPE, tyPUT), (PH.MCAST, 1)] [7], 0, false, by decide +kernel⟩,
   ⟨routing, 22, putTo 0, [], 0, false, by decide +kernel⟩,
   ⟨routing, 22, putTo 128, [], 0, false, 0x0208, by decide +kernel⟩,
   ⟨routing, 1, putTo 1 [(PH.HOPS, 7)], [], 0, false, by decide +kernel⟩,
   ⟨credited, 22, putTo 1, [3], 0, false, [0], false, 0, 0, ((credited.heeds 22 [3] 0).grant 0 0 (putTo 1) 0 22).getD on,
     by decide +kernel⟩,
   ⟨routing, 22, putTo 1, [3], 0, false, [0], false, 0, 0, by decide +kernel⟩,
   ⟨{ on with fab := { on.fab with waiting := [(putTo 1, 22, 0)] }, time := { on.time with run := 2000001 } }, 0, (putTo 1, 22, 0),
     by decide +kernel⟩,
   ⟨{ on with fab := { on.fab with cross := [⟨0, 0, putTo 1, 1, 0, 22⟩] }, time := { on.time with run := 2000001 } }, 0, ⟨0, 0, putTo
     1, 1, 0, 22⟩, by decide +kernel⟩,
   ⟨on, .s, wd [(FAB_CTL.EN, 1), (FAB_CTL.RACK, 255), (FAB_CTL.NRACK_M1, 255)], by decide +kernel⟩,
   ⟨on, .s, wd [(FAB_CTL.NRACK_M1, 255), (FAB_CTL.MODE, 1)], by decide +kernel⟩⟩

/-- The hypotheses of each clause of `DefaultTables` are met. -/
theorem witness_defaultTables :
    (∃ (s : State) (t' c' : _), (let t := s.fget FAB_CTL.TRAY 0; (let c := s.fget FAB_CTL.SLOT 0; t < 16 ∧ c < 4 ∧ t' < 16 ∧ c' < 4 ∧ ¬
      (t' = t ∧ c' = c)))) ∧
    (∃ (s : State) (r : _), (let t := s.fget FAB_CTL.TRAY 0; (let c := s.fget FAB_CTL.SLOT 0; t < 16 ∧ c < 4 ∧ r < 256 ∧ s.fget
      FAB_CTL.RACK 0 < 256))) :=
  ⟨⟨at_ [(FAB_CTL.TRAY, 0, 15), (FAB_CTL.SLOT, 0, 3)], 0, 0, by decide +kernel⟩,
   ⟨at_ [(FAB_CTL.RACK, 0, 255)], 255, by decide +kernel⟩⟩

/-- A stream from endpoint 5 to endpoint 7 of module 6, with packets outstanding. -/
def stream (out : List OutPkt) : SStream := ⟨5, 6, 7, 1, 1, false, 0, out⟩

/-- Its first packet, outstanding. -/
def first : OutPkt := ⟨0, 0, 0, 64, 64, true, false, 0, 0, 0, 10, 0, 0, false, []⟩

/-- A transfer of 64 bytes on it, of which some are sent. -/
def xfer (sent : Nat) : Xfer := { mkXfer .hub none 5 6 7 tyPUT 0 0 0 64 (.lit (zeros 64)) with sent := sent }

/-- The module with them, at a time. -/
def sends (t : SStream) (x : List Xfer) (now : Nat := 0) : State :=
  { at_ [(FAB_CTL.EN, 0, 1)] with fab := { on.fab with sstr := [t], xfers := x }, time := { on.time with now := now, run := now } }

/-- An answer of the stream's destination. -/
def answer (ty : Nat) (pay : List Byte) : Pkt := mkPkt [(PH.TYPE, ty), (PH.SRC, epAddr 6 7), (PH.DEST, epAddr 0 5), (PH.SSEQ, 0), (PH.MTLEN, 32)] pay

/-- The hypotheses of each clause of `SourceStreams` are met. -/
theorem witness_sourceStreams :
    (∃ (s : State) (id : Nat) (x : Xfer) (b : List Byte), s.hubUp = true ∧ s.fon FAB_CTL.EN 0 = true ∧ s.xfer id = some x ∧ s.holdsBack
      x = false ∧ x.failed = false ∧ x.stepLen ≠ 0 ∧ (x.dmod < 16384 ∨ s.groupOpen (x.dmod - 16384) = true) ∧ s.windowRoom (s.streamOr
      x.ep x.dmod x.dep) x.nextPay = true ∧ s.payFor x x.sent x.stepLen = ⟨0, b, s⟩) ∧
    (∃ (s : State) (ep dmod dep seq : Nat) (t : SStream) (o : OutPkt), s.hubUp = true ∧ s.fon FAB_CTL.EN 0 = true ∧ s.stream ep dmod
      dep = some t ∧ (t.out.find? (fun o => decide (o.seq = seq)) = some o) ∧ (s.xfer o.xfer).any s.holdsBack = false ∧ o.tSent + o.rto
      * 1000 ≤ s.time.now) ∧
    (∃ (s : State) (ep dmod dep : Nat) (t : SStream) (o : OutPkt) (x : Xfer), s.hubUp = true ∧ s.stream ep dmod dep = some t ∧
      (t.out.find? (fun o => !o.void) = some o) ∧ o.t0 + s.stallNs ≤ s.time.run ∧ s.xfer o.xfer = some x) ∧
    (∃ (s : State) (ep dmod dep : Nat) (t : SStream) (x : Xfer), s.hubUp = true ∧ s.stream ep dmod dep = some t ∧ x ∈ s.fab.xfers ∧
      s.voidLate t x = true ∧ dmod < 16384) ∧
    (∃ (s : State) (smod sep dep : Nat) (t : DStream), s.hubUp = true ∧ (s.fab.dstr.find? (fun t => decide (t.smod = smod) && decide
      (t.sep = sep) && decide (t.dep = dep)) = some t) ∧ s.fon FAB_PAIR.VALID smod = false ∧ s.hasOpen smod sep dep = false ∧ t.last +
      s.fget FAB_XPORT.IDLE 0 * 1000000 ≤ s.time.now) ∧
    (∃ (s : State) (ep dmod dep : Nat) (t : SStream), s.hubUp = true ∧ s.stream ep dmod dep = some t ∧ t.out = [] ∧ s.inPair = false ∧
      t.last + 50000000 ≤ s.time.now ∧ s.fab.xfers.any (·.pendingOn t) = false) ∧
    (∃ (s : State) (p : Pkt) (t : SStream), s.heard p 4 = true ∧ s.ackStreams p = [t]) ∧
    (∃ (s : State) (p : Pkt) (t : SStream) (o : OutPkt), s.heard p 5 = true ∧ s.nackStreams p = [t] ∧ t.out.find? (s.names p) = some o
      ∧ o.void = false ∧ (let code := leAt p.pay 0 2; code = 0x0210 ∧ o.crcN < s.fget FAB_XPORT.RETRY 0)) ∧
    (∃ (s : State) (p : Pkt) (t : SStream) (o : OutPkt), s.heard p 5 = true ∧ s.nackStreams p = [t] ∧ t.out.find? (s.names p) = some o
      ∧ o.void = false ∧ (let code := leAt p.pay 0 2; code = 0x0211)) ∧
    (∃ (s : State) (p : Pkt) (t : SStream) (o : OutPkt), s.heard p 5 = true ∧ s.nackStreams p = [t] ∧ t.out.find? (s.names p) = some o
      ∧ o.void = false ∧ (let code := leAt p.pay 0 2; code = 0x0203 ∧ s.isQuery o = false ∧ o.unrN < s.fget FAB_XPORT.RETRY 0)) ∧
    (∃ (s : State) (p : Pkt) (t : SStream) (o : OutPkt), s.heard p 5 = true ∧ s.nackStreams p = [t] ∧ t.out.find? (s.names p) = some o
      ∧ o.void = false ∧ (let code := leAt p.pay 0 2; code ≠ 0x0210 ∧ code ≠ 0x0211 ∧ code ≠ 0x0203)) :=
  ⟨⟨sends (stream []) [xfer 0], 0, xfer 0, zeros 64, by decide +kernel⟩,
   ⟨sends (stream [first]) [xfer 64] 10000, 5, 6, 7, 0, stream [first], first, by decide +kernel⟩,
   ⟨sends (stream [first]) [xfer 64] (2 ^ 40), 5, 6, 7, stream [first], first, xfer 64, by decide +kernel⟩,
   ⟨{ sends (stream []) [{ xfer 64 with failed := true }] (2 ^ 40) with fab := { (sends (stream []) [{ xfer 64 with failed := true }]).fab with voids := [(0, 0)] } },
     5, 6, 7, stream [], { xfer 64 with failed := true }, by decide +kernel⟩,
   ⟨{ on with fab := { on.fab with dstr := [collStream] }, time := { on.time with now := 2 ^ 40 } }, 5, 5, 5, collStream,
     by decide +kernel⟩,
   ⟨sends (stream []) [] 50000000, 5, 6, 7, stream [], by decide +kernel⟩,
   ⟨sends (stream [first]) [xfer 64], answer tyACK (zeros 32), stream [first], by decide +kernel⟩,
   ⟨sends (stream [first]) [xfer 64], answer tyNACK (leBytes 2 0x0210 ++ zeros 30), stream [first], first, by decide +kernel⟩,
   ⟨sends (stream [first]) [xfer 64], answer tyNACK (leBytes 2 0x0211 ++ zeros 30), stream [first], first, by decide +kernel⟩,
   ⟨sends (stream [first]) [xfer 64], answer tyNACK (leBytes 2 0x0203 ++ zeros 30), stream [first], first, by decide +kernel⟩,
   ⟨sends (stream [first]) [xfer 64], answer tyNACK (leBytes 2 0x0205 ++ zeros 30), stream [first], first, by decide +kernel⟩⟩

/-- A request of endpoint 5 of module 5 to endpoint 5, at an address. -/
def req (ty : Nat) (pay : List Byte) (a : Nat := 16384) : Pkt :=
  mkPkt [(PH.TYPE, ty), (PH.SRC, epAddr 5 5), (PH.DEST, epAddr 0 5), (PH.RADDR, a), (PH.MTLEN, pay.length)] pay

/-- A GET_REQ of 8 bytes that awaits its answer in device memory or core store. -/
def asked (dst : Src) : Xfer := { mkXfer .hub (some 0) 5 5 5 tyGETREQ 0 0 0 8 (.lit (zeros 32)) with dst := some dst }

/-- The module with it. -/
def asking (dst : Src) : State := { joining with fab := { on.fab with xfers := [asked dst] } }

/-- The hypotheses of `Takes` on these. -/
theorem takes_req : joining.Takes (req tyPUT [1, 2]) collStream ∧ joining.Takes (req tyGETREQ (zeros 32)) collStream ∧
    (asking (.dm 0 0 16384)).Takes (req tyGETRESP (zeros 8)) collStream ∧ (asking (.cs 0 64)).Takes (req tyGETRESP (zeros 8) 64) collStream ∧
    joining.Takes (req tyATOMIC (leBytes 32 4)) collStream ∧ joining.Takes (req tyATOMIC (leBytes 32 3)) collStream ∧
    (paired 1).Takes (hubMsg [1]) hubStream := by
  refine ⟨?_, ?_, ?_, ?_, ?_, ?_, ?_⟩ <;> constructor <;> decide +kernel

/-- The hypotheses of each clause of `InboundRequests` are met. -/
theorem witness_inboundRequests :
    (∃ (s : State) (p : Pkt) (t : DStream), s.Takes p t ∧ PH.TYPE.of p.hdr = 1 ∧
      (let m := s.memWrite ⟨PH.PART.of p.hdr, PH.WORLD.of p.hdr, none, 5⟩ MEM_RGN.FPUT (PH.RADDR.of p.hdr) p.pay; m.code = 0)) ∧
    (∃ (s : State) (p : Pkt) (t : DStream), s.Takes p t ∧ PH.TYPE.of p.hdr = 2 ∧ s.fab.gets.length < 4096 ∧ s.checkSpan ⟨PH.PART.of
      p.hdr, PH.WORLD.of p.hdr, none, 5⟩ MEM_RGN.FGET (PH.RADDR.of p.hdr) (PH.MTLEN.of p.hdr) = 0) ∧
    (∃ (s : State) (p : Pkt) (t : DStream) (x : Xfer) (part world a : Nat), s.Takes p t ∧ PH.TYPE.of p.hdr = 3 ∧ s.requestOf p t = some
      x ∧ x.dst = some (.dm part world a) ∧
      (let m := s.memWrite ⟨part, world, x.ctx, x.owner.reader⟩ MEM_RGN.WR (PH.RADDR.of p.hdr) p.pay; m.code = 0)) ∧
    (∃ (s : State) (p : Pkt) (t : DStream) (x : Xfer) (site a : Nat), s.Takes p t ∧ PH.TYPE.of p.hdr = 3 ∧ s.requestOf p t = some x ∧
      x.dst = some (.cs site a)) ∧
    (∃ (s : State) (p : Pkt) (t : DStream) (b : List Byte), s.Takes p t ∧ PH.TYPE.of p.hdr = 6 ∧ PH.RADDR.of p.hdr % 8 = 0 ∧ s.memRead
      ⟨PH.PART.of p.hdr, PH.WORLD.of p.hdr, none, 5⟩ MEM_RGN.FPUT (PH.RADDR.of p.hdr) 8 = ⟨0, b, s⟩ ∧ (let op := leAt p.pay 0 1;
      (let m := s.memPut ⟨PH.PART.of p.hdr, PH.WORLD.of p.hdr, none, 5⟩ MEM_RGN.FPUT (PH.RADDR.of p.hdr) (leBytes 8 (atomNew op (ofLE b) (leAt p.pay 8 8) (leAt p.pay 16 8)));
      m.code = 0 ∧ (op = 0 ∨ op = 4)))) ∧
    (∃ (s : State) (p : Pkt) (t : DStream) (b : List Byte), s.Takes p t ∧ PH.TYPE.of p.hdr = 6 ∧ PH.RADDR.of p.hdr % 8 = 0 ∧ s.memRead
      ⟨PH.PART.of p.hdr, PH.WORLD.of p.hdr, none, 5⟩ MEM_RGN.FPUT (PH.RADDR.of p.hdr) 8 = ⟨0, b, s⟩ ∧ (let op := leAt p.pay 0 1;
      (let m := s.memPut ⟨PH.PART.of p.hdr, PH.WORLD.of p.hdr, none, 5⟩ MEM_RGN.FPUT (PH.RADDR.of p.hdr) (leBytes 8 (atomNew op (ofLE b) (leAt p.pay 8 8) (leAt p.pay 16 8)));
      m.code = 0 ∧ (op = 1 ∨ op = 2 ∨ op = 3)))) ∧
    (∃ (s : State) (p : Pkt) (t : DStream), s.Takes p t ∧ PH.TYPE.of p.hdr = 11) ∧
    (∃ (s : State) (n : Nat) (g : GetReq), s.live = true ∧ s.fab.gets[n]? = some g) :=
  ⟨⟨joining, req tyPUT [1, 2], collStream, takes_req.1, by decide +kernel⟩,
   ⟨joining, req tyGETREQ (zeros 32), collStream, takes_req.2.1, by decide +kernel⟩,
   ⟨asking (.dm 0 0 16384), req tyGETRESP (zeros 8), collStream, asked (.dm 0 0 16384), 0, 0, 16384, takes_req.2.2.1,
     by decide +kernel⟩,
   ⟨asking (.cs 0 64), req tyGETRESP (zeros 8) 64, collStream, asked (.cs 0 64), 0, 64, takes_req.2.2.2.1, by decide +kernel⟩,
   ⟨joining, req tyATOMIC (leBytes 32 4), collStream, zeros 8, takes_req.2.2.2.2.1, by decide +kernel⟩,
   ⟨joining, req tyATOMIC (leBytes 32 3), collStream, zeros 8, takes_req.2.2.2.2.2.1, by decide +kernel⟩,
   ⟨paired 1, hubMsg [1], hubStream, takes_req.2.2.2.2.2.2, by decide +kernel⟩,
   ⟨{ on with fab := { on.fab with gets := [⟨5, 5, 5, 0, 0, 64, 8, 0, 0, 0, 5⟩] } }, 0, ⟨5, 5, 5, 0, 0, 64, 8, 0, 0, 0, 5⟩,
     by decide +kernel⟩⟩

/-- A shipment of one position to the sequence beside its core. -/
def shipped : Nat := desc 0x63 [(SHIP.LOCAL, 1), (SHIP.SEQ_ID, 7), (SHIP.POS, 1)]

/-- The state it leaves. -/
def shippedTo : State := (((firing shipped).fireCommon (due shipped) shipped 0).shipLocal ((due shipped).fired shipped) shipped).2

/-- The hypotheses of each clause of `AttentionDescriptors` are met. -/
theorem witness_attentionDescriptors :
    (∃ (s : State) (lcore ring seq op : Nat) (f : FireIn) (r : Rsd) (d : Nat) (l : List Nat), s.Fires lcore ring seq op f r d ∧
      (let u := s.fireCommon r d f.twait; (let q := r.fired d; op = 0x60 ∧ u.aselect q d = (.ok l, u)))) ∧
    (∃ (s : State) (lcore ring seq op : Nat) (f : FireIn) (r : Rsd) (d : Nat), s.Fires lcore ring seq op f r d ∧ op = 0x62) ∧
    (∃ (s : State) (lcore ring seq op : Nat) (f : FireIn) (r : Rsd) (d : Nat) (v : State), s.Fires lcore ring seq op f r d ∧
      (let u := s.fireCommon r d f.twait; (let q := r.fired d; op = 0x63 ∧ SHIP.LOCAL.on d = true ∧ u.shipLocal q d = (.ok (), v)))) ∧
    (∃ (s : State) (lcore ring seq op : Nat) (f : FireIn) (r : Rsd) (d : Nat), s.Fires lcore ring seq op f r d ∧ op = 0x63 ∧
      SHIP.LOCAL.on d = false) :=
  ⟨⟨firing (desc 0x60 [(ASEL.SEQ_ID, 7), (ASEL.NTOK, 1), (ASEL.OUT_ADDR, 64)]), 0, 3, 5, 0x60, calm, due (desc 0x60 [(ASEL.SEQ_ID, 7),
     (ASEL.NTOK, 1), (ASEL.OUT_ADDR, 64)]), desc 0x60 [(ASEL.SEQ_ID, 7), (ASEL.NTOK, 1), (ASEL.OUT_ADDR, 64)], [0], fires_of
     (by decide +kernel), rfl, got_eq (by decide +kernel)⟩,
   ⟨firing (desc 0x62 [(AQ.NTOK, 1), (AQ.QTO, 1), (AQ.SM_SCALE, 0x3F800000), (AQ.SL_ADDR, 64), (AQ.RES_ADDR, 128)]), 0, 3, 5, 0x62,
     calm, due (desc 0x62 [(AQ.NTOK, 1), (AQ.QTO, 1), (AQ.SM_SCALE, 0x3F800000), (AQ.SL_ADDR, 64), (AQ.RES_ADDR, 128)]), desc 0x62
     [(AQ.NTOK, 1), (AQ.QTO, 1), (AQ.SM_SCALE, 0x3F800000), (AQ.SL_ADDR, 64), (AQ.RES_ADDR, 128)], fires_of (by decide +kernel),
     by decide +kernel⟩,
   ⟨firing shipped, 0, 3, 5, 0x63, calm, due shipped, shipped, shippedTo, fires_of (by decide +kernel), rfl, by decide +kernel, got_eq
     (by decide +kernel)⟩,
   ⟨firing (desc 0x63 [(SHIP.DMOD, 5)]), 0, 3, 5, 0x63, calm, due (desc 0x63 [(SHIP.DMOD, 5)]), desc 0x63 [(SHIP.DMOD, 5)], fires_of
     (by decide +kernel), by decide +kernel⟩⟩

/-- A query of shard 0 of an AQUERY, to module 5 endpoint 5. -/
def shard (sent : Bool) : ShardQ := ⟨1, 0, 3, 5, 0, 0, 0, epAddr 5 0 / 256 + 5 <<< 14, 0, zeros 64, 0, sent, 0, 0⟩

/-- An AQUERY in flight, with its query. -/
def flown62 : Rsd := flown (fly (desc 0x62 [(AQ.QTO, 1)]) 0 0 [] false)

/-- The dispatcher with a query. -/
def asksOf (q : ShardQ) : State :=
  { joining with att := { on.att with shards := [q], ships := [⟨9, 0, 3, 5, 0⟩] }, core := { on.core with rsds := [flown62] } }

/-- The dispatcher with that one. -/
def asks (sent : Bool) : State := asksOf (shard sent)

/-- The query about to go to its alternate target. -/
def again : ShardQ := { shard false with target := 1 }

/-- An answer from the primary. -/
def qresp (l : List (BF × Nat)) (n : Nat := 0) : Pkt := req 8 (leBytes 64 (packFields l) ++ zeros n) 0

/-- The answer with its states. -/
def states : Pkt := qresp [(QR.TAG, 1)] (stateLen (dimOf 0))

/-- A packet's checks hold, judged without computing its trailer. -/
theorem sound_of {fs : List (BF × Nat)} {pay : List Byte} (h : decide
    (let h := packFields fs + PH.PLEN.mk1 pay.length
     PH.HCRC.of (sealHdr h) = hcrcOf (sealHdr h) ∧ PH.HCRC.put (PH.HOPS.put (PH.VC.put h 0) 0) 0 =
       PH.HCRC.put (PH.HOPS.put (PH.VC.put (sealHdr h) 0) 0) 0 ∧ PH.PLEN.of (sealHdr h) = pay.length) = true) :
    pktSound (mkPkt fs pay) = true := by
  have h := of_decide_eq_true h
  simp only [pktSound, mkPkt, trailerOf, h.1, h.2.1, h.2.2, decide_true, Bool.not_false, Bool.and_self]

/-- The same of a request. -/
theorem req_sound {ty a : Nat} {pay : List Byte} (h : decide
    (let h := packFields [(PH.TYPE, ty), (PH.SRC, epAddr 5 5), (PH.DEST, epAddr 0 5), (PH.RADDR, a), (PH.MTLEN, pay.length)] +
       PH.PLEN.mk1 pay.length
     PH.HCRC.of (sealHdr h) = hcrcOf (sealHdr h) ∧ PH.HCRC.put (PH.HOPS.put (PH.VC.put h 0) 0) 0 =
       PH.HCRC.put (PH.HOPS.put (PH.VC.put (sealHdr h) 0) 0) 0 ∧ PH.PLEN.of (sealHdr h) = pay.length) = true) :
    pktSound (req ty pay a) = true := sound_of h

/-- The hypotheses of `Takes` on these. -/
theorem takes_qresp : (asks true).Takes states collStream ∧ (asks true).Takes (qresp [(QR.TAG, 1), (QR.STATUS, 0x080A)]) collStream ∧
    (asksOf again).Takes (qresp [(QR.TAG, 1), (QR.STATUS, 0x080A)]) collStream ∧
    (asks true).Takes (qresp [(QR.TAG, 1), (QR.STATUS, 0x0809)]) collStream ∧ (asks true).Takes (qresp [(QR.TAG, 9), (QR.KIND, 1)]) collStream := by
  refine ⟨⟨?_, ?_, req_sound ?_, ?_, ?_, ?_, ?_, ?_, ?_, ?_, ?_, ?_⟩, ?_, ?_, ?_, ?_⟩
  case refine_13 | refine_14 | refine_15 | refine_16 => constructor <;> decide +kernel
  all_goals decide +kernel

/-- The hypotheses of each clause of `QueryDispatcher` are met. -/
theorem witness_queryDispatcher :
    (∃ (s v : State) (n : Nat) (q : ShardQ), s.live = true ∧ (s.att.shards.filter (·.sent)).length < 16384 ∧ s.att.shards[n]? = some q
      ∧ q.sent = false ∧ (let t := q.dest q.target; (let pay := leBytes 64 q.hdr ++ q.rows; s.begin (mkXfer (.query q.qtag) (some
      q.ctx) ((s.ctxEp q.ctx).getD 0) t.1 t.2 7 (s.ctxPart q.ctx) (s.ctxWorld q.ctx) 0 pay.length (.lit pay)) = some v))) ∧
    (∃ (s : State) (p : Pkt) (t : DStream) (q : ShardQ) (a : Nat), s.Takes p t ∧ PH.TYPE.of p.hdr = 8 ∧ qrKind p ≠ 1 ∧
      (let b := pktKept p; (let h := ofLE (b.take 64); (let u := s.settled p t; (u.att.shards.find? (fun q => decide (q.qtag =
      QR.TAG.of h)) = some q) ∧ u.answerer q p = some a ∧ partialValid q h b = true ∧ QR.STATUS.of h = 0)))) ∧
    (∃ (s : State) (p : Pkt) (t : DStream) (q : ShardQ) (a : Nat), s.Takes p t ∧ PH.TYPE.of p.hdr = 8 ∧ qrKind p ≠ 1 ∧
      (let b := pktKept p; (let h := ofLE (b.take 64); (let u := s.settled p t; (u.att.shards.find? (fun q => decide (q.qtag =
      QR.TAG.of h)) = some q) ∧ u.answerer q p = some a ∧ partialValid q h b = true ∧ (QR.STATUS.of h = 0x0801 ∨ QR.STATUS.of h =
      0x0804 ∨ QR.STATUS.of h = 0x080A) ∧ a = q.target ∧ q.sent = true)))) ∧
    (∃ (s : State) (p : Pkt) (t : DStream) (q : ShardQ) (a : Nat), s.Takes p t ∧ PH.TYPE.of p.hdr = 8 ∧ qrKind p ≠ 1 ∧
      (let b := pktKept p; (let h := ofLE (b.take 64); (let u := s.settled p t; (u.att.shards.find? (fun q => decide (q.qtag =
      QR.TAG.of h)) = some q) ∧ u.answerer q p = some a ∧ partialValid q h b = true ∧ (QR.STATUS.of h = 0x0801 ∨ QR.STATUS.of h =
      0x0804 ∨ QR.STATUS.of h = 0x080A) ∧ (a ≠ q.target ∨ q.sent = false))))) ∧
    (∃ (s : State) (p : Pkt) (t : DStream) (q : ShardQ) (a : Nat), s.Takes p t ∧ PH.TYPE.of p.hdr = 8 ∧ qrKind p ≠ 1 ∧
      (let b := pktKept p; (let h := ofLE (b.take 64); (let u := s.settled p t; (u.att.shards.find? (fun q => decide (q.qtag =
      QR.TAG.of h)) = some q) ∧ u.answerer q p = some a ∧ partialValid q h b = true ∧ QR.STATUS.of h ≠ 0 ∧ QR.STATUS.of h ≠ 0x0801 ∧
      QR.STATUS.of h ≠ 0x0804 ∧ QR.STATUS.of h ≠ 0x080A)))) ∧
    (∃ (s : State) (n : Nat) (q : ShardQ) (r : Rsd) (g : Flight), s.hubUp = true ∧ s.att.shards[n]? = some q ∧ s.shardOf q = some (r,
      g) ∧ q.sent = true ∧ q.tSent + AQ.QTO.of g.word * 16000 ≤ s.time.thaw) ∧
    (∃ (s : State) (p : Pkt) (t : DStream) (k : ShipOut) (r : Rsd) (g : Flight), s.Takes p t ∧ PH.TYPE.of p.hdr = 8 ∧ qrKind p = 1 ∧
      (let h := ofLE ((pktKept p).take 64); (let u := s.settled p t; (u.att.ships.find? (fun k => decide (k.ktag = QR.TAG.of h)) = some
      k) ∧ u.rsd k.lcore k.ring k.seq = some r ∧ r.flight k.fid = some g ∧ QR.STATUS.of h = 0))) :=
  ⟨⟨asks false, ((asks false).begin (mkXfer (.query 1) (some 0) 5 5 5 7 0 0 0 128 (.lit (leBytes 64 0 ++ zeros 64)))).getD on, 0, shard
     false, by decide +kernel⟩,
   ⟨asks true, states, collStream, shard true, 0, takes_qresp.1, by decide +kernel⟩,
   ⟨asks true, qresp [(QR.TAG, 1), (QR.STATUS, 0x080A)], collStream, shard true, 0, takes_qresp.2.1, by decide +kernel⟩,
   ⟨asksOf again, qresp [(QR.TAG, 1), (QR.STATUS, 0x080A)], collStream, again, 0, takes_qresp.2.2.1, by decide +kernel⟩,
   ⟨asks true, qresp [(QR.TAG, 1), (QR.STATUS, 0x0809)], collStream, shard true, 0, takes_qresp.2.2.2.1, by decide +kernel⟩,
   ⟨{ asks true with time := { on.time with thaw := 16000 } }, 0, shard true, flown62, fly (desc 0x62 [(AQ.QTO, 1)]) 0 0 [] false,
     by decide +kernel⟩,
   ⟨asks true, qresp [(QR.TAG, 9), (QR.KIND, 1)], collStream, ⟨9, 0, 3, 5, 0⟩, flown62, fly (desc 0x62 [(AQ.QTO, 1)]) 0 0 [] false,
     takes_qresp.2.2.2.2, by decide +kernel⟩⟩

/-- A CACHE module with that sequence and a serving cluster of its partition. -/
def caching (now : Nat := 0) : State :=
  { firing 0 one [(GCTL_ROLE.ROLE_ACT, 0, 3), (GCTL_ROLE.SERVE_CL, 0, 1), (SEC_PART.CL, 0, 1 + 2 ^ 63), (SPARE_CMAP.ABSENT, 63, 0)] with time := { on.time with now := now } }

/-- The header of a query of one row for `n` positions. -/
def qHdr (n : Nat) : Nat := packFields [(QH.SEQ_ID, 7), (QH.NTOK, n), (QH.SM_SCALE, 0x3F800000)]

/-- A query as it is held. -/
def held (n : Nat) : QHeld := ⟨qHdr n, zeros 64, 5, 5, 5, 0, 0, 0, 0⟩

/-- The CACHE module with it. -/
def holding (n now : Nat) : State := { caching now with att := { on.att with queries := [held n] } }

/-- The header of a shipment of one position. -/
def sHdr : Nat := packFields [(SHH.KTAG, 9), (SHH.SEQ_ID, 7), (SHH.POS, 1)]

/-- A query and a shipment. -/
def askPkt : Pkt := req 7 (leBytes 64 (qHdr 1) ++ zeros 64) 0
/-- The same. -/
def shipPkt : Pkt := req 1 (leBytes 64 sHdr ++ zeros 128) 0

/-- What the shipment leaves. -/
def shippedIn : State := ((caching.settled shipPkt collStream).wake.shipAt 0 0 (leBytes 64 sHdr ++ zeros 128)).2

/-- What the query is answered. -/
def served : List AttState × Nat := match ((holding 1 0).servePartials (held 1)).1 with | .ok v => v | .error _ => ([], 0)

/-- The hypotheses of `Takes` on these. -/
theorem takes_serve : caching.Takes askPkt collStream ∧
    caching.Takes shipPkt collStream := by
  refine ⟨⟨?_, ?_, req_sound ?_, ?_, ?_, ?_, ?_, ?_, ?_, ?_, ?_, ?_⟩, ⟨?_, ?_, req_sound ?_, ?_, ?_, ?_, ?_, ?_, ?_, ?_, ?_, ?_⟩⟩ <;>
    decide +kernel

/-- The hypotheses of each clause of `QueryService` are met. -/
theorem witness_queryService :
    (∃ (s : State) (p : Pkt) (t : DStream) (q : Nat), s.Takes p t ∧ PH.TYPE.of p.hdr = 7 ∧ s.att.queries.length < 4096 ∧ s.pausing =
      false ∧ (let b := pktKept p; (let u := (s.settled p t).wake; u.judgeQuery (PH.PART.of p.hdr) (PH.WORLD.of p.hdr) (ofLE (b.take
      64)) b = (.ok q, u)))) ∧
    (∃ (s : State) (n : Nat) (q : QHeld) (l : List AttState) (k : Nat), s.live = true ∧ s.att.queries[n]? = some q ∧ s.servePartials q
      = (.ok (l, k), s)) ∧
    (∃ (s : State) (n w c : Nat) (q : QHeld), s.live = true ∧ s.att.queries[n]? = some q ∧ q.t0 + 2000000 ≤ s.time.now ∧ s.seqLookup
      (s.accOf q.sctx 4) (QH.SEQ_SLOT.of q.hdr) (QH.SEQ_ID.of q.hdr) = (.ok w, s) ∧ s.seqCount (s.accOf q.sctx 4) w (QH.LAYER.of q.hdr)
      = (.ok c, s) ∧ seqStale w c (QH.NTOK.of q.hdr) = true) ∧
    (∃ (s v : State) (p : Pkt) (t : DStream) (c : Nat), s.Takes p t ∧ PH.TYPE.of p.hdr = 1 ∧ (let b := pktKept p; (s.settled p
      t).wake.shipAt (PH.PART.of p.hdr) (PH.WORLD.of p.hdr) b = (.ok c, v))) ∧
    (∃ (s : State) (w : Who) (p v : Nat), p < 16 ∧ s.reaches w = true ∧ s.barred w .GCTL_SEQTAB p v = .none ∧ s.isStatus .GCTL_SEQTAB p
      v = false ∧ (s.fon GCTL_SEQTAB.EN p = false ∨ (GCTL_SEQTAB.BASE.val v = s.fget GCTL_SEQTAB.BASE p ∧ GCTL_SEQTAB.N_M1.val v =
      s.fget GCTL_SEQTAB.N_M1 p))) ∧
    (∃ (s : State) (w : Who) (p v : Nat), p < 16 ∧ s.reaches w = true ∧ s.barred w .GCTL_SEQTAB p v = .none ∧ s.isStatus .GCTL_SEQTAB p
      v = false ∧ s.fon GCTL_SEQTAB.EN p = true ∧ (GCTL_SEQTAB.BASE.val v ≠ s.fget GCTL_SEQTAB.BASE p ∨ GCTL_SEQTAB.N_M1.val v ≠ s.fget
      GCTL_SEQTAB.N_M1 p)) :=
  ⟨⟨caching, askPkt, collStream, seq0, takes_serve.1, by decide +kernel, by decide +kernel, by decide +kernel, got_eq
     (by decide +kernel)⟩,
   ⟨holding 1 0, 0, held 1, served.1, served.2, by decide +kernel, by decide +kernel, got_eq (by decide +kernel)⟩,
   ⟨holding 2 2000000, 0, seq0, 1, held 2, by decide +kernel, by decide +kernel, by decide +kernel, got_eq (by decide +kernel), got_eq
     (by decide +kernel), by decide +kernel⟩,
   ⟨caching, shippedIn, shipPkt, collStream, 0, takes_serve.2, by decide +kernel, got_eq (by decide +kernel)⟩,
   ⟨on, .s, 0, wd [(GCTL_SEQTAB.EN, 1), (GCTL_SEQTAB.N_M1, 65535)], by decide +kernel⟩,
   ⟨caching, .s, 0, wd [(GCTL_SEQTAB.EN, 1)], by decide +kernel⟩⟩

/-- Requests of partition 0. -/
def party : Party := ⟨0, 0, none, 0⟩

/-- The module with its memory's key loaded and four frames of partition 0. -/
def keyed0 : State := keyed (at_ region0)

/-- The hypotheses of each clause of `MemoryAccess` are met. -/
theorem witness_memoryAccess :
    (∃ (s : State) (addr : Nat) (l : List Byte), l ≠ [] ∧ (s.memWrite party MEM_RGN.WR addr l).code = 0 ∧ (s.rawWrite party addr l).code = 0) ∧
    (∃ (s : State) (addr : Nat) (l : List Byte) (x : _), (x < addr ∨ addr + l.length ≤ x) ∧ (s.fon MEM_FILL_CTL.BUSY 0 = false ∨ x /
      128 ∉ gransOf addr l.length ∨ s.awaitsFill (x / 128) = false)) ∧
    (∃ (s : State), Memory.wf s.mem.bytes = true) ∧
    (∃ (s : State) (a : Party) (right : Fld) (addr n : Nat), (let m := s.memRead a right addr n; m.code = 0 ∧ Memory.wf s.mem.bytes =
      true)) ∧
    (∃ (s : State) (a : Party) (right : Fld) (addr n : Nat), (let m := s.memRead a right addr n; m.code ≠ 0)) ∧
    (∃ (s : State), s.fon MEM_FILL_CTL.BUSY 0 = false) ∧
    (∃ (s : State) (a : Party) (right : Fld) (addr n : Nat), (let m := s.memRead a right addr n; m.code = 0 ∧ s.fon MEM_FILL_CTL.BUSY 0
      = false ∧ s.heldLines addr n = [])) ∧
    (∃ (s : State) (a : Party) (right : Fld) (addr n f : Nat), f ∈ framesOf addr n ∧ s.checkFrame a right f ≠ 0) :=
  ⟨⟨keyed0, 126, [1, 2, 3, 4], by decide +kernel⟩,
   ⟨on, 0, [1], 1, by decide +kernel⟩,
   ⟨keyed0, by decide +kernel⟩,
   ⟨keyed0, party, MEM_RGN.RD, 126, 4, by decide +kernel⟩,
   ⟨on, party, MEM_RGN.RD, 126, 4, by decide +kernel⟩,
   ⟨on, by decide +kernel⟩,
   ⟨keyed0, party, MEM_RGN.RD, 126, 4, by decide +kernel⟩,
   ⟨on, party, MEM_RGN.RD, 2097150, 4, 1, by decide +kernel⟩⟩

/-- The module with a host region of one frame and the key of slot 0. -/
def hosting : State := keyed (at_ [(MEM_HOST.EN, 0, 1)])

/-- The hypotheses of each clause of `HostMemory` are met. -/
theorem witness_hostMemory :
    (∃ (s : State) (w : Who) (v : Nat), s.reaches w = true ∧ s.barred w .MEM_HOST 0 v = .none ∧ s.isStatus .MEM_HOST 0 v = false ∧
      s.fon MEM_HOST.EN 0 = false ∧ MEM_HOST.EN.bit v = true ∧ MEM_HOST.BASE.val v + MEM_HOST.SIZE_M1.val v < 261632) ∧
    (∃ (s : State) (w : Who) (v : Nat), s.reaches w = true ∧ s.barred w .MEM_HOST 0 v = .none ∧ s.isStatus .MEM_HOST 0 v = false ∧
      s.fon MEM_HOST.EN 0 = true) ∧
    (∃ (s : State) (x : Nat), s.cxlUp = true ∧ s.hdmAddr x = none) ∧
    (∃ (s : State) (x : Nat) (a : _) (b : List Byte), s.cxlUp = true ∧ s.hdmAddr x = some a ∧ s.hostRead ⟨0, 0, none, 6⟩ a 64 = ⟨0, b,
      s⟩) ∧
    (∃ (s : State) (x : Nat) (a : _), s.cxlUp = true ∧ s.hdmAddr x = some a ∧ s.checkRaw a 64 = 0 ∧ s.fon MEM_FILL_CTL.BUSY 0 = false) ∧
    (∃ (s : State) (x : Nat) (a : _), s.cxlUp = true ∧ s.hdmAddr x = some a ∧ s.checkRaw a 64 ≠ 0) ∧
    (∃ (s : State) (w : Who) (i k v : Nat), i < 4096 ∧ k < 2 ∧ s.reaches w = true ∧ (let full := s.entryWord i k v; s.barred w .MEM_RGN
      i full = .none ∧ s.isStatus .MEM_RGN i full = false ∧ s.rgnReject i k full = true)) ∧
    (∃ (s : State) (w : Who) (i k v : Nat), i < 4096 ∧ k < 2 ∧ s.reaches w = true ∧ (let full := s.entryWord i k v; s.barred w .MEM_RGN
      i full = .none ∧ s.isStatus .MEM_RGN i full = false ∧ s.rgnReject i k full = false)) ∧
    (∃ (s : State) (w : Who) (v : Nat), s.reaches w = true ∧ s.barred w .MEM_FILL_CTL 0 v = .none ∧ s.isStatus .MEM_FILL_CTL 0 v =
      false ∧ (w ≠ .ns ∨ s.nsFill (MEM_FILL_CTL.KEY.val v) (MEM_FILL_CTL.FIRST.val v) (MEM_FILL_CTL.FIRST.val v +
      MEM_FILL_CTL.NUM_M1.val v) = true) ∧ s.fillBad v = true) ∧
    (∃ (s : State) (w : Who) (v : Nat), s.reaches w = true ∧ s.barred w .MEM_FILL_CTL 0 v = .none ∧ s.isStatus .MEM_FILL_CTL 0 v =
      false ∧ (w ≠ .ns ∨ s.nsFill (MEM_FILL_CTL.KEY.val v) (MEM_FILL_CTL.FIRST.val v) (MEM_FILL_CTL.FIRST.val v +
      MEM_FILL_CTL.NUM_M1.val v) = true) ∧ s.fillBad v = false ∧ MEM_FILL_CTL.GO.bit v = true) ∧
    (∃ (s : State) (x : _), s.hubUp = true ∧ s.fon MEM_FILL_CTL.BUSY 0 = true ∧ (let lo := s.fget MEM_FILL_CTL.FIRST 0; lo ≤ x / 2 ^ 21
      ∧ x / 2 ^ 21 ≤ lo + s.fget MEM_FILL_CTL.NUM_M1 0 ∧ s.mem.filled.contains (x / 128) = false)) :=
  ⟨⟨on, .s, wd [(MEM_HOST.EN, 1), (MEM_HOST.BASE, 261631)], by decide +kernel⟩,
   ⟨hosting, .s, 0, by decide +kernel⟩,
   ⟨hosting, 2097152, by decide +kernel⟩,
   ⟨hosting, 2097151, 2097088, zeros 64, by decide +kernel⟩,
   ⟨hosting, 64, 64, by decide +kernel⟩,
   ⟨at_ [(MEM_HOST.EN, 0, 1), (MEM_STK_STATUS.FENCED, 0, 1)], 64, 64, by decide +kernel⟩,
   ⟨on, .s, 4095, 0, wd [(MEM_RGN.VALID, 1), (MEM_RGN.KEY, 63)], by decide +kernel⟩,
   ⟨on, .s, 4095, 0, wd [(MEM_RGN.KEY, 5)], by decide +kernel⟩,
   ⟨at_ [(MEM_FILL_CTL.BUSY, 0, 1)], .s, wd [(MEM_FILL_CTL.GO, 1)], by decide +kernel⟩,
   ⟨on, .s, wd [(MEM_FILL_CTL.GO, 1), (MEM_FILL_CTL.FIRST, 261631), (MEM_FILL_CTL.KEY, 5)], by decide +kernel⟩,
   ⟨at_ [(MEM_FILL_CTL.BUSY, 0, 1)], 0, by decide +kernel⟩⟩

/-- The hypotheses of each clause of `StackCare` are met. -/
theorem witness_stackCare :
    (∃ (s : State) (w : Who) (stack pc row : Nat) (op : _), stack < 12 ∧ pc < 64 ∧ row < 2 ^ 20 ∧ s.reaches w = true ∧ op < 3 ∧
      s.barred w .MEM_REPAIR_CMD 0 (repairWord stack op pc (if op = 1 then 0 else row)) = .none ∧ s.isStatus .MEM_REPAIR_CMD 0
      (repairWord stack op pc (if op = 1 then 0 else row)) = false ∧ s.fon MEM_REPAIR_CMD.BUSY 0 = false ∧ op = 0) ∧
    (∃ (s : State) (w : Who) (stack pc row : Nat) (op : _), stack < 12 ∧ pc < 64 ∧ row < 2 ^ 20 ∧ s.reaches w = true ∧ op < 3 ∧
      s.barred w .MEM_REPAIR_CMD 0 (repairWord stack op pc (if op = 1 then 0 else row)) = .none ∧ s.isStatus .MEM_REPAIR_CMD 0
      (repairWord stack op pc (if op = 1 then 0 else row)) = false ∧ s.fon MEM_REPAIR_CMD.BUSY 0 = false ∧ op = 1) ∧
    (∃ (s : State) (w : Who) (stack pc row : Nat) (op : _), stack < 12 ∧ pc < 64 ∧ row < 2 ^ 20 ∧ s.reaches w = true ∧ op < 3 ∧
      s.barred w .MEM_REPAIR_CMD 0 (repairWord stack op pc (if op = 1 then 0 else row)) = .none ∧ s.isStatus .MEM_REPAIR_CMD 0
      (repairWord stack op pc (if op = 1 then 0 else row)) = false ∧ s.fon MEM_REPAIR_CMD.BUSY 0 = false ∧ op = 2) ∧
    (∃ (s : State) (r : Repair), s.hubUp = true ∧ s.mem.repair = some r ∧ r.stack < 12 ∧ r.op = 1) ∧
    (∃ (s : State) (sppr : Bool) (r : Repair), s.hubUp = true ∧ s.mem.repair = some r ∧ r.stack < 12 ∧ r.op ≠ 1 ∧ sppr = false) ∧
    (∃ (s : State) (w : Who) (v : Nat), s.reaches w = true ∧ s.barred w .MEM_TRAIN 0 v = .none ∧ s.isStatus .MEM_TRAIN 0 v = false ∧
      MEM_TRAIN.GO.bit v = true ∧ (let u := s.clrW1C .MEM_TRAIN 0 v; (u.fget GCTL_BOOT_STAT.PASSED 0).testBit 4 = false)) ∧
    (∃ (s : State) (w : Who) (v : Nat), s.reaches w = true ∧ s.barred w .MEM_TRAIN 0 v = .none ∧ s.isStatus .MEM_TRAIN 0 v = false ∧
      MEM_TRAIN.GO.bit v = true ∧ (let u := s.clrW1C .MEM_TRAIN 0 v; (u.fget GCTL_BOOT_STAT.PASSED 0).testBit 4 = true ∧ u.fon
      MEM_TRAIN.BUSY 0 = false)) ∧
    (∃ (s : State) (w : Who) (v : Nat), s.reaches w = true ∧ s.barred w .MEM_TRAIN 0 v = .none ∧ s.isStatus .MEM_TRAIN 0 v = false ∧
      MEM_TRAIN.GO.bit v = true ∧ (let u := s.clrW1C .MEM_TRAIN 0 v; (u.fget GCTL_BOOT_STAT.PASSED 0).testBit 4 = true ∧ u.fon
      MEM_TRAIN.BUSY 0 = true)) ∧
    (∃ (s : State) (k : Nat), k < 12 ∧ s.hubUp = true ∧ s.fon MEM_TRAIN.BUSY 0 = true ∧ (s.fget MEM_TRAIN.DONE 0).testBit k = false ∧
      s.fon MEM_TRAIN.RETAINED 0 = false) ∧
    (∃ (s : State) (k : Nat), k < 12 ∧ s.up = true ∧ s.fon MEM_STK_STATUS.SREF k = false ∧ s.fon MEM_STK_STATUS.FENCED k = false) ∧
    (∃ (s : State) (k : Nat), k < 12 ∧ s.up = true ∧ (s.fon MEM_STK_STATUS.SREF k = true ∨ s.fon MEM_STK_STATUS.FENCED k = true)) ∧
    (∃ (s : State) (w : Who) (k : Nat), k < 12 ∧ s.hubUp = true ∧ w ≠ .mc) :=
  ⟨⟨on, .s, 11, 63, 1048575, 0, by decide +kernel⟩,
   ⟨at_ [(MEM_STK_STATUS.SPC_USED, 11, 15)], .s, 11, 63, 0, 1, by decide +kernel⟩,
   ⟨on, .s, 11, 63, 1048575, 2, by decide +kernel⟩,
   ⟨{ on with mem := { on.mem with repair := some ⟨1, 11, 3, 0⟩ } }, ⟨1, 11, 3, 0⟩, by decide +kernel⟩,
   ⟨{ on with mem := { on.mem with repair := some ⟨0, 11, 3, 9⟩ } }, false, ⟨0, 11, 3, 9⟩, by decide +kernel⟩,
   ⟨on, .s, wd [(MEM_TRAIN.GO, 1)], by decide +kernel⟩,
   ⟨at_ [(GCTL_BOOT_STAT.PASSED, 0, 16)], .s, wd [(MEM_TRAIN.GO, 1)], by decide +kernel⟩,
   ⟨at_ [(GCTL_BOOT_STAT.PASSED, 0, 16), (MEM_TRAIN.BUSY, 0, 1)], .s, wd [(MEM_TRAIN.GO, 1)], by decide +kernel⟩,
   ⟨at_ [(MEM_TRAIN.BUSY, 0, 1)], 11, by decide +kernel⟩,
   ⟨on, 11, by decide +kernel⟩,
   ⟨at_ [(MEM_STK_STATUS.FENCED, 11, 1)], 11, by decide +kernel⟩,
   ⟨on, .ns, 11, by decide +kernel⟩⟩

/-- Port `p` in a stage and a link state, with its firmware's record. -/
def lane (p stage lstate : Nat) (x : LanePort := .fresh) : State :=
  { at_ [(LANE_PSTAT.STAGE, p, stage), (LANE_PSTAT.LSTATE, p, lstate)] with lane := [(p, x)] }

/-- The record with every receive lane so. -/
def rx (x : RxLane) : LanePort := { LanePort.fresh with rx := List.replicate 5 x }

/-- A lane that has lined up, and one that is skewed in. -/
def lined : LanePort := rx { RxLane.fresh with aligned := true, skewed := true, reqs := 512 }

/-- A STATUS of module 3 port 2, whose sixth byte makes the exclusive or of all of them 0. -/
def statusB : List Nat := [3, 0, 2, 0, 0, 1]

/-- The record of a port that has heard it 15 times in a row. -/
def heard15 : LanePort := { LanePort.fresh with pid := (3, 2, 15) }

/-- The characters of some symbols on one lane. -/
def onLane (l : List Sym) : List Nat := (encSyms false l).1

/-- The hypotheses of each clause of `LaneControl` are met. -/
theorem witness_laneControl :
    (∃ (s : State) (w : Who) (p v : Nat), p < 22 ∧ s.reaches w = true ∧ s.barred w .LANE_PCTL p v = .none ∧ s.isStatus .LANE_PCTL p v =
      false ∧ LANE_PCTL.GO.bit v = true) ∧
    (∃ (s : State) (w : Who) (p v : Nat), p < 22 ∧ s.reaches w = true ∧ s.barred w .LANE_PCTL p v = .none ∧ s.isStatus .LANE_PCTL p v =
      false ∧ LANE_PCTL.FORCE_OUT.val v ≠ 0) ∧
    (∃ (s : State) (w : Who) (p v : Nat), p < 22 ∧ s.reaches w = true ∧ s.barred w .LANE_PCTL p v = .none ∧ s.isStatus .LANE_PCTL p v =
      false ∧ LANE_PCTL.LASER_SWAP.bit v = true) ∧
    (∃ (s : State) (w : Who) (p v : Nat), p < 22 ∧ s.reaches w = true ∧ s.barred w .LANE_PCTL p v = .none ∧ s.isStatus .LANE_PCTL p v =
      false ∧ LANE_PCTL.LOOP.val v ≠ s.fget LANE_PCTL.LOOP p) ∧
    (∃ (s : State) (w : Who) (p v : Nat), p < 22 ∧ s.reaches w = true ∧ s.barred w .LANE_PCTL p v = .none ∧ s.isStatus .LANE_PCTL p v =
      false ∧ LANE_PCTL.LS2_REQ.val v ≠ s.fget LANE_PCTL.LS2_REQ p) :=
  ⟨⟨at_ [(GCTL_BOOT_STAT.PASSED, 0, 16), (FAB_CTL.EN, 0, 1)], .s, 21, wd [(LANE_PCTL.GO, 1), (LANE_PCTL.GATE, 1)], by decide +kernel⟩,
   ⟨lane 21 8 0, .s, 21, wd [(LANE_PCTL.FORCE_OUT, 16)], by decide +kernel⟩,
   ⟨lane 21 8 0, .s, 21, wd [(LANE_PCTL.LASER_SWAP, 1)], by decide +kernel⟩,
   ⟨lane 21 8 0, .s, 21, wd [(LANE_PCTL.LOOP, 1)], by decide +kernel⟩,
   ⟨lane 21 8 0, .s, 21, wd [(LANE_PCTL.LS2_REQ, 1)], by decide +kernel⟩⟩

/-- The hypotheses of each clause of `LaneTraining` are met. -/
theorem witness_laneTraining :
    (∃ (s : State) (p l : Nat), p < 22 ∧ l < 5 ∧ s.lanesRun = true ∧ s.lstate p = 3 ∧ s.fget PWR_PSTATE.STATE 0 ≠ 3 ∧ s.stage p = 1 ∧
      ((s.lp p).lane l).det = none) ∧
    (∃ (s : State) (p l : Nat) (t : _), p < 22 ∧ l < 5 ∧ s.lanesRun = true ∧ s.stage p = 2 ∧ s.fon LANE_MON.FAILED (5 * p + l) = false
      ∧ ((s.lp p).lane l).aligned = false ∧ ((s.lp p).lane l).out = false ∧ ((s.lp p).lane l).det = some t ∧ t + 200000 ≤ s.time.now) ∧
    (∃ (s : State) (p l : Nat) (chars : List Nat) (y : List Sym) (led : Bool) (b : List Nat), p < 22 ∧ l < 5 ∧ s.lanesRun = true ∧
      (s.hear p [l] [chars]).1.head?.bind cleanSyms = some y ∧ statusOf y = (led, some b) ∧ s.stage p = 2 ∧ led = true) ∧
    (∃ (s : State) (p l : Nat) (chars : List Nat) (y : List Sym) (led : Bool) (b : List Nat), p < 22 ∧ l < 5 ∧ s.lanesRun = true ∧
      (s.hear p [l] [chars]).1.head?.bind cleanSyms = some y ∧ statusOf y = (led, some b) ∧ s.stage p = 2 ∧ led = false) ∧
    (∃ (s : State) (p l : Nat) (chars : List Nat) (y : List Sym) (led : Bool) (b : List Nat), p < 22 ∧ l < 5 ∧ s.lanesRun = true ∧
      (s.hear p [l] [chars]).1.head?.bind cleanSyms = some y ∧ statusOf y = (led, some b) ∧ (let h := (s.hear p [l] [chars]).2;
      (let m := dataNum (b.take 2) % 2 ^ 14; (let q := b.getD 2 0; (let x := h.lp p;
      (let n := if (x.pid.1, x.pid.2.1) = (m, q) then x.pid.2.2 + 1 else 1; s.stage p = 3 ∧ 16 ≤ n)))))) ∧
    (∃ (s : State) (p l : Nat) (chars : List Nat) (y : List Sym) (led : Bool) (b : List Nat), p < 22 ∧ l < 5 ∧ s.lanesRun = true ∧
      (s.hear p [l] [chars]).1.head?.bind cleanSyms = some y ∧ statusOf y = (led, some b) ∧ (let h := (s.hear p [l] [chars]).2;
      (let m := dataNum (b.take 2) % 2 ^ 14; (let q := b.getD 2 0; (let x := h.lp p;
      (let n := if (x.pid.1, x.pid.2.1) = (m, q) then x.pid.2.2 + 1 else 1; s.stage p = 3 ∧ n < 16)))))) ∧
    (∃ (s : State) (p l : Nat) (chars d : List Nat), p < 22 ∧ l < 5 ∧ s.lanesRun = true ∧ ((s.hear p [l] [chars]).1.head?.bind
      cleanSyms).bind (seqData kTRAIN 2) = some d ∧ 1 ≤ s.stage p ∧ s.stage p ≤ 5 ∧ d.getD 0 0 % 8 < 5 ∧
      (let h := (s.hear p [l] [chars]).2; (let t := d.getD 0 0 % 8; (let cmd := d.getD 0 0 / 8; (let arg := d.getD 1 0;
      (let free := (h.lp p).txDone.getD t false = false; cmd = 1 ∧ arg < 8 ∧ free)))))) ∧
    (∃ (s : State) (p l : Nat) (chars d : List Nat), p < 22 ∧ l < 5 ∧ s.lanesRun = true ∧ ((s.hear p [l] [chars]).1.head?.bind
      cleanSyms).bind (seqData kTRAIN 2) = some d ∧ 1 ≤ s.stage p ∧ s.stage p ≤ 5 ∧ d.getD 0 0 % 8 < 5 ∧ (let cmd := d.getD 0 0 / 8;
      cmd = 4)) ∧
    (∃ (s : State) (p l : Nat) (chars d : List Nat), p < 22 ∧ l < 5 ∧ s.lanesRun = true ∧ ((s.hear p [l] [chars]).1.head?.bind
      cleanSyms).bind (seqData kTRAIN 2) = some d ∧ 1 ≤ s.stage p ∧ s.stage p ≤ 5 ∧ d.getD 0 0 % 8 < 5 ∧
      (let h := (s.hear p [l] [chars]).2; (let t := d.getD 0 0 % 8; (let cmd := d.getD 0 0 / 8; (let arg := d.getD 1 0;
      (let free := (h.lp p).txDone.getD t false = false; (cmd = 2 ∨ cmd = 3) ∧ arg < 5 ∧ free ∧
      (let tap := (h.taps p t).set arg ((h.taps p t).getD arg 0 + if cmd = 2 then 1 else -1); tapsOk tap = true))))))) ∧
    (∃ (s : State) (p l : Nat) (chars d : List Nat), p < 22 ∧ l < 5 ∧ s.lanesRun = true ∧ ((s.hear p [l] [chars]).1.head?.bind
      cleanSyms).bind (seqData kTRAIN 2) = some d ∧ 1 ≤ s.stage p ∧ s.stage p ≤ 5 ∧ d.getD 0 0 % 8 < 5 ∧
      (let h := (s.hear p [l] [chars]).2; (let t := d.getD 0 0 % 8; (let cmd := d.getD 0 0 / 8; (let arg := d.getD 1 0;
      (let free := (h.lp p).txDone.getD t false = false; (cmd = 2 ∨ cmd = 3) ∧ arg < 5 ∧ free ∧
      (let tap := (h.taps p t).set arg ((h.taps p t).getD arg 0 + if cmd = 2 then 1 else -1); tapsOk tap = false))))))) ∧
    (∃ (s : State) (p l : Nat), p < 22 ∧ l < 5 ∧ s.lanesRun = true ∧ s.stage p = 4 ∧ (s.going p).contains l = true ∧ ((s.lp p).lane
      l).eqDone = false ∧ 0 < ((s.lp p).lane l).reqs ∧ (512 ≤ ((s.lp p).lane l).reqs ∨ ((s.lp p).lane l).reqT + 300000000 ≤
      s.time.now)) ∧
    (∃ (s : State) (p : Nat) (skews : List Nat), p < 22 ∧ s.lanesRun = true ∧ s.stage p = 5 ∧ (s.lp p).rxIn = false ∧ (s.lp p).want =
      none ∧ (s.lp p).full = false ∧ s.going p ≠ [] ∧ ((∀ l ∈ s.going p, skews.getD l 0 ≤ 64)) ∧ p < 18) ∧
    (∃ (s : State) (p : Nat) (runs : List (List (Nat × Nat))), p < 22 ∧ s.lanesRun = true ∧ s.stage p = 7 ∧ (s.lp p).rxIn = false ∧
      (s.lp p).want = none ∧ (let run := (s.going p).filter fun l => ((s.lp p).lane l).skewed;
      (let good := run.filter fun l => gatePass (runs.getD l []); good = []))) ∧
    (∃ (s : State) (p : Nat) (runs : List (List (Nat × Nat))), p < 22 ∧ s.lanesRun = true ∧ s.stage p = 7 ∧ (s.lp p).rxIn = false ∧
      (s.lp p).want = none ∧ (let run := (s.going p).filter fun l => ((s.lp p).lane l).skewed;
      (let good := run.filter fun l => gatePass (runs.getD l []); 0 < good.length ∧ good.length < 4))) ∧
    (∃ (s : State) (p : Nat) (runs : List (List (Nat × Nat))), p < 22 ∧ s.lanesRun = true ∧ s.stage p = 7 ∧ (s.lp p).rxIn = false ∧
      (s.lp p).want = none ∧ (let run := (s.going p).filter fun l => ((s.lp p).lane l).skewed;
      (let good := run.filter fun l => gatePass (runs.getD l []); 4 ≤ good.length))) ∧
    (∃ (s h : State) (p m : Nat) (rx : List (List Nat)), p < 22 ∧ s.noticeOk p = true ∧ 0 < m % 32 ∧ s.Hears p kNOTICE 2 rx (noticeData
      1 m) h) ∧
    (∃ (s h : State) (p m : Nat) (rx : List (List Nat)), p < 22 ∧ s.noticeOk p = true ∧ 0 < m % 32 ∧ s.Hears p kNOTICE 2 rx (noticeData
      2 m) h) :=
  ⟨⟨lane 21 1 3, 21, 4, by decide +kernel⟩,
   ⟨{ lane 21 2 3 (rx { RxLane.fresh with det := some 0 }) with time := { on.time with now := 200000 } }, 21, 4, 0, by decide +kernel⟩,
   ⟨lane 21 2 3, 21, 4, onLane (.k kCOMMA :: seqSyms kSTATUS statusB), .k kCOMMA :: seqSyms kSTATUS statusB, true, statusB,
     by decide +kernel⟩,
   ⟨lane 21 2 3, 21, 4, onLane (seqSyms kSTATUS statusB), seqSyms kSTATUS statusB, false, statusB, by decide +kernel⟩,
   ⟨lane 21 3 3 heard15, 21, 4, onLane (seqSyms kSTATUS statusB), seqSyms kSTATUS statusB, false, statusB, by decide +kernel⟩,
   ⟨lane 21 3 3, 21, 4, onLane (.k kCOMMA :: seqSyms kSTATUS statusB), .k kCOMMA :: seqSyms kSTATUS statusB, true, statusB,
     by decide +kernel⟩,
   ⟨lane 21 1 3, 21, 4, onLane (seqSyms kTRAIN (trainData 3 1 7)), trainData 3 1 7, by decide +kernel⟩,
   ⟨lane 21 1 3, 21, 4, onLane (seqSyms kTRAIN (trainData 3 4 0)), trainData 3 4 0, by decide +kernel⟩,
   ⟨(lane 21 1 3).fset LANE_TAPS.MAIN 108 60, 21, 4, onLane (seqSyms kTRAIN (trainData 3 3 2)), trainData 3 3 2, by decide +kernel⟩,
   ⟨lane 21 1 3, 21, 4, onLane (seqSyms kTRAIN (trainData 3 2 2)), trainData 3 2 2, by decide +kernel⟩,
   ⟨lane 21 4 3 lined, 21, 4, by decide +kernel⟩,
   ⟨lane 17 5 3 lined, 17, [64, 0, 64, 3, 64], by decide +kernel⟩,
   ⟨lane 21 7 3 lined, 21, [], by decide +kernel⟩,
   ⟨lane 21 7 3 lined, 21, List.replicate 3 (List.replicate 5 (0, 0)), by decide +kernel⟩,
   ⟨lane 21 7 3 lined, 21, List.replicate 4 (List.replicate 5 (0, 0)), by decide +kernel⟩,
   ⟨lane 21 8 0, _, 21, 31, said kNOTICE (noticeData 1 31), by decide +kernel, by decide +kernel, by decide +kernel,
     ⟨by decide +kernel, by decide +kernel, rfl⟩⟩,
   ⟨lane 21 8 0, _, 21, 33, said kNOTICE (noticeData 2 33), by decide +kernel, by decide +kernel, by decide +kernel,
     ⟨by decide +kernel, by decide +kernel, rfl⟩⟩⟩

/-- The hypotheses of each clause of `LinkStates` are met. -/
theorem witness_linkStates :
    (∃ (s : State) (p : Nat) (us : _), p < 22 ∧ s.hubUp = true ∧ s.stage p = 8 ∧ s.lstate p = 0 ∧ s.fon LANE_PCTL.LS1_EN p = true ∧
      s.fget LANE_PCTL.LS1_IDLE p ≤ us) ∧
    (∃ (s : State) (p : Nat), p < 22 ∧ s.hubUp = true ∧ s.stage p = 8 ∧ s.lstate p = 1) ∧
    (∃ (s h : State) (p arg : Nat) (rx : List (List Nat)), p < 22 ∧ s.hubUp = true ∧ s.stage p = 8 ∧
      (let told (code : Nat) : Prop := s.Hears p kNOTICE 2 rx (noticeData code arg) h; s.pausing = false ∧ told 0x0C)) ∧
    (∃ (s h : State) (p arg : Nat) (rx : List (List Nat)), p < 22 ∧ s.hubUp = true ∧ s.stage p = 8 ∧
      (let told (code : Nat) : Prop := s.Hears p kNOTICE 2 rx (noticeData code arg) h; s.pausing = false ∧ told 0x0D ∧ arg % 8 < 5)) ∧
    (∃ (s h : State) (p arg : Nat) (rx : List (List Nat)), p < 22 ∧ s.hubUp = true ∧ s.stage p = 8 ∧
      (let told (code : Nat) : Prop := s.Hears p kNOTICE 2 rx (noticeData code arg) h; s.lstate p = 0 ∧ s.fon LANE_PCTL.LS1_EN p = true
      ∧ told 3)) ∧
    (∃ (s h : State) (p arg : Nat) (rx : List (List Nat)), p < 22 ∧ s.hubUp = true ∧ s.stage p = 8 ∧
      (let told (code : Nat) : Prop := s.Hears p kNOTICE 2 rx (noticeData code arg) h; s.lstate p = 0 ∧ ((∃ e ∈ (s.lp p).asked, e.1 =
      3)) ∧ told 4)) ∧
    (∃ (s h : State) (p arg : Nat) (rx : List (List Nat)), p < 22 ∧ s.hubUp = true ∧ s.stage p = 8 ∧
      (let told (code : Nat) : Prop := s.Hears p kNOTICE 2 rx (noticeData code arg) h; s.lstate p = 1 ∧ told 7)) ∧
    (∃ (s h : State) (p arg : Nat) (rx : List (List Nat)), p < 22 ∧ s.hubUp = true ∧ s.stage p = 8 ∧
      (let told (code : Nat) : Prop := s.Hears p kNOTICE 2 rx (noticeData code arg) h; told 5)) ∧
    (∃ (s h : State) (p arg : Nat) (rx : List (List Nat)), p < 22 ∧ s.hubUp = true ∧ s.stage p = 8 ∧
      (let told (code : Nat) : Prop := s.Hears p kNOTICE 2 rx (noticeData code arg) h; ((∃ e ∈ (s.lp p).asked, e.1 = 5)) ∧ told 6)) ∧
    (∃ (s h : State) (p arg : Nat) (rx : List (List Nat)), p < 22 ∧ s.hubUp = true ∧ s.stage p = 8 ∧
      (let told (code : Nat) : Prop := s.Hears p kNOTICE 2 rx (noticeData code arg) h; s.fon FAB_PORT.DOWN_REQ p = true ∧ told 8)) ∧
    (∃ (s h : State) (p arg : Nat) (rx : List (List Nat)), p < 22 ∧ s.hubUp = true ∧ s.stage p = 8 ∧
      (let told (code : Nat) : Prop := s.Hears p kNOTICE 2 rx (noticeData code arg) h; s.fon FAB_PORT.DOWN_REQ p = false ∧ told 8)) ∧
    (∃ (s h : State) (p arg : Nat) (rx : List (List Nat)), p < 22 ∧ s.hubUp = true ∧
      (let told (code : Nat) : Prop := s.Hears p kNOTICE 2 rx (noticeData code arg) h; ((∃ e ∈ (s.lp p).asked, e.1 = 8)) ∧ told 9)) ∧
    (∃ (s h : State) (p arg : Nat) (rx : List (List Nat)), p < 22 ∧ s.hubUp = true ∧
      (let told (code : Nat) : Prop := s.Hears p kNOTICE 2 rx (noticeData code arg) h; ((∃ e ∈ (s.lp p).asked, e.1 = 8)) ∧ told 0x0A)) ∧
    (∃ (s h : State) (p arg : Nat) (rx : List (List Nat)), p < 22 ∧ s.hubUp = true ∧
      (let told (code : Nat) : Prop := s.Hears p kNOTICE 2 rx (noticeData code arg) h; s.fget LANE_PCTL.LOOP p = 0 ∧ told 0x0B)) ∧
    (∃ (s : State) (p code arg t : Nat), p < 22 ∧ s.hubUp = true ∧ ((s.lp p).asked.find? (fun e => decide (e.1 = code) && decide (e.2.2
      + 10000 ≤ s.time.now)) = some (code, arg, t))) :=
  ⟨⟨(lane 21 8 0).fset LANE_PCTL.LS1_EN 21 1, 21, 65535, by decide +kernel⟩,
   ⟨lane 21 8 1, 21, by decide +kernel⟩,
   ⟨lane 21 8 0, _, 21, 0, said kNOTICE (noticeData 12 0), by decide +kernel, by decide +kernel, by decide +kernel, by decide +kernel,
     ⟨by decide +kernel, by decide +kernel, rfl⟩⟩,
   ⟨lane 21 8 0, _, 21, 4, said kNOTICE (noticeData 13 4), by decide +kernel, by decide +kernel, by decide +kernel, by decide +kernel,
     ⟨by decide +kernel, by decide +kernel, rfl⟩, by decide⟩,
   ⟨(lane 21 8 0).fset LANE_PCTL.LS1_EN 21 1, _, 21, 0, said kNOTICE (noticeData 3 0), by decide +kernel, by decide +kernel,
     by decide +kernel, by decide +kernel, by decide +kernel, ⟨by decide +kernel, by decide +kernel, rfl⟩⟩,
   ⟨lane 21 8 0 { LanePort.fresh with asked := [(3, 0, 0)] }, _, 21, 0, said kNOTICE (noticeData 4 0), by decide +kernel,
     by decide +kernel, by decide +kernel, by decide +kernel, by decide +kernel, ⟨by decide +kernel, by decide +kernel, rfl⟩⟩,
   ⟨lane 21 8 1, _, 21, 0, said kNOTICE (noticeData 7 0), by decide +kernel, by decide +kernel, by decide +kernel, by decide +kernel,
     ⟨by decide +kernel, by decide +kernel, rfl⟩⟩,
   ⟨lane 21 8 0, _, 21, 0, said kNOTICE (noticeData 5 0), by decide +kernel, by decide +kernel, by decide +kernel, ⟨by decide +kernel,
     by decide +kernel, rfl⟩⟩,
   ⟨lane 21 8 0 { LanePort.fresh with asked := [(5, 0, 0)] }, _, 21, 0, said kNOTICE (noticeData 6 0), by decide +kernel,
     by decide +kernel, by decide +kernel, by decide +kernel, ⟨by decide +kernel, by decide +kernel, rfl⟩⟩,
   ⟨(lane 21 8 0).fset FAB_PORT.DOWN_REQ 21 1, _, 21, 0, said kNOTICE (noticeData 8 0), by decide +kernel, by decide +kernel,
     by decide +kernel, by decide +kernel, ⟨by decide +kernel, by decide +kernel, rfl⟩⟩,
   ⟨lane 21 8 0, _, 21, 0, said kNOTICE (noticeData 8 0), by decide +kernel, by decide +kernel, by decide +kernel, by decide +kernel,
     ⟨by decide +kernel, by decide +kernel, rfl⟩⟩,
   ⟨lane 21 8 0 { LanePort.fresh with asked := [(8, 0, 0)] }, _, 21, 0, said kNOTICE (noticeData 9 0), by decide +kernel,
     by decide +kernel, by decide +kernel, ⟨by decide +kernel, by decide +kernel, rfl⟩⟩,
   ⟨lane 21 8 0 { LanePort.fresh with asked := [(8, 0, 0)] }, _, 21, 0, said kNOTICE (noticeData 10 0), by decide +kernel,
     by decide +kernel, by decide +kernel, ⟨by decide +kernel, by decide +kernel, rfl⟩⟩,
   ⟨lane 21 10 0, _, 21, 0, said kNOTICE (noticeData 11 0), by decide +kernel, by decide +kernel, by decide +kernel,
     ⟨by decide +kernel, by decide +kernel, rfl⟩⟩,
   ⟨{ lane 21 8 0 { LanePort.fresh with asked := [(3, 0, 0)] } with time := { on.time with now := 10000 } }, 21, 3, 0, 0,
     by decide +kernel⟩⟩

/-- The hypotheses of each clause of `LaneReadings` are met. -/
theorem witness_laneReadings :
    (∃ (s h : State) (p k n : Nat) (rx : List (List Nat)) (d : List Nat) (q : _), p < 22 ∧ s.Hears p k n rx d h ∧ q ≠ p) ∧
    (∃ (s : State) (p pool : Nat) (h : State) (total : Nat) (rx : List (List Nat)), p < 22 ∧ pool ≤ 4 ∧ s.hubUp = true ∧ s.fon
      FAB_PORT.LINK_UP p = true ∧ total < 4096 ∧ s.Hears p kCREDIT 2 rx (creditData pool total) h) ∧
    (∃ (s : State) (p : Nat), p < 22 ∧ s.hubUp = true ∧ 1 ≤ s.stage p ∧ s.stage p ≤ 4) ∧
    (∃ (s : State) (p : Nat), p < 22 ∧ s.hubUp = true ∧ ((5 ≤ s.stage p ∧ s.stage p ≤ 7) ∨ (s.stage p = 8 ∧ s.lstate p = 0))) ∧
    (∃ (s : State) (p : Nat) (rx : List (List Nat)), p < 22 ∧ s.hubUp = true ∧ s.hears p = true ∧ (let h := s.hear p (s.rxLanes p) rx;
      (let n := (rx.map (·.length)).foldl max 0; n ≤ 16 ∧ (colsOf h.1).getLast? = some (.sp kSKIP false)))) ∧
    (∃ (s : State) (p : Nat) (rx : List (List Nat)), p < 22 ∧ s.hubUp = true ∧ s.hears p = true ∧
      (let n := (rx.map (·.length)).foldl max 0; 8 < n)) ∧
    (∃ (s : State) (p : Nat) (rx : List (List Nat)), p < 22 ∧ s.hubUp = true ∧ s.hears p = true ∧
      (let n := (rx.map (·.length)).foldl max 0; n = 8)) ∧
    (∃ (s : State) (p : Nat) (rx : List (List Nat)), p < 22 ∧ s.hubUp = true ∧ s.hears p = true ∧
      (let n := (rx.map (·.length)).foldl max 0; 0 < n ∧ n < 8)) ∧
    (∃ (s : State) (p l cause : Nat), p < 22 ∧ l < 5 ∧ s.lanesRun = true ∧ 5 ≤ s.stage p ∧ s.stage p ≤ 8 ∧ cause ≠ 0) ∧
    (∃ (s : State) (p l cause : Nat), p < 22 ∧ l < 5 ∧ s.lanesRun = true ∧ 5 ≤ s.stage p ∧ s.stage p ≤ 8 ∧ cause = 0) ∧
    (∃ (s : State) (p l cause : Nat), p < 22 ∧ l < 5 ∧ s.lanesRun = true ∧ 1 ≤ s.stage p ∧ s.stage p ≤ 4 ∧ cause = 0) ∧
    (∃ (s : State) (w : Who) (p l : Nat), p < 22 ∧ l < 5 ∧ s.hubUp = true ∧ w ≠ .mc ∧ s.hears p = true) ∧
    (∃ (s : State) (p l : Nat), p < 22 ∧ l < 5 ∧ s.hubUp = true) ∧
    (∃ (s : State) (p l : Nat), 18 ≤ p ∧ p < 22 ∧ l < 5 ∧ s.hubUp = true) :=
  ⟨⟨lane 21 8 0, _, 21, kCREDIT, 2, said kCREDIT (creditData 4 4095), creditData 4 4095, 20, by decide +kernel, ⟨by decide +kernel,
     by decide +kernel, rfl⟩, by decide +kernel⟩,
   ⟨(lane 21 8 0).fset FAB_PORT.LINK_UP 21 1, 21, 4, _, 4095, said kCREDIT (creditData 4 4095), by decide +kernel, by decide +kernel,
     by decide +kernel, by decide +kernel, by decide +kernel, ⟨by decide +kernel, by decide +kernel, rfl⟩⟩,
   ⟨lane 21 4 3, 21, by decide +kernel⟩,
   ⟨lane 21 8 0, 21, by decide +kernel⟩,
   ⟨lane 21 8 0, 21, said kSKIP [], by decide +kernel⟩,
   ⟨lane 21 8 0, 21, List.replicate 5 (List.replicate 9 0), by decide +kernel⟩,
   ⟨lane 21 8 0, 21, List.replicate 5 (List.replicate 8 0), by decide +kernel⟩,
   ⟨lane 21 8 0, 21, [[0]], by decide +kernel⟩,
   ⟨lane 21 8 0, 21, 4, 3, by decide +kernel⟩,
   ⟨lane 21 5 3, 21, 4, 0, by decide +kernel⟩,
   ⟨lane 21 4 3, 21, 4, 0, by decide +kernel⟩,
   ⟨lane 21 8 0, .ns, 21, 4, by decide +kernel⟩,
   ⟨on, 21, 4, by decide +kernel⟩,
   ⟨lane 21 8 0, 21, 4, by decide +kernel⟩⟩

/-- An agreement that has not had the partner's HELLO; and one that has, with the shared secret as it stands. -/
def agree (hash : Nat) (any : Bool) : Agree := ⟨hash, any, zeros 95, none, [], [], []⟩
/-- The same. -/
def met (shared : List Byte) : Agree := { agree 0 true with theirs := some (zeros 95), shared := shared }

/-- Port 21 in KEYS with an agreement; the lower of the two modules initiates it. -/
def keys (a : Agree) (partner : Nat := 0) : State :=
  (lane 21 6 3 { LanePort.fresh with agree := some a }).fset FAB_PORT.PARTNER 21 partner

/-- Whatever the agreement, it is the one under way. -/
theorem keys_agreeing (a : Agree) : (keys a).agreeing 21 = some a := by
  have h : (keys a).stage 21 = 6 := Eq.trans (b := (keys (agree 0 true)).stage 21) rfl (by decide +kernel)
  rw [State.agreeing, if_pos ⟨by decide, h⟩]
  rfl

/-- A hash is not the one after it. -/
theorem other_hash (n : Nat) : n ≠ (agree (n + 1) false).hash := Nat.ne_of_lt (Nat.lt_succ_self n)

/-- The hub is up. -/
theorem keys_up (a : Agree) : (keys a).hubUp = true :=
  Eq.trans (b := (keys (agree 0 true)).hubUp) rfl (by decide +kernel)
/-- A signature of one level, of zeros. -/
def zeroSig : List Byte := beBytes 4 0 ++ beBytes 4 0 ++ beBytes 4 1 ++ zeros 8512 ++ beBytes 4 5 ++ zeros 160

/-- The root of the tree that it stands in, for a message. -/
def zeroRoot (msg : List Byte) : List Byte :=
  rootOver (zeros 16) 5 32 (sha256 (zeros 16 ++ beBytes 4 32 ++ beBytes 2 0x8282 ++ otsKey 1 (zeros 16 ++ beBytes 4 0) msg (zeroSig.drop 8))) (zeros 160)

/-- The public key under which it is that message's. -/
def zeroKey (msg : List Byte) : List Byte := beBytes 4 1 ++ beBytes 4 5 ++ beBytes 4 1 ++ zeros 16 ++ zeroRoot msg

/-- A digest has 32 bytes. -/
theorem sha256_length (m : List Byte) : (sha256 m).length = 32 := by
  simp only [sha256, List.flatMap_cons, List.flatMap_nil, List.length_append, List.length_reverse, List.append_nil]
  simp [leBytes]

/-- Bytes within the front of two lists. -/
theorem slice_front {a b : List Byte} {k n : Nat} (h : k + n ≤ a.length) : slice (a ++ b) k n = slice a k n := by
  rw [slice, slice, List.drop_append_of_le_length (by omega), List.take_append_of_le_length (by rw [List.length_drop]; omega)]

/-- The back of two lists. -/
theorem slice_back {a b : List Byte} {k n : Nat} (ha : a.length = k) (hb : b.length = n) : slice (a ++ b) k n = b := by
  rw [slice, List.drop_left' ha, List.take_of_length_le (Nat.le_of_eq hb)]

/-- Any message has a key under which the signature of zeros verifies. -/
theorem zeroSig_verifies (msg : List Byte) : hssVerify (zeroKey msg) msg zeroSig = true := by
  have hr : (zeroRoot msg).length = 32 := sha256_length _
  have hk : slice (zeroKey msg) 4 56 = beBytes 4 5 ++ beBytes 4 1 ++ zeros 16 ++ zeroRoot msg := by
    simp only [zeroKey, List.append_assoc]
    exact slice_back (by decide) (by simp only [List.length_append, hr]; decide)
  have h0 : beAt (zeroKey msg) 0 4 = 1 := by rw [beAt, zeroKey, slice_front (by decide)]; decide
  have hl : hssLen zeroSig = some zeroSig.length := by decide +kernel
  have hz : beAt zeroSig 0 4 = 0 := by decide +kernel
  have ht : beAt (zeroSig.drop 4) 4 4 = 1 := by decide +kernel
  have hy : beAt (zeroSig.drop 4) (40 + 32 * otsChains 1) 4 = 5 := by decide +kernel
  have hq : beAt (zeroSig.drop 4) 0 4 = 0 := by decide +kernel
  have hp : (zeroSig.drop 4).drop (44 + 32 * otsChains 1) = zeros 160 := by decide +kernel
  have h1 : beAt (slice (zeroKey msg) 4 56) 0 4 = 5 := by rw [hk, beAt, slice_front (by decide)]; decide
  have h2 : beAt (slice (zeroKey msg) 4 56) 4 4 = 1 := by rw [hk, beAt, slice_front (by decide)]; decide
  have h3 : slice (slice (zeroKey msg) 4 56) 8 16 = zeros 16 := by rw [hk, slice_front (by decide)]; decide
  have h4 : slice (slice (zeroKey msg) 4 56) 24 32 = zeroRoot msg := by rw [hk]; exact slice_back (by decide) hr
  simp only [hssVerify, hl, h0, hz, hssLevels, lmsVerify, ht, hy, hq, hp, h1, h2, h3, h4, zeroRoot, lmsHeight, List.drop_drop]
  simp
/-- A signature drawn, with what it leaves. -/
theorem signed {o : Option (List Byte × State)} (d : List Byte × State) (h : o.isSome = true) : o = some ((o.getD d).1, (o.getD d).2) := by
  cases o with
  | none => exact absurd h (by decide)
  | some x => rfl

/-- An agreement that has the HELLO whose key is the one for a message of zeros. -/
def met0 : Agree := { met [] with theirs := some (zeros 3 ++ zeroKey (zeros 1568) ++ zeros 32) }

/-- That key. -/
theorem met0_key : helloKey (zeros 3 ++ zeroKey (zeros 1568) ++ zeros 32) = zeroKey (zeros 1568) := by
  have hl : (zeroKey (zeros 1568)).length = 60 := by simp only [zeroKey, List.length_append, zeroRoot, rootOver]; rw [sha256_length]; decide
  rw [helloKey, slice_front (by rw [List.length_append, hl]; decide)]
  exact slice_back (by decide) hl

/-- The message it signs is what the agreement has so far and zeros. -/
theorem met0_verifies : hssVerify (helloKey (zeros 3 ++ zeroKey (zeros 1568) ++ zeros 32)) (met0.log ++ zeros 1568) zeroSig = true := by
  rw [met0_key]; exact zeroSig_verifies _

/-- Port 21 in KEYS on a module that can sign. -/
def signing (a : Agree) (partner : Nat) : State :=
  { at_ [(LANE_PSTAT.STAGE, 21, 6), (LANE_PSTAT.LSTATE, 21, 3), (SEC_ID_STAT.STATE, 0, 1), (SEC_ID_STAT.SIGS_LEFT, 0, 1),
      (FAB_PORT.PARTNER, 21, partner)] with lane := [(21, { LanePort.fresh with agree := some a })] }

/-- Whatever the agreement, it is the one under way. -/
theorem signing_agreeing (a : Agree) {n : Nat} (hn : (signing (agree 0 true) n).stage 21 = 6) : (signing a n).agreeing 21 = some a := by
  have h : (signing a n).stage 21 = 6 := Eq.trans rfl hn
  rw [State.agreeing, if_pos ⟨by decide, h⟩]
  rfl


/-- The hypotheses of each clause of `LinkSessions` are met. -/
theorem witness_linkSessions :
    (∃ (s : State) (p : Nat) (a : Agree) (b : List Byte), p < 22 ∧ s.hubUp = true ∧ s.agreeing p = some a ∧ a.theirs = none ∧ b.length
      = 95 ∧ (a.any = true ∨ ofLE (sha256 (helloKey b)) = a.hash) ∧ s.initiates p = false) ∧
    (∃ (s : State) (p : Nat) (a : Agree) (b : List Byte) (t : State) (sig : List Byte), p < 22 ∧ s.hubUp = true ∧ s.agreeing p = some a
      ∧ a.theirs = none ∧ b.length = 95 ∧ (a.any = true ∨ ofLE (sha256 (helloKey b)) = a.hash) ∧ s.initiates p = true ∧
      (let ek := fixLen 1568 (Config.kemKey (s.secret 64)); (let log := a.mine ++ b ++ ek; s.drew.sign log = some (sig, t)))) ∧
    (∃ (s : State) (p : Nat) (a : Agree) (b : List Byte), p < 22 ∧ s.hubUp = true ∧ s.agreeing p = some a ∧ a.theirs = none ∧ b.length
      = 95 ∧ a.any = false ∧ ofLE (sha256 (helloKey b)) ≠ a.hash) ∧
    (∃ (s : State) (p : Nat) (a : Agree) (h ek sig : List Byte), p < 22 ∧ s.hubUp = true ∧ s.agreeing p = some a ∧ a.theirs = some h ∧
      a.shared = [] ∧ s.initiates p = false ∧ ek.length = 1568 ∧ hssVerify (helloKey h) (a.log ++ ek) sig = false) ∧
    (∃ (s t : State) (p : Nat) (a : Agree) (h ek sig mine : List Byte), p < 22 ∧ s.hubUp = true ∧ s.agreeing p = some a ∧ a.theirs =
      some h ∧ a.shared = [] ∧ s.initiates p = false ∧ ek.length = 1568 ∧ hssVerify (helloKey h) (a.log ++ ek) sig = true ∧
      (let c := Config.kemEncaps ek (s.secret 32); (let log := a.log ++ ek ++ sig ++ fixLen 1568 c.1; s.drew.sign log = some (mine,
      t)))) ∧
    (∃ (s : State) (p : Nat) (a : Agree) (h ct sig : List Byte), p < 22 ∧ s.hubUp = true ∧ s.agreeing p = some a ∧ a.theirs = some h ∧
      a.shared = [] ∧ s.initiates p = true ∧ ct.length = 1568 ∧ hssVerify (helloKey h) (a.log ++ ct) sig = false) ∧
    (∃ (s : State) (p : Nat) (a : Agree) (h ct sig : List Byte), p < 22 ∧ s.hubUp = true ∧ s.agreeing p = some a ∧ a.theirs = some h ∧
      a.shared = [] ∧ s.initiates p = true ∧ ct.length = 1568 ∧ hssVerify (helloKey h) (a.log ++ ct) sig = true) ∧
    (∃ (s : State) (p : Nat) (a : Agree) (h b : List Byte), p < 22 ∧ s.hubUp = true ∧ s.agreeing p = some a ∧ a.theirs = some h ∧
      a.shared ≠ [] ∧ b = hmac (a.key "ETIEN FIN" h) a.log) ∧
    (∃ (s : State) (p : Nat) (a : Agree) (h b : List Byte), p < 22 ∧ s.hubUp = true ∧ s.agreeing p = some a ∧ a.theirs = some h ∧
      a.shared ≠ [] ∧ b ≠ hmac (a.key "ETIEN FIN" h) a.log) ∧
    (∃ (s : State) (p : Nat), 18 ≤ p ∧ p < 22 ∧ s.hubUp = true ∧ s.stage p = 8 ∧ (2 ^ 36 ≤ tget s.fab.linkTx p 0 ∨ 2 ^ 36 ≤ tget
      s.fab.linkRx p 0 ∨ tget s.fab.linkT p 0 + 86400000000000 ≤ s.count)) :=
  ⟨⟨keys (agree 0 true), 21, agree 0 true, zeros 95, by decide +kernel⟩,
   ⟨(signing (agree 0 true) 5), 21, agree 0 true, zeros 95, (((signing (agree 0 true) 5).drew.sign (((agree 0 true).mine ++ zeros 95 ++
     fixLen 1568 (Config.kemKey ((signing (agree 0 true) 5).secret 64))))).getD ([], on)).2, (((signing (agree 0 true) 5).drew.sign
     (((agree 0 true).mine ++ zeros 95 ++ fixLen 1568 (Config.kemKey ((signing (agree 0 true) 5).secret 64))))).getD ([], on)).1, by
     decide, by decide +kernel, signing_agreeing _ (by decide +kernel), rfl, by decide, .inl rfl, by decide +kernel, signed _
     (by decide +kernel)⟩,
   ⟨keys (agree (ofLE (sha256 (helloKey (zeros 95))) + 1) false), 21, agree (ofLE (sha256 (helloKey (zeros 95))) + 1) false, zeros 95,
     by decide, keys_up _, keys_agreeing _, rfl, by decide +kernel, rfl, other_hash _⟩,
   ⟨keys (met []), 21, met [], zeros 95, zeros 1568, [], by decide, keys_up _, keys_agreeing _, rfl, rfl, by decide +kernel,
     by decide +kernel, by decide +kernel⟩,
   ⟨(signing met0 0), (((signing met0 0).drew.sign (met0.log ++ zeros 1568 ++ zeroSig ++ fixLen 1568 (Config.kemEncaps (zeros 1568)
     ((signing met0 0).secret 32)).1)).getD ([], on)).2, 21, met0, (zeros 3 ++ zeroKey (zeros 1568) ++ zeros 32), zeros 1568, zeroSig,
     (((signing met0 0).drew.sign (met0.log ++ zeros 1568 ++ zeroSig ++ fixLen 1568 (Config.kemEncaps (zeros 1568) ((signing met0
     0).secret 32)).1)).getD ([], on)).1, by decide, by decide +kernel, signing_agreeing _ (by decide +kernel), rfl, rfl,
     by decide +kernel, by decide +kernel, met0_verifies, signed _ (by decide +kernel)⟩,
   ⟨signing (met []) 5, 21, met [], zeros 95, zeros 1568, [], by decide, by decide +kernel, signing_agreeing _ (by decide +kernel),
     rfl, rfl, by decide +kernel, by decide +kernel, by decide +kernel⟩,
   ⟨signing met0 5, 21, met0, (zeros 3 ++ zeroKey (zeros 1568) ++ zeros 32), zeros 1568, zeroSig, by decide, by decide +kernel,
     signing_agreeing _ (by decide +kernel), rfl, rfl, by decide +kernel, by decide +kernel, met0_verifies⟩,
   ⟨keys (met [1]), 21, met [1], zeros 95, hmac ((met [1]).key "ETIEN FIN" (zeros 95)) (met [1]).log, by decide, keys_up _,
     keys_agreeing _, rfl, by decide +kernel, rfl⟩,
   ⟨keys (met [1]), 21, met [1], zeros 95, 0 :: hmac ((met [1]).key "ETIEN FIN" (zeros 95)) (met [1]).log, by decide, keys_up _,
     keys_agreeing _, rfl, by decide +kernel, fun h => List.cons_ne_self _ _ h⟩,
   ⟨{ lane 21 8 0 with fab := { on.fab with linkRx := [(21, 2 ^ 36)] } }, 21, by decide +kernel⟩⟩

/-- The hypotheses of each clause of `SecurityCommandsStart` are met. -/
theorem witness_securityCommandsStart :
    (∃ (s : State) (v : Nat), SEC_CMD.GO.bit v = true ∧ s.reaches .s = true ∧ s.fon SEC_CMD.BUSY 0 = false ∧ SEC_CMD.OP.val v = 1) ∧
    (∃ (s : State) (v : Nat), SEC_CMD.GO.bit v = true ∧ s.reaches .s = true ∧ s.fon SEC_CMD.BUSY 0 = false ∧ SEC_CMD.OP.val v = 2) ∧
    (∃ (s : State) (v : Nat), SEC_CMD.GO.bit v = true ∧ s.reaches .s = true ∧ s.fon SEC_CMD.BUSY 0 = false ∧ SEC_CMD.OP.val v = 3 ∧
      SEC_CMD.KIND.val v = 0) ∧
    (∃ (s : State) (v : Nat), SEC_CMD.GO.bit v = true ∧ s.reaches .s = true ∧ s.fon SEC_CMD.BUSY 0 = false ∧ SEC_CMD.OP.val v = 3 ∧
      SEC_CMD.KIND.val v = 1) ∧
    (∃ (s : State) (v : Nat), SEC_CMD.GO.bit v = true ∧ s.reaches .s = true ∧ s.fon SEC_CMD.BUSY 0 = false ∧ SEC_CMD.OP.val v = 3 ∧
      SEC_CMD.KIND.val v = 2) ∧
    (∃ (s : State) (v : Nat), SEC_CMD.GO.bit v = true ∧ s.reaches .s = true ∧ s.fon SEC_CMD.BUSY 0 = false ∧ SEC_CMD.OP.val v = 3 ∧
      SEC_CMD.KIND.val v = 3) ∧
    (∃ (s : State) (v : Nat), SEC_CMD.GO.bit v = true ∧ s.reaches .s = true ∧ s.fon SEC_CMD.BUSY 0 = false ∧ SEC_CMD.OP.val v = 4) ∧
    (∃ (s : State) (v : Nat), SEC_CMD.GO.bit v = true ∧ s.reaches .s = true ∧ s.fon SEC_CMD.BUSY 0 = false ∧ SEC_CMD.OP.val v = 5) ∧
    (∃ (s : State) (v : Nat), SEC_CMD.GO.bit v = true ∧ s.reaches .s = true ∧ s.fon SEC_CMD.BUSY 0 = false ∧ SEC_CMD.OP.val v = 6) ∧
    (∃ (s : State) (v : Nat), SEC_CMD.GO.bit v = true ∧ s.reaches .s = true ∧ s.fon SEC_CMD.BUSY 0 = false ∧ SEC_CMD.OP.val v = 7) ∧
    (∃ (s : State) (v : Nat), SEC_CMD.GO.bit v = true ∧ s.reaches .s = true ∧ s.fon SEC_CMD.BUSY 0 = false ∧ SEC_CMD.OP.val v = 8) ∧
    (∃ (s : State) (v : Nat), SEC_CMD.GO.bit v = true ∧ s.reaches .s = true ∧ s.fon SEC_CMD.BUSY 0 = false ∧ SEC_CMD.OP.val v = 9) ∧
    (∃ (s : State) (w : Who) (v : Nat) (c : Instr), SEC_CMD.GO.bit v = true ∧ (((c = .partOpen w v ∧ SEC_CMD.OP.val v = 1) ∨ (c
      = .partClose w v ∧ SEC_CMD.OP.val v = 2) ∨ (c = .moveCluster w v ∧ SEC_CMD.OP.val v = 3 ∧ SEC_CMD.KIND.val v = 0) ∨ (c
      = .moveContext w v ∧ SEC_CMD.OP.val v = 3 ∧ SEC_CMD.KIND.val v = 1) ∨ (c = .moveEndpoint w v ∧ SEC_CMD.OP.val v = 3 ∧
      SEC_CMD.KIND.val v = 2) ∨ (c = .moveKeyslot w v ∧ SEC_CMD.OP.val v = 3 ∧ SEC_CMD.KIND.val v = 3) ∨ (c = .scrub w v ∧
      SEC_CMD.OP.val v = 4) ∨ (c = .setDl w v ∧ SEC_CMD.OP.val v = 5) ∨ (c = .unlock w v ∧ SEC_CMD.OP.val v = 6) ∨ (c = .ownerLock w v
      ∧ SEC_CMD.OP.val v = 7) ∨ (c = .ownerBind w v ∧ SEC_CMD.OP.val v = 8) ∨ (c = .lifecycle w v ∧ SEC_CMD.OP.val v = 9))) ∧ w = .s ∧
      s.reaches .s = true ∧ s.fon SEC_CMD.BUSY 0 = true) ∧
    (∃ (s : State) (w : Who) (v : Nat) (c : Instr), SEC_CMD.GO.bit v = true ∧ (((c = .partOpen w v ∧ SEC_CMD.OP.val v = 1) ∨ (c
      = .partClose w v ∧ SEC_CMD.OP.val v = 2) ∨ (c = .moveCluster w v ∧ SEC_CMD.OP.val v = 3 ∧ SEC_CMD.KIND.val v = 0) ∨ (c
      = .moveContext w v ∧ SEC_CMD.OP.val v = 3 ∧ SEC_CMD.KIND.val v = 1) ∨ (c = .moveEndpoint w v ∧ SEC_CMD.OP.val v = 3 ∧
      SEC_CMD.KIND.val v = 2) ∨ (c = .moveKeyslot w v ∧ SEC_CMD.OP.val v = 3 ∧ SEC_CMD.KIND.val v = 3) ∨ (c = .scrub w v ∧
      SEC_CMD.OP.val v = 4) ∨ (c = .setDl w v ∧ SEC_CMD.OP.val v = 5) ∨ (c = .unlock w v ∧ SEC_CMD.OP.val v = 6) ∨ (c = .ownerLock w v
      ∧ SEC_CMD.OP.val v = 7) ∨ (c = .ownerBind w v ∧ SEC_CMD.OP.val v = 8) ∨ (c = .lifecycle w v ∧ SEC_CMD.OP.val v = 9))) ∧ w = .s ∧
      s.pwr.on = true ∧ s.pwr.trip = 0 ∧ s.fget PWR_PSTATE.STATE 0 = 4) ∧
    (∃ (s : State) (w : Who) (v : Nat) (c : Instr), SEC_CMD.GO.bit v = true ∧ (((c = .partOpen w v ∧ SEC_CMD.OP.val v = 1) ∨ (c
      = .partClose w v ∧ SEC_CMD.OP.val v = 2) ∨ (c = .moveCluster w v ∧ SEC_CMD.OP.val v = 3 ∧ SEC_CMD.KIND.val v = 0) ∨ (c
      = .moveContext w v ∧ SEC_CMD.OP.val v = 3 ∧ SEC_CMD.KIND.val v = 1) ∨ (c = .moveEndpoint w v ∧ SEC_CMD.OP.val v = 3 ∧
      SEC_CMD.KIND.val v = 2) ∨ (c = .moveKeyslot w v ∧ SEC_CMD.OP.val v = 3 ∧ SEC_CMD.KIND.val v = 3) ∨ (c = .scrub w v ∧
      SEC_CMD.OP.val v = 4) ∨ (c = .setDl w v ∧ SEC_CMD.OP.val v = 5) ∨ (c = .unlock w v ∧ SEC_CMD.OP.val v = 6) ∨ (c = .ownerLock w v
      ∧ SEC_CMD.OP.val v = 7) ∨ (c = .ownerBind w v ∧ SEC_CMD.OP.val v = 8) ∨ (c = .lifecycle w v ∧ SEC_CMD.OP.val v = 9))) ∧ w = .ns ∧
      s.reaches .ns = true) ∧
    (∃ (s : State) (v : Nat), (let r := s.secRunOf v; (let code := s.secCode r (SEC_CMD.TLEN.val v); code = 0 ∧ r.op < 6))) ∧
    -- a token that is accepted holds a signature of its own key, which no small term spells
    (∃ (s : State) (v : Nat), 6 ≤ (s.secRunOf v).op) ∧
    (∃ (s : State) (v : Nat), (let r := s.secRunOf v; (let code := s.secCode r (SEC_CMD.TLEN.val v); code = 0x050A ∧ 6 ≤ r.op ∧ r.op ≤
      9))) ∧
    (∃ (s : State) (v : Nat), (let r := s.secRunOf v; (let code := s.secCode r (SEC_CMD.TLEN.val v); code ≠ 0 ∧ code ≠ 0x050A))) ∧
    (∃ (s : State), s.fget SEC_LIFE.LCS 0 = 4) ∧
    (∃ (s : State) (r : SecRun), s.fget SEC_LIFE.LCS 0 ≠ 4 ∧ r.op < 6 ∧ s.secCond r = false) ∧
    (∃ (s : State) (r : SecRun), s.fget SEC_LIFE.LCS 0 ≠ 4 ∧ r.op < 6 ∧ s.secCond r = true) ∧
    (∃ (r : SecRun), r.op = 1) ∧
    (∃ (s : State) (r : SecRun), r.op = 5 ∧ r.dl = 3 ∧ 2 ≤ s.fget SEC_LIFE.LCS 0) ∧
    (∃ (s : State) (r : SecRun), r.op = 6 ∧ s.fget SEC_LIFE.LCS 0 ≤ 1) ∧
    (∃ (s : State) (r : SecRun), r.op = 6 ∧ s.secCond r = true ∧ s.fget SEC_LIFE.LCS 0 = 2) ∧
    (∃ (s : State) (r : SecRun), r.op = 6 ∧ s.secCond r = true ∧ s.fget SEC_LIFE.LCS 0 = 3) ∧
    (∃ (s : State) (r : SecRun), r.op = 7 ∧ s.fget SEC_LIFE.LCS 0 = 2) ∧
    (∃ (s : State) (r : SecRun), r.op = 8 ∧ s.fget SEC_LIFE.LCS 0 = 2 ∧ s.fuse.ohash = none) :=
  ⟨⟨on, wd [(SEC_CMD.GO, 1), (SEC_CMD.OP, 1), (SEC_CMD.TO, 15)], by decide +kernel⟩,
   ⟨on, wd [(SEC_CMD.GO, 1), (SEC_CMD.OP, 2)], by decide +kernel⟩,
   ⟨on, wd [(SEC_CMD.GO, 1), (SEC_CMD.OP, 3), (SEC_CMD.TO, 1)], by decide +kernel⟩,
   ⟨on, wd [(SEC_CMD.GO, 1), (SEC_CMD.OP, 3), (SEC_CMD.KIND, 1)], by decide +kernel⟩,
   ⟨on, wd [(SEC_CMD.GO, 1), (SEC_CMD.OP, 3), (SEC_CMD.KIND, 2)], by decide +kernel⟩,
   ⟨on, wd [(SEC_CMD.GO, 1), (SEC_CMD.OP, 3), (SEC_CMD.KIND, 3)], by decide +kernel⟩,
   ⟨on, wd [(SEC_CMD.GO, 1), (SEC_CMD.OP, 4)], by decide +kernel⟩,
   ⟨on, wd [(SEC_CMD.GO, 1), (SEC_CMD.OP, 5)], by decide +kernel⟩,
   ⟨on, wd [(SEC_CMD.GO, 1), (SEC_CMD.OP, 6)], by decide +kernel⟩,
   ⟨on, wd [(SEC_CMD.GO, 1), (SEC_CMD.OP, 7)], by decide +kernel⟩,
   ⟨on, wd [(SEC_CMD.GO, 1), (SEC_CMD.OP, 8)], by decide +kernel⟩,
   ⟨on, wd [(SEC_CMD.GO, 1), (SEC_CMD.OP, 9)], by decide +kernel⟩,
   ⟨at_ [(SEC_CMD.BUSY, 0, 1)], .s, wd [(SEC_CMD.GO, 1), (SEC_CMD.OP, 1), (SEC_CMD.TO, 15)], .partOpen .s (wd [(SEC_CMD.GO, 1),
     (SEC_CMD.OP, 1), (SEC_CMD.TO, 15)]), by decide +kernel, .inl ⟨rfl, by decide +kernel⟩, by decide +kernel⟩,
   ⟨at_ [(PWR_PSTATE.STATE, 0, 4)], .s, wd [(SEC_CMD.GO, 1), (SEC_CMD.OP, 1), (SEC_CMD.TO, 15)], .partOpen .s (wd [(SEC_CMD.GO, 1),
     (SEC_CMD.OP, 1), (SEC_CMD.TO, 15)]), by decide +kernel, .inl ⟨rfl, by decide +kernel⟩, by decide +kernel⟩,
   ⟨on, .ns, wd [(SEC_CMD.GO, 1), (SEC_CMD.OP, 1), (SEC_CMD.TO, 15)], .partOpen .ns (wd [(SEC_CMD.GO, 1), (SEC_CMD.OP, 1), (SEC_CMD.TO,
     15)]), by decide +kernel, .inl ⟨rfl, by decide +kernel⟩, by decide +kernel⟩,
   ⟨on, wd [(SEC_CMD.OP, 1), (SEC_CMD.TO, 15)], by decide +kernel⟩,
   ⟨on, wd [(SEC_CMD.OP, 6)], by decide +kernel⟩,
   ⟨at_ [(SEC_LIFE.LCS, 0, 2)], wd [(SEC_CMD.OP, 7)], by decide +kernel⟩,
   ⟨on, wd [(SEC_CMD.OP, 2), (SEC_CMD.TO, 15)], by decide +kernel⟩,
   ⟨at_ [(SEC_LIFE.LCS, 0, 4)], by decide +kernel⟩,
   ⟨on, ⟨2, 0, 15, 0, 0, 0, 0, 0⟩, by decide +kernel⟩,
   ⟨on, ⟨1, 0, 15, 0, 0, 0, 0, 0⟩, by decide +kernel⟩,
   ⟨⟨1, 0, 15, 0, 0, 0, 0, 0⟩, by decide +kernel⟩,
   ⟨at_ [(SEC_LIFE.LCS, 0, 2)], ⟨5, 0, 15, 0, 0, 3, 0, 0⟩, by decide +kernel⟩,
   ⟨at_ [(SEC_LIFE.LCS, 0, 1)], ⟨6, 0, 15, 0, 0, 0, 0, 0⟩, by decide +kernel⟩,
   ⟨at_ [(SEC_LIFE.LCS, 0, 2), (SEC_PART.VALID, 15, 1)], ⟨6, 0, 15, 0, 0, 0, 0, 0⟩, by decide +kernel⟩,
   ⟨at_ [(SEC_LIFE.LCS, 0, 3), (SEC_PART.VALID, 15, 1)], ⟨6, 0, 15, 0, 0, 0, 0, 0⟩, by decide +kernel⟩,
   ⟨at_ [(SEC_LIFE.LCS, 0, 2)], ⟨7, 0, 0, 0, 0, 0, 0, 0⟩, by decide +kernel⟩,
   ⟨at_ [(SEC_LIFE.LCS, 0, 2)], ⟨8, 0, 0, 0, 0, 0, 0, 0⟩, by decide +kernel⟩⟩

/-- The hypotheses of each clause of `SecurityCommandsEnd` are met. -/
theorem witness_securityCommandsEnd :
    (∃ (s : State) (r : SecRun), s.sec.run = some r ∧ s.hubUp = true ∧ s.needsKeys r = true ∧ s.fon SEC_LIFE.TRNG_OK 0 = false) ∧
    (∃ (s : State) (r : SecRun), s.sec.run = some r ∧ s.hubUp = true ∧ (s.needsKeys r = false ∨ s.fon SEC_LIFE.TRNG_OK 0 = true)) ∧
    (∃ (s : State) (k v : Nat), k < 4 ∧ s.reaches .s = true ∧ (let full := s.wordPut .SEC_CL_WORLD 0 k v;
      (let moved := (SEC_CL_WORLD.W.val full ^^^ s.fget SEC_CL_WORLD.W 0) &&& s.clustersHeld; s.isStatus .SEC_CL_WORLD 0 full = false ∧
      moved = 0))) ∧
    (∃ (s : State) (k v : Nat), k < 4 ∧ s.reaches .s = true ∧ (let full := s.wordPut .SEC_CL_WORLD 0 k v;
      (let moved := (SEC_CL_WORLD.W.val full ^^^ s.fget SEC_CL_WORLD.W 0) &&& s.clustersHeld; s.isStatus .SEC_CL_WORLD 0 full = false ∧
      moved ≠ 0))) ∧
    (∃ (s : State), s.pwr.on = true) :=
  ⟨⟨{ at_ [(SEC_LIFE.TRNG_OK, 0, 0)] with sec := { on.sec with run := some ⟨3, 0, 15, 3, 5, 0, 0, 0⟩ } }, ⟨3, 0, 15, 3, 5, 0, 0, 0⟩,
     by decide +kernel⟩,
   ⟨{ at_ [(SEC_LIFE.TRNG_OK, 0, 1)] with sec := { on.sec with run := some ⟨1, 0, 15, 0, 0, 0, 0, 0⟩ } }, ⟨1, 0, 15, 0, 0, 0, 0, 0⟩,
     by decide +kernel⟩,
   ⟨on, 3, 2 ^ 63, by decide +kernel⟩,
   ⟨at_ [(SEC_PART.VALID, 0, 1), (SEC_PART.CL, 0, 1)], 0, 1, by decide +kernel⟩,
   ⟨on, by decide +kernel⟩⟩

/-- The module on the tray bus with an EID, and an SPDM connection that has come so far. -/
def spdm (n : Nat) : State := { at_ [(GCTL_MGMT.DA_VALID, 0, 1), (GCTL_MGMT.EID, 0, 9)] with sec := { on.sec with spdm := n } }

/-- A large answer of `n` bytes that is being fetched, its next chunk `k`. -/
def chunking (n k : Nat) : State := { spdm 3 with sec := { on.sec with large := List.replicate n 0, handle := 7, chunk := k } }

/-- The bytes of a NEGOTIATE_ALGORITHMS that offers the identity key's algorithm. -/
def negotiate : List Byte := [0x13, 0xE3] ++ zeros 26 ++ [1, 0, 0, 0] ++ leBytes 4 0x4E4C0001

/-- The conditions that hold of it whatever its length. -/
theorem chunking_wake (n k : Nat) : (chunking n k).mbUp = true ∧ (chunking n k).fget GCTL_MGMT.EID 0 ≠ 0 ∧ (chunking n k).wake = chunking n k := by
  refine ⟨Eq.trans (b := (chunking 0 0).mbUp) rfl (by decide +kernel), fun h => ?_, ?_⟩
  · exact absurd (Eq.trans (b := (chunking n k).fget GCTL_MGMT.EID 0) rfl h) (by decide +kernel : (chunking 0 0).fget GCTL_MGMT.EID 0 ≠ 0)
  · rw [State.wake, if_neg]
    exact (by decide +kernel : ¬ (1 ≤ (chunking 0 0).fget PWR_PSTATE.STATE 0 ∧ (chunking 0 0).fget PWR_PSTATE.STATE 0 ≤ 3))

/-- The hypotheses of each clause of `AttestationRequests` are met. -/
theorem witness_attestationRequests :
    (∃ (s : State) (b : List Byte), s.mbUp = true ∧ s.fget GCTL_MGMT.EID 0 ≠ 0 ∧ leAt b 1 1 = 0x84 ∧ leAt b 0 1 = 0x10) ∧
    (∃ (s : State) (b : List Byte), s.mbUp = true ∧ s.fget GCTL_MGMT.EID 0 ≠ 0 ∧ leAt b 0 1 = 0x13 ∧ leAt b 1 1 = 0xE1 ∧ s.sec.spdm =
      1) ∧
    (∃ (s : State) (b : List Byte), s.mbUp = true ∧ s.fget GCTL_MGMT.EID 0 ≠ 0 ∧ leAt b 0 1 = 0x13 ∧ leAt b 1 1 = 0xE3 ∧ s.sec.spdm = 2
      ∧ (offered b).contains 0x4E4C0001 = true) ∧
    (∃ (s : State) (b : List Byte), s.mbUp = true ∧ s.fget GCTL_MGMT.EID 0 ≠ 0 ∧ leAt b 0 1 = 0x13 ∧ 3 ≤ s.sec.spdm ∧ leAt b 1 1 =
      0x81) ∧
    (∃ (s : State) (b : List Byte), s.mbUp = true ∧ s.fget GCTL_MGMT.EID 0 ≠ 0 ∧ leAt b 0 1 = 0x13 ∧ 3 ≤ s.sec.spdm ∧
      leAt b 1 1 = 0x82 ∧ leAt b 2 1 = 0 ∧ leAt b 4 2 < s.wake.certChain.length) ∧
    (∃ (s : State) (b : List Byte) (sig t : _), s.mbUp = true ∧ s.fget GCTL_MGMT.EID 0 ≠ 0 ∧
      (let u : State := { s.wake with sec := { s.wake.sec with large := [] } }; leAt b 0 1 = 0x13 ∧ 3 ≤ s.sec.spdm ∧ leAt b 1 1 = 0x83
      ∧ leAt b 2 1 = 0 ∧
      (let r := spdmMsg 3 0 1 (sha256 u.certChain ++ u.secret 32 ++ (if leAt b 3 1 = 0 then [] else sha256 u.allMeas) ++ zeros 2 ++ slice b 36 8);
      u.drew.sign (spdmSigned "responder-challenge_auth signing" (u.sec.transA ++ u.sec.transB ++ b ++ r)) = some (sig, t)))) ∧
    (∃ (s : State) (b : List Byte), s.mbUp = true ∧ s.fget GCTL_MGMT.EID 0 ≠ 0 ∧ leAt b 0 1 = 0x13 ∧ 3 ≤ s.sec.spdm ∧ leAt b 1 1 = 0xE0
      ∧ leAt b 2 1 % 2 = 0 ∧ leAt b 3 1 = 255) ∧
    (∃ (s : State) (b : List Byte), s.mbUp = true ∧ s.fget GCTL_MGMT.EID 0 ≠ 0 ∧ leAt b 0 1 = 0x13 ∧ 3 ≤ s.sec.spdm ∧ leAt b 1 1 = 0x82
      ∧ leAt b 2 1 ≠ 0) ∧
    (∃ (s : State) (b : List Byte), s.mbUp = true ∧ s.fget GCTL_MGMT.EID 0 ≠ 0 ∧ leAt b 0 1 = 0x13 ∧ s.sec.spdm < 3 ∧ leAt b 1 1 =
      0x81) ∧
    (∃ (s : State) (b : List Byte), s.mbUp = true ∧ s.fget GCTL_MGMT.EID 0 ≠ 0 ∧ leAt b 0 1 = 0x13 ∧ s.sec.spdm < 3 ∧ leAt b 1 1 =
      0x82) ∧
    (∃ (s : State) (b : List Byte), s.mbUp = true ∧ s.fget GCTL_MGMT.EID 0 ≠ 0 ∧ leAt b 0 1 = 0x13 ∧ s.sec.spdm < 3 ∧ leAt b 1 1 =
      0x83) ∧
    (∃ (s : State) (b : List Byte), s.mbUp = true ∧ s.fget GCTL_MGMT.EID 0 ≠ 0 ∧ leAt b 0 1 = 0x13 ∧ s.sec.spdm < 3 ∧ leAt b 1 1 =
      0xE0) ∧
    (∃ (s : State) (b : List Byte), s.mbUp = true ∧ s.fget GCTL_MGMT.EID 0 ≠ 0 ∧ leAt b 1 1 = 0xE1 ∧ leAt b 0 1 ≠ 0x13) ∧
    (∃ (s : State) (b : List Byte), s.mbUp = true ∧ s.fget GCTL_MGMT.EID 0 ≠ 0 ∧ leAt b 1 1 = 0x86 ∧ s.wake.sec.large ≠ [] ∧
      leAt b 3 1 = s.wake.sec.handle ∧ leAt b 4 2 = s.wake.sec.chunk ∧ chunkLen < s.wake.sec.large.length ∧ s.wake.sec.chunk = 0) ∧
    (∃ (s : State) (b : List Byte), s.mbUp = true ∧ s.fget GCTL_MGMT.EID 0 ≠ 0 ∧ leAt b 1 1 = 0x86 ∧ s.wake.sec.large ≠ [] ∧
      leAt b 3 1 = s.wake.sec.handle ∧ leAt b 4 2 = s.wake.sec.chunk ∧ (s.wake.sec.chunk + 1) * chunkLen < s.wake.sec.large.length ∧ 0 < s.wake.sec.chunk) ∧
    (∃ (s : State) (b : List Byte), s.mbUp = true ∧ s.fget GCTL_MGMT.EID 0 ≠ 0 ∧ leAt b 1 1 = 0x86 ∧ s.wake.sec.large ≠ [] ∧
      leAt b 3 1 = s.wake.sec.handle ∧ leAt b 4 2 = s.wake.sec.chunk ∧ s.wake.sec.large.length ≤ (s.wake.sec.chunk + 1) * chunkLen ∧ 0 < s.wake.sec.chunk) ∧
    (∃ (b : List Byte), b.length ≤ transferSize) ∧
    (∃ (b : List Byte), transferSize < b.length) :=
  ⟨⟨spdm 0, [0x10, 0x84], by decide +kernel⟩,
   ⟨spdm 1, [0x13, 0xE1], by decide +kernel⟩,
   ⟨spdm 2, negotiate, by decide +kernel⟩,
   ⟨spdm 3, [0x13, 0x81], by decide +kernel⟩,
   ⟨spdm 3, [0x13, 0x82], by decide +kernel, by decide +kernel, by decide, by decide, by decide, by decide, by
     simp only [State.certChain, List.length_append, leBytes, List.length_cons, List.length_nil]
     have : leAt [0x13, 0x82] 4 2 = 0 := by decide
     omega⟩,
   ⟨((spdm 3).fset SEC_ID_STAT.STATE 0 1).fset SEC_ID_STAT.SIGS_LEFT 0 1, [0x13, 0x83], _, _, by decide +kernel, by decide +kernel, by
     decide, by decide, by decide, by decide, signed ([], on) (by decide +kernel)⟩,
   ⟨spdm 3, [0x13, 0xE0, 0, 255], by decide +kernel⟩,
   ⟨spdm 3, [0x13, 0x82, 1], by decide +kernel⟩,
   ⟨spdm 2, [0x13, 0x81], by decide +kernel⟩,
   ⟨spdm 2, [0x13, 0x82], by decide +kernel⟩,
   ⟨spdm 2, [0x13, 0x83], by decide +kernel⟩,
   ⟨spdm 2, [0x13, 0xE0], by decide +kernel⟩,
   ⟨spdm 1, [0x12, 0xE1], by decide +kernel⟩,
   ⟨chunking (chunkLen + 1) 0, [0x13, 0x86, 0, 7, 0, 0], (chunking_wake _ _).1, (chunking_wake _ _).2.1, by decide, by
     rw [(chunking_wake _ _).2.2]
     exact ⟨by simp [chunking], by decide, by decide, by simp [chunking], by decide⟩⟩,
   ⟨chunking (2 * chunkLen + 1) 1, [0x13, 0x86, 0, 7, 1, 0], (chunking_wake _ _).1, (chunking_wake _ _).2.1, by decide, by
     rw [(chunking_wake _ _).2.2]
     exact ⟨by simp [chunking], by decide, by decide, by simp [chunking], by decide⟩⟩,
   ⟨chunking (1) 1, [0x13, 0x86, 0, 7, 1, 0], (chunking_wake _ _).1, (chunking_wake _ _).2.1, by decide, by
     rw [(chunking_wake _ _).2.2]
     exact ⟨by decide, by decide, by decide, by simp [chunking, chunkLen]; omega, by decide⟩⟩,
   ⟨[], by simp⟩,
   ⟨List.replicate (transferSize + 1) 0, by simp⟩⟩

/-- The hypotheses of each clause of `FirmwareUpdates` are met. -/
theorem witness_firmwareUpdates :
    (∃ (s : State) (v : Nat), s.reaches .s = true ∧ s.isStatus .SEC_FWU_CTL 0 v = false ∧ (let u := s.clrW1C .SEC_FWU_CTL 0 v;
      (let st := u.fget SEC_FWU_STAT.STATE 0;
      (let only (a b c d : Bool) : Prop := SEC_FWU_CTL.STAGE.bit v = a ∧ SEC_FWU_CTL.ACTIVATE.bit v = b ∧ SEC_FWU_CTL.ABANDON.bit v = c ∧ SEC_FWU_CTL.SVN_COMMIT.bit v = d;
      only true false false false ∧ st ≠ 0)))) ∧
    (∃ (s : State) (v : Nat), s.reaches .s = true ∧ s.isStatus .SEC_FWU_CTL 0 v = false ∧ (let u := s.clrW1C .SEC_FWU_CTL 0 v;
      (let st := u.fget SEC_FWU_STAT.STATE 0;
      (let only (a b c d : Bool) : Prop := SEC_FWU_CTL.STAGE.bit v = a ∧ SEC_FWU_CTL.ACTIVATE.bit v = b ∧ SEC_FWU_CTL.ABANDON.bit v = c ∧ SEC_FWU_CTL.SVN_COMMIT.bit v = d;
      only true false false false ∧ st = 0 ∧ u.refuseBits = 0)))) ∧
    (∃ (s : State) (v : Nat), s.reaches .s = true ∧ s.isStatus .SEC_FWU_CTL 0 v = false ∧ (let u := s.clrW1C .SEC_FWU_CTL 0 v;
      (let st := u.fget SEC_FWU_STAT.STATE 0;
      (let only (a b c d : Bool) : Prop := SEC_FWU_CTL.STAGE.bit v = a ∧ SEC_FWU_CTL.ACTIVATE.bit v = b ∧ SEC_FWU_CTL.ABANDON.bit v = c ∧ SEC_FWU_CTL.SVN_COMMIT.bit v = d;
      only true false false false ∧ st = 0 ∧ u.refuseBits ≠ 0)))) ∧
    (∃ (s : State) (v : Nat), s.reaches .s = true ∧ s.isStatus .SEC_FWU_CTL 0 v = false ∧ (let u := s.clrW1C .SEC_FWU_CTL 0 v;
      (let st := u.fget SEC_FWU_STAT.STATE 0;
      (let only (a b c d : Bool) : Prop := SEC_FWU_CTL.STAGE.bit v = a ∧ SEC_FWU_CTL.ACTIVATE.bit v = b ∧ SEC_FWU_CTL.ABANDON.bit v = c ∧ SEC_FWU_CTL.SVN_COMMIT.bit v = d;
      only false true false false ∧ (st ≠ 2 ∨ u.fw.path ≠ 1))))) ∧
    (∃ (s : State) (v : Nat), s.reaches .s = true ∧ s.isStatus .SEC_FWU_CTL 0 v = false ∧ (let u := s.clrW1C .SEC_FWU_CTL 0 v;
      (let st := u.fget SEC_FWU_STAT.STATE 0;
      (let only (a b c d : Bool) : Prop := SEC_FWU_CTL.STAGE.bit v = a ∧ SEC_FWU_CTL.ACTIVATE.bit v = b ∧ SEC_FWU_CTL.ABANDON.bit v = c ∧ SEC_FWU_CTL.SVN_COMMIT.bit v = d;
      only false true false false ∧ st = 2 ∧ u.fw.path = 1 ∧ u.refuseBits = 0 ∧ u.fon TIME_STATUS.UNSYNC 0 = false)))) ∧
    (∃ (s : State) (v : Nat), s.reaches .s = true ∧ s.isStatus .SEC_FWU_CTL 0 v = false ∧ (let u := s.clrW1C .SEC_FWU_CTL 0 v;
      (let st := u.fget SEC_FWU_STAT.STATE 0;
      (let only (a b c d : Bool) : Prop := SEC_FWU_CTL.STAGE.bit v = a ∧ SEC_FWU_CTL.ACTIVATE.bit v = b ∧ SEC_FWU_CTL.ABANDON.bit v = c ∧ SEC_FWU_CTL.SVN_COMMIT.bit v = d;
      only false true false false ∧ st = 2 ∧ u.fw.path = 1 ∧ u.fon TIME_STATUS.UNSYNC 0 = true ∧ u.refuseBits < 32)))) ∧
    (∃ (s : State) (v : Nat), s.reaches .s = true ∧ s.isStatus .SEC_FWU_CTL 0 v = false ∧ (let u := s.clrW1C .SEC_FWU_CTL 0 v;
      (let st := u.fget SEC_FWU_STAT.STATE 0;
      (let only (a b c d : Bool) : Prop := SEC_FWU_CTL.STAGE.bit v = a ∧ SEC_FWU_CTL.ACTIVATE.bit v = b ∧ SEC_FWU_CTL.ABANDON.bit v = c ∧ SEC_FWU_CTL.SVN_COMMIT.bit v = d;
      only false false true false ∧ ((st = 2 ∨ st = 3)) ∧ u.fw.path = 1)))) ∧
    (∃ (s : State) (v : Nat), s.reaches .s = true ∧ s.isStatus .SEC_FWU_CTL 0 v = false ∧ (let u := s.clrW1C .SEC_FWU_CTL 0 v;
      (let st := u.fget SEC_FWU_STAT.STATE 0;
      (let only (a b c d : Bool) : Prop := SEC_FWU_CTL.STAGE.bit v = a ∧ SEC_FWU_CTL.ACTIVATE.bit v = b ∧ SEC_FWU_CTL.ABANDON.bit v = c ∧ SEC_FWU_CTL.SVN_COMMIT.bit v = d;
      only false false true false ∧ st ≠ 2 ∧ st ≠ 3)))) ∧
    (∃ (s : State) (v : Nat), s.reaches .s = true ∧ s.isStatus .SEC_FWU_CTL 0 v = false ∧ (let u := s.clrW1C .SEC_FWU_CTL 0 v;
      (let st := u.fget SEC_FWU_STAT.STATE 0;
      (let only (a b c d : Bool) : Prop := SEC_FWU_CTL.STAGE.bit v = a ∧ SEC_FWU_CTL.ACTIVATE.bit v = b ∧ SEC_FWU_CTL.ABANDON.bit v = c ∧ SEC_FWU_CTL.SVN_COMMIT.bit v = d;
      only false false false true ∧ st ≠ 0)))) ∧
    (∃ (s : State) (v : Nat), s.reaches .s = true ∧ s.isStatus .SEC_FWU_CTL 0 v = false ∧ (let u := s.clrW1C .SEC_FWU_CTL 0 v;
      (let st := u.fget SEC_FWU_STAT.STATE 0;
      (let only (a b c d : Bool) : Prop := SEC_FWU_CTL.STAGE.bit v = a ∧ SEC_FWU_CTL.ACTIVATE.bit v = b ∧ SEC_FWU_CTL.ABANDON.bit v = c ∧ SEC_FWU_CTL.SVN_COMMIT.bit v = d;
      only false false false true ∧ st = 0)))) ∧
    -- that a bundle is accepted rests on the vendor key, whose hash is a free value
    (∃ s : State, s.hubUp = true ∧ s.fget SEC_FWU_STAT.STATE 0 = 1 ∧ ∀ e ∈ manifestEntries s.fw.bundle, MFE.TYPE.of e ≠ 4) ∧
    (∃ (s : State), s.hubUp = true ∧ s.fget SEC_FWU_STAT.STATE 0 = 1 ∧ (let u := s.fset SEC_FWU_STAT.DONE 0 1; u.bundleCode s.fw.bundle
      false ≠ 0)) ∧
    (∃ (s : State), s.hubUp = true ∧ s.fget SEC_FWU_STAT.STATE 0 = 3 ∧ s.fw.tAct ≤ s.count ∧ s.refuseBits = 0 ∧ s.disarmFw.restful =
      true) ∧
    (∃ (s : State) (ready : Bool) (alt : List (Nat × Nat)), s.hubUp = true ∧ s.fget SEC_FWU_STAT.STATE 0 = 4 ∧ ready = true ∧ s.puntyOk
      alt = true) ∧
    (∃ (s : State) (ready : Bool), s.hubUp = true ∧ s.fget SEC_FWU_STAT.STATE 0 = 4 ∧ ready = false) ∧
    (∃ (s : State) (ready : Bool) (alt : List (Nat × Nat)), s.hubUp = true ∧ s.fget SEC_FWU_STAT.STATE 0 = 4 ∧ ready = true ∧ s.puntyOk
      alt = false) ∧
    (∃ (s : State), s.hubUp = true ∧ s.fget SEC_FWU_STAT.STATE 0 = 4 ∧ s.fw.pauseT + 30000000 ≤ s.time.now) :=
  ⟨⟨at_ [(SEC_FWU_STAT.STATE, 0, 1)], wd [(SEC_FWU_CTL.STAGE, 1)], by decide +kernel, by decide +kernel, ⟨by decide +kernel,
     by decide +kernel, by decide +kernel, by decide +kernel⟩, by decide +kernel⟩,
   ⟨on, wd [(SEC_FWU_CTL.STAGE, 1)], by decide +kernel, by decide +kernel, ⟨by decide +kernel, by decide +kernel, by decide +kernel,
     by decide +kernel⟩, by decide +kernel⟩,
   ⟨at_ [(SEC_FWU_STAT.STATE, 0, 0), (SEC_LIFE.OWNER_LOCK, 0, 1)], wd [(SEC_FWU_CTL.STAGE, 1)], by decide +kernel, by decide +kernel,
     ⟨by decide +kernel, by decide +kernel, by decide +kernel, by decide +kernel⟩, by decide +kernel⟩,
   ⟨on, wd [(SEC_FWU_CTL.ACTIVATE, 1)], by decide +kernel, by decide +kernel, ⟨by decide +kernel, by decide +kernel, by decide +kernel,
     by decide +kernel⟩, by decide +kernel⟩,
   ⟨{ at_ [(SEC_FWU_STAT.STATE, 0, 2), (TIME_STATUS.UNSYNC, 0, 0)] with fw := { on.fw with path := 1 } }, wd [(SEC_FWU_CTL.ACTIVATE,
     1)], by decide +kernel, by decide +kernel, ⟨by decide +kernel, by decide +kernel, by decide +kernel, by decide +kernel⟩,
     by decide +kernel⟩,
   ⟨{ at_ [(SEC_FWU_STAT.STATE, 0, 2), (TIME_STATUS.UNSYNC, 0, 1)] with fw := { on.fw with path := 1 } }, wd [(SEC_FWU_CTL.ACTIVATE,
     1)], by decide +kernel, by decide +kernel, ⟨by decide +kernel, by decide +kernel, by decide +kernel, by decide +kernel⟩,
     by decide +kernel⟩,
   ⟨{ at_ [(SEC_FWU_STAT.STATE, 0, 3)] with fw := { on.fw with path := 1 } }, wd [(SEC_FWU_CTL.ABANDON, 1)], by decide +kernel,
     by decide +kernel, ⟨by decide +kernel, by decide +kernel, by decide +kernel, by decide +kernel⟩, by decide +kernel⟩,
   ⟨on, wd [(SEC_FWU_CTL.ABANDON, 1)], by decide +kernel, by decide +kernel, ⟨by decide +kernel, by decide +kernel, by decide +kernel,
     by decide +kernel⟩, by decide +kernel⟩,
   ⟨at_ [(SEC_FWU_STAT.STATE, 0, 1)], wd [(SEC_FWU_CTL.SVN_COMMIT, 1)], by decide +kernel, by decide +kernel, ⟨by decide +kernel,
     by decide +kernel, by decide +kernel, by decide +kernel⟩, by decide +kernel⟩,
   ⟨on, wd [(SEC_FWU_CTL.SVN_COMMIT, 1)], by decide +kernel, by decide +kernel, ⟨by decide +kernel, by decide +kernel,
     by decide +kernel, by decide +kernel⟩, by decide +kernel⟩,
   ⟨at_ [(SEC_FWU_STAT.STATE, 0, 1)], by decide +kernel⟩,
   ⟨at_ [(SEC_FWU_STAT.STATE, 0, 1)], by decide +kernel⟩,
   ⟨at_ [(SEC_FWU_STAT.STATE, 0, 3)], by decide +kernel⟩,
   ⟨{ at_ [(SEC_FWU_STAT.STATE, 0, 4)] with mgmt := { on.mgmt with punty := zeros 4 } }, true, [], by decide +kernel⟩,
   ⟨at_ [(SEC_FWU_STAT.STATE, 0, 4)], false, by decide +kernel⟩,
   ⟨at_ [(SEC_FWU_STAT.STATE, 0, 4)], true, [], by decide +kernel⟩,
   ⟨{ at_ [(SEC_FWU_STAT.STATE, 0, 4)] with time := { on.time with now := 30000000 } }, by decide +kernel⟩⟩

/-- The hypotheses of each clause of `Observation` are met. -/
theorem witness_observation :
    (∃ (s : State) (w : Who) (k j v : Nat), k < 4 ∧ j < 3 ∧ s.reaches w = true ∧ (let x := s.wordPut .OBS_TRACE k j v; s.barred
      w .OBS_TRACE k x = .none ∧ s.isStatus .OBS_TRACE k x = false ∧ (let denied := s.watchDenied w OBS_TRACE.EN OBS_TRACE.CTX k x;
      s.traceBad k x = false ∧ denied = false))) ∧
    (∃ (s : State) (w : Who) (k j v : Nat), k < 4 ∧ j < 3 ∧ s.reaches w = true ∧ (let x := s.wordPut .OBS_TRACE k j v; s.barred
      w .OBS_TRACE k x = .none ∧ s.isStatus .OBS_TRACE k x = false ∧ (let denied := s.watchDenied w OBS_TRACE.EN OBS_TRACE.CTX k x;
      s.traceBad k x = true ∧ denied = false))) ∧
    (∃ (s : State) (w : Who) (k j v : Nat), k < 4 ∧ j < 3 ∧ s.reaches w = true ∧ (let x := s.wordPut .OBS_TRACE k j v; s.barred
      w .OBS_TRACE k x = .none ∧ s.isStatus .OBS_TRACE k x = false ∧ (let denied := s.watchDenied w OBS_TRACE.EN OBS_TRACE.CTX k x;
      denied = true))) ∧
    (∃ (s : State) (w : Who) (k j v : Nat), k < 8 ∧ j < 4 ∧ s.reaches w = true ∧ (let x := s.wordPut .OBS_DUMP k j v; s.barred
      w .OBS_DUMP k x = .none ∧ s.isStatus .OBS_DUMP k x = false ∧ s.watchDenied w OBS_DUMP.EN OBS_DUMP.CTX k x = false ∧ s.dumpBad k x
      = false)) ∧
    (∃ (s : State) (w : Who) (k j v : Nat), k < 8 ∧ j < 4 ∧ s.reaches w = true ∧ (let x := s.wordPut .OBS_DUMP k j v; s.barred
      w .OBS_DUMP k x = .none ∧ s.isStatus .OBS_DUMP k x = false ∧ s.watchDenied w OBS_DUMP.EN OBS_DUMP.CTX k x = false ∧ s.dumpBad k x
      = true)) ∧
    (∃ (s : State) (k v : Nat), k < 4 ∧ s.fon OBS_TRACE.EN k = false ∧ OBS_TRACE.EN.bit v = true) ∧
    (∃ (s : State) (w : Who) (v : Nat), s.reaches w = true ∧ s.barred w .OBS_FREEZE 0 v = .none ∧ s.isStatus .OBS_FREEZE 0 v = false ∧
      s.freezeDenied w = false ∧ OBS_FREEZE.GO.bit v = true ∧ OBS_FREEZE.RESUME.bit v = false ∧ s.frozen = false) ∧
    (∃ (s : State) (w : Who) (v : Nat), s.reaches w = true ∧ s.barred w .OBS_FREEZE 0 v = .none ∧ s.isStatus .OBS_FREEZE 0 v = false ∧
      s.freezeDenied w = false ∧ OBS_FREEZE.GO.bit v = true ∧ OBS_FREEZE.RESUME.bit v = false ∧ s.frozen = true) ∧
    (∃ (s : State) (w : Who) (v : Nat), s.reaches w = true ∧ s.barred w .OBS_FREEZE 0 v = .none ∧ s.isStatus .OBS_FREEZE 0 v = false ∧
      s.freezeDenied w = false ∧ OBS_FREEZE.GO.bit v = false ∧ OBS_FREEZE.RESUME.bit v = true) ∧
    (∃ (s h : State) (p : Nat) (rx : List (List Nat)) (d : List Nat) (n : _), p < 22 ∧ s.hubUp = true ∧ s.fon FAB_PORT.LINK_UP p = true
      ∧ s.Hears p kFREEZE 2 rx d h ∧ (let id := d.getD 0 0; (h.lp p).lastFz = some (id, n) ∧ n < 3)) ∧
    (∃ (s h : State) (p : Nat) (rx : List (List Nat)) (d : List Nat), p < 22 ∧ s.hubUp = true ∧ s.fon FAB_PORT.LINK_UP p = true ∧
      s.Hears p kFREEZE 2 rx d h ∧ (h.lp p).lastFz = none ∧ h.frozen = false ∧ h.fon OBS_FREEZE.JOIN 0 = false) ∧
    (∃ (s h : State) (p : Nat) (rx : List (List Nat)) (d : List Nat), p < 22 ∧ s.hubUp = true ∧ s.fon FAB_PORT.LINK_UP p = true ∧
      s.Hears p kFREEZE 2 rx d h ∧ (h.lp p).lastFz = none ∧ h.frozen = false ∧ h.fon OBS_FREEZE.JOIN 0 = true) ∧
    (∃ (s h : State) (p : Nat) (rx : List (List Nat)) (d : List Nat), p < 22 ∧ s.hubUp = true ∧ s.fon FAB_PORT.LINK_UP p = true ∧
      s.Hears p kFREEZE 2 rx d h ∧ (h.lp p).lastFz = none ∧ h.frozen = true) ∧
    (∃ (s : State), s.hubUp = true ∧ s.fget OBS_FREEZE.STATE 0 = 1 ∧ s.fon OBS_FREEZE.CAPTURE 0 = false ∧ s.allMarked = true) ∧
    (∃ (s : State), s.hubUp = true ∧ s.fget OBS_FREEZE.STATE 0 = 1 ∧ s.fon OBS_FREEZE.CAPTURE 0 = false ∧ s.obs.freezeT + 100000000 ≤
      s.count) ∧
    (∃ (s : State) (w : Who) (p : Nat), p < 22 ∧ s.reaches w = true ∧ w = .ns) ∧
    (∃ (s : State) (w : Who) (p : Nat), p < 22 ∧ s.reaches w = true ∧ w ≠ .ns) :=
  ⟨⟨on, .s, 3, 0, wd [(OBS_TRACE.EN, 1), (OBS_TRACE.K, 20), (OBS_TRACE.MIN_NS, 1)], by decide +kernel⟩,
   ⟨on, .s, 3, 0, wd [(OBS_TRACE.EN, 1)], by decide +kernel⟩,
   ⟨on, .ns, 3, 0, wd [(OBS_TRACE.EN, 1)], by decide +kernel⟩,
   ⟨on, .s, 7, 0, wd [(OBS_DUMP.TAG, 5)], by decide +kernel⟩,
   ⟨on, .s, 7, 0, wd [(OBS_DUMP.EN, 1)], by decide +kernel⟩,
   ⟨on, 3, 1, by decide +kernel⟩,
   ⟨on, .s, wd [(OBS_FREEZE.GO, 1), (OBS_FREEZE.ID, 255)], by decide +kernel⟩,
   ⟨at_ [(OBS_FREEZE.STATE, 0, 2)], .s, wd [(OBS_FREEZE.GO, 1)], by decide +kernel⟩,
   ⟨at_ [(OBS_FREEZE.STATE, 0, 2)], .s, wd [(OBS_FREEZE.RESUME, 1)], by decide +kernel⟩,
   ⟨{ at_ [(LANE_PSTAT.STAGE, 21, 8), (LANE_PSTAT.LSTATE, 21, 0), (FAB_PORT.LINK_UP, 21, 1)] with lane := [(21, { LanePort.fresh with lastFz := some (255, 2) })] },
     _, 21, said kFREEZE (freezeData 255), freezeData 255, 2, by decide +kernel, by decide +kernel, by decide +kernel,
     ⟨by decide +kernel, by decide +kernel, rfl⟩, by decide +kernel⟩,
   ⟨at_ [(LANE_PSTAT.STAGE, 21, 8), (LANE_PSTAT.LSTATE, 21, 0), (FAB_PORT.LINK_UP, 21, 1), (OBS_FREEZE.JOIN, 0, 0)], _, 21, said
     kFREEZE (freezeData 255), freezeData 255, by decide +kernel, by decide +kernel, by decide +kernel, ⟨by decide +kernel,
     by decide +kernel, rfl⟩, by decide +kernel⟩,
   ⟨at_ [(LANE_PSTAT.STAGE, 21, 8), (LANE_PSTAT.LSTATE, 21, 0), (FAB_PORT.LINK_UP, 21, 1), (OBS_FREEZE.JOIN, 0, 1)], _, 21, said
     kFREEZE (freezeData 255), freezeData 255, by decide +kernel, by decide +kernel, by decide +kernel, ⟨by decide +kernel,
     by decide +kernel, rfl⟩, by decide +kernel⟩,
   ⟨at_ [(LANE_PSTAT.STAGE, 21, 8), (LANE_PSTAT.LSTATE, 21, 0), (FAB_PORT.LINK_UP, 21, 1), (OBS_FREEZE.STATE, 0, 1)], _, 21, said
     kFREEZE (freezeData 255), freezeData 255, by decide +kernel, by decide +kernel, by decide +kernel, ⟨by decide +kernel,
     by decide +kernel, rfl⟩, by decide +kernel⟩,
   ⟨at_ [(OBS_FREEZE.STATE, 0, 1)], by decide +kernel⟩,
   ⟨at_ [(OBS_FREEZE.STATE, 0, 1), (TIME_COUNT.COUNT, 0, 100000000)], by decide +kernel⟩,
   ⟨on, .ns, 21, by decide +kernel⟩,
   ⟨on, .s, 21, by decide +kernel⟩⟩

/-- The hypotheses of each clause of `ManagementBus` are met. -/
theorem witness_managementBus :
    (∃ (s : State) (tb : Bool), s.i3cUp = true ∧ s.dynAddr tb = 0) ∧
    (∃ (s : State) (tb : Bool), s.i3cUp = true ∧ s.dynAddr tb ≠ 0) ∧
    (∃ (s : State) (e : Nat), s.i3cUp = true ∧ e.testBit 0 = true) ∧
    (∃ (da : Nat), da < 128) ∧
    (∃ (s : State), s.fon GCTL_MGMT.HANDOVER 0 = true) ∧
    (∃ (s : State) (dest eid : Nat), s.mbUp = true ∧ (dest = 0 ∨ dest = s.fget GCTL_MGMT.EID 0) ∧ 1 ≤ eid ∧ eid ≤ 254) ∧
    (∃ (s : State) (dest eid : Nat), s.mbUp = true ∧ (dest = 0 ∨ dest = s.fget GCTL_MGMT.EID 0) ∧ (eid = 0 ∨ 255 ≤ eid)) ∧
    (∃ (s : State) (t : Nat) (b : List Byte), s.pwr.gasp = some (t, b) ∧ s.time.now ≤ t + 2000000) ∧
    (∃ (s : State) (m : MgMsg) (r : List MgMsg), s.pwr.gasp = none ∧ s.mgmt.queue = m :: r ∧ s.mbUp = true) ∧
    (∃ (s : State), s.mgmt.ibi = true) ∧
    (∃ (s : State), s.mgmt.ibi = false) :=
  ⟨⟨on, true, by decide +kernel⟩,
   ⟨{ on with mgmt := { on.mgmt with tbAddr := 8 } }, true, by decide +kernel⟩,
   ⟨on, 1, by decide +kernel⟩,
   ⟨127, by decide +kernel⟩,
   ⟨at_ [(GCTL_MGMT.HANDOVER, 0, 1)], by decide +kernel⟩,
   ⟨spdm 0, 9, 254, by decide +kernel⟩,
   ⟨spdm 0, 0, 255, by decide +kernel⟩,
   ⟨{ on with pwr := { on.pwr with gasp := some (0, [1]) }, time := { on.time with now := 2000000 } }, 0, [1], by decide +kernel⟩,
   ⟨{ spdm 0 with mgmt := { on.mgmt with queue := [⟨4, [1]⟩] } }, ⟨4, [1]⟩, [], by decide +kernel⟩,
   ⟨on, by decide +kernel⟩,
   ⟨{ on with mgmt := { on.mgmt with ibi := false } }, by decide +kernel⟩⟩

/-- The hypotheses of each clause of `SensorsAndEffecters` are met. -/
theorem witness_sensorsAndEffecters :
    (∃ (s : State) (id iout v : _), s.mbUp = true ∧ s.fget GCTL_MGMT.EID 0 ≠ 0 ∧ (let u := s.wake;
      (let m := if 0x10 ≤ id ∧ id ≤ 0x1A then u.fset PWR_RAIL.IOUT (id - 0x10) iout else u; m.sensorVal id = some v))) ∧
    (∃ (s : State) (id iout l : _), s.mbUp = true ∧ s.fget GCTL_MGMT.EID 0 ≠ 0 ∧ (let u := s.wake;
      (let m := if 0x10 ≤ id ∧ id ≤ 0x1A then u.fset PWR_RAIL.IOUT (id - 0x10) iout else u; m.sensorVal id = none ∧ m.stateSensor id =
      some l))) ∧
    (∃ (s : State) (id iout : _), s.mbUp = true ∧ s.fget GCTL_MGMT.EID 0 ≠ 0 ∧ (let u := s.wake;
      (let m := if 0x10 ≤ id ∧ id ≤ 0x1A then u.fset PWR_RAIL.IOUT (id - 0x10) iout else u; m.sensorVal id = none ∧ m.stateSensor id =
      none))) ∧
    (∃ (s : State) (id : _), s.mbUp = true ∧ s.fget GCTL_MGMT.EID 0 ≠ 0 ∧ (let u := s.wake; (u.sensorVal id).isSome = true)) ∧
    (∃ (s : State) (src v : _), s.mbUp = true ∧ s.fget GCTL_MGMT.EID 0 ≠ 0 ∧ (let u := s.wake; v < 2 ^ 32 ∧ src = u.mgmt.busOwner)) ∧
    (∃ (s : State) (src v : _), s.mbUp = true ∧ s.fget GCTL_MGMT.EID 0 ≠ 0 ∧ (let u := s.wake; v < 2 ^ 32 ∧ src ≠ u.mgmt.busOwner)) ∧
    (∃ (s : State) (v : _), s.mbUp = true ∧ s.fget GCTL_MGMT.EID 0 ≠ 0 ∧ v ≤ 4000) ∧
    (∃ (s : State) (v : _), s.mbUp = true ∧ s.fget GCTL_MGMT.EID 0 ≠ 0 ∧ 4000 < v) ∧
    (∃ (s : State) (v : _), s.mbUp = true ∧ s.fget GCTL_MGMT.EID 0 ≠ 0 ∧ (let u := s.wake; v < 16 ∧ u.ownerMay .mc v = true)) ∧
    (∃ (s : State) (v : _), s.mbUp = true ∧ s.fget GCTL_MGMT.EID 0 ≠ 0 ∧ (let u := s.wake; v < 16 ∧ u.ownerMay .mc v = false)) ∧
    (∃ (s : State) (cool : _), s.mbUp = true ∧ s.fget GCTL_MGMT.EID 0 ≠ 0 ∧ s.fget PWR_PSTATE.STATE 0 ≠ 4 ∧ (s.pwr.trip = 0 ∨
      (s.pwr.trip = 1 ∧ cool = true))) ∧
    (∃ (s : State) (cool : _), s.mbUp = true ∧ s.fget GCTL_MGMT.EID 0 ≠ 0 ∧ s.pwr.trip = 1 ∧ cool = false) ∧
    (∃ (s : State) (v : _), s.mbUp = true ∧ s.fget GCTL_MGMT.EID 0 ≠ 0 ∧ v ≠ 1) ∧
    (∃ (s : State), s.mbUp = true ∧ s.fget GCTL_MGMT.EID 0 ≠ 0 ∧ s.fget PWR_PSTATE.STATE 0 = 4) ∧
    (∃ (s : State), s.mbUp = true ∧ s.fget GCTL_MGMT.EID 0 ≠ 0 ∧ s.fget PWR_PSTATE.STATE 0 ≠ 4) ∧
    (∃ (s : State) (t : _), s.mbUp = true ∧ s.fget GCTL_MGMT.EID 0 ≠ 0 ∧ t < 2 ^ 64) ∧
    (∃ (s : State) (p v : _), s.mbUp = true ∧ s.fget GCTL_MGMT.EID 0 ≠ 0 ∧ p < 22 ∧ v ≤ 1) ∧
    (∃ (s : State) (off : _) (b : List Byte), s.mbUp = true ∧ s.fget GCTL_MGMT.EID 0 ≠ 0 ∧ (let u := s.wake; u.fget SEC_FWU_STAT.STATE
      0 = 0 ∧ off = u.mgmt.fwBuf.length ∧ 0 < off ∧ off + b.length ≤ 4194304)) ∧
    (∃ (s : State) (off : _) (b : List Byte), s.mbUp = true ∧ s.fget GCTL_MGMT.EID 0 ≠ 0 ∧ (let u := s.wake; u.fget SEC_FWU_STAT.STATE
      0 = 0 ∧ off = 0 ∧ b.length ≤ 4194304 ∧ u.refuseBits = 0)) ∧
    (∃ (s : State), s.mbUp = true ∧ s.fget GCTL_MGMT.EID 0 ≠ 0 ∧ (let u := s.wake; u.fget SEC_FWU_STAT.STATE 0 = 1)) ∧
    (∃ (s : State), s.mbUp = true ∧ s.fget GCTL_MGMT.EID 0 ≠ 0 ∧ (let u := s.wake; u.fget SEC_FWU_STAT.STATE 0 = 2 ∧ u.fw.path = 2 ∧
      u.refuseBits = 0 ∧ u.fon TIME_STATUS.UNSYNC 0 = false)) ∧
    (∃ (s : State) (p : Nat), p < 22 ∧ s.i3cUp = true ∧ s.disagrees p = true ∧ tget s.mgmt.disT p 0 ≠ 0 ∧ tget s.mgmt.disT p 0 +
      1000000000 ≤ s.time.now ∧ (s.fget GCTL_MGMT.DISAGREE 0).testBit p = false) :=
  ⟨⟨spdm 0, 1, 0, ((spdm 0).wake.sensorVal 1).getD 0, by decide +kernel⟩,
   ⟨spdm 0, 0x215, 0, ((spdm 0).wake.stateSensor 0x215).getD [], by decide +kernel⟩,
   ⟨spdm 0, 4095, 0, by decide +kernel⟩,
   ⟨spdm 0, 1, by decide +kernel⟩,
   ⟨spdm 0, 0, 2 ^ 32 - 1, by decide +kernel⟩,
   ⟨spdm 0, 1, 0, by decide +kernel⟩,
   ⟨spdm 0, 4000, by decide +kernel⟩,
   ⟨spdm 0, 4001, by decide +kernel⟩,
   ⟨at_ [(GCTL_OWNER.PWR, 0, 1)] (spdm 0), 0, by decide +kernel⟩,
   ⟨spdm 0, 15, by decide +kernel⟩,
   ⟨spdm 0, false, by decide +kernel⟩,
   ⟨{ spdm 0 with pwr := { on.pwr with trip := 1 } }, false, by decide +kernel⟩,
   ⟨spdm 0, 0, by decide +kernel⟩,
   ⟨at_ [(PWR_PSTATE.STATE, 0, 4)] (spdm 0), by decide +kernel⟩,
   ⟨spdm 0, by decide +kernel⟩,
   ⟨spdm 0, 2 ^ 64 - 1, by decide +kernel⟩,
   ⟨spdm 0, 21, 1, by decide +kernel⟩,
   ⟨{ spdm 0 with mgmt := { on.mgmt with fwBuf := [1] } }, 1, [2], by decide +kernel⟩,
   ⟨spdm 0, 0, [2], by decide +kernel⟩,
   ⟨at_ [(SEC_FWU_STAT.STATE, 0, 1)] (spdm 0), by decide +kernel⟩,
   ⟨{ at_ [(SEC_FWU_STAT.STATE, 0, 2), (TIME_STATUS.UNSYNC, 0, 0)] (spdm 0) with fw := { on.fw with path := 2 } }, by decide +kernel⟩,
   ⟨{ at_ [(LANE_PSTAT.STAGE, 17, 1)] with mgmt := { on.mgmt with disT := [(17, 1)] }, time := { on.time with now := 1000000001 } },
     17, by decide +kernel⟩⟩

/-- The hypotheses of each clause of `RegisterWrites` are met. -/
theorem witness_registerWrites :
    (∃ (w : Who) (off n : Nat), (w ≠ .ns ∨ offWorld off = false) ∧ n ≠ 4 ∧ n ≠ 8) ∧
    (∃ (w : Who) (off n : Nat), (w ≠ .ns ∨ offWorld off = false) ∧ (n = 4 ∨ n = 8) ∧ off % n ≠ 0) ∧
    (∃ (s : State) (off : Nat), s.reaches .ns = true ∧ offWorld off = true) ∧
    (∃ (s : State) (w : Who), w ≠ .mc ∧ s.reaches w = false) ∧
    (∃ (ring v : Nat), v < 2 ^ 64 ∧ ring < 8192) ∧
    (∃ (s : State) (v : Nat), v < 2 ^ 64 ∧ s.reaches .s = true ∧ s.isStatus .FAB_XPORT 0 v = false ∧ xportBad v = false) ∧
    (∃ (s : State) (v : Nat), v < 2 ^ 64 ∧ s.reaches .s = true ∧ s.isStatus .FAB_XPORT 0 v = false ∧ xportBad v = true) ∧
    (∃ (s : State) (v : Nat), v < 2 ^ 64 ∧ s.reaches .s = true ∧ s.isStatus .FAB_XPORT 0 v = true) ∧
    (∃ (s : State) (v : Nat), v < 2 ^ 64 ∧ s.reaches .ns = true) ∧
    (∃ (s : State) (v : Nat), v < 2 ^ 64 ∧ s.reaches .s = true ∧ s.isStatus .SPARE_WEAR_CTL 0 v = false ∧ s.fget GCTL_OWNER.SPARE 0 =
      0) ∧
    (∃ (s : State) (v : Nat), v < 2 ^ 64 ∧ s.reaches .s = true ∧ s.isStatus .SPARE_WEAR_CTL 0 v = false ∧ s.fget GCTL_OWNER.SPARE 0 =
      1) ∧
    (∃ (s : State) (v : Nat), v < 2 ^ 64 ∧ s.pwr.on = true ∧ s.fget GCTL_OWNER.SPARE 0 = 0) ∧
    (∃ (s : State) (off v : Nat), v < 2 ^ 64 ∧ off % 8 = 0 ∧ off < 0x8000 ∧ s.reaches .s = true ∧ s.fon SEC_CMD.BUSY 0 = false) ∧
    (∃ (s : State) (w : Who) (k v : Nat), k < 2048 ∧ v < 2 ^ 32 ∧ (w = .ns ∨ w = .s) ∧ s.reaches w = true ∧ v % 2 = 1) ∧
    (∃ (s : State) (w : Who) (k v : Nat), k < 2048 ∧ v < 2 ^ 32 ∧ (w = .ns ∨ w = .s) ∧ s.reaches w = true ∧ v % 2 = 0 ∧ tget
      s.cfe.msiPend k 0 = 0) ∧
    (∃ (s : State) (w : Who) (k v : Nat), k < 2048 ∧ v < 2 ^ 32 ∧ (w = .ns ∨ w = .s) ∧ s.reaches w = true ∧ v % 2 = 0 ∧ tget
      s.cfe.msiPend k 0 = 1) :=
  ⟨⟨.s, 0xE10000, 1, by decide +kernel⟩,
   ⟨.ns, 4, 8, by decide +kernel⟩,
   ⟨on, 0xE10004, by decide +kernel⟩,
   ⟨State.reset, .ns, by decide +kernel⟩,
   ⟨8191, 2 ^ 64 - 1, by decide +kernel⟩,
   ⟨on, wd [(FAB_XPORT.WIN, 32), (FAB_XPORT.RTO, 10), (FAB_XPORT.RETRY, 1), (FAB_XPORT.STALL, 10), (FAB_XPORT.IDLE, 100)],
     by decide +kernel⟩,
   ⟨on, 0, by decide +kernel⟩,
   ⟨on, on.rwWord .FAB_XPORT 0, by decide +kernel⟩,
   ⟨on, 0, by decide +kernel⟩,
   ⟨on, wd [(SPARE_WEAR_CTL.WARN, 255)], by decide +kernel⟩,
   ⟨at_ [(GCTL_OWNER.SPARE, 0, 1)], wd [(SPARE_WEAR_CTL.WARN, 255)], by decide +kernel⟩,
   ⟨on, 0, by decide +kernel⟩,
   ⟨on, 0x7FF8, 2 ^ 64 - 1, by decide +kernel⟩,
   ⟨on, .ns, 2047, 1, by decide +kernel⟩,
   ⟨on, .ns, 2047, 0, by decide +kernel⟩,
   ⟨{ on with cfe := { on.cfe with msiPend := [(2047, 1)] } }, .ns, 2047, 0, by decide +kernel⟩⟩

/-- The hypotheses of each clause of `AccessRules` are met. -/
theorem witness_accessRules :
    (∃ (s : State) (w : Who) (r : Reg) (i v : Nat) (f j : _), i < 65536 ∧ s.barred w r i v ≠ .none ∧ j < 65536 ∧ r ≠ .ELOG ∧ r
      ≠ .SPARE_ELOG_PTR ∧ r ≠ .GCTL_OWNER ∧ some f ≠ r.rejFld) ∧
    (∃ (s : State) (w : Who) (r : Reg) (i v : Nat), i < 65536 ∧ s.barred w r i v = .none ∧ s.isStatus r i v = true) ∧
    (∃ (s : State) (w : Who) (r : Reg) (i v : Nat) (reject : State → Bool), i < 65536 ∧ s.barred w r i v = .none ∧ s.isStatus r i v =
      false ∧ reject s = true) ∧
    (∃ (s : State) (w : Who) (r : Reg) (i v : Nat) (reject : State → Bool), i < 65536 ∧ s.barred w r i v = .none ∧ s.isStatus r i v =
      false ∧ reject s = false) ∧
    (∃ (w : Who) (r : Reg), r.pos.blk = .sec ∧ w = .ns) ∧
    (∃ (s : State) (r : Reg), r.pos.blk = .pwr ∧ s.fget GCTL_OWNER.PWR 0 = 1) ∧
    (∃ (s : State) (r : Reg), r.pos.blk = .pwr ∧ s.fget GCTL_OWNER.PWR 0 = 0) ∧
    (∃ (r : Reg), fwMay r = true) ∧
    (∃ (r : Reg), fwMay r = false) ∧
    (∃ (s : State) (off : Nat), s.reaches .ns = true ∧ offWorld off = true) :=
  ⟨⟨on, .ns, .SEC_CMD, 65535, 1, SEC_CMD.GO, 0, by decide +kernel⟩,
   ⟨on, .s, .FAB_XPORT, 0, on.rwWord .FAB_XPORT 0, by decide +kernel⟩,
   ⟨on, .s, .FAB_XPORT, 0, 0, fun _ => true, by decide +kernel⟩,
   ⟨on, .s, .FAB_XPORT, 0, 0, fun _ => false, by decide +kernel⟩,
   ⟨.ns, .SEC_CMD, by decide +kernel⟩,
   ⟨at_ [(GCTL_OWNER.PWR, 0, 1)], .PWR_POLICY, by decide +kernel⟩,
   ⟨on, .PWR_POLICY, by decide +kernel⟩,
   ⟨.SEC_CMD, by decide +kernel⟩,
   ⟨.PWR_POLICY, by decide +kernel⟩,
   ⟨on, 0xE10000, by decide +kernel⟩⟩

/-- The hypotheses of `WarmResetColumn` are met. -/
theorem witness_warmResetColumn :
    ∃ (r : Reg) (f : Fld) (i : Nat), f ∈ r.fields ∧ i < r.pos.count :=
  ⟨.PWR_POLICY, PWR_POLICY.CAP, 0, by decide +kernel⟩

/-- The hypotheses of each clause of `StepRunsFront` are met. -/
theorem witness_stepRunsFront :
    (∃ (s : State) (c : Instr) (q : List Instr), s.pending = c :: q) ∧
    (∃ (s : State), s.pending = []) ∧
    (∃ (s : State), s.pwr.on = false) ∧
    (∃ (s : State), s.pwr.on = true ∧ (s.slewDue = false ∨ s.time.slew = 0 ∨ (s.time.slew < 0 ∧ s.time.extra = true))) ∧
    (∃ (s : State), s.pwr.on = true ∧ s.slewDue = true ∧ s.time.slew < 0 ∧ s.time.extra = false) ∧
    (∃ (s : State), s.pwr.on = true ∧ s.slewDue = true ∧ 0 < s.time.slew) :=
  ⟨⟨{ on with pending := [.earlyEntryExpiry 0] }, .earlyEntryExpiry 0, [], by decide +kernel⟩,
   ⟨on, by decide +kernel⟩,
   ⟨State.reset, by decide +kernel⟩,
   ⟨on, by decide +kernel⟩,
   ⟨{ on with time := { on.time with slew := -1 } }, by decide +kernel⟩,
   ⟨{ on with time := { on.time with slew := 1 } }, by decide +kernel⟩⟩

/-- The hypotheses of each clause of `EveryCommandIsTaken` are met. -/
theorem witness_everyCommandIsTaken :
    (∃ (c : Instr), c.wf = true) ∧
    (∃ (c : Instr), c.wf = false) :=
  ⟨⟨.earlyEntryExpiry 0, by decide +kernel⟩,
   ⟨.wake 22 [], by decide +kernel⟩⟩

/-- The hypotheses of `EveryStepKeeps` are met. -/
theorem witness_everyStepKeeps :
    ∃ (n : Nat) (v : Nat → Nat) (s t : State), s.Inv n v ∧ step s = .next t :=
  ⟨0, fun _ => 0, State.reset, State.reset.tick, ⟨by decide +kernel, by decide +kernel, by decide +kernel, by decide +kernel,
    by decide +kernel, by decide +kernel, fun t _ _ => by simp [bitsOf, State.reset]⟩, rfl⟩


/-! ## Operands that name no unit of the module (WellFormed) -/

/-- Each check of `Instr.wf` refuses the first operand past its range. -/
theorem test_ill_formed :
    (Instr.wake 22 []).wf = false ∧ (Instr.coreDone 2048 0 0).wf = false ∧ (Instr.contextResetDone 256).wf = false ∧
    (Instr.launch 8192 0).wf = false ∧ (Instr.gctlSeqtabWrite .s 16 0).wf = false ∧ (Instr.replicaCorrect 4).wf = false ∧
    (Instr.spareSubstitution 2304).wf = false ∧ (Instr.memStkStatusRead .ns 12 0).wf = false ∧ (Instr.railLimit 11).wf = false ∧
    (Instr.collStall 4096 0).wf = false ∧ (Instr.signalDetect 0 5).wf = false := by decide

/-- An ill-formed command stops and says why. -/
theorem test_ill_formed_stops : exec (Instr.wake 22 []) on = .fault .noSuchUnit := rfl

/-- No row of the table has bits, so no word spells a command. -/
theorem test_no_words : decodeTableWord 64 0 = none ∧ State.reset.withFetchWord 64 0 = State.reset := ⟨rfl, rfl⟩

/-! ## Examples of the spec, with its values -/

/-- `03_number_formats.md`, packed ternary weights: byte 0x58 holds +1, −1, 0, 0, +1. -/
theorem test_tern5 : ternTrits 0x58 = [1, 2, 0, 0, 1] ∧ ternTrits 243 = [0, 0, 0, 0, 0] := by decide

/-- `03_number_formats.md`, E4M3 block under RNE: a largest magnitude of 500 gives scale 0x80 and element 0x78, 3.0 gives 0x3C. -/
theorem test_mx_block :
    (mxBlock 4 0 true 0 [(.fin false 500 1, 0), (.fin false 3 1, 1)]).scale = 0x80 ∧
    (mxBlock 4 0 true 0 [(.fin false 500 1, 0), (.fin false 3 1, 1)]).codes = [0x78, 0x3C] := by decide +kernel

/-- `02_clockless_operation.md`: the exchange whose delay is 70 ns and whose offset is +11 ns. -/
theorem test_timing : delayOffset 5000000000 5000000081 5000000400 5000000459 0 = (70, 11) := by decide

/-- `04_cores.md`: logical core 0x5AB of a grade A module runs at site (2, 19, 15). -/
theorem test_core_site : (at_ [(SPARE_CMAP.VALID, 181, 1), (SPARE_CMAP.PCLUST, 181, 53), (SPARE_CMAP.M3, 181, 3)]).coreSite 0x5AB =
    some (576 * 2 + 24 * 19 + 15) := by decide +kernel

/-- `07_device_memory.md`: entries 2 and 5 of partition 3 both cover frame 151,697; entry 2 governs, so a write fails and a read
passes; the frame lies on stack 6. -/
theorem test_region :
    let s := { at_ [(MEM_RGN.VALID, 770, 1), (MEM_RGN.BASE, 770, 151552), (MEM_RGN.LIMIT, 770, 151807), (MEM_RGN.KEY, 770, 9),
      (MEM_RGN.RD, 770, 1), (MEM_RGN.VALID, 773, 1), (MEM_RGN.BASE, 773, 131072), (MEM_RGN.LIMIT, 773, 163839), (MEM_RGN.KEY, 773, 9),
      (MEM_RGN.RD, 773, 1), (MEM_RGN.WR, 773, 1)] with mem := { on.mem with keyGen := [(9, 1)] } }
    s.checkSpan ⟨3, 0, none, 0⟩ MEM_RGN.WR 0x4A12345680 256 = 0x0102 ∧ s.checkSpan ⟨3, 0, none, 0⟩ MEM_RGN.RD 0x4A12345680 256 = 0 ∧
    frameOf 0x4A12345680 = 151697 ∧ stackOf 151697 = 6 := by decide +kernel

/-- `10_lanes.md` and `20_connectors_electrical.md`: where ports B5, B2 and G1 of module 0x0149 lead. -/
theorem test_joined :
    let s := at_ [(FAB_CTL.NRACK_M1, 0, 255), (FAB_CTL.RACK, 0, 5), (FAB_CTL.TRAY, 0, 2), (FAB_CTL.SLOT, 0, 1)]
    s.self = 0x0149 ∧ s.joined 8 = some 0x0161 ∧ partnerPort 8 = 12 ∧ s.joined 5 = some 0x0155 ∧ partnerPort 5 = 15 ∧
    s.joined 19 = some 0x0809 := by decide +kernel

/-- `09_fabric.md`: the default tables of module 0x0149 send a packet for rack 200 by exit position 51 and port G1, to which
ports T1 and B9 lead. -/
theorem test_route :
    defaultMask 2 1 51 = 2 ^ 1 + 2 ^ 12 ∧ (5 ^^^ 200) / 4 = 51 ∧ (5 ^^^ 200) % 4 = 1 ∧ defaultMask 12 1 51 = 2 ^ 1 ∧
    backPort 12 9 = 15 := by decide

/-- `11_collectives.md`: 2^24 + 1.0 is 2^24, less 2^24 is 0, and 1.0 more is 1.0. -/
theorem test_ring_sum :
    combine FP32 0 0x4B800000 0x3F800000 = 0x4B800000 ∧ combine FP32 0 0x4B800000 0xCB800000 = 0 ∧
    combine FP32 0 0 0x3F800000 = 0x3F800000 := by decide +kernel

/-- `16_security.md`: count 5,000,123,456 as an NS requester reads it. -/
theorem test_coarse : coarse 5000123456 = 5000123000 := by decide

/-- `08_host_interface.md`: the doorbell page of context 17's ring 3 is that of ring 547, and a write there is its doorbell. -/
theorem test_doorbell_page : barWrite .ns 0x02223000 8 7 on = commandDoorbellStep .ns 547 7 on := by
  have h : offWorld 0x02223000 = false := by decide
  simp [barWrite, h]

/-- `19_management_port.md`: one second of disagreement does not set the bit, a nanosecond more does. -/
theorem test_path_disagree :
    let s (d : Nat) : State := { at_ [(LANE_PSTAT.STAGE, 6, 1), (GCTL_MGMT.HANDOVER, 0, 0), (GCTL_MGMT.SERVE, 0, 2 ^ 6), (FAB_CTL.NRACK_M1, 0, 255)] with
      mgmt := { on.mgmt with disT := [(6, 1)] }, time := { on.time with now := d } }
    (pathDisagreeStep 6 (s 1000000000)).fget GCTL_MGMT.DISAGREE 0 = 0 ∧
    (pathDisagreeStep 6 (s 1000000001)).fget GCTL_MGMT.DISAGREE 0 = 2 ^ 6 := by decide +kernel

/-! ## Vectors of the standards that the spec names (log 82) -/

/-- FIPS 180-4's example: the digest of "abc". -/
theorem test_sha256 :
    ofBE (sha256 [0x61, 0x62, 0x63]) = 0xBA7816BF8F01CFEA414140DE5DAE2223B00361A396177A9CB410FF61F20015AD := by decide +kernel

/-- RFC 3720's check value of CRC-32C: that of the digits 1 to 9. -/
theorem test_crc32c : crc32c ((List.range 9).map fun i => BitVec.ofNat 8 (0x31 + i)) = 0xE3069283 := by decide +kernel

/-- FIPS 197, C.3: AES-256. -/
theorem test_aes256 : blockNum (aesEnc (aesKeys (List.range 32)) ((List.range 16).map (17 * ·))) = 0x8EA2B7CA516745BFEAFC49904B496089 := by
  decide +kernel

/-- SP 800-38B's example of AES-256 CMAC over nothing. -/
theorem test_cmac :
    blockNum (aesCmac (numBytes 32 0x603DEB1015CA71BE2B73AEF0857D77811F352C073B6108D72D9810A30914DFF4).reverse []) =
      0x028962F61B7BF89EFC6B551F4667D983 := by decide +kernel

/-- IEEE 1619, vector 10: the first block of XTS-AES-256. -/
theorem test_xts :
    blockNum (aesXts (numBytes 32 0x2718281828459045235360287471352662497757247093699959574966967627).reverse
      (numBytes 32 0x3141592653589793238462643383279502884197169399375105820974944592).reverse 0xFF (List.range 16)) =
      0x1C3B3A102F770386E4836C99E370CF9B := by decide +kernel

/-- The GCM specification's test case 13: the tag of nothing under a key and a nonce of zeros. -/
theorem test_gcm : blockNum (gcmTag (List.replicate 32 0) (List.replicate 12 0) []) = 0x530F8AFBC74536B9A963B4F1C4CB738B := by decide +kernel

/-- IEEE 802.3 clause 36: K28.5 is 001111 1010 at negative disparity and its complement at positive; D21.5 is 101010 1010 at either. -/
theorem test_8b10b :
    encSym false (.k kCOMMA) = (0b0101111100, true) ∧ encSym true (.k kCOMMA) = (0b1010000011, false) ∧
    encSym false (.d 0xB5) = (0b0101010101, false) ∧ encSym true (.d 0xB5) = (0b0101010101, true) := by decide

end Sys2Proof.Tests
end

section
/-! The state at reset and the power stage (R4, R326, R643, R844 to R847, R855). -/
set_option autoImplicit false
namespace Sys2Proof.Machine

/-! ## The state at reset -/

/-- Where no byte is listed every byte reads 0 (log 12). -/
theorem cellsRead_nil (a n : Nat) : cellsRead [] a n = zeros n := by
  have h : ∀ a, cellsFrom [] a n = zeros n := by
    induction n with
    | zero => intro a; rfl
    | succ n ih => intro a; simp only [cellsFrom, ih, zeros, List.replicate_succ]
  exact h a

/-- The state at reset keeps what every step keeps. -/
theorem State.reset_inv : State.reset.Inv 0 (fun _ => 0) where
  mem := rfl
  cs := rfl
  staging := rfl
  cal := rfl
  token := rfl
  epochs := by decide
  svn t _ _ := by simp [bitsOf, State.reset]

/-- Settles O59: an empty register table reads each field's Power-up value, and the rest of the state is empty. -/
theorem resetState : Obligations.ResetState :=
  ⟨State.reset_inv, rfl, rfl, rfl, fun _ _ => rfl, cellsRead_nil, rfl, rfl, rfl⟩

/-! ## Register fields of other registers -/

/-- A field of a register outside `rs` reads as before. -/
theorem State.sameRegsBut.fget {s t : State} {rs : List Reg} (h : s.sameRegsBut t rs) (f : Fld) (hf : f ∈ f.reg.fields)
    (hr : f.reg ∉ rs) {i : Nat} (hi : i < 65536) : t.fget f i = s.fget f i := h f.reg hr f hf i hi

/-- One more field of a register of `rs` set leaves the other registers alone. -/
theorem State.sameRegsBut.fset {s t : State} {f : Fld} {i v : Nat} {rs : List Reg} (h : s.sameRegsBut t rs) (hr : f.reg ∈ rs)
    (hi : i < 65536) (hf : f.lsb < 1024) : s.sameRegsBut (t.fset f i v) rs :=
  State.sameRegsBut_trans h (t.sameRegsBut_fset hr hi hf)

/-- Setting one field at several places changes the registers alone. -/
theorem State.foldl_fset (s : State) (f : Fld) (v : Nat → Nat) (l : List Nat) :
    l.foldl (fun s i => s.fset f i (v i)) s = { s with regs := (l.foldl (fun s i => s.fset f i (v i)) s).regs } := by
  induction l generalizing s with
  | nil => rfl
  | cons i l ih => rw [List.foldl_cons, ih]; rfl

/-- Setting one field at several places of a register of `rs` leaves the other registers alone. -/
theorem State.sameRegsBut_foldl_fset (s : State) {f : Fld} (v : Nat → Nat) {rs : List Reg} {l : List Nat} (h : f.reg ∈ rs)
    (hl : ∀ i ∈ l, i < 65536) (hf : f.lsb < 1024) : s.sameRegsBut (l.foldl (fun s i => s.fset f i (v i)) s) rs := by
  induction l generalizing s with
  | nil => exact s.sameRegsBut_refl rs
  | cons i l ih =>
    exact State.sameRegsBut_trans (s.sameRegsBut_fset h (hl i (by simp)) hf) (ih _ fun j hj => hl j (by simp [hj]))

/-! ## The power stage starts and stops (R844 to R847) -/

/-- The stage starts when it is off and its rails have been off for 100 ms, or were never on. -/
theorem exec_enRise {s : State} (hon : s.pwr.on = false) (hst : s.pwr.starting = false)
    (hoff : ∀ t, s.pwr.offT = some t → t + 100000000 ≤ s.time.now) :
    exec .enRise s = .next { s with pwr := { s.pwr with en := true, starting := true } } := by
  have he : exec .enRise s = execEnRise s := rfl
  rw [he]
  cases h : s.pwr.offT with
  | none => simp [execEnRise, hon, hst, h]
  | some t => simp [execEnRise, hon, hst, h, hoff t h]

/-- Notes of one kind put out for each of a list change the output alone. -/
theorem State.foldl_note (s : State) (k : Nat) (l : List Nat) :
    l.foldl (fun s r => s.note k r) s = { s with out := s.out ++ l.map (.note k) } := by
  induction l generalizing s with
  | nil => simp
  | cons r l ih => rw [List.foldl_cons, ih]; simp [State.note, State.emit]

/-- The module goes dark by notes alone: lasers, drivers and receivers, then rails 0 to 10 (R678, R845). -/
theorem State.dark_eq (s : State) : s.dark =
    { s with out := s.out ++ [.note 0 0, .note 1 0, .note 6 0] ++ (List.range 11).map (.note 2) } := by
  rw [State.dark, State.foldl_note]
  simp [State.note, State.emit]

/-- EN_FALL of a stage that is on or starting leaves what survives the loss of every rail. -/
theorem exec_enFall_running {s : State} (h : s.pwr.on = true ∨ s.pwr.starting = true) : exec .enFall s = .next
    { s with pwr := { s.pwr with en := false } }.dark.railsOff :=
  congrArg _ (if_pos (by simpa using h))

/-- EN_FALL of a stage that is off takes EN away. -/
theorem exec_enFall_off {s : State} (hon : s.pwr.on = false) (hst : s.pwr.starting = false) :
    exec .enFall s = .next { s with pwr := { s.pwr with en := false } } :=
  congrArg _ (if_neg (by simp [hon, hst]))

/-! ## Power-good (R4, R643, R855) -/

/-- The module as POWER ends: on, with its straps sampled, its fuses shown, a fresh nonce and every phase in, once every UCIe module
has trained. -/
def State.broughtUp (grade tray slot : Nat) (s : State) : State :=
  let s := { s with pwr := { s.pwr with starting := false, on := true, hbT := s.time.now, onT := s.time.now } }
  let s := ((s.fset GCTL_PART_ID.GRADE 0 grade).fset FAB_CTL.TRAY 0 tray).fset FAB_CTL.SLOT 0 slot
  let s := ((s.fset SEC_LIFE.LCS 0 s.fuse.lcs).showFuses).newNonce
  (List.range 11).foldl (fun s r => s.fset PWR_RAIL.PH_IN r (phasesAll r)) s

/-- POWER_GOOD of a starting stage with all four UCIe modules trained brings the module up and ends POWER. -/
theorem exec_powerGood {s : State} (grade tray slot : Nat) (hst : s.pwr.starting = true) (hon : s.pwr.on = false) :
    exec (.powerGood grade tray slot 15) s = .next (s.broughtUp grade tray slot).endPower := by
  have trained : ∀ u : State, (List.range 4).foldl (fun s m => if (15 : Nat).testBit m then s else s.ucieOut m 1) u = u := fun _ => rfl
  have he : exec (.powerGood grade tray slot 15) s = .next (powerGoodStep grade tray slot 15 s) := rfl
  simp only [he, powerGoodStep, hst, hon, State.when_true, Bool.not_false, Bool.and_self, trained]
  rfl

/-- The registers that power-good writes before POWER ends. -/
def broughtUpRegs : List Reg := [.GCTL_PART_ID, .FAB_CTL, .SEC_LIFE, .SEC_OWNER, .SEC_SVN, .SEC_ID_STAT, .SEC_NONCE, .PWR_RAIL]

section
variable (s : State) (grade tray slot : Nat)

/-- Bringing every phase of every rail in writes `PWR_RAIL` alone. -/
theorem State.sameRegsBut_phasesIn :
    s.sameRegsBut ((List.range 11).foldl (fun s r => s.fset PWR_RAIL.PH_IN r (phasesAll r)) s) [.PWR_RAIL] :=
  s.sameRegsBut_foldl_fset phasesAll (by decide) (fun i hi => by have := List.mem_range.mp hi; omega) (by decide)

/-- The sampled straps and the burned lifecycle state, as the registers show them. -/
theorem State.broughtUp_shows :
    (s.broughtUp grade tray slot).fget GCTL_PART_ID.GRADE 0 = grade % 16 ∧
    (s.broughtUp grade tray slot).fget FAB_CTL.TRAY 0 = tray % 16 ∧
    (s.broughtUp grade tray slot).fget FAB_CTL.SLOT 0 = slot % 4 ∧
    (s.broughtUp grade tray slot).fget SEC_LIFE.LCS 0 = s.fuse.lcs % 8 := by
  unfold State.broughtUp
  refine ⟨?_, ?_, ?_, ?_⟩ <;>
  · rw [(State.sameRegsBut_phasesIn _).fget _ (by decide) (by decide) (by decide)]
    simp (disch := decide) [State.newNonce, State.showFuses, State.fput, State.fget_fset_ne]
    rfl

/-- What the fuses show stands in registers of the security controller. -/
theorem State.sameRegsBut_showFuses : s.sameRegsBut s.showFuses [.SEC_LIFE, .SEC_OWNER, .SEC_SVN, .SEC_ID_STAT] := by
  unfold State.showFuses State.fput
  iterate 5 apply State.sameRegsBut.fset (hr := by decide) (hi := by decide) (hf := by decide)
  exact s.sameRegsBut_refl _

/-- A fresh nonce stands in `SEC_NONCE`. -/
theorem State.sameRegsBut_newNonce : s.sameRegsBut s.newNonce [.SEC_NONCE] := by
  have h : s.sameRegsBut (s.fset SEC_NONCE.NONCE 0 (ofLE (s.secret 8))) [.SEC_NONCE] :=
    s.sameRegsBut_fset (by decide) (by decide) (by decide)
  exact State.sameRegsBut_trans h (State.sameRegsBut_of_regs _ rfl)

/-- Every register outside `broughtUpRegs` reads as before. -/
theorem State.sameRegsBut_broughtUp : s.sameRegsBut (s.broughtUp grade tray slot) broughtUpRegs := by
  unfold State.broughtUp
  refine State.sameRegsBut_trans ?_ (State.sameRegsBut_mono (State.sameRegsBut_phasesIn _) (by decide))
  refine State.sameRegsBut_trans ?_ (State.sameRegsBut_mono (State.sameRegsBut_newNonce _) (by decide))
  refine State.sameRegsBut_trans ?_ (State.sameRegsBut_mono (State.sameRegsBut_showFuses _) (by decide))
  iterate 4 apply State.sameRegsBut.fset (hr := by decide) (hi := by decide) (hf := by decide)
  exact s.sameRegsBut_of_regs _ rfl

/-- Beside the registers, power-good changes the power state and draws one free value. -/
theorem State.broughtUp_rest : (s.broughtUp grade tray slot).pwr =
      { s.pwr with starting := false, on := true, hbT := s.time.now, onT := s.time.now } ∧
    (s.broughtUp grade tray slot).fuse = s.fuse ∧ (s.broughtUp grade tray slot).cfe = s.cfe ∧
    (s.broughtUp grade tray slot).mem = s.mem ∧ (s.broughtUp grade tray slot).out = s.out := by
  rw [State.broughtUp, State.foldl_fset]
  exact ⟨rfl, rfl, rfl, rfl, rfl⟩

end

/-- A grade strap that names no grade fails POWER (R645). -/
theorem State.endPower_failed {s : State} (h : s.fget GCTL_PART_ID.GRADE 0 = 15) :
    s.endPower = (s.fset GCTL_BOOT_STAT.RESULT 0 3).fset GCTL_BOOT_STAT.CODE 0 0x0610 := if_pos h

/-- Any other grade passes it. -/
theorem State.endPower_passed {s : State} (h : s.fget GCTL_PART_ID.GRADE 0 ≠ 15) :
    s.endPower = (s.fset GCTL_BOOT_STAT.RESULT 0 1).fset GCTL_BOOT_STAT.PASSED 0
      (s.fget GCTL_BOOT_STAT.PASSED 0 ||| 2 ^ s.fget GCTL_BOOT_STAT.STEP 0) := by
  rw [State.endPower, if_neg h]
  simp (disch := decide) [State.endStep, State.fget_fset_ne]

/-! ## A UCIe module (R326) -/

/-- A module that carries the link and fails is fenced and leaves it. -/
theorem exec_ucieModuleFail {s : State} {m : Nat} (hm : m < 4) (hon : s.pwr.on = true) (hu : s.cfe.ucie.testBit m = true) :
    exec (.ucieModuleFail m) s = .next ({ s with cfe := { s.cfe with ucie := s.cfe.ucie - 2 ^ m } }.recordFence 10 2 m) := by
  have he : exec (.ucieModuleFail m) s = execUcieModuleFail m s := rfl
  simp [he, execUcieModuleFail, State.ucieOut, hm, hon, hu]

/-- Settles O6: each command by its own rule above; POWER_GOOD by what the module shows as POWER ends. -/
theorem powerStage : Obligations.PowerStage := by
  refine ⟨?rise, ?riseAgain, ?fall, ?fallOff, ?good, ?noGrade, ?ucie⟩
  case rise => exact fun s hon hst hoff => exec_enRise hon hst (by simp [hoff])
  case riseAgain => exact fun s t hon hst hoff ht => exec_enRise hon hst (by simpa [hoff] using ht)
  case fall =>
    intro s h
    rw [exec_enFall_running h, State.dark_eq]
    rfl
  case fallOff => exact fun s => exec_enFall_off
  case good =>
    intro s grade tray slot hst hon hg ht hs hstep
    refine ⟨_, exec_powerGood grade tray slot hst hon, ?_⟩
    obtain ⟨hgrade, htray, hslot, hlcs⟩ := s.broughtUp_shows grade tray slot
    have hsame := s.sameRegsBut_broughtUp grade tray slot
    have hstep' := (hsame.fget GCTL_BOOT_STAT.STEP (by decide) (by decide) (by decide : 0 < 65536)).trans hstep
    have hpassed := hsame.fget GCTL_BOOT_STAT.PASSED (by decide) (by decide) (by decide : 0 < 65536)
    obtain ⟨hpwr, hfuse, hcfe, hmem, hout⟩ := s.broughtUp_rest grade tray slot
    have hcount := hsame.fget TIME_COUNT.COUNT (by decide) (by decide) (by decide : 0 < 65536)
    rw [State.endPower_passed (by omega)]
    simp (disch := decide) only [State.count, State.fget_fset_same, State.fget_fset_ne, State.fset_pwr, State.fset_fuse, State.fset_cfe,
      State.fset_mem, State.fset_out, hgrade, htray, hslot, hlcs, hstep', hpassed, hcount, hpwr, hfuse, hcfe, hmem,
      hout, and_true, true_and]
    exact ⟨Nat.mod_eq_of_lt (by omega), Nat.mod_eq_of_lt ht, Nat.mod_eq_of_lt hs, rfl, rfl⟩
  case noGrade =>
    intro s tray slot hst hon
    refine ⟨_, exec_powerGood 15 tray slot hst hon, ?_⟩
    rw [State.endPower_failed (s.broughtUp_shows 15 tray slot).1]
    obtain ⟨hpwr, -⟩ := s.broughtUp_rest 15 tray slot
    refine ⟨by rw [State.fset_pwr, State.fset_pwr, hpwr], ?_, State.fget_fset_lt _ _ _ _ (by decide)⟩
    rw [State.fget_fset_ne _ _ _ _ _ _ (by decide), State.fget_fset_lt _ _ _ _ (by decide)]
  case ucie => exact fun s m => exec_ucieModuleFail

end Sys2Proof.Machine
end

section
/-! Register writes by their place (R15, R84 to R86, R326 to R329, R336, R356, R401, R726, R759, R873). -/
set_option autoImplicit false
namespace Sys2Proof.Machine

/-! ## The word that a write of 8 bytes puts in its register -/

/-- A field's bits are the same in two words that agree on the bits below 2^64. -/
theorem Fld.val_congr {f : Fld} {x y : Nat} (hf : f.lsb + f.w ≤ 64) (h : x % 2 ^ 64 = y % 2 ^ 64) : f.val x = f.val y := by
  have low : ∀ z : Nat, f.val z = f.val (z % 2 ^ 64) := by
    intro z
    refine Nat.eq_of_testBit_eq fun k => ?_
    simp only [Fld.val, bitsOf, Nat.testBit_mod_two_pow, Nat.testBit_shiftRight]
    by_cases hk : k < f.w
    · simp [show f.lsb + k < 64 by omega]
    · simp [hk]
  rw [low x, low y, h]

/-- An element of 8 bytes written whole takes the value's low 64 bits. -/
theorem State.elemPut_mod (s : State) (r : Reg) (i v : Nat) : s.elemPut r i 0 8 v % 2 ^ 64 = v % 2 ^ 64 := by
  simp only [State.elemPut, putBits, Nat.mul_zero, Nat.shiftLeft_eq]
  omega

/-- Two folds agree where their steps agree on the list's members. -/
theorem foldl_congr_mem {α β : Type} {f g : α → β → α} {l : List β} (h : ∀ a, ∀ b ∈ l, f a b = g a b) (a : α) :
    l.foldl f a = l.foldl g a := by
  induction l generalizing a with
  | nil => rfl
  | cons b l ih => rw [List.foldl_cons, List.foldl_cons, h a b List.mem_cons_self, ih fun a c hc => h a c (List.mem_cons_of_mem b hc)]

section
variable (s : State) (r : Reg) (i : Nat) {x y : Nat} (hf : ∀ f ∈ r.fields, f.lsb + f.w ≤ 64) (h : x % 2 ^ 64 = y % 2 ^ 64)
include hf h

/-- Whether a write is a status write rests on the register's 64 bits alone. -/
theorem State.isStatus_congr : s.isStatus r i x = s.isStatus r i y := by
  unfold State.isStatus
  rw [Bool.eq_iff_iff, List.all_eq_true, List.all_eq_true]
  exact forall₂_congr fun f m => by rw [Fld.val_congr (hf f m) h]

/-- So does what its W1C bits clear. -/
theorem State.clrW1C_congr : s.clrW1C r i x = s.clrW1C r i y :=
  foldl_congr_mem (fun t f m => by rw [Fld.val_congr (hf f m) h]) s

/-- So does what its RW fields take. -/
theorem State.putRW_congr : s.putRW r i x = s.putRW r i y :=
  foldl_congr_mem (fun t f m => by rw [Fld.val_congr (hf f m) h]) s

end

/-- Whether transport parameters are in range rests on the register's 64 bits alone. -/
theorem xportBad_congr {x y : Nat} (h : x % 2 ^ 64 = y % 2 ^ 64) : xportBad x = xportBad y := by
  have e : ∀ f ∈ Reg.FAB_XPORT.fields, f.val x = f.val y := fun f m =>
    Fld.val_congr ((by decide : ∀ f ∈ Reg.FAB_XPORT.fields, f.lsb + f.w ≤ 64) f m) h
  simp only [xportBad, e FAB_XPORT.WIN (by decide), e FAB_XPORT.RTO (by decide), e FAB_XPORT.RETRY (by decide),
    e FAB_XPORT.STALL (by decide), e FAB_XPORT.IDLE (by decide)]

/-! ## A write that the shared rules alone concern (R15, R873) -/

section
variable {s : State} {w : Who} {r : Reg} {i v : Nat} {reject : State → Bool}

/-- Nothing comes of a write that does not reach the module. -/
theorem plainWrite_unreached (h : s.reaches w = false) : plainWrite w r i v reject s = s := by
  simp [plainWrite, h]

/-- What comes of a write that an access rule bars. -/
theorem plainWrite_barred {bar : Bar} (hw : s.reaches w = true) (hb : s.barred w r i v = bar) (hn : bar ≠ .none) :
    plainWrite w r i v reject s = s.bar w r i bar := by
  cases bar with
  | none => exact absurd rfl hn
  | _ => simp only [plainWrite, hw, State.when_true, State.regWrite, State.regWriteOr, hb]

/-- A status write clears its W1C bits alone. -/
theorem plainWrite_status (hw : s.reaches w = true) (hb : s.barred w r i v = .none) (hs : s.isStatus r i v = true) :
    plainWrite w r i v reject s = s.clrW1C r i v := by
  simp [plainWrite, State.regWrite, State.regWriteOr, hw, hb, hs]

/-- A rejected write sets `REJ` alone. -/
theorem plainWrite_rejected (hw : s.reaches w = true) (hb : s.barred w r i v = .none) (hs : s.isStatus r i v = false)
    (hr : reject s = true) : plainWrite w r i v reject s = s.setRej r i := by
  simp [plainWrite, State.regWrite, State.regWriteOr, hw, hb, hs, hr]

/-- Any other write takes effect. -/
theorem plainWrite_taken (hw : s.reaches w = true) (hb : s.barred w r i v = .none) (hs : s.isStatus r i v = false)
    (hr : reject s = false) : plainWrite w r i v reject s = (s.clrW1C r i v).putRW r i v := by
  simp [plainWrite, State.regWrite, State.regWriteOr, hw, hb, hs, hr]

end

/-- A write of such a register rests on its 64 bits alone, where that of NS software does. -/
theorem plainWrite_congr (w : Who) (r : Reg) (i : Nat) {x y : Nat} (reject : State → Bool) (s : State)
    (hf : ∀ f ∈ r.fields, f.lsb + f.w ≤ 64) (hn : ∀ u v, s.nsMay r i u = s.nsMay r i v) (h : x % 2 ^ 64 = y % 2 ^ 64) :
    plainWrite w r i x reject s = plainWrite w r i y reject s := by
  have hb : s.barred w r i x = s.barred w r i y := by simp only [State.barred, hn x y]
  simp only [plainWrite, State.when, State.regWrite, State.regWriteOr, hb, State.isStatus_congr _ r i hf h,
    State.clrW1C_congr _ r i hf h, State.putRW_congr _ r i hf h]

/-! ## Offsets -/

/-- The offsets of the SEC block (R328). -/
theorem offWorld_iff (off : Nat) : offWorld off = true ↔ 0xE00000 ≤ off ∧ off < 0x1000000 := by
  rw [offWorld, Bool.and_eq_true, decide_eq_true_iff, decide_eq_true_iff]
  rfl

/-- What the command comes to. -/
theorem exec_registerWrite (s : State) (w : Who) (bar2 : Bool) (off n v : Nat) :
    exec (.registerWrite w bar2 off n v) s = .next (registerWriteStep w bar2 off n v s) := rfl

/-- A write that no register takes. -/
theorem exec_registerWrite_misplaced {s : State} {w : Who} {off n v : Nat}
    (h : (n ≠ 4 ∧ n ≠ 8) ∨ off % n ≠ 0 ∨ (w = .ns ∧ offWorld off = true)) :
    exec (.registerWrite w false off n v) s = .next (s.nowhere w off) := by
  rw [exec_registerWrite, registerWriteStep]
  by_cases hn : n ≠ 4 ∧ n ≠ 8
  · simp [hn]
  · simp only [if_neg hn, barWrite, if_pos (h.resolve_left hn)]
    rfl

/-- Such a write of a requester that has the block's world does nothing. -/
theorem State.nowhere_of_world {s : State} {w : Who} {off : Nat} (h : w ≠ .ns ∨ offWorld off = false) : s.nowhere w off = s := by
  rcases h with h | h <;> simp [State.nowhere, h]

/-- Such a write of an NS requester to the SEC block is logged. -/
theorem State.nowhere_ns {s : State} {off : Nat} (hw : s.reaches .ns = true) (h : offWorld off = true) :
    s.nowhere .ns off = s.logC 0x0503 := by
  simp [State.nowhere, hw, h]

/-- A write of `n` bytes brings the low bits of its value. -/
theorem exec_registerWrite_mod (s : State) (w : Who) (bar2 : Bool) (off n v : Nat) :
    exec (.registerWrite w bar2 off n v) s = exec (.registerWrite w bar2 off n (v % 2 ^ (8 * n))) s := by
  simp only [exec_registerWrite, registerWriteStep, Nat.mod_mod]

/-- A write of 4 or 8 bytes whose value fits them is judged by its offset. -/
theorem exec_registerWrite_bar0 {s : State} {w : Who} {off n v : Nat} (hn : n = 4 ∨ n = 8) (hv : v < 2 ^ (8 * n)) :
    exec (.registerWrite w false off n v) s = .next (barWrite w off n v s) := by
  rw [exec_registerWrite, registerWriteStep, if_neg (by omega), Nat.mod_eq_of_lt hv]
  rfl

/-- A write of 8 bytes at the place of a register of 8 bytes, outside the SEC block and the calibration windows. -/
theorem exec_registerWrite_reg {s : State} {w : Who} {off v : Nat} {r : Reg} (hv : v < 2 ^ 64) (ha : off % 8 = 0)
    (hw : offWorld off = false) (hlow : off < 0x1700000) (hr : regAt off = some (r, 0, 0)) (hb : r.pos.bytes = 8) :
    exec (.registerWrite w false off 8 v) s = .next (regPut w r 0 0 (s.elemPut r 0 0 8 v) s) := by
  have htok : ¬ (Blk.sec.base + 0x10000 ≤ off ∧ off - (Blk.sec.base + 0x10000) < 0x8000 ∧ w = .s) := by
    rintro ⟨h1, h2, -⟩
    simp only [Blk.base] at h1 h2
    rw [Bool.eq_false_iff, ne_eq, offWorld_iff] at hw
    omega
  rw [exec_registerWrite_bar0 (.inr rfl) hv, barWrite, if_neg (by simp [ha, hw]), if_neg (by omega)]
  dsimp only
  rw [if_neg (by simp only [Blk.base]; omega), if_neg (by simp only [Blk.base]; omega), if_neg htok, hr]
  simp [hb, regWriteAt]

/-- A write of `FAB_XPORT` at its place. -/
theorem exec_registerWrite_xport {s : State} {w : Who} {v : Nat} (hv : v < 2 ^ 64) :
    exec (.registerWrite w false 0x400010 8 v) s = .next (plainWrite w .FAB_XPORT 0 v (fun _ => xportBad v) s) := by
  have h := s.elemPut_mod .FAB_XPORT 0 v
  rw [exec_registerWrite_reg (r := .FAB_XPORT) hv (by decide) (by decide) (by decide) (by decide +kernel) rfl]
  have hp : regPut w .FAB_XPORT 0 0 (s.elemPut .FAB_XPORT 0 0 8 v) s =
      plainWrite w .FAB_XPORT 0 (s.elemPut .FAB_XPORT 0 0 8 v) (fun _ => xportBad (s.elemPut .FAB_XPORT 0 0 8 v)) s := rfl
  rw [hp, xportBad_congr h, plainWrite_congr w .FAB_XPORT 0 _ s (by decide) (fun _ _ => rfl) h]

/-- A write of `SPARE_WEAR_CTL` at its place. -/
theorem exec_registerWrite_wearCtl {s : State} {w : Who} {v : Nat} (hv : v < 2 ^ 64) :
    exec (.registerWrite w false 0x1200018 8 v) s = .next (plainWrite w .SPARE_WEAR_CTL 0 v (fun _ => false) s) := by
  rw [exec_registerWrite_reg (r := .SPARE_WEAR_CTL) hv (by decide) (by decide) (by decide) (by decide +kernel) rfl]
  exact congrArg _ (plainWrite_congr w .SPARE_WEAR_CTL 0 _ s (by decide) (fun _ _ => rfl) (s.elemPut_mod .SPARE_WEAR_CTL 0 v))

/-- From the doorbell pages on, 8 bytes alone act: a page's first word is its command doorbell, its second the completion one (R336). -/
theorem barWrite_page {s : State} {w : Who} {off n v : Nat} (ho : 0x2000000 ≤ off) (ha : off % n = 0) :
    barWrite w off n v s =
      if n ≠ 8 then s
      else if off % 4096 = 0 then commandDoorbellStep w ((off - 0x2000000) / 4096) v s
      else if off % 4096 = 8 then completionDoorbellStep w ((off - 0x2000000) / 4096) v s
      else s := by
  have hw : ¬ offWorld off = true := by
    rw [offWorld_iff]
    omega
  rw [barWrite, if_neg (by simp [ha, hw]), if_pos ho]

/-- The first word of a ring's page is its command doorbell. -/
theorem exec_registerWrite_commandDoorbell {s : State} {w : Who} {ring v : Nat} (hv : v < 2 ^ 64) (hr : ring < 8192) :
    exec (.registerWrite w false (0x2000000 + 4096 * ring) 8 v) s = exec (.commandDoorbell w ring v) s := by
  have he : exec (.commandDoorbell w ring v) s = need (decide (ring < 8192)) (commandDoorbellStep w ring v s) := rfl
  rw [exec_registerWrite_bar0 (.inr rfl) hv, barWrite_page (by omega) (by omega), if_neg (by simp), if_pos (by omega),
    show (0x2000000 + 4096 * ring - 0x2000000) / 4096 = ring by omega, he, decide_eq_true hr, need_true]

/-- The second word of a ring's page is its completion doorbell. -/
theorem exec_registerWrite_completionDoorbell {s : State} {w : Who} {ring v : Nat} (hv : v < 2 ^ 64) (hr : ring < 8192) :
    exec (.registerWrite w false (0x2000000 + 4096 * ring + 8) 8 v) s = exec (.completionDoorbell w ring v) s := by
  have he : exec (.completionDoorbell w ring v) s = need (decide (ring < 8192)) (completionDoorbellStep w ring v s) := rfl
  rw [exec_registerWrite_bar0 (.inr rfl) hv, barWrite_page (by omega) (by omega), if_neg (by simp), if_neg (by omega), if_pos (by omega),
    show (0x2000000 + 4096 * ring + 8 - 0x2000000) / 4096 = ring by omega, he, decide_eq_true hr, need_true]

/-- The token window takes the words of an S requester while no security command runs (R759). -/
theorem exec_registerWrite_token {s : State} {off v : Nat} (hv : v < 2 ^ 64) (ha : off % 8 = 0) (ho : off < 0x8000)
    (hs : s.reaches .s = true) (hb : s.fon SEC_CMD.BUSY 0 = false) : exec (.registerWrite .s false (0xE10000 + off) 8 v) s =
      .next { s with sec := { s.sec with token := cellsWrite s.sec.token off (leBytes 8 v) } } := by
  rw [exec_registerWrite_bar0 (.inr rfl) hv, barWrite, if_neg (by simp; omega), if_neg (by omega)]
  dsimp only
  rw [if_neg (by simp only [Blk.base]; omega), if_neg (by simp only [Blk.base]; omega),
    if_pos ⟨by simp only [Blk.base]; omega, by simp only [Blk.base]; omega, rfl⟩]
  simp [tokenWrite, hs, hb, Blk.base]

/-! ## The MSI-X table (R356, log 7) -/

/-- A write of the table that does not reach the module does nothing. -/
theorem exec_registerWrite_table_unreached {s : State} {w : Who} (off v : Nat) (h : s.reaches w = false) :
    exec (.registerWrite w true off 8 v) s = .next s := by
  simp [exec_registerWrite, registerWriteStep, bar2Write, h]

/-- A host's write of the mask word of an entry sets the mask or clears it. -/
theorem exec_registerWrite_mask {s : State} {w : Who} {k v : Nat} (hk : k < 2048) (hv : v < 2 ^ 32) (hw : w = .ns ∨ w = .s)
    (hr : s.reaches w = true) : exec (.registerWrite w true (16 * k + 12) 4 v) s = .next
      (if v % 2 = 0 then s.unmask k else { s with cfe := { s.cfe with masked := tset s.cfe.masked k 1 1 } }) := by
  have hm : (16 * k + 12) / 4 % 4 = 3 := by omega
  have hvec : (16 * k + 12) / 16 = k := by omega
  have hal : (16 * k + 12) % 4 = 0 := by omega
  have hhost : (decide (w = .ns) || decide (w = .s)) = true := by simpa using hw
  rw [exec_registerWrite, registerWriteStep, if_neg (by simp), Nat.mod_eq_of_lt hv]
  simp [bar2Write, msixWrite, hr, hhost, hm, hvec, hal, Nat.not_le.mpr hk]

/-- A vector unmasked with nothing pending sends nothing. -/
theorem State.unmask_idle {s : State} {k : Nat} (h : tget s.cfe.msiPend k 0 ≠ 1) :
    s.unmask k = { s with cfe := { s.cfe with masked := tset s.cfe.masked k 0 1 } } := if_neg h

/-- A vector unmasked sends the message that was pending. -/
theorem State.unmask_pending {s : State} {k : Nat} (h : tget s.cfe.msiPend k 0 = 1) : s.unmask k =
    { s with cfe := { s.cfe with masked := tset s.cfe.masked k 0 1, msiPend := tset s.cfe.msiPend k 0 0 } }.emit (.msix k) := by
  simp [State.unmask, State.msix, h]

/-! ## Who may write two of the registers (R84 to R86, R724, R726) -/

/-- An S requester and the management controller write `SPARE_WEAR_CTL` where they own the SPARE block, by `GCTL_OWNER.SPARE`. -/
theorem State.barred_wearCtl (s : State) {w : Who} (i v : Nat) (hw : w = .s ∨ w = .mc) :
    s.barred w .SPARE_WEAR_CTL i v = if s.owns w .spare = false then .owner else .none := by
  have hb : Reg.SPARE_WEAR_CTL.pos.blk = .spare := rfl
  have hm : mcReaches .SPARE_WEAR_CTL = true := rfl
  rcases hw with rfl | rfl <;> simp [State.barred, hb, hm]

/-- Settles O54: each place by what a write there comes to, each access rule by the register it bars. -/
theorem registerWrites : Obligations.RegisterWrites := by
  refine ⟨?misplaced, ?doorbell, ?xport, ?status, ?ns, ?wear, ?mc, ?token, ?msix⟩
  case misplaced =>
    refine fun s w off n v => ⟨fun hw => ⟨fun h4 h8 => ?_, fun _ ha => ?_⟩, fun hr ho => ?_, fun hm hr b => ?_⟩
    · rw [exec_registerWrite_misplaced (.inl ⟨h4, h8⟩), State.nowhere_of_world hw]
    · rw [exec_registerWrite_misplaced (.inr (.inl ha)), State.nowhere_of_world hw]
    · rw [exec_registerWrite_misplaced (.inr (.inr ⟨rfl, ho⟩)), State.nowhere_ns hr ho]
    · cases b with
      | false => rw [exec_registerWrite_mod, exec_registerWrite_xport (Nat.mod_lt _ (by decide)), plainWrite_unreached hr]
      | true => exact exec_registerWrite_table_unreached _ _ hr
  case doorbell =>
    intro s w ring v hv hr
    refine ⟨exec_registerWrite_commandDoorbell hv hr, exec_registerWrite_completionDoorbell hv hr, ?_⟩
    rw [exec_registerWrite_mod, exec_registerWrite_bar0 (.inl rfl) (Nat.mod_lt _ (by decide)), barWrite_page (by omega) (by omega),
      if_pos (by decide)]
  case xport =>
    intro s v hv hr hs
    rw [exec_registerWrite_xport hv]
    exact ⟨fun hx => by rw [plainWrite_taken hr rfl hs hx], fun hx => by rw [plainWrite_rejected hr rfl hs hx]; rfl⟩
  case status =>
    intro s v hv hr hs
    rw [exec_registerWrite_xport hv, plainWrite_status hr rfl hs]
  case ns =>
    intro s v hv hr
    refine ⟨?_, ?_⟩
    · rw [exec_registerWrite_xport hv, plainWrite_barred hr (bar := .part) rfl (by decide)]
      rfl
    · rw [exec_registerWrite_misplaced (.inr (.inr ⟨rfl, by decide⟩)), State.nowhere_ns hr (by decide)]
  case wear =>
    intro s v hv hr hs
    rw [exec_registerWrite_wearCtl hv]
    refine ⟨fun ho => ?_, fun ho => ?_⟩
    · have hb : s.barred .s .SPARE_WEAR_CTL 0 v = .none := by
        simp [s.barred_wearCtl, State.owns, ownerFld, State.fon, ho]
      rw [plainWrite_taken hr hb hs rfl]
      rfl
    · have hb : s.barred .s .SPARE_WEAR_CTL 0 v = .owner := by
        simp [s.barred_wearCtl, State.owns, ownerFld, State.fon, ho]
      rw [plainWrite_barred hr hb (by decide)]
      rfl
  case mc =>
    intro s v hv hon ho
    have hr : s.reaches .mc = true := hon
    refine ⟨?_, ?_⟩
    · have hb : s.barred .mc .SPARE_WEAR_CTL 0 v = .owner := by
        simp [s.barred_wearCtl, State.owns, ownerFld, State.fon, ho]
      rw [exec_registerWrite_wearCtl hv, plainWrite_barred hr hb (by decide)]
      rfl
    · rw [exec_registerWrite_xport hv, plainWrite_barred hr (bar := .reach) rfl (by decide)]
      rfl
  case token => exact fun s off v => exec_registerWrite_token
  case msix =>
    intro s w k v hk hv hw hr
    rw [exec_registerWrite_mask hk hv hw hr]
    refine ⟨fun h => ?_, fun h hp => ?_, fun h hp => ?_⟩
    · rw [if_neg (by omega)]
    · rw [if_pos h, State.unmask_idle (by omega)]
    · rw [if_pos h, State.unmask_pending hp]

end Sys2Proof.Machine
end

section
/-! The engines and the timebase: no descriptor engine, and no reset that one brings about, moves any part of the timebase. -/
set_option autoImplicit false
namespace Sys2Proof.Machine

/-! ## Folds -/

/-- A fold whose every step leaves the timebase leaves it. -/
theorem foldl_time {α : Type} {f : State → α → State} (h : ∀ s a, (f s a).time = s.time) (l : List α) (s : State) :
    (l.foldl f s).time = s.time := by
  induction l generalizing s with
  | nil => rfl
  | cons a l ih => rw [List.foldl_cons, ih, h]

/-! ## Memory accesses -/

@[simp] theorem State.logFails_time (s : State) (a : Party) (l : List (Nat × Nat)) : (s.logFails a l).time = s.time :=
  foldl_time (fun s _ => s.log_time _) l s

@[simp] theorem State.readGrans_time (s : State) (a : Party) (slot : Nat → Nat) (addr n : Nat) :
    (s.readGrans a slot addr n).st.time = s.time := by
  unfold State.readGrans
  split <;> simp

@[simp] theorem State.dirtyFrame_time (s : State) (f : Nat) : (s.dirtyFrame f).time = s.time := by
  unfold State.dirtyFrame
  split <;> rfl

@[simp] theorem State.putGran_time (s : State) (slot addr : Nat) (l : List Byte) (g : Nat) : (s.putGran slot addr l g).time = s.time := by
  simp [State.putGran, State.tagGran]

@[simp] theorem State.writeGrans_time (s : State) (a : Party) (slot : Nat → Nat) (addr : Nat) (l : List Byte) :
    (s.writeGrans a slot addr l).st.time = s.time := by
  simp [State.writeGrans, foldl_time]

@[simp] theorem State.fillGran_time (s : State) (g : Nat) : (s.fillGran g).time = s.time := by
  simp [State.fillGran, State.tagGran]

@[simp] theorem State.fillMet_time (s : State) (addr n : Nat) : (s.fillMet addr n).time = s.time := by
  unfold State.fillMet
  split <;> simp [foldl_time]

@[simp] theorem State.snoop_time (s : State) (inv : Bool) (addr n : Nat) : (s.snoop inv addr n).time = s.time := by
  have out := foldl_time (fun t a => State.emit_time t (.snoop a inv)) (s.heldLines addr n) s
  unfold State.snoop
  dsimp only
  split <;> exact out

@[simp] theorem State.memRead_time (s : State) (a : Party) (right : Fld) (addr n : Nat) :
    (s.memRead a right addr n).st.time = s.time := by
  unfold State.memRead
  split <;> simp

@[simp] theorem State.rawWrite_time (s : State) (a : Party) (addr : Nat) (l : List Byte) : (s.rawWrite a addr l).st.time = s.time := by
  unfold State.rawWrite State.hostUpdate
  split <;> simp

@[simp] theorem State.undefine_time (s : State) (a : Party) (addr n : Nat) : (s.undefine a addr n).time = s.time := by
  unfold State.undefine
  split <;> simp [foldl_time]

/-! ## What leaves on a port -/

@[simp] theorem State.putLanes_time (s : State) (p : Nat) (l : List (Nat × List Sym)) : (s.putLanes p l).time = s.time := by
  exact (apply_ite State.time _ _ _).trans (ite_self _)

@[simp] theorem State.putCols_time (s : State) (p : Nat) (pieces : List (List (List Sym))) : (s.putCols p pieces).time = s.time := by
  simp [State.putCols, State.setLp]

@[simp] theorem State.leaveLs1_time (s : State) (p : Nat) : (s.leaveLs1 p).time = s.time := by
  unfold State.leaveLs1
  split <;> simp

@[simp] theorem State.sendPkt_time (s : State) (p : Nat) (k : Pkt) : (s.sendPkt p k).time = s.time := by
  simp only [State.sendPkt, State.sendBytes, State.putCols_time, State.emit_time]
  split <;> simp

@[simp] theorem State.takeCredit_time (s : State) (o vc n : Nat) : (s.takeCredit o vc n).2.time = s.time := rfl

@[simp] theorem State.abortOut_time (s : State) (g o : Nat) (k : Pkt) (n : Nat) : (s.abortOut g o k n).time = s.time := by
  induction n generalizing s with
  | zero => rfl
  | succ n ih =>
    unfold State.abortOut
    dsimp only
    split
    · split <;> rfl
    · simp [ih]

@[simp] theorem State.sendAbort_time (s : State) (g part world code : Nat) : (s.sendAbort g part world code).time = s.time := by
  refine foldl_time (fun s p => ?_) _ _
  split
  · split <;> simp
  · rfl

/-! ## Transfers -/

@[simp] theorem State.hubSend_time (s : State) (p : Pkt) : (s.hubSend p).time = s.time := by
  unfold State.hubSend
  split <;> rfl

@[simp] theorem State.beginHub_time (s : State) (x : Xfer) : (s.beginHub x).time = s.time := by
  unfold State.beginHub State.begin
  split <;> rfl

@[simp] theorem State.voidRest_time (s : State) (x : Xfer) : (s.voidRest x).time = s.time := by
  unfold State.voidRest
  dsimp only
  split <;> simp [State.stampVoids, State.setXfer, State.setStream]

@[simp] theorem State.abandon_time (s : State) (x : Xfer) : (s.abandon x).time = s.time := by
  unfold State.abandon
  dsimp only
  split
  · rfl
  · split <;> simp [State.dropXfers, State.stampVoids, State.setXfer, State.setStream, foldl_time]

@[simp] theorem State.abandonAll_time (s : State) (f : Xfer → Bool) : (s.abandonAll f).time = s.time :=
  foldl_time State.abandon_time _ s

@[simp] theorem State.qrespErr_time (s : State) (q : QHeld) (status : Nat) : (s.qrespErr q status).time = s.time :=
  foldl_time (fun s _ => s.beginHub_time _) _ s

/-! ## A command completes, and a context is reset -/

@[simp] theorem State.complete_time (s : State) (c : Cmd) (status : Nat) : (s.complete c status).time = s.time := by
  unfold State.complete
  dsimp only
  split <;> simp [State.dropWork]

@[simp] theorem State.undefDst_time (s : State) (i : Inst) (abort : Bool) : (s.undefDst i abort).time = s.time := by
  unfold State.undefDst
  dsimp only
  split
  · rfl
  · split
    · simp
    · exact foldl_time (fun s k => foldl_time (fun s p => by split <;> simp) _ s) _ s

@[simp] theorem State.endInst_time (s : State) (i : Inst) (abort : Bool) : (s.endInst i abort).time = s.time := by
  simp [State.endInst]

@[simp] theorem State.stopEngines_time (s : State) (ctx : Nat) : (s.stopEngines ctx).time = s.time := by
  refine foldl_time (fun s r => foldl_time (fun s f => foldl_time (fun s c => ?_) _ s) _ s) _ s
  split <;> rfl

@[simp] theorem State.endService_time (s : State) (ctx : Nat) : (s.endService ctx).time = s.time := by
  simp [State.endService, foldl_time]

@[simp] theorem State.beginReset_time (s : State) (ctx code data : Nat) : (s.beginReset ctx code data).time = s.time := by
  unfold State.beginReset
  dsimp only
  split <;> simp [foldl_time, State.dropQueries, State.killWork]

@[simp] theorem State.resetOnce_time (s : State) (ctx code data : Nat) : (s.resetOnce ctx code data).time = s.time := by
  unfold State.resetOnce
  split
  · rfl
  · split <;> simp

@[simp] theorem State.trigger_time (s : State) (trig : Nat) (sites : List Nat) (smear : Bool) (graph : List Byte) :
    (s.trigger trig sites smear graph).time = s.time := by
  unfold State.trigger
  split
  · split <;> rfl
  · rfl

@[simp] theorem State.withdraw_time (s : State) (code : Nat) : (s.withdraw code).time = s.time := by
  have each : ∀ (t : State) (c : Nat), (if t.fget CTX_STATE.STATE c = 1 then t.resetOnce c code 0 else t).time = t.time := by
    intro t c
    split <;> simp
  simp [State.withdraw, foldl_time each]

@[simp] theorem State.ctxReset_time (s : State) (ctx code data : Nat) : (s.ctxReset ctx code data).time = s.time := by
  unfold State.ctxReset State.escalate
  dsimp only
  split
  · split <;> simp
  · simp

/-! ## The descriptor engines -/

@[simp] theorem State.stopReplay_time (s : State) (ring seq : Nat) : (s.stopReplay ring seq).time = s.time := by
  unfold State.stopReplay
  dsimp only
  split <;> rfl

@[simp] theorem State.failData_time (s : State) (r : Rsd) (code data : Nat) : (s.failData r code data).time = s.time := by
  unfold State.failData
  split <;> simp

@[simp] theorem State.report_time (s : State) (f : Failure) : (s.report f).time = s.time := by
  unfold State.report
  split <;> exact s.failData_time _ _ _

@[simp] theorem State.fillBuf_time (s : State) (r : Rsd) : (s.fillBuf r).1.time = s.time := by
  refine foldl_time (fun s e => ?_) _ s
  unfold State.passHint
  dsimp only
  split <;> rfl

/-- A descriptor that fails to be fetched or judged leaves the timebase. -/
theorem State.judge_time {s : State} {r : Rsd} {e : Failure × State} (h : s.judge r = .error e) : e.2.time = s.time := by
  unfold State.judge at h
  split at h
  · cases h
    rfl
  · split at h
    · dsimp only at h
      split at h
      · cases h
      · cases h
        rfl
    · cases h
      exact s.memRead_time _ _ _ _

@[simp] theorem State.attend_time (s : State) (r : Rsd) : (s.attend r).1.time = s.time := by
  unfold State.attend
  split
  · rfl
  · dsimp only
    split
    · exact s.fillBuf_time r
    · split
      · exact s.fillBuf_time r
      · rename_i hj
        exact (State.judge_time hj).trans (s.fillBuf_time r)

/-- The descriptor engines leave the timebase as it was. -/
@[simp] theorem State.engines_time (s : State) : s.engines.time = s.time := by
  have each : ∀ (l : List Rsd) (w : State × List Failure),
      (l.foldl (fun (w : State × List Failure) r => let t := w.1.attend r; (t.1, w.2 ++ t.2)) w).1.time = w.1.time := by
    intro l
    induction l with
    | nil => exact fun _ => rfl
    | cons r l ih => exact fun w => (ih _).trans (w.1.attend_time r)
  exact (foldl_time State.report_time _ _).trans (each _ _)

end Sys2Proof.Machine
end

section
/-! The controls that software and the management controller share: the time control, register ownership and the phase role (R39, R44, R47,
R51, R62, R83 to R86, R872). -/
set_option autoImplicit false
namespace Sys2Proof.Machine

/-! ## Register writes that the access rules let pass -/

/-- What becomes of the W1C bits leaves every other field as it was. -/
theorem State.fget_clrW1C (s : State) {r : Reg} {f : Fld} {i v : Nat} (h : ∀ g ∈ r.fields, g.acc = .w1c → f.key i ≠ g.key i) :
    (s.clrW1C r i v).fget f i = s.fget f i := by
  unfold State.clrW1C
  generalize r.fields = l at h
  induction l generalizing s with
  | nil => rfl
  | cons g l ih =>
    rw [List.foldl_cons, ih _ fun k hk => h k (List.mem_cons_of_mem g hk)]
    split
    · exact s.fget_fset_ne _ _ _ _ _ (h g List.mem_cons_self ‹_›)
    · rfl

section
variable {s : State} {w : Who} {r : Reg} {i v : Nat} {reject : State → Bool} {eff : State → State}

/-- A write that the register's own rule rejects sets `REJ` alone. -/
theorem State.regWrite_rejected (hb : s.barred w r i v = .none) (hs : s.isStatus r i v = false) (hr : reject s = true) :
    s.regWrite w r i v reject eff = s.setRej r i := by
  simp [State.regWrite, State.regWriteOr, hb, hs, hr]

/-- A write that it does not reject takes effect, with the written W1C bits cleared. -/
theorem State.regWrite_taken (hb : s.barred w r i v = .none) (hs : s.isStatus r i v = false) (hr : reject s = false) :
    s.regWrite w r i v reject eff = eff (s.clrW1C r i v) := by
  simp [State.regWrite, State.regWriteOr, hb, hs, hr]

end

/-! ## TIME_CTL (R62, R872) -/

/-- A module that keeps its parent and was not the root: the fields as written, and a lock on its own count if it is now the root. -/
theorem timeCtlEff_newRoot {s : State} {v : Nat} (hp : (s.putRW .TIME_CTL 0 v).fget TIME_CTL.PARENT 0 = s.fget TIME_CTL.PARENT 0)
    (hr : s.fon TIME_CTL.ROOT 0 = false) : timeCtlEff v s =
      if (s.putRW .TIME_CTL 0 v).fon TIME_CTL.ROOT 0 then (s.putRW .TIME_CTL 0 v).rootLock else s.putRW .TIME_CTL 0 v := by
  simp [timeCtlEff, hp, hr]

section
variable {s : State} {w : Who} {v : Nat} (hw : s.reaches w = true)
include hw

/-- A port that is neither a port of the module nor 0x1F is rejected. -/
theorem exec_timeCtlWrite_rejected (hb : s.barred w .TIME_CTL 0 v = .none) (hs : s.isStatus .TIME_CTL 0 v = false)
    (h21 : 21 < TIME_CTL.PARENT.val v) (h31 : TIME_CTL.PARENT.val v ≠ 31) :
    exec (.timeCtlWrite w v) s = .next (s.fset TIME_CTL.REJ 0 1) := by
  have he : exec (.timeCtlWrite w v) s = .next (timeCtlWriteStep w v s) := rfl
  rw [he, timeCtlWriteStep, hw, State.when_true, State.regWrite_rejected hb hs (by simp [h21, h31])]
  rfl

/-- Any other write does what an accepted one does. -/
theorem exec_timeCtlWrite_taken (hb : s.barred w .TIME_CTL 0 v = .none) (hs : s.isStatus .TIME_CTL 0 v = false)
    (hp : TIME_CTL.PARENT.val v ≤ 21 ∨ TIME_CTL.PARENT.val v = 31) :
    exec (.timeCtlWrite w v) s = .next (timeCtlEff v (s.clrW1C .TIME_CTL 0 v)) := by
  have he : exec (.timeCtlWrite w v) s = .next (timeCtlWriteStep w v s) := rfl
  rw [he, timeCtlWriteStep, hw, State.when_true, State.regWrite_taken hb hs (by simp; omega)]

/-! ## GCTL_OWNER (R83 to R86) -/

/-- A write that changes only bits its writer owns is taken. -/
theorem exec_gctlOwnerWrite_taken (hb : s.barred w .GCTL_OWNER 0 v = .none) (hm : s.ownerMay w v = true) :
    exec (.gctlOwnerWrite w v) s = .next ((s.clrW1C .GCTL_OWNER 0 v).putRW .GCTL_OWNER 0 v) := by
  have he : exec (.gctlOwnerWrite w v) s = .next (gctlOwnerWriteStep w v s) := rfl
  simp only [he, gctlOwnerWriteStep, hw, State.when_true, hb, hm, if_true]

/-! ## GCTL_ROLE (R39, R44, R47, R51) -/

/-- An accepted role is pending while it differs from the one in effect. -/
theorem exec_gctlRoleWrite_taken (hb : s.barred w .GCTL_ROLE 0 v = .none) (hs : s.isStatus .GCTL_ROLE 0 v = false)
    (hr : s.roleBad v = false) : exec (.gctlRoleWrite w v) s =
      let u := (s.clrW1C .GCTL_ROLE 0 v).putRW .GCTL_ROLE 0 v
      .next (u.fput GCTL_ROLE.PEND 0 (decide (u.fget GCTL_ROLE.ROLE 0 ≠ u.fget GCTL_ROLE.ROLE_ACT 0))) := by
  have he : exec (.gctlRoleWrite w v) s = .next (gctlRoleWriteStep w v s) := rfl
  rw [he, gctlRoleWriteStep, hw, State.when_true, State.regWrite_taken hb hs hr]

end

/-- The condition of the statement is the model's own check of the writer's bits. -/
theorem State.ownerMay_iff (s : State) (w : Who) (v : Nat) : s.ownerMay w v = true ↔
    ∀ f ∈ [GCTL_OWNER.PWR, GCTL_OWNER.OBS, GCTL_OWNER.SPARE, GCTL_OWNER.TIME],
      f.val v = s.fget f 0 ∨ (s.fon f 0 = true ↔ w = .mc) := by
  simp only [State.ownerMay, List.all_eq_true, Bool.or_eq_true, decide_eq_true_eq]
  exact forall₂_congr fun f _ => or_congr_right (by rw [Bool.eq_iff_iff, decide_eq_true_iff])

/-- With nothing launched and no query held, a pending role takes effect. -/
theorem exec_roleTakesEffect {s : State} (hu : s.hubUp = true) (hp : s.fon GCTL_ROLE.PEND 0 = true) (hc : s.cfe.cmds = [])
    (hq : s.att.queries = []) : exec .roleTakesEffect s =
      .next ((s.fset GCTL_ROLE.ROLE_ACT 0 (s.fget GCTL_ROLE.ROLE 0)).fset GCTL_ROLE.PEND 0 0) := by
  have he : exec .roleTakesEffect s = .next (roleTakesEffectStep s) := rfl
  simp [he, roleTakesEffectStep, hu, hp, hc, hq]

/-- Settles O18: each write by the rule that lets it pass; what an accepted TIME_CTL write then does turns on the root bit it leaves. -/
theorem sharedControls : Obligations.SharedControls := by
  refine ⟨?timeTaken, ?timeRejected, ?owner, ?role, ?effect⟩
  case timeTaken =>
    intro s w v hw hb hs hp u hparent hroot
    have parent : (s.clrW1C .TIME_CTL 0 v).fget TIME_CTL.PARENT 0 = s.fget TIME_CTL.PARENT 0 := s.fget_clrW1C (by decide)
    have root : (s.clrW1C .TIME_CTL 0 v).fget TIME_CTL.ROOT 0 = s.fget TIME_CTL.ROOT 0 := s.fget_clrW1C (by decide)
    rw [exec_timeCtlWrite_taken hw hb hs hp, timeCtlEff_newRoot (hparent.trans parent.symm) (by rwa [State.fon, root])]
    exact ⟨fun h => congrArg _ (if_neg (by simp [u, h])), fun h => congrArg _ (if_pos h)⟩
  case timeRejected => exact fun s w v hw hb hs => exec_timeCtlWrite_rejected hw hb hs
  case owner => exact fun s w v hw hb hm => exec_gctlOwnerWrite_taken hw hb ((s.ownerMay_iff w v).mpr hm)
  case role => exact fun s w v hw hb hs hr => exec_gctlRoleWrite_taken hw hb hs hr
  case effect => exact fun s => exec_roleTakesEffect

end Sys2Proof.Machine
end

section
/-! Commands from their reading to their completion (R33 to R36, R341, R344, R347, R350, R734). -/
set_option autoImplicit false
namespace Sys2Proof.Machine

/-! ## Reading (R341) -/

/-- A word of zeros is a NOP that passes every check and depends on nothing. -/
theorem State.checkCmd_zero (s : State) (r : Nat) : s.checkCmd r 0 = ⟨0, [], false, s⟩ := rfl

/-- Such a command waits behind those read before it. -/
theorem State.takeCmd_zero (s : State) (r seq : Nat) :
    s.takeCmd r seq 0 = { s with cfe := { s.cfe with cmds := s.cfe.cmds ++ [newCmd r seq 0 []] } } := by
  rw [State.takeCmd, s.checkCmd_zero]
  rfl

/-- The place of a ring's next command. -/
def State.cmdAddr (s : State) (r : Nat) : Nat :=
  s.fget CFE_RING_CMD.BASE r * 4096 + 64 * (s.fget CFE_RING_PTR.HEAD r % 2 ^ s.fget CFE_RING_CMD.K r)

/-- A command that can be read is taken in, and `HEAD` goes one on. -/
theorem exec_commandRead {s : State} {r word : Nat} {m : MemRes} (hr : r < 8192) (hl : s.live = true) (hm : s.mayRead r = true)
    (hread : s.rawRead (s.accOf (r / 32) 2) (s.cmdAddr r) 64 = m) (hc : m.code = 0) (hw : ofLE m.bytes = word) :
    exec (.commandRead r []) s =
      .next ((m.st.fset CFE_RING_PTR.HEAD r (s.fget CFE_RING_PTR.HEAD r + 1)).takeCmd r (s.fget CFE_RING_PTR.HEAD r) word) := by
  have he : exec (.commandRead r []) s = need (decide (r < 8192)) (commandReadStep r [] s) := rfl
  subst hread hw
  simp only [he, hr, decide_true, need_true, commandReadStep, hl, hm, Bool.and_self, State.when_true, State.markBad, List.foldl_nil,
    Nat.shiftLeft_eq, ringCtx]
  exact congrArg _ (if_neg fun h => h hc)

/-! ## Launching -/

/-- The command found at a ring and number is that ring's, of that number. -/
theorem State.cmdAt_some {s : State} {ring seq : Nat} {c : Cmd} (h : s.cmdAt ring seq = some c) :
    c ∈ s.cfe.cmds ∧ c.ring = ring ∧ c.seq = seq := by
  have his := List.find?_some h
  simp only [Cmd.is, Bool.and_eq_true, decide_eq_true_eq] at his
  exact ⟨List.mem_of_find?_eq_some h, his⟩

/-- A command replaced stands among the commands. -/
theorem State.mem_setCmd {s : State} {ring seq : Nat} {c d : Cmd} (h : s.cmdAt ring seq = some c) (hr : d.ring = c.ring)
    (hs : d.seq = c.seq) : d ∈ (s.setCmd d).cfe.cmds := by
  refine List.mem_map.mpr ⟨c, (State.cmdAt_some h).1, if_pos ?_⟩
  simp [Cmd.is, hr, hs]

section
variable {s : State} {ring seq : Nat} {c : Cmd} (hr : ring < 8192) (hat : s.cmdAt ring seq = some c) (hm : s.mayLaunch c = true)
include hat hm

/-- A command of the row's opcode that may launch does what the row says. -/
theorem State.launching_at {op : Nat} (hop : CMD.OP.of c.word = op) (k : Cmd → State → State) :
    s.launching ring seq op k = k c s := by
  simp [State.launching, hat, hm, hop]

include hr

/-- A NOP completes with status 0 (R344). -/
theorem exec_nop (hop : CMD.OP.of c.word = 0) : exec (.nop ring seq) s = .next (s.complete c 0) := by
  have he : exec (.nop ring seq) s = need (decide (ring < 8192)) (s.launching ring seq 0 fun c s => s.complete c 0) := rfl
  rw [he, decide_eq_true hr, need_true, State.launching_at hat hm hop]

/-- A LAUNCH whose placement is refused completes with the code that refuses it (R31, R734). -/
theorem exec_launch_refused (hop : CMD.OP.of c.word = 1) (hp : s.placeCode c ≠ 0) :
    exec (.launch ring seq) s = .next (s.complete c (s.placeCode c)) := by
  have he : exec (.launch ring seq) s = need (decide (ring < 8192)) (launchStep ring seq s) := rfl
  rw [he, decide_eq_true hr, need_true, launchStep, State.launching_at hat hm hop]
  split
  · exact absurd ‹_› hp
  · rfl

end

/-- The state once a LAUNCH has latched its start values, given each named core its work list and let every core attend to what is
next. -/
def State.startWork (s : State) (c : Cmd) : State :=
  let u := s.launched c c.lt.length ((clustersOf c.lt).map s.clCounters)
  { u with core := { u.core with rsds := s.core.rsds ++ c.lt.map (u.resident c) } }.engines

/-- The time stays as it was. -/
theorem State.startWork_time (s : State) (c : Cmd) : (s.startWork c).time = s.time := by
  rw [State.startWork, State.engines_time]
  rfl

/-- A LAUNCH with a place and room on every named core starts there, and its load hint reaches each die (R31 to R33, R350, log 31). -/
theorem exec_launch_placed {s : State} {ring seq : Nat} {c : Cmd} (hr : ring < 8192) (hat : s.cmdAt ring seq = some c)
    (hm : s.mayLaunch c = true) (hop : CMD.OP.of c.word = 1) (hp : s.placeCode c = 0)
    (hroom : ∀ l ∈ c.cores, s.room l c.nctr = true ∧ s.coreHeld l = false) : exec (.launch ring seq) s =
      .next (if CMD.HINT.of c.word = 0 then s.startWork c else { s.startWork c with core := { (s.startWork c).core with
        hints := (s.startWork c).core.hints ++
          (c.cores.map (· / 512)).eraseDups.map fun d => (d, CMD.HINT.of c.word, s.time.now) } }) := by
  have he : exec (.launch ring seq) s = need (decide (ring < 8192)) (launchStep ring seq s) := rfl
  have room : c.cores.all (fun l => s.room l c.nctr && !s.coreHeld l) = true :=
    List.all_eq_true.mpr fun l hl => by simp [hroom l hl]
  rw [he, decide_eq_true hr, need_true, launchStep, State.launching_at hat hm hop, hp, ← s.startWork_time c]
  exact congrArg _ (if_pos room)

/-- Once launched, a command stands among the commands with its start values latched (R350). -/
theorem State.mem_launched {s : State} {ring seq : Nat} {c : Cmd} (hat : s.cmdAt ring seq = some c) (n : Nat)
    (l : List (Nat × Nat × Nat × Nat)) : ∃ d ∈ (s.launched c n l).cfe.cmds,
      d.ring = c.ring ∧ d.seq = c.seq ∧ d.launched = true ∧ d.expect = n ∧ d.tStart = s.count :=
  ⟨_, State.mem_setCmd hat rfl rfl, rfl, rfl, rfl, rfl, rfl⟩

/-! ## Done messages (R35, R36) -/

/-- A work list once its core has sent its done message for a command, if it is that command's list on that core. -/
def Rsd.markDone (q : Rsd) (lcore ring seq : Nat) : Rsd :=
  if q.lcore = lcore ∧ q.ring = ring ∧ q.seq = seq then { q with doneSent := true } else q

/-- A list of that core and command reads as marked. -/
theorem Rsd.markDone_doneSent {q : Rsd} {lcore ring seq : Nat} (h1 : (q.markDone lcore ring seq).lcore = lcore)
    (h2 : (q.markDone lcore ring seq).ring = ring) (h3 : (q.markDone lcore ring seq).seq = seq) :
    (q.markDone lcore ring seq).doneSent = true := by
  by_cases h : q.lcore = lcore ∧ q.ring = ring ∧ q.seq = seq
  · rw [Rsd.markDone, if_pos h]
  · rw [Rsd.markDone, if_neg h] at h1 h2 h3
    exact absurd ⟨h1, h2, h3⟩ h

/-- A core whose list has ended and whose work is settled sends its done message, and the list is marked. -/
theorem exec_coreDone {s : State} {lcore ring seq : Nat} {r : Rsd} (hl : lcore < 2048) (hr : ring < 8192) (hu : s.hubUp = true)
    (hat : s.core.rsds.find? (fun r => decide (r.lcore = lcore) && decide (r.ring = ring) && decide (r.seq = seq)) = some r)
    (he : r.ended = true) (hf : r.flights = []) (hs : r.doneSent = false) (hd : r.dead = false) (hw : s.workSettled r = true) :
    exec (.coreDone lcore ring seq) s = .next { s with
      core := { s.core with rsds := s.core.rsds.map (·.markDone lcore ring seq) }
      cfe := { s.cfe with dones := s.cfe.dones ++ [(ring, seq, lcore)] } } := by
  have hx : exec (.coreDone lcore ring seq) s = need (wfCore lcore && wfRing ring) (coreDoneStep lcore ring seq s) := rfl
  simp [hx, wfCore, wfRing, hl, hr, coreDoneStep, hat, hu, he, hf, hs, hd, hw, Rsd.markDone]

/-- The last done message on its way, and the last its command waits for, completes the command of a running context (R36). -/
theorem exec_doneMessage_last {s : State} {lcore ring seq : Nat} {c : Cmd} (hl : lcore < 2048) (hr : ring < 8192) (hu : s.hubUp = true)
    (hd : s.cfe.dones = [(ring, seq, lcore)]) (hat : s.cmdAt ring seq = some c) (hn : c.expect ≤ c.ndone + 1)
    (hx : s.fget CTX_STATE.STATE (ring / 32) = 1) : exec (.doneMessage lcore ring seq) s = .next
      (({ s with cfe := { s.cfe with dones := [] } }.setCmd { c with ndone := c.ndone + 1 }).complete
        { c with ndone := c.ndone + 1 } 0) := by
  have he : exec (.doneMessage lcore ring seq) s = need (wfCore lcore && wfRing ring) (doneMessageStep lcore ring seq s) := rfl
  let t : State := { s with cfe := { s.cfe with dones := [] } }
  have cmd : t.cmdAt ring seq = some c := hat
  have run : (t.setCmd { c with ndone := c.ndone + 1 }).fget CTX_STATE.STATE (ringCtx ring) = 1 := hx
  simp [he, wfCore, wfRing, hl, hr, doneMessageStep, hu, hd, t, cmd, run, hn]

/-- Settles O20: each row by what it comes to when its conditions hold. -/
theorem commandsRun : Obligations.CommandsRun := by
  refine ⟨?read, ?nop, ?launch, ?refused, ?done, ?message⟩
  case read =>
    intro s r hr hl hm head m hc hw
    refine ⟨_, exec_commandRead hr hl hm (m := m) rfl hc hw, rfl, ?_, ?_⟩
    · rw [State.takeCmd_zero]
      rfl
    · rw [State.takeCmd_zero]
      exact State.fget_fset_same _ _ _ _
  case nop => exact fun s ring seq c hr hat hop hm => exec_nop hr hat hm hop
  case launch =>
    intro s ring seq c hr hat hop hm hp hroom u e
    have placed := exec_launch_placed hr hat hm hop hp hroom
    refine ⟨fun h => ?_, fun h => ?_, State.mem_launched hat _ _, rfl, rfl, rfl, rfl⟩
    · rw [placed, if_pos h]
      rfl
    · rw [placed, if_neg h]
      rfl
  case refused => exact fun s ring seq c hr hat hop hm => exec_launch_refused hr hat hm hop
  case done =>
    intro s lcore ring seq r hl hr hu hat he hf hs hd hw
    refine ⟨_, exec_coreDone hl hr hu hat he hf hs hd hw, rfl, fun q hq => ?_, rfl, rfl⟩
    obtain ⟨p, -, rfl⟩ := List.mem_map.mp hq
    exact Rsd.markDone_doneSent
  case message => exact fun s lcore ring seq c => exec_doneMessage_last

end Sys2Proof.Machine
end

section
/-! A step: the front command on the rest, or a nanosecond of an empty queue (R61, R66, R819; log 5). -/
set_option autoImplicit false
namespace Sys2Proof.Machine

/-- Readings held for NS views stand apart from all else, so the count moves by its write and its clocks alone. -/
theorem State.countOn_eq (s : State) (n : Nat) : ∃ o : ObsSt, s.countOn n =
    { (s.fset TIME_COUNT.COUNT 0 (s.count + n)).runOn n with obs := o } := by
  unfold State.countOn State.hold10ms
  dsimp only
  split <;> exact ⟨_, rfl⟩

/-- The count wraps at 64 bits. -/
theorem State.countOn_count (s : State) (n : Nat) : (s.countOn n).count = (s.count + n) % 2 ^ 64 := by
  obtain ⟨o, h⟩ := s.countOn_eq n
  rw [h]
  exact State.fget_fset_same _ _ _ _

/-- A flag with another key stands when a field is set. -/
theorem State.fon_fset_ne (s : State) {f g : Fld} {i j : Nat} (v : Nat) (h : g.key j ≠ f.key i) :
    (s.fset f i v).fon g j = s.fon g j := by
  rw [State.fon, State.fget_fset_ne _ _ _ _ _ _ h, State.fon]

/-- Whether the hub's handshakes run does not turn on the count. -/
theorem State.hubUp_fset_count (s : State) (v : Nat) : (s.fset TIME_COUNT.COUNT 0 v).hubUp = s.hubUp := by
  unfold State.hubUp State.up State.held
  rw [State.fon_fset_ne _ _ (by decide), State.fon_fset_ne _ _ (by decide), State.fget_fset_ne _ _ _ _ _ _ (by decide), State.fset_pwr]

/-- Nor does a freeze. -/
theorem State.frozen_fset_count (s : State) (v : Nat) : (s.fset TIME_COUNT.COUNT 0 v).frozen = s.frozen := by
  simp (disch := decide) [State.frozen, State.fget_fset_ne]

/-- The timers' clock moves with the count outside holds and freezes. -/
theorem State.countOn_run (s : State) (n : Nat) :
    (s.countOn n).time.run = if s.hubUp && !s.frozen then s.time.run + n else s.time.run := by
  obtain ⟨o, h⟩ := s.countOn_eq n
  rw [h]
  simp only [State.runOn, State.hubUp_fset_count, State.frozen_fset_count, State.fset_time]

/-- Device memory stands while the count moves. -/
theorem State.countOn_mem (s : State) (n : Nat) : (s.countOn n).mem = s.mem := by
  obtain ⟨o, h⟩ := s.countOn_eq n
  rw [h]
  rfl

section
variable {s : State}

/-- Without power real time alone passes. -/
theorem State.tick_off (hon : s.pwr.on = false) : s.tick = { s with time := { s.time with now := s.time.now + 1 } } := by
  simp [State.tick, hon]

/-- Where no slew is due the count takes one step. -/
theorem State.tick_plain (hon : s.pwr.on = true)
    (h : s.slewDue = false ∨ s.time.slew = 0 ∨ (s.time.slew < 0 ∧ s.time.extra = true)) :
    s.tick = ({ s with time := { s.time with now := s.time.now + 1, extra := false } } : State).countOn 1 := by
  have fast : ¬ (s.slewDue && decide (s.time.slew < 0) && !s.time.extra) = true := by
    rcases h with h | h | ⟨-, h⟩ <;> simp [h]
  have slow : ¬ (s.slewDue && decide (0 < s.time.slew)) = true := by
    rcases h with h | h | ⟨h, -⟩
    · simp [h]
    · simp [h]
    · simp [Int.not_lt.mpr (Int.le_of_lt h)]
  simp only [State.tick, hon, Bool.not_true, Bool.false_eq_true, if_false, if_neg fast, if_neg slow]

/-- A slew that runs the count fast gives it its extra step first. -/
theorem State.tick_fast (hon : s.pwr.on = true) (hd : s.slewDue = true) (hs : s.time.slew < 0) (he : s.time.extra = false) :
    s.tick = ({ s with time := { s.time with slew := s.time.slew + 1, extra := true } } : State).countOn 1 := by
  simp [State.tick, hon, hd, hs, he]

/-- A slew that runs it slow holds it for the nanosecond. -/
theorem State.tick_slow (hon : s.pwr.on = true) (hd : s.slewDue = true) (hs : 0 < s.time.slew) :
    s.tick = { s with time := { s.time with now := s.time.now + 1, slew := s.time.slew - 1, extra := false } } := by
  simp [State.tick, hon, hd, hs, Int.not_lt.mpr (Int.le_of_lt hs)]

end

/-- Settles O57: `step` by the two forms of the queue, `tick` by its four branches, the count by the equation above. -/
theorem stepRunsFront : Obligations.StepRunsFront := by
  refine ⟨?front, ?idle, ?tick, ?count, fun _ _ _ => ⟨rfl, rfl⟩⟩
  case front =>
    intro s c q h
    simp [step, h, State.rest]
  case idle =>
    intro s h
    simp [step, h]
  case tick => exact fun s => ⟨State.tick_off, fun hon => ⟨State.tick_plain hon, State.tick_fast hon, State.tick_slow hon⟩⟩
  case count => exact fun s n => ⟨s.countOn_count n, s.countOn_run n, s.countOn_mem n⟩

end Sys2Proof.Machine
end

section
/-! Which register writes the access rules bar, and what a barred one leaves (R84, R85, R328, R329, R724, R726, R729, R873). -/
set_option autoImplicit false
namespace Sys2Proof.Machine

/-! ## The error log's registers (R603 to R606) -/

/-- The notice of new entries writes no register. -/
@[simp] theorem State.elogNotice_regs (s : State) : s.elogNotice.regs = s.regs := by
  unfold State.elogNotice
  split
  · split
    · split
      · rfl
      · exact s.msix_regs 0
    · exact s.msix_regs 0
  · rfl

/-- A new entry stands in `ELOG`. -/
theorem State.sameRegsBut_elogWrite (s : State) {i : Nat} (n : Nat) (e : Evt) (hi : i < 65536) :
    s.sameRegsBut (s.elogWrite i n e) [.ELOG] := by
  unfold State.elogWrite State.fput
  cases e.ctx <;>
  · iterate 12 apply State.sameRegsBut.fset (hr := by decide) (hi := hi) (hf := by decide)
    exact s.sameRegsBut_refl _

/-- A logged event changes the log's entries and its pointer, and no other register. -/
theorem State.sameRegsBut_log (s : State) (e : Evt) : s.sameRegsBut (s.log e) [.ELOG, .SPARE_ELOG_PTR] := by
  have entry : ∀ n : Nat, n % 256 < 65536 := fun n => by omega
  unfold State.log
  dsimp only
  split
  · exact s.sameRegsBut_fset (by decide) (entry _) (by decide)
  · have written : s.sameRegsBut ((s.elogWrite (s.fget SPARE_ELOG_PTR.WCOUNT 0 % 256) (s.fget SPARE_ELOG_PTR.WCOUNT 0) e).fset
        SPARE_ELOG_PTR.WCOUNT 0 (s.fget SPARE_ELOG_PTR.WCOUNT 0 + 1)) [.ELOG, .SPARE_ELOG_PTR] :=
      (State.sameRegsBut_mono (s.sameRegsBut_elogWrite _ e (entry _)) (by decide)).fset (by decide) (by decide) (by decide)
    refine State.sameRegsBut_trans written (State.sameRegsBut_of_regs _ ?_)
    split
    · simp
    · simp

/-! ## `REJ` bits -/

/-- No two fields of a register begin at one bit. -/
theorem Reg.fields_lsb_inj (r : Reg) : ∀ f ∈ r.fields, ∀ g ∈ r.fields, f.lsb = g.lsb → f = g := by
  cases r <;> decide

/-- A `REJ` bit is a field of the register table, of the register itself or of the one that shows its rejections. -/
theorem Reg.rejFld_ok (r : Reg) : ∀ f ∈ r.rejFld, f ∈ f.reg.fields ∧
    f.reg ∈ [r, .MEM_RGN_STATUS, .CFE_RING_CMD, .CTX_CFG, .GCTL_BOOT_STAT, .SEC_FWU_STAT] := by
  cases r <;> decide

/-- Fields of the table that differ have different keys at any two places. -/
theorem Fld.key_ne_of_ne {f g : Fld} {i j : Nat} (hf : f ∈ f.reg.fields) (hg : g ∈ g.reg.fields) (hi : i < 65536) (hj : j < 65536)
    (h : f ≠ g) : f.key i ≠ g.key j := by
  have keys := Fld.key_ne f g hi hj (Reg.fields_ok _ f hf).2 (Reg.fields_ok _ g hg).2
  by_cases hr : f.reg = g.reg
  · exact keys (.inr (.inr fun hl => h (Reg.fields_lsb_inj g.reg f (hr ▸ hf) g hg hl)))
  · exact keys (.inl fun hc => hr (Reg.code_inj hc))

/-- Setting a register's `REJ` leaves every other field. -/
theorem State.fget_setRej (s : State) {r : Reg} {g : Fld} {i j : Nat} (hi : i < 65536) (hj : j < 65536) (hg : g ∈ g.reg.fields)
    (h : some g ≠ r.rejFld) : (s.setRej r i).fget g j = s.fget g j := by
  unfold State.setRej
  split
  · next f hf =>
    split
    · rfl
    · have place : (if r = .MEM_RGN then 0 else i) < 65536 := by split <;> omega
      exact s.fget_fset_ne _ _ _ _ _ (Fld.key_ne_of_ne hg (r.rejFld_ok f hf).1 hj place fun e => h (by rw [e, hf]))
  · rfl

/-- It changes the registers alone. -/
theorem State.setRej_eq (s : State) (r : Reg) (i : Nat) : s.setRej r i = { s with regs := (s.setRej r i).regs } := by
  unfold State.setRej
  split
  · split <;> rfl
  · rfl

/-! ## What becomes of a barred write -/

section
variable (s : State) (w : Who) (r : Reg) (i : Nat)

/-- Nothing that is not a register, a notice or an answer changes. -/
theorem State.bar_rest (b : Bar) : (s.bar w r i b).mem = s.mem ∧ (s.bar w r i b).core = s.core ∧ (s.bar w r i b).fab = s.fab ∧
    (s.bar w r i b).sec = s.sec ∧ (s.bar w r i b).pending = s.pending := by
  cases b with
  | none => exact ⟨rfl, rfl, rfl, rfl, rfl⟩
  | reach => exact ⟨rfl, rfl, rfl, rfl, rfl⟩
  | world => simp [State.bar]
  | filter => simp [State.bar]
  | part =>
    rw [State.bar, s.setRej_eq]
    simp
  | owner => cases w <;> simp [State.bar, State.ownerReject]

/-- No field changes outside the error log and `GCTL_OWNER`, but for the `REJ` of the register. -/
theorem State.fget_bar (b : Bar) {g : Fld} {j : Nat} (hi : i < 65536) (hj : j < 65536) (hg : g ∈ g.reg.fields)
    (hlog : g.reg ∉ [.ELOG, .SPARE_ELOG_PTR]) (hown : g.reg ≠ .GCTL_OWNER) (hrej : some g ≠ r.rejFld) :
    (s.bar w r i b).fget g j = s.fget g j := by
  have logged : ∀ (t : State) (c : Nat), (t.logC c).fget g j = t.fget g j := fun t c => (t.sameRegsBut_log _).fget g hg hlog hj
  have owner : ∀ f ∈ Reg.GCTL_OWNER.fields, (s.fset f 0 1).fget g j = s.fget g j := fun f hf =>
    (s.sameRegsBut_fset (rs := [.GCTL_OWNER]) (by simp [(Reg.fields_ok _ f hf).1]) (by decide) (Reg.fields_ok _ f hf).2).fget g hg
      (by simpa using hown) hj
  cases b with
  | none => rfl
  | reach => rfl
  | world => exact logged s _
  | filter => exact logged s _
  | part => exact (logged _ _).trans (s.fget_setRej hi hj hg hrej)
  | owner => cases w with
    | mc => exact owner GCTL_OWNER.REJ_MC (by decide)
    | _ => exact (logged _ _).trans (owner GCTL_OWNER.REJ_HOST (by decide))

/-- No register changes but the log's, `GCTL_OWNER`, the register itself and those that show another's rejections. -/
theorem State.sameRegsBut_bar (b : Bar) (hi : i < 65536) : s.sameRegsBut (s.bar w r i b)
    [.GCTL_OWNER, .ELOG, .SPARE_ELOG_PTR, r, .MEM_RGN_STATUS, .CFE_RING_CMD, .CTX_CFG, .GCTL_BOOT_STAT, .SEC_FWU_STAT] := by
  intro q hq g hg j hj
  obtain ⟨rfl, -⟩ := Reg.fields_ok q g hg
  have parted : g.reg ∉ [Reg.GCTL_OWNER, .ELOG, .SPARE_ELOG_PTR] ++
      [r, .MEM_RGN_STATUS, .CFE_RING_CMD, .CTX_CFG, .GCTL_BOOT_STAT, .SEC_FWU_STAT] := hq
  rw [List.mem_append, not_or] at parted
  obtain ⟨written, shown⟩ := parted
  exact s.fget_bar w r i b hi hj hg (fun h => written (List.mem_cons_of_mem _ h)) (fun e => written (e ▸ List.mem_cons_self))
    fun h => shown (r.rejFld_ok g h.symm).2

end

/-! ## Which rule bars (R84, R328, R724, R726, R729) -/

section
variable (s : State) (r : Reg) (i v : Nat)

/-- A firmware write passes its filter or is barred by it. -/
theorem State.barred_fw : s.barred .fw r i v = if fwMay r then .none else .filter := if_pos rfl

/-- An NS requester to a block it may own is judged by what it may write (R726). -/
theorem State.barred_ns (hb : r.pos.blk ≠ .sec) (ho : ownerFld r.pos.blk = Option.none) :
    s.barred .ns r i v = if s.nsMay r i v then .none else .part := by
  have own : s.owns .ns r.pos.blk = true := by simp [State.owns, ho]
  cases h : s.nsMay r i v <;> simp [State.barred, hb, own, h]

/-- It passes exactly where it may write. -/
theorem State.barred_ns_iff (hb : r.pos.blk ≠ .sec) (ho : ownerFld r.pos.blk = Option.none) :
    s.barred .ns r i v = .none ↔ s.nsMay r i v = true := by
  rw [s.barred_ns r i v hb ho]
  cases s.nsMay r i v <;> simp

/-- An S requester is barred by ownership alone. -/
theorem State.barred_s : s.barred .s r i v = if s.owns .s r.pos.blk then .none else .owner := by
  cases h : s.owns .s r.pos.blk <;> simp [State.barred, h]

/-- So is the management controller where it reaches. -/
theorem State.barred_mc (h : mcReaches r = true) : s.barred .mc r i v = if s.owns .mc r.pos.blk then .none else .owner := by
  cases ho : s.owns .mc r.pos.blk <;> simp [State.barred, h, ho]

end

section
variable {s : State} {w : Who} {r : Reg} {i v : Nat} {reject : State → Bool} {onRej eff : State → State}

/-- A write that an access rule bars comes to what that rule says. -/
theorem State.regWriteOr_barred (h : s.barred w r i v ≠ .none) :
    s.regWriteOr w r i v reject onRej eff = s.bar w r i (s.barred w r i v) := by
  unfold State.regWriteOr
  split
  · exact absurd ‹_› h
  · rfl

/-- Any other is a status write, or rejected, or takes effect. -/
theorem State.regWriteOr_admitted (h : s.barred w r i v = .none) : s.regWriteOr w r i v reject onRej eff =
    if s.isStatus r i v then s.clrW1C r i v else if reject s then onRej (s.setRej r i) else eff (s.clrW1C r i v) := by
  simp only [State.regWriteOr, h]

end

/-- Settles O55: a barred write by what its rule leaves, an admitted one by its three outcomes, and each rule by whom it bars. -/
theorem accessRules : Obligations.AccessRules := by
  refine ⟨?write, ?world, ?power, ?part, ?firmware, ?read⟩
  case write =>
    intro s w r i v reject onRej eff hi
    refine ⟨fun hb => ?_, fun hb hs => ?_, fun hb hs hr => ?_, fun hb hs hr => ?_⟩
    · dsimp only
      rw [State.regWriteOr_barred hb]
      refine ⟨s.sameRegsBut_bar w r i _ hi, fun f hf j hj hlog hptr hown hrej => ?_, s.bar_rest w r i _⟩
      obtain ⟨rfl, -⟩ := Reg.fields_ok r f hf
      exact s.fget_bar w _ i _ hi hj hf (by simp [hlog, hptr]) hown hrej
    · rw [State.regWriteOr_admitted hb, if_pos hs]
    · rw [State.regWriteOr_admitted hb, if_neg (by simp [hs]), if_pos hr]
    · rw [State.regWriteOr_admitted hb, if_neg (by simp [hs]), if_neg (by simp [hr])]
  case world =>
    rintro s w r i v hb rfl
    simp [State.barred, hb]
  case power =>
    intro s r i v hb
    have reach : mcReaches r = true := by simp [mcReaches, hb]
    rw [State.barred_s, State.barred_mc _ _ _ _ reach, hb]
    refine ⟨fun h => ?_, fun h => ?_⟩ <;> simp [State.owns, ownerFld, State.fon, h]
  case part =>
    intro s i v
    refine ⟨?_, ?_, ?_, ?_⟩
    · exact s.barred_ns_iff .CTX_CTL i v (by decide) rfl
    · exact (s.barred_ns_iff .CTX_CFG i v (by decide) rfl).trans (by simp [State.nsMay])
    · exact s.barred_ns .FAB_XPORT i v (by decide) rfl
    · exact s.barred_s .CTX_CFG i v
  case firmware =>
    intro s r i v
    rw [State.barred_fw]
    exact ⟨fun h => if_pos h, fun h => if_neg (by simp [h]), rfl⟩
  case read =>
    intro s off n hr ho
    rw [State.barRead, if_neg (by simp [hr]), if_pos (.inr (.inr ⟨rfl, ho⟩)), State.nowhere_ns hr ho]

end Sys2Proof.Machine
end

section
/-! What every firing does, and how a descriptor becomes the next of its list (R27, R172 to R187, R229, R365, R798 to R800, R868). -/
set_option autoImplicit false
namespace Sys2Proof.Machine

/-! ## What a write for observation leaves alone -/

/-- Core store, fabric and the queue stand, and no register changes but the log's, the resynchronisation's and observation's own. -/
structure State.Aside (s t : State) : Prop where
  core    : t.core = s.core
  fab     : t.fab = s.fab
  pending : t.pending = s.pending
  regs    : s.sameRegsBut t [.ELOG, .SPARE_ELOG_PTR, .SPARE_RESYNC, .OBS_TRACE, .OBS_HUB]

theorem State.Aside.refl (s : State) : s.Aside s := ⟨rfl, rfl, rfl, s.sameRegsBut_refl _⟩

theorem State.Aside.trans {s t u : State} (h : s.Aside t) (k : t.Aside u) : s.Aside u :=
  ⟨k.core.trans h.core, k.fab.trans h.fab, k.pending.trans h.pending, State.sameRegsBut_trans h.regs k.regs⟩

/-- A fold of such steps is one. -/
theorem State.Aside.foldl {α : Type} {f : State → α → State} {l : List α} (h : ∀ s : State, ∀ a ∈ l, s.Aside (f s a))
    (s : State) : s.Aside (l.foldl f s) := by
  induction l generalizing s with
  | nil => exact .refl s
  | cons a l ih => exact (h s a List.mem_cons_self).trans (ih (fun t b hb => h t b (List.mem_cons_of_mem a hb)) _)

/-- A field of such a register is set. -/
theorem State.Aside.fset {s t : State} {f : Fld} {i v : Nat} (h : s.Aside t)
    (hr : f.reg ∈ [.ELOG, .SPARE_ELOG_PTR, .SPARE_RESYNC, .OBS_TRACE, .OBS_HUB]) (hi : i < 65536) (hf : f.lsb < 1024) :
    s.Aside (t.fset f i v) := ⟨h.core, h.fab, h.pending, h.regs.fset hr hi hf⟩

theorem State.aside_log (s : State) (e : Evt) : s.Aside (s.log e) :=
  ⟨s.log_core e, s.log_fab e, s.log_pending e, State.sameRegsBut_mono (s.sameRegsBut_log e) (by decide)⟩

/-- Memory, outputs and draws are no part of it. -/
theorem State.aside_of_eq {s t : State} (hc : t.core = s.core) (hf : t.fab = s.fab) (hp : t.pending = s.pending) (hr : t.regs = s.regs) :
    s.Aside t := ⟨hc, hf, hp, State.sameRegsBut_of_regs _ hr⟩

/-! ## Writes to device memory -/

theorem State.aside_dirtyFrame (s : State) (f : Nat) : s.Aside (s.dirtyFrame f) := by
  unfold State.dirtyFrame
  split
  · refine .fset (t := { s with mem := { s.mem with dirty := s.mem.dirty ++ [f] } }) ?_ (by decide) (by decide) (by decide)
    exact State.aside_of_eq rfl rfl rfl rfl
  · exact .refl s

theorem State.aside_putGran (s : State) (slot addr : Nat) (l : List Byte) (g : Nat) : s.Aside (s.putGran slot addr l g) := by
  refine .trans ?_ (State.aside_dirtyFrame _ _)
  exact State.aside_of_eq rfl rfl rfl rfl

theorem State.aside_fillGran (s : State) (g : Nat) : s.Aside (s.fillGran g) := by
  refine .trans ?_ (State.aside_dirtyFrame _ _)
  exact State.aside_of_eq rfl rfl rfl rfl

theorem State.aside_writeGrans (s : State) (a : Party) (slot : Nat → Nat) (addr : Nat) (l : List Byte) :
    s.Aside (s.writeGrans a slot addr l).st :=
  .trans (.foldl (fun t g _ => t.aside_putGran _ addr l g) s) (.foldl (fun t _ _ => t.aside_log _) _)

theorem State.aside_fillMet (s : State) (addr n : Nat) : s.Aside (s.fillMet addr n) := by
  unfold State.fillMet
  split
  · exact .trans (.foldl (fun t e _ => t.aside_fillGran e.1) s) (State.aside_of_eq rfl rfl rfl rfl)
  · exact .refl s

theorem State.aside_snoop (s : State) (inv : Bool) (addr n : Nat) : s.Aside (s.snoop inv addr n) := by
  have sent : s.Aside ((s.heldLines addr n).foldl (fun t a => t.emit (.snoop a inv)) s) :=
    .foldl (f := fun t a => t.emit (.snoop a inv)) (fun _ _ _ => State.aside_of_eq rfl rfl rfl rfl) s
  unfold State.snoop
  split
  · exact sent.trans (State.aside_of_eq rfl rfl rfl rfl)
  · exact sent

theorem State.aside_memWrite (s : State) (a : Party) (right : Fld) (addr : Nat) (l : List Byte) :
    s.Aside (s.memWrite a right addr l).st := by
  unfold State.memWrite
  split
  · exact ((s.aside_snoop _ _ _).trans (State.aside_fillMet _ _ _)).trans (State.aside_writeGrans _ _ _ _ _)
  · exact .refl s

/-! ## The trace of a wait (R798 to R800) -/

theorem State.aside_traceOne (s : State) {k : Nat} (r : Rsd) (t0 : Nat × Bool) (w : Won) (iter : Nat) (wany : Bool) (hk : k < 4) :
    s.Aside (s.traceOne k r t0 w iter wany) := by
  have slot : k < 65536 := by omega
  have written := s.aside_memWrite (s.accOf r.ctx 0) MEM_RGN.WR
    ((s.fget OBS_TRACE.BASE k <<< 12) + 32 * (s.fget OBS_TRACE.WCOUNT k % 2 ^ s.fget OBS_TRACE.K k))
    (leBytes 32 (s.traceWord k r t0 w iter wany))
  unfold State.traceOne
  dsimp only
  split
  · split
    · exact ((State.Aside.refl s).fset (by decide) (by decide) (by decide)).fset (by decide) slot (by decide)
    · exact (written.fset (by decide) slot (by decide)).trans (State.aside_of_eq rfl rfl rfl rfl)
  · exact ((written.fset (by decide) slot (by decide)).fset (by decide) slot (by decide)).trans (State.aside_log _ _)

theorem State.aside_traceFire (s : State) (r : Rsd) (iter : Nat) (wany : Bool) : s.Aside (s.traceFire r iter wany) := by
  unfold State.traceFire
  split
  · refine .foldl (fun t k hk => t.aside_traceOne r _ _ iter wany ?_) s
    exact List.mem_range.mp (List.mem_filter.mp hk).1
  · exact .refl s

/-- A list that did not wait leaves no trace. -/
theorem State.traceFire_unwaited (s : State) {r : Rsd} (iter : Nat) (wany : Bool) (h : r.waitT0 = none) :
    s.traceFire r iter wany = s := by
  simp [State.traceFire, h]

/-! ## The rest of a firing -/

/-- A hint stands among the cores' hints. -/
theorem State.passHint_eq (s : State) (r : Rsd) (d : Nat) (firing : Bool) :
    ∃ h, s.passHint r d firing = { s with core := { s.core with hints := h } } := by
  unfold State.passHint
  dsimp only
  split <;> exact ⟨_, rfl⟩

/-- Steps of waiting are counted in a register. -/
theorem State.addTwait_eq (s : State) (site n : Nat) : ∃ g, s.addTwait site n = { s with regs := g } := by
  unfold State.addTwait
  split <;> exact ⟨_, rfl⟩

/-- A context's divergence stands under a key below those of the clusters' counters. -/
theorem CTX_DIV.key_ne_twait {c : Nat} (cl : Nat) (_ : c < 256) : CTX_DIV.DIV.key c ≠ OBS_CL.TWAIT.key cl := by
  simp only [Fld.key, CTX_DIV.DIV, OBS_CL.TWAIT, Reg.code]
  omega

/-- Steps of waiting leave every context's divergence. -/
theorem State.fget_addTwait (s : State) {c : Nat} (site n : Nat) (hc : c < 256) :
    (s.addTwait site n).fget CTX_DIV.DIV c = s.fget CTX_DIV.DIV c := by
  unfold State.addTwait
  split
  · exact s.fget_fset_ne _ _ _ _ _ (CTX_DIV.key_ne_twait _ hc)
  · rfl

/-- A list found keeps its place when it is replaced by a record of the same list. -/
theorem State.rsd_setRsd {s : State} {lcore ring seq : Nat} {r q : Rsd} (h : s.rsd lcore ring seq = some r) (hl : q.lcore = r.lcore)
    (hr : q.ring = r.ring) (hs : q.seq = r.seq) : (s.setRsd q).rsd lcore ring seq = some q := by
  let named (x : Rsd) : Bool := decide (x.lcore = lcore) && decide (x.ring = ring) && decide (x.seq = seq)
  have found : s.core.rsds.find? named = some r := h
  have kept : named ∘ (fun x => if q.same x then q else x) = named := by
    funext x
    by_cases hx : q.same x = true
    · simp only [Rsd.same, Bool.and_eq_true, decide_eq_true_eq] at hx
      simp [named, Rsd.same, hx]
    · simp [hx]
  change (s.core.rsds.map fun x => if q.same x then q else x).find? named = some q
  rw [List.find?_map, kept, found]
  simp [Rsd.same, hl, hr, hs]

/-- The state with another record of which command each core granted last. -/
def State.withTurn (s : State) (l : Table Nat) : State := { s with core := { s.core with turn := l } }

theorem State.fget_withTurn (s : State) (l : Table Nat) (f : Fld) (i : Nat) : (s.withTurn l).fget f i = s.fget f i := rfl

theorem State.replaying_withTurn (s : State) (l : Table Nat) (ring seq : Nat) :
    (s.withTurn l).replaying ring seq = s.replaying ring seq := rfl

/-- The state in which a firing's choice, where it made one, is counted (R187). -/
def State.choiceCounted (s : State) (r : Rsd) (d : Nat) : State := if r.chooses d then s.divergeFor r 1 else s

/-- A choice counted changes the registers alone. -/
theorem State.choiceCounted_eq (s : State) (r : Rsd) (d : Nat) : ∃ g, s.choiceCounted r d = { s with regs := g } := by
  unfold State.choiceCounted State.divergeFor
  split
  · split <;> exact ⟨_, rfl⟩
  · exact ⟨_, rfl⟩

/-- A saturating count of a field. -/
theorem State.fget_fsat_same (s : State) (f : Fld) (i n : Nat) : (s.fsat f i n).fget f i = satAdd f.w (s.fget f i) n :=
  State.fget_fset_lt _ _ _ _ (by have := Nat.two_pow_pos f.w; simp only [satAdd]; omega)

/-- Divergence rises by one, saturating, where the choice was made outside a replay. -/
theorem State.fget_choiceCounted (s : State) {r : Rsd} {d : Nat} (h : s.replaying r.ring r.seq = false) :
    (s.choiceCounted r d).fget CTX_DIV.DIV r.ctx =
      if r.chooses d then satAdd 32 (s.fget CTX_DIV.DIV r.ctx) 1 else s.fget CTX_DIV.DIV r.ctx := by
  unfold State.choiceCounted
  split
  · rw [State.divergeFor, if_neg (by simp [h])]
    exact s.fget_fsat_same CTX_DIV.DIV r.ctx 1
  · rfl

/-- What a firing does once its wait is traced: its hint, a count of its waiting, its command's progress and its list's record `q`. -/
def State.fireEnd (s : State) (r q : Rsd) (d twait : Nat) : State :=
  (((s.passHint r d true).addTwait r.site twait).progress r.ring r.seq).setRsd q

/-- Of the cores this changes the hints and the list; memory, fabric and queue stand. -/
theorem State.fireEnd_frame (s : State) (r q : Rsd) (d twait : Nat) :
    (∃ hints, (s.fireEnd r q d twait).core = { s.core with
      hints := hints, rsds := s.core.rsds.map fun p => if q.same p then q else p }) ∧
    (s.fireEnd r q d twait).mem = s.mem ∧ (s.fireEnd r q d twait).fab = s.fab ∧ (s.fireEnd r q d twait).pending = s.pending := by
  obtain ⟨hints, hint⟩ := s.passHint_eq r d true
  obtain ⟨g, waited⟩ := (s.passHint r d true).addTwait_eq r.site twait
  rw [State.fireEnd, waited, hint]
  exact ⟨⟨hints, rfl⟩, rfl, rfl, rfl⟩

/-- It leaves every context's divergence. -/
theorem State.fget_fireEnd (s : State) (r q : Rsd) (d twait : Nat) {c : Nat} (hc : c < 256) :
    (s.fireEnd r q d twait).fget CTX_DIV.DIV c = s.fget CTX_DIV.DIV c := by
  obtain ⟨hints, hint⟩ := s.passHint_eq r d true
  exact (State.fget_addTwait _ _ _ hc).trans (by rw [hint]; rfl)

/-- A firing passes the turn, counts its choice, traces its wait and does the rest. -/
theorem State.fireCommon_eq (s : State) (r : Rsd) (d twait : Nat) : s.fireCommon r d twait =
    (((s.withTurn (tset s.core.turn r.lcore r.turnKey 0)).choiceCounted r d).traceFire r r.iter (DESC.WANY.on d)).fireEnd r (r.fired d) d
      twait := rfl

section
variable (s : State) (r : Rsd) (d twait : Nat)

/-- From the state in which the turn has passed, a firing counts its choice, leaves a trace aside, and then changes its hint, a count of
waiting, its command's progress and its list. -/
theorem State.fireCommon_parts : ∃ (l : Table Nat) (t : State), ((s.withTurn l).choiceCounted r d).Aside t ∧
    (r.waitT0 = none → t = (s.withTurn l).choiceCounted r d) ∧ s.fireCommon r d twait = t.fireEnd r (r.fired d) d twait :=
  ⟨_, _, State.aside_traceFire _ _ _ _, State.traceFire_unwaited _ _ _, s.fireCommon_eq r d twait⟩

/-- Of the cores, a firing changes its core's turn, the hints and its list; the fabric and the queue stand, and device memory where no
wait is traced. -/
theorem State.fireCommon_frame : (∃ l hints, (s.fireCommon r d twait).core = { s.core with
      turn := l, hints := hints, rsds := (s.setRsd (r.fired d)).core.rsds }) ∧
    (s.fireCommon r d twait).fab = s.fab ∧ (s.fireCommon r d twait).pending = s.pending ∧
    (r.waitT0 = none → (s.fireCommon r d twait).mem = s.mem) := by
  obtain ⟨l, t, aside, unwaited, ht⟩ := s.fireCommon_parts r d twait
  obtain ⟨⟨hints, hcore⟩, hmem, hfab, hpend⟩ := t.fireEnd_frame r (r.fired d) d twait
  obtain ⟨g, counted⟩ := (s.withTurn l).choiceCounted_eq r d
  rw [counted] at aside unwaited
  rw [ht]
  refine ⟨⟨l, hints, ?_⟩, hfab.trans aside.fab, hpend.trans aside.pending, fun h => ?_⟩
  · rw [hcore, aside.core]
    rfl
  · rw [hmem, unwaited h]
    rfl

/-- Divergence rises by one, saturating, where the choice was made, unless the command is being replayed. -/
theorem State.fget_fireCommon (hc : r.ctx < 256) (h : s.replaying r.ring r.seq = false) :
    (s.fireCommon r d twait).fget CTX_DIV.DIV r.ctx =
      if r.chooses d then satAdd 32 (s.fget CTX_DIV.DIV r.ctx) 1 else s.fget CTX_DIV.DIV r.ctx := by
  obtain ⟨l, t, aside, -, ht⟩ := s.fireCommon_parts r d twait
  calc (s.fireCommon r d twait).fget CTX_DIV.DIV r.ctx
    _ = t.fget CTX_DIV.DIV r.ctx := by rw [ht, State.fget_fireEnd _ _ _ _ _ hc]
    _ = ((s.withTurn l).choiceCounted r d).fget CTX_DIV.DIV r.ctx := aside.regs.fget CTX_DIV.DIV (by decide) (by decide) (by omega)
    _ = _ := by rw [State.fget_choiceCounted _ (by rwa [State.replaying_withTurn]), State.fget_withTurn]

end

/-! ## Becoming next -/

section
variable {s : State} {r q : Rsd} {d : Nat}

/-- The next descriptor of a list, in the buffer, is judged by the checks alone. -/
theorem State.judge_found (more : q.pos < q.wlLen) (found : tfind q.buf q.pos = some d) : s.judge q =
    if (s.descCheck q d).code = 0 then .ok d
    else .error (⟨q, (s.descCheck q d).code, (s.descCheck q d).addr, false⟩, s) := by
  rw [State.judge, if_neg (Nat.not_le.mpr more), found]

/-- The first read at which the conditions hold is kept (R185). -/
theorem Rsd.readCtrs_met (hw : r.won = none) (hm : r.met d = true) : r.readCtrs d =
    { r with won := some ⟨(r.conds d).1, (r.conds d).2, r.lastSig, r.ctrs.getD r.lastSig.1 0⟩ } := by
  simp [Rsd.readCtrs, hw, hm]

/-- A list whose read is kept does not begin to wait (R798). -/
theorem State.noteWait_won (s : State) (h : r.won ≠ none) : s.noteWait r d = r := by
  simp [State.noteWait, h]

variable (may : s.mayFire r = true) (filled : s.fillBuf r = (s, q)) (next : q.next = none) (more : q.pos < q.wlLen)
  (found : tfind q.buf q.pos = some d)
include may filled next more found

/-- A next descriptor in the buffer that passes its checks, its conditions holding, is kept with that read of the counters (R176, R185). -/
theorem State.attend_sound (sound : (s.descCheck q d).code = 0) (won : q.won = none) (met : q.met d = true) : s.attend r =
    (s.setRsd { q with next := some d, won := some ⟨(q.conds d).1, (q.conds d).2, q.lastSig, q.ctrs.getD q.lastSig.1 0⟩ }, []) := by
  have read := Rsd.readCtrs_met (r := { q with next := some d }) (d := d) won met
  rw [State.attend, if_neg (by simp [may])]
  simp only [filled, next, State.judge_found more found, if_pos sound, read]
  rw [State.noteWait_won _ (by simp)]
  rfl

/-- One that breaks a check fails with its code, and its list stands (R176, R868). -/
theorem State.attend_broken (broken : (s.descCheck q d).code ≠ 0) :
    s.attend r = (s.setRsd q, [⟨q, (s.descCheck q d).code, (s.descCheck q d).addr, false⟩]) := by
  rw [State.attend, if_neg (by simp [may])]
  simp only [filled, next, State.judge_found more found, if_neg broken]

end

/-- Settles O27: a firing by its parts above, a descriptor that becomes next by whether it passes its checks. -/
theorem firingCommon : Obligations.FiringCommon := by
  refine ⟨?fires, ?kept, ?broken⟩
  case fires =>
    intro s lcore ring seq op f r d h hctx
    obtain ⟨⟨l, hints, hcore⟩, hfab, hpend, hmem⟩ := s.fireCommon_frame r d f.twait
    have hrsd : (s.fireCommon r d f.twait).rsd lcore ring seq = some (r.fired d) := by
      rw [State.rsd, hcore]
      exact State.rsd_setRsd h.found rfl rfl rfl
    refine ⟨hrsd, rfl, s.fget_fireCommon r d f.twait hctx h.real, ?_, ?_, ?_, hfab, hpend, hmem⟩
    all_goals rw [hcore]
  case kept =>
    intro s r d h
    obtain ⟨hnext, hwon⟩ := h.open_
    obtain ⟨hsame, hfound⟩ := h.held
    exact State.attend_sound h.may (q := (s.fillBuf r).2) (Prod.ext hsame rfl) hnext h.more hfound h.sound hwon h.met
  case broken =>
    intro s r d hmay hnext hmore hsame hfound
    exact State.attend_broken hmay (q := (s.fillBuf r).2) (Prod.ext hsame rfl) hnext hmore hfound

end Sys2Proof.Machine
end

section
/-! The exchange of TIMING sequences that sets the timebase (R64 to R70, R447, R449, R872). -/
set_option autoImplicit false
namespace Sys2Proof.Machine

/-! ## A key set twice -/

theorem tdel_tdel {α : Type} (t : Table α) (k : Nat) : tdel (tdel t k) k = tdel t k := by
  induction t with
  | nil => rfl
  | cons e r ih =>
    obtain ⟨j, v⟩ := e
    by_cases h : j = k <;> simp [tdel, h, ih]

theorem tdel_tins {α : Type} (t : Table α) (k : Nat) (v : α) : tdel (tins t k v) k = tdel t k := by
  induction t with
  | nil => simp [tins, tdel]
  | cons e r ih =>
    obtain ⟨j, w⟩ := e
    by_cases hj : k < j
    · simp [tins, tdel, hj]
    · by_cases h : j = k <;> simp [tins, tdel, hj, h, ih]

/-- The later value of a key stands. -/
theorem tset_tset {α : Type} [DecidableEq α] (t : Table α) (k : Nat) (v w d : α) : tset (tset t k v d) k w d = tset t k w d := by
  have erased : tdel (tset t k v d) k = tdel t k := by
    unfold tset
    split
    · exact tdel_tdel t k
    · rw [tdel_tins, tdel_tdel]
  rw [tset, erased, tset]

/-! ## A TIMING goes out (R441, R447) -/

/-- What a port puts on its lanes changes its own record and the output. -/
theorem State.putLanes_eq (s : State) (p : Nat) (l : List (Nat × List Sym)) : ∃ (x : LanePort) (r : List Out),
    s.putLanes p l = { s with lane := tset s.lane p x LanePort.fresh, out := s.out ++ r } := by
  have sent (x : LanePort) (o : Out) (b : Bool) : ∃ r, (if b then s.setLp p x else (s.setLp p x).emit o) =
      { s with lane := tset s.lane p x LanePort.fresh, out := s.out ++ r } := by
    cases b with
    | true => exact ⟨[], by simp [State.setLp]⟩
    | false => exact ⟨[o], rfl⟩
  exact ⟨_, sent _ _ _⟩

theorem State.putCols_eq (s : State) (p : Nat) (l : List (List (List Sym))) : ∃ (x : LanePort) (r : List Out),
    s.putCols p l = { s with lane := tset s.lane p x LanePort.fresh, out := s.out ++ r } := by
  have sent (y : LanePort) (lanes : List (Nat × List Sym)) : ∃ (x : LanePort) (r : List Out), (s.setLp p y).putLanes p lanes =
      { s with lane := tset s.lane p x LanePort.fresh, out := s.out ++ r } := by
    obtain ⟨x, r, h⟩ := (s.setLp p y).putLanes_eq p lanes
    exact ⟨x, r, by rw [h, State.setLp, tset_tset]⟩
  exact sent _ _

/-- A port that is not in LS1 sends a TIMING with its own record and the output alone changed. -/
theorem State.timing_eq (s : State) {p : Nat} (kind num c : Nat) (h : s.lstate p ≠ 1) : ∃ (x : LanePort) (r : List Out),
    s.timing p kind num c = { s with lane := tset s.lane p x LanePort.fresh, out := s.out ++ [.ctl p 1 [kind, num, c]] ++ r } := by
  have awake : s.leaveLs1 p = s := if_neg fun a => h a.2
  rw [State.timing, State.sendSeq, awake]
  exact State.putCols_eq _ _ _

/-! ## A TIMING arrives (R447) -/

/-- The bytes of a number read back as it, as far as they reach. -/
theorem dataNum_leBytes (n x : Nat) : dataNum ((leBytes n x).map BitVec.toNat) = x % 2 ^ (8 * n) := by
  induction n generalizing x with
  | zero => simp [leBytes, dataNum, Nat.mod_one]
  | succ n ih =>
    have step : dataNum ((leBytes (n + 1) x).map BitVec.toNat) = x % 2 ^ 8 + 2 ^ 8 * (x / 2 ^ 8 % 2 ^ (8 * n)) := by
      rw [← Nat.shiftRight_eq_div_pow, ← ih]
      rfl
    rw [step, show 8 * (n + 1) = 8 + 8 * n by omega, Nat.pow_add, Nat.mod_mul]

/-- A TIMING of the awaited kind is acted on with its number and its count. -/
theorem State.Hears.timed {s h : State} {p kind num c : Nat} {rx : List (List Nat)} (f : Nat → Nat → State → State) (hu : s.up = true)
    (a : s.Hears p kTIMING 10 rx (timingData kind num c) h) : s.timed p kind rx f = f num (c % 2 ^ 64) h := by
  have count : dataNum ((timingData kind num c).drop 2) = c % 2 ^ 64 := dataNum_leBytes 8 c
  rw [State.timed, hu, State.when_true, a.wide, count]
  exact if_pos rfl

section
variable {s h : State} {p : Nat} {rx : List (List Nat)} (hp : p < 22) (hu : s.up = true)
include hp hu

/-- A SYNC goes out on a port in LS0 or LS1, under the next number (R65, R449). -/
theorem exec_timingSyncSend (he : s.fon TIME_CTL.SYNC_EN 0 = true) (hl : s.portLS01 p = true) : exec (.timingSyncSend p) s = .next
    ({ s with time := { s.time with exNum := (s.time.exNum + 1) % 256 } }.timing p 1 s.time.exNum s.count) := by
  have hx : exec (.timingSyncSend p) s = need (wfPort p) (timingSyncSendStep p s) := rfl
  simp [hx, wfPort, hp, timingSyncSendStep, hu, he, hl]

/-- A child stamps a SYNC and its own REQ (R449). -/
theorem exec_timingSync {num t1 : Nat} (turn : Nat) (a : s.Hears p kTIMING 10 rx (timingData 1 num t1) h) (ht : t1 < 2 ^ 64)
    (hc : h.childOn p = true) : exec (.timingSync p rx turn) s = .next
      ({ h with time := { h.time with ex := some (num, t1, h.count, h.count + turn) } }.timing p 2 num 0) := by
  have hx : exec (.timingSync p rx turn) s = need (wfPort p) (timingSyncStep p rx turn s) := rfl
  rw [hx, wfPort, decide_eq_true hp, need_true, timingSyncStep, a.timed _ hu, hc, State.when_true, Nat.mod_eq_of_lt ht]

/-- A parent stamps a REQ and returns the stamp (R449). -/
theorem exec_timingReq {num c : Nat} (a : s.Hears p kTIMING 10 rx (timingData 2 num c) h) (he : h.fon TIME_CTL.SYNC_EN 0 = true)
    (hl : h.portLS0 p = true) : exec (.timingReq p rx) s = .next (h.timing p 3 num h.count) := by
  have hx : exec (.timingReq p rx) s = need (wfPort p) (timingReqStep p rx s) := rfl
  rw [hx, wfPort, decide_eq_true hp, need_true, timingReqStep, a.timed _ hu, he, hl, Bool.and_self, State.when_true]

end

/-! ## An exchange completes (R65 to R71) -/

/-- The state once an exchange is complete: it is noted as valid, and `OFFSET` and `DELAY` show it. -/
def State.noteExchange (s : State) (offset delay : Int) : State :=
  ({ s with time := { s.time with ex := none, lastEx := s.time.now } }.fset TIME_STATUS.OFFSET 0
    (wrapInt 16 (max (-32767) (min 32767 offset)))).fset TIME_STATUS.DELAY 0 (wrapInt 16 delay)

section
variable (s : State) (offset delay : Int)

/-- The timebase's state is another field of the register. -/
theorem State.noteExchange_state : (s.noteExchange offset delay).fget TIME_STATUS.STATE 0 = s.fget TIME_STATUS.STATE 0 := by
  rw [State.noteExchange, State.fget_fset_ne _ _ _ _ _ _ (by decide), State.fget_fset_ne _ _ _ _ _ _ (by decide)]
  rfl

/-- The count has not moved. -/
theorem State.noteExchange_count : (s.noteExchange offset delay).count = s.count := by
  rw [State.count, State.noteExchange, State.fget_fset_ne _ _ _ _ _ _ (by decide), State.fget_fset_ne _ _ _ _ _ _ (by decide)]
  rfl

end

/-- A child with the stamps of an exchange completes it with the parent's fourth. -/
theorem exec_timingResp {s h : State} {p num t1 t2 t3 t4 : Nat} {rx : List (List Nat)} {offset delay : Int} (hp : p < 22) (hu : s.up = true)
    (a : s.Hears p kTIMING 10 rx (timingData 3 num t4) h) (ht : t4 < 2 ^ 64) (hc : h.childOn p = true)
    (he : h.time.ex = some (num, t1, t2, t3)) (hd : delayOffset t1 t2 t3 t4 (h.asymNs p) = (delay, offset)) :
    exec (.timingResp p rx) s = .next ((h.noteExchange offset delay).afterExchange offset) := by
  have hx : exec (.timingResp p rx) s = need (wfPort p) (timingRespStep p rx s) := rfl
  have parent : h.fget TIME_CTL.PARENT 0 = p := by
    simp only [State.childOn, Bool.and_eq_true, decide_eq_true_eq] at hc
    exact hc.1.2
  rw [hx, wfPort, decide_eq_true hp, need_true, timingRespStep, a.timed _ hu, hc, State.when_true, Nat.mod_eq_of_lt ht, State.exchanged,
    he]
  simp only [if_true, parent, hd]
  rfl

section
variable {s : State} {offset : Int}

/-- FREE enters ACQUIRING (R65). -/
theorem State.afterExchange_free (h : s.fget TIME_STATUS.STATE 0 = 0) : s.afterExchange offset = s.acquire := by
  simp only [State.afterExchange, h]

/-- ACQUIRING takes its one load first (R65). -/
theorem State.afterExchange_load (h : s.fget TIME_STATUS.STATE 0 = 1) (hl : s.time.loaded = false) :
    s.afterExchange offset = s.loadCount offset := by
  simp [State.afterExchange, h, hl]

/-- Then an exchange beyond 5 ns begins the count of good ones again (R65, R66). -/
theorem State.afterExchange_far (h : s.fget TIME_STATUS.STATE 0 = 1) (hl : s.time.loaded = true) (hf : 5 < offset.natAbs) :
    s.afterExchange offset = { s with time := { s.time with good := 0, slew := offset } } := by
  simp [State.afterExchange, h, hl, Nat.not_le.mpr hf]

/-- One within 5 ns is counted, and the fourth enters LOCKED (R65, R66). -/
theorem State.afterExchange_near (h : s.fget TIME_STATUS.STATE 0 = 1) (hl : s.time.loaded = true) (hn : offset.natAbs ≤ 5) :
    s.afterExchange offset =
      let t : State := { s with time := { s.time with good := s.time.good + 1, slew := offset } }
      if 3 ≤ s.time.good then t.lockSync else t := by
  simp [State.afterExchange, h, hl, hn]

/-- LOCKED slews up to 1 µs, and beyond it enters ACQUIRING (R66, R67). -/
theorem State.afterExchange_locked (h : s.fget TIME_STATUS.STATE 0 = 2) : s.afterExchange offset =
    if 1000 < offset.natAbs then s.acquire else { s with time := { s.time with slew := offset } } := by
  simp only [State.afterExchange, h]

/-- HOLDOVER slews and enters LOCKED (R68). -/
theorem State.afterExchange_holdover (h : s.fget TIME_STATUS.STATE 0 = 3) :
    s.afterExchange offset = { s with time := { s.time with slew := offset } }.lockSync := by
  simp only [State.afterExchange, h]

end

/-- The load moves the count and what counts machine time, from the count before the exchange was noted (R65; log 25). -/
theorem State.noteExchange_loadCount (s : State) (offset delay : Int) : (s.noteExchange offset delay).loadCount offset =
    { (s.noteExchange offset delay).fset TIME_COUNT.COUNT 0 (wrapInt 64 ((s.count : Int) - offset)) with
      time := { (s.noteExchange offset delay).time with
        loaded := true, good := 0, run := ((s.time.run : Int) - offset).toNat, thaw := ((s.time.thaw : Int) - offset).toNat } } := by
  rw [State.loadCount, State.noteExchange_count]
  rfl

/-- Settles O1: each command by its own rule above, TIMING_RESP by what each state of the timebase makes of the offset. -/
theorem timingExchange : Obligations.TimingExchange := by
  refine ⟨⟨?send, ?sync, ?req, ?frame⟩, ?resp⟩
  case send => exact fun s p hp hu he hl => exec_timingSyncSend hp hu he hl
  case sync => exact fun s h p num t1 turn rx hp hu a ht hc => exec_timingSync hp hu turn a ht hc
  case req => exact fun s h p num c rx hp hu a he hl => exec_timingReq hp hu a he hl
  case frame => exact fun s p kind num c => s.timing_eq kind num c
  case resp =>
    intro s h p num t1 t2 t3 t4 rx asym hp hu a ht hc he hasym offset delay u st
    have resp : exec (.timingResp p rx) s = .next (u.afterExchange offset) :=
      exec_timingResp hp hu a ht hc he (hasym ▸ rfl)
    have state : u.fget TIME_STATUS.STATE 0 = st := h.noteExchange_state offset delay
    rw [resp]
    refine ⟨?free, ?load, ?far, ?near, ?fourth, ?locked, ?lost, ?holdover⟩
    case free => exact fun h0 => by rw [State.afterExchange_free (state.trans h0)]
    case load =>
      intro h1 hl
      rw [State.afterExchange_load (state.trans h1) hl]
      exact congrArg _ (h.noteExchange_loadCount offset delay)
    case far => exact fun h1 hl hf => by rw [State.afterExchange_far (state.trans h1) hl hf]
    case near =>
      intro h1 hl hn hg
      rw [State.afterExchange_near (state.trans h1) hl hn]
      exact congrArg _ (if_neg (Nat.not_le.mpr hg))
    case fourth =>
      intro h1 hl hn hg
      rw [State.afterExchange_near (state.trans h1) hl hn]
      exact congrArg _ ((if_pos (Nat.le_of_eq hg.symm)).trans (by rw [show u.time.good = 3 from hg]))
    case locked => exact fun h2 hn => by rw [State.afterExchange_locked (state.trans h2), if_neg (Nat.not_lt.mpr hn)]
    case lost => exact fun h2 hf => by rw [State.afterExchange_locked (state.trans h2), if_pos hf]
    case holdover => exact fun h3 => by rw [State.afterExchange_holdover (state.trans h3)]

end Sys2Proof.Machine
end

section
/-! The states of the timebase, its timers, TIME packets, replicas, rates and armed actions (R56, R57, R63, R64, R68, R72, R74, R77, R395,
R397, R871). -/
set_option autoImplicit false
namespace Sys2Proof.Machine

/-! ## A state is entered (R63, R74) -/

section
variable (s : State)

/-- The state entered is what `STATE` reads. -/
theorem State.setSync_state {n : Nat} (h : n < 4) : (s.setSync n).fget TIME_STATUS.STATE 0 = n := by
  rw [State.setSync, State.fput, State.fget_fset_ne _ _ _ _ _ _ (by decide), State.fget_fset_lt _ _ _ _ h]

/-- `UNSYNC` reads 1 in FREE and ACQUIRING alone. -/
theorem State.setSync_unsyncBit (n : Nat) : (s.setSync n).fon TIME_STATUS.UNSYNC 0 = decide (n ≤ 1) := by
  rw [State.fon, State.setSync, State.fget_fput_same]
  by_cases h : n ≤ 1 <;> simp [h, b2n, TIME_STATUS.UNSYNC]

/-- Entering a state writes `TIME_STATUS` alone. -/
theorem State.sameRegsBut_setSync (n : Nat) : s.sameRegsBut (s.setSync n) [.TIME_STATUS] :=
  (s.sameRegsBut_fset (by decide) (by decide) (by decide)).fset (by decide) (by decide) (by decide)

/-- `DEPTH` is another field than `STATE`. -/
theorem State.redepth_state : s.redepth.fget TIME_STATUS.STATE 0 = s.fget TIME_STATUS.STATE 0 :=
  s.fget_fset_ne _ _ _ _ _ (by decide)

/-- What `DEPTH` should read does not turn on what it reads. -/
theorem State.redepth_depthNow : s.redepth.depthNow = s.depthNow := by
  rw [State.depthNow, State.redepth_state, State.redepth, State.fon_fset_ne _ _ (by decide)]
  rfl

end

/-! ## Timers of the timebase (R64, R68, R871) -/

section
variable {s : State} (hon : s.pwr.on = true)
include hon

/-- More than 300 µs without an exchange takes a LOCKED child to HOLDOVER (R64). -/
theorem exec_holdoverEntry (hs : s.fget TIME_STATUS.STATE 0 = 2) (hr : s.fon TIME_CTL.ROOT 0 = false)
    (ht : s.time.lastEx + 300000 < s.time.now) : exec .holdoverEntry s = .next s.holdover := by
  have hx : exec .holdoverEntry s = execHoldoverEntry s := rfl
  simp [hx, execHoldoverEntry, hon, hs, hr, ht]

/-- 10 ms of HOLDOVER take it to ACQUIRING (R68). -/
theorem exec_holdoverTimeout (hs : s.fget TIME_STATUS.STATE 0 = 3) (hr : s.fon TIME_CTL.ROOT 0 = false)
    (ht : s.time.holdT + 10000000 ≤ s.time.now) : exec .holdoverTimeout s = .next s.acquire := by
  have hx : exec .holdoverTimeout s = execHoldoverTimeout s := rfl
  simp [hx, execHoldoverTimeout, hon, hs, hr, ht]

/-- 3 ms without a TIME packet of the parent leave a child at the largest depth (R871). -/
theorem exec_depthTimeout (hr : s.fon TIME_CTL.ROOT 0 = false)
    (ht : ∀ e, s.time.parent = some e → e.2.2 + 3000000 < s.time.now) :
    exec .depthTimeout s = .next (s.fset TIME_STATUS.DEPTH 0 7) := by
  have hx : exec .depthTimeout s = execDepthTimeout s := rfl
  cases hp : s.time.parent with
  | none => simp [hx, execDepthTimeout, hon, hr, hp]
  | some e => simp [hx, execDepthTimeout, hon, hr, hp, ht e hp]

end

/-! ## A TIME packet goes out (R395, R397, R871) -/

theorem leBytes_length (n x : Nat) : (leBytes n x).length = n := by
  induction n generalizing x with
  | zero => rfl
  | succ n ih => rw [leBytes, List.length_cons, ih]

/-- A field that begins at bit 4 or above leaves the low 4 bits of a word 0. -/
theorem BF.mk1_mod_16 {f : BF} (v : Nat) (h : 4 ≤ f.lsb) : f.mk1 v % 16 = 0 := by
  obtain ⟨k, hk⟩ := Nat.exists_eq_add_of_le h
  rw [BF.mk1, Nat.shiftLeft_eq, hk, Nat.pow_add]
  exact Nat.mod_eq_zero_of_dvd ⟨v % 2 ^ f.w * 2 ^ k, Nat.mul_left_comm _ _ _⟩

/-- Sealing a header leaves its type. -/
theorem sealHdr_type (h : Nat) : PH.TYPE.of (sealHdr h) = PH.TYPE.of h := by
  simp only [sealHdr, BF.put, putBits, BF.of, bitsOf, PH.TYPE, PH.HCRC, Nat.shiftLeft_eq, Nat.shiftRight_eq_div_pow]
  omega

/-- So do any number of them. -/
theorem packFields_mod_16 {l : List (BF × Nat)} (h : ∀ e ∈ l, 4 ≤ e.1.lsb) : packFields l % 16 = 0 := by
  induction l with
  | nil => rfl
  | cons e l ih => rw [packFields, Nat.add_mod, BF.mk1_mod_16 _ (h e List.mem_cons_self), ih fun f hf => h f (List.mem_cons_of_mem e hf)]

/-- A packet that the hub forms is of the type that leads its fields. -/
theorem mkPkt_type {ty : Nat} {l : List (BF × Nat)} (pay : List Byte) (ht : ty < 16) (h : ∀ e ∈ l, 4 ≤ e.1.lsb) :
    PH.TYPE.of (mkPkt ((PH.TYPE, ty) :: l) pay).hdr = ty := by
  have low : ∀ w : Nat, PH.TYPE.of w = w % 16 := fun w => by simp [BF.of, bitsOf, PH.TYPE]
  have lead : PH.TYPE.mk1 ty = ty := by simp [BF.mk1, PH.TYPE, Nat.mod_eq_of_lt ht]
  have rest := packFields_mod_16 h
  have len := BF.mk1_mod_16 pay.length (f := PH.PLEN) (by decide)
  rw [mkPkt, sealHdr_type, low, packFields, lead]
  omega

/-- A TIME packet is of its type. -/
theorem State.timePacket_type (s : State) (p : Nat) : PH.TYPE.of (s.timePacket p).hdr = tyTIME :=
  mkPkt_type _ (by decide) (by simp [PH.DEST, PH.SRC, PH.WORLD, PH.MTLEN])

/-- It takes two flits. -/
theorem State.timePacket_flits (s : State) (p : Nat) : flitsOf (s.timePacket p) = 2 := by
  have length : (s.timePacket p).pay.length = 32 := leBytes_length 32 _
  rw [flitsOf, length]
  rfl

/-- Injected here, it takes channel 0, or channel 1 of a G port, and no filter concerns it (R395, R399). -/
theorem State.branch_time (s : State) (p since frees : Nat) : s.branch hubPort p false (s.timePacket p) (copyArr hubPort p) since frees =
    (s.grant p (if isG p then 1 else 0) (s.timePacket p) since frees).getD (s.wait (s.timePacket p) (copyArr hubPort p) since) := by
  have channel : nextVc (arrivedBy hubPort (s.timePacket p)) (isG p) false = some (if isG p then 1 else 0) := by
    simp only [arrivedBy, if_neg (Nat.lt_irrefl hubPort), nextVc]
    split <;> rfl
  have cross : s.mayCross p (s.timePacket p) = true := by simp [State.mayCross, s.timePacket_type]
  simp [State.branch, channel, cross]

/-- A packet on a port keeps another from it (R392). -/
theorem State.grant_crossing {s : State} {o : Nat} (vc : Nat) (k : Pkt) (since frees : Nat) (h : s.crossing o = true) :
    s.grant o vc k since frees = none := if_pos h

/-- Two flits go at once where the channel's reserved share holds them; injection here frees no buffer (R397; log 52). -/
theorem State.grant_two {s : State} {o vc : Nat} {k : Pkt} (since : Nat) {frees : Nat} (h : s.crossing o = false) (hk : flitsOf k = 2)
    (hc : 2 ≤ s.credit o vc) (hf : hubPort ≤ frees) : s.grant o vc k since frees =
      some (((s.setCredit o vc (s.credit o vc - 2)).setCredit o 4 (s.credit o 4)).sendPkt o (outPkt k vc)) := by
  have freed : ∀ t : State, t.freed frees k = t := fun t => if_neg (Nat.not_lt.mpr hf)
  have share : s.takeCredit o vc 2 = (2, (s.setCredit o vc (s.credit o vc - 2)).setCredit o 4 (s.credit o 4)) := by
    simp [State.takeCredit, Nat.min_eq_left hc]
  simp [State.grant, h, hk, share, freed]

/-- TIME goes to a port's partner as a packet injected here. -/
theorem exec_timePacketSend {s : State} {p : Nat} (hp : p < 22) (hu : s.up = true) (he : s.fon TIME_CTL.SYNC_EN 0 = true)
    (hl : s.portLS01 p = true) : exec (.timePacketSend p) s = .next
      ((s.grant p (if isG p then 1 else 0) (s.timePacket p) s.time.run (32 + hubPort)).getD
        (s.wait (s.timePacket p) (copyArr hubPort p) s.time.run)) := by
  have hx : exec (.timePacketSend p) s = need (wfPort p) (timePacketSendStep p s) := rfl
  rw [hx, wfPort, decide_eq_true hp, need_true, timePacketSendStep, hu, he, hl, Bool.and_self, Bool.and_self, State.when_true,
    State.branch_time]

/-! ## A TIME packet arrives (R871) -/

/-- A sound TIME packet on the parent's port is the parent's latest report, and `DEPTH` follows it. -/
theorem exec_timeReceive {s : State} {p : Nat} {k : Pkt} (hp : p < 22) (hu : s.up = true) (hk : pktSound k = true)
    (ht : PH.TYPE.of k.hdr = tyTIME) (hpar : s.fget TIME_CTL.PARENT 0 = p) : exec (.timeReceive p k) s = .next
      ({ s with time := { s.time with
        parent := some (leAt k.pay 0 1 % 4, leAt k.pay 0 1 / 4 % 8, s.time.now) } } : State).redepth := by
  have hx : exec (.timeReceive p k) s = need (wfPort p) (timeReceiveStep p k s) := rfl
  have parts : ∀ w : Nat, bitsOf w 0 2 = w % 4 ∧ bitsOf w 2 3 = w / 4 % 8 := fun w => by simp [bitsOf, Nat.shiftRight_eq_div_pow]
  simp only [hx, wfPort, hp, decide_true, need_true, timeReceiveStep, hu, hk, ht, hpar, Bool.and_self, State.when_true, parts]

/-! ## Replicas, rates and armed actions (R56, R57, R72, R77) -/

/-- A replica lands where a free value puts it, within 2 ns (R72). -/
theorem exec_replicaCorrect {s : State} {d : Nat} (hd : d < 4) (hon : s.pwr.on = true) : exec (.replicaCorrect d) s = .next { s with
    time := { s.time with replica := s.time.replica.set d ((s.freeV 16 % 5 : Nat) - 2 : Int) }, freeCtr := s.freeCtr + 1 } := by
  have hx : exec (.replicaCorrect d) s = need (wfDie d) (replicaCorrectStep d s) := rfl
  rw [hx, wfDie, decide_eq_true hd, need_true, replicaCorrectStep, hon, State.when_true]
  rfl

/-- A rate field shows nothing of the dies' power. -/
theorem State.diesOff_fset_rate (s : State) (d v : Nat) : (s.fset (rateFld d) 0 v).diesOff = s.diesOff := by
  have key : PWR_PSTATE.STATE.key 0 ≠ (rateFld d).key 0 := by
    unfold rateFld
    split <;> decide
  unfold State.diesOff State.up
  rw [State.fget_fset_ne _ _ _ _ _ _ key, State.fset_pwr]

/-- The rate fields are set by the dies' state as it stood. -/
theorem State.setRates_eq (s : State) (m : List (List Nat)) : s.setRates m =
    (List.range 4).foldl (fun t d => t.fset (rateFld d) 0 (if s.diesOff then 0 else leastOf (m.getD d []))) s := by
  have fold : ∀ (l : List Nat) (t : State), t.diesOff = s.diesOff →
      l.foldl (fun t d => t.fset (rateFld d) 0 (if t.diesOff then 0 else leastOf (m.getD d []))) t =
        l.foldl (fun t d => t.fset (rateFld d) 0 (if s.diesOff then 0 else leastOf (m.getD d []))) t := by
    intro l
    induction l with
    | nil => exact fun _ _ => rfl
    | cons d l ih =>
      intro t ht
      rw [List.foldl_cons, List.foldl_cons, ht, ih _ ((t.diesOff_fset_rate _ _).trans ht)]
  exact fold _ s rfl

/-- A sample sets the rate fields. -/
theorem exec_rateSample {s : State} (hon : s.pwr.on = true) (m : List (List Nat)) : exec (.rateSample m) s = .next (s.setRates m) := by
  have hx : exec (.rateSample m) s = .next (rateSampleStep m s) := rfl
  rw [hx, rateSampleStep, hon, State.when_true]

/-- An armed action whose count has come is armed no longer, and a launch wakes the module (R77, R369). -/
theorem exec_armedAction {s : State} {k : Nat} {a : Armed} (hl : s.live = true) (hk : s.time.armed[k]? = some a)
    (hc : a.count ≤ s.count) : exec (.armedAction k) s =
      let u : State := { s with time := { s.time with armed := s.time.armed.eraseIdx k } }
      .next (if a.kind = 0 then u.wake else u) := by
  have hx : exec (.armedAction k) s = .next (armedActionStep k s) := rfl
  rw [hx, armedActionStep, hk]
  exact congrArg _ (if_pos (by simp [hl, hc]))

/-- Settles O2: the states by the fields they write, each command by its own rule above. -/
theorem timebaseEvents : Obligations.TimebaseEvents := by
  refine ⟨?states, ?entry, ?timeout, ?send, ?receive, ?unheard, ?late, ?replica, ?sample, ?off, ?armed⟩
  case states =>
    intro s n hn
    refine ⟨s.setSync_state hn, ?_, ?_, s.sameRegsBut_setSync n, ?_, ?_, ?_⟩
    · rw [State.setSync_unsyncBit, decide_eq_true_iff]
      omega
    · rw [State.setSync_unsyncBit, State.unsync, s.setSync_state hn]
    all_goals exact (State.redepth_state _).trans (State.setSync_state _ (by decide))
  case entry => exact fun s => exec_holdoverEntry
  case timeout => exact fun s => exec_holdoverTimeout
  case send =>
    intro s p hp hu he hl vc
    rw [exec_timePacketSend hp hu he hl]
    refine ⟨fun hx hc => ?_, fun hx => ?_⟩
    · rw [State.grant_two _ hx (s.timePacket_flits p) hc (by decide), Option.getD_some]
    · rw [State.grant_crossing _ _ _ _ hx, Option.getD_none]
      rfl
  case receive =>
    intro s p k hp hu hk ht hpar
    refine ⟨_, exec_timeReceive hp hu hk ht hpar, rfl, ?_, ?_, rfl, rfl⟩
    · rw [State.redepth_depthNow]
      exact State.fget_fset_same _ _ _ _
    · exact (s.sameRegsBut_of_regs _ rfl).fset (by decide) (by decide) (by decide)
  case unheard => exact fun s hon hr hp => exec_depthTimeout hon hr (by simp [hp])
  case late => exact fun s st d t hon hr hp ht => exec_depthTimeout hon hr (by simpa [hp] using ht)
  case replica => exact fun s d hd hon _ => ⟨_, _, exec_replicaCorrect hd hon, by omega, by omega, rfl⟩
  case sample =>
    intro s a b c d hu hs
    have hon : s.pwr.on = true := by
      simp only [State.up, Bool.and_eq_true] at hu
      exact hu.1.1
    have dies : s.diesOff = false := by simp [State.diesOff, hu, hs]
    rw [exec_rateSample hon, State.setRates_eq, dies]
    rfl
  case off =>
    intro s m hon hoff
    rw [exec_rateSample hon, State.setRates_eq, hoff]
    rfl
  case armed => exact fun s k a hl hk hc => exec_armedAction hl hk hc

end Sys2Proof.Machine
end

section
/-! Exact accumulators: products that wrap to 600 bits, in any order, and the accumulator's record (R100, R101, R106, R125). -/
set_option autoImplicit false
namespace Sys2Proof.Machine

/-! ## The 600 bits of an accumulator (R100) -/

/-- The two's-complement value of the low bits of an integer is its balanced residue. -/
theorem sext_wrapInt (w : Nat) (x : Int) : sext (w + 1) (wrapInt (w + 1) x) = Int.bmod x (2 ^ (w + 1)) := by
  have pos : (0 : Int) < (2 ^ (w + 1) : Nat) := Int.natCast_pos.mpr (Nat.two_pow_pos _)
  have nonneg : 0 ≤ x % ((2 ^ (w + 1) : Nat) : Int) := Int.emod_nonneg _ (Int.ne_of_gt pos)
  have below : x % ((2 ^ (w + 1) : Nat) : Int) < (2 ^ (w + 1) : Nat) := Int.emod_lt_of_pos x pos
  have low : wrapInt (w + 1) x % 2 ^ (w + 1) = wrapInt (w + 1) x := Nat.mod_eq_of_lt ((Int.toNat_lt nonneg).mpr below)
  have value : (wrapInt (w + 1) x : Int) = x % ((2 ^ (w + 1) : Nat) : Int) := Int.toNat_of_nonneg nonneg
  simp only [sext, low, Nat.add_one_ne_zero, if_false, Nat.add_sub_cancel, Int.bmod_def, ← value]
  split <;> split <;> omega

/-- An accumulator's 600 bits hold the balanced residue. -/
theorem acc600_eq_bmod (x : Int) : acc600 x = Int.bmod x (2 ^ (599 + 1)) := sext_wrapInt 599 x

/-- An integer in range is its own balanced residue. -/
theorem bmod_two_pow_of_range {w : Nat} {x : Int} (hl : -2 ^ w ≤ x) (hr : x < 2 ^ w) : Int.bmod x (2 ^ (w + 1)) = x := by
  apply Int.bmod_eq_of_le <;> push_cast <;> omega

/-- An integer in range is held as it stands. -/
theorem acc600_of_range {x : Int} (hl : -2 ^ 599 ≤ x) (hr : x < 2 ^ 599) : acc600 x = x :=
  (acc600_eq_bmod x).trans (bmod_two_pow_of_range (w := 599) hl hr)

/-- Sign extension reads the low bits alone. -/
theorem sext_mod_two_pow (w x : Nat) : sext w (x % 2 ^ w) = sext w x := by
  simp only [sext, Nat.mod_mod]

/-- A sum wraps once, at its end. -/
theorem acc600_acc600_add (x y : Int) : acc600 (acc600 x + y) = acc600 (x + y) := by
  simp only [acc600_eq_bmod, Int.bmod_add_bmod]

/-! ## A row of finite products (R101) -/

/-- A finite value by its sign, numerator and denominator. -/
abbrev FinParts := Bool × Nat × Nat

/-- The value with these parts. -/
abbrev FinParts.xv (e : FinParts) : XV := .fin e.1 e.2.1 e.2.2

/-- The product of a pair in the units of an accumulator. -/
abbrev productUnits (e : FinParts × FinParts) : Int :=
  accUnits (xor e.1.1 e.2.1) (e.1.2.1 * e.2.2.1) (e.1.2.2 * e.2.2.2)

/-- What one finite product leaves. -/
def Accum.plus (a : Accum) (e : FinParts × FinParts) : Accum := { a with i := acc600 (a.i + productUnits e), count := a.count + 1 }

/-- A product of finite values raises no flag. -/
theorem Accum.addProd_finite (a : Accum) (e : FinParts × FinParts) : a.addProd e.1.xv e.2.xv = (a.plus e, 0) := rfl

/-- The order of two products does not matter. -/
theorem Accum.plus_right_comm (a : Accum) (e e' : FinParts × FinParts) : (a.plus e).plus e' = (a.plus e').plus e := by
  simp only [Accum.plus, acc600_acc600_add, Int.add_right_comm]

/-- A row of finite products adds them one after another and raises no flag. -/
theorem Accum.addRow_finite (a : Accum) (l : List (FinParts × FinParts)) :
    a.addRow (l.map fun e => e.1.xv) (l.map fun e => e.2.xv) = (l.foldl Accum.plus a, 0) := by
  rw [Accum.addRow, List.zip_map', List.foldl_map]
  induction l generalizing a with
  | nil => rfl
  | cons e l ih =>
    simp only [List.foldl_cons, Accum.addProd_finite, Nat.or_self]
    exact ih (a.plus e)

/-- Products in any order leave one accumulator. -/
theorem Accum.foldl_plus_perm (a : Accum) {l l' : List (FinParts × FinParts)} (h : l.Perm l') :
    l.foldl Accum.plus a = l'.foldl Accum.plus a :=
  h.foldl_eq' (fun e _ e' _ b => b.plus_right_comm e e') a

/-- Products added to an accumulator in range make the sum of all, and are counted. -/
theorem Accum.foldl_plus (a : Accum) (l : List (FinParts × FinParts)) (h : acc600 a.i = a.i) :
    l.foldl Accum.plus a = { a with i := acc600 (a.i + (l.map productUnits).sum), count := a.count + l.length } := by
  induction l generalizing a with
  | nil => simp [h]
  | cons e l ih =>
    have held : acc600 (a.plus e).i = (a.plus e).i := by simpa [Accum.plus] using acc600_acc600_add (a.i + productUnits e) 0
    rw [List.foldl_cons, ih _ held]
    simp only [Accum.plus, acc600_acc600_add, List.map_cons, List.sum_cons, List.length_cons, Int.add_assoc, Nat.add_assoc,
      Nat.add_comm 1]

/-! ## Words built from fields -/

/-- Fields that all begin at bit `n` or above make a multiple of `2 ^ n`. -/
theorem two_pow_dvd_packFields {l : List (BF × Nat)} {n : Nat} (h : ∀ e ∈ l, n ≤ e.1.lsb) : 2 ^ n ∣ packFields l := by
  induction l with
  | nil => exact Nat.dvd_zero _
  | cons e l ih =>
    have lead : 2 ^ n ∣ e.1.mk1 e.2 := by
      rw [BF.mk1, Nat.shiftLeft_eq]
      exact Nat.dvd_mul_left_of_dvd (Nat.pow_dvd_pow 2 (h e List.mem_cons_self)) _
    exact Nat.dvd_add lead (ih fun g hg => h g (List.mem_cons_of_mem e hg))

/-- A word's lowest field holds its value, whatever stands above it. -/
theorem BF.of_mk1_add {f : BF} {v k : Nat} (h : 2 ^ (f.lsb + f.w) ∣ k) : f.of (f.mk1 v + k) = v % 2 ^ f.w := by
  obtain ⟨m, rfl⟩ := h
  rw [BF.of, bitsOf, BF.mk1, Nat.shiftLeft_eq, Nat.shiftRight_eq_div_pow, Nat.pow_add, Nat.mul_assoc, Nat.mul_comm (v % 2 ^ f.w),
    ← Nat.mul_add, Nat.mul_div_cancel_left _ (Nat.two_pow_pos _), Nat.add_mul_mod_self_left, Nat.mod_mod]

/-- A field reads nothing of those below it. -/
theorem BF.of_mk1_add_above {f g : BF} {v k : Nat} (hk : 2 ^ (f.lsb + f.w) ∣ k) (hg : f.lsb + f.w ≤ g.lsb) :
    g.of (f.mk1 v + k) = g.of k := by
  obtain ⟨m, rfl⟩ := hk
  have small : f.mk1 v < 2 ^ (f.lsb + f.w) := by
    rw [BF.mk1, Nat.shiftLeft_eq, Nat.add_comm, Nat.pow_add]
    exact Nat.mul_lt_mul_of_pos_right (Nat.mod_lt _ (Nat.two_pow_pos _)) (Nat.two_pow_pos _)
  obtain ⟨j, hj⟩ := Nat.exists_eq_add_of_le hg
  simp only [BF.of, bitsOf, Nat.shiftRight_eq_div_pow]
  rw [hj, Nat.pow_add 2 (f.lsb + f.w), ← Nat.div_div_eq_div_mul, ← Nat.div_div_eq_div_mul,
    Nat.add_mul_div_left _ _ (Nat.two_pow_pos _), Nat.div_eq_of_lt small, Nat.zero_add, Nat.mul_div_cancel_left _ (Nat.two_pow_pos _)]

/-- Each field of a word packed from the lowest up, none overlapping, holds its value. -/
theorem BF.of_packFields {l : List (BF × Nat)} (h : l.Pairwise fun e g => e.1.lsb + e.1.w ≤ g.1.lsb) {f : BF} {v : Nat}
    (m : (f, v) ∈ l) : f.of (packFields l) = v % 2 ^ f.w := by
  induction h with
  | nil => cases m
  | cons above _ ih =>
    rcases List.mem_cons.mp m with rfl | m
    · exact BF.of_mk1_add (two_pow_dvd_packFields above)
    · exact (BF.of_mk1_add_above (two_pow_dvd_packFields above) (above _ m)).trans (ih m)

/-- A flag is the value of its one bit. -/
theorem BF.on_eq_of {f : BF} (h : f.w = 1) (x : Nat) : f.on x = decide (f.of x = 1) := by
  rw [BF.on, BF.of, bitsOf, h, Nat.testBit_eq_decide_div_mod_eq, Nat.shiftRight_eq_div_pow, Nat.pow_one]

/-- So a flag packed as a bit is the flag. -/
theorem BF.on_packFields {l : List (BF × Nat)} (h : l.Pairwise fun e g => e.1.lsb + e.1.w ≤ g.1.lsb) {f : BF} (hf : f.w = 1) {b : Bool}
    (m : (f, b2n b) ∈ l) : f.on (packFields l) = b := by
  rw [BF.on_eq_of hf, BF.of_packFields h m, hf]
  cases b <;> rfl

/-! ## The record of an accumulator (R106) -/

/-- The record of an accumulator in range gives it back. -/
theorem Accum.ofRec_toRec {a : Accum} (h : acc600 a.i = a.i) (hc : a.count < 2 ^ 28) : Accum.ofRec a.toRec = a := by
  have apart : [(ACC.I, wrapInt 600 a.i), (ACC.NAN, b2n a.nan), (ACC.PINF, b2n a.pinf), (ACC.NINF, b2n a.ninf),
      (ACC.COUNT, a.count)].Pairwise fun e g => e.1.lsb + e.1.w ≤ g.1.lsb := by
    simp [ACC.I, ACC.NAN, ACC.PINF, ACC.NINF, ACC.COUNT]
  have integer : sext 600 (ACC.I.of a.toRec) = a.i := by
    rw [Accum.toRec, BF.of_packFields apart (v := wrapInt 600 a.i) (by simp), show ACC.I.w = 600 from rfl, sext_mod_two_pow]
    exact h
  have counted : ACC.COUNT.of a.toRec = a.count :=
    (BF.of_packFields apart (by simp)).trans (Nat.mod_eq_of_lt hc)
  have nan : ACC.NAN.on a.toRec = a.nan := BF.on_packFields apart rfl (by simp)
  have pinf : ACC.PINF.on a.toRec = a.pinf := BF.on_packFields apart rfl (by simp)
  have ninf : ACC.NINF.on a.toRec = a.ninf := BF.on_packFields apart rfl (by simp)
  rw [Accum.ofRec, integer, nan, pinf, ninf, counted]

/-- Settles O31: finite products wrap once, at the end of their sum, so they commute; a record's fields do not overlap. -/
theorem exactAccumulators : Obligations.ExactAccumulators := by
  refine ⟨?sum, ?order, ?record⟩
  case sum =>
    intro a l hl hr
    rw [Accum.addRow_finite a l, Accum.foldl_plus a l (acc600_of_range hl hr)]
    exact ⟨by dsimp only, rfl, rfl, rfl, rfl, rfl⟩
  case order =>
    rintro a _ _ l l' h rfl rfl
    rw [Accum.addRow_finite a l, Accum.addRow_finite a l', Accum.foldl_plus_perm a h]
  case record => exact fun a hl hr => Accum.ofRec_toRec (acc600_of_range hl hr)

end Sys2Proof.Machine
end

section
/-! Descriptors of the tensor, vector and stream engines fire with their results (R101, R105, R142 to R144, R202 to R213, R219 to R221). -/
set_option autoImplicit false
namespace Sys2Proof.Machine

/-- Where SEC-DED finds nothing, a descriptor runs. -/
@[simp] theorem State.withEcc_clean (s : State) (r : Rsd) (k : State → State) : s.withEcc r .clean k = k s := rfl

/-! ## Rows that fire -/

section
variable {s : State} {lcore ring seq op : Nat} {f : FireIn} {r : Rsd} {d : Nat} (h : s.Fires lcore ring seq op f r d)
include h

/-- A row that fires names units of the module. -/
theorem State.Fires.units (t : State) : need (wfCore lcore && wfRing ring) t = .next t := by
  simp [wfCore, wfRing, h.isCore, h.isRing]

/-- A row of one operation of an opcode fires as a row of the opcode does, where the descriptor is of that operation. -/
theorem State.Fires.fireIf {fits : Nat → Bool} (hfit : fits d = true) (k : Effect) :
    s.fireIf lcore ring seq fits f k = s.fire lcore ring seq op f k := by
  simp only [State.fire, State.fireIf, h.found, h.may, h.clean.1, State.markBad, List.foldl_nil, h.next, hfit, h.op, decide_true]

/-- What a row of an opcode comes to when its effect on what every firing leaves is `t`. -/
theorem State.Fires.row {k : Effect} {t : State} (hk : k (r.fired d) d (s.fireCommon r d f.twait) = t) :
    need (wfCore lcore && wfRing ring) (s.fire lcore ring seq op f k) = .next (t.keepUndo s r d).engines := by
  rw [h.units, h.fire, hk]

/-- A SATOM's row, when its effect leaves `t`: the stream engine keeps nothing to take back. -/
theorem State.Fires.rowAtom {k : Effect} {t : State} {aop : Nat} (hop : op = 0x31) (haop : SA.AOP.of d = aop)
    (hk : k (r.fired d) d (s.fireCommon r d f.twait) = t) :
    need (wfCore lcore && wfRing ring) (s.fireIf lcore ring seq (fun d => decide (DESC.OPCODE.of d = 0x31) && decide (SA.AOP.of d = aop)) f
      k) = .next t.engines := by
  have kept : t.keepUndo s r d = t := by simp [State.keepUndo, h.op, hop, engineOf]
  rw [h.fireIf (by simp [h.op, hop, haop]), h.row hk, kept]

end

/-! ## Effects -/

/-- A TMMA whose chain is its context's, whose records and counts pass, runs (R105, R107, R102). -/
theorem tmmaEffect_runs {r : Rsd} {d : Nat} {s : State} (chain : TEN.INIT.of d = 0 → tget s.core.chain r.site 0 = r.ctx + 1)
    (sound : (s.initTile r d).1 = 0)
    (within : limitBad (s.initTile r d).2.1 (TEN.M_M1.of d + 1) (TEN.N_M1.of d + 1) (TEN.K.of d) = false) :
    tmmaEffect .clean r d s =
      (((s.setAccs r.site (s.mulTile r d (s.initTile r d).2.1).1).setChain r d).addArith r.ring r.seq
        ((s.initTile r d).2.2 ||| (s.mulTile r d (s.initTile r d).2.1).2)).finishTile r d (s.mulTile r d (s.initTile r d).2.1).1 := by
  have owned : ¬(decide (TEN.INIT.of d = 0) && decide (tget s.core.chain r.site 0 ≠ r.ctx + 1)) = true := by simpa using chain
  simp only [tmmaEffect, if_neg owned, within, sound, Bool.false_eq_true, if_false, ne_eq, not_true, State.withEcc_clean]

/-- An atomic whose read and write succeed leaves what its operation makes of the old value, and returns the old value. -/
theorem State.atomAt_done {s : State} {a : Party} {addr op x c : Nat} {b : List Byte}
    (read : s.memRead a MEM_RGN.ATOM addr 8 = ⟨0, b, s⟩)
    (written : (s.memPut a MEM_RGN.ATOM addr (leBytes 8 (atomNew op (ofLE b) x c))).code = 0) :
    s.atomAt a addr op x c = ⟨0, b, (s.memPut a MEM_RGN.ATOM addr (leBytes 8 (atomNew op (ofLE b) x c))).st⟩ := by
  simp [State.atomAt, read, written]

/-- The write of a SATOM to the word at its address. -/
def State.atomWrite (s : State) (r : Rsd) (d v : Nat) : MemRes :=
  s.memPut (s.accOf r.ctx 0) MEM_RGN.ATOM (byteAddr d r.iter SA.A_DADDR 0) (leBytes 8 v)

/-- The state once a SATOM has written: its place in the stream engine with the old value and the bridges it crossed and, where it returns
the old value, a divergence counted (R181, R221). -/
def State.atomTaken (s : State) (r : Rsd) (d v old : Nat) (ret : Bool) : State :=
  (if ret then (s.atomWrite r d v).st.divergeFor r 1 else (s.atomWrite r d v).st).launchFlight r d fun g =>
    { g.crossed (s.dmBridges (siteDie r.site) (byteAddr d r.iter SA.A_DADDR 0) 8) with aux := old, ready := true }

/-- A SATOM whose read and write succeed takes its place in the stream engine. -/
theorem satomEffect_done {s : State} {r : Rsd} {d v : Nat} {b : List Byte}
    (read : s.memRead (s.accOf r.ctx 0) MEM_RGN.ATOM (byteAddr d r.iter SA.A_DADDR 0) 8 = ⟨0, b, s⟩)
    (new : atomNew (SA.AOP.of d) (ofLE b) (SA.OPND.of d) (SA.CMP.of d) = v) (written : (s.atomWrite r d v).code = 0) :
    satomEffect (SA.AOP.of d) r d s = s.atomTaken r d v (ofLE b) (satomReturns d) := by
  subst new
  simp only [satomEffect, State.atomAt_done read written, ne_eq, not_true, if_false]
  rfl

/-- A SATOM that fires, at the row of its operation: `v` is what the operation makes of the old value. -/
theorem State.Fires.satom {s u : State} {lcore ring seq op aop v : Nat} {f : FireIn} {r : Rsd} {d : Nat} {ret : Bool} {b : List Byte}
    (h : s.Fires lcore ring seq op f r d) (common : s.fireCommon r d f.twait = u) (hop : op = 0x31) (haop : SA.AOP.of d = aop)
    (read : u.memRead (u.accOf r.ctx 0) MEM_RGN.ATOM (byteAddr d r.iter SA.A_DADDR 0) 8 = ⟨0, b, u⟩)
    (new : atomNew aop (ofLE b) (SA.OPND.of d) (SA.CMP.of d) = v) (returns : [1, 2, 3].contains aop = ret)
    (written : (u.atomWrite r d v).code = 0) :
    need (wfCore lcore && wfRing ring) (s.fireAtom lcore ring seq aop f) =
      .next (u.atomTaken (r.fired d) d v (ofLE b) ret).engines := by
  subst common haop returns
  exact h.rowAtom hop rfl (satomEffect_done read new written)

/-- Settles O28: each row fires, and its effect is what its rule computes; the five SATOMs are one rule. -/
theorem enginesFire : Obligations.EnginesFire := by
  intro s lcore ring seq op f r d h
  have clean : f.ecc = .clean := h.clean.2
  refine ⟨?tmma, ?vprog, ?osmUpdate, ?osmMerge, ?osmNorm, ?satom⟩
  case tmma =>
    rintro rfl chain t sound within
    exact h.row (by rw [clean]; exact tmmaEffect_runs chain sound within)
  case vprog =>
    rintro rfl v
    exact h.row (by rw [clean]; rfl)
  case osmUpdate =>
    rintro rfl D n F v
    exact h.row (by rw [clean]; rfl)
  case osmMerge =>
    rintro rfl
    exact h.row (by rw [clean]; rfl)
  case osmNorm =>
    rintro rfl z
    exact h.row (by rw [clean]; rfl)
  case satom =>
    intro hop b read
    exact ⟨fun is => h.satom rfl hop is read rfl rfl, fun is => h.satom rfl hop is read rfl rfl,
      fun is => h.satom rfl hop is read rfl rfl, fun is => h.satom rfl hop is read rfl rfl, fun is => h.satom rfl hop is read rfl rfl⟩

end Sys2Proof.Machine
end

section
/-! Token and control descriptors fire, and a signal reaches its counter (R156, R180, R181, R183, R194, R199, R222 to R227). -/
set_option autoImplicit false
namespace Sys2Proof.Machine

/-! ## What a firing leaves of the investigation (R582, R585) -/

/-- A step that leaves the investigation leaves which command is being replayed. -/
theorem State.replaying_of_spareInv {s t : State} (h : t.spare.inv = s.spare.inv) (ring seq : Nat) :
    t.replaying ring seq = s.replaying ring seq := by
  simp only [State.replaying, h]

/-- A fold whose every step leaves the investigation leaves it. -/
theorem foldl_spareInv {α : Type} {f : State → α → State} (h : ∀ s a, (f s a).spare.inv = s.spare.inv) (l : List α) (s : State) :
    (l.foldl f s).spare.inv = s.spare.inv := by
  induction l generalizing s with
  | nil => rfl
  | cons a l ih => rw [List.foldl_cons, ih, h]

@[simp] theorem State.elogNotice_spareInv (s : State) : s.elogNotice.spare.inv = s.spare.inv := by
  unfold State.elogNotice
  split
  · split
    · split <;> rfl
    · rfl
  · rfl

@[simp] theorem State.log_spareInv (s : State) (e : Evt) : (s.log e).spare.inv = s.spare.inv := by
  unfold State.log
  dsimp only
  split
  · rfl
  · split <;> simp

@[simp] theorem State.dirtyFrame_spareInv (s : State) (f : Nat) : (s.dirtyFrame f).spare.inv = s.spare.inv := by
  unfold State.dirtyFrame
  split <;> rfl

@[simp] theorem State.putGran_spareInv (s : State) (slot addr : Nat) (l : List Byte) (g : Nat) :
    (s.putGran slot addr l g).spare.inv = s.spare.inv := by
  simp [State.putGran, State.tagGran]

@[simp] theorem State.fillGran_spareInv (s : State) (g : Nat) : (s.fillGran g).spare.inv = s.spare.inv := by
  simp [State.fillGran, State.tagGran]

@[simp] theorem State.writeGrans_spareInv (s : State) (a : Party) (slot : Nat → Nat) (addr : Nat) (l : List Byte) :
    (s.writeGrans a slot addr l).st.spare.inv = s.spare.inv :=
  (foldl_spareInv (fun t _ => t.log_spareInv _) _ _).trans (foldl_spareInv (fun t g => t.putGran_spareInv _ _ _ g) _ _)

@[simp] theorem State.fillMet_spareInv (s : State) (addr n : Nat) : (s.fillMet addr n).spare.inv = s.spare.inv := by
  unfold State.fillMet
  split <;> simp [foldl_spareInv]

@[simp] theorem State.snoop_spareInv (s : State) (inv : Bool) (addr n : Nat) : (s.snoop inv addr n).spare.inv = s.spare.inv := by
  have sent := foldl_spareInv (f := fun t a => t.emit (.snoop a inv)) (fun _ _ => rfl) (s.heldLines addr n) s
  unfold State.snoop
  dsimp only
  split <;> exact sent

@[simp] theorem State.memWrite_spareInv (s : State) (a : Party) (right : Fld) (addr : Nat) (l : List Byte) :
    (s.memWrite a right addr l).st.spare.inv = s.spare.inv := by
  unfold State.memWrite
  split <;> simp

@[simp] theorem State.traceOne_spareInv (s : State) (k : Nat) (r : Rsd) (t0 : Nat × Bool) (w : Won) (iter : Nat) (wany : Bool) :
    (s.traceOne k r t0 w iter wany).spare.inv = s.spare.inv := by
  unfold State.traceOne
  dsimp only
  split
  · split <;> simp [State.obsSpend]
  · simp [State.logX]

@[simp] theorem State.traceFire_spareInv (s : State) (r : Rsd) (iter : Nat) (wany : Bool) :
    (s.traceFire r iter wany).spare.inv = s.spare.inv := by
  unfold State.traceFire
  split
  · exact foldl_spareInv (fun t k => t.traceOne_spareInv k r _ _ iter wany) _ s
  · rfl

@[simp] theorem State.fireEnd_spareInv (s : State) (r q : Rsd) (d twait : Nat) : (s.fireEnd r q d twait).spare.inv = s.spare.inv := by
  obtain ⟨hints, hint⟩ := s.passHint_eq r d true
  obtain ⟨g, waited⟩ := (s.passHint r d true).addTwait_eq r.site twait
  rw [State.fireEnd, waited, hint]
  rfl

theorem State.withTurn_spareInv (s : State) (l : Table Nat) : (s.withTurn l).spare.inv = s.spare.inv := rfl

@[simp] theorem State.choiceCounted_spareInv (s : State) (r : Rsd) (d : Nat) : (s.choiceCounted r d).spare.inv = s.spare.inv := by
  obtain ⟨g, counted⟩ := s.choiceCounted_eq r d
  rw [counted]

/-- What every firing does leaves the investigation. -/
@[simp] theorem State.fireCommon_spareInv (s : State) (r : Rsd) (d twait : Nat) : (s.fireCommon r d twait).spare.inv = s.spare.inv := by
  rw [State.fireCommon_eq, State.fireEnd_spareInv, State.traceFire_spareInv, State.choiceCounted_spareInv, State.withTurn_spareInv]

/-! ## A firing that keeps nothing to take back -/

/-- Only the work of the tensor and the vector engine is kept to be taken back (R577). -/
theorem State.keepUndo_other (t s : State) (r : Rsd) {d : Nat} (h : 2 < engineOf (DESC.OPCODE.of d) ∨ engineOf (DESC.OPCODE.of d) = 0) :
    t.keepUndo s r d = t :=
  if_neg (by omega)

/-- A row of another engine, or of none, comes to its effect on what every firing leaves. -/
theorem State.Fires.rowKeepless {s t : State} {lcore ring seq op : Nat} {f : FireIn} {r : Rsd} {d : Nat} {k : Effect}
    (h : s.Fires lcore ring seq op f r d) (hop : 2 < engineOf op ∨ engineOf op = 0)
    (hk : k (r.fired d) d (s.fireCommon r d f.twait) = t) :
    need (wfCore lcore && wfRing ring) (s.fire lcore ring seq op f k) = .next t.engines := by
  rw [h.row hk, t.keepUndo_other s r (by rwa [h.op])]

/-! ## Effects -/

/-- A TSIGALL with a header signal sends it to each list of its command, once it has completed without one. -/
theorem tsigallEffect_on {r : Rsd} {d : Nat} {s : State} (h : DESC.S_EN.on d = true) : tsigallEffect r d s =
    (s.core.rsds.filter fun k => decide (k.ring = r.ring) && decide (k.seq = r.seq)).foldl
      (fun t k => t.sendSig ⟨r.ring, r.seq, k.lcore, DESC.S_CTR.of d, DESC.S_INC.of d, r.lcore, r.lastPos, r.iter, 0⟩)
      (s.finishNow r (DESC.S_EN.put d 0)) := by
  rw [tsigallEffect, if_pos h, List.foldl_map]

theorem tsigallEffect_off {r : Rsd} {d : Nat} {s : State} (h : DESC.S_EN.on d = false) :
    tsigallEffect r d s = s.finishNow r (DESC.S_EN.put d 0) :=
  if_neg (ne_true_of_eq_false h)

section
variable {r : Rsd} {p n k : Nat} {l : List (Nat × Nat × Nat)} (h : r.loops = (p, n, k) :: l)
include h

/-- A loop with an iteration left goes back to its start. -/
theorem Rsd.loopEnd_again (more : k + 1 < n) : r.loopEnd = { r with pos := p, loops := (p, n, k + 1) :: l } := by
  simp only [Rsd.loopEnd, h, if_pos more]

/-- A loop at its last iteration closes. -/
theorem Rsd.loopEnd_last (last : n ≤ k + 1) : r.loopEnd = { r with loops := l } := by
  simp only [Rsd.loopEnd, h, if_neg (Nat.not_lt.mpr last)]

end

/-- A SKIP completes where its list goes on: past its range, or at the next descriptor. -/
theorem skipEffect_clean {r : Rsd} {d : Nat} {s : State} : skipEffect .clean r d s =
    (if r.skips d (leAt (s.csRead r.site (32 * SKIPD.C_ADDR.of d) 4) 0 4) then s.setRsd { r with pos := r.pos + SKIPD.N.of d }
      else s).finishNow r d := rfl

/-- A FAIL of a command that is not being replayed resets its context. -/
theorem failEffect_real {r : Rsd} {d : Nat} {s : State} (h : s.replaying r.ring r.seq = false) :
    failEffect r d s = s.ctxReset r.ctx 0x0325 (r.back.errData 0 (FAILD.UCODE.of d)) :=
  if_neg (ne_true_of_eq_false h)

/-- A signal that its way lets arrive, and that its counter holds, is added. -/
theorem tokenSignalStep_added {s : State} {n : Nat} {g : Sig} {r : Rsd} (up : s.hubUp = true) (sig : s.core.sigs[n]? = some g)
    (first : s.sigFirst n g = true) (found : s.rsd g.lcore g.ring g.seq = some r) (alive : r.dead = false)
    (fits : r.ctrs.getD g.ctr 0 + g.inc < 2 ^ 32) : tokenSignalStep n s =
      (({ s with core := { s.core with sigs := s.core.sigs.eraseIdx n } } : State).setRsd
        { r with ctrs := r.ctrs.set g.ctr (r.ctrs.getD g.ctr 0 + g.inc), lastSig := (g.ctr, g.src, g.kind) }).engines := by
  have found' : ({ s with core := { s.core with sigs := s.core.sigs.eraseIdx n } } : State).rsd g.lcore g.ring g.seq = some r := found
  simp only [tokenSignalStep, up, State.when_true, sig, first, found', alive, State.addSig, if_neg (Nat.not_le.mpr fits), Bool.not_true,
    Bool.false_eq_true, if_false]

/-- Settles O29: each row by its effect on what every firing leaves, TOKEN_SIGNAL by the rule above. -/
theorem controlDescriptors : Obligations.ControlDescriptors := by
  refine ⟨?fires, ?signal⟩
  case fires =>
    intro s lcore ring seq op f r d h u q i
    have clean : f.ecc = .clean := h.clean.2
    refine ⟨?tsig, ?tsigallOn, ?tsigallOff, ?tread, ?loopb, ?loope, ?skip, ?endList, ?fail, ?stamp⟩
    case tsig =>
      rintro rfl
      exact h.rowKeepless (by decide) rfl
    case tsigallOn =>
      rintro rfl on
      exact h.rowKeepless (by decide) (tsigallEffect_on on)
    case tsigallOff =>
      rintro rfl off
      exact h.rowKeepless (by decide) (tsigallEffect_off off)
    case tread =>
      rintro rfl
      exact h.rowKeepless (by decide) rfl
    case loopb =>
      rintro rfl
      exact h.rowKeepless (by decide) rfl
    case loope =>
      rintro rfl p n k l loops
      have looping : q.loops = (p, n, k) :: l := loops
      refine ⟨fun more => h.rowKeepless (by decide) ?_, fun last => h.rowKeepless (by decide) ?_⟩
      · rw [loopeEffect, Rsd.loopEnd_again looping more]
      · rw [loopeEffect, Rsd.loopEnd_last looping last]
    case skip =>
      rintro rfl w
      refine ⟨fun holds => h.rowKeepless (by decide) ?_, fun fails => h.rowKeepless (by decide) ?_⟩
      · rw [clean, skipEffect_clean]
        exact congrArg (State.finishNow · q d) (if_pos holds)
      · rw [clean, skipEffect_clean]
        exact congrArg (State.finishNow · q d) (if_neg (ne_true_of_eq_false fails))
    case endList =>
      rintro rfl
      exact h.rowKeepless (by decide) rfl
    case fail =>
      rintro rfl
      have real : u.replaying q.ring q.seq = false :=
        (State.replaying_of_spareInv (s.fireCommon_spareInv r d f.twait) _ _).trans h.real
      exact h.rowKeepless (by decide) (failEffect_real real)
    case stamp =>
      rintro rfl c
      exact h.rowKeepless (by decide) rfl
  case signal =>
    intro s n g r up sig first found alive fits
    exact congrArg _ (tokenSignalStep_added up sig first found alive fits)

end Sys2Proof.Machine
end

section
/-! Transfers and gathers take a channel, move their parts in order, and complete (R128, R146, R147, R151 to R153, R181, R217, R259,
R260). -/
set_option autoImplicit false
namespace Sys2Proof.Machine

/-- A row that names a core and a ring of the module comes to its step. -/
theorem need_coreRing {lcore ring : Nat} (hl : lcore < 2048) (hr : ring < 8192) (t : State) :
    need (wfCore lcore && wfRing ring) t = .next t := by
  simp [wfCore, wfRing, hl, hr]

/-! ## Effects of SMOVE and AGATHER -/

section
variable {r : Rsd} {d : Nat} {s : State}

/-- A transfer to an end on this module takes its channel. -/
theorem smoveEffect_local (h : SM.DST_SP.of d ≠ 3) : smoveEffect r d s = s.launchFlight r d id :=
  if_neg h

/-- A transfer to the fabric also begins the message of the flight that it launched (R151). -/
theorem smoveEffect_remote {g : Flight} (h : SM.DST_SP.of d = 3)
    (launched : ((s.launchFlight r d id).rsd r.lcore r.ring r.seq).bind (·.flights.getLast?) = some g) :
    smoveEffect r d s = (s.launchFlight r d id).smovePut r g := by
  simp only [smoveEffect, h, launched, if_true]

/-- A gather whose sequence and pages pass takes its channel with them (R259). -/
theorem agatherEffect_ok {l : Nat × List Nat} {f : FireIn} (clean : f.ecc = .clean) (h : s.agather r d = (.ok l, s)) :
    agatherEffect f r d s = s.launchFlight r d fun g => { g with list := l.2, aux := l.1, ready := l.2.isEmpty } := by
  simp only [agatherEffect, clean, State.withEcc_clean, State.orFail, h]

end

/-! ## A part starts (R152, R153) -/

section
variable {s : State} {lcore ring seq k : Nat} {f : FireIn} {r : Rsd} {g : Flight} (up : s.hubUp = true)
  (here : s.flightAt lcore ring seq k = some (r, g))
include up here

theorem smovePartStartStep_smove (op : DESC.OPCODE.of g.word = 0x30) :
    smovePartStartStep lcore ring seq k f s = s.movePart r g lcore ring seq k f := by
  simp only [smovePartStartStep, up, State.when_true, here, if_pos op]

theorem smovePartStartStep_agather (op : DESC.OPCODE.of g.word = 0x61) :
    smovePartStartStep lcore ring seq k f s = s.gatherPart r g f.hbm := by
  simp only [smovePartStartStep, up, State.when_true, here, op, Nat.reduceEqDiff, if_false, if_true]

end

/-- No granule is marked. -/
theorem State.markBad_nil (s : State) (v : Nat) : s.markBad v [] = s := rfl

/-- A part that a transfer has left, with its credit there, is not held back (R152). -/
theorem Flight.not_held {g : Flight} {r : Rsd} (more : g.started < partCount g.word) (credit : r.credited g.word g.started = true) :
    ¬(partCount g.word ≤ g.started ∨ r.credited g.word g.started = false) := by
  simp [more, credit]

section
variable {s : State} {lcore ring seq k : Nat} {f : FireIn} {r : Rsd} {g : Flight} (calm : f.hbm = [])
  (more : g.started < partCount g.word) (credit : r.credited g.word g.started = true)
include calm more credit

/-- A transfer to the fabric has its bytes sent. -/
theorem State.movePart_send (dst : SM.DST_SP.of g.word = 3) : s.movePart r g lcore ring seq k f = s.partSend r g g.started := by
  simp only [State.movePart, if_neg (Flight.not_held more credit), calm, State.markBad_nil, if_pos dst]

/-- One from the fabric has its bytes asked for. -/
theorem State.movePart_get (dst : SM.DST_SP.of g.word ≠ 3) (src : SM.SRC_SP.of g.word = 3) :
    s.movePart r g lcore ring seq k f = s.partGet r g g.started := by
  simp only [State.movePart, if_neg (Flight.not_held more credit), calm, State.markBad_nil, if_neg dst, if_pos src]

/-- One between two ends on this module is copied. -/
theorem State.movePart_copy (clean : f.ecc = .clean) (here : s.flightAt lcore ring seq k = some (r, g))
    (dst : SM.DST_SP.of g.word ≠ 3) (src : SM.SRC_SP.of g.word ≠ 3) :
    s.movePart r g lcore ring seq k f = s.partCopy r g g.started := by
  simp only [State.movePart, if_neg (Flight.not_held more credit), calm, State.markBad_nil, if_neg dst, if_neg src, clean,
    State.withEcc_clean, here]

end

/-- A part read from device memory and copied to the core's own store is written there, and counts as started and written (R146). -/
theorem State.partCopy_toCore {s : State} {r : Rsd} {g : Flight} {n : Nat} {b : List Byte} (src : SM.SRC_SP.of g.word = 1)
    (dst : SM.DST_SP.of g.word = 0) (read : s.memRead (s.accOf r.ctx 0) MEM_RGN.RD
      (byteAddr g.word g.iter SM.SRC_ADDR 0 + partOff g.word n) (partLen g.word n) = ⟨0, b, s⟩) :
    s.partCopy r g n = (s.csWrite r.site (byteAddr g.word g.iter SM.DST_ADDR 1 + dstOff g.word n) b).setFlight r
      { g.crossed (s.partBridges r g n) with started := n + 1, written := g.written ++ [n] } := by
  have bytes : s.partRead r g (partOff g.word n) (partLen g.word n) = ⟨0, b, s⟩ := by
    rw [State.partRead, if_pos src, read]
  have sink : s.smoveDst r g (dstOff g.word n) = .cs r.site (byteAddr g.word g.iter SM.DST_ADDR 1 + dstOff g.word n) := by
    simp [State.smoveDst, State.endSite, dst]
  simp only [State.partCopy, bytes, sink, State.partWrite, ne_eq, not_true, if_false]

/-! ## A part is reported, and a descriptor completes (R147, R181) -/

section
variable {s : State} {lcore ring seq k : Nat} {r : Rsd} {g : Flight} (up : s.hubUp = true)
  (here : s.flightAt lcore ring seq k = some (r, g))
include up here

/-- The first part not reported, once started and written, signals its token; the last part makes the work done. -/
theorem smovePartWrittenStep_told (started : g.told < g.started)
    (written : (DESC.OPCODE.of g.word = 0x30 ∧ s.partsDone r g g.told = true) ∨
      (DESC.OPCODE.of g.word = 0x61 ∧ g.written.contains g.told = true)) :
    smovePartWrittenStep lcore ring seq k s =
      (s.setFlight r { g with told := g.told + 1, ready := decide (g.told + 1 = g.parts) }).partToken r g := by
  have done : (if DESC.OPCODE.of g.word = 0x30 then s.partsDone r g g.told
      else decide (DESC.OPCODE.of g.word = 0x61) && g.written.contains g.told) = true := by
    rcases written with ⟨op, all⟩ | ⟨op, page⟩
    · rw [if_pos op, all]
    · simp [op, List.contains_iff_mem.mp page]
  simp only [smovePartWrittenStep, up, State.when_true, here, done]
  exact if_neg (by simp [started])

/-- A flight whose work is done leaves its list and its messages leave the fabric. -/
theorem descCompleteStep_ready {steps : Nat} (ready : g.ready = true) : descCompleteStep lcore ring seq k steps s =
    ((((s.atomOld r g).addBusy r.site (DESC.OPCODE.of g.word) steps).endFlight r g).dropXfers fun x =>
      decide (x.owner = .flight lcore ring seq g.fid)).engines := by
  simp [descCompleteStep, up, here, ready]

end

/-- Settles O30: a firing by its effect, a part by the ends of its transfer, the rest by the two rules above. -/
theorem transfers : Obligations.Transfers := by
  refine ⟨?smove, ?smovePut, ?agather, ?copy, ?part, ?written, ?complete⟩
  case smove =>
    intro s lcore ring seq f r d h dst
    exact h.rowKeepless (by decide) (smoveEffect_local dst)
  case smovePut =>
    intro s lcore ring seq f r d h dst v g launched
    exact h.rowKeepless (by decide) (smoveEffect_remote dst launched)
  case agather =>
    intro s lcore ring seq f r d l h u ok
    exact h.rowKeepless (by decide) (agatherEffect_ok h.clean.2 ok)
  case copy =>
    intro s lcore ring seq k f r g b hl hr up calm clean here op src dst more credit n d read
    have step : smovePartStartStep lcore ring seq k f s = s.partCopy r g g.started :=
      (smovePartStartStep_smove up here op).trans
        (State.movePart_copy calm more credit clean here (by simp [dst]) (by simp [src]))
    exact (need_coreRing hl hr _).trans (congrArg _ (step.trans (State.partCopy_toCore src dst read)))
  case part =>
    intro s lcore ring seq k f r g hl hr up calm here
    refine ⟨fun op more credit => ⟨fun dst => ?_, fun dst src => ?_⟩, fun op => ?_⟩
    · exact (need_coreRing hl hr _).trans
        (congrArg _ ((smovePartStartStep_smove up here op).trans (State.movePart_send calm more credit dst)))
    · exact (need_coreRing hl hr _).trans
        (congrArg _ ((smovePartStartStep_smove up here op).trans (State.movePart_get calm more credit dst src)))
    · exact (need_coreRing hl hr _).trans (congrArg _ ((smovePartStartStep_agather up here op).trans (by rw [calm])))
  case written =>
    intro s lcore ring seq k r g hl hr up here started written
    exact (need_coreRing hl hr _).trans (congrArg _ (smovePartWrittenStep_told up here started written))
  case complete =>
    intro s lcore ring seq k steps r g hl hr up here ready
    exact (need_coreRing hl hr _).trans (congrArg _ (descCompleteStep_ready up here ready))

end Sys2Proof.Machine
end

section
/-! Fencing of cores, drains and wear readings (R164 to R166, R565, R566, R570 to R572). -/
set_option autoImplicit false
namespace Sys2Proof.Machine

/-- A row that names a site of the module comes to its step. -/
theorem need_site {site : Nat} (h : site < 2304) (t : State) : need (wfSite site) t = .next t := by
  simp [wfSite, h]

/-! ## Fencing and substitution (R164 to R166) -/

/-- A reset of no context resets nothing and counts no escalation. -/
theorem State.resetMany_nil (s : State) (code : Nat) (data : Nat → Nat) : s.resetMany [] code data = s := by
  simp [State.resetMany]

/-- While a core is being fenced, the fencing is busy. -/
theorem State.addFencing_eq (s : State) (f : Fencing) : s.addFencing f =
    ({ s with spare := { s.spare with fencing := s.spare.fencing ++ [f] } } : State).fset SPARE_FENCE.BUSY 0 1 := by
  simp [State.addFencing, State.fenceBusy, State.fput, b2n]

/-- A site that carries a logical core and no resident work is gated, its core held, and its substitution begins. -/
theorem State.fenceSite_idle {s : State} {site l : Nat} (origin : Nat) (unfenced : s.spare.fenced.contains site = false)
    (serves : s.siteCore site = some l) (idle : s.siteCtxs site = []) :
    s.fenceSite site origin = ((s.gateSite site).holdCore l).addFencing ⟨l, site, origin, false⟩ := by
  simp only [State.fenceSite, unfenced, serves, idle, State.resetMany_nil, Bool.false_eq_true, if_false]

section
variable {s : State} {f : Fencing} {sp : Nat} (pos : s.fget SPARE_CMAP.SPARE_POS (f.lcore / 8) = sp)
include pos

/-- Without a spare the logical number becomes a hole (R166). -/
theorem State.substitute_hole (wakeOk : Bool) (spent : 9 ≤ sp) : s.substitute f wakeOk =
    ((s.fset SPARE_CMAP.SPARE_POS (f.lcore / 8) 15).setMember f.lcore 15).recordFence 1 f.origin (siteUnit f.site) := by
  simp only [State.substitute, pos, if_pos spent]

/-- A spare that wakes takes the number, zero-filled (R165). -/
theorem State.substitute_spare (left : sp < 9) :
    (let spare := siteAt (f.lcore / 512) (s.fget SPARE_CMAP.PCLUST (f.lcore / 8)) sp
     s.substitute f true = ((((s.fset SPARE_CMAP.SPARE_POS (f.lcore / 8) 15).csZero spare).setMember f.lcore sp).fset SPARE_WEAR.USE
       spare 0).recordFence 1 f.origin (siteUnit f.site)) := by
  simp only [State.substitute, pos, if_neg (Nat.not_le.mpr left), if_true]

end

/-- The end of a substitution gives the number away and releases the commands that name it. -/
theorem substitutionDoneStep_found {s : State} {site : Nat} {f : Fencing} (ok : Bool) (up : s.hubUp = true)
    (found : s.spare.fencing.find? (fun f => decide (f.site = site) && !f.drain) = some f) :
    substitutionDoneStep site ok s = ((s.substitute f ok).freeCore f.lcore).dropFencing site := by
  simp only [substitutionDoneStep, up, State.when_true, found]

/-! ## SPARE_FENCE (R570 to R572) -/

/-- A fold whose every step writes registers alone writes registers alone. -/
theorem foldl_regs {α : Type} {f : State → α → State} (h : ∀ s a, ∃ g, f s a = { s with regs := g }) (l : List α) (s : State) :
    ∃ g, l.foldl f s = { s with regs := g } := by
  induction l generalizing s with
  | nil => exact ⟨_, rfl⟩
  | cons a l ih =>
    obtain ⟨g, first⟩ := h s a
    obtain ⟨g', rest⟩ := ih (f s a)
    exact ⟨g', by rw [List.foldl_cons, rest, first]⟩

/-- A written value changes the registers alone. -/
theorem State.putRW_eq (s : State) (r : Reg) (i v : Nat) : ∃ g, s.putRW r i v = { s with regs := g } :=
  foldl_regs (fun s f => by split <;> exact ⟨_, rfl⟩) r.fields s

/-- So do its W1C bits. -/
theorem State.clrW1C_eq (s : State) (r : Reg) (i v : Nat) : ∃ g, s.clrW1C r i v = { s with regs := g } :=
  foldl_regs (fun s f => by split <;> exact ⟨_, rfl⟩) r.fields s

section
variable {s : State} {w : Who} {v : Nat} (reach : s.reaches w = true) (free : s.barred w .SPARE_FENCE 0 v = .none)
  (acts : s.isStatus .SPARE_FENCE 0 v = false) (good : s.fenceGoBad v = false)
include reach free acts good

/-- A write that the rules admit puts its fields, cancels drains and fences a unit as its bits ask. -/
theorem spareFenceWrite_taken : spareFenceWrite w v s =
    (let u := (s.clrW1C .SPARE_FENCE 0 v).putRW .SPARE_FENCE 0 v
     let t := if SPARE_FENCE.CANCEL.bit v then u.cancelDrain else u
     if SPARE_FENCE.GO.bit v then t.hostFence (SPARE_FENCE.KIND.val v) (SPARE_FENCE.UNIT.val v) (SPARE_FENCE.DRAIN.bit v) else t) := by
  rw [spareFenceWrite, reach, State.when_true, State.regWrite_taken free acts good]

/-- `GO` alone fences its unit. -/
theorem exec_spareFenceGo_taken (go : SPARE_FENCE.GO.bit v = true) (keep : SPARE_FENCE.CANCEL.bit v = false) :
    exec (.spareFenceGo w v) s = .next (((s.clrW1C .SPARE_FENCE 0 v).putRW .SPARE_FENCE 0 v).hostFence (SPARE_FENCE.KIND.val v)
      (SPARE_FENCE.UNIT.val v) (SPARE_FENCE.DRAIN.bit v)) := by
  have row : exec (.spareFenceGo w v) s = .next (s.when (SPARE_FENCE.GO.bit v) (spareFenceWrite w v)) := rfl
  rw [row, go, State.when_true, spareFenceWrite_taken reach free acts good]
  simp only [go, keep, Bool.false_eq_true, if_false, if_true]

/-- `CANCEL` alone ends the drains. -/
theorem exec_spareFenceCancel_taken (stop : SPARE_FENCE.GO.bit v = false) (cancel : SPARE_FENCE.CANCEL.bit v = true) :
    exec (.spareFenceCancel w v) s = .next ((s.clrW1C .SPARE_FENCE 0 v).putRW .SPARE_FENCE 0 v).cancelDrain := by
  have row : exec (.spareFenceCancel w v) s = .next (s.when (SPARE_FENCE.CANCEL.bit v) (spareFenceWrite w v)) := rfl
  rw [row, cancel, State.when_true, spareFenceWrite_taken reach free acts good]
  simp only [stop, cancel, Bool.false_eq_true, if_false, if_true]

end

/-- A core in service that is to drain begins its drain (R572). -/
theorem State.hostFence_drain {s : State} {unit site l : Nat} (intact : s.inCullet 1 unit = false) (named : unitSite unit = some site)
    (serves : s.siteCore site = some l) : s.hostFence 1 unit true = (s.holdCore l).addFencing ⟨l, site, 3, true⟩ := by
  simp only [State.hostFence, intact, named, Option.getD_some, serves, Bool.false_eq_true, if_false, if_true, State.startDrain]

/-- One drain alone, ended, leaves nothing being fenced and releases its core. -/
theorem State.cancelDrain_one {s : State} {l site origin : Nat} (one : s.spare.fencing = [⟨l, site, origin, true⟩]) : s.cancelDrain =
    ({ s with
       spare := { s.spare with fencing := [] }
       cfe := { s.cfe with held := tset s.cfe.held l (tget s.cfe.held l 0 - 1) 0 } } : State).fset SPARE_FENCE.BUSY 0 0 := by
  simp [State.cancelDrain, one, State.freeCore, State.dropFencing, State.fenceBusy, State.fput, b2n]

/-- A drained site without resident work is gated, and its substitution goes on. -/
theorem drainCompleteStep_idle {s : State} {site l o : Nat} (up : s.hubUp = true) (idle : s.core.rsds = [])
    (one : s.spare.fencing = [⟨l, site, o, true⟩]) : drainCompleteStep site s =
      ({ s with spare := { s.spare with fencing := [⟨l, site, o, false⟩] } } : State).gateSite site := by
  simp [drainCompleteStep, up, idle, one]

/-! ## Wear (R565, R566) -/

/-- A drift that is whole is not rounded. -/
theorem State.driftOf_whole (s : State) {ps base : Nat} (real : 0 < base) (whole : 10000 * ((ps : Int) - base) % base = 0) :
    s.driftOf ps base = 10000 * ((ps : Int) - base) / base := by
  have nonzero : base ≠ 0 := Nat.ne_of_gt real
  simp only [State.driftOf, if_neg nonzero, whole, ne_eq, not_true, false_and, if_false, Int.add_zero]

/-- A site's registers hold a reading: its drift, the voltage step and the junction temperature. -/
def State.putWear (s : State) (site drift vs tj : Nat) : State :=
  ((s.fset SPARE_WEAR.DRIFT site drift).fset SPARE_WEAR.VS site vs).fset SPARE_WEAR.TJ site tj

/-- A reading leaves the threshold of its warning. -/
theorem State.fget_putWear_warn (s : State) {site : Nat} (drift vs tj : Nat) (h : site < 2304) :
    (s.putWear site drift vs tj).fget SPARE_WEAR_CTL.WARN 0 = s.fget SPARE_WEAR_CTL.WARN 0 := by
  have keeps (t : State) (f : Fld) (v : Nat) (hr : SPARE_WEAR_CTL.WARN.reg ≠ f.reg) (hf : f.lsb < 1024) :
      (t.fset f site v).fget SPARE_WEAR_CTL.WARN 0 = t.fget SPARE_WEAR_CTL.WARN 0 :=
    t.fget_fset_reg hr (by omega) (by decide) hf (by decide)
  rw [State.putWear, keeps _ _ _ (by decide) (by decide), keeps _ _ _ (by decide) (by decide), keeps _ _ _ (by decide) (by decide)]

/-- Out of safe mode, a whole drift that is not above the threshold is recorded, with no warning. -/
theorem State.wearRead_whole {s : State} {site ps base : Nat} (tj : Nat) (h : site < 2304)
    (normal : s.fon GCTL_BOOT_STAT.SAFE_MODE 0 = false) (start : s.wearBase site (s.pwr.vs.getD (siteDie site) 0) ps = base)
    (real : 0 < base) (whole : 10000 * ((ps : Int) - base) % base = 0)
    (below : 10000 * ((ps : Int) - base) / base ≤ (s.fget SPARE_WEAR_CTL.WARN 0 : Int) * 10) : s.wearRead site ps tj =
      (s.putWear site (wrapInt 16 (10000 * ((ps : Int) - base) / base)) (s.pwr.vs.getD (siteDie site) 0) tj).drew := by
  simp only [State.wearRead, start, normal, Bool.false_eq_true, if_false, s.driftOf_whole real whole]
  refine if_neg fun warns => ?_
  have threshold := s.fget_putWear_warn (wrapInt 16 (10000 * ((ps : Int) - base) / base)) (s.pwr.vs.getD (siteDie site) 0) tj h
  rw [State.putWear] at threshold
  rw [State.fget_drew, threshold] at warns
  exact absurd warns.1 (Int.not_lt.mpr below)

/-- A site in service that is active or a spare is read. -/
theorem wearReadingStep_used {s : State} {site ps tj : Nat} (up : s.hubUp = true) (used : s.fget SPARE_WEAR.USE site ≤ 1) :
    wearReadingStep site ps tj s = s.wearRead site ps tj := by
  simp [wearReadingStep, up, used]

/-- Settles O13: each row by its own rule above; the two ends of a substitution are one rule, and so are the two SPARE_FENCE writes. -/
theorem spareFencing : Obligations.SpareFencing := by
  refine ⟨?fault, ?hole, ?spare, ?go, ?cancel, ?drained, ?wear⟩
  case fault =>
    intro s site l hsite up unfenced serves idle
    have step : spareSubstitutionStep site s = s.fenceSite site 2 := by rw [spareSubstitutionStep, up, State.when_true]
    exact (need_site hsite _).trans
      (congrArg _ (step.trans ((State.fenceSite_idle 2 unfenced serves idle).trans (State.addFencing_eq _ _))))
  case hole =>
    intro s site f ok hsite up found pos
    refine (need_site hsite _).trans (congrArg _ ?_)
    rw [substitutionDoneStep_found ok up found, State.substitute_hole pos ok (by decide)]
  case spare =>
    intro s site sp f hsite up found pos hsp spare
    refine (need_site hsite _).trans (congrArg _ ?_)
    rw [substitutionDoneStep_found true up found, State.substitute_spare pos hsp]
  case go =>
    intro s w v site l reach free acts good go keep kind drain named u intact serves
    rw [exec_spareFenceGo_taken reach free acts good go keep, kind, drain, State.hostFence_drain intact named serves]
  case cancel =>
    intro s w v site l reach free acts stop cancel one
    have good : s.fenceGoBad v = false := by simp [State.fenceGoBad, stop]
    obtain ⟨g, cleared⟩ := s.clrW1C_eq .SPARE_FENCE 0 v
    obtain ⟨g', put⟩ := (s.clrW1C .SPARE_FENCE 0 v).putRW_eq .SPARE_FENCE 0 v
    have same : (s.clrW1C .SPARE_FENCE 0 v).putRW .SPARE_FENCE 0 v = { s with regs := g' } := by rw [put, cleared]
    rw [exec_spareFenceCancel_taken reach free acts good stop cancel, same]
    exact congrArg _ (State.cancelDrain_one one)
  case drained =>
    intro s site l o hsite up idle one
    exact (need_site hsite _).trans (congrArg _ (drainCompleteStep_idle up idle one))
  case wear =>
    intro s site ps tj base hsite up used normal start real whole below
    exact (need_site hsite _).trans
      (congrArg _ ((wearReadingStep_used up used).trans (State.wearRead_whole tj hsite normal start real whole below)))

end Sys2Proof.Machine
end

section
/-! ASELECT, AQUERY and AKVSHIP fire (R243 to R250, R254, R258, R264 to R268, R274). -/
set_option autoImplicit false
namespace Sys2Proof.Machine

section
variable {r : Rsd} {d : Nat} {s : State}

/-- An ASELECT whose sequence and pages pass writes its page list (R258). -/
theorem aselectEffect_ok {l : List Nat} {f : FireIn} (clean : f.ecc = .clean) (h : s.aselect r d = (.ok l, s)) :
    aselectEffect f r d s =
      (s.csWrite r.site (32 * unitAddr d r.iter ASEL.OUT_ADDR 1) (listBytes l)).launchFlight r d fun g => { g with ready := true } := by
  simp only [aselectEffect, clean, State.withEcc_clean, State.orFail, h]

/-- A local AKVSHIP whose shipment is written is done (R248). -/
theorem akvshipEffect_local {v : State} {f : FireIn} (clean : f.ecc = .clean) (here : SHIP.LOCAL.on d = true)
    (h : s.shipLocal r d = (.ok (), v)) : akvshipEffect f r d s = v.launchFlight r d fun g => { g with ready := true } := by
  simp only [akvshipEffect, here, if_true, clean, State.withEcc_clean, State.orFail, h]

/-- A remote one begins its message. -/
theorem akvshipEffect_remote {f : FireIn} (away : SHIP.LOCAL.on d = false) : akvshipEffect f r d s = s.shipRemote r d :=
  if_neg (ne_true_of_eq_false away)

end

/-- The entry of shard `c` in an AQUERY's shard list (R265). -/
def State.shardEntry (s : State) (r : Rsd) (d c : Nat) : Nat :=
  leAt (s.csRead r.site (32 * unitAddr d r.iter AQ.SL_ADDR 2) (32 * (AQ.NSH_M1.of d + 1))) (32 * c) 32

/-- The query of shard `c` that an AQUERY hands to the dispatcher: not sent, for its primary target, under its own tag (R264, R268; that
tags count up is log 80). -/
def State.shardQuery (s : State) (r : Rsd) (d c : Nat) : ShardQ :=
  let tag := (s.att.nextTag + c) % 2 ^ 32
  { qtag := tag, lcore := r.lcore, ring := r.ring, seq := r.seq, fid := s.core.fires, ctx := r.ctx, shard := c,
    entry := s.shardEntry r d c, hdr := queryHdr d tag (s.shardEntry r d c),
    rows := queryRows (s.queryBytes r.site (unitAddr d r.iter AQ.Q_ADDR 0) (AQ.Q_SOFF.of d) (AQ.G_M1.of d + 1) (dimOf (AQ.D_CODE.of d))
      (AQ.KVF.on d)),
    target := 0, sent := false, tSent := 0, status := 0 }

/-- The state once an AQUERY has handed its shard queries over: it is in flight with every shard pending (R264, R274). -/
def State.asked (s : State) (r : Rsd) (d : Nat) : State :=
  let n := AQ.NSH_M1.of d + 1
  let t := s.launchFlight r d fun g => { g with list := List.range n }
  { t with att := { t.att with nextTag := s.att.nextTag + n, shards := s.att.shards ++ (List.range n).map (s.shardQuery r d) } }

theorem aqueryEffect_clean {f : FireIn} {r : Rsd} {d : Nat} {s : State} (clean : f.ecc = .clean) : aqueryEffect f r d s = s.asked r d := by
  rw [aqueryEffect, clean]
  rfl

/-- An AQUERY adds one query for each of its shards. -/
theorem State.asked_length (s : State) (r : Rsd) (d : Nat) :
    (s.asked r d).att.shards.length = s.att.shards.length + (AQ.NSH_M1.of d + 1) := by
  simp [State.asked]

/-- Behind the queries held before, the dispatcher holds the query of shard `c` at place `c`. -/
theorem State.asked_shard (s : State) (r : Rsd) {d c : Nat} (h : c < AQ.NSH_M1.of d + 1) :
    (s.asked r d).att.shards[s.att.shards.length + c]? = some (s.shardQuery r d c) := by
  have query_at : ((List.range (AQ.NSH_M1.of d + 1)).map (s.shardQuery r d))[c]? = some (s.shardQuery r d c) := by
    rw [List.getElem?_map, List.getElem?_range h, Option.map_some]
  rw [State.asked, List.getElem?_append_right (Nat.le_add_right _ _), Nat.add_sub_cancel_left, query_at]

/-- Settles O36: each row by its effect on what every firing leaves. -/
theorem attentionDescriptors : Obligations.AttentionDescriptors := by
  intro s lcore ring seq op f r d h u q i
  have clean : f.ecc = .clean := h.clean.2
  refine ⟨?aselect, ?aquery, ?shipHere, ?shipAway⟩
  case aselect =>
    rintro rfl l ok
    exact h.rowKeepless (by decide) (aselectEffect_ok clean ok)
  case aquery =>
    rintro rfl
    refine ⟨u.asked q d, h.rowKeepless (by decide) (aqueryEffect_clean clean), rfl, u.asked_length q d, rfl, rfl, rfl, rfl, ?_⟩
    intro c x hc at_c
    obtain rfl : u.shardQuery q d c = x := Option.some.inj ((u.asked_shard q hc).symm.trans at_c)
    exact ⟨rfl, rfl, rfl, rfl, rfl, rfl⟩
  case shipHere =>
    rintro rfl here v written
    exact h.rowKeepless (by decide) (akvshipEffect_local clean here written)
  case shipAway =>
    rintro rfl away
    exact h.rowKeepless (by decide) (akvshipEffect_remote away)

end Sys2Proof.Machine
end

section
/-! The query dispatcher: shard queries go out and are answered, and shipments are acknowledged (R250, R274 to R280). -/
set_option autoImplicit false
namespace Sys2Proof.Machine

/-! ## A shard query goes out, or its time runs out (R274, R276) -/

/-- The message that carries a shard query to its target. -/
def State.queryXfer (s : State) (q : ShardQ) : Xfer :=
  let pay := leBytes 64 q.hdr ++ q.rows
  mkXfer (.query q.qtag) (some q.ctx) ((s.ctxEp q.ctx).getD 0) (q.dest q.target).1 (q.dest q.target).2 tyQUERY (s.ctxPart q.ctx)
    (s.ctxWorld q.ctx) 0 pay.length (.lit pay)

section
variable {s : State} {n : Nat} {q : ShardQ} (held : s.att.shards[n]? = some q)
include held

/-- A query not sent yet is sent while the dispatcher has room for it and its message begins. -/
theorem shardQuerySendStep_begun {v : State} (live : s.live = true) (room : (s.att.shards.filter (·.sent)).length < 16384)
    (unsent : q.sent = false) (begun : s.begin (s.queryXfer q) = some v) :
    shardQuerySendStep n s = v.setShard { q with sent := true, tSent := v.time.thaw } := by
  rw [State.queryXfer] at begun
  simp only [shardQuerySendStep, live, decide_eq_true room, Bool.and_self, State.when_true, held, unsent, Bool.false_eq_true, if_false,
    begun]

/-- A query sent `QTO` × 16 µs ago loses its target. -/
theorem qtoExpiryStep_late {r : Rsd} {g : Flight} (up : s.hubUp = true) (work : s.shardOf q = some (r, g)) (sent : q.sent = true)
    (late : q.tSent + AQ.QTO.of g.word * 16000 ≤ s.time.thaw) : qtoExpiryStep n s = s.targetLost q := by
  simp only [qtoExpiryStep, up, State.when_true, held, work, sent, decide_eq_true late, Bool.and_self, if_true]

end

/-! ## A PARTIAL answers a shard (R276, R279) -/

section
variable {s : State} {q : ShardQ} {a h : Nat} {b : List Byte}

/-- Status 0 closes the shard with the states that it brings. -/
theorem State.shardAnswer_closes (ok : QR.STATUS.of h = 0) :
    s.shardAnswer q a h b = s.closeShard q (b.drop 64) (statusWord 0 (decide (a = 1)) false (QR.NSEL.of h)) :=
  if_pos ok

/-- The statuses that lose a target are those of R276. -/
theorem retryable_iff {c : Nat} : retryable c = true ↔ c = 0x0801 ∨ c = 0x0804 ∨ c = 0x080A := by
  simp [retryable]

section
variable (again : retryable (QR.STATUS.of h) = true)
include again

/-- A retryable status is no success. -/
theorem status_ne_zero_of_retryable : QR.STATUS.of h ≠ 0 := by
  intro ok
  rw [ok] at again
  exact absurd again (by decide)

/-- A retryable status from the target that is asked now loses it. -/
theorem State.shardAnswer_lost (asked : a = q.target) (sent : q.sent = true) :
    s.shardAnswer q a h b = s.targetLost { q with status := QR.STATUS.of h } := by
  simp only [State.shardAnswer, if_neg (status_ne_zero_of_retryable again), again, if_true, asked, sent, and_self]

/-- One from a target already passed, or not asked again yet, is only recorded (log 37). -/
theorem State.shardAnswer_recorded (passed : a ≠ q.target ∨ q.sent = false) :
    s.shardAnswer q a h b = s.setShard { q with status := QR.STATUS.of h } := by
  have notAsked : ¬(a = q.target ∧ q.sent = true) := by
    rintro ⟨same, sent⟩
    rcases passed with other | unsent
    · exact other same
    · rw [unsent] at sent
      cases sent
  simp only [State.shardAnswer, if_neg (status_ne_zero_of_retryable again), again, if_true, if_neg notAsked]

end

/-- Any other status fails the AQUERY (R279). -/
theorem State.shardAnswer_fails (bad : QR.STATUS.of h ≠ 0) (final : ¬retryable (QR.STATUS.of h) = true) :
    s.shardAnswer q a h b = s.failQuery q (QR.STATUS.of h) := by
  simp only [State.shardAnswer, if_neg bad, if_neg final]

end

/-- A valid PARTIAL of a shard that is held, from a target it was sent to, answers it. -/
theorem State.takePartial_answers {s : State} {p : Pkt} {b : List Byte} {q : ShardQ} {a : Nat}
    (held : s.att.shards.find? (fun q => decide (q.qtag = QR.TAG.of (ofLE (b.take 64)))) = some q) (sender : s.answerer q p = some a)
    (valid : partialValid q (ofLE (b.take 64)) b = true) : s.takePartial p b = s.shardAnswer q a (ofLE (b.take 64)) b := by
  simp only [State.takePartial, held, sender, valid, if_true]

section
variable {s : State} {p : Pkt} {t : DStream} (h : s.Takes p t) (type : PH.TYPE.of p.hdr = 8)
include h type

/-- A QRESP of kind PARTIAL reaches the dispatcher. -/
theorem State.Takes.qrespPartial (kind : qrKind p ≠ 1) :
    exec (.qrespPartial p) s = .next ((s.settled p t).takePartial p (pktKept p)) := by
  have isPartial : (decide (PH.TYPE.of p.hdr = tyQRESP) && decide (qrKind p ≠ 1)) = true := by simp [type, tyQRESP, kind]
  have he : exec (.qrespPartial p) s = .next (qrespPartialStep p s) := rfl
  rw [he, qrespPartialStep, isPartial, State.when_true, h.arriveMsg]

/-- One of kind KVACK reaches its shipment. -/
theorem State.Takes.kvack (kind : qrKind p = 1) : exec (.kvack p) s = .next ((s.settled p t).takeKvack (pktKept p)) := by
  have isKvack : (decide (PH.TYPE.of p.hdr = tyQRESP) && (isVoid p || decide (qrKind p = 1))) = true := by simp [type, tyQRESP, kind]
  have he : exec (.kvack p) s = .next (kvackStep p s) := rfl
  rw [he, kvackStep, isKvack, State.when_true, h.arriveMsg]

end

/-- A shipment awaits its KVACK no more. -/
def State.dropShip (s : State) (k : ShipOut) : State :=
  { s with att := { s.att with ships := s.att.ships.filter fun j => decide (j.ktag ≠ k.ktag) } }

/-- A KVACK with status 0 makes its shipment ready (R250). -/
theorem State.takeKvack_ready {s : State} {b : List Byte} {k : ShipOut} {r : Rsd} {g : Flight}
    (held : s.att.ships.find? (fun k => decide (k.ktag = QR.TAG.of (ofLE (b.take 64)))) = some k)
    (list : s.rsd k.lcore k.ring k.seq = some r) (flight : r.flight k.fid = some g) (ok : QR.STATUS.of (ofLE (b.take 64)) = 0) :
    s.takeKvack b = (s.dropShip k).setFlight r { g with ready := true } := by
  have list' : (s.dropShip k).rsd k.lcore k.ring k.seq = some r := list
  rw [State.dropShip] at list' ⊢
  simp only [State.takeKvack, held, list', flight, if_pos ok]

/-- Settles O37: a query by its own step, an answer by what its status says once it has reached its shard. -/
theorem queryDispatcher : Obligations.QueryDispatcher := by
  refine ⟨?send, ?answer, ?expiry, ?kvack⟩
  case send =>
    intro s v n q live room held unsent t pay begun
    exact congrArg _ (shardQuerySendStep_begun held live room unsent begun)
  case answer =>
    intro s p t q a takes type kind b h u held sender valid
    have step : exec (.qrespPartial p) s = .next (u.shardAnswer q a h b) :=
      (takes.qrespPartial type kind).trans (congrArg _ (State.takePartial_answers held sender valid))
    refine ⟨fun ok => ?_, fun again => ?_, fun bad h1 h4 hA => ?_⟩
    · rw [step, State.shardAnswer_closes ok]
    · have again := retryable_iff.mpr again
      refine ⟨fun asked sent => ?_, fun passed => ?_⟩
      · rw [step, State.shardAnswer_lost again asked sent]
      · rw [step, State.shardAnswer_recorded again passed]
    · rw [step, State.shardAnswer_fails bad (by rw [retryable_iff]; simp [h1, h4, hA])]
  case expiry =>
    intro s n q r g up held work sent late
    exact congrArg _ (qtoExpiryStep_late held up work sent late)
  case kvack =>
    intro s p t k r g takes type kind h u v held list flight ok
    exact (takes.kvack type kind).trans (congrArg _ (State.takeKvack_ready held list flight ok))

end Sys2Proof.Machine
end

section
/-! The services of a Cache module: queries and shipments, and the sequence tables they use (R233, R234, R246 to R250, R252, R270 to
R273). -/
set_option autoImplicit false
namespace Sys2Proof.Machine

/-! ## Messages of the services -/

section
variable {s : State} {p : Pkt} {t : DStream} (h : s.Takes p t)
include h

/-- A QUERY is taken while fewer than 4,096 are held and no activation pauses the module (R272, R786). -/
theorem State.Takes.query (type : PH.TYPE.of p.hdr = 7) (room : s.att.queries.length < 4096) (active : s.pausing = false) :
    exec (.query p []) s = .next ((s.settled p t).takeQuery p t (pktKept p)) := by
  have accepted : (decide (PH.TYPE.of p.hdr = tyQUERY) && decide (s.att.queries.length < 4096) && !s.pausing) = true := by
    simp [type, tyQUERY, room, active]
  have he : exec (.query p []) s = .next (queryStep p [] s) := rfl
  rw [he, queryStep, accepted, State.when_true, State.markBad_nil, h.arriveMsg]

/-- A shipment, which travels as a PUT (log 44), is taken. -/
theorem State.Takes.kvShipment (type : PH.TYPE.of p.hdr = 1) :
    exec (.kvShipment p []) s = .next ((s.settled p t).takeShip p t (pktKept p)) := by
  have he : exec (.kvShipment p []) s = .next (kvShipmentStep p [] s) := rfl
  rw [he, kvShipmentStep, decide_eq_true (show PH.TYPE.of p.hdr = tyPUT from type), State.when_true, State.markBad_nil, h.arriveMsg]

end

/-- A QUERY that the module may serve is held with its sequence's context (R270). -/
theorem State.takeQuery_held {s : State} {p : Pkt} {t : DStream} {b : List Byte} {q : Nat}
    (ok : s.wake.judgeQuery (PH.PART.of p.hdr) (PH.WORLD.of p.hdr) (ofLE (b.take 64)) b = (.ok q, s.wake)) :
    s.takeQuery p t b = { s.wake with att := { s.wake.att with queries := s.wake.att.queries ++ [⟨ofLE (b.take 64), b.drop 64, pktMod p,
      pktEp p, t.dep, SEQD.CTX.of q, PH.PART.of p.hdr, PH.WORLD.of p.hdr, s.wake.time.now⟩] } } := by
  simp only [State.takeQuery, ok]

/-- A shipment judged and written is acknowledged with the code it came to (R250). -/
theorem State.takeShip_ok {s v : State} {p : Pkt} {t : DStream} {b : List Byte} {c : Nat}
    (ok : s.wake.shipAt (PH.PART.of p.hdr) (PH.WORLD.of p.hdr) b = (.ok c, v)) :
    s.takeShip p t b = v.qresp (pktMod p) (pktEp p) t.dep (PH.PART.of p.hdr) (PH.WORLD.of p.hdr)
      (qrHdr (SHH.KTAG.of (ofLE (b.take 64))) c 1 0 0 0) := by
  simp only [State.takeShip, ok]

/-! ## A held query is served or refused (R271) -/

section
variable {s : State} {n : Nat} {q : QHeld} (live : s.live = true) (held : s.att.queries[n]? = some q)
include live held

/-- A held query whose pages are read is answered with its partials. -/
theorem queryServeStep_served {l : List AttState} {k : Nat} (ok : s.servePartials q = (.ok (l, k), s)) :
    queryServeStep n [] s = (s.dropHeld n).qresp q.smod q.sep q.dep q.part q.world
      (qrHdr (QH.QTAG.of q.hdr) 0 0 (QH.G_M1.of q.hdr) (QH.D_CODE.of q.hdr) k ++ l.flatMap stateBytes) := by
  simp only [queryServeStep, live, State.when_true, held, State.markBad_nil, ok]

/-- One that its layer's count has not covered for 2 ms is refused. -/
theorem queryStaleTimeoutStep_stale (late : q.t0 + 2000000 ≤ s.time.now)
    (stale : ((s.seqLookup (s.accOf q.sctx 4) (QH.SEQ_SLOT.of q.hdr) (QH.SEQ_ID.of q.hdr)).then fun w u =>
      u.freshSeq (s.accOf q.sctx 4) w (QH.LAYER.of q.hdr) (QH.NTOK.of q.hdr)) = attBad 0x0804 s) :
    queryStaleTimeoutStep n s = (s.dropHeld n).qrespErr q 0x0804 := by
  simp only [queryStaleTimeoutStep, live, State.when_true, held, stale]
  exact if_pos ⟨rfl, late⟩

end

/-- A count that does not cover the request makes the lookup's last judgement KV_STALE (R869). -/
theorem State.freshSeq_stale {s : State} {a : Party} {w c layer ntok : Nat} (count : s.seqCount a w layer = (.ok c, s))
    (stale : seqStale w c ntok = true) : s.freshSeq a w layer ntok = attBad 0x0804 s := by
  simp only [State.freshSeq, count, Got.then, stale, if_true]

/-! ## The sequence-table register (R233, R234) -/

section
variable {s : State} {w : Who} {p v : Nat} (part : p < 16) (hw : s.reaches w = true) (hb : s.barred w .GCTL_SEQTAB p v = .none)
  (hs : s.isStatus .GCTL_SEQTAB p v = false)
include part hw hb hs

/-- A table out of use takes any fields; one in use keeps its place and size. -/
theorem exec_gctlSeqtabWrite_taken (may : s.fon GCTL_SEQTAB.EN p = false ∨
    (GCTL_SEQTAB.BASE.val v = s.fget GCTL_SEQTAB.BASE p ∧ GCTL_SEQTAB.N_M1.val v = s.fget GCTL_SEQTAB.N_M1 p)) :
    exec (.gctlSeqtabWrite w p v) s = .next ((s.clrW1C .GCTL_SEQTAB p v).putRW .GCTL_SEQTAB p v) := by
  have he : exec (.gctlSeqtabWrite w p v) s = need (wfPart p) (gctlSeqtabWriteStep w p v s) := rfl
  rw [he, wfPart, decide_eq_true part, gctlSeqtabWriteStep, hw, State.when_true, State.regWrite_taken hb hs]
  · rfl
  · rcases may with off | ⟨base, size⟩
    · rw [off, Bool.false_and]
    · simp [base, size]

/-- A write that would move or resize a table in use is rejected. -/
theorem exec_gctlSeqtabWrite_rejected (used : s.fon GCTL_SEQTAB.EN p = true)
    (moves : GCTL_SEQTAB.BASE.val v ≠ s.fget GCTL_SEQTAB.BASE p ∨ GCTL_SEQTAB.N_M1.val v ≠ s.fget GCTL_SEQTAB.N_M1 p) :
    exec (.gctlSeqtabWrite w p v) s = .next (s.fset GCTL_SEQTAB.REJ p 1) := by
  have he : exec (.gctlSeqtabWrite w p v) s = need (wfPart p) (gctlSeqtabWriteStep w p v s) := rfl
  rw [he, wfPart, decide_eq_true part, gctlSeqtabWriteStep, hw, State.when_true,
    State.regWrite_rejected hb hs (by simpa [used] using moves)]
  rfl

end

/-- Settles O38: a message by what the service makes of it once it has been taken, a held query by its own step, a register write by the
rule that lets it pass. -/
theorem queryService : Obligations.QueryService := by
  refine ⟨?query, ?serve, ?stale, ?ship, ?table⟩
  case query =>
    intro s p t takes type room active b u q ok
    exact (takes.query type room active).trans (congrArg _ (State.takeQuery_held ok))
  case serve =>
    intro s n q l k live held ok
    exact congrArg _ (queryServeStep_served live held ok)
  case stale =>
    intro s n w c q live held late lookup count stale
    refine congrArg _ (queryStaleTimeoutStep_stale live held late ?_)
    simp only [lookup, Got.then]
    exact State.freshSeq_stale count stale
  case ship =>
    intro s v p t c takes type b ok
    exact (takes.kvShipment type).trans (congrArg _ (State.takeShip_ok ok))
  case table =>
    intro s w p v part hw hb hs
    exact ⟨exec_gctlSeqtabWrite_taken part hw hb hs, exec_gctlSeqtabWrite_rejected part hw hb hs⟩

end Sys2Proof.Machine
end

section
/-! Device memory read and written: a write changes its range alone, a read delivers what stands there or nothing (R295, R296, R303 to R305,
R310, R311, R327). -/
set_option autoImplicit false
namespace Sys2Proof.Machine

/-! ## What a range holds -/

/-- An address that no cell lists reads 0. -/
theorem cellAt_unlisted {m : List Host.Cell} {x : Nat} (h : ∀ c ∈ m, c.1 ≠ x) : cellAt m x = 0 := by
  have front := cellAt_append m [] x h
  rwa [List.append_nil] at front

/-- Rising cells from an address on, read in turn. -/
theorem cellsFrom_eq {m : List Host.Cell} (a n : Nat) (rising : m.Pairwise fun c d => c.1 < d.1) (from_ : ∀ c ∈ m, a ≤ c.1) :
    cellsFrom m a n = (List.range n).map fun i => cellAt m (a + i) := by
  induction n generalizing m a with
  | zero => simp [cellsFrom]
  | succ n ih =>
    have next : ∀ i, a + 1 + i = a + (i + 1) := fun i => by omega
    rw [List.range_succ_eq_map, List.map_cons, List.map_map]
    cases m with
    | nil =>
      rw [cellsFrom, ih (m := []) (a + 1) .nil (by simp)]
      rfl
    | cons c r =>
      obtain ⟨k, b⟩ := c
      obtain ⟨above, tail⟩ := List.pairwise_cons.mp rising
      have low : a ≤ k := from_ (k, b) List.mem_cons_self
      by_cases hk : k = a
      · subst hk
        rw [cellsFrom, if_pos rfl, ih (k + 1) tail above]
        simp [cellAt, next]
      · have rest : ∀ d ∈ (k, b) :: r, a + 1 ≤ d.1 := by
          rintro d hd
          rcases List.mem_cons.mp hd with rfl | hr
          · show a + 1 ≤ k
            omega
          · have : k < d.1 := above d hr
            omega
        have first : cellAt ((k, b) :: r) a = 0 := cellAt_unlisted fun d hd => by have := rest d hd; omega
        rw [cellsFrom, if_neg hk, ih (a + 1) rising rest, ← first]
        simp only [next]
        rfl

/-- A range of a memory in canonical form, read byte by byte. -/
theorem cellsRead_eq {m : List Host.Cell} (a n : Nat) (h : Memory.wf m = true) :
    cellsRead m a n = (List.range n).map fun i => cellAt m (a + i) := by
  rw [cellsRead, cellsFrom_eq a n ((Memory.wf_iff m).mp h |>.1.filter _)]
  · refine List.map_congr_left fun i _ => cellAt_filter m _ _ fun c _ hc => ?_
    simp [hc]
  · intro c hc
    simpa using (List.mem_filter.mp hc).2

/-- A byte's granule. -/
theorem granOf_eq (x : Nat) : granOf x = x / 128 := Nat.shiftRight_eq_div_pow x 7

/-- The granules of a range's bytes. -/
theorem mem_gransOf {addr n i : Nat} (h : i < n) : (addr + i) / 128 ∈ gransOf addr n := by
  rw [gransOf, if_neg (by omega), List.mem_map]
  simp only [granOf_eq, List.mem_range]
  exact ⟨(addr + i) / 128 - addr / 128, by omega, by omega⟩

/-! ## Codes -/

/-- The code of a list of failing granules is 0 only where none fails. -/
theorem firstCode_eq_zero {l : List (Nat × Nat)} (codes : ∀ e ∈ l, e.2 ≠ 0) : firstCode l = 0 ↔ l = [] := by
  cases l with
  | nil => simp [firstCode]
  | cons e l => simpa [firstCode] using codes e List.mem_cons_self

/-- Each failing granule has a code. -/
theorem State.failing_code {s : State} {slot : Nat → Nat} {addr n : Nat} : ∀ e ∈ s.failing slot addr n, e.2 ≠ 0 := by
  intro e he
  obtain ⟨g, -, hg⟩ := List.mem_filterMap.mp he
  dsimp only at hg
  split at hg
  · cases hg
  · next code => cases hg; exact code

/-- A refused frame refuses its access. -/
theorem State.checkSpan_refused {s : State} {a : Party} {right : Fld} {addr n f : Nat} (hf : f ∈ framesOf addr n)
    (bad : s.checkFrame a right f ≠ 0) : s.checkSpan a right addr n ≠ 0 := by
  unfold State.checkSpan
  split
  · next c found => simpa using List.find?_some found
  · next none_ =>
    have passes := List.find?_eq_none.mp none_ _ (List.mem_map_of_mem hf)
    simp [bad] at passes

/-! ## What an act on device memory keeps -/

/-- Every byte of device memory at which `out` holds reads as before, and the canonical form and the keys stand. -/
structure State.KeepsBytes (out : Nat → Prop) (s t : State) : Prop where
  cells  : ∀ x, out x → cellAt t.mem.bytes x = cellAt s.mem.bytes x
  wf     : Memory.wf s.mem.bytes = true → Memory.wf t.mem.bytes = true
  keyGen : t.mem.keyGen = s.mem.keyGen

section
variable {out : Nat → Prop} {s t u : State}

/-- An act that leaves the bytes and the keys of device memory alone. -/
theorem State.KeepsBytes.of_eq (hb : t.mem.bytes = s.mem.bytes) (hk : t.mem.keyGen = s.mem.keyGen) : s.KeepsBytes out t :=
  ⟨fun _ _ => by rw [hb], fun h => by rwa [hb], hk⟩

theorem State.KeepsBytes.trans (h : s.KeepsBytes out t) (k : t.KeepsBytes out u) : s.KeepsBytes out u :=
  ⟨fun x hx => (k.cells x hx).trans (h.cells x hx), fun w => k.wf (h.wf w), k.keyGen.trans h.keyGen⟩

/-- Fewer bytes kept. -/
theorem State.KeepsBytes.mono {p : Nat → Prop} (h : s.KeepsBytes out t) (k : ∀ x, p x → out x) : s.KeepsBytes p t :=
  ⟨fun x hx => h.cells x (k x hx), h.wf, h.keyGen⟩

/-- A fold of such acts is one. -/
theorem State.KeepsBytes.foldl {α : Type} {f : State → α → State} {l : List α} (h : ∀ s : State, ∀ a ∈ l, s.KeepsBytes out (f s a))
    (s : State) : s.KeepsBytes out (l.foldl f s) := by
  induction l generalizing s with
  | nil => exact .of_eq rfl rfl
  | cons a l ih => exact (h s a List.mem_cons_self).trans (ih (fun t b hb => h t b (List.mem_cons_of_mem a hb)) _)

end

/-- The record of what a resynchronisation has still to copy touches no byte. -/
@[simp] theorem State.dirtyFrame_bytes (s : State) (f : Nat) : (s.dirtyFrame f).mem.bytes = s.mem.bytes := by
  unfold State.dirtyFrame
  split <;> rfl

/-- Nor any key. -/
@[simp] theorem State.dirtyFrame_keyGen (s : State) (f : Nat) : (s.dirtyFrame f).mem.keyGen = s.mem.keyGen := by
  unfold State.dirtyFrame
  split <;> rfl

/-- Logged granules leave device memory alone. -/
@[simp] theorem State.logFails_mem (s : State) (a : Party) (l : List (Nat × Nat)) : (s.logFails a l).mem = s.mem := by
  unfold State.logFails
  induction l generalizing s with
  | nil => rfl
  | cons e l ih => rw [List.foldl_cons, ih, State.logGran, State.log_mem]

/-! ## A snoop (R327) -/

/-- A snoop changes what the host die may hold and what has gone out. -/
theorem State.snoop_eq (s : State) (inv : Bool) (addr n : Nat) :
    ∃ o h, s.snoop inv addr n = { s with out := o, mem := { s.mem with hostLines := h } } := by
  have sent : ∀ (l : List Nat) (t : State), ∃ o, l.foldl (fun t a => t.emit (.snoop a inv)) t = { t with out := o } := by
    intro l
    induction l with
    | nil => exact fun t => ⟨t.out, rfl⟩
    | cons a l ih =>
      intro t
      obtain ⟨o, ho⟩ := ih (t.emit (.snoop a inv))
      exact ⟨o, by rw [List.foldl_cons, ho]; rfl⟩
  obtain ⟨o, ho⟩ := sent (s.heldLines addr n) s
  unfold State.snoop
  dsimp only
  rw [ho]
  split
  · exact ⟨o, _, rfl⟩
  · exact ⟨o, s.mem.hostLines, rfl⟩

/-- One for a read changes no memory. -/
theorem State.snoop_read_mem (s : State) (addr n : Nat) : (s.snoop false addr n).mem = s.mem := by
  unfold State.snoop
  generalize s.heldLines addr n = l
  induction l generalizing s with
  | nil => rfl
  | cons a l ih => exact ih (s.emit (.snoop a false))

/-- Where the host die holds no line of the range, there is none. -/
theorem State.snoop_read_idle {s : State} {addr n : Nat} (h : s.heldLines addr n = []) : s.snoop false addr n = s := by
  simp [State.snoop, h]

/-! ## What an access meets of a fill (R310) -/

/-- A byte that no fill under way reaches with an access to a range. -/
def State.Unfilled (s : State) (addr n x : Nat) : Prop :=
  s.fon MEM_FILL_CTL.BUSY 0 = false ∨ x / 128 ∉ gransOf addr n ∨ s.awaitsFill (x / 128) = false

/-- A granule that the fill reaches is the one it changes. -/
theorem State.keepsBytes_fillGran (s : State) (g : Nat) : s.KeepsBytes (fun x => x / 128 ≠ g) (s.fillGran g) := by
  refine .trans (t := { s with mem := { s.mem with bytes := cellsClear s.mem.bytes (g * 128) 128 } }) ⟨?_, cellsClear_wf _ _, rfl⟩
    (.of_eq (State.dirtyFrame_bytes _ _) (State.dirtyFrame_keyGen _ _))
  refine fun x hx => cellAt_filter _ _ _ fun c _ hc => ?_
  simp only [Bool.or_eq_true, decide_eq_true_eq]
  omega

/-- While no fill runs, an access meets none. -/
theorem State.fillMet_idle {s : State} (addr n : Nat) (h : s.fon MEM_FILL_CTL.BUSY 0 = false) : s.fillMet addr n = s := by
  simp [State.fillMet, h]

/-- An access meets the fill in granules of its own alone. -/
theorem State.keepsBytes_fillMet (s : State) (addr n : Nat) : s.KeepsBytes (s.Unfilled addr n) (s.fillMet addr n) := by
  unfold State.fillMet
  split
  · next busy =>
    refine .trans (.foldl (fun t e he => (t.keepsBytes_fillGran e.1).mono fun x free same => ?_) s) (.of_eq rfl rfl)
    obtain ⟨touched, waits⟩ : e.1 ∈ gransOf addr n ∧ s.awaitsFill e.1 = true :=
      List.mem_filter.mp (List.fst_mem_of_mem_zipIdx (List.mem_filter.mp he).1)
    rw [State.Unfilled, busy, same, waits] at free
    simp [touched] at free
  · exact .of_eq rfl rfl

/-- So it does after the snoop before it. -/
theorem State.keepsBytes_snooped (s : State) (inv : Bool) (addr n : Nat) :
    s.KeepsBytes (s.Unfilled addr n) ((s.snoop inv addr n).fillMet addr n) := by
  obtain ⟨o, h, snooped⟩ := s.snoop_eq inv addr n
  have stands : s.KeepsBytes (s.Unfilled addr n) (s.snoop inv addr n) := by rw [snooped]; exact .of_eq rfl rfl
  have free : ∀ x, s.Unfilled addr n x → (s.snoop inv addr n).Unfilled addr n x := by rw [snooped]; exact fun _ => id
  exact stands.trans ((State.keepsBytes_fillMet _ addr n).mono free)

/-! ## Granules written (R304, R305) -/

section
variable (s : State) (slot addr : Nat) (l : List Byte)

/-- The bytes of device memory after the part of a write in one granule. -/
theorem State.putGran_bytes (g : Nat) : (s.putGran slot addr l g).mem.bytes = cellsWrite s.mem.bytes (max addr (g * 128))
    (slice l (max addr (g * 128) - addr) (min (addr + l.length) (g * 128 + 128) - max addr (g * 128))) :=
  State.dirtyFrame_bytes _ _

/-- Bytes outside the granule or outside the write's range stand. -/
theorem State.keepsBytes_putGran (g : Nat) :
    s.KeepsBytes (fun x => x / 128 ≠ g ∨ x < addr ∨ addr + l.length ≤ x) (s.putGran slot addr l g) where
  cells x hx := by
    rw [State.putGran_bytes]
    refine cellAt_cellsWrite_ne _ _ _ _ ?_
    rw [slice, List.length_take, List.length_drop]
    omega
  wf h := by
    rw [State.putGran_bytes]
    exact cellsWrite_wf _ _ h
  keyGen := State.dirtyFrame_keyGen _ _

/-- A byte of the write in this granule stands as written. -/
theorem State.cellAt_putGran {i : Nat} (h : i < l.length) :
    cellAt (s.putGran slot addr l ((addr + i) / 128)).mem.bytes (addr + i) = l[i] := by
  rw [State.putGran_bytes]
  generalize hlo : max addr ((addr + i) / 128 * 128) = lo
  have inside : addr + i = lo + (addr + i - lo) := by omega
  have len : addr + i - lo < (slice l (lo - addr) (min (addr + l.length) ((addr + i) / 128 * 128 + 128) - lo)).length := by
    rw [slice, List.length_take, List.length_drop]
    omega
  have byte := cellAt_cellsWrite_same s.mem.bytes lo _ _ len
  rw [← inside] at byte
  rw [byte]
  have place : lo - addr + (addr + i - lo) = i := by omega
  simp [slice, place]

end

/-- Granules written one after another: a byte of the write stands as written if its granule is among them, or it did before. -/
theorem State.cellAt_foldl_putGran (slot : Nat → Nat) {addr : Nat} {l : List Byte} {i : Nat} (h : i < l.length) (gs : List Nat) (s : State)
    (reached : (addr + i) / 128 ∈ gs ∨ cellAt s.mem.bytes (addr + i) = l[i]) :
    cellAt (gs.foldl (fun s g => s.putGran (slot g) addr l g) s).mem.bytes (addr + i) = l[i] := by
  induction gs generalizing s with
  | nil => simpa using reached
  | cons g gs ih =>
    refine ih _ ?_
    by_cases hg : (addr + i) / 128 = g
    · exact .inr (hg ▸ s.cellAt_putGran (slot ((addr + i) / 128)) addr l h)
    · rw [(s.keepsBytes_putGran _ addr l g).cells _ (.inl hg)]
      simpa [hg] using reached

section
variable (s : State) (a : Party) (slot : Nat → Nat) (addr : Nat) (l : List Byte)

/-- A write of granules changes its range alone. -/
theorem State.keepsBytes_writeGrans :
    s.KeepsBytes (fun x => x < addr ∨ addr + l.length ≤ x) (s.writeGrans a slot addr l).st := by
  unfold State.writeGrans
  dsimp only
  generalize (gransOf addr l.length).filter _ = gs
  have put : s.KeepsBytes (fun x => x < addr ∨ addr + l.length ≤ x) (gs.foldl (fun s g => s.putGran (slot (g / 16384)) addr l g) s) :=
    .foldl (fun t g _ => (t.keepsBytes_putGran _ addr l g).mono fun _ => .inr) s
  exact put.trans (.of_eq (by rw [State.logFails_mem]) (by rw [State.logFails_mem]))

variable {s a slot addr l}

/-- A write of granules that answers no code leaves every byte as written. -/
theorem State.cellAt_writeGrans (ok : (s.writeGrans a slot addr l).code = 0) {i : Nat} (h : i < l.length) :
    cellAt (s.writeGrans a slot addr l).st.mem.bytes (addr + i) = l[i] := by
  have none_ : (s.failing slot addr l.length).filter (fun e => !covers addr (addr + l.length) e.1) = [] :=
    (firstCode_eq_zero fun e he => State.failing_code e (List.mem_filter.mp he).1).mp ok
  rw [State.writeGrans]
  simp only [none_, State.logFails_mem]
  refine State.cellAt_foldl_putGran (fun g => slot (g / 16384)) h _ s (.inl ?_)
  simpa using mem_gransOf h

end

/-! ## Writes -/

/-- A write of bytes at an address comes to the answer `m`: where it answers no code they stand as written, and whatever it answers no byte
outside changes that a fill does not reach, and nothing changes beside memory, outputs and a few registers. -/
structure State.Writes (s : State) (addr : Nat) (l : List Byte) (m : MemRes) : Prop where
  written : m.code = 0 → ∀ i (h : i < l.length), cellAt m.st.mem.bytes (addr + i) = l[i]
  keeps   : s.KeepsBytes (fun x => (x < addr ∨ addr + l.length ≤ x) ∧ s.Unfilled addr l.length x) m.st
  aside   : s.Aside m.st

section
variable (s : State) (a : Party) (addr : Nat) (l : List Byte)

/-- Granules written after the snoop and what the access met of the fill. -/
theorem State.writes_writeGrans (slot : Nat → Nat) :
    s.Writes addr l (((s.snoop true addr l.length).fillMet addr l.length).writeGrans a slot addr l) where
  written ok _ h := State.cellAt_writeGrans ok h
  keeps := .trans ((s.keepsBytes_snooped true addr l.length).mono fun _ => And.right)
    ((State.keepsBytes_writeGrans _ a slot addr l).mono fun _ => And.left)
  aside := ((s.aside_snoop _ _ _).trans (State.aside_fillMet _ _ _)).trans (State.aside_writeGrans _ _ _ _ _)

/-- A write through the region table. -/
theorem State.writes_memWrite (right : Fld) : s.Writes addr l (s.memWrite a right addr l) := by
  unfold State.memWrite
  split
  · exact s.writes_writeGrans a addr l _
  · next c refused => exact ⟨fun ok => absurd ok refused, .of_eq rfl rfl, .refl s⟩

/-- A write of the module's own under key slot 0. -/
theorem State.writes_rawWrite : s.Writes addr l (s.rawWrite a addr l) := by
  unfold State.rawWrite State.hostUpdate
  split
  · exact s.writes_writeGrans a addr l _
  · next c refused =>
    refine ⟨fun ok => absurd ok refused, ?_, s.aside_snoop true addr l.length⟩
    obtain ⟨o, h, snooped⟩ := s.snoop_eq true addr l.length
    rw [snooped]
    exact .of_eq rfl rfl

end

/-! ## Reads (R303, R311) -/

section
variable (s : State) (a : Party) (addr n : Nat)

/-- A read of granules answers no code with the bytes as they stand and the state as it is, or a code with no byte. -/
theorem State.readGrans_cases (slot : Nat → Nat) :
    s.readGrans a slot addr n = ⟨0, cellsRead s.mem.bytes addr n, s⟩ ∨
    ∃ c l, c ≠ 0 ∧ s.readGrans a slot addr n = ⟨c, [], s.logFails a l⟩ := by
  unfold State.readGrans
  split
  · exact .inl rfl
  · next l fails => exact .inr ⟨_, _, fun h => fails ((firstCode_eq_zero State.failing_code).mp h), rfl⟩

variable {n}

/-- While no fill runs, the snoop of a read and what it meets of a fill change no memory. -/
theorem State.snooped_idle_mem (idle : s.fon MEM_FILL_CTL.BUSY 0 = false) : ((s.snoop false addr n).fillMet addr n).mem = s.mem := by
  obtain ⟨o, h, snooped⟩ := s.snoop_eq false addr n
  have idle' : (s.snoop false addr n).fon MEM_FILL_CTL.BUSY 0 = false := by rw [snooped]; exact idle
  rw [State.fillMet_idle addr n idle', State.snoop_read_mem]

/-- A read through the region table that its frames' checks pass answers no code with the bytes that stand after its snoop and what it
met of a fill; any other answers a code and no byte. -/
theorem State.memRead_cases (right : Fld) (n : Nat) :
    (let t := (s.snoop false addr n).fillMet addr n
     s.checkSpan a right addr n = 0 ∧ s.memRead a right addr n = ⟨0, cellsRead t.mem.bytes addr n, t⟩) ∨
    ∃ c u, c ≠ 0 ∧ (s.fon MEM_FILL_CTL.BUSY 0 = false → u.mem = s.mem) ∧ s.memRead a right addr n = ⟨c, [], u⟩ := by
  unfold State.memRead
  split
  · next passed =>
    rcases State.readGrans_cases ((s.snoop false addr n).fillMet addr n) a addr n (s.keySlot a.part) with read | ⟨c, l, code, read⟩
    · exact .inl ⟨passed, read⟩
    · exact .inr ⟨c, _, code, fun idle => (State.logFails_mem _ a l).trans (s.snooped_idle_mem addr idle), read⟩
  · next c refused => exact .inr ⟨_, s, refused, fun _ => rfl, rfl⟩

end

/-- Settles O39: a write by its granules after the snoop and the fill it met; a read by its three outcomes. -/
theorem memoryAccess : Obligations.MemoryAccess := by
  refine ⟨fun s a right addr l m hm => ?write, fun s a right addr n => ?read⟩
  case write =>
    obtain ⟨written, keeps, aside⟩ : s.Writes addr l m := by
      simp only [List.mem_cons, List.not_mem_nil, or_false] at hm
      rcases hm with rfl | rfl
      · exact s.writes_memWrite a addr l right
      · exact s.writes_rawWrite a addr l
    exact ⟨written, fun x outside free => keeps.cells x ⟨outside, free⟩, keeps.wf, aside.core, aside.fab, keeps.keyGen⟩
  case read =>
    rcases s.memRead_cases a addr right n with ⟨passed, answer⟩ | ⟨c, u, code, stands, answer⟩
    · rw [answer]
      have kept := s.keepsBytes_snooped false addr n
      refine ⟨fun _ h => cellsRead_eq addr n (kept.wf h), fun code => absurd rfl code, fun idle => s.snooped_idle_mem addr idle,
        fun _ idle unheld => ?_, fun f hf bad => absurd passed (State.checkSpan_refused hf bad)⟩
      rw [State.snoop_read_idle unheld]
      exact State.fillMet_idle addr n idle
    · rw [answer]
      exact ⟨fun ok => absurd ok code, fun _ => rfl, stands, fun ok => absurd ok code, fun _ _ _ => code⟩

end Sys2Proof.Machine
end

section
/-! The host region, CXL.mem, region-table entries and the fill engine (R289 to R291, R297 to R301, R307 to R310, R327, R727). -/
set_option autoImplicit false
namespace Sys2Proof.Machine

/-! ## MEM_HOST (R289, R290) -/

section
variable {s : State} {w : Who} {v : Nat} (reach : s.reaches w = true) (free : s.barred w .MEM_HOST 0 v = .none)
  (acts : s.isStatus .MEM_HOST 0 v = false)
include reach free acts

/-- Below the crash dump's frames, a host region may be enabled while there is none. -/
theorem exec_memHostWrite_taken (off : s.fon MEM_HOST.EN 0 = false)
    (fits : MEM_HOST.BASE.val v + MEM_HOST.SIZE_M1.val v < 261632) :
    exec (.memHostWrite w v) s = .next ((s.clrW1C .MEM_HOST 0 v).putRW .MEM_HOST 0 v) := by
  have good : s.memHostBad v = false := by simp [State.memHostBad, off, dumpFrame, Nat.not_le.mpr fits]
  have row : exec (.memHostWrite w v) s = .next (memHostWriteStep w v s) := rfl
  rw [row, memHostWriteStep, reach, State.when_true, State.regWrite_taken free acts good]

/-- Every write is rejected while one is enabled. -/
theorem exec_memHostWrite_rejected (on : s.fon MEM_HOST.EN 0 = true) :
    exec (.memHostWrite w v) s = .next (s.fset MEM_HOST.REJ 0 1) := by
  have bad : s.memHostBad v = true := by simp [State.memHostBad, on]
  have row : exec (.memHostWrite w v) s = .next (memHostWriteStep w v s) := rfl
  rw [row, memHostWriteStep, reach, State.when_true, State.regWrite_rejected free acts bad]
  rfl

end

/-! ## CXL.mem (R291, R301) -/

section
variable {s : State} {x : Nat} (up : s.cxlUp = true)
include up

/-- A read outside the host region is answered with poison and logged. -/
theorem exec_cxlMemRead_outside (outside : s.hdmAddr x = none) :
    exec (.cxlMemRead x []) s = .next ((s.emit .poison).logC 0x0108) := by
  have row : exec (.cxlMemRead x []) s = .next (cxlMemReadStep x [] s) := rfl
  rw [row, cxlMemReadStep, up, State.when_true, State.markBad_nil]
  simp only [outside]

/-- A write outside it is dropped and logged. -/
theorem exec_cxlMemWrite_outside (b : List Byte) (en : Nat) (outside : s.hdmAddr x = none) :
    exec (.cxlMemWrite x b en) s = .next (s.logC 0x0108) := by
  have row : exec (.cxlMemWrite x b en) s = .next (cxlMemWriteStep x b en s) := rfl
  rw [row, cxlMemWriteStep, up, State.when_true]
  simp only [outside]

/-- A read inside it that succeeds is answered with its line, which the host die may then hold. -/
theorem exec_cxlMemRead_inside {a : Nat} {b : List Byte} (inside : s.hdmAddr x = some a)
    (read : s.hostRead ⟨0, 0, none, 6⟩ a 64 = ⟨0, b, s⟩) :
    exec (.cxlMemRead x []) s = .next ((s.hostHolds (a / 64)).emit (.line b)) := by
  have row : exec (.cxlMemRead x []) s = .next (cxlMemReadStep x [] s) := rfl
  rw [row, cxlMemReadStep, up, State.when_true, State.markBad_nil]
  simp only [inside, read, if_true]

/-- A write inside it replaces a line's enabled bytes, or does nothing where key slot 0 or the stack refuses it. -/
theorem exec_cxlMemWrite_inside {a : Nat} (b : List Byte) (en : Nat) (inside : s.hdmAddr x = some a) :
    exec (.cxlMemWrite x b en) s = .next (s.hostUpdate ⟨0, 0, none, 7⟩ a 64 fun old => mergeLine old b en).st := by
  have row : exec (.cxlMemWrite x b en) s = .next (cxlMemWriteStep x b en s) := rfl
  rw [row, cxlMemWriteStep, up, State.when_true]
  simp only [inside]

end

/-- An update for the host die that is not refused, while no fill runs. -/
theorem State.hostUpdate_idle {s : State} (a : Party) {addr n : Nat} (f : List Byte → List Byte) (passed : s.checkRaw addr n = 0)
    (idle : s.fon MEM_FILL_CTL.BUSY 0 = false) :
    s.hostUpdate a addr n f = s.writeGrans a (fun _ => 0) addr (f (cellsRead s.mem.bytes addr n)) := by
  simp only [State.hostUpdate, passed, State.fillMet_idle addr n idle]

/-- A refused one leaves the state as it is. -/
theorem State.hostUpdate_refused {s : State} (a : Party) {addr n : Nat} (f : List Byte → List Byte) (refused : s.checkRaw addr n ≠ 0) :
    (s.hostUpdate a addr n f).st = s := by
  unfold State.hostUpdate
  split
  · next passed => exact absurd passed refused
  · rfl

/-! ## Region entries (R297 to R300) -/

section
variable {s : State} {w : Who} {i k v : Nat} (entry : i < 4096) (word : k < 2) (reach : s.reaches w = true)
  (free : s.barred w .MEM_RGN i (s.entryWord i k v) = .none) (acts : s.isStatus .MEM_RGN i (s.entryWord i k v) = false)
include entry word reach free acts

/-- A write that reaches an entry is rejected and logged, or the checkers keep the entry as it was while the table takes it. -/
theorem exec_regionEntryWrite : exec (.regionEntryWrite w i k v) s = .next
    (if s.rgnReject i k (s.entryWord i k v) then (s.fset MEM_RGN_STATUS.REJ 0 1).logC 0x0107
     else ((s.holdEntry i).putRW .MEM_RGN i (s.entryWord i k v)).fset MEM_RGN_STATUS.PEND 0 1) := by
  have row : exec (.regionEntryWrite w i k v) s = need (decide (i < 4096) && decide (k < 2)) (regionEntryWriteStep w i k v s) := rfl
  rw [row, decide_eq_true entry, decide_eq_true word, Bool.and_self, need_true, regionEntryWriteStep, reach, State.when_true]
  simp only [free, acts, Bool.false_eq_true, if_false]
  rfl

end

/-- Once every change has reached the checkers, they hold the table. -/
theorem gives_regionChangeApplied {s : State} (up : s.hubUp = true) : Gives .regionChangeApplied s fun t =>
    t.fget MEM_RGN_STATUS.PEND 0 = 0 ∧ (∀ f i, t.rgn f i = t.fget f i) ∧ s.sameRegsBut t [.MEM_RGN_STATUS] := by
  have row : exec .regionChangeApplied s =
      .next (s.when s.hubUp fun s => { s with mem := { s.mem with pendRgn := [] } }.fset MEM_RGN_STATUS.PEND 0 0) := rfl
  refine ⟨_, by rw [row, up, State.when_true], State.fget_fset_same _ _ _ _, fun f i => rfl, ?_⟩
  exact .fset (s.sameRegsBut_of_regs _ rfl) (by decide) (by decide) (by decide)

/-! ## The fill engine (R307 to R310, R727) -/

section
variable {s : State} {w : Who} {v : Nat} (reach : s.reaches w = true) (free : s.barred w .MEM_FILL_CTL 0 v = .none)
  (acts : s.isStatus .MEM_FILL_CTL 0 v = false)
  (may : w ≠ .ns ∨ s.nsFill (MEM_FILL_CTL.KEY.val v) (MEM_FILL_CTL.FIRST.val v)
    (MEM_FILL_CTL.FIRST.val v + MEM_FILL_CTL.NUM_M1.val v) = true)
include reach may

/-- A requester that may start the fill it asks for is judged by the register's own rule. -/
theorem exec_memFillGo_may : exec (.memFillGo w v) s = .next (s.regWrite w .MEM_FILL_CTL 0 v (fun s => s.fillBad v) fun s =>
    if MEM_FILL_CTL.GO.bit v then (s.putRW .MEM_FILL_CTL 0 v).fillGo else s.putRW .MEM_FILL_CTL 0 v) := by
  have row : exec (.memFillGo w v) s = .next (memFillGoStep w v s) := rfl
  rw [row, memFillGoStep, reach, State.when_true, if_neg]
  rintro ⟨ns, -, -, barred⟩
  rcases may with other | allowed
  · exact other ns
  · rw [allowed] at barred
    cases barred

include free acts

/-- A fill that the rule rejects is not started. -/
theorem exec_memFillGo_rejected (bad : s.fillBad v = true) : exec (.memFillGo w v) s = .next (s.fset MEM_FILL_CTL.REJ 0 1) := by
  rw [exec_memFillGo_may reach may, State.regWrite_rejected free acts bad]
  rfl

/-- Any other is. -/
theorem exec_memFillGo_taken (good : s.fillBad v = false) (go : MEM_FILL_CTL.GO.bit v = true) :
    exec (.memFillGo w v) s = .next ((s.clrW1C .MEM_FILL_CTL 0 v).putRW .MEM_FILL_CTL 0 v).fillGo := by
  rw [exec_memFillGo_may reach may, State.regWrite_taken free acts good, if_pos go]

end

/-- A fill ends with its frames filled. -/
theorem exec_fillDone {s : State} (up : s.hubUp = true) (busy : s.fon MEM_FILL_CTL.BUSY 0 = true) :
    exec .fillDone s = .next ((s.doFill.fset MEM_FILL_CTL.BUSY 0 0).fset MEM_FILL_CTL.DONE 0 1) := by
  have row : exec .fillDone s = .next (s.when (s.hubUp && s.fon MEM_FILL_CTL.BUSY 0) fun s =>
    (s.doFill.fset MEM_FILL_CTL.BUSY 0 0).fset MEM_FILL_CTL.DONE 0 1) := rfl
  rw [row, up, busy, Bool.and_self, State.when_true]

/-- Filled frames read 0, but for the granules kept. -/
theorem State.cellAt_fillFrames (s : State) {lo hi x : Nat} (slot : Nat) {kept : List Nat} (above : lo ≤ x / 2 ^ 21)
    (below : x / 2 ^ 21 ≤ hi) (fresh : kept.contains (x / 128) = false) :
    cellAt (s.fillFrames lo hi slot kept).mem.bytes x = 0 := by
  refine cellAt_unlisted fun c hc hx => ?_
  have keep := (List.mem_filter.mp hc).2
  have frame : x / 128 / 16384 = x / 2 ^ 21 := Nat.div_div_eq_div_mul x 128 16384
  simp only [hx, granOf_eq, fresh, frame, Bool.or_eq_true, decide_eq_true_eq, Bool.false_eq_true, or_false] at keep
  omega

/-- Settles O40: each register by the rule that takes or rejects a write of it, CXL.mem by where the line lies, and a fill by what is left
of its frames. -/
theorem hostMemory : Obligations.HostMemory := by
  refine ⟨?host, ?cxl, ?entry, fun s => gives_regionChangeApplied, ?go, ?done⟩
  case host =>
    intro s w v reach free acts
    exact ⟨fun off _ fits => exec_memHostWrite_taken reach free acts off fits, exec_memHostWrite_rejected reach free acts⟩
  case cxl =>
    intro s x up
    refine ⟨fun outside => ⟨exec_cxlMemRead_outside up outside, fun b en => exec_cxlMemWrite_outside up b en outside⟩,
      fun a b inside read => exec_cxlMemRead_inside up inside read, fun a b en inside => ?_⟩
    rw [exec_cxlMemWrite_inside up b en inside]
    exact ⟨fun passed idle => by rw [State.hostUpdate_idle _ _ passed idle], fun refused => by rw [State.hostUpdate_refused _ _ refused]⟩
  case entry =>
    intro s w i k v entry word reach full free acts
    rw [exec_regionEntryWrite entry word reach free acts]
    exact ⟨fun bad => by rw [if_pos bad], fun good => by rw [if_neg (by simp [full, good])]⟩
  case go =>
    intro s w v reach free acts may
    exact ⟨exec_memFillGo_rejected reach free acts may, exec_memFillGo_taken reach free acts may⟩
  case done =>
    intro s up busy
    exact ⟨exec_fillDone up busy, fun x above below fresh => s.cellAt_fillFrames (s.fget MEM_FILL_CTL.KEY 0) above below fresh⟩

end Sys2Proof.Machine
end

section
/-! Repair, training and refresh of a stack, and the read of its status (R315 to R322, R640). -/
set_option autoImplicit false
namespace Sys2Proof.Machine

/-! ## A repair starts (R315) -/

/-- A repair command's word has `GO` 1. -/
theorem repairWord_go (stack op pc row : Nat) : MEM_REPAIR_CMD.GO.bit (repairWord stack op pc row) = true := by
  simp only [Fld.bit, repairWord, MEM_REPAIR_CMD.GO, Nat.testBit_zero, Nat.shiftLeft_eq, decide_eq_true_eq]
  omega

/-- Its fields hold the stack, the operation, the pseudo-channel and the row that it was made of. -/
theorem repairWord_fields {stack op pc row : Nat} (hs : stack < 16) (ho : op < 4) (hp : pc < 64) (hr : row < 2 ^ 20) :
    MEM_REPAIR_CMD.STACK.val (repairWord stack op pc row) = stack ∧ MEM_REPAIR_CMD.OP.val (repairWord stack op pc row) = op ∧
    MEM_REPAIR_CMD.PC.val (repairWord stack op pc row) = pc ∧ MEM_REPAIR_CMD.ROW.val (repairWord stack op pc row) = row := by
  simp only [Fld.val, bitsOf, repairWord, MEM_REPAIR_CMD.STACK, MEM_REPAIR_CMD.OP, MEM_REPAIR_CMD.PC, MEM_REPAIR_CMD.ROW,
    Nat.shiftLeft_eq, Nat.shiftRight_eq_div_pow]
  omega

/-- What an accepted repair command comes to: `FULL` where the stack's share is used up, and a repair under way otherwise. -/
def State.repairBegun (s : State) (stack op pc row : Nat) : State :=
  let u := (s.clrW1C .MEM_REPAIR_CMD 0 (repairWord stack op pc row)).putRW .MEM_REPAIR_CMD 0 (repairWord stack op pc row)
  if u.repairFull stack op = true then u.fset MEM_REPAIR_CMD.FULL 0 1
  else { u with mem := { u.mem with repair := some ⟨op, stack, pc, row⟩ } }.fset MEM_REPAIR_CMD.BUSY 0 1

/-- A command for a stack that is there, while no repair runs, is accepted. -/
theorem repairStep_taken {s : State} {w : Who} {stack op pc row : Nat} (hs : stack < 12) (ho : op < 3) (hp : pc < 64) (hr : row < 2 ^ 20)
    (reach : s.reaches w = true) (free : s.barred w .MEM_REPAIR_CMD 0 (repairWord stack op pc row) = .none)
    (acts : s.isStatus .MEM_REPAIR_CMD 0 (repairWord stack op pc row) = false) (idle : s.fon MEM_REPAIR_CMD.BUSY 0 = false) :
    repairStep w stack op pc row s = s.repairBegun stack op pc row := by
  obtain ⟨hS, hO, hP, hR⟩ := repairWord_fields (stack := stack) (op := op) (by omega) (by omega) hp hr
  rw [repairStep, repairWrite, reach, State.when_true]
  simp only [repairWord_go, hS, hO, hP, hR]
  rw [State.regWrite_taken free acts (by simp [idle]; omega)]
  rfl

/-! ## A repair ends (R316) -/

/-- Granules reported uncorrectable change only what can be read of memory. -/
theorem State.markBad_eq (s : State) (v : Nat) (gs : List Nat) : ∃ b, s.markBad v gs = { s with mem := { s.mem with bad := b } } := by
  unfold State.markBad
  induction gs generalizing s with
  | nil => exact ⟨s.mem.bad, rfl⟩
  | cons g gs ih =>
    obtain ⟨b, rest⟩ := ih { s with mem := { s.mem with bad := tset s.mem.bad g v 0 } }
    exact ⟨b, by rw [List.foldl_cons, rest]⟩

/-- So does the copy of a repair, which `OP` 2 leaves out. -/
theorem State.copied_eq (s : State) (op : Nat) (lost : List Nat) :
    ∃ b, (if op = 2 then s else s.markBad 2 lost) = { s with mem := { s.mem with bad := b } } := by
  split
  · exact ⟨s.mem.bad, rfl⟩
  · exact s.markBad_eq 2 lost

section
variable {s : State} {r : Repair} (up : s.hubUp = true) (runs : s.mem.repair = some r)
include up runs

/-- A substituted pseudo-channel uses one of its stack's and is recorded as fenced. -/
theorem exec_repairDone_substituted (sppr : Bool) (lost : List Nat) (hop : r.op = 1) :
    (let u := { s with mem := { s.mem with repair := none } }.fset MEM_REPAIR_CMD.BUSY 0 0
     exec (.repairDone sppr lost) s =
       .next (((u.markBad 2 lost).fsat MEM_STK_STATUS.SPC_USED r.stack 1).recordFence 9 3 (r.stack + r.pc * 16))) := by
  have row : exec (.repairDone sppr lost) s = .next (repairDoneStep sppr lost s) := rfl
  rw [row, repairDoneStep, up, State.when_true]
  simp only [runs, hop, if_true, Nat.reduceEqDiff, if_false, Nat.shiftLeft_eq, Nat.reducePow]

/-- A row remapped, not by soft repair inside the stack, stands among the remaps and uses one of its stack's entries. -/
theorem gives_repairDone_remapped (lost : List Nat) (hop : r.op ≠ 1) (hstack : r.stack < 12) :
    Gives (.repairDone false lost) s fun t => t.mem.remaps = s.mem.remaps ++ [(r.stack, r.pc, r.row)] ∧
      t.fget MEM_STK_STATUS.ROWS_USED r.stack = (s.fget MEM_STK_STATUS.ROWS_USED r.stack + 1) % 2 ^ 17 := by
  have row : exec (.repairDone false lost) s = .next (repairDoneStep false lost s) := rfl
  have rows : (s.fset MEM_REPAIR_CMD.BUSY 0 0).fget MEM_STK_STATUS.ROWS_USED r.stack = s.fget MEM_STK_STATUS.ROWS_USED r.stack :=
    State.fget_fset_reg _ (by decide) (by decide) (by omega) (by decide) (by decide)
  obtain ⟨b, copied⟩ := State.copied_eq ({ s with mem := { s.mem with repair := none } }.fset MEM_REPAIR_CMD.BUSY 0 0) r.op lost
  rw [Gives, row, repairDoneStep, up, State.when_true]
  simp only [runs, if_neg hop, Bool.false_eq_true, if_false, copied]
  refine ⟨_, rfl, rfl, ?_⟩
  rw [State.fget_fset_same, ← rows]
  rfl

end

/-! ## Training (R318 to R320, R640) -/

/-- A stack that is there is a good operand. -/
theorem need_stack {k : Nat} (hk : k < 12) (s : State) : need (wfStack k) s = .next s := if_pos (decide_eq_true hk)

/-- What `MEM_TRAIN.GO` comes to: turned away until RECORD has passed, ignored while a training runs, and a training otherwise. -/
theorem exec_memTrainGo {s : State} {w : Who} {v : Nat} (reach : s.reaches w = true) (free : s.barred w .MEM_TRAIN 0 v = .none)
    (acts : s.isStatus .MEM_TRAIN 0 v = false) (go : MEM_TRAIN.GO.bit v = true) :
    (let u := s.clrW1C .MEM_TRAIN 0 v
     exec (.memTrainGo w v) s = .next (if !(u.fget GCTL_BOOT_STAT.PASSED 0).testBit 4 then u.logC 0x0619
       else if u.fon MEM_TRAIN.BUSY 0 then u else u.trainGo)) := by
  have row : exec (.memTrainGo w v) s = .next (memTrainGoStep w v s) := rfl
  dsimp only
  rw [row, memTrainGoStep, reach, State.when_true, State.regWrite_taken free acts rfl, if_pos go]

/-- A stack whose pseudo-channels all pass is trained and out of self-refresh. -/
def State.stackTrained (s : State) (k : Nat) : State := (s.fset MEM_STK_STATUS.TRAINED k 1).fset MEM_STK_STATUS.SREF k 0

/-- Its bit joins `DONE`, and `BUSY` falls with the last. -/
def State.trainEnded (s : State) (k : Nat) : State :=
  let d := s.fget MEM_TRAIN.DONE 0 ||| 2 ^ k
  if d = 4095 then (s.fset MEM_TRAIN.DONE 0 d).fset MEM_TRAIN.BUSY 0 0 else s.fset MEM_TRAIN.DONE 0 d

section
variable {s : State} {k : Nat} (hk : k < 12)
include hk

/-- A stack that trains without a fault, from no retained settings. -/
theorem exec_trainStackDone_passed (up : s.hubUp = true) (busy : s.fon MEM_TRAIN.BUSY 0 = true)
    (waits : (s.fget MEM_TRAIN.DONE 0).testBit k = false) (anew : s.fon MEM_TRAIN.RETAINED 0 = false) :
    exec (.trainStackDone k [] false []) s = .next ((s.stackTrained k).trainEnded k) := by
  have row : exec (.trainStackDone k [] false []) s = need (wfStack k) (trainStackDoneStep k [] false [] s) := rfl
  rw [row, need_stack hk, trainStackDoneStep, up, busy, waits, Bool.not_false, Bool.and_self, Bool.and_self, State.when_true]
  simp only [Bool.false_or, List.length_nil, Nat.not_lt_zero, decide_false, Bool.false_eq_true, if_false, List.foldl_nil, anew]
  rfl

/-- The marks of a trained stack. -/
theorem State.stackTrained_shows : (s.stackTrained k).fget MEM_STK_STATUS.TRAINED k = 1 ∧
    (s.stackTrained k).fget MEM_STK_STATUS.SREF k = 0 := by
  refine ⟨?_, State.fget_fset_same _ _ _ _⟩
  have apart : MEM_STK_STATUS.TRAINED.key k ≠ MEM_STK_STATUS.SREF.key k :=
    Fld.key_ne_of_ne (by decide) (by decide) (by omega) (by omega) (by decide)
  rw [State.stackTrained, State.fget_fset_ne _ _ _ _ _ _ apart]
  exact State.fget_fset_same _ _ _ _

/-- They stand in its status alone. -/
theorem State.sameRegsBut_stackTrained : s.sameRegsBut (s.stackTrained k) [.MEM_STK_STATUS] :=
  (s.sameRegsBut_fset (by decide) (by omega) (by decide)).fset (by decide) (by omega) (by decide)

end

section
variable (s : State) (k : Nat)

/-- The end of a stack's training stands in `MEM_TRAIN` alone. -/
theorem State.sameRegsBut_trainEnded : s.sameRegsBut (s.trainEnded k) [.MEM_TRAIN] := by
  have done := s.sameRegsBut_fset (f := MEM_TRAIN.DONE) (i := 0) (v := s.fget MEM_TRAIN.DONE 0 ||| 2 ^ k) (rs := [.MEM_TRAIN])
    (by decide) (by decide) (by decide)
  unfold State.trainEnded
  dsimp only
  split
  · exact done.fset (by decide) (by decide) (by decide)
  · exact done

/-- What `MEM_TRAIN` shows of it. -/
theorem State.trainEnded_shows :
    (s.trainEnded k).fget MEM_TRAIN.DONE 0 = (s.fget MEM_TRAIN.DONE 0 ||| 2 ^ k) % 2 ^ 12 ∧
    (s.fget MEM_TRAIN.DONE 0 ||| 2 ^ k = 4095 → (s.trainEnded k).fget MEM_TRAIN.BUSY 0 = 0) := by
  unfold State.trainEnded
  dsimp only
  split
  · refine ⟨?_, fun _ => State.fget_fset_same _ _ _ _⟩
    rw [State.fget_fset_ne _ _ _ _ _ _ (by decide)]
    exact State.fget_fset_same _ _ _ _
  · next more => exact ⟨State.fget_fset_same _ _ _ _, fun all => absurd all more⟩

end

/-! ## Refresh (R321, R322) -/

/-- One bit of a word, put to what is asked of it by adding it or taking it away. -/
def withBit (m k : Nat) (b : Bool) : Nat := if m.testBit k = b then m else if b then m + 2 ^ k else m - 2 ^ k

/-- The bit then holds it. -/
theorem testBit_withBit (m k : Nat) (b : Bool) : (withBit m k b).testBit k = b := by
  unfold withBit
  split
  · assumption
  · next differs =>
    cases b with
    | true =>
      rw [if_pos rfl, Nat.add_comm, Nat.testBit_two_pow_add_eq]
      simpa using differs
    | false =>
      have held : m.testBit k = true := by simpa using differs
      have rest := Nat.testBit_two_pow_add_eq (m - 2 ^ k) k
      rw [Nat.add_sub_cancel' (Nat.ge_two_pow_of_testBit held), held] at rest
      simpa using rest.symm

section
variable {s : State} {k temp : Nat} (hk : k < 12)
include hk

/-- A refresh of a stack that its controller serves takes the temperature and sets the rate. -/
theorem exec_hbmRefresh_served (up : s.up = true) (awake : s.fon MEM_STK_STATUS.SREF k = false)
    (whole : s.fon MEM_STK_STATUS.FENCED k = false) : exec (.hbmRefresh k temp) s =
      .next ({ s with mem := { s.mem with fastRefresh := withBit s.mem.fastRefresh k (decide (85 < temp)) } }.fset
        MEM_STK_STATUS.TEMP k temp) := by
  have row : exec (.hbmRefresh k temp) s = need (wfStack k) (hbmRefreshStep k temp s) := rfl
  rw [row, need_stack hk, hbmRefreshStep, up, awake, whole, Bool.not_false, Bool.and_self, Bool.and_self, State.when_true]
  rfl

/-- One of a stack in self-refresh or fenced does nothing. -/
theorem exec_hbmRefresh_unserved (out : s.fon MEM_STK_STATUS.SREF k = true ∨ s.fon MEM_STK_STATUS.FENCED k = true) :
    exec (.hbmRefresh k temp) s = .next s := by
  have row : exec (.hbmRefresh k temp) s = need (wfStack k) (hbmRefreshStep k temp s) := rfl
  have unserved : (s.up && !s.fon MEM_STK_STATUS.SREF k && !s.fon MEM_STK_STATUS.FENCED k) = false := by
    rcases out with h | h <;> simp [h]
  rw [row, need_stack hk, hbmRefreshStep, unserved, State.when_false]

/-! ## A stack's status (R317) -/

/-- A read of a stack's status reports its corrected errors and clears their count. -/
theorem exec_memStkStatusRead {w : Who} (ce : Nat) (up : s.hubUp = true) (host : w ≠ .mc) :
    (let u := s.fsat MEM_STK_STATUS.CE_COUNT k ce
     exec (.memStkStatusRead w k ce) s = .next ((u.emit (.read (u.regWord .MEM_STK_STATUS k))).fset MEM_STK_STATUS.CE_COUNT k 0)) := by
  have row : exec (.memStkStatusRead w k ce) s = need (wfStack k) (memStkStatusReadStep w k ce s) := rfl
  dsimp only
  rw [row, need_stack hk, memStkStatusReadStep, up, decide_eq_true host, Bool.and_self, State.when_true]

end

/-- Settles O41: the three repair commands are one rule, an end of training is the stack's marks and the engine's, and a refresh turns on
whether the stack's controller serves it. -/
theorem stackCare : Obligations.StackCare := by
  refine ⟨?start, ?done, ?go, ?trained, ?refresh, ?status⟩
  case start =>
    intro s w stack pc row hs hp hr reach op ho free acts idle
    have taken : repairStep w stack op pc (if op = 1 then 0 else row) s = s.repairBegun stack op pc (if op = 1 then 0 else row) :=
      repairStep_taken hs ho hp (by split <;> omega) reach free acts idle
    have named : (wfStack stack && decide (pc < 64)) = true := by simp [wfStack, hs, hp]
    have placed : (wfStack stack && decide (pc < 64) && decide (row < 2 ^ 20)) = true := by rw [named, decide_eq_true hr]; rfl
    refine ⟨?_, ?_, ?_⟩
    · rintro rfl
      have cmd : exec (.repairRemapRow w stack pc row) s =
        need (wfStack stack && decide (pc < 64) && decide (row < 2 ^ 20)) (repairStep w stack 0 pc row s) := rfl
      rw [cmd, placed]
      exact congrArg _ taken
    · rintro rfl
      have cmd : exec (.repairSubstitutePc w stack pc) s = need (wfStack stack && decide (pc < 64)) (repairStep w stack 1 pc 0 s) := rfl
      rw [cmd, named]
      exact congrArg _ taken
    · rintro rfl
      have cmd : exec (.repairLoadRowRemap w stack pc row) s =
        need (wfStack stack && decide (pc < 64) && decide (row < 2 ^ 20)) (repairStep w stack 2 pc row s) := rfl
      rw [cmd, placed]
      exact congrArg _ taken
  case done =>
    intro s sppr lost r up runs hstack
    refine ⟨exec_repairDone_substituted up runs sppr lost, ?_⟩
    rintro hop rfl
    exact gives_repairDone_remapped up runs lost hop hstack
  case go =>
    intro s w v reach free acts go
    rw [exec_memTrainGo reach free acts go]
    exact ⟨fun early => by rw [early]; rfl, fun passed idle => by rw [passed, idle]; rfl, fun passed busy => by rw [passed, busy]; rfl⟩
  case trained =>
    intro s k hk up busy waits anew
    have marks := s.sameRegsBut_stackTrained hk
    have ends := (s.stackTrained k).sameRegsBut_trainEnded k
    obtain ⟨done, last⟩ := (s.stackTrained k).trainEnded_shows k
    obtain ⟨trained, awake⟩ := s.stackTrained_shows hk
    have before := marks.fget MEM_TRAIN.DONE (by decide) (by decide) (i := 0) (by decide)
    rw [before] at done last
    refine ⟨_, exec_trainStackDone_passed hk up busy waits anew, ?_, ?_, done, last, ?_⟩
    · rw [ends.fget _ (by decide) (by decide) (by omega), trained]
    · rw [ends.fget _ (by decide) (by decide) (by omega), awake]
    · exact State.sameRegsBut_trans (State.sameRegsBut_mono marks (by decide)) (State.sameRegsBut_mono ends (by decide))
  case refresh =>
    intro s k temp hk up
    exact ⟨fun awake whole => ⟨_, exec_hbmRefresh_served hk up awake whole, rfl, testBit_withBit _ _ _, rfl⟩,
      exec_hbmRefresh_unserved hk⟩
  case status => exact fun s w k ce hk up host => exec_memStkStatusRead hk ce up host

end Sys2Proof.Machine
end

section
/-! The completion record: what a command's completion leaves of it (R351, R355). -/
set_option autoImplicit false
namespace Sys2Proof.Machine

/-! ## A notification leaves the commands alone (R356) -/

@[simp] theorem State.msix_cmds (s : State) (v : Nat) : (s.msix v).cfe.cmds = s.cfe.cmds := by
  unfold State.msix
  split <;> rfl

@[simp] theorem State.msix_dones (s : State) (v : Nat) : (s.msix v).cfe.dones = s.cfe.dones := by
  unfold State.msix
  split <;> rfl

/-! ## What is done before a completion is notified (R351) -/

section
variable (s : State) (c : Cmd) (status : Nat)

/-- The write of the completion record at the place of `CTAIL`. -/
def State.cplWrite : MemRes :=
  s.rawWrite (s.accOf (c.ring / 32) 2) (s.fget CFE_RING_CPL.BASE c.ring * 4096 +
    64 * (s.fget CFE_RING_CPTR.CTAIL c.ring % 2 ^ s.fget CFE_RING_CPL.J c.ring)) (leBytes 64 (s.cplWord c status))

/-- The state with the record written, `CTAIL` one on, and nothing of the command left. -/
def State.recorded : State :=
  let u := ((s.cplWrite c status).st.fset CFE_RING_CPTR.CTAIL c.ring (s.fget CFE_RING_CPTR.CTAIL c.ring + 1)).dropWork c.ring c.seq
  { u with cfe := { u.cfe with
    cmds := u.cfe.cmds.filter (fun d => !d.is c.ring c.seq)
    dones := u.cfe.dones.filter (fun d => !(decide (d.1 = c.ring) && decide (d.2.1 = c.seq))) } }

/-- A completion is that state, with a message where the ring and the command ask for one. -/
theorem State.complete_eq : s.complete c status =
    if (s.recorded c status).fon CFE_RING_CPL.NOTIFY_EN c.ring && (CMD.NOTIFY.on c.word || decide (status ≠ 0)) then
      (s.recorded c status).msix ((s.recorded c status).fget CFE_RING_CPL.VEC c.ring)
    else s.recorded c status := by
  unfold State.complete State.recorded State.cplWrite
  rw [Nat.shiftLeft_eq]
  rfl

/-- The message changes none of what is done before it. -/
theorem State.complete_keeps_recorded : (s.complete c status).regs = (s.recorded c status).regs ∧
    (s.complete c status).mem = (s.recorded c status).mem ∧ (s.complete c status).core = (s.recorded c status).core ∧
    (s.complete c status).cfe.cmds = (s.recorded c status).cfe.cmds ∧
    (s.complete c status).cfe.dones = (s.recorded c status).cfe.dones := by
  rw [State.complete_eq]
  split <;> simp

/-- `CTAIL` counts to its width. -/
theorem State.recorded_ctail : (s.recorded c status).fget CFE_RING_CPTR.CTAIL c.ring =
    (s.fget CFE_RING_CPTR.CTAIL c.ring + 1) % 2 ^ 32 :=
  (s.cplWrite c status).st.fget_fset_same CFE_RING_CPTR.CTAIL c.ring _

/-- No command of the ring and number is left. -/
theorem State.recorded_cmds {d : Cmd} (h : d ∈ (s.recorded c status).cfe.cmds) : d.is c.ring c.seq = false := by
  simpa using (List.mem_filter.mp h).2

/-- No core holds a work list of it. -/
theorem State.recorded_rsds {r : Rsd} (h : r ∈ (s.recorded c status).core.rsds) : ¬ (r.ring = c.ring ∧ r.seq = c.seq) := by
  rintro ⟨ring, seq⟩
  have other := (List.mem_filter.mp h).2
  simp only [ring, seq, decide_true, Bool.and_self, Bool.not_true, Bool.false_eq_true] at other

/-- No done message of it is on its way. -/
theorem State.recorded_dones {d : Nat × Nat × Nat} (h : d ∈ (s.recorded c status).cfe.dones) :
    ¬ (d.1 = c.ring ∧ d.2.1 = c.seq) := by
  rintro ⟨ring, seq⟩
  have other := (List.mem_filter.mp h).2
  simp only [ring, seq, decide_true, Bool.and_self, Bool.not_true, Bool.false_eq_true] at other

end

/-- Settles O21: the message that follows leaves the record, `CTAIL` and the lists as they are, and the lists are filtered. -/
theorem completionRecord : Obligations.CompletionRecord := by
  intro s c status _ i w
  obtain ⟨regs, mem, core, cmds, dones⟩ := s.complete_keeps_recorded c status
  refine ⟨mem, ?_, ?_, ?_, ?_⟩
  · rw [State.fget, regs]
    exact s.recorded_ctail c status
  · exact fun d h => s.recorded_cmds c status (cmds ▸ h)
  · exact fun r h => s.recorded_rsds c status (core ▸ h)
  · exact fun d h => s.recorded_dones c status (dones ▸ h)

end Sys2Proof.Machine
end

section
/-! Doorbells and the registers of a ring (R331, R334 to R338, R369). -/
set_option autoImplicit false
namespace Sys2Proof.Machine

/-! ## A doorbell wakes the module (R369, R718) -/

/-- The module in PS0 is awake. -/
theorem State.wake_awake {s : State} (h : s.fget PWR_PSTATE.STATE 0 = 0) : s.wake = s :=
  if_neg (by omega)

/-- From PS1 to PS3 a wake ends in PS0. -/
theorem State.wake_idle {s : State} (h : 1 ≤ s.fget PWR_PSTATE.STATE 0) (h' : s.fget PWR_PSTATE.STATE 0 ≤ 3) :
    s.wake.fget PWR_PSTATE.STATE 0 = 0 := by
  rw [State.wake, if_pos ⟨h, h'⟩]
  simp (disch := decide) [State.fget_fset_ne]

/-! ## Doorbells (R336 to R338) -/

section
variable {s : State} {w : Who} {page v : Nat} (hpage : page < 8192) (reach : s.reaches w = true)
  (world : w = .s ∨ (w = .ns ∧ s.wake.ctxWorld (page / 32) = 0)) (enabled : s.wake.fon CFE_RING_CMD.EN page = true)
  (names : BELL.RING.of v = page)
include reach world enabled names

/-- A host's doorbell in its own world, at the page of the enabled ring that it names, wakes the module and is judged there. -/
theorem State.bell_answered (act : Bool → Nat → State → State) : s.bell w page v act = act true (BELL.IDX.of v) s.wake := by
  rcases world with rfl | ⟨rfl, own⟩
  · simp [State.bell, reach, enabled, names]
  · simp [State.bell, reach, enabled, names, ringCtx, own]

include hpage

/-- A tail that moves backward is judged first, and then the ring's size (R337, log 31). -/
theorem exec_commandDoorbell_answered : exec (.commandDoorbell w page v) s = .next
    (if 2 ^ 31 ≤ wrapSub 32 (BELL.IDX.of v) (s.wake.fget CFE_RING_PTR.TAIL page) then s.wake
     else if wrapSub 32 (BELL.IDX.of v) (s.wake.fget CFE_RING_PTR.HEAD page) ≤ 2 ^ s.wake.fget CFE_RING_CMD.K page then
       s.wake.fset CFE_RING_PTR.TAIL page (BELL.IDX.of v)
     else s.wake.bellBad page) := by
  have he : exec (.commandDoorbell w page v) s = need (decide (page < 8192)) (commandDoorbellStep w page v s) := rfl
  rw [he, decide_eq_true hpage, need_true, commandDoorbellStep, State.bell_answered reach world enabled names]
  simp only [Bool.true_and, decide_eq_true_eq]

/-- A head within the records written is taken (R338). -/
theorem exec_completionDoorbell_answered : exec (.completionDoorbell w page v) s = .next
    (if wrapSub 32 (BELL.IDX.of v) (s.wake.fget CFE_RING_CPTR.CHEAD page) ≤
        wrapSub 32 (s.wake.fget CFE_RING_CPTR.CTAIL page) (s.wake.fget CFE_RING_CPTR.CHEAD page) then
       s.wake.fset CFE_RING_CPTR.CHEAD page (BELL.IDX.of v)
     else s.wake.bellBad page) := by
  have he : exec (.completionDoorbell w page v) s = need (decide (page < 8192)) (completionDoorbellStep w page v s) := rfl
  rw [he, decide_eq_true hpage, need_true, completionDoorbellStep, State.bell_answered reach world enabled names]
  simp only [Bool.true_and, decide_eq_true_eq]

end

/-! ## A field beside its register's W1C bits -/

/-- Fields at two bits of one register's element have different keys. -/
theorem Fld.key_ne_beside {f g : Fld} {i : Nat} (hf : f.lsb < 1024) (hg : g.lsb < 1024) (h : f.lsb ≠ g.lsb) : f.key i ≠ g.key i := by
  simp only [Fld.key]
  omega

/-- What becomes of a register's W1C bits leaves its fields at other bits as they were. -/
theorem State.fget_clrW1C_beside (s : State) {r : Reg} {f : Fld} {i v : Nat} (hf : f.lsb < 1024)
    (h : ∀ g ∈ r.fields, g.acc = .w1c → f.lsb ≠ g.lsb) : (s.clrW1C r i v).fget f i = s.fget f i :=
  s.fget_clrW1C fun g hg acc => Fld.key_ne_beside hf (Reg.fields_ok _ g hg).2 (h g hg acc)

/-! ## The ring registers (R331, R334, R335) -/

/-- A write that enables a ring is accepted only of a ring that is not enabled. -/
theorem State.ringCmdBad_enabled {s : State} {r v : Nat} (ok : s.ringCmdBad r v = false) (en : CFE_RING_CMD.EN.bit v = true) :
    s.fon CFE_RING_CMD.EN r = false := by
  cases h : s.fon CFE_RING_CMD.EN r with
  | false => rfl
  | true => simp [State.ringCmdBad, h, en] at ok

/-- Enabling a ring sets its four indexes to 0. -/
theorem ringCmdEff_enables {s : State} {r v : Nat} (off : s.fon CFE_RING_CMD.EN r = false) (en : CFE_RING_CMD.EN.bit v = true) :
    ringCmdEff r v s = ((((s.putRW .CFE_RING_CMD r v).fset CFE_RING_PTR.HEAD r 0).fset CFE_RING_PTR.TAIL r 0).fset
      CFE_RING_CPTR.CHEAD r 0).fset CFE_RING_CPTR.CTAIL r 0 := by
  simp [ringCmdEff, off, en]

section
variable {s : State} {w : Who} {r v : Nat} (hr : r < 8192) (reach : s.reaches w = true)
include hr reach

/-- What a write of `CFE_RING_CMD` that reaches the module comes to. -/
theorem exec_cfeRingCmdWrite_reaching : exec (.cfeRingCmdWrite w r v) s =
    .next (s.regWrite w .CFE_RING_CMD r v (fun s => s.ringCmdBad r v) (ringCmdEff r v)) := by
  have he : exec (.cfeRingCmdWrite w r v) s = need (decide (r < 8192)) (cfeRingCmdWriteStep w r v s) := rfl
  rw [he, decide_eq_true hr, need_true, cfeRingCmdWriteStep, reach, State.when_true]

/-- What such a write of `CFE_RING_CPL` comes to: it is rejected while the ring is enabled (R334). -/
theorem exec_cfeRingCplWrite_reaching : exec (.cfeRingCplWrite w r v) s =
    .next (s.regWrite w .CFE_RING_CPL r v (fun s => s.fon CFE_RING_CMD.EN r) fun s => s.putRW .CFE_RING_CPL r v) := by
  have he : exec (.cfeRingCplWrite w r v) s = need (decide (r < 8192)) (cfeRingCplWriteStep w r v s) := rfl
  rw [he, decide_eq_true hr, need_true, cfeRingCplWriteStep, reach, State.when_true]

end

/-- Settles O19: each doorbell by how it is judged once it has woken the module, each ring register by whether its rule takes the
write; an enabling write finds the ring disabled, so its indexes are set to 0. -/
theorem ringsAndDoorbells : Obligations.RingsAndDoorbells := by
  refine ⟨?bells, fun s => State.wake_awake, fun s => State.wake_idle, ?enable, ?rejected, ?disabled, ?enabled⟩
  case bells =>
    rintro s _ w page v hpage reach rfl world enabled names
    have command := exec_commandDoorbell_answered hpage reach world enabled names
    refine ⟨fun forward fits => ?_, fun backward => ?_, fun within => ?_⟩
    · rw [command, if_neg (by omega), if_pos fits]
    · rw [command, if_pos backward]
    · rw [exec_completionDoorbell_answered hpage reach world enabled names, if_pos within]
  case enable =>
    intro s w r v hr reach free acts ok en
    have off : (s.clrW1C .CFE_RING_CMD r v).fon CFE_RING_CMD.EN r = false := by
      rw [State.fon, s.fget_clrW1C_beside (by decide) (by decide)]
      exact State.ringCmdBad_enabled ok en
    rw [exec_cfeRingCmdWrite_reaching hr reach, State.regWrite_taken free acts ok, ringCmdEff_enables off en]
  case rejected =>
    intro s w r v hr reach free acts bad
    rw [exec_cfeRingCmdWrite_reaching hr reach, State.regWrite_rejected free acts bad]
    rfl
  case disabled =>
    intro s w r v hr reach free acts off
    rw [exec_cfeRingCplWrite_reaching hr reach, State.regWrite_taken free acts off]
  case enabled =>
    intro s w r v hr reach free acts on
    rw [exec_cfeRingCplWrite_reaching hr reach, State.regWrite_rejected free acts on]
    rfl

end Sys2Proof.Machine
end

section
/-! The context table (R360 to R366, R588, R594). -/
set_option autoImplicit false
namespace Sys2Proof.Machine

/-! ## Configuration (R361) -/

/-- Enabling a context puts it in RUN with its counts at 0. -/
theorem ctxCfgEff_enables {s : State} {c v : Nat} (off : s.fon CTX_CFG.EN c = false) (en : CTX_CFG.EN.bit v = true) :
    ctxCfgEff c v s = (((s.putRW .CTX_CFG c v).fset CTX_STATE.STATE c 1).fset CTX_STATE.RESETS c 0).fset CTX_DIV.DIV c 0 := by
  simp [ctxCfgEff, off, en]

section
variable {s : State} {w : Who} {c : Nat} (hc : c < 256) (reach : s.reaches w = true)
include hc reach

/-- A write of `CTX_CFG` that its rule accepts. -/
theorem exec_ctxCfgWrite_taken {v : Nat} (free : s.barred w .CTX_CFG c v = .none) (acts : s.isStatus .CTX_CFG c v = false)
    (ok : s.ctxCfgBad c v = false) : exec (.ctxCfgWrite w c v) s = .next (ctxCfgEff c v (s.clrW1C .CTX_CFG c v)) := by
  have he : exec (.ctxCfgWrite w c v) s = need (decide (c < 256)) (ctxCfgWriteStep w c v s) := rfl
  rw [he, decide_eq_true hc, need_true, ctxCfgWriteStep, reach, State.when_true, State.regWrite_taken free acts ok]

/-! ## Control (R362) -/

/-- RESET of a context in RUN resets it. -/
theorem exec_ctxCtlReset_running (free : s.barred w .CTX_CTL c 1 = .none) (run : s.fget CTX_STATE.STATE c = 1) :
    exec (.ctxCtlReset w c) s = .next (s.ctxReset c 0x0707 0) := by
  have he : exec (.ctxCtlReset w c) s = need (decide (c < 256)) (ctxCtlWriteStep w c 1 s) := rfl
  rw [he, decide_eq_true hc, need_true, ctxCtlWriteStep, reach, State.when_true, State.regWrite_taken free rfl rfl]
  exact congrArg _ (if_pos (decide_eq_true run))

/-- RESUME of a halted context is judged by what may still hold it. -/
theorem exec_ctxCtlResume_halted (free : s.barred w .CTX_CTL c 2 = .none) (halted : s.fget CTX_STATE.STATE c = 3) :
    exec (.ctxCtlResume w c) s = .next (s.resume c) := by
  have he : exec (.ctxCtlResume w c) s = need (decide (c < 256)) (ctxCtlWriteStep w c 2 s) := rfl
  rw [he, decide_eq_true hc, need_true, ctxCtlWriteStep, reach, State.when_true, State.regWrite_taken free rfl rfl]
  exact congrArg _ (if_pos (decide_eq_true halted))

/-- DIV_CLR clears the count of divergences. -/
theorem exec_divClr_admitted (free : s.barred w .CTX_CTL c 4 = .none) :
    exec (.divClr w c) s = .next (s.fset CTX_DIV.DIV c 0) := by
  have he : exec (.divClr w c) s = need (decide (c < 256)) (ctxCtlWriteStep w c 4 s) := rfl
  rw [he, decide_eq_true hc, need_true, ctxCtlWriteStep, reach, State.when_true, State.regWrite_taken free rfl rfl]
  rfl

end

/-- A halted context that no investigation suspects, of a module in the pool and a partition that is not scrubbed, runs again. -/
theorem State.resume_free {s : State} {c : Nat} (clear : s.suspect c = false) (pooled : s.fon SPARE_ESC.WITHDRAWN 0 = false)
    (unscrubbed : s.scrubbing (s.ctxPart c) = false) : s.resume c = s.fset CTX_STATE.STATE c 1 := by
  simp [State.resume, clear, pooled, unscrubbed]

/-! ## Hangs (R365) -/

/-- A command without progress for its context's `HANG` milliseconds takes a capture and resets its context. -/
theorem exec_hangTimeout_hung {s : State} {ring seq : Nat} {c : Cmd} (hr : ring < 8192) (live : s.live = true)
    (hat : s.cmdAt ring seq = some c) (launched : c.launched = true) (limit : s.fget CTX_CFG.HANG (ring / 32) ≠ 0)
    (run : s.fget CTX_STATE.STATE (ring / 32) = 1)
    (late : c.lastProg + s.fget CTX_CFG.HANG (ring / 32) * 1000000 ≤ s.time.run) :
    exec (.hangTimeout ring seq) s = .next
      ((s.trigger 1 ((s.core.rsds.filter fun r => decide (r.ring = ring) && decide (r.seq = seq)).map (·.site)) false
        (s.waitGraph ring seq)).ctxReset (ring / 32) 0x0706 (ring + (seq <<< 13))) := by
  have he : exec (.hangTimeout ring seq) s = need (decide (ring < 8192)) (hangTimeoutStep ring seq s) := rfl
  rw [he, decide_eq_true hr, need_true, hangTimeoutStep, hat]
  exact congrArg _ (if_pos (by simp [ringCtx, live, launched, limit, run, late]))

/-! ## The end of a reset (R363) -/

/-- With no command left to complete, a confirmed reset halts its context with the code that caused it, and counts. -/
theorem exec_contextResetDone_quiet {s : State} {c code : Nat} (hc : c < 256) (up : s.hubUp = true)
    (resetting : s.fget CTX_STATE.STATE c = 2) (quiet : s.cfe.cmds = []) (cause : s.cfe.rst = [(c, code)]) :
    exec (.contextResetDone c) s = .next ((({ s with cfe := { s.cfe with rst := [] } }.fset CTX_STATE.STATE c 3).fset
      CTX_STATE.LAST_ERR c code).fsat CTX_STATE.RESETS c 1) := by
  have he : exec (.contextResetDone c) s = need (decide (c < 256)) (contextResetDoneStep c s) := rfl
  simp [he, hc, contextResetDoneStep, up, resetting, quiet, cause, tget, tdel]

/-- Settles O22: each command by its own rule above; halting leaves the count of resets, which then goes one on. -/
theorem contexts : Obligations.Contexts := by
  refine ⟨?config, ?reset, ?resume, ?clear, ?hang, ?done⟩
  case config =>
    intro s w c v hc reach free acts ok off en u off'
    rw [exec_ctxCfgWrite_taken hc reach free acts ok, ctxCfgEff_enables off' en]
  case reset => exact fun s w c hc reach free run => exec_ctxCtlReset_running hc reach free run
  case resume =>
    intro s w c hc reach free halted clear pooled unscrubbed
    rw [exec_ctxCtlResume_halted hc reach free halted, State.resume_free clear pooled unscrubbed]
  case clear => exact fun s w c hc reach free => exec_divClr_admitted hc reach free
  case hang => exact fun s ring seq c => exec_hangTimeout_hung
  case done =>
    intro s c code hc up resetting quiet cause
    have kept : (({ s with cfe := { s.cfe with rst := [] } }.fset CTX_STATE.STATE c 3).fset CTX_STATE.LAST_ERR c code).fget
        CTX_STATE.RESETS c = s.fget CTX_STATE.RESETS c := by
      rw [State.fget_fset_ne _ _ _ _ _ _ (Fld.key_ne_beside (by decide) (by decide) (by decide)),
        State.fget_fset_ne _ _ _ _ _ _ (Fld.key_ne_beside (by decide) (by decide) (by decide))]
      rfl
    rw [exec_contextResetDone_quiet hc up resetting quiet cause, State.fsat, kept]
    rfl

end Sys2Proof.Machine
end

section
/-! The start of security commands (R328, R737, R740, R741, R760, R762, R771). -/
set_option autoImplicit false
namespace Sys2Proof.Machine

/-! ## The twelve rows (R737) -/

/-- The row that a written value names by its `OP` and, of a move, by its `KIND`. -/
inductive SecRow (w : Who) (v : Nat) : Instr → Prop
  | partOpen (op : SEC_CMD.OP.val v = 1) : SecRow w v (.partOpen w v)
  | partClose (op : SEC_CMD.OP.val v = 2) : SecRow w v (.partClose w v)
  | moveCluster (op : SEC_CMD.OP.val v = 3) (kind : SEC_CMD.KIND.val v = 0) : SecRow w v (.moveCluster w v)
  | moveContext (op : SEC_CMD.OP.val v = 3) (kind : SEC_CMD.KIND.val v = 1) : SecRow w v (.moveContext w v)
  | moveEndpoint (op : SEC_CMD.OP.val v = 3) (kind : SEC_CMD.KIND.val v = 2) : SecRow w v (.moveEndpoint w v)
  | moveKeyslot (op : SEC_CMD.OP.val v = 3) (kind : SEC_CMD.KIND.val v = 3) : SecRow w v (.moveKeyslot w v)
  | scrub (op : SEC_CMD.OP.val v = 4) : SecRow w v (.scrub w v)
  | setDl (op : SEC_CMD.OP.val v = 5) : SecRow w v (.setDl w v)
  | unlock (op : SEC_CMD.OP.val v = 6) : SecRow w v (.unlock w v)
  | ownerLock (op : SEC_CMD.OP.val v = 7) : SecRow w v (.ownerLock w v)
  | ownerBind (op : SEC_CMD.OP.val v = 8) : SecRow w v (.ownerBind w v)
  | lifecycle (op : SEC_CMD.OP.val v = 9) : SecRow w v (.lifecycle w v)

section
variable {s : State} {w : Who} {v : Nat} (go : SEC_CMD.GO.bit v = true)
include go

/-- A `GO` of the row's `OP` is a write of `SEC_CMD`. -/
theorem secOp_named {op : Nat} (h : SEC_CMD.OP.val v = op) : secOp op w v s = secCmdWrite w v s := by
  rw [secOp, go, decide_eq_true h, Bool.and_self, State.when_true]

/-- So is a move of the row's `KIND`. -/
theorem secMove_named {kind : Nat} (op : SEC_CMD.OP.val v = 3) (h : SEC_CMD.KIND.val v = kind) :
    secMove kind w v s = secCmdWrite w v s := by
  rw [secMove, decide_eq_true h, State.when_true, secOp_named go op]

/-- Whichever row names the command, it is that write. -/
theorem SecRow.exec_eq {c : Instr} (h : SecRow w v c) : exec c s = .next (secCmdWrite w v s) := by
  cases h with
  | partOpen op => exact congrArg _ (secOp_named go op)
  | partClose op => exact congrArg _ (secOp_named go op)
  | moveCluster op kind => exact congrArg _ (secMove_named go op kind)
  | moveContext op kind => exact congrArg _ (secMove_named go op kind)
  | moveEndpoint op kind => exact congrArg _ (secMove_named go op kind)
  | moveKeyslot op kind => exact congrArg _ (secMove_named go op kind)
  | scrub op => exact congrArg _ (secOp_named go op)
  | setDl op => exact congrArg _ (secOp_named go op)
  | unlock op => exact congrArg _ (secOp_named go op)
  | ownerLock op => exact congrArg _ (secOp_named go op)
  | ownerBind op => exact congrArg _ (secOp_named go op)
  | lifecycle op => exact congrArg _ (secOp_named go op)

end

/-! ## A write of `SEC_CMD` (R328, R737, R741, R771) -/

/-- The link to the host die is down in PS4. -/
theorem State.cxlUp_not_ps4 {s : State} (h : s.cxlUp = true) : s.fget PWR_PSTATE.STATE 0 ≠ 4 := by
  simp only [State.cxlUp, State.hubUp, State.up, Bool.and_eq_true, decide_eq_true_eq] at h
  obtain ⟨⟨⟨-, awake⟩, -⟩, -⟩ := h
  exact awake

section
variable {s : State} {v : Nat} (go : SEC_CMD.GO.bit v = true)
include go

/-- A write with `GO` 1 is no status write. -/
theorem State.isStatus_secGo : s.isStatus .SEC_CMD 0 v = false := by
  have nonzero : SEC_CMD.GO.val v ≠ 0 := by
    simpa [SEC_CMD.GO, Fld.bit, Fld.val, bitsOf, Nat.testBit_zero] using go
  exact List.all_eq_false.mpr ⟨SEC_CMD.GO, by decide, mt of_decide_eq_true nonzero⟩

/-- In PS4 every command ends at once. -/
theorem secCmdWrite_ps4 (on : s.pwr.on = true) (whole : s.pwr.trip = 0) (asleep : s.fget PWR_PSTATE.STATE 0 = 4) :
    secCmdWrite .s v s = s.secReject 0x0509 := by
  simp [secCmdWrite, on, whole, asleep, go]

/-- What an S requester's write over the link comes to. -/
theorem secCmdWrite_s (reach : s.reaches .s = true) : secCmdWrite .s v s =
    if s.fon SEC_CMD.BUSY 0 then ((s.fset SEC_CMD.REJ 0 1).fset SEC_CMD.CODE 0 0x0506).logC 0x0506
    else ((s.clrW1C .SEC_CMD 0 v).putRW .SEC_CMD 0 v).secGo v := by
  have free : s.barred .s .SEC_CMD 0 v = .none := (s.barred_s .SEC_CMD 0 v).trans rfl
  rw [secCmdWrite, if_neg (by simp [State.cxlUp_not_ps4 reach]), reach, State.when_true, State.regWriteOr_admitted free,
    State.isStatus_secGo go]
  simp only [go, Bool.true_and, if_true]
  rfl

end

/-- A write of an NS requester is logged (R328). -/
theorem secCmdWrite_ns {s : State} {v : Nat} (reach : s.reaches .ns = true) : secCmdWrite .ns v s = s.logC 0x0503 := by
  have world : s.barred .ns .SEC_CMD 0 v = .world := rfl
  rw [secCmdWrite, if_neg (by simp [State.cxlUp_not_ps4 reach]), reach, State.when_true, State.regWriteOr_barred (by simp [world]), world]
  rfl

/-! ## What stands against a command (R740, R762) -/

section
variable {s : State} {r : SecRun} {n : Nat}

/-- No `OP` above 9 names a command. -/
theorem State.secCond_unknown (h : 9 < r.op) : s.secCond r = false := by
  obtain ⟨k, hk⟩ := Nat.exists_eq_add_of_le' (Nat.succ_le_of_lt h)
  simp only [State.secCond, hk]

/-- Nothing is done in SCRAPPED. -/
theorem State.secCode_scrapped (h : s.fget SEC_LIFE.LCS 0 = 4) : s.secCode r n = 0x050B := if_pos h

/-- Outside it, a command without a token is judged by its own condition. -/
theorem State.secCode_untokened (live : s.fget SEC_LIFE.LCS 0 ≠ 4) (h : r.op < 6 ∨ 9 < r.op) :
    s.secCode r n = if s.secCond r then 0 else 0x0506 := by
  rw [State.secCode, if_neg live, if_pos h]

/-- An UNLOCK, OWNER_LOCK or OWNER_BIND that no signer can ask for in the lifecycle state is turned away for that state. -/
theorem State.secCode_unsigned (live : s.fget SEC_LIFE.LCS 0 ≠ 4) (h6 : 6 ≤ r.op) (h8 : r.op ≤ 8)
    (signer : ∀ t, signerOf r.op (s.fget SEC_LIFE.LCS 0) t s.fuse.ohash.isSome = none) : s.secCode r n = 0x050B := by
  rw [State.secCode, if_neg live, if_neg (by omega)]
  dsimp only
  rw [if_neg (by omega), signer]

/-- One whose condition holds is judged by its token, of the signer that the lifecycle state asks for. -/
theorem State.secCode_signed {who : Signer} (live : s.fget SEC_LIFE.LCS 0 ≠ 4) (h6 : 6 ≤ r.op) (h8 : r.op ≤ 8)
    (signer : ∀ t, signerOf r.op (s.fget SEC_LIFE.LCS 0) t s.fuse.ohash.isSome = some who) (holds : s.secCond r = true) :
    s.secCode r n = if s.tokenOk r.op r.dst n who then 0 else 0x050A := by
  rw [State.secCode, if_neg live, if_neg (by omega)]
  dsimp only
  rw [if_neg (by omega), signer]
  simp only [holds, Bool.true_eq_false, if_false]

/-- Where nothing stands against a command, its `OP` names one. -/
theorem State.op_le_of_secCode (h : s.secCode r n = 0) : r.op ≤ 9 := by
  refine Nat.le_of_not_lt fun high => ?_
  by_cases scrapped : s.fget SEC_LIFE.LCS 0 = 4
  · simp [State.secCode_scrapped scrapped] at h
  · simp [State.secCode_untokened scrapped (.inr high), State.secCond_unknown high] at h

end

/-! ## A command begins or is turned away (R741, R760) -/

/-- A token is read where one belongs to the command and nothing before it stood against it. -/
theorem tokenRead_iff (r : SecRun) (code : Nat) : tokenRead r code = true ↔ (6 ≤ r.op ∧ r.op ≤ 9) ∧ (code = 0 ∨ code = 0x050A) := by
  simp [tokenRead]

section
variable {s : State} {v code : Nat} (judged : s.secCode (s.secRunOf v) (SEC_CMD.TLEN.val v) = code)
include judged

/-- Where its token was read, the nonce is renewed before the command begins or ends. -/
theorem State.secGo_read (h : (6 ≤ (s.secRunOf v).op ∧ (s.secRunOf v).op ≤ 9) ∧ (code = 0 ∨ code = 0x050A)) :
    s.secGo v = if code = 0 then s.newNonce.secStart (s.secRunOf v) else s.newNonce.secReject code := by
  simp only [State.secGo, judged, (tokenRead_iff _ _).mpr h, if_true]

/-- With no token read it begins or ends with the nonce as it was. -/
theorem State.secGo_unread (h : ¬ ((6 ≤ (s.secRunOf v).op ∧ (s.secRunOf v).op ≤ 9) ∧ (code = 0 ∨ code = 0x050A))) :
    s.secGo v = if code = 0 then s.secStart (s.secRunOf v) else s.secReject code := by
  simp only [State.secGo, judged, mt (tokenRead_iff _ _).mp h, Bool.false_eq_true, if_false]

end

/-- Settles O47: a row is the write that it names, the write by its requester and the power state, the judgement by the signer that
the lifecycle state asks for. -/
theorem securityCommandsStart : Obligations.SecurityCommandsStart := by
  refine ⟨?rows, ?away, ?go, ?code⟩
  case rows =>
    intro s v go reach idle t
    have begins : ∀ {c}, SecRow .s v c → exec c s = .next t := fun row => by
      rw [row.exec_eq go, secCmdWrite_s go reach, if_neg (by simp [idle])]
    exact ⟨fun h => begins (.partOpen h), fun h => begins (.partClose h), fun h k => begins (.moveCluster h k),
      fun h k => begins (.moveContext h k), fun h k => begins (.moveEndpoint h k), fun h k => begins (.moveKeyslot h k),
      fun h => begins (.scrub h), fun h => begins (.setDl h), fun h => begins (.unlock h), fun h => begins (.ownerLock h),
      fun h => begins (.ownerBind h), fun h => begins (.lifecycle h)⟩
  case away =>
    intro s w v c go named
    have row : SecRow w v c := by
      rcases named with ⟨rfl, h⟩ | ⟨rfl, h⟩ | ⟨rfl, h, k⟩ | ⟨rfl, h, k⟩ | ⟨rfl, h, k⟩ | ⟨rfl, h, k⟩ | ⟨rfl, h⟩ | ⟨rfl, h⟩ |
        ⟨rfl, h⟩ | ⟨rfl, h⟩ | ⟨rfl, h⟩ | ⟨rfl, h⟩ <;> constructor <;> assumption
    rw [row.exec_eq go]
    refine ⟨?_, ?_, ?_⟩
    · rintro rfl reach busy
      rw [secCmdWrite_s go reach, if_pos busy]
    · rintro rfl on whole asleep
      rw [secCmdWrite_ps4 go on whole asleep]
    · rintro rfl reach
      rw [secCmdWrite_ns reach]
  case go =>
    intro s v r code
    refine ⟨fun clear low => ⟨?_, rfl⟩, fun clear high => ?_, fun refused high known => ?_, fun stands other => ?_⟩
    · rw [State.secGo_unread (code := code) rfl fun h => absurd h.1.1 (Nat.not_le.mpr low), if_pos clear]
    · rw [State.secGo_read (code := code) rfl ⟨⟨high, State.op_le_of_secCode clear⟩, .inl clear⟩, if_pos clear]
    · rw [State.secGo_read refused ⟨⟨high, known⟩, .inr rfl⟩]
      rfl
    · rw [State.secGo_unread (code := code) rfl fun h => h.2.elim stands other, if_neg stands]
  case code =>
    intro s r n
    refine ⟨State.secCode_scrapped, fun live low fails => ?_, fun live low holds => ?_, fun op => ?_, fun op dl life => ?_,
      fun op life => ?_, fun op holds life => ?_, fun op holds life => ?_, fun op life => ?_, fun op life unbound => ?_⟩
    · rw [State.secCode_untokened live (.inl low), if_neg (by simp [fails])]
    · rw [State.secCode_untokened live (.inl low), if_pos holds]
    · simp only [State.secCond, op]
    · have closed : ¬ s.fget SEC_LIFE.LCS 0 ≤ 1 := by omega
      simp [State.secCond, op, dl, closed]
    · have unsigned : s.fget SEC_LIFE.LCS 0 ≠ 2 ∧ s.fget SEC_LIFE.LCS 0 ≠ 3 := by omega
      exact State.secCode_unsigned (by omega) (by omega) (by omega) fun _ => by simp [signerOf, op, unsigned]
    · rw [State.secCode_signed (by omega) (by omega) (by omega) (fun _ => by rw [op, life]; rfl) holds, op]
    · rw [State.secCode_signed (by omega) (by omega) (by omega) (fun _ => by rw [op, life]; rfl) holds, op]
    · rw [State.secCode_signed (by omega) (by omega) (by omega) (fun _ => by rw [op, life]; rfl) (by simp [State.secCond, op]), op]
    · rw [State.secCode_signed (by omega) (by omega) (by omega) (fun _ => by rw [op, life, unbound]; rfl)
        (by simp [State.secCond, op]), op]

end Sys2Proof.Machine
end

section
/-! The default routing tables (R390). -/
set_option autoImplicit false
namespace Sys2Proof.Machine

/-! ## A field written at every place of a register -/

section
variable {F : State → Nat → State} {f : Fld} {n : Nat}

/-- A pass over the places of a register, each step of which sets the field at its own place alone, leaves in each place its value. -/
theorem State.fget_foldl_range {v : Nat → Nat} (set : ∀ s i, (F s i).fget f i = v i) (s : State) {j : Nat} (hj : j < n)
    (keep : ∀ (s : State) (i : Nat), i < n → i ≠ j → (F s i).fget f j = s.fget f j) :
    ((List.range n).foldl F s).fget f j = v j := by
  induction n with
  | zero => exact absurd hj (Nat.not_lt_zero j)
  | succ n ih =>
    rw [List.range_succ, List.foldl_append, List.foldl_cons, List.foldl_nil]
    by_cases last : n = j
    · rw [last, set]
    · rw [keep _ n (Nat.lt_succ_self n) last, ih (by omega) fun s i hi => keep s i (Nat.lt_succ_of_lt hi)]

/-- A pass that never touches a field leaves it. -/
theorem State.fget_foldl_keep {l : List Nat} {j : Nat} (keep : ∀ (s : State) (i : Nat), i ∈ l → (F s i).fget f j = s.fget f j)
    (s : State) : (l.foldl F s).fget f j = s.fget f j :=
  List.foldlRecOn l F (motive := fun u => u.fget f j = s.fget f j) rfl fun u hu i hi => (keep u i hi).trans hu

end

/-- A field at another place of its register reads as before. -/
theorem State.fget_fset_place (s : State) {f g : Fld} {i j : Nat} (v : Nat) (hf : f.lsb < 1024) (hg : g.lsb < 1024) (hi : i < 65536)
    (hj : j < 65536) (h : i ≠ j) : (s.fset f i v).fget g j = s.fget g j :=
  s.fget_fset_ne f g i j v (Fld.key_ne g f hj hi hg hf (.inr (.inl h.symm)))

/-- Another field of the same place reads as before. -/
theorem State.fget_fset_beside (s : State) {f g : Fld} (i v : Nat) (hf : f.lsb < 1024) (hg : g.lsb < 1024) (h : g.lsb ≠ f.lsb) :
    (s.fset f i v).fget g i = s.fget g i :=
  s.fget_fset_ne f g i i v (Fld.key_ne_beside hg hf h)

/-! ## The entry of a rack -/

/-- The default entry of rack `r`, seen from `rack` (R390). -/
def State.defaultRack (rack : Nat) (s : State) (r : Nat) : State :=
  (((s.fset FAB_RACK.EXIT_POS r ((rack ^^^ r) >>> 2)).fset FAB_RACK.EXIT_G r ((rack ^^^ r) % 4)).fput FAB_RACK.VALID r
    (decide (r ≠ rack))).fset FAB_RACK.DETOUR r 0

/-- The default tables are two passes, one for each table. -/
theorem State.defaultTables_eq (s : State) : s.defaultTables = (List.range 256).foldl (State.defaultRack (s.fget FAB_CTL.RACK 0))
    ((List.range 64).foldl (fun u p => u.fset FAB_LOCAL.MASK p (defaultMask (s.fget FAB_CTL.TRAY 0) (s.fget FAB_CTL.SLOT 0) p)) s) := rfl

section
variable (rack : Nat) (s : State) (r : Nat)

/-- The entry names the exit of `RACK XOR r`, and is valid but for the own rack. -/
theorem State.defaultRack_entry :
    (s.defaultRack rack r).fget FAB_RACK.EXIT_POS r = (rack ^^^ r) / 4 % 64 ∧
    (s.defaultRack rack r).fget FAB_RACK.EXIT_G r = (rack ^^^ r) % 4 ∧
    (s.defaultRack rack r).fget FAB_RACK.VALID r = (if r = rack then 0 else 1) ∧
    (s.defaultRack rack r).fget FAB_RACK.DETOUR r = 0 := by
  have valid : b2n (decide (r ≠ rack)) % 2 ^ 1 = if r = rack then 0 else 1 := by
    by_cases own : r = rack <;> simp [own, b2n]
  simp (disch := decide) only [State.defaultRack, State.fput, State.fget_fset_beside, State.fget_fset_same,
    Nat.shiftRight_eq_div_pow]
  exact ⟨rfl, Nat.mod_mod _ 4, valid, rfl⟩

/-- The entry of a rack is that rack's alone. -/
theorem State.defaultRack_keep {g : Fld} {j : Nat} (hg : g.lsb < 1024) (hr : r < 65536) (hj : j < 65536)
    (h : g.reg ≠ .FAB_RACK ∨ r ≠ j) : (s.defaultRack rack r).fget g j = s.fget g j := by
  have apart (f : Fld) (hf : f.reg = .FAB_RACK) (hl : f.lsb < 1024) : g.key j ≠ f.key r :=
    Fld.key_ne g f hj hr hg hl (h.imp (fun k e => k ((Reg.code_inj e).trans hf)) fun k => .inl k.symm)
  simp only [State.defaultRack, State.fput]
  rw [State.fget_fset_ne _ _ _ _ _ _ (apart _ rfl (by decide)), State.fget_fset_ne _ _ _ _ _ _ (apart _ rfl (by decide)),
    State.fget_fset_ne _ _ _ _ _ _ (apart _ rfl (by decide)), State.fget_fset_ne _ _ _ _ _ _ (apart _ rfl (by decide))]

end

/-! ## The mask of a position -/

/-- The masks of every position but the own one, which name the port of R371 for the tray link, for the backplane link, or both. -/
theorem defaultMask_other {t c t' c' : Nat} (ht : t < 16) (hc : c < 4) (hc' : c' < 4) (other : ¬ (t' = t ∧ c' = c)) :
    defaultMask t c (4 * t' + c') = if t' = t then 2 ^ ((c' + 3 - c) % 4) else if c' = c then 2 ^ (3 + (t' + 15 - t) % 16)
      else 2 ^ ((c' + 3 - c) % 4) + 2 ^ (3 + (t' + 15 - t) % 16) := by
  have tray : (4 * t' + c') / 4 = t' := by omega
  have slot : (4 * t' + c') % 4 = c' := by omega
  have hs : c' + 4 - c - 1 = c' + 3 - c := by omega
  have hb : t' + 16 - t - 1 = t' + 15 - t := by omega
  simp only [defaultMask, tray, slot, if_neg other, trayPort, backPort, hs, hb]

/-- A default mask names ports 0 to 18 alone, so it fits its field. -/
theorem defaultMask_lt (t c p : Nat) : defaultMask t c p < 2 ^ 22 := by
  have tray : 2 ^ trayPort c (p % 4) ≤ 2 ^ 3 := Nat.pow_le_pow_right (by decide) (by unfold trayPort; omega)
  have back : 2 ^ backPort t (p / 4) ≤ 2 ^ 18 := Nat.pow_le_pow_right (by decide) (by unfold backPort; omega)
  simp only [defaultMask]
  split
  · decide
  · split
    · omega
    · split <;> omega

/-! ## The tables -/

section
variable (s : State)

/-- The local table holds the default mask of each position. -/
theorem State.defaultTables_mask {p : Nat} (hp : p < 64) :
    s.defaultTables.fget FAB_LOCAL.MASK p = defaultMask (s.fget FAB_CTL.TRAY 0) (s.fget FAB_CTL.SLOT 0) p := by
  rw [State.defaultTables_eq, State.fget_foldl_keep fun u r hr => u.defaultRack_keep _ r (by decide)
    (Nat.lt_trans (List.mem_range.mp hr) (by decide)) (Nat.lt_trans hp (by decide)) (.inl (by decide))]
  refine State.fget_foldl_range (v := defaultMask _ _) (fun u i => ?_) s hp fun u i hi apart => ?_
  · exact u.fget_fset_lt _ _ _ (defaultMask_lt _ _ _)
  · exact u.fget_fset_place _ (by decide) (by decide) (Nat.lt_trans hi (by decide)) (Nat.lt_trans hp (by decide)) apart

/-- The rack table holds the default entry of each rack: a field that the entry gives one value in every state. -/
theorem State.defaultTables_rack {f : Fld} {v : Nat → Nat} (hf : f.lsb < 1024)
    (entry : ∀ (u : State) (r : Nat), (u.defaultRack (s.fget FAB_CTL.RACK 0) r).fget f r = v r) {r : Nat} (hr : r < 256) :
    s.defaultTables.fget f r = v r := by
  rw [State.defaultTables_eq]
  exact State.fget_foldl_range entry _ hr fun u i hi apart =>
    u.defaultRack_keep _ i hf (Nat.lt_trans hi (by decide)) (Nat.lt_trans hr (by decide)) (.inr apart)

end

/-- Settles O33: each table is one pass that gives every place its own value, and both passes leave each other's fields. -/
theorem defaultTables : Obligations.DefaultTables := by
  intro s t c u ht hc
  refine ⟨fun t' c' ht' hc' other => ?masks, fun r hr hrack => ?racks⟩
  case masks => rw [s.defaultTables_mask (by omega), defaultMask_other ht hc hc' other]
  case racks =>
    have entry (u : State) (r : Nat) := u.defaultRack_entry (s.fget FAB_CTL.RACK 0) r
    have exit : (s.fget FAB_CTL.RACK 0 ^^^ r) < 2 ^ 8 := Nat.xor_lt_two_pow hrack hr
    refine ⟨?_, s.defaultTables_rack (by decide) (fun u r => (entry u r).2.1) hr,
      s.defaultTables_rack (by decide) (fun u r => (entry u r).2.2.2) hr,
      s.defaultTables_rack (by decide) (fun u r => (entry u r).2.2.1) hr⟩
    rw [s.defaultTables_rack (by decide) (fun u r => (entry u r).1) hr]
    omega

end Sys2Proof.Machine
end

section
/-! The router: a packet's way to its port, a header's time, and the enable of the fabric (R377, R387, R391, R392, R394, R397, R424,
R752). -/
set_option autoImplicit false
namespace Sys2Proof.Machine

/-! ## A packet reaches the router's choice (R391, R394, R752) -/

section
variable {s : State} {arr : Nat} {p : Pkt} {ctr : Nat} {tagOk : Bool}

/-- A packet of an optical link whose tag and counter are good, and any packet of another, is taken as it is. -/
theorem State.linkCheck_passes (q : List Nat) (harr : arr ≤ 22)
    (link : arr < 18 ∨ arr = 22 ∨ (tagOk = true ∧ tget s.fab.linkRx arr 0 < ctr)) :
    (s.setDepths q).linkCheck arr p ctr tagOk = (p, s.heeds arr q ctr) := by
  cases optical : isG arr with
  | false => simp [State.linkCheck, State.heeds, optical]
  | true =>
    have between : 18 ≤ arr ∧ arr < 22 := by simpa [isG] using optical
    obtain ⟨tag, fresh⟩ : tagOk = true ∧ tget (s.setDepths q).fab.linkRx arr 0 < ctr :=
      (link.resolve_left (by omega)).resolve_left (by omega)
    simp only [State.linkCheck, State.heeds, optical, tag, decide_eq_true fresh, Bool.not_true, Bool.false_eq_true, Bool.and_self,
      if_false, if_true]

/-- What the router takes note of touches the fabric alone, so every register reads as before. -/
theorem State.heeds_regs (s : State) (arr : Nat) (q : List Nat) (ctr : Nat) : (s.heeds arr q ctr).regs = s.regs := by
  unfold State.heeds
  dsimp only
  split <;> rfl

/-- Whether a packet may cross a port depends on the registers alone. -/
theorem State.mayCross_congr {s t : State} (h : t.regs = s.regs) (o : Nat) (p : Pkt) : t.mayCross o p = s.mayCross o p := by
  have reads (f : Fld) (i : Nat) : t.fget f i = s.fget f i := by rw [State.fget, h, State.fget]
  simp only [State.mayCross, State.fon, reads]

/-- A sound header of a known type, of a packet that may come by its port, is routed. -/
theorem State.routeIn_sound (good : p.bad = false) (crc : PH.HCRC.of p.hdr = hcrcOf p.hdr) (low : 1 ≤ PH.TYPE.of p.hdr)
    (high : PH.TYPE.of p.hdr ≤ 12) (may : arr = 22 ∨ s.mayCross arr p = true) : s.routeIn arr p = s.routeOne arr p := by
  have known : ¬(PH.HCRC.of p.hdr ≠ hcrcOf p.hdr ∨ PH.TYPE.of p.hdr = 0 ∨ 13 ≤ PH.TYPE.of p.hdr) := by
    rintro (broken | zero | beyond)
    · exact broken crc
    · omega
    · omega
  have crosses : ¬(arr < hubPort ∧ s.mayCross arr p = false) := by
    rintro ⟨port, barred⟩
    rcases may with hub | may
    · exact absurd port (by simp [hub, hubPort])
    · exact absurd (barred.symm.trans may) Bool.false_ne_true
  simp only [State.routeIn, good, Bool.false_eq_true, if_false, if_neg known, if_neg crosses]

end

/-- A packet that arrives sound on a port that is up, or from this hub, and that no freeze holds, is routed. -/
theorem exec_packetRoute_routed {s : State} {arr : Nat} {p : Pkt} {q : List Nat} {ctr : Nat} {tagOk : Bool} (harr : arr ≤ 22)
    (up : s.hubUp = true) (en : s.fon FAB_CTL.EN 0 = true)
    (port : arr = 22 ∨ (s.fon FAB_PORT.LINK_UP arr = true ∧ s.mayCross arr p = true))
    (link : arr < 18 ∨ arr = 22 ∨ (tagOk = true ∧ tget s.fab.linkRx arr 0 < ctr)) (thawed : s.frozen = false) (good : p.bad = false)
    (crc : PH.HCRC.of p.hdr = hcrcOf p.hdr) (low : 1 ≤ PH.TYPE.of p.hdr) (high : PH.TYPE.of p.hdr ≤ 12) :
    exec (.packetRoute arr (.whole p ctr tagOk) q) s = .next ((s.heeds arr q ctr).routeOne arr p) := by
  have he : exec (.packetRoute arr (.whole p ctr tagOk) q) s =
    need (decide (arr ≤ 22)) (packetRouteStep arr (.whole p ctr tagOk) q s) := rfl
  have linked : (decide (arr = hubPort) || s.fon FAB_PORT.LINK_UP arr) = true := by
    rcases port with hub | ⟨linkUp, -⟩
    · rw [decide_eq_true (show arr = hubPort from hub), Bool.true_or]
    · rw [linkUp, Bool.or_true]
  have still : (s.heeds arr q ctr).frozen = false := by
    rw [State.frozen, State.fget, s.heeds_regs]
    exact thawed
  have may : arr = 22 ∨ (s.heeds arr q ctr).mayCross arr p = true := by
    rw [State.mayCross_congr (s.heeds_regs arr q ctr)]
    exact port.imp id And.right
  rw [he, decide_eq_true harr, need_true, packetRouteStep, up, en, linked, Bool.and_self, Bool.and_self, State.when_true]
  simp only [State.takePkt, State.linkCheck_passes q harr link, still, Bool.false_and, Bool.false_eq_true, if_false,
    State.routeIn_sound good crc low high may]

/-! ## A packet's route (R377, R391, R392, R424) -/

section
variable {u : State} {arr : Nat} {p : Pkt}

/-- TIME and ABORT are taken by the hub. -/
theorem State.routeOne_taken (own : PH.TYPE.of p.hdr = 12 ∨ PH.TYPE.of p.hdr = 10) :
    u.routeOne arr p = (u.freed arr p).emit (.eject p) := if_pos own

section
variable (notTime : PH.TYPE.of p.hdr ≠ 12) (notAbort : PH.TYPE.of p.hdr ≠ 10)
include notTime notAbort

/-- A packet to a group goes to its copies. -/
theorem State.routeOne_multi (multi : PH.MCAST.on p.hdr = true) : u.routeOne arr p = u.routeMulti arr p :=
  (if_neg (not_or.mpr ⟨notTime, notAbort⟩)).trans (if_pos multi)

/-- Any other takes its own route. -/
theorem State.routeOne_uni (uni : PH.MCAST.on p.hdr = false) : u.routeOne arr p = u.routeUni arr p u.time.run :=
  (if_neg (not_or.mpr ⟨notTime, notAbort⟩)).trans (if_neg (by simp [uni]))

end

/-- A packet with ports to leave on takes the shallowest: at once if it is granted, else it waits. -/
theorem State.routeUni_leaves {since : Nat} {l : List Nat} {detour : Bool} {o vc : Nat} (ports : u.route arr p = .ports l detour)
    (least : u.shallowest l = some o) (channel : nextVc (arrivedBy arr p) (isG o) detour = some vc) (may : u.mayCross o p = true) :
    u.routeUni arr p since = (u.grant o vc p since arr).getD (u.wait p arr since) := by
  simp only [State.routeUni, ports, least, State.branch, channel, may, Bool.not_true, Bool.false_eq_true, if_false]

/-- No more credits are taken than stand in the channel's own share and in the shared part. -/
theorem State.takeCredit_le (s : State) (o vc n : Nat) : (s.takeCredit o vc n).1 ≤ s.credit o vc + s.credit o 4 :=
  Nat.add_le_add (Nat.min_le_right _ _) (Nat.min_le_right _ _)

/-- A port grants a header only while it is free and has credit on its channel (R392, R397). -/
theorem State.grant_some {s v : State} {o vc since frees : Nat} (granted : s.grant o vc p since frees = some v) :
    s.crossing o = false ∧ 0 < s.credit o vc + s.credit o 4 := by
  unfold State.grant at granted
  split at granted
  · cases granted
  · next free =>
    dsimp only at granted
    split at granted
    · cases granted
    · next credited => exact ⟨Bool.eq_false_iff.mpr free, Nat.lt_of_lt_of_le (Nat.pos_of_ne_zero credited) (s.takeCredit_le o vc _)⟩

end

/-! ## A header's time (R394) -/

/-- A header that has waited over 2 ms is dropped and counted. -/
theorem headerWaitTimeoutStep_waiting {s : State} {n : Nat} {e : Pkt × Nat × Nat} (up : s.hubUp = true)
    (waits : s.fab.waiting[n]? = some e) (late : e.2.2 + 2000000 < s.time.run) : headerWaitTimeoutStep n s =
      (let u := { s with fab := { s.fab with waiting := s.fab.waiting.eraseIdx n } }
       (if 32 ≤ e.2.1 then u else u.freed e.2.1 e.1).countPort OBS_PORT.ROUTE_DROP (e.2.1 % 32)) := by
  simp only [headerWaitTimeoutStep, up, State.when_true, waits, late, if_true]

/-- A packet that has been crossing over 2 ms is ended bad downstream and counted, and what waited for its port goes on. -/
theorem headerWaitTimeoutStep_crossing {s : State} {n : Nat} {c : Crossing} (up : s.hubUp = true) (beyond : s.fab.waiting[n]? = none)
    (crosses : s.fab.cross[n - s.fab.waiting.length]? = some c) (late : c.since + 2000000 < s.time.run) : headerWaitTimeoutStep n s =
      (((s.cutShort c).countPort OBS_PORT.ROUTE_DROP (c.frees % 32)).abortOn c.port).routeWaiting := by
  simp only [headerWaitTimeoutStep, up, State.when_true, beyond, crosses, late, if_true]

/-! ## FAB_CTL (R373, R387) -/

@[simp] theorem State.setLaser_regs (s : State) (p : Nat) (on : Bool) : (s.setLaser p on).regs = s.regs := by
  unfold State.setLaser
  split <;> rfl

/-- Lasers that go out touch no register. -/
theorem State.darken_regs (s : State) : s.darken.regs = s.regs :=
  List.foldlRecOn _ _ (motive := fun u : State => u.regs = s.regs) rfl fun u hu p _ => by
    split
    · rw [State.setLaser_regs, hu]
    · exact hu

/-- `EN` holds the bit that is written to it. -/
theorem State.fon_putRW_fabEn (s : State) (v : Nat) : (s.putRW .FAB_CTL 0 v).fon FAB_CTL.EN 0 = FAB_CTL.EN.bit v := by
  have fields : s.putRW .FAB_CTL 0 v = (((s.fset FAB_CTL.RACK 0 (FAB_CTL.RACK.val v)).fset FAB_CTL.NRACK_M1 0
    (FAB_CTL.NRACK_M1.val v)).fset FAB_CTL.EN 0 (FAB_CTL.EN.val v)).fset FAB_CTL.MODE 0 (FAB_CTL.MODE.val v) := rfl
  rw [fields, State.fon, State.fget_fset_ne _ _ _ _ _ _ (Fld.key_ne_beside (by decide) (by decide) (by decide)),
    State.fget_fset_same]
  have bit : FAB_CTL.EN.val v % 2 ^ FAB_CTL.EN.w = v / 2 ^ 24 % 2 := by
    simp [Fld.val, bitsOf, FAB_CTL.EN, Nat.shiftRight_eq_div_pow]
  rw [bit, Fld.bit, Nat.testBit_eq_decide_div_mod_eq]
  rfl

/-- An accepted write of `FAB_CTL` takes its fields, darkens the ports that lead nowhere, and fills the tables as `EN` rises. -/
theorem fabCtlEff_eq (v : Nat) (s : State) : fabCtlEff v s =
    if FAB_CTL.EN.bit v && !s.fon FAB_CTL.EN 0 then ((s.putRW .FAB_CTL 0 v).darken).defaultTables
    else (s.putRW .FAB_CTL 0 v).darken := by
  have en : (s.putRW .FAB_CTL 0 v).darken.fon FAB_CTL.EN 0 = FAB_CTL.EN.bit v := by
    rw [← s.fon_putRW_fabEn v, State.fon, State.fon, State.fget, State.fget, State.darken_regs]
  simp only [fabCtlEff, en]

/-- A write of `FAB_CTL` that its rule accepts. -/
theorem exec_fabCtlWrite_taken {s : State} {w : Who} {v : Nat} (reach : s.reaches w = true) (free : s.barred w .FAB_CTL 0 v = .none)
    (acts : s.isStatus .FAB_CTL 0 v = false) (ok : s.fabCtlBad v = false) :
    exec (.fabCtlWrite w v) s = .next (fabCtlEff v (s.clrW1C .FAB_CTL 0 v)) := by
  have he : exec (.fabCtlWrite w v) s = .next (fabCtlWriteStep w v s) := rfl
  rw [he, fabCtlWriteStep, reach, State.when_true, State.regWrite_taken free acts ok]

/-- Settles O32: a packet by its route once it has passed the checks of its arrival, a header by its time, a write by what it does to
`EN`. -/
theorem routing : Obligations.Routing := by
  refine ⟨?packet, ?waiting, ?crossing, ?control⟩
  case packet =>
    intro s arr p q ctr tagOk harr up en port link thawed good crc low high u
    have step : exec (.packetRoute arr (.whole p ctr tagOk) q) s = .next (u.routeOne arr p) :=
      exec_packetRoute_routed harr up en port link thawed good crc low high
    rw [step]
    refine ⟨fun own => ?_, fun notTime notAbort multi => ?_, fun notTime notAbort uni => ?_⟩
    · rw [State.routeOne_taken own]
    · rw [State.routeOne_multi notTime notAbort multi]
    · rw [State.routeOne_uni notTime notAbort uni]
      refine ⟨fun eject => ?_, fun c nack => ?_, fun drop => ?_, fun l detour o vc ports least channel may => ?_⟩
      · rw [State.routeUni, eject]
      · rw [State.routeUni, nack]
      · rw [State.routeUni, drop, State.routeDrop]
      · rw [State.routeUni_leaves ports least channel may]
        refine ⟨fun v granted => ?_, fun refused => ?_⟩
        · rw [granted]
          exact ⟨rfl, State.grant_some granted⟩
        · rw [refused, Option.getD_none]
  case waiting =>
    intro s n e up waits late
    exact congrArg _ (headerWaitTimeoutStep_waiting up waits late)
  case crossing =>
    intro s n c up beyond crosses late
    exact congrArg _ (headerWaitTimeoutStep_crossing up beyond crosses late)
  case control =>
    intro s w v reach free acts ok u
    have was : (s.clrW1C .FAB_CTL 0 v).fon FAB_CTL.EN 0 = s.fon FAB_CTL.EN 0 := by
      rw [State.fon, State.fget_clrW1C_beside _ (by decide) (by decide), State.fon]
    rw [exec_fabCtlWrite_taken reach free acts ok, fabCtlEff_eq, was]
    refine ⟨fun off on => ?_, fun stays => ?_⟩
    · rw [off, on]
      rfl
    · rcases stays with on | off
      · rw [on, Bool.not_true, Bool.and_false]
        rfl
      · rw [off, Bool.false_and]
        rfl

end Sys2Proof.Machine
end

section
/-! The source's side of a stream (R402 to R409, R414, R418, R419). -/
set_option autoImplicit false
namespace Sys2Proof.Machine

/-! ## Sending (R402, R405) -/

/-- Bytes in which core store finds no error are sent as they are. -/
theorem State.eccFor_clean (s : State) (x : Xfer) (k : State → State) : s.eccFor x .clean k = k s := by
  unfold State.eccFor
  split <;> rfl

section
variable {s : State} {id : Nat} {x : Xfer} (known : s.xfer id = some x)
include known

/-- A transfer whose next bytes are read sends them. -/
theorem State.sendRead_sends {b : List Byte} (read : s.payFor x x.sent x.stepLen = ⟨0, b, s⟩) :
    s.sendRead id = s.sendNext x (s.streamOr x.ep x.dmod x.dep) x.stepLen b := by
  simp only [State.sendRead, known, read, ne_eq, not_true_eq_false, if_false]

/-- A transfer with bytes to send, to an endpoint or an open group, sends them once the window has room. -/
theorem packetSendStep_sends (up : s.hubUp = true) (en : s.fon FAB_CTL.EN 0 = true) (free : s.holdsBack x = false)
    (stands : x.failed = false) (more : x.stepLen ≠ 0) (mayReach : x.dmod < 16384 ∨ s.groupOpen (x.dmod - 16384) = true)
    (room : s.windowRoom (s.streamOr x.ep x.dmod x.dep) x.nextPay = true) : packetSendStep id [] .clean s = s.sendRead id := by
  have reach : (decide (16384 ≤ x.dmod) && !s.groupOpen (x.dmod - 16384)) = false := by
    rcases mayReach with unicast | opened
    · rw [decide_eq_false (Nat.not_le.mpr unicast), Bool.false_and]
    · rw [opened, Bool.not_true, Bool.and_false]
  simp only [packetSendStep, up, en, Bool.and_self, State.when_true, known, free, stands, more, reach, room, Bool.not_true,
    Bool.false_eq_true, if_false, State.markBad_nil, State.eccFor_clean]

end

/-! ## The timers of a stream (R405, R407, R414, R419) -/

section
variable {s : State} {ep dmod dep : Nat} {t : SStream} (up : s.hubUp = true) (entry : s.stream ep dmod dep = some t)
include up entry

/-- A packet not acknowledged within its timer goes again; its timer doubles up to 16 × `RTO`, or is `RTO` after a refusal. -/
theorem rtoTimeoutStep_late {seq : Nat} {o : OutPkt} (en : s.fon FAB_CTL.EN 0 = true)
    (outstanding : t.out.find? (fun o => decide (o.seq = seq)) = some o) (free : (s.xfer o.xfer).any s.holdsBack = false)
    (late : o.tSent + o.rto * 1000 ≤ s.time.now) : rtoTimeoutStep ep dmod dep seq [] .clean s = s.resend t
      { o with tSent := s.time.now, rto := if o.retry then s.rto else min (2 * o.rto) (16 * s.rto), retry := false } .clean := by
  simp only [rtoTimeoutStep, up, en, Bool.and_self, State.when_true, entry, outstanding, free, Bool.not_false, decide_eq_true late,
    if_true, State.markBad_nil]

/-- The oldest packet that is no VOID has waited `STALL`: its transfer fails. -/
theorem windowStallStep_late {o : OutPkt} {x : Xfer} (oldest : t.out.find? (fun o => !o.void) = some o)
    (late : o.t0 + s.stallNs ≤ s.time.run) (known : s.xfer o.xfer = some x) :
    windowStallStep ep dmod dep s = s.failXfer x 0x0202 o.seq := by
  simp only [windowStallStep, up, State.when_true, entry, oldest, late, if_true, known]

/-- The VOIDs of an abandoned transfer have waited `STALL`: the entry is released and logged. -/
theorem voidStallStep_late {x : Xfer} (mem : x ∈ s.fab.xfers) (late : s.voidLate t x = true) (unicast : dmod < 16384) :
    voidStallStep ep dmod dep s = (s.releaseStream t).log
      { code := 0x0202, data := fabData (epAddr s.self ep) (epAddr dmod dep) t.next 0 } := by
  have any : s.fab.xfers.any (s.voidLate t) = true := List.any_eq_true.mpr ⟨x, mem, late⟩
  simp only [voidStallStep, up, State.when_true, entry, any, if_true, if_pos unicast]

/-- An entry with nothing out and nothing to send is released 50 ms after it last sent, but not by a pair member. -/
theorem sourceStreamReleaseStep_idle (settled : t.out = []) (single : s.inPair = false) (idle : t.last + 50000000 ≤ s.time.now)
    (done : s.fab.xfers.any (·.pendingOn t) = false) : sourceStreamReleaseStep ep dmod dep s = s.releaseStream t := by
  simp only [sourceStreamReleaseStep, up, State.when_true, entry, settled, List.isEmpty_nil, single, decide_eq_true idle, done,
    Bool.not_false, Bool.and_self, if_true]

end

/-- Whether a destination entry is the one of a triple. -/
def DStream.isAt (smod sep dep : Nat) (t : DStream) : Bool := decide (t.smod = smod) && decide (t.sep = sep) && decide (t.dep = dep)

theorem DStream.isAt_iff {smod sep dep : Nat} {t : DStream} :
    t.isAt smod sep dep = true ↔ t.smod = smod ∧ t.sep = sep ∧ t.dep = dep := by
  simp [DStream.isAt, and_assoc]

/-- A destination entry that has been idle for `IDLE` ms, with no open message and keyed by no pair, is gone. -/
theorem streamIdleStep_idle {s : State} {smod sep dep : Nat} {t : DStream} (up : s.hubUp = true)
    (entry : s.fab.dstr.find? (DStream.isAt smod sep dep) = some t) (single : s.fon FAB_PAIR.VALID smod = false)
    (closed : s.hasOpen smod sep dep = false) (idle : t.last + s.fget FAB_XPORT.IDLE 0 * 1000000 ≤ s.time.now) :
    streamIdleStep smod sep dep s =
      { s with fab := { s.fab with dstr := s.fab.dstr.filter fun u => !u.isAt smod sep dep } } := by
  unfold DStream.isAt at entry
  simp only [streamIdleStep, up, State.when_true, entry, single, closed, Bool.not_false, Bool.and_self, decide_eq_true idle, if_true,
    DStream.isAt]

/-! ## ACK and NACK (R403, R404, R406) -/

/-- An ACK that is about one stream releases what it covers there, and each transfer learns what it got. -/
theorem ackStep_one {s : State} {p : Pkt} {t : SStream} (heard : s.heard p 4 = true) (about : s.ackStreams p = [t]) : ackStep p s =
    s.fab.xfers.foldl (fun s x => s.ackedMore x) (s.release t (PH.SSEQ.of p.hdr) (leAt p.pay 0 32) (PH.RADDR.of p.hdr % 64)) := by
  simp only [ackStep, tyACK, heard, State.when_true, about, List.foldl_cons, List.foldl_nil]

/-- A NACK that is about one stream answers the packet that it names there. -/
theorem nackStep_one {s : State} {p : Pkt} {t : SStream} {o : OutPkt} (heard : s.heard p 5 = true) (about : s.nackStreams p = [t])
    (named : t.out.find? (s.names p) = some o) : nackStep p [] .clean s = s.nacked t o (leAt p.pay 0 2) .clean := by
  have any : t.out.any (s.names p) = true :=
    List.any_eq_true.mpr ⟨o, List.mem_of_find?_eq_some named, List.find?_some named⟩
  simp only [nackStep, tyNACK, heard, State.when_true, about, List.find?_cons, any, named, State.markBad_nil]

section
variable {s : State} {t : SStream} {o : OutPkt} {ecc : Ecc}

/-- A packet whose payload arrived damaged goes again at once while its retries last. -/
theorem State.nacked_damaged (more : o.crcN < s.fget FAB_XPORT.RETRY 0) :
    s.nacked t o 0x0210 ecc = s.resend t { o with crcN := o.crcN + 1, tSent := s.time.now } ecc := by
  have again : (!o.void && decide (s.fget FAB_XPORT.RETRY 0 < o.crcN + 1)) = false := by
    rw [decide_eq_false (Nat.not_lt.mpr more), Bool.and_false]
  exact if_neg (Bool.eq_false_iff.mp again)

/-- A busy destination lets the packet go again after `RTO`. -/
theorem State.nacked_busy : s.nacked t o 0x0211 ecc = s.setOut t (o.later s) := rfl

/-- A packet that found no route, and is no query's, goes again after `RTO` while its retries last. -/
theorem State.nacked_unreached (plain : s.isQuery o = false) (more : o.unrN < s.fget FAB_XPORT.RETRY 0) :
    s.nacked t o 0x0203 ecc = s.setOut t (OutPkt.later s { o with unrN := o.unrN + 1 }) := by
  have again : (!o.void && (s.isQuery o || decide (s.fget FAB_XPORT.RETRY 0 < o.unrN + 1))) = false := by
    rw [plain, decide_eq_false (Nat.not_lt.mpr more), Bool.or_false, Bool.and_false]
  exact if_neg (Bool.eq_false_iff.mp again)

/-- Any other code refuses the packet for good, and its transfer fails. -/
theorem State.nacked_refused {code : Nat} (real : o.void = false) (h1 : code ≠ 0x0210) (h2 : code ≠ 0x0211) (h3 : code ≠ 0x0203) :
    s.nacked t o code ecc = (s.dropOut t o).failOut o code := by
  unfold State.nacked
  split
  · exact absurd rfl h1
  · exact absurd rfl h2
  · exact absurd rfl h3
  · rw [real, if_neg Bool.false_ne_true]

end

/-- Settles O34: each row by its own step; a NACK by what its code says of the packet that it names. -/
theorem sourceStreams : Obligations.SourceStreams := by
  refine ⟨?send, ?rto, ?window, ?void, ?idle, ?release, ?ack, ?nack⟩
  case send =>
    intro s id x b up en known free stands more mayReach room read
    exact congrArg _ ((packetSendStep_sends known up en free stands more mayReach room).trans (State.sendRead_sends known read))
  case rto =>
    intro s ep dmod dep seq t o up en entry outstanding free late
    exact congrArg _ (rtoTimeoutStep_late up entry en outstanding free late)
  case window =>
    intro s ep dmod dep t o x up entry oldest late known
    exact congrArg _ (windowStallStep_late up entry oldest late known)
  case void =>
    intro s ep dmod dep t x up entry mem late unicast
    exact congrArg _ (voidStallStep_late up entry mem late unicast)
  case idle =>
    intro s smod sep dep t up entry single closed idle
    have step : exec (.streamIdle smod sep dep) s = .next _ :=
      congrArg Host.Outcome.next (streamIdleStep_idle up entry single closed idle)
    refine ⟨_, step, fun v hv => ?_, fun v hv other => ?_, rfl, rfl⟩
    · obtain ⟨-, kept⟩ := List.mem_filter.mp hv
      rw [← DStream.isAt_iff]
      simpa using kept
    · rw [← DStream.isAt_iff] at other
      exact List.mem_filter.mpr ⟨hv, by simpa using other⟩
  case release =>
    intro s ep dmod dep t up entry settled single idle done
    exact congrArg _ (sourceStreamReleaseStep_idle up entry settled single idle done)
  case ack => exact fun s p t heard about => congrArg _ (ackStep_one heard about)
  case nack =>
    intro s p t o heard about named real code
    have step : exec (.nack p [] .clean) s = .next (s.nacked t o code .clean) := congrArg _ (nackStep_one heard about named)
    refine ⟨fun e more => ?_, fun e => ?_, fun e plain more => ?_, fun h1 h2 h3 => ?_⟩
    · rw [step, e, State.nacked_damaged more]
    · rw [step, e, State.nacked_busy, OutPkt.later]
    · rw [step, e, State.nacked_unreached plain more, OutPkt.later]
    · rw [step, State.nacked_refused real h1 h2 h3]

end Sys2Proof.Machine
end

section
/-! Inbound PUT, GET_REQ, GET_RESP, ATOMIC and MGMT (R411, R413, R420 to R422). -/
set_option autoImplicit false
namespace Sys2Proof.Machine

/-! ## What leaves the open messages alone -/

theorem State.memPut_fab (s : State) (a : Party) (right : Fld) (addr : Nat) (l : List Byte) :
    (s.memPut a right addr l).st.fab = s.fab := by
  unfold State.memPut
  split
  · exact ((s.aside_snoop _ _ _).trans (State.aside_writeGrans _ _ _ _ _)).fab
  · rfl

theorem State.undefine_fab (s : State) (a : Party) (addr n : Nat) : (s.undefine a addr n).fab = s.fab := by
  unfold State.undefine
  split
  · rfl
  · exact (((s.aside_snoop _ _ _).trans (State.aside_fillMet _ _ _)).trans
      (.foldl (fun t g _ => t.aside_putGran _ _ _ g) _)).fab

theorem State.undefRest_fab (s : State) (i : Inst) : (s.undefRest i).fab = s.fab := by
  unfold State.undefRest
  dsimp only
  split
  · rw [State.undefine_fab, State.undefine_fab]
  · rfl

theorem State.checkInst_fab (s : State) (g q : Nat) : (s.checkInst g q).fab = s.fab := by
  unfold State.checkInst
  split
  · split
    · exact State.undefRest_fab _ _
    · rfl
  · rfl

theorem State.ackProgress_fab (s : State) (x : Xfer) : (s.ackProgress x).fab = s.fab := by
  unfold State.ackProgress
  split
  · dsimp only; split <;> rfl
  · dsimp only; split <;> rfl
  · rfl

/-- An acknowledged transfer is counted by its collective, which opens and closes no message. -/
theorem State.ackedColl_msgs (s : State) (x : Xfer) : (s.ackedColl x).fab.msgs = s.fab.msgs := by
  have told (g q key : Nat) : (match s.inst g q with
      | some i => ((if key = grantKey then s else s.setInst { i with acked := i.acked ++ [key] }).dropXfers
          fun y => decide (y.id = x.id)).checkInst g q
      | none => s.dropXfers fun y => decide (y.id = x.id)).fab.msgs = s.fab.msgs := by
    split
    · rw [State.checkInst_fab]
      split <;> rfl
    · rfl
  unfold State.ackedColl
  split
  · exact told _ _ _
  · exact told _ _ _
  · rfl

theorem State.gotBytes_msgs (s : State) (x : Xfer) (off n : Nat) : (s.gotBytes x off n).fab.msgs = s.fab.msgs := by
  have counted (y : Xfer) : ((s.setXfer y).ackProgress y).fab.msgs = s.fab.msgs := by rw [State.ackProgress_fab]; rfl
  unfold State.gotBytes
  dsimp only
  split
  · exact counted _
  · rw [State.ackedColl_msgs, counted]

theorem State.beginHub_msgs (s : State) (x : Xfer) : (s.beginHub x).fab.msgs = s.fab.msgs := by
  unfold State.beginHub State.begin
  split <;> rfl

theorem State.respond_msgs (s : State) (dep smod sep part world msgid raddr total seq : Nat) (src : Src) :
    (s.respond dep smod sep part world msgid raddr total seq src).fab.msgs = s.fab.msgs :=
  List.foldlRecOn _ _ (motive := fun u : State => u.fab.msgs = s.fab.msgs) rfl fun u hu _ _ => (u.beginHub_msgs _).trans hu

/-! ## The five packet types -/

section
variable {s : State} {p : Pkt} {t : DStream} (h : s.Takes p t)
include h

/-- A packet of a handler's type that passes the steps of R411 reaches it. -/
theorem State.Takes.handled {ty : Nat} (type : PH.TYPE.of p.hdr = ty) (k : DStream → State → State) :
    s.when (decide (PH.TYPE.of p.hdr = ty)) (fun s => s.arrive p k) = k t s := by
  rw [decide_eq_true type, State.when_true, h.arrive]

/-- A PUT's bytes are written under `FPUT`. -/
theorem State.Takes.put (type : PH.TYPE.of p.hdr = 1) (ok : (s.memWrite (inboundParty p) MEM_RGN.FPUT (PH.RADDR.of p.hdr) p.pay).code = 0) :
    exec (.put p []) s = .next ((s.memWrite (inboundParty p) MEM_RGN.FPUT (PH.RADDR.of p.hdr) p.pay).st.settled p t) :=
  congrArg _ ((h.handled type _).trans (h.withMsg _ _ ok (by rw [(s.aside_memWrite _ _ _ _).fab])))

/-- A GET_REQ that its reader may make is queued (R420). -/
theorem State.Takes.getReq (type : PH.TYPE.of p.hdr = 2) (room : s.fab.gets.length < 4096)
    (ok : s.checkSpan (inboundParty p) MEM_RGN.FGET (PH.RADDR.of p.hdr) (PH.MTLEN.of p.hdr) = 0) : exec (.getReq p) s =
      .next ({ s with fab := { s.fab with gets := s.fab.gets ++ [getReqOf s p t] } }.finish p t 0) := by
  refine congrArg _ ((h.handled type _).trans ?_)
  simp only [h.real, Bool.false_eq_true, if_false, if_neg (Nat.not_le.mpr room), ok]

/-- A response's bytes go where its request asked, and close the message. -/
theorem State.Takes.getResp {x : Xfer} {u : State} (type : PH.TYPE.of p.hdr = 3) (request : s.requestOf p t = some x)
    (written : s.respWrite p t = ⟨0, [], u⟩) (same : u.fab.msgs = s.fab.msgs) : exec (.getResp p []) s = .next (u.settled p t) := by
  refine congrArg _ ((h.handled type _).trans ?_)
  rw [request, Option.isNone_some, h.withMsg, written]
  · rw [written]
  · rw [written]; exact same

/-- An atomic acts under `FPUT` and closes its message. -/
theorem State.Takes.atomic {u : State} (type : PH.TYPE.of p.hdr = 6) (acted : s.inboundAtom p t = ⟨0, [], u⟩)
    (same : u.fab.msgs = s.fab.msgs) : exec (.atomic p []) s = .next (u.settled p t) := by
  refine congrArg _ ((h.handled type _).trans ?_)
  rw [h.withMsg, acted]
  · rw [acted]
  · rw [acted]; exact same

/-- MGMT is delivered, and in fault-closing mode may reshape the tables (R429, log 53). -/
theorem State.Takes.mgmt (type : PH.TYPE.of p.hdr = 11) : exec (.mgmt p) s = .next (s.settled p t).reshape := by
  have he : exec (.mgmt p) s = .next (mgmtStep p s) := rfl
  rw [he, mgmtStep, decide_eq_true (show PH.TYPE.of p.hdr = tyMGMT from type), State.when_true, h.arriveMsg]

end

/-! ## Where a response's bytes go (R420, R421) -/

section
variable {s : State} {p : Pkt} {t : DStream} {x : Xfer} (request : s.requestOf p t = some x)
include request

/-- To device memory, under the requester's rights. -/
theorem State.respWrite_memory {part world a : Nat} (dst : x.dst = some (.dm part world a))
    (ok : (s.memWrite ⟨part, world, x.ctx, x.owner.reader⟩ MEM_RGN.WR (PH.RADDR.of p.hdr) p.pay).code = 0) :
    s.respWrite p t = ⟨0, [], (s.memWrite ⟨part, world, x.ctx, x.owner.reader⟩ MEM_RGN.WR (PH.RADDR.of p.hdr) p.pay).st.gotBytes x
      (PH.RADDR.of p.hdr - x.sink) p.pay.length⟩ := by
  simp only [State.respWrite, request, dst, ok, ne_eq, not_true_eq_false, if_false]

/-- To core store. -/
theorem State.respWrite_coreStore {site a : Nat} (dst : x.dst = some (.cs site a)) : s.respWrite p t =
    ⟨0, [], (s.csWrite site (PH.RADDR.of p.hdr) p.pay).gotBytes x (PH.RADDR.of p.hdr - x.sink) p.pay.length⟩ := by
  simp only [State.respWrite, request, dst]

end

/-! ## An atomic (R422) -/

section
variable {s : State} {p : Pkt} {b : List Byte} (aligned : PH.RADDR.of p.hdr % 8 = 0)
  (read : s.memRead (inboundParty p) MEM_RGN.FPUT (PH.RADDR.of p.hdr) 8 = ⟨0, b, s⟩)
  (ok : (s.memPut (inboundParty p) MEM_RGN.FPUT (PH.RADDR.of p.hdr)
    (leBytes 8 (atomNew (leAt p.pay 0 1) (ofLE b) (leAt p.pay 8 8) (leAt p.pay 16 8)))).code = 0)
include aligned read ok

/-- One of the five operations leaves its new value, and those of R422 that return the old one answer with it. -/
theorem State.inboundAtom_acts (t : DStream) (op : leAt p.pay 0 1 ≤ 4) : s.inboundAtom p t =
    (let m := s.memPut (inboundParty p) MEM_RGN.FPUT (PH.RADDR.of p.hdr)
       (leBytes 8 (atomNew (leAt p.pay 0 1) (ofLE b) (leAt p.pay 8 8) (leAt p.pay 16 8)))
     if [1, 2, 3].contains (leAt p.pay 0 1) then
       ⟨0, [], m.st.respond t.dep (pktMod p) (pktEp p) (PH.PART.of p.hdr) (PH.WORLD.of p.hdr) (PH.MSGID.of p.hdr) (leAt p.pay 24 6) 8
         (PH.SSEQ.of p.hdr) (.lit (leBytes 8 (ofLE b)))⟩
     else ⟨0, [], m.st⟩) := by
  have valid : ¬(4 < leAt p.pay 0 1 ∨ PH.RADDR.of p.hdr % 8 ≠ 0) := by omega
  simp only [State.inboundAtom, if_neg valid, read, ok, ne_eq, not_true_eq_false, if_false]

end

/-- Settles O35: each packet by what its handler does once the steps of R411 have passed it, which leaves the open messages as they are;
a queued get by its own step. -/
theorem inboundRequests : Obligations.InboundRequests := by
  refine ⟨fun s p t h => ⟨?put, ?getReq, ?toMemory, ?toCoreStore, ?atomic, h.mgmt⟩, ?serve⟩
  case put => exact fun type ok => h.put type ok
  case getReq => exact fun type room ok => h.getReq type room ok
  case toMemory =>
    intro x part world a type request dst m ok
    refine h.getResp type request (State.respWrite_memory request dst ok) ?_
    rw [State.gotBytes_msgs, (s.aside_memWrite _ _ _ _).fab]
  case toCoreStore =>
    intro x site a type request dst
    exact h.getResp type request (State.respWrite_coreStore request dst) (State.gotBytes_msgs _ _ _ _)
  case atomic =>
    intro b type aligned read op m ok
    have same : m.st.fab.msgs = s.fab.msgs := by rw [State.memPut_fab]
    have acts (le : op ≤ 4) := State.inboundAtom_acts aligned read ok t le
    refine ⟨fun silent => h.atomic type ((acts (by omega)).trans (if_neg ?_)) same,
      fun answers => h.atomic type ((acts (by omega)).trans (if_pos ?_)) ((State.respond_msgs ..).trans same)⟩
    · rcases silent with e | e <;> simp [show leAt p.pay 0 1 = _ from e]
    · rcases answers with e | e | e <;> simp [show leAt p.pay 0 1 = _ from e]
  case serve =>
    intro s n g live queued
    refine congrArg _ (?_ : getServeStep n s = _)
    rw [getServeStep, live, State.when_true, queued]

end Sys2Proof.Machine
end

section
/-! Writes of `LANE_PCTL` (R374, R472, R475, R476, R483, R485, R486, R495). -/
set_option autoImplicit false
namespace Sys2Proof.Machine

section
variable {s : State} {w : Who} {p v : Nat} {ok : Bool}

/-- A write that the access rules let pass is rejected with `REJ`, or takes its effects. -/
theorem lanePctlWrite_admitted (reach : s.reaches w = true) (free : s.barred w .LANE_PCTL p v = .none)
    (acts : s.isStatus .LANE_PCTL p v = false) : lanePctlWrite w p v ok s =
      if s.pctlBad p v = true then pctlRejected v (s.fset LANE_PCTL.REJ p 1) else pctlEff p v ok (s.clrW1C .LANE_PCTL p v) := by
  rw [lanePctlWrite, reach, State.when_true, State.regWriteOr_admitted free, acts]
  rfl

/-- A row of `LANE_PCTL` whose bits the write carries is that write. -/
theorem need_lanePctlWrite {carries : Bool} (hp : p < 22) (row : carries = true) :
    need (wfPort p) (s.when carries (lanePctlWrite w p v ok)) = .next (lanePctlWrite w p v ok s) := by
  rw [wfPort, decide_eq_true hp, need_true, row, State.when_true]

end

/-- Settles O42: each row is the write that it names, and the write is judged once. -/
theorem laneControl : Obligations.LaneControl := by
  intro s w p v ok hp reach free acts t
  have write : lanePctlWrite w p v ok s = t := lanePctlWrite_admitted reach free acts
  rw [← write]
  refine ⟨fun go => ?_, fun force => ?_, fun swap => ?_, fun loop => ?_, fun ls2 => ?_⟩
  · exact need_lanePctlWrite hp go
  · exact need_lanePctlWrite hp (decide_eq_true force)
  · exact need_lanePctlWrite hp swap
  · exact need_lanePctlWrite hp (decide_eq_true loop)
  · exact need_lanePctlWrite hp (decide_eq_true ls2)

end Sys2Proof.Machine
end

section
/-! What a port reads of its lanes leaves all but the lanes' violations and the port's own record (R439, R441, R442, R452). -/
set_option autoImplicit false
namespace Sys2Proof.Machine

/-! ## Ports and lanes of the module -/

/-- A row of a port that the module has comes to what its step leaves. -/
theorem need_port {p : Nat} {t u : State} (hp : p < 22) (h : t = u) : need (wfPort p) t = .next u := by
  rw [wfPort, decide_eq_true hp, need_true, h]

/-- So does a row of one of its lanes. -/
theorem need_portLane {p l : Nat} {t u : State} (hp : p < 22) (hl : l < 5) (h : t = u) : need (wfPort p && wfLane l) t = .next u := by
  rw [wfPort, wfLane, decide_eq_true hp, decide_eq_true hl, Bool.and_self, need_true, h]

/-! ## A port's record -/

@[simp] theorem State.lp_setLp_same (s : State) (p : Nat) (x : LanePort) : (s.setLp p x).lp p = x := tget_tset_same _ _ _ _

theorem State.lp_setLp_ne (s : State) {p q : Nat} (x : LanePort) (h : q ≠ p) : (s.setLp p x).lp q = s.lp q :=
  tget_tset_ne _ _ _ _ h

/-- What a lane's new record has in common with its old one, every lane keeps. -/
theorem LanePort.lane_setLane_of_eq {α : Type} (π : RxLane → α) (x : LanePort) {l : Nat} {r : RxLane} (same : π r = π (x.lane l))
    (m : Nat) : π ((x.setLane l r).lane m) = π (x.lane m) := by
  unfold LanePort.lane LanePort.setLane at *
  simp only [List.getD_eq_getElem?_getD, List.getElem?_set] at same ⊢
  by_cases at_ : l = m
  · subst at_
    by_cases inside : l < x.rx.length
    · simp [inside, same]
    · simp [inside]
  · simp [at_]

/-! ## Characters are read -/

/-- A fold of steps that leave the registers outside `rs` alone leaves them alone. -/
theorem State.sameRegsBut_foldl {α : Type} {F : State → α → State} {rs : List Reg} {l : List α}
    (h : ∀ s : State, ∀ a ∈ l, s.sameRegsBut (F s a) rs) (s : State) : s.sameRegsBut (l.foldl F s) rs :=
  List.foldlRecOn l F (motive := fun u => s.sameRegsBut u rs) (s.sameRegsBut_refl rs) fun u hu a ha =>
    State.sameRegsBut_trans hu (h u a ha)

/-- The characters of each lane of `ls` as they are read, with the lane and the disparity after them. -/
def State.charsRead (s : State) (p : Nat) (ls : List Nat) (rx : List (List Nat)) : List (Nat × List ReadChar × Bool) :=
  (ls.zip (if s.nearEnd p then ls.map fun l => ((s.lp p).looped.filter fun a => decide (a.1 = l)).flatMap (·.2) else rx)).map
    fun a => (a.1, readChars ((s.lp p).lane a.1).rd a.2)

/-- They stand on lanes of `ls`. -/
theorem State.charsRead_lane (s : State) (p : Nat) {ls : List Nat} (rx : List (List Nat)) :
    ∀ a ∈ s.charsRead p ls rx, a.1 ∈ ls := by
  intro a ha
  obtain ⟨b, hb, rfl⟩ := List.mem_map.mp ha
  exact (List.of_mem_zip hb).1

/-- The violations among characters read are counted on their lanes. -/
def State.countCv (s : State) (p : Nat) (e : List (Nat × List ReadChar × Bool)) : State :=
  e.foldl (fun s a => s.fsat LANE_MON.CV (laneIx p a.1) (violations a.2.1)) s

theorem State.countCv_eq (s : State) (p : Nat) (e : List (Nat × List ReadChar × Bool)) : ∃ g, s.countCv p e = { s with regs := g } :=
  foldl_regs (fun _ _ => ⟨_, rfl⟩) e s

/-- Reading counts violations and changes the port's record and the output, and of the record no notice that waits for its answer. -/
theorem State.hear_eq (s : State) (p : Nat) (ls : List Nat) (rx : List (List Nat)) : ∃ (x : LanePort) (o : List Out),
    (s.hear p ls rx).2 = { (s.setLp p x).countCv p (s.charsRead p ls rx) with out := o } ∧ x.asked = (s.lp p).asked := by
  have asked (x : LanePort) (e : List (Nat × List ReadChar × Bool)) :
      (e.foldl (fun x a => x.setLane a.1 { x.lane a.1 with rd := a.2.2 }) x).asked = x.asked :=
    List.foldlRecOn e _ (motive := fun y : LanePort => y.asked = x.asked) rfl fun y hy a _ => hy
  have output (b : Bool) (t : State) (c : Out) : ∃ o, (if b then t.emit c else t) = { t with out := o } := by
    cases b
    · exact ⟨_, rfl⟩
    · exact ⟨_, rfl⟩
  obtain ⟨o, ho⟩ := output _ _ _
  exact ⟨_, o, ho, asked _ _⟩

section
variable {s : State} {p : Nat} {ls : List Nat} (rx : List (List Nat))

/-- What reading leaves alone beside the registers. -/
theorem State.hear_rest : (s.hear p ls rx).2.mem = s.mem ∧ (s.hear p ls rx).2.core = s.core ∧ (s.hear p ls rx).2.fab = s.fab ∧
    (∀ q, q ≠ p → (s.hear p ls rx).2.lp q = s.lp q) ∧ ((s.hear p ls rx).2.lp p).asked = (s.lp p).asked := by
  obtain ⟨x, o, read, asked⟩ := s.hear_eq p ls rx
  obtain ⟨g, counted⟩ := (s.setLp p x).countCv_eq p (s.charsRead p ls rx)
  rw [read, counted]
  exact ⟨rfl, rfl, rfl, fun q hq => s.lp_setLp_ne x hq, (congrArg LanePort.asked (s.lp_setLp_same p x)).trans asked⟩

/-- Of the registers it changes the violations counted on the lanes. -/
theorem State.sameRegsBut_hear (hp : p < 22) (hl : ∀ l ∈ ls, l < 5) : s.sameRegsBut (s.hear p ls rx).2 [.LANE_MON] := by
  obtain ⟨x, o, read, -⟩ := s.hear_eq p ls rx
  have counted : (s.setLp p x).sameRegsBut ((s.setLp p x).countCv p (s.charsRead p ls rx)) [.LANE_MON] :=
    State.sameRegsBut_foldl (fun t a ha => by
      have := hl _ (s.charsRead_lane p rx a ha)
      exact t.sameRegsBut_fset (by decide) (by unfold laneIx; omega) (by decide)) _
  rw [read]
  exact counted

end

/-- The lanes that carry a column are lanes. -/
theorem State.rxLanes_lt (s : State) (p : Nat) : ∀ l ∈ s.rxLanes p, l < 5 := by
  unfold State.rxLanes
  split
  · intro l hl
    exact List.mem_range.mp (List.mem_of_mem_filter hl)
  · decide

/-! ## Sequences and notices -/

section
variable {s h : State} {p k n : Nat} {rx : List (List Nat)} {d : List Nat} (a : s.Hears p k n rx d h)
include a

/-- A sequence leaves what reading it leaves, and the record but for the characters and the last FREEZE. -/
theorem State.Hears.rest : h.mem = s.mem ∧ h.core = s.core ∧ h.fab = s.fab ∧ (∀ q, q ≠ p → h.lp q = s.lp q) ∧
    (h.lp p).asked = (s.lp p).asked := by
  have read := State.hear_rest (s := s) (p := p) (ls := s.rxLanes p) rx
  rw [a.after]
  split
  · exact read
  · obtain ⟨mem, core, fab, others, asked⟩ := read
    exact ⟨mem, core, fab, fun q hq => (State.lp_setLp_ne _ _ hq).trans (others q hq),
      (congrArg LanePort.asked (State.lp_setLp_same _ _ _)).trans asked⟩

/-- Of the registers it changes those of the lanes' monitors. -/
theorem State.Hears.regs (hp : p < 22) : s.sameRegsBut h [.LANE_MON] := by
  have read := State.sameRegsBut_hear (s := s) rx hp (s.rxLanes_lt p)
  rw [a.after]
  split
  · exact read
  · exact read

/-- A field of another register reads as before. -/
theorem State.Hears.fget (hp : p < 22) (f : Fld) (hf : f ∈ f.reg.fields) (hr : f.reg ∉ [.LANE_MON]) {i : Nat} (hi : i < 65536) :
    h.fget f i = s.fget f i := (a.regs hp).fget f hf hr hi

/-- So does a bit. -/
theorem State.Hears.fon (hp : p < 22) (f : Fld) (hf : f ∈ f.reg.fields) (hr : f.reg ∉ [.LANE_MON]) {i : Nat} (hi : i < 65536) :
    h.fon f i = s.fon f i := by
  rw [State.fon, State.fon, a.fget hp f hf hr hi]

end

/-- A port's row that acts on a notice comes to what the notice leaves. -/
theorem State.Hears.row {s h t : State} {p code arg : Nat} {rx : List (List Nat)} {guard : Bool} {f : Nat → State → State}
    (a : s.Hears p kNOTICE 2 rx (noticeData code arg) h) (hp : p < 22) (open_ : guard = true) (acts : f arg h = t) :
    need (wfPort p) (s.when guard fun s => s.noticed p code rx f) = .next t :=
  need_port hp (by rw [open_, State.when_true, a.noticed, acts])

end Sys2Proof.Machine
end

section
/-! Training from DETECT to READY (R456, R457, R460 to R471). -/
set_option autoImplicit false
namespace Sys2Proof.Machine

/-! ## A lane is heard in training (R447, R458, R459) -/

section
variable {s : State} {p l : Nat} {chars : List Nat}

/-- A port that trains or is in READY hears. -/
theorem State.hears_of_stage (from_ : 1 ≤ s.stage p) (upTo : s.stage p ≤ 8) : s.hears p = true := by
  simp [State.hears, from_, upTo]

/-- Characters on one lane do not change the stage. -/
theorem State.stage_hear (hp : p < 22) (hl : l < 5) : (s.hear p [l] [chars]).2.stage p = s.stage p :=
  (State.sameRegsBut_hear _ hp (by simpa using hl)).fget LANE_PSTAT.STAGE (by decide) (by decide) (by omega)

theorem State.oneLane_heard (heard : s.hears p = true) (f : Option (List Sym) → State → State) : s.oneLane p l chars f =
    f ((s.hear p [l] [chars]).1.head?.bind cleanSyms) (s.hear p [l] [chars]).2 := if_pos heard

/-- A valid STATUS takes the lane's alignment on in ALIGN, and is counted. -/
theorem statusStep_valid {y : List Sym} {led : Bool} {b : List Nat} (runs : s.lanesRun = true) (heard : s.hears p = true)
    (read : (s.hear p [l] [chars]).1.head?.bind cleanSyms = some y) (valid : statusOf y = (led, some b)) :
    statusStep p l chars s =
      (if (s.hear p [l] [chars]).2.stage p = 2 then
        (if led then (s.hear p [l] [chars]).2.alignBlock p l else (s.hear p [l] [chars]).2.slip p l)
      else (s.hear p [l] [chars]).2).statusIn p led b := by
  simp only [statusStep, runs, State.when_true, State.oneLane_heard heard, read, valid]

/-- In PARTNER a STATUS is counted, and the sixteenth in a row settles the partner. -/
theorem State.statusIn_partner (led : Bool) (b : List Nat) (partner : s.stage p = 3) : s.statusIn p led b =
    (let m := dataNum (b.take 2) % 2 ^ 14
     let n := if ((s.lp p).pid.1, (s.lp p).pid.2.1) = (m, b.getD 2 0) then (s.lp p).pid.2.2 + 1 else 1
     let u := s.setLp p { s.lp p with pid := (m, b.getD 2 0, n), pstage := b.getD 4 0 % 16 }
     if 16 ≤ n then u.partnerKnown p m (b.getD 2 0) else u) := by
  simp only [State.statusIn, partner]

end

/-! ## Requests for taps (R461 to R463) -/

section
variable {s : State} {p l : Nat} {chars d : List Nat}

/-- A TRAIN of a port in training is acted on for the lane that it names. -/
theorem trainStep_named (runs : s.lanesRun = true)
    (read : ((s.hear p [l] [chars]).1.head?.bind cleanSyms).bind (seqData kTRAIN 2) = some d) (hp : p < 22) (hl : l < 5)
    (from_ : 1 ≤ s.stage p) (upTo : s.stage p ≤ 5) (lane : d.getD 0 0 % 8 < 5) :
    trainStep p l chars s = (s.hear p [l] [chars]).2.trained p (d.getD 0 0 % 8) (d.getD 0 0 / 8) (d.getD 1 0) := by
  have trains : (decide (1 ≤ (s.hear p [l] [chars]).2.stage p) && decide ((s.hear p [l] [chars]).2.stage p ≤ 5) &&
      wfLane (d.getD 0 0 % 8)) = true := by
    rw [State.stage_hear hp hl]
    simp only [wfLane, from_, upTo, lane, decide_true, Bool.and_self]
  simp only [trainStep, runs, State.when_true, State.oneLane_heard (State.hears_of_stage from_ (by omega)), read, trains]

end

section
variable {s : State} {p t cmd arg : Nat}

/-- A request that has an answer is counted and answered. -/
theorem State.trained_answered {a : Nat} {u : State} (asks : 1 ≤ cmd ∧ cmd ≤ 4) (answer : s.tapAnswer p t cmd arg = some (a, u)) :
    s.trained p t cmd arg = (u.fsat LANE_TAPS.REQS (5 * p + t) 1).train p t a arg := by
  rw [State.trained, if_pos asks, answer]
  rfl

theorem State.tapAnswer_preset (free : (s.lp p).txDone.getD t false = false) (named : arg < 8) : s.tapAnswer p t 1 arg =
    some (0x10, (s.setTaps p t (presetTaps arg)).fset LANE_TAPS.PRESET (5 * p + t) arg) :=
  if_neg (by simp only [free, Bool.false_eq_true, false_or]; omega)

/-- INC and DEC change one tap, where R460 allows it. -/
theorem State.tapAnswer_move (move : cmd = 2 ∨ cmd = 3) (free : (s.lp p).txDone.getD t false = false) (named : arg < 5) :
    s.tapAnswer p t cmd arg =
      (let tap := (s.taps p t).set arg ((s.taps p t).getD arg 0 + if cmd = 2 then 1 else -1)
       if tapsOk tap then some (0x10, s.setTaps p t tap) else some (0x11, s)) := by
  have answers : ¬((s.lp p).txDone.getD t false = true ∨ 5 ≤ arg) := by
    simp only [free, Bool.false_eq_true, false_or]
    omega
  rcases move with rfl | rfl
  · exact if_neg answers
  · exact if_neg answers

end

/-! ## Deskew (R465, R466) -/

/-- A lane is lined up with the latest, whose skew is `most`. -/
def State.lineUp (p most : Nat) (skews : List Nat) (s : State) (l : Nat) : State :=
  s.setLp p ((s.lp p).setLane l { (s.lp p).lane l with skewed := true, delay := most - skews.getD l 0 })

section
variable (p most : Nat) (skews : List Nat)

/-- Lanes lined up go on as before, with no fall back to a full training. -/
theorem State.foldl_lineUp (lanes : List Nat) (s : State) :
    (lanes.foldl (State.lineUp p most skews) s).going p = s.going p ∧
    ((lanes.foldl (State.lineUp p most skews) s).lp p).full = (s.lp p).full := by
  have one (s : State) (l : Nat) : (s.lineUp p most skews l).going p = s.going p ∧
      ((s.lineUp p most skews l).lp p).full = (s.lp p).full := by
    simp only [State.lineUp, State.going, State.lp_setLp_same]
    refine ⟨congrArg (List.filter · fiveLanes) (funext fun m => ?_), rfl⟩
    rw [LanePort.lane_setLane_of_eq RxLane.aligned _ (r := { (s.lp p).lane l with skewed := true, delay := _ }) rfl,
      LanePort.lane_setLane_of_eq RxLane.out _ (r := { (s.lp p).lane l with skewed := true, delay := _ }) rfl]
    rfl
  refine List.foldlRecOn lanes _ (motive := fun u : State => u.going p = s.going p ∧ (u.lp p).full = (s.lp p).full) ⟨rfl, rfl⟩ ?_
  rintro u ⟨going, full⟩ l -
  exact ⟨(one u l).1.trans going, (one u l).2.trans full⟩

end

/-- A set field beside the lanes' failures leaves the lanes that go on. -/
theorem State.going_fset_skew (s : State) {p : Nat} (hp : p < 22) (v : Nat) :
    (s.fset LANE_PSTAT.SKEW p v).going p = s.going p := by
  unfold State.going
  refine List.filter_congr fun m hm => ?_
  have inside : m < 5 := List.mem_range.mp hm
  rw [State.fon_fset_ne s v (Fld.key_ne LANE_MON.FAILED LANE_PSTAT.SKEW (by unfold laneIx; omega) (by omega) (by decide) (by decide)
    (.inl (by decide)))]
  rfl

section
variable {s : State} {p : Nat} {skews : List Nat}

/-- The lanes of a copper port, all within reach, are lined up, and the gate or the map follows. -/
theorem deskewStep_level (runs : s.lanesRun = true) (deskew : s.stage p = 5) (early : (s.lp p).rxIn = false)
    (unasked : (s.lp p).want = none) (short : (s.lp p).full = false) (some_ : s.going p ≠ [])
    (level : ∀ l ∈ s.going p, skews.getD l 0 ≤ 64) (copper : p < 18) :
    deskewStep p skews s =
      (let most := ((s.going p).map (skews.getD · 0)).foldl max 0
       ((((s.going p).foldl (State.lineUp p most skews) s).fset LANE_PSTAT.SKEW p most).setStage p 6).afterKeys p) := by
  have reach : (((s.going p).map (skews.getD · 0)).filter fun k => decide (k ≤ 64)) = (s.going p).map (skews.getD · 0) :=
    List.filter_eq_self.mpr fun k hk => by
      obtain ⟨l, hl, rfl⟩ := List.mem_map.mp hk
      exact decide_eq_true (level l hl)
  have lined (most : Nat) : (s.going p).foldl (fun s l =>
      if 64 < skews.getD l 0 then s.laneOut p l 0x0226
      else s.setLp p ((s.lp p).setLane l { (s.lp p).lane l with skewed := true, delay := most - skews.getD l 0 })) s =
        (s.going p).foldl (State.lineUp p most skews) s :=
    foldl_congr_mem (fun t l hl => if_neg (by have := level l hl; omega)) s
  have guard : (s.lanesRun && decide (s.stage p = 5) && !(s.lp p).rxIn && decide ((s.lp p).want = none)) = true := by
    simp [runs, deskew, early, unasked]
  rw [deskewStep, guard, State.when_true]
  dsimp only
  rw [reach, lined]
  generalize ((s.going p).map (skews.getD · 0)).foldl max 0 = most
  obtain ⟨going, full⟩ := State.foldl_lineUp p most skews (s.going p) s
  have whole : ((((s.going p).foldl (State.lineUp p most skews) s).fset LANE_PSTAT.SKEW p most).lp p).full = false := full.trans short
  rw [if_neg, if_neg, if_neg]
  · simp [isG]
    omega
  · simp only [whole, Bool.false_and, Bool.false_eq_true, not_false_eq_true]
  · rw [State.going_fset_skew _ (by omega), going]
    simpa using some_

end

/-! ## The gate ends (R467, R468) -/

/-- What a lane counted in its runs of the gate, where it ran in it. -/
def gateSum (run : List Nat) (runs : List (List (Nat × Nat))) (l : Nat) (f : Nat × Nat → Nat) : Nat :=
  if run.contains l then ((runs.getD l []).map f).foldl (· + ·) 0 else 0

/-- The lanes' results of the gate, with those in `good` having passed. -/
def State.gateCounted (s : State) (p : Nat) (run good : List Nat) (runs : List (List (Nat × Nat))) : State :=
  fiveLanes.foldl (fun (s : State) l => ((s.fput LANE_MON.GATE_OK (5 * p + l) (good.contains l)).fsat LANE_MON.CV (5 * p + l)
    (gateSum run runs l (·.1))).fsat LANE_MON.PRBS_ERR (5 * p + l) (gateSum run runs l (·.2))) s

/-- The gate's outcome is that of the lanes that passed it. -/
theorem gateEndStep_ended {s : State} {p : Nat} (runs : List (List (Nat × Nat))) (trains : s.lanesRun = true) (gate : s.stage p = 7)
    (early : (s.lp p).rxIn = false) (unasked : (s.lp p).want = none) :
    gateEndStep p runs s =
      (let run := (s.going p).filter fun l => ((s.lp p).lane l).skewed
       let good := run.filter fun l => gatePass (runs.getD l [])
       let u := s.gateCounted p run good runs
       let v := u.fset LANE_PSTAT.GATE_DONE p 1
       if good.isEmpty then (u.trainFail p).logC 0x0224
       else (if good.length < 4 then v.logC 0x0222 else v).askMap p (mapOf (good.take 4))) := by
  have guard : (s.lanesRun && decide (s.stage p = 7) && !(s.lp p).rxIn && decide ((s.lp p).want = none)) = true := by
    simp [trains, gate, early, unasked]
  rw [gateEndStep, guard, State.when_true]
  rfl

/-- Settles O43: each row by the stage that admits it, and by what that stage's rule says of the lane, the request or the map. -/
theorem laneTraining : Obligations.LaneTraining := by
  refine ⟨fun s p l hp hl runs => ⟨?detect, ?late, ?status, ?train, ?unequal⟩, ?deskew, ?gate, ?maps⟩
  case detect =>
    intro untrained awake _ _
    refine need_portLane hp hl ?_
    have asleep : (s.fset LANE_MON.LOS (laneIx p l) 0).fget PWR_PSTATE.STATE 0 ≠ 3 := by
      rwa [State.fget_fset_reg s (by decide) (by unfold laneIx; omega) (by decide) (by decide) (by decide)]
    have state : (s.fset LANE_MON.LOS (laneIx p l) 0).lstate p = 3 :=
      (State.fget_fset_reg s (by decide) (by unfold laneIx; omega) (by omega) (by decide) (by decide)).trans untrained
    simp only [signalDetectStep, runs, State.when_true, if_neg asleep, state]
    rfl
  case late =>
    intro align whole unaligned inside t det late
    refine need_portLane hp hl ?_
    simp only [alignTimeoutStep, laneIx, runs, align, whole, det, unaligned, inside, late, decide_true, Bool.not_false, Bool.and_self,
      State.when_true, if_true]
  case status =>
    intro chars y led b read valid h m q x n u
    have stage : h.stage p = s.stage p := State.stage_hear hp hl
    have step (heard : s.hears p = true) := statusStep_valid runs heard read valid
    have partner (at3 : s.stage p = 3) : statusStep p l chars s = if 16 ≤ n then u.partnerKnown p m q else u := by
      rw [step (State.hears_of_stage (by omega) (by omega)), if_neg (by rw [stage, at3]; decide)]
      exact State.statusIn_partner led b (stage.trans at3)
    have aligning (at2 : s.stage p = 2) : statusStep p l chars s = (if led then h.alignBlock p l else h.slip p l).statusIn p led b := by
      rw [step (State.hears_of_stage (by omega) (by omega)), if_pos (stage.trans at2)]
    refine ⟨fun at2 on => need_portLane hp hl ?_, fun at2 off => need_portLane hp hl ?_, fun at3 many => need_portLane hp hl ?_,
      fun at3 few => need_portLane hp hl ?_⟩
    · rw [aligning at2, on]
      rfl
    · rw [aligning at2, off]
      rfl
    · rw [partner at3, if_pos many]
    · rw [partner at3, if_neg (by omega)]
  case train =>
    intro chars d read from_ upTo lane h t cmd arg free
    have acted {u : State} {a : Nat} (asks : 1 ≤ cmd ∧ cmd ≤ 4) (answer : h.tapAnswer p t cmd arg = some (a, u)) :
        exec (.train p l chars) s = .next ((u.fsat LANE_TAPS.REQS (5 * p + t) 1).train p t a arg) :=
      need_portLane hp hl ((trainStep_named runs read hp hl from_ upTo lane).trans (State.trained_answered asks answer))
    refine ⟨fun preset named unfrozen => acted (by omega) ?_, fun done => acted (by omega) ?_,
      fun move named unfrozen => ⟨fun ok => acted (by omega) ?_, fun bad => acted (by omega) ?_⟩⟩
    · rw [preset]
      exact State.tapAnswer_preset unfrozen named
    · rw [done]
      rfl
    · exact (State.tapAnswer_move move unfrozen named).trans (if_pos ok)
    · exact (State.tapAnswer_move move unfrozen named).trans (if_neg (ne_true_of_eq_false bad))
  case unequal =>
    intro equalise goes undone asked late
    refine need_portLane hp hl ?_
    simp only [equaliseTimeoutStep, runs, equalise, goes, undone, asked, decide_true, Bool.not_false, Bool.and_self, State.when_true,
      Bool.true_and]
    exact if_pos (by simpa using late)
  case deskew =>
    intro s p skews hp runs stage early unasked short some_ level copper
    exact need_port hp (deskewStep_level runs stage early unasked short some_ level copper)
  case gate =>
    intro s p runs hp trains gate early unasked run good sum u v
    have ended : gateEndStep p runs s = if good.isEmpty then (u.trainFail p).logC 0x0224
        else (if good.length < 4 then v.logC 0x0222 else v).askMap p (mapOf (good.take 4)) :=
      gateEndStep_ended runs trains gate early unasked
    have passed (some_ : 0 < good.length) : ¬(good.isEmpty = true) := by
      simpa [List.length_pos_iff] using some_
    refine ⟨fun none_ => need_port hp ?_, fun some_ few => need_port hp ?_, fun four => need_port hp ?_⟩
    · rw [ended, if_pos (List.isEmpty_iff.mpr none_)]
    · rw [ended, if_neg (passed some_), if_pos few]
    · rw [ended, if_neg (passed (by omega)), if_neg (by omega)]
  case maps =>
    intro s h p m rx hp open_ lanes
    have named : decide (0 < m % 32) = true := decide_eq_true lanes
    exact ⟨fun a => a.row hp open_ (by rw [named, State.when_true]), fun a => a.row hp open_ (by rw [named, State.when_true])⟩

end Sys2Proof.Machine
end

section
/-! Link states, loopback and notices (R453, R472, R480 to R483, R486, R489, R495). -/
set_option autoImplicit false
namespace Sys2Proof.Machine

section
variable {s h : State} {p arg code : Nat} {rx : List (List Nat)}

/-- A notice that waits for its answer still waits once the answer has been read. -/
theorem State.Hears.asked_any {k n : Nat} {d : List Nat} (a : s.Hears p k n rx d h) (waits : ∃ e ∈ (s.lp p).asked, e.1 = code) :
    ((h.lp p).asked.any fun e => decide (e.1 = code)) = true := by
  obtain ⟨-, -, -, -, same⟩ := a.rest
  obtain ⟨e, he, hc⟩ := waits
  rw [same]
  exact List.any_eq_true.mpr ⟨e, he, decide_eq_true hc⟩

/-- A port's row that acts on the answer to a notice acts while that notice waits. -/
theorem State.Hears.answer {t : State} {guard : Bool} {f : State → State} {asks : Nat}
    (a : s.Hears p kNOTICE 2 rx (noticeData code arg) h) (hp : p < 22) (open_ : guard = true)
    (waits : ∃ e ∈ (s.lp p).asked, e.1 = asks) (acts : f h = t) :
    need (wfPort p) (s.when guard fun s => s.noticed p code rx fun _ s =>
      s.when ((s.lp p).asked.any fun e => decide (e.1 = asks)) f) = .next t :=
  a.row hp open_ (by rw [a.asked_any waits, State.when_true, acts])

end

section
variable {s : State} {p : Nat} (up : s.hubUp = true) (ready : s.stage p = 8)
include up ready

/-- A port in READY is in the lane state that `LSTATE` shows. -/
theorem State.inLs_ready {k : Nat} (state : s.lstate p = k) : s.inLs p k = true := by
  simp [State.inLs, up, ready, state]

/-- Training runs on it, and NOTICE may arrive, outside a pause. -/
theorem State.noticeOk_ready (runs : s.pausing = false) : s.noticeOk p = true := by
  simp [State.noticeOk, State.lanesRun, up, ready, runs]

end

/-- Settles O44: each row by the guard that a port in READY meets, and the notice or the answer that it acts on. -/
theorem linkStates : Obligations.LinkStates := by
  refine ⟨?own, ?ready, ?far, ?again⟩
  case own =>
    intro s p hp up ready
    refine ⟨fun us ls0 en idle => need_port hp ?_, fun ls1 => need_port hp ?_⟩
    · rw [ls1IdleStep, State.inLs_ready up ready ls0, en, decide_eq_true idle]
      rfl
    · rw [ls1ExitStep, State.inLs_ready up ready ls1, State.when_true]
  case ready =>
    intro s h p arg rx hp up ready told
    have in8 : (s.hubUp && decide (s.stage p = 8)) = true := by simp [up, ready]
    refine ⟨fun runs a => ?retrain, fun runs a => ⟨?swapped, fun lane => ?failed⟩, fun ls0 en a => ?ls1Req,
      fun ls0 waits a => ?ls1Ack, fun ls1 a => ?wake, fun a => ?ls2Req, fun waits a => ?ls2Ack,
      fun held a => ?loop, fun free a => ?refuse⟩
    case retrain => exact a.row hp (by simp [State.lanesRun, up, ready, runs]) rfl
    case swapped => exact a.row hp (State.noticeOk_ready up ready runs) rfl
    case failed => exact a.row hp (State.noticeOk_ready up ready runs) (if_neg (by simp [wfLane, lane]))
    case ls1Req =>
      refine a.row hp (State.inLs_ready up ready ls0) ?_
      rw [a.fon hp LANE_PCTL.LS1_EN (by decide) (by decide) (by omega), en]
      rfl
    case ls1Ack => exact a.answer hp (State.inLs_ready up ready ls0) waits rfl
    case wake => exact a.row hp (State.inLs_ready up ready ls1) rfl
    case ls2Req => exact a.row hp in8 rfl
    case ls2Ack => exact a.answer hp in8 waits rfl
    case loop =>
      refine a.row hp (by simp [up, ready]) (if_pos ?_)
      rw [a.fon hp FAB_PORT.DOWN_REQ (by decide) (by decide) (by omega), held]
    case refuse =>
      refine a.row hp (by simp [up, ready]) (if_neg ?_)
      rw [a.fon hp FAB_PORT.DOWN_REQ (by decide) (by decide) (by omega), free]
      exact Bool.false_ne_true
  case far =>
    intro s h p arg rx hp up told
    refine ⟨fun waits a => a.answer hp up waits rfl, fun waits a => a.answer hp up waits rfl, fun off a => a.row hp ?_ rfl⟩
    simp [up, off]
  case again =>
    intro s p code arg t hp up late
    refine need_port hp ?_
    rw [noticeRepeatStep, up, State.when_true, late]

end Sys2Proof.Machine
end

section
/-! Credits, STATUS, SKIP columns, lane failures and the readings of lanes and optics (R439, R441, R442, R448, R451, R455, R457, R477,
R479, R487, R492, R493). -/
set_option autoImplicit false
namespace Sys2Proof.Machine

/-! ## What a lane's failure leaves alone -/

/-- Device memory stands, and so does every register outside `rs`. -/
structure State.Leaves (s t : State) (rs : List Reg) : Prop where
  mem  : t.mem = s.mem
  regs : s.sameRegsBut t rs

section
variable {s t u : State} {rs : List Reg}

theorem State.Leaves.refl (s : State) (rs : List Reg) : s.Leaves s rs := ⟨rfl, s.sameRegsBut_refl rs⟩

theorem State.Leaves.trans (h : s.Leaves t rs) (k : t.Leaves u rs) : s.Leaves u rs :=
  ⟨k.mem.trans h.mem, State.sameRegsBut_trans h.regs k.regs⟩

theorem State.Leaves.mono {qs : List Reg} (h : s.Leaves t rs) (k : ∀ r ∈ rs, r ∈ qs) : s.Leaves t qs :=
  ⟨h.mem, State.sameRegsBut_mono h.regs k⟩

/-- One more field of a register of `rs` is set. -/
theorem State.Leaves.fset (h : s.Leaves t rs) {f : Fld} {i v : Nat} (hr : f.reg ∈ rs) (hi : i < 65536) (hf : f.lsb < 1024) :
    s.Leaves (t.fset f i v) rs := ⟨h.mem, h.regs.fset hr hi hf⟩

theorem State.leaves_of_eq (hm : t.mem = s.mem) (hr : t.regs = s.regs) : s.Leaves t rs := ⟨hm, State.sameRegsBut_of_regs rs hr⟩

/-- A field of a register of `rs` is set. -/
theorem State.leaves_fset (s : State) {f : Fld} {i v : Nat} (hr : f.reg ∈ rs) (hi : i < 65536) (hf : f.lsb < 1024) :
    s.Leaves (s.fset f i v) rs := (Leaves.refl s rs).fset hr hi hf

/-- A port's record is none of them. -/
theorem State.leaves_setLp (s : State) (p : Nat) (x : LanePort) : s.Leaves (s.setLp p x) rs := State.leaves_of_eq rfl rfl

/-- Nor is the output. -/
theorem State.leaves_emit (s : State) (o : Out) : s.Leaves (s.emit o) rs := State.leaves_of_eq (s.emit_mem o) (s.emit_regs o)

/-- Nor are the free values drawn. -/
theorem State.leaves_drew (s : State) : s.Leaves s.drew rs := State.leaves_of_eq s.drew_mem s.drew_regs

/-- A fold of such steps is one. -/
theorem State.leaves_foldl {α : Type} {F : State → α → State} {l : List α} (h : ∀ s : State, ∀ a ∈ l, s.Leaves (F s a) rs)
    (s : State) : s.Leaves (l.foldl F s) rs :=
  List.foldlRecOn l F (motive := fun u => s.Leaves u rs) (.refl s rs) fun u hu a ha => hu.trans (h u a ha)

end

theorem State.leaves_log (s : State) (e : Evt) : s.Leaves (s.log e) [.ELOG, .SPARE_ELOG_PTR] := ⟨s.log_mem e, s.sameRegsBut_log e⟩

/-- The registers that change when a port goes down: the log's, the port's own, the routing tables and the two views of it. -/
def portRegs : List Reg := [.ELOG, .SPARE_ELOG_PTR, .LANE_PSTAT, .FAB_PORT, .FAB_LOCAL, .FAB_RACK, .GCTL_MGMT]

/-- Columns put on the lanes are no part of memory or registers. -/
theorem State.leaves_putCols (s : State) (p : Nat) (l : List (List (List Sym))) (rs : List Reg) : s.Leaves (s.putCols p l) rs := by
  obtain ⟨x, r, sent⟩ := s.putCols_eq p l
  rw [sent]
  exact State.leaves_of_eq rfl rfl

/-- Flits freed change the credit totals alone. -/
theorem State.leaves_cutPort (s : State) (o : Nat) (rs : List Reg) : s.Leaves (s.cutPort o) rs := by
  have freed (s : State) (c : Crossing) : s.Leaves (s.freed c.frees c.pkt) rs := by
    unfold State.freed
    split
    · exact State.leaves_of_eq rfl rfl
    · exact .refl s rs
  unfold State.cutPort
  dsimp only
  refine .trans ?_ (State.leaves_foldl (fun s c _ => freed s c) _)
  exact State.leaves_of_eq rfl rfl

/-- A message of the hub's own changes the fabric's streams alone. -/
theorem State.leaves_floodNotice (s : State) (rs : List Reg) : s.Leaves s.floodNotice rs := by
  have begun (s : State) (x : Xfer) : s.Leaves (s.beginHub x) rs := by
    unfold State.beginHub State.begin
    split
    · exact .refl s rs
    · exact State.leaves_of_eq rfl rfl
  unfold State.floodNotice
  exact s.leaves_drew.trans (State.leaves_foldl (fun s _ _ => begun s _) _)

/-- The tables of fault-closing mode. -/
theorem State.leaves_reshape (s : State) : s.Leaves s.reshape portRegs := by
  have mask (v : Nat) (s : State) (p : Nat) (hp : p ∈ List.range 64) : s.Leaves (s.fset FAB_LOCAL.MASK p v) portRegs :=
    s.leaves_fset (by decide) (by have := List.mem_range.mp hp; omega) (by decide)
  have rack (v : Nat) (s : State) (r : Nat) (hr : r ∈ List.range 256) : s.Leaves (s.faultRack v r) portRegs := by
    have place : r < 65536 := by have := List.mem_range.mp hr; omega
    unfold State.faultRack State.fput
    iterate 5 apply State.Leaves.fset (hr := by decide) (hi := place) (hf := by decide)
    exact .refl s _
  unfold State.reshape
  split
  · refine State.Leaves.trans (State.Leaves.trans (State.leaves_foldl ?_ s) (State.leaves_foldl ?_ _)) (State.leaves_drew _)
    · exact fun s p hp => mask _ s p hp
    · exact fun s r hr => rack _ s r hr
  · exact .refl s _

theorem State.leaves_viewCheck (s : State) (p : Nat) : s.Leaves (s.viewCheck p) portRegs := by
  have noted (m : MgmtSt) : s.Leaves { s with mgmt := m } portRegs := State.leaves_of_eq rfl rfl
  unfold State.viewCheck
  dsimp only
  split
  · split
    · exact noted _
    · exact .refl s _
  · split
    · exact (noted _).trans (State.leaves_fset _ (by decide) (by decide) (by decide))
    · exact noted _

/-- A lane that fails is marked and logged; then its port stands, goes down, or asks for another map. -/
theorem State.laneFail_cases {s : State} {p l : Nat} (reading : Nat) (new : s.fon LANE_MON.FAILED (laneIx p l) = false) :
    ∃ e : Evt, s.laneFail p l reading = (s.fset LANE_MON.FAILED (laneIx p l) 1).log e ∨
      s.laneFail p l reading =
        ((((s.fset LANE_MON.FAILED (laneIx p l) 1).log e).linkUp p false).trainFail p).logC 0x0223 ∨
      ∃ m, s.laneFail p l reading = ((s.fset LANE_MON.FAILED (laneIx p l) 1).log e).askMap p m := by
  unfold State.laneFail
  rw [if_neg (by simp [new])]
  extract_lets u x m m2
  refine ⟨{ code := 0x0220, kind := 4, unit := laneUnit p l, data := reading }, ?_⟩
  by_cases used : m.testBit l = true ∧ u.hears p = true
  · rw [if_pos used]
    by_cases last : m2 = 0
    · exact .inr (.inl (if_pos last))
    · exact .inr (.inr ⟨m2, if_neg last⟩)
  · exact .inl (if_neg used)

section
variable (s : State) {p : Nat} (hp : p < 22)
include hp

theorem State.leaves_portService : s.Leaves (s.portService p) portRegs := by
  have served : s.Leaves (s.fput FAB_PORT.INSERV p (s.inServ p)) portRegs :=
    s.leaves_fset (by decide) (by omega) (by decide)
  unfold State.portService
  dsimp only
  split
  · exact .refl s _
  · split
    · exact served.trans ((State.leaves_floodNotice _ _).trans (State.leaves_reshape _))
    · exact served

theorem State.leaves_linkDown : s.Leaves (s.linkUp p false) portRegs := by
  unfold State.linkUp State.fput
  exact (((s.leaves_cutPort p portRegs).fset (by decide) (by omega) (by decide)).trans (State.leaves_viewCheck _ p)).trans
    (State.leaves_portService _ hp)

theorem State.leaves_trainFail : s.Leaves (s.trainFail p) portRegs := by
  unfold State.trainFail State.setStage
  exact ((s.leaves_fset (by decide) (by omega) (by decide)).trans (State.leaves_viewCheck _ p)).fset (by decide) (by omega) (by decide)

/-- A notice takes the port out of LS1. -/
theorem State.leaves_notice (code arg : Nat) : s.Leaves (s.notice p code arg) portRegs := by
  have awake : s.Leaves (s.leaveLs1 p) portRegs := by
    unfold State.leaveLs1
    split
    · exact ((s.leaves_fset (by decide) (by omega) (by decide)).trans (State.leaves_emit _ _)).trans (State.leaves_putCols _ _ _ _)
    · exact .refl s _
  unfold State.notice State.sendSeq
  exact (awake.trans (State.leaves_emit _ _)).trans (State.leaves_putCols _ _ _ _)

theorem State.leaves_askMap (m : Nat) : s.Leaves (s.askMap p m) portRegs := by
  unfold State.askMap State.ask
  exact ((s.leaves_setLp p _).trans (State.leaves_setLp _ _ _)).trans (State.leaves_notice _ hp 1 m)

/-- A port with no lane left goes down. -/
theorem State.leaves_portDown (code : Nat) : s.Leaves (((s.linkUp p false).trainFail p).logC code) portRegs := by
  unfold State.logC
  exact ((s.leaves_linkDown hp).trans (State.leaves_trainFail _ hp)).trans ((State.leaves_log _ _).mono (by decide))

/-- What follows for the port leaves the lanes' monitors alone. -/
theorem State.leaves_laneFail {l : Nat} (reading : Nat) (new : s.fon LANE_MON.FAILED (laneIx p l) = false) :
    (s.fset LANE_MON.FAILED (laneIx p l) 1).Leaves (s.laneFail p l reading) portRegs := by
  obtain ⟨e, outcome⟩ := State.laneFail_cases reading new
  have logged := ((s.fset LANE_MON.FAILED (laneIx p l) 1).leaves_log e).mono (qs := portRegs) (by decide)
  rcases outcome with stands | down | ⟨m, asks⟩
  · exact stands ▸ logged
  · exact down ▸ logged.trans (State.leaves_portDown _ hp _)
  · exact asks ▸ logged.trans (State.leaves_askMap _ hp m)

/-- So a lane's failure shows in its own bit, and beside it the monitors, memory and every register that is not a port's stand. -/
theorem State.laneFail_shows {l : Nat} (hl : l < 5) (reading : Nat) :
    (s.laneFail p l reading).fget LANE_MON.FAILED (laneIx p l) = 1 ∧
    (s.laneFail p l reading).fget LANE_MON.LOS (laneIx p l) = s.fget LANE_MON.LOS (laneIx p l) ∧
    s.Leaves (s.laneFail p l reading) (.LANE_MON :: portRegs) := by
  have place : laneIx p l < 65536 := by unfold laneIx; omega
  cases new : s.fon LANE_MON.FAILED (laneIx p l) with
  | true =>
    rw [State.laneFail, if_pos new]
    exact ⟨of_decide_eq_true new, rfl, .refl s _⟩
  | false =>
    have left := s.leaves_laneFail hp reading new
    refine ⟨?_, ?_, (s.leaves_fset (by decide) place (by decide)).trans (left.mono fun r => List.mem_cons_of_mem _)⟩
    · rw [left.regs.fget LANE_MON.FAILED (by decide) (by decide) place, State.fget_fset_same]
      rfl
    · rw [left.regs.fget LANE_MON.LOS (by decide) (by decide) place]
      exact s.fget_fset_beside _ _ (by decide) (by decide) (by decide)

end

/-! ## Credits and SKIP columns (R447, R448, R455) -/

/-- A CREDIT names its pool. -/
theorem creditData_pool {pool : Nat} (total : Nat) (named : pool ≤ 4) : (creditData pool total).getD 0 0 % 16 = pool := by
  simp only [creditData, List.getD_cons_zero]
  omega

/-- It carries a running total of 12 bits. -/
theorem creditData_total (pool : Nat) {total : Nat} (fits : total < 4096) :
    (creditData pool total).getD 1 0 + 256 * ((creditData pool total).getD 0 0 / 16) = total := by
  simp only [creditData, List.getD_cons_zero, List.getD_cons_succ, bitsOf, Nat.shiftRight_eq_div_pow]
  omega

/-- A pool that the spec names takes what its total has grown by. -/
theorem State.credited_named (s : State) (p : Nat) {pool : Nat} (total : Nat) (named : pool ≤ 4) : s.credited p pool total =
    (({ s with fab := { s.fab with credRx := tset s.fab.credRx (p * 8 + pool) total 0 } }.setCredit p pool
      (s.credit p pool + wrapSub 12 total (tget s.fab.credRx (p * 8 + pool) 0))).creditCame p) := if_neg (by omega)

section
variable {cols : List (List Nat)}

/-- Above half full the SKIP is deleted. -/
theorem matchRate_full (above : 8 < cols.length) : matchRate cols = cols.dropLast := if_pos above

/-- Half full, it stands. -/
theorem matchRate_half (half : cols.length = 8) : matchRate cols = cols := by
  rw [matchRate, if_neg (by omega), if_neg (by omega)]

/-- Below, it is repeated. -/
theorem matchRate_low (below : cols.length < 8) : matchRate cols = cols ++ cols.drop (cols.length - 1) := by
  rw [matchRate, if_neg (by omega), if_pos below]

end

/-! ## Lane failures and readings (R477, R479, R487, R492, R493) -/

section
variable {s : State} {p l cause reading : Nat}

/-- Up to EQUALISE a lost signal shows in `LOS`, and the lane does not fail by it. -/
theorem State.laneTrouble_early (early : s.stage p < 5) (hp : p < 22) (hl : l < 5) :
    s.laneTrouble p l 0 reading = s.fset LANE_MON.LOS (laneIx p l) 1 := by
  have stage : (s.fset LANE_MON.LOS (laneIx p l) 1).stage p = s.stage p :=
    State.fget_fset_reg s (by decide) (by unfold laneIx; omega) (by omega) (by decide) (by decide)
  exact if_neg fun h => by have := stage ▸ h.1; omega

/-- From DESKEW on the lane fails. -/
theorem State.laneTrouble_late (late : 5 ≤ s.stage p) (upTo : s.stage p ≤ 8) (hp : p < 22) (hl : l < 5) :
    s.laneTrouble p l cause reading = (if cause = 0 then s.fset LANE_MON.LOS (laneIx p l) 1 else s).laneFail p l reading := by
  have stage : (if cause = 0 then s.fset LANE_MON.LOS (laneIx p l) 1 else s).stage p = s.stage p := by
    split
    · exact State.fget_fset_reg s (by decide) (by unfold laneIx; omega) (by omega) (by decide) (by decide)
    · rfl
  exact if_pos ⟨stage ▸ late, State.hears_of_stage (by omega) (by omega)⟩

/-- A lost signal shows in `LOS`, and from DESKEW on the lane fails. -/
theorem State.laneTrouble_shows (hp : p < 22) (hl : l < 5) : s.Leaves (s.laneTrouble p l 0 reading) (.LANE_MON :: portRegs) ∧
    (5 ≤ s.stage p → s.stage p ≤ 8 → (s.laneTrouble p l 0 reading).fget LANE_MON.LOS (laneIx p l) = 1 ∧
      (s.laneTrouble p l 0 reading).fget LANE_MON.FAILED (laneIx p l) = 1) := by
  have lost : s.Leaves (s.fset LANE_MON.LOS (laneIx p l) 1) (.LANE_MON :: portRegs) :=
    s.leaves_fset (by decide) (by unfold laneIx; omega) (by decide)
  obtain ⟨failed, los, left⟩ := (s.fset LANE_MON.LOS (laneIx p l) 1).laneFail_shows hp hl reading
  refine ⟨?_, fun late upTo => ?_⟩
  · unfold State.laneTrouble
    rw [if_pos rfl]
    dsimp only
    split
    · exact lost.trans left
    · exact lost
  · rw [State.laneTrouble_late late upTo hp hl, if_pos rfl]
    exact ⟨los.trans (s.fget_fset_same _ _ _), failed⟩

end

/-- What a read of a lane's monitor puts out, and the counts that it clears. -/
def State.monRead (s : State) (i : Nat) : State :=
  ((s.emit (.read (s.regWord .LANE_MON i))).fset LANE_MON.CV i 0).fset LANE_MON.PRBS_ERR i 0

theorem State.monRead_shows (s : State) {i : Nat} (hi : i < 65536) : (s.monRead i).fget LANE_MON.CV i = 0 ∧
    (s.monRead i).fget LANE_MON.PRBS_ERR i = 0 ∧ s.sameRegsBut (s.monRead i) [.LANE_MON] := by
  have shown : s.sameRegsBut (s.emit (.read (s.regWord .LANE_MON i))) [.LANE_MON] := State.sameRegsBut_of_regs _ (s.emit_regs _)
  refine ⟨?_, State.fget_fset_same _ _ _ _, (shown.fset (by decide) hi (by decide)).fset (by decide) hi (by decide)⟩
  exact (State.fget_fset_beside _ _ _ (by decide) (by decide) (by decide)).trans (State.fget_fset_same _ _ _ _)

/-- The pattern errors among a lane's characters count where its pattern is checked. -/
theorem laneMonReadStep_heard {s : State} {w : Who} {p l : Nat} {chars : List Nat} (may : s.readsLanes w = true)
    (heard : s.hears p = true) : laneMonReadStep w p l chars s =
      ((s.hear p [l] [chars]).2.fsat LANE_MON.PRBS_ERR (laneIx p l)
        (if s.fon LANE_PCTL.PRBS p = true ∨ s.stage p = 7 then patternErrs ((s.hear p [l] [chars]).1.headD []) else 0)).monRead
        (laneIx p l) := by
  rw [laneMonReadStep, may, State.when_true, if_pos heard]
  simp only [Bool.or_eq_true, decide_eq_true_eq]
  rfl

/-- The readings of a lane as they are shown. -/
def State.optRead (s : State) (i rx tx refl bias : Nat) : State :=
  (((s.fset LANE_OPT.RX_PWR i rx).fset LANE_OPT.TX_PWR i tx).fset LANE_OPT.BREFL i refl).fset LANE_OPT.BIAS i bias

section
variable (s : State) {i : Nat} (rx tx refl bias : Nat)

/-- Each in its own field. -/
theorem State.optRead_shows : (s.optRead i rx tx refl bias).fget LANE_OPT.RX_PWR i = rx % 2 ^ 16 ∧
    (s.optRead i rx tx refl bias).fget LANE_OPT.TX_PWR i = tx % 2 ^ 16 ∧
    (s.optRead i rx tx refl bias).fget LANE_OPT.BREFL i = refl % 2 ^ 16 ∧
    (s.optRead i rx tx refl bias).fget LANE_OPT.BIAS i = bias % 2 ^ 16 := by
  simp (disch := decide) only [State.optRead, State.fget_fset_beside, State.fget_fset_same]
  exact ⟨rfl, rfl, rfl, rfl⟩

theorem State.leaves_optRead (hi : i < 65536) : s.Leaves (s.optRead i rx tx refl bias) [.LANE_OPT] :=
  (((s.leaves_fset (by decide) hi (by decide)).fset (by decide) hi (by decide)).fset (by decide) hi (by decide)).fset (by decide) hi
    (by decide)

/-- Of the conditions that start to hold, the monitor leaves entries of the log, and of a lost signal what it is to the port. -/
theorem optMonitorStep_parts {p l : Nat} (up : s.hubUp = true) (optical : isG p = true) :
    ∃ u : State, (s.optRead (laneIx p l) rx tx refl bias).Leaves u [.ELOG, .SPARE_ELOG_PTR] ∧ optMonitorStep p l rx tx refl bias s =
      if sext 16 rx < -1400 ∧ u.hears p = true then u.laneTrouble p l 0 (rx % 65536) else u := by
  have one (u : State) (b : Bool) (e : Evt) : u.Leaves (if b then u.log e else u) [.ELOG, .SPARE_ELOG_PTR] := by
    cases b
    · exact .refl u _
    · exact u.leaves_log e
  rw [optMonitorStep, up, optical, Bool.and_self, State.when_true]
  refine ⟨_, ?_, rfl⟩
  exact (((State.leaves_setLp _ _ _).trans (one _ _ _)).trans (one _ _ _)).trans (one _ _ _)

end

/-- Settles O45: reading by what it leaves, each row by the guard that its port meets, and a lane's failure by what it
marks and leaves. -/
theorem laneReadings : Obligations.LaneReadings := by
  refine ⟨?heard, ?credits, ?status, ?skip, ?failures, ?reads, ?eye, ?optics⟩
  case heard =>
    intro s h p k n rx d hp a
    obtain ⟨mem, core, fab, others, -⟩ := a.rest
    exact ⟨a.regs hp, mem, core, fab, others⟩
  case credits =>
    intro s p pool hp named up link
    refine ⟨fun h total rx q fits a => need_port hp ?_, need_port hp ?_⟩
    · rw [laneCreditStep, up, link, Bool.and_self, State.when_true, a.wide, creditData_pool total named, creditData_total pool fits]
      exact State.credited_named _ p total named
    · rw [creditSendStep, up, link, decide_eq_true named]
      rfl
  case status =>
    intro s p hp up
    have sends (on : 1 ≤ s.stage p) : statusSendStep p s = if s.stage p ≤ 4 then s.sendBlocks p (trainData 0 0 0)
        else if s.stage p ≤ 7 ∨ (s.stage p = 8 ∧ s.lstate p = 0) then s.sendStatus p else s := by
      rw [statusSendStep, up, decide_eq_true on]
      rfl
    refine ⟨fun on blocks => need_port hp ?_, fun alone => need_port hp ?_⟩
    · rw [sends on, if_pos blocks]
    · rw [sends (by omega), if_neg (by omega), if_pos (by omega)]
  case skip =>
    intro s p rx hp up heard h n cols
    have length : cols.length = n := by simp [cols]
    refine ⟨fun fits skip => need_port hp ?_, fun above => matchRate_full (length ▸ above),
      fun half => matchRate_half (length.trans half), fun some_ below => ?_⟩
    · rw [skipColumnStep, up, heard, Bool.and_self, State.when_true]
      exact if_pos ⟨fits, skip⟩
    · rw [matchRate_low (length ▸ below)]
      refine ⟨?_, List.prefix_append _ _⟩
      rw [List.length_append, List.length_drop]
      omega
  case failures =>
    intro s p l cause reading hp hl runs
    have fails (on : 1 ≤ s.stage p) (upTo : s.stage p ≤ 8) : laneFailStep p l cause reading s = s.laneTrouble p l cause reading := by
      rw [laneFailStep, runs, State.hears_of_stage on upTo]
      rfl
    refine ⟨fun late upTo => ⟨fun other => need_portLane hp hl ?_, fun lost => need_portLane hp hl ?_⟩,
      fun on early lost => need_portLane hp hl ?_⟩
    · rw [fails (by omega) upTo, State.laneTrouble_late late upTo hp hl, if_neg other]
    · rw [fails (by omega) upTo, State.laneTrouble_late late upTo hp hl, if_pos lost]
      rfl
    · rw [fails on (by omega), lost]
      exact State.laneTrouble_early (by omega) hp hl
  case reads =>
    intro s w p l hp hl up host
    have place : laneIx p l < 65536 := by unfold laneIx; omega
    have may : s.readsLanes w = true := by simp [State.readsLanes, up, host]
    refine ⟨⟨_, need_port hp (by rw [lanePstatReadStep, may, State.when_true]), ?_, ?_, rfl⟩, fun chars heard => ?_⟩
    · exact State.fget_fset_same _ _ _ _
    · exact State.sameRegsBut_fset (s.emit _) (by decide) (by omega) (by decide)
    · intro h bad
      have read := State.sameRegsBut_hear (s := s) (ls := [l]) [chars] hp (by simpa using hl)
      obtain ⟨cv, errs, left⟩ := (h.2.fsat LANE_MON.PRBS_ERR (laneIx p l) bad).monRead_shows place
      exact ⟨_, need_portLane hp hl (laneMonReadStep_heard may heard), cv, errs,
        State.sameRegsBut_trans (read.fset (by decide) place (by decide)) left, rfl⟩
  case eye =>
    intro s p l h v hp hl up
    refine need_portLane hp hl ?_
    rw [eyeMeasureStep, up, State.when_true]
    rfl
  case optics =>
    intro s p l rx tx refl bias hG hp hl up
    have place : laneIx p l < 65536 := by unfold laneIx; omega
    obtain ⟨u, logged, step⟩ := optMonitorStep_parts s rx tx refl bias (p := p) (l := l) up (by simp [isG, hG, hp])
    obtain ⟨rxPwr, txPwr, brefl, bias_⟩ := s.optRead_shows (i := laneIx p l) rx tx refl bias
    have shown := s.leaves_optRead rx tx refl bias place
    obtain ⟨troubled, lost⟩ := u.laneTrouble_shows (reading := rx % 65536) hp hl
    have after : u.Leaves (optMonitorStep p l rx tx refl bias s) (.LANE_MON :: portRegs) := by
      rw [step]
      split
      · exact troubled
      · exact .refl u _
    have left := (logged.mono (qs := .LANE_MON :: portRegs) (by decide)).trans after
    have kept (f : Fld) (hf : f ∈ f.reg.fields) (hr : f.reg ∉ .LANE_MON :: portRegs) := left.regs.fget f hf hr place
    refine ⟨_, need_portLane hp hl rfl, (kept _ (by decide) (by decide)).trans rxPwr, (kept _ (by decide) (by decide)).trans txPwr,
      (kept _ (by decide) (by decide)).trans brefl, (kept _ (by decide) (by decide)).trans bias_, left.mem.trans shown.mem,
      fun weak late upTo => ?_⟩
    have stage : u.stage p = s.stage p := (logged.regs.fget LANE_PSTAT.STAGE (by decide) (by decide) (by omega)).trans
      (shown.regs.fget LANE_PSTAT.STAGE (by decide) (by decide) (by omega))
    rw [step, if_pos ⟨weak, State.hears_of_stage (by omega) (by omega)⟩]
    exact lost (by omega) (by omega)

end Sys2Proof.Machine
end

section
/-! Observation: trace and dump slots, the debug freeze, and counters that a read clears (R450, R769, R795 to R797, R802, R812 to R818,
R820). -/
set_option autoImplicit false
namespace Sys2Proof.Machine

/-! ## A write that a debug level may deny (R769) -/

/-- Fields at different bits have different keys, at any two places. -/
theorem Fld.key_ne_of_lsb {f g : Fld} (i j : Nat) (hf : f.lsb < 1024) (hg : g.lsb < 1024) (h : f.lsb ≠ g.lsb) :
    f.key i ≠ g.key j := by
  simp only [Fld.key]
  omega

/-- What a requester may watch does not turn on a `REJ` bit. -/
theorem State.mayWatch_fset (s : State) {rej : Fld} (k v : Nat) (w : Who) (ctx : Nat) (hf : rej.lsb < 1024) (above : 5 < rej.lsb) :
    (s.fset rej k v).mayWatch w ctx = s.mayWatch w ctx := by
  have kept (f : Fld) (j : Nat) (low : f.lsb ≤ 5) : (s.fset rej k v).fget f j = s.fget f j :=
    s.fget_fset_ne _ _ _ _ _ (Fld.key_ne_of_lsb j k (by omega) hf (by omega))
  cases w with
  | ns =>
    unfold State.mayWatch State.ctxPart State.ctxNs State.ctxWorld State.fon
    dsimp only
    rw [kept CTX_CFG.PART _ (by decide), kept CTX_CFG.WORLD _ (by decide), kept SEC_PART.VALID _ (by decide),
      kept SEC_PART.PWORLD _ (by decide), kept SEC_PART.DL _ (by decide)]
  | _ => rfl

/-- Nor does what it may arm. -/
theorem State.watchDenied_fset (s : State) {rej en : Fld} (k v : Nat) (w : Who) (ctx : Fld) (x : Nat) (hf : rej.lsb < 1024)
    (above : 5 < rej.lsb) (low : en.lsb ≤ 5) : (s.fset rej k v).watchDenied w en ctx k x = s.watchDenied w en ctx k x := by
  rw [State.watchDenied, State.watchDenied, s.mayWatch_fset k v w _ hf above,
    s.fon_fset_ne v (Fld.key_ne_of_lsb k k (by omega) hf (by omega))]

/-! ## Slots (R797, R802) -/

/-- A write of a slot, rejected where its own rule or a debug level forbids it, and logged where the level does. -/
def State.slotWrite (s : State) (w : Who) (r : Reg) (en ctx : Fld) (k x : Nat) (bad : State → Bool) (eff : State → State) : State :=
  s.regWriteOr w r k x (fun s => bad s || s.watchDenied w en ctx k x)
    (fun s => if s.watchDenied w en ctx k x then s.logC 0x0509 else s) eff

section
variable {s : State} {w : Who} {k j v : Nat}

theorem exec_traceSlotWrite (hk : k < 4) (hj : j < 3) (reach : s.reaches w = true) : exec (.traceSlotWrite w k j v) s =
    (let x := s.wordPut .OBS_TRACE k j v
     .next (s.slotWrite w .OBS_TRACE OBS_TRACE.EN OBS_TRACE.CTX k x (·.traceBad k x) (traceEff w k x))) := by
  have slot : exec (.traceSlotWrite w k j v) s = need (decide (k < 4) && decide (j < 3)) (traceSlotWriteStep w k j v s) := rfl
  rw [slot, decide_eq_true hk, decide_eq_true hj, Bool.and_self, need_true, traceSlotWriteStep, reach, State.when_true]
  rfl

theorem exec_dumpSlotWrite (hk : k < 8) (hj : j < 4) (reach : s.reaches w = true) : exec (.dumpSlotWrite w k j v) s =
    (let x := s.wordPut .OBS_DUMP k j v
     .next (s.slotWrite w .OBS_DUMP OBS_DUMP.EN OBS_DUMP.CTX k x (·.dumpBad k x) (dumpEff w k x))) := by
  have slot : exec (.dumpSlotWrite w k j v) s = need (decide (k < 8) && decide (j < 4)) (dumpSlotWriteStep w k j v s) := rfl
  rw [slot, decide_eq_true hk, decide_eq_true hj, Bool.and_self, need_true, dumpSlotWriteStep, reach, State.when_true]
  rfl

end

section
variable {s : State} {w : Who} {r : Reg} {en ctx rej : Fld} {k x : Nat} {bad : State → Bool} {eff : State → State}
  (free : s.barred w r k x = .none) (acts : s.isStatus r k x = false)
include free acts

/-- A slot's write in order and permitted takes effect. -/
theorem State.slotWrite_taken (good : bad s = false) (may : s.watchDenied w en ctx k x = false) :
    s.slotWrite w r en ctx k x bad eff = eff (s.clrW1C r k x) := by
  rw [State.slotWrite, State.regWriteOr_admitted free, acts, good, may]
  rfl

variable (own : s.setRej r k = s.fset rej k 1) (hf : rej.lsb < 1024) (above : 5 < rej.lsb) (low : en.lsb ≤ 5)
include own hf above low

/-- Any other sets `REJ`, and is logged where the level denies it. -/
theorem State.slotWrite_refused (refused : (bad s || s.watchDenied w en ctx k x) = true) : s.slotWrite w r en ctx k x bad eff =
    if s.watchDenied w en ctx k x then (s.fset rej k 1).logC 0x0509 else s.fset rej k 1 := by
  rw [State.slotWrite, State.regWriteOr_admitted free, acts, refused, own, s.watchDenied_fset k 1 w ctx x hf above low]
  rfl

end

/-- A slot takes the `EN` that is written. -/
theorem State.fon_putRW_traceEn (s : State) {k v : Nat} (en : OBS_TRACE.EN.bit v = true) :
    (s.putRW .OBS_TRACE k v).fon OBS_TRACE.EN k = true := by
  have fields : s.putRW .OBS_TRACE k v = ((((s.fset OBS_TRACE.EN k (OBS_TRACE.EN.val v)).fset OBS_TRACE.CTX k
    (OBS_TRACE.CTX.val v)).fset OBS_TRACE.MIN_NS k (OBS_TRACE.MIN_NS.val v)).fset OBS_TRACE.K k (OBS_TRACE.K.val v)).fset
    OBS_TRACE.BASE k (OBS_TRACE.BASE.val v) := rfl
  have odd : v % 2 = 1 := by simpa [Fld.bit, OBS_TRACE.EN] using en
  have one : OBS_TRACE.EN.val v % 2 ^ OBS_TRACE.EN.w = 1 := by simp [Fld.val, bitsOf, OBS_TRACE.EN, odd]
  rw [fields, State.fon]
  simp (disch := decide) only [State.fget_fset_beside, State.fget_fset_same, one, decide_true]

/-- Arming a trace slot clears its counts. -/
theorem traceEff_arms {s : State} {w : Who} {k v : Nat} (off : s.fon OBS_TRACE.EN k = false) (en : OBS_TRACE.EN.bit v = true) :
    traceEff w k v s =
      (((s.wake.putRW .OBS_TRACE k v).fset OBS_TRACE.WCOUNT k 0).fset OBS_TRACE.LOST k 0).markArmed k (decide (w = .ns)) := by
  simp [traceEff, off, State.fon_putRW_traceEn _ en]

/-! ## Counters (R795, R796) -/

/-- A pass that clears fields of a register leaves each of them, and each that was clear, at 0. -/
theorem State.fget_cleared (r : Reg) {l : List Fld} (hl : l ⊆ r.fields) {f : Fld} (hf : f ∈ r.fields) (i : Nat) (s : State)
    (h : f ∈ l ∨ s.fget f i = 0) : (l.foldl (fun s f => s.fset f i 0) s).fget f i = 0 := by
  induction l generalizing s with
  | nil => simpa using h
  | cons g l ih =>
    have hg : g ∈ r.fields := hl List.mem_cons_self
    refine ih (fun x hx => hl (List.mem_cons_of_mem _ hx)) (s.fset g i 0) ?_
    by_cases same : f = g
    · subst same
      exact .inr ((s.fget_fset_same f i 0).trans (Nat.zero_mod _))
    · rw [s.fget_fset_beside i 0 (Reg.fields_ok r g hg).2 (Reg.fields_ok r f hf).2 fun e => same (Reg.fields_lsb_inj r f hf g hg e)]
      simpa [same] using h

/-- Clearing a register's fields changes them alone. -/
theorem State.cleared_frame (s : State) (r : Reg) {i : Nat} (hi : i < 65536) :
    s.sameRegsBut (r.fields.foldl (fun s f => s.fset f i 0) s) [r] ∧
    (r.fields.foldl (fun s f => s.fset f i 0) s).mem = s.mem ∧ (r.fields.foldl (fun s f => s.fset f i 0) s).out = s.out := by
  obtain ⟨g, regs⟩ := foldl_regs (f := fun (s : State) f => s.fset f i 0) (fun _ _ => ⟨_, rfl⟩) r.fields s
  refine ⟨State.sameRegsBut_foldl (fun t f hf => ?_) s, by rw [regs], by rw [regs]⟩
  obtain ⟨own, low⟩ := Reg.fields_ok r f hf
  exact t.sameRegsBut_fset (by simp [own]) hi low

/-- An S reader takes a register's counters and clears them. -/
theorem State.readClear_shows (s : State) (r : Reg) {i : Nat} (hi : i < 65536) (x : Out) :
    (r.fields.foldl (fun s f => s.fset f i 0) (s.emit x)).out = s.out ++ [x] ∧
    (∀ f ∈ r.fields, (r.fields.foldl (fun s f => s.fset f i 0) (s.emit x)).fget f i = 0) ∧
    s.sameRegsBut (r.fields.foldl (fun s f => s.fset f i 0) (s.emit x)) [r] ∧
    (r.fields.foldl (fun s f => s.fset f i 0) (s.emit x)).mem = s.mem := by
  obtain ⟨regs, mem, out⟩ := (s.emit x).cleared_frame r hi
  exact ⟨out, fun f hf => State.fget_cleared r (fun _ h => h) hf i _ (.inl hf), regs, mem⟩

section
variable {s : State} {w : Who} {p : Nat} (hp : p < 22) (reach : s.reaches w = true)
include reach

theorem exec_obsHubRead_ns (ns : w = .ns) : exec (.obsHubRead w) s = .next (s.emit (.read 0)) :=
  congrArg Host.Outcome.next ((if_pos reach).trans (if_pos ns))

theorem exec_obsHubRead (host : w ≠ .ns) : exec (.obsHubRead w) s =
    .next ((Reg.fields .OBS_HUB).foldl (fun s f => s.fset f 0 0) (s.emit (.read (s.regWord .OBS_HUB 0)))) :=
  congrArg Host.Outcome.next ((if_pos reach).trans (if_neg host))

include hp

theorem exec_obsPortRead_ns (ns : w = .ns) : exec (.obsPortRead w p) s = .next (s.emit (.read 0)) :=
  need_port hp ((if_pos reach).trans (if_pos ns))

theorem exec_obsPortRead (host : w ≠ .ns) : exec (.obsPortRead w p) s =
    .next ((Reg.fields .OBS_PORT).foldl (fun s f => s.fset f p 0) (s.emit (.read (s.regWord .OBS_PORT p)))) :=
  need_port hp ((if_pos reach).trans (if_neg host))

end

/-! ## The freeze (R812 to R818, R820) -/

section
variable {s : State} {w : Who} {v : Nat}

theorem exec_freezeGo (go : OBS_FREEZE.GO.bit v = true) : exec (.freezeGo w v) s = .next (freezeWrite w v s) :=
  congrArg Host.Outcome.next (if_pos go)

theorem exec_freezeResume (resume : OBS_FREEZE.RESUME.bit v = true) : exec (.freezeResume w v) s = .next (freezeWrite w v s) :=
  congrArg Host.Outcome.next (if_pos resume)

/-- Who may freeze does not turn on `REJ`. -/
theorem State.freezeDenied_rej : (s.fset OBS_FREEZE.REJ 0 1).freezeDenied w = s.freezeDenied w := by
  have kept (f : Fld) (j : Nat) (low : f.lsb ≤ 5) : (s.fset OBS_FREEZE.REJ 0 1).fget f j = s.fget f j :=
    s.fget_fset_ne _ _ _ _ _ (Fld.key_ne_of_lsb j 0 (by omega) (by decide) (by have : OBS_FREEZE.REJ.lsb = 24 := rfl; omega))
  cases w with
  | ns =>
    unfold State.freezeDenied State.mayFreeze State.fon
    dsimp only
    simp only [kept SEC_PART.VALID _ (by decide), kept SEC_PART.DL _ (by decide)]
  | _ => rfl

variable (reach : s.reaches w = true) (free : s.barred w .OBS_FREEZE 0 v = .none) (acts : s.isStatus .OBS_FREEZE 0 v = false)
  (may : s.freezeDenied w = false)
include reach free acts may

/-- A write that the debug levels permit takes effect, but for a `GO` outside RUN. -/
theorem freezeWrite_taken (runs : (OBS_FREEZE.GO.bit v && s.frozen) = false) :
    freezeWrite w v s = freezeEff w v (s.clrW1C .OBS_FREEZE 0 v) := by
  rw [freezeWrite, reach, State.when_true]
  rw [State.regWriteOr_admitted free, acts, may, runs]
  rfl

/-- A `GO` outside RUN is rejected. -/
theorem freezeWrite_rejected (go : OBS_FREEZE.GO.bit v = true) (frozen : s.frozen = true) :
    freezeWrite w v s = s.fset OBS_FREEZE.REJ 0 1 := by
  rw [freezeWrite, reach, State.when_true]
  have rej : s.setRej .OBS_FREEZE 0 = s.fset OBS_FREEZE.REJ 0 1 := rfl
  rw [State.regWriteOr_admitted free, acts, may, go, frozen, rej, State.freezeDenied_rej, may]
  rfl

end

section
variable {s h : State} {p : Nat} {rx : List (List Nat)} {d : List Nat} (up : s.hubUp = true) (link : s.fon FAB_PORT.LINK_UP p = true)
  (a : s.Hears p kFREEZE 2 rx d h)
include up link a

/-- The second and third FREEZE of three are counted. -/
theorem freezeStep_repeat {n : Nat} (last : (h.lp p).lastFz = some (d.getD 0 0, n)) (more : n < 3) :
    freezeStep p rx s = h.setLp p { h.lp p with lastFz := some (d.getD 0 0, n + 1) } := by
  rw [freezeStep, up, link, Bool.and_self, State.when_true, a.wide]
  simp only [last, more, and_self, if_true]

/-- One after something else is accepted. -/
theorem freezeStep_first (last : (h.lp p).lastFz = none) :
    freezeStep p rx s = (h.setLp p { h.lp p with lastFz := some (d.getD 0 0, 1) }).freezeCame p (d.getD 0 0) := by
  rw [freezeStep, up, link, Bool.and_self, State.when_true, a.wide]
  simp only [last]

end

/-- A marker is noted for its port, and the freeze goes under the lower id. -/
theorem State.marker_shows (s : State) (p id : Nat) : p ∈ (s.marker p id).obs.markers ∧
    (s.marker p id).fget OBS_FREEZE.ACT_ID 0 = min id (s.fget OBS_FREEZE.ACT_ID 0) % 2 ^ OBS_FREEZE.ACT_ID.w ∧
    (s.marker p id).mem = s.mem ∧ (s.marker p id).out = s.out := by
  refine ⟨?_, State.fget_fset_same _ _ _ _, rfl, rfl⟩
  change p ∈ if s.obs.markers.contains p then s.obs.markers else s.obs.markers ++ [p]
  split
  · exact List.contains_iff_mem.mp ‹_›
  · simp

section
variable {s : State} (plain : s.fon OBS_FREEZE.CAPTURE 0 = false)
include plain

/-- Without `CAPTURE`, FROZEN changes `STATE` alone. -/
theorem State.freezeDone_plain (smear : Bool) : s.freezeDone smear = s.fset OBS_FREEZE.STATE 0 2 := by
  refine if_neg ?_
  rw [s.fon_fset_ne 2 (by decide), plain]
  exact Bool.false_ne_true

variable (up : s.hubUp = true) (starts : s.fget OBS_FREEZE.STATE 0 = 1)
include up starts

/-- The freeze is reached once every port has its marker. -/
theorem exec_frozen_plain (marked : s.allMarked = true) : exec .frozen s = .next (s.fset OBS_FREEZE.STATE 0 2) := by
  have guard : (s.hubUp && decide (s.fget OBS_FREEZE.STATE 0 = 1) && s.allMarked) = true := by simp [up, starts, marked]
  exact congrArg _ ((if_pos guard).trans (State.freezeDone_plain plain false))

/-- After 100 ms it is reached in part, and logged. -/
theorem exec_freezeTimeout_plain (late : s.obs.freezeT + 100000000 ≤ s.count) : exec .freezeTimeout s =
    .next (((s.fset OBS_FREEZE.PARTIAL 0 1).logC 0x0332).fset OBS_FREEZE.STATE 0 2) := by
  have guard : (s.hubUp && decide (s.fget OBS_FREEZE.STATE 0 = 1) && decide (s.obs.freezeT + 100000000 ≤ s.count)) = true := by
    simp [up, starts, late]
  have still : ((s.fset OBS_FREEZE.PARTIAL 0 1).logC 0x0332).fon OBS_FREEZE.CAPTURE 0 = false := by
    rw [State.logC, State.fon, (State.sameRegsBut_log _ _).fget OBS_FREEZE.CAPTURE (by decide) (by decide) (by decide)]
    exact (s.fon_fset_ne 1 (by decide)).trans plain
  exact congrArg _ ((if_pos guard).trans (State.freezeDone_plain still true))

end

/-- Settles O51: each write by the three outcomes of its register, a FREEZE by what came before it, and a read by what it clears. -/
theorem observation : Obligations.Observation := by
  refine ⟨?trace, ?dump, ?arms, ?control, ?freeze, ?frozen, ?reads⟩
  case trace =>
    intro s w k j v hk hj reach x free acts denied
    have logged := (s.fset OBS_TRACE.REJ k 1).sameRegsBut_log { code := 0x0509 }
    have rej : s.setRej .OBS_TRACE k = s.fset OBS_TRACE.REJ k 1 := by simp [State.setRej, Reg.rejFld]
    have row := exec_traceSlotWrite (v := v) hk hj reach
    have judged (h : (s.traceBad k x || denied) = true) := row.trans (congrArg _ (State.slotWrite_refused (bad := (·.traceBad k x))
      (eff := traceEff w k x) free acts rej (by decide) (by decide) (by decide) h))
    refine ⟨fun good may => row.trans (congrArg _ (State.slotWrite_taken free acts good may)),
      fun bad may => (judged (by rw [bad]; rfl)).trans (congrArg _ (if_neg (ne_true_of_eq_false may))),
      fun refused => ⟨_, (judged (by rw [refused, Bool.or_true])).trans (congrArg _ (if_pos refused)), ?_, ?_⟩⟩
    · exact (logged.fget OBS_TRACE.REJ (by decide) (by decide) (by omega)).trans (s.fget_fset_same _ _ _)
    · exact (logged.fget OBS_TRACE.EN (by decide) (by decide) (by omega)).trans
        (s.fget_fset_beside _ _ (by decide) (by decide) (by decide))
  case dump =>
    intro s w k j v hk hj reach x free acts may
    have rej : s.setRej .OBS_DUMP k = s.fset OBS_DUMP.REJ k 1 := by simp [State.setRej, Reg.rejFld]
    have row := exec_dumpSlotWrite (v := v) hk hj reach
    refine ⟨fun good => row.trans (congrArg _ (State.slotWrite_taken free acts good may)), fun bad => row.trans (congrArg _ ?_)⟩
    exact (State.slotWrite_refused (bad := (·.dumpBad k x)) free acts rej (by decide) (by decide) (by decide)
      (by rw [bad]; rfl)).trans (if_neg (ne_true_of_eq_false may))
  case arms =>
    intro s w k v hk off en
    rw [traceEff_arms off en]
    refine ⟨?_, State.fget_fset_same _ OBS_TRACE.LOST k 0⟩
    exact (State.fget_fset_beside _ k 0 (f := OBS_TRACE.LOST) (by decide) (by decide) (by decide)).trans
      (State.fget_fset_same _ OBS_TRACE.WCOUNT k 0)
  case control =>
    intro s w v reach free acts may u
    refine ⟨fun go stay => ⟨fun runs => (exec_freezeGo go).trans ?_, fun frozen => (exec_freezeGo go).trans ?_⟩,
      fun stop resume => (exec_freezeResume resume).trans ?_⟩
    · rw [freezeWrite_taken reach free acts may (by rw [runs, Bool.and_false]), freezeEff, stay, go]
      rfl
    · rw [freezeWrite_rejected reach free acts may go frozen]
    · rw [freezeWrite_taken reach free acts may (by rw [stop, Bool.false_and]), freezeEff, resume, stop]
      rfl
  case freeze =>
    intro s h p rx d hp up link a id kept
    refine ⟨fun n last more => need_port hp (freezeStep_repeat up link a last more), fun last => ?_⟩
    have came : exec (.freeze p rx) s = .next ((kept 1).freezeCame p id) := need_port hp (freezeStep_first up link a last)
    refine ⟨fun runs alone => ?_, fun runs joins => ?_, fun frozen => ⟨_, came, ?_⟩⟩
    · rw [came, State.freezeCame, if_neg (show ¬((kept 1).frozen = true) from ne_true_of_eq_false runs),
        if_neg (show ¬((kept 1).fon OBS_FREEZE.JOIN 0 = true) from ne_true_of_eq_false alone)]
    · rw [came, State.freezeCame, if_neg (show ¬((kept 1).frozen = true) from ne_true_of_eq_false runs),
        if_pos (show (kept 1).fon OBS_FREEZE.JOIN 0 = true from joins)]
    · rw [State.freezeCame, if_pos (show (kept 1).frozen = true from frozen)]
      exact (kept 1).marker_shows p id
  case frozen =>
    intro s up starts plain
    have logged := (s.fset OBS_FREEZE.PARTIAL 0 1).sameRegsBut_log { code := 0x0332 }
    refine ⟨exec_frozen_plain plain up starts, fun late => ⟨_, exec_freezeTimeout_plain plain up starts late,
      State.fget_fset_same _ _ _ _, ?_, State.logC_mem _ _⟩⟩
    calc _ = ((s.fset OBS_FREEZE.PARTIAL 0 1).logC 0x0332).fget OBS_FREEZE.PARTIAL 0 :=
          State.fget_fset_beside _ _ _ (by decide) (by decide) (by decide)
      _ = (s.fset OBS_FREEZE.PARTIAL 0 1).fget OBS_FREEZE.PARTIAL 0 := logged.fget OBS_FREEZE.PARTIAL (by decide) (by decide) (by decide)
      _ = 1 := s.fget_fset_same _ _ _
  case reads =>
    intro s w p hp reach
    refine ⟨fun ns => ⟨exec_obsPortRead_ns hp reach ns, exec_obsHubRead_ns reach ns⟩, fun host =>
      ⟨⟨_, exec_obsPortRead hp reach host, s.readClear_shows .OBS_PORT (by omega) _⟩,
        ⟨_, exec_obsHubRead reach host, s.readClear_shows .OBS_HUB (by omega) _⟩⟩⟩

end Sys2Proof.Machine
end

section
/-! The shared steps of the collective engine, and the triggered operations (R527 to R531, R533 to R536, R541). -/
set_option autoImplicit false
namespace Sys2Proof.Machine

/-! ## What a collective reads, writes and finds -/

/-- A row that names one of the 4,096 groups acts. -/
theorem need_group {g : Nat} {t u : State} (hg : g < 4096) (h : t = u) : need (wfGroup g) t = .next u := by
  rw [wfGroup, decide_eq_true hg, need_true, h]

section
variable {s : State} {i : Inst}

/-- A key's collective is acted on as it stands. -/
theorem State.withInst_some {g q : Nat} (found : s.inst g q = some i) (k : Inst → State → State) : s.withInst g q k = k i s := by
  rw [State.withInst, found]

/-- A collective is found under its own key. -/
theorem State.inst_key {g q : Nat} (found : s.inst g q = some i) : i.group = g ∧ i.cseq = q := by
  have key := List.find?_some found
  simpa only [Bool.and_eq_true, decide_eq_true_eq] using key

/-- Bytes that the collective may read, and that read, reach what follows. -/
theorem State.instRead_ok {addr n : Nat} {b : List Byte} (read : s.memRead (s.instAcc i) MEM_RGN.RD addr n = ⟨0, b, s⟩)
    (k : List Byte → State → State) : s.instRead i addr n k = k b s := by
  simp only [State.instRead, read, ne_eq, not_true_eq_false, if_false]

/-- What follows a write that nothing refuses acts on the state it leaves. -/
theorem State.instWrite_ok {addr : Nat} {b : List Byte} (ok : (s.memWrite (s.instAcc i) MEM_RGN.WR addr b).code = 0)
    (k : State → State) : s.instWrite i addr b k = k (s.memWrite (s.instAcc i) MEM_RGN.WR addr b).st :=
  if_neg (not_not_intro ok)

/-- A member that the group's list names is the remote party. -/
theorem State.withMember_ok {e : Nat} {b : List Byte} (named : s.member i (TOP.MEMB.of e) = ⟨0, b, s⟩) (k : Nat → State → State) :
    s.withMember i e k = k (memberAddr b) s := by
  simp only [State.withMember, named, ne_eq, not_true_eq_false, if_false]

end

/-! ## A triggered entry fires (R529, R534, R541) -/

/-- A collective with entry `idx` fired. -/
def Inst.fire (i : Inst) (idx : Nat) : Inst := { i with fired := i.fired ++ [idx] }

/-- The state in which a fired entry takes its own effect: a choice of the endpoint's count is counted as divergence, the entry is marked
fired, and its command has made progress. -/
def State.topFired (s : State) (i : Inst) (idx e : Nat) : State :=
  ((if TOP.TSRC.on e then s.diverge i.ctx 1 else s).setInst (i.fire idx)).progress i.ring i.seq

section
variable {s : State} {g q idx e : Nat} {i : Inst} (live : s.live = true) (found : s.inst g q = some i) (entry : i.tops[idx]? = some e)
  (fresh : i.fired.contains idx = false) (ready : s.topReady i e = true)
include live found entry fresh ready

/-- An entry of the row's operation that has not fired and whose trigger holds takes its effect. -/
theorem State.fireTop_ready {op : Nat} (hop : TOP.TOP.of e = op) (k : Inst → Nat → State → State) :
    s.fireTop g q idx op k = k (i.fire idx) e (s.topFired i idx e) := by
  have fires : (decide (TOP.TOP.of e = op) && !i.fired.contains idx && s.topReady i e) = true := by
    rw [decide_eq_true hop, fresh, ready]
    rfl
  rw [State.fireTop, live, State.when_true, State.withInst_some found, entry]
  exact if_pos fires

/-- A NOP completes as it fires. -/
theorem topNopStep_ready (hop : TOP.TOP.of e = 0) : topNopStep g q idx s = (s.topFired i idx e).topFinish (i.fire idx) idx e :=
  State.fireTop_ready live found entry fresh ready hop _

/-- So does a SIGNAL without a remote signal. -/
theorem topSignalStep_local (hop : TOP.TOP.of e = 4) (silent : TOP.R_EN.on e = false) :
    topSignalStep g q idx [] s = (s.topFired i idx e).topFinish (i.fire idx) idx e :=
  (State.fireTop_ready live found entry fresh ready hop _).trans (if_neg (ne_true_of_eq_false silent))

/-- A REDUCE whose operands read writes their combination, and its write is acknowledged. -/
theorem topReduceStep_ready {u : State} {a b : List Byte} (hop : TOP.TOP.of e = 3) (after : s.topFired i idx e = u)
    (readA : u.memRead (u.instAcc i) MEM_RGN.RD (TOP.A_ADDR.of e) (TOP.LEN.of e) = ⟨0, a, u⟩)
    (readB : u.memRead (u.instAcc i) MEM_RGN.RD (TOP.B_ADDR.of e) (TOP.LEN.of e) = ⟨0, b, u⟩)
    (ok : (u.memWrite (u.instAcc i) MEM_RGN.WR (TOP.D_ADDR.of e)
      (combineRuns (TOP.DFMT.of e) (TOP.DFMT.of e) (reduceOut (TOP.DFMT.of e) (TOP.ROP.of e)) (TOP.ROP.of e) a b)).code = 0) :
    topReduceStep g q idx [] s = (u.memWrite (u.instAcc i) MEM_RGN.WR (TOP.D_ADDR.of e)
      (combineRuns (TOP.DFMT.of e) (TOP.DFMT.of e) (reduceOut (TOP.DFMT.of e) (TOP.ROP.of e)) (TOP.ROP.of e) a b)).st.instUp
        { i.fire idx with acked := i.acked ++ [topKey idx] } := by
  subst after
  rw [topReduceStep, State.fireTop_ready live found entry fresh ready hop, State.markBad_nil, State.instRead_ok (i := i.fire idx) readA,
    State.instRead_ok (i := i.fire idx) readB, State.instWrite_ok (i := i.fire idx) ok]
  rfl

section
variable {b : List Byte} (named : (s.topFired i idx e).member (i.fire idx) (TOP.MEMB.of e) = ⟨0, b, s.topFired i idx e⟩)
include named

/-- A remote operation goes to the member its entry names. -/
theorem State.fireTop_member {op : Nat} (hop : TOP.TOP.of e = op) (k : Inst → Nat → Nat → State → State) :
    s.fireTop g q idx op (fun i e s => (s.markBad 1 []).withMember i e (k i e)) =
      k (i.fire idx) e (memberAddr b) (s.topFired i idx e) := by
  rw [State.fireTop_ready live found entry fresh ready hop, State.markBad_nil, State.withMember_ok named]

/-- A SIGNAL with a remote signal sends it as a TSIG. -/
theorem topSignalStep_remote (hop : TOP.TOP.of e = 4) (remote : TOP.R_EN.on e = true) : topSignalStep g q idx [] s =
    (s.topFired i idx e).instMsg (i.fire idx) (.top g q idx) (memberAddr b) (i.topHdr 5 e) := by
  rw [topSignalStep, State.fireTop_ready live found entry fresh ready hop, if_pos remote, State.markBad_nil, State.withMember_ok named]
  rfl

end
end

/-- An entry whose bytes are acknowledged, or whose response has closed, completes once. -/
theorem topCompleteStep_acked {s : State} {g q idx e : Nat} {i : Inst} (up : s.hubUp = true) (found : s.inst g q = some i)
    (entry : i.tops[idx]? = some e) (acked : i.acked.contains (topKey idx) = true) (open_ : i.doneT.contains idx = false) :
    topCompleteStep g q idx s = s.topFinish i idx e := by
  have completes : (i.acked.contains (topKey idx) && !i.doneT.contains idx) = true := by rw [acked, open_]; rfl
  rw [topCompleteStep, up, State.when_true, State.withInst_some found, entry]
  exact if_pos completes

/-- Settles O26: every entry fires in one way, after which its operation acts; an acknowledged one completes. -/
theorem triggeredOperations : Obligations.TriggeredOperations := by
  refine ⟨?fires, ?completes⟩
  case fires =>
    intro s g q idx e i hg live found entry fresh ready s1 j u part world
    refine ⟨fun nop => ?_, fun signal silent => ?_, fun b named => ⟨fun signal remote => ?_, fun put => ?_, fun get => ?_⟩,
      fun a b reduce readA readB ok => ?_⟩
    · exact need_group hg (topNopStep_ready live found entry fresh ready nop)
    · exact need_group hg (topSignalStep_local live found entry fresh ready signal silent)
    · exact need_group hg (topSignalStep_remote live found entry fresh ready named signal remote)
    · exact need_group hg (State.fireTop_member live found entry fresh ready named put _)
    · exact need_group hg (State.fireTop_member live found entry fresh ready named get _)
    · exact need_group hg (topReduceStep_ready live found entry fresh ready reduce rfl readA readB ok)
  case completes =>
    intro s g q idx e i hg up found entry acked open_
    exact need_group hg (topCompleteStep_acked up found entry acked open_)

end Sys2Proof.Machine
end

section
/-! Ring pieces (R507, R509, R512, R513, R535 to R537, R541). -/
set_option autoImplicit false
namespace Sys2Proof.Machine

/-! ## Pieces sent and written -/

section
variable {s : State} {g q ph k p : Nat} {i : Inst} (found : s.inst g q = some i)
include found

/-- A piece the member sends and holds, not sent yet, goes out under one of the successor's grants. -/
theorem pieceSendStep_granted (live : s.live = true) (sends : i.sends ph k = true) (piece : p < i.pieces) (holds : i.holds ph k p = true)
    (unsent : i.sent.contains (pieceKey ph k p) = false) (grant : 0 < i.credit) :
    (let f := i.sendFmt ph k
     let n := i.lenOf p * collBytes f
     let j : Inst := { i with credit := i.credit - 1, sent := i.sent ++ [pieceKey ph k p] }
     let x := mkXfer (.piece g q (pieceKey ph k p)) (some i.ctx) i.ep (epMod i.succ) (epNum i.succ) tyCOLL (s.ctxPart i.ctx)
       (s.ctxWorld i.ctx) 0 n (.dm (s.ctxPart i.ctx) (s.ctxWorld i.ctx) (if i.fromSrc ph k then i.srcAt k p else i.dstAt k p))
     pieceSendStep g q ph k p s = ((s.setInst j).progress i.ring i.seq).instSend j
       { x with pre := collHdr (i.hdrFields ph ++ [(CH.FMT, f), (CH.CHUNK, k), (CH.PIECE, p)]), mtlen := n + 32 }) := by
  have goes : (i.sends ph k && decide (p < i.pieces) && i.holds ph k p && !i.sent.contains (pieceKey ph k p) &&
      decide (0 < i.credit)) = true := by
    rw [sends, decide_eq_true piece, holds, unsent, decide_eq_true grant]
    rfl
  rw [pieceSendStep, live, State.when_true, State.withInst_some found]
  exact if_pos goes

/-- A staged piece that overwrites no bytes of an unacknowledged send is written, and the predecessor may send one more. -/
theorem pieceWriteStep_staged {b : List Byte} (up : s.hubUp = true)
    (staged : i.staged.find? (fun e => decide (e.1 = pieceKey ph k p)) = some (pieceKey ph k p, b))
    (free : ph = 1 → i.sends 0 k = true → (i.fromSrc 0 k = false ∨ i.src = i.dst) → i.acked.contains (pieceKey 0 k p) = true)
    (ok : (s.memWrite (s.instAcc i) MEM_RGN.WR (i.dstAt k p) b).code = 0) :
    (let j : Inst := { i with staged := i.staged.filter (fun e => decide (e.1 ≠ pieceKey ph k p)), wrote := i.wrote ++ [pieceKey ph k p] }
     pieceWriteStep g q ph k p s =
       (((s.memWrite (s.instAcc i) MEM_RGN.WR (i.dstAt k p) b).st.instUp j).grantPieces j 3 1).checkInst g q) := by
  have clear : ¬((decide (ph = 1) && i.sends 0 k && (!i.fromSrc 0 k || decide (i.src = i.dst)) && !i.acked.contains (pieceKey 0 k p)) =
      true) := by
    simp only [Bool.and_eq_true, Bool.or_eq_true, Bool.not_eq_true', decide_eq_true_eq]
    rintro ⟨⟨⟨phase, sends⟩, same⟩, unacked⟩
    rw [free phase sends same] at unacked
    cases unacked
  rw [pieceWriteStep, up, State.when_true, State.withInst_some found]
  dsimp only
  rw [staged]
  exact (if_neg clear).trans (State.instWrite_ok ok _)

end

/-! ## COLL packets that a member takes (R411, R535) -/

/-- A COLL packet of a handler's kind is that handler's. -/
theorem isColl_kind {p : Pkt} {kind : Nat} (type : PH.TYPE.of p.hdr = tyCOLL) (hk : CH.PKIND.of (collHdrOf p) = kind) :
    isColl p kind = true := by
  simp only [isColl, type, hk, decide_true, Bool.or_true, Bool.and_self]

section
variable {s : State} {p : Pkt} {t : DStream} (h : s.Takes p t) (type : PH.TYPE.of p.hdr = tyCOLL)
include h type

/-- A COLL packet that passes the steps of R411 reaches the handler of its kind. -/
theorem State.Takes.coll {kind : Nat} (hk : CH.PKIND.of (collHdrOf p) = kind) (k : DStream → State → State) :
    s.when (isColl p kind) (fun s => s.arrive p k) = k t s := by
  rw [isColl_kind type hk, State.when_true, h.arrive]

/-- One that opens and closes its message with a handler that answers no code, and leaves the open messages, is settled. -/
theorem State.Takes.collStaged {kind : Nat} {u : State} (hk : CH.PKIND.of (collHdrOf p) = kind)
    (staged : s.stagePiece p kind = ⟨0, [], u⟩) (same : u.fab.msgs = s.fab.msgs) :
    s.when (isColl p kind) (fun s => s.arrive p fun t s => s.withMsg p t false (fun _ s => s.stagePiece p kind) nothingAfter) =
      u.settled p t := by
  rw [h.coll type hk, h.withMsg _ _ (by rw [staged]) (by rw [staged]; exact same), staged]
  rfl

end

/-! ## Pieces received (R507, R509, R537) -/

section
variable {s : State} {p : Pkt} {i : Inst} (found : s.inst (collKey p).1 (collKey p).2 = some i)
include found

/-- In reduce-scatter a piece that agrees with its receiver is staged as `received ⊕ own`. -/
theorem State.stagePiece_reduced {b : List Byte} (agrees : i.pieceBad 0 (collHdrOf p) (p.pay.drop 32).length = false)
    (own : s.memRead (s.instAcc i) MEM_RGN.RD (i.srcAt (CH.CHUNK.of (collHdrOf p)) (CH.PIECE.of (collHdrOf p)))
      (i.lenOf (CH.PIECE.of (collHdrOf p)) * collBytes i.dfmt) = ⟨0, b, s⟩) :
    s.stagePiece p 0 = ⟨0, [], s.setInst { i with staged := i.staged ++
      [(pieceKey 0 (CH.CHUNK.of (collHdrOf p)) (CH.PIECE.of (collHdrOf p)),
        combineRuns (i.recvFmt 0 (CH.CHUNK.of (collHdrOf p))) i.dfmt i.out i.rop (p.pay.drop 32) b)] }⟩ := by
  simp only [State.stagePiece, found, agrees, Bool.false_eq_true, if_false, if_true, State.instRead_ok own]

/-- In all-gather it is staged as it is. -/
theorem State.stagePiece_kept (agrees : i.pieceBad 1 (collHdrOf p) (p.pay.drop 32).length = false) :
    s.stagePiece p 1 = ⟨0, [], s.setInst { i with staged := i.staged ++
      [(pieceKey 1 (CH.CHUNK.of (collHdrOf p)) (CH.PIECE.of (collHdrOf p)), p.pay.drop 32)] }⟩ := by
  simp only [State.stagePiece, found, agrees, Bool.false_eq_true, if_false, one_ne_zero]

end

/-- Settles O24: a piece's send and write by their own steps, an arriving one by how it is staged. -/
theorem ringPieces : Obligations.RingPieces := by
  refine ⟨?send, ?receive, ?write⟩
  case send =>
    intro s g q ph k p i hg live found sends piece holds unsent grant
    exact need_group hg (pieceSendStep_granted found live sends piece holds unsent grant)
  case receive =>
    intro s p t i b takes type found h k n
    refine ⟨fun kind agrees own => ?_, fun kind agrees => ?_⟩
    · exact congrArg _ (takes.collStaged type kind (State.stagePiece_reduced found agrees own) rfl)
    · exact congrArg _ (takes.collStaged type kind (State.stagePiece_kept found agrees) rfl)
  case write =>
    intro s g q ph k p i b hg up found staged free m j ok
    exact need_group hg (pieceWriteStep_staged found up staged free ok)

end Sys2Proof.Machine
end

section
/-! Grants and signals between members, the watchdog and the early table (R512, R530, R532, R533, R536, R538, R540). -/
set_option autoImplicit false
namespace Sys2Proof.Machine

/-! ## A write to device memory leaves the collective engine alone -/

/-- A fold whose every step leaves the collective engine leaves it. -/
theorem foldl_coll {α : Type} {f : State → α → State} (h : ∀ s a, (f s a).coll = s.coll) (l : List α) (s : State) :
    (l.foldl f s).coll = s.coll :=
  List.foldlRecOn l f (motive := fun t => t.coll = s.coll) rfl fun t kept a _ => (h t a).trans kept

@[simp] theorem State.dirtyFrame_coll (s : State) (f : Nat) : (s.dirtyFrame f).coll = s.coll := by
  unfold State.dirtyFrame
  split <;> rfl

@[simp] theorem State.putGran_coll (s : State) (slot addr : Nat) (l : List Byte) (g : Nat) : (s.putGran slot addr l g).coll = s.coll := by
  simp [State.putGran, State.tagGran]

@[simp] theorem State.fillGran_coll (s : State) (g : Nat) : (s.fillGran g).coll = s.coll := by
  simp [State.fillGran, State.tagGran]

@[simp] theorem State.writeGrans_coll (s : State) (a : Party) (slot : Nat → Nat) (addr : Nat) (l : List Byte) :
    (s.writeGrans a slot addr l).st.coll = s.coll :=
  (foldl_coll (fun t _ => t.log_coll _) _ _).trans (foldl_coll (fun t g => t.putGran_coll _ _ _ g) _ _)

@[simp] theorem State.fillMet_coll (s : State) (addr n : Nat) : (s.fillMet addr n).coll = s.coll := by
  unfold State.fillMet
  split <;> simp [foldl_coll]

@[simp] theorem State.snoop_coll (s : State) (inv : Bool) (addr n : Nat) : (s.snoop inv addr n).coll = s.coll := by
  obtain ⟨o, h, snooped⟩ := s.snoop_eq inv addr n
  rw [snooped]

@[simp] theorem State.memWrite_coll (s : State) (a : Party) (right : Fld) (addr : Nat) (l : List Byte) :
    (s.memWrite a right addr l).st.coll = s.coll := by
  unfold State.memWrite
  split <;> simp

/-- A collective stands as it did where the collective engine does. -/
theorem State.inst_of_coll {s u : State} (same : u.coll = s.coll) (g q : Nat) : u.inst g q = s.inst g q := by
  rw [State.inst, State.inst, same]

/-! ## A grant or signal for a key (R512, R532, R538) -/

section
variable {s : State} {g q : Nat} {i : Inst} (found : s.inst g q = some i)
include found

/-- A grant adds its pieces to what the successor has granted. -/
theorem State.signalColl_grant {kind : Nat} (grant : kind ≠ 5) (a b : Nat) :
    s.signalColl g q kind a b = s.setInst { i with credit := i.credit + a } := by
  rw [State.signalColl, found]
  exact if_neg grant

/-- A signal that overflows no counter adds to the one it names. -/
theorem State.signalColl_counter {ctr inc v : Nat} (counter : i.ctrs[ctr]? = some v) (fits : v + inc < 2 ^ 32) :
    s.signalColl g q 5 ctr inc = s.setInst { i with ctrs := i.ctrs.set ctr (v + inc) } := by
  rw [State.signalColl, found]
  dsimp only
  rw [if_pos rfl, State.addColl, counter]
  exact if_neg (Nat.not_le.mpr fits)

end

/-- One whose collective has not started yet is held in the early table. -/
theorem State.signalColl_early {s : State} {g q : Nat} (absent : s.inst g q = none) (new : s.wasInst g q = false) (kind a b : Nat) :
    s.signalColl g q kind a b = { s with coll := { s.coll with early := s.coll.early ++ [⟨g, q, kind, a, b, s.time.now⟩] } } := by
  rw [State.signalColl, absent]
  exact if_neg (ne_true_of_eq_false new)

/-! ## READY, CREDIT, TSIG and TPUT arrive -/

/-- A packet whose collective stands needs no early entry. -/
theorem State.earlyFull_found {s : State} {p : Pkt} {i : Inst} (found : s.inst (collKey p).1 (collKey p).2 = some i) :
    s.earlyFull p = false := by
  rw [State.earlyFull, found]
  rfl

/-- A table with room for one more refuses none. -/
theorem State.earlyFull_room {s : State} (p : Pkt) (room : s.coll.early.length < 4096) : s.earlyFull p = false := by
  rw [State.earlyFull, decide_eq_false (Nat.not_le.mpr room), Bool.and_false]

/-- Triggered data are written under `FPUT`, and the collective that stands has made progress. -/
theorem State.tputWrite_found {s : State} {p : Pkt} {i : Inst} (found : s.inst (collKey p).1 (collKey p).2 = some i) : s.tputWrite p =
    (let m := s.memWrite ⟨PH.PART.of p.hdr, PH.WORLD.of p.hdr, none, 5⟩ MEM_RGN.FPUT (PH.RADDR.of p.hdr) (p.pay.drop 32)
     { m with st := m.st.instUp i }) := by
  simp only [State.tputWrite, found, Option.isNone_some, Bool.false_and, Bool.false_eq_true, if_false]
  exact congrArg (MemRes.mk _ _) (State.withInst_some ((State.inst_of_coll (s.memWrite_coll _ _ _ _) _ _).trans found) _)

section
variable {s : State} {p : Pkt} {t : DStream} (h : s.Takes p t) (type : PH.TYPE.of p.hdr = tyCOLL)
include h type

/-- A grant or signal with a place to go is taken and settled. -/
theorem State.Takes.signal {kind : Nat} {u : State} (hk : CH.PKIND.of (collHdrOf p) = kind) (room : s.earlyFull p = false)
    (taken : s.takeSignal p kind = ⟨0, [], u⟩) (same : u.fab.msgs = s.fab.msgs) : s.arriveSignal p kind = u.settled p t := by
  rw [State.arriveSignal, h.coll type hk, room, Bool.and_false, if_neg Bool.false_ne_true, h.withMsg _ _ (by rw [taken])
    (by rw [taken]; exact same), taken]
  rfl

/-- READY and CREDIT add their pieces to the successor's grant. -/
theorem State.Takes.grant {kind : Nat} {i : Inst} (found : s.inst (collKey p).1 (collKey p).2 = some i)
    (hk : CH.PKIND.of (collHdrOf p) = kind) (grant : kind ≠ 5) :
    s.arriveSignal p kind = (s.setInst { i with credit := i.credit + CH.NCRED.of (collHdrOf p) }).settled p t :=
  h.signal type hk (State.earlyFull_found found)
    (congrArg (MemRes.mk 0 []) ((if_neg grant).trans (State.signalColl_grant found grant _ _))) rfl

/-- A TPUT's bytes are written under `FPUT`; its collective has made progress, and its signal is added as its message closes. -/
theorem State.Takes.tput {i : Inst} (found : s.inst (collKey p).1 (collKey p).2 = some i) (hk : CH.PKIND.of (collHdrOf p) = 4) :
    (let m := s.memWrite ⟨PH.PART.of p.hdr, PH.WORLD.of p.hdr, none, 5⟩ MEM_RGN.FPUT (PH.RADDR.of p.hdr) (p.pay.drop 32)
     m.code = 0 → exec (.collTput p []) s = .next (if CH.R_EN.on (collHdrOf p) then
       ((m.st.instUp i).settled p t).signalColl i.group i.cseq 5 (CH.RCTR.of (collHdrOf p)) (CH.INC.of (collHdrOf p))
       else (m.st.instUp i).settled p t)) := by
  intro m ok
  obtain ⟨group, cseq⟩ := State.inst_key found
  have written : s.tputWrite p = { m with st := m.st.instUp i } := State.tputWrite_found found
  have same : (m.st.instUp i).fab.msgs = s.fab.msgs := congrArg FabSt.msgs (s.aside_memWrite _ _ _ _).fab
  have row : exec (.collTput p []) s = .next (collTputStep p [] s) := rfl
  rw [row, collTputStep, isColl_kind type hk, State.when_true, State.markBad_nil, h.arrive, State.earlyFull_found found, Bool.and_false,
    if_neg Bool.false_ne_true, h.real, if_neg Bool.false_ne_true, h.withMsg _ _ (by rw [written]; exact ok) (by rw [written]; exact same),
    written, tputAfter, group, cseq]
  rfl

end

/-! ## The watchdog and the early table -/

/-- An early entry unclaimed for a second is discarded and logged. -/
theorem earlyEntryExpiryStep_late {s : State} {n : Nat} {e : Early} (up : s.hubUp = true) (held : s.coll.early[n]? = some e)
    (late : e.t0 + 1000000000 ≤ s.time.now) :
    earlyEntryExpiryStep n s = { s with coll := { s.coll with early := s.coll.early.eraseIdx n } }.logC 0x0247 := by
  rw [earlyEntryExpiryStep, up, State.when_true, held]
  exact if_pos late

/-- A collective without progress for `WDOG` ms fails. -/
theorem collStallStep_late {s : State} {g q : Nat} {i : Inst} (up : s.hubUp = true) (found : s.inst g q = some i)
    (late : i.lastUp + i.wdog * 1000000 ≤ s.time.run) : collStallStep g q s = s.failInst i 0x0241 0 := by
  rw [collStallStep, up, State.when_true, State.withInst_some found]
  exact if_pos late

/-- Settles O25: each packet by what its collective, or the early table in its place, makes of it once the steps of R411 have passed it. -/
theorem collectiveSignals : Obligations.CollectiveSignals := by
  refine ⟨fun s p t i takes type found => ⟨fun kind => ?ready, fun kind => ?credit, fun v kind counter fits => ?tsig,
    fun kind ok => ⟨fun silent => ?tput, fun signals => ?tputSignal⟩⟩, ?early, ?expiry, ?stall⟩
  case ready => exact congrArg _ (takes.grant type found kind (by decide))
  case credit => exact congrArg _ (takes.grant type found kind (by decide))
  case tsig =>
    exact congrArg _ (takes.signal type kind (State.earlyFull_found found)
      (congrArg (MemRes.mk 0 []) (State.signalColl_counter found counter fits)) rfl)
  case tput => rw [takes.tput type found kind ok, if_neg (ne_true_of_eq_false silent)]
  case tputSignal => rw [takes.tput type found kind ok, if_pos signals]
  case early =>
    intro s p t takes type absent new room kind
    exact congrArg _ (takes.signal type kind (State.earlyFull_room p room)
      (congrArg (MemRes.mk 0 []) (State.signalColl_early absent new _ _ _)) rfl)
  case expiry =>
    intro s n e up held late
    exact congrArg _ (earlyEntryExpiryStep_late up held late)
  case stall =>
    intro s g q i hg up found late
    exact need_group hg (collStallStep_late up found late)

end Sys2Proof.Machine
end

section
/-! The group table, and the collective and triggered commands as they launch (R499, R503 to R507, R509, R510, R512, R525, R528). -/
set_option autoImplicit false
namespace Sys2Proof.Machine

/-! ## The group table (R499, R736) -/

/-- A write of an entry's word, by a writer that reaches the table, is a register write of the whole entry. -/
theorem exec_collGrpWrite {s : State} {w : Who} {g k v : Nat} (hg : g < 4096) (hk : k < 2) (reach : s.reaches w = true) :
    exec (.collGrpWrite w g k v) s =
      (let full := s.wordPut .COLL_GRP g k v
       .next (s.regWrite w .COLL_GRP g full (fun s => s.grpReject g full) fun s => s.putRW .COLL_GRP g full)) := by
  have row : exec (.collGrpWrite w g k v) s = need (decide (g < 4096) && decide (k < 2)) (collGrpWriteStep w g k v s) := rfl
  rw [row, decide_eq_true hg, decide_eq_true hk, Bool.and_self, need_true, collGrpWriteStep, reach, State.when_true]

/-! ## A command and the collective it starts -/

/-- The state once a command has launched and its collective stands among those in progress. -/
def State.entered (s : State) (c : Cmd) (j : Inst) : State :=
  let u := s.launched c 1 []
  { u with coll := { u.coll with insts := u.coll.insts ++ [j] } }

/-- An empty early table holds nothing for a collective. -/
theorem State.applyEarly_nil {s : State} (empty : s.coll.early = []) (g q : Nat) : s.applyEarly g q = s := by
  have kept : { s.coll with early := [] } = s.coll := by rw [← empty]
  simp only [State.applyEarly, empty, List.filter_nil, List.foldl_nil, kept]

/-- A row that names one of the 8,192 rings acts. -/
theorem need_ring {ring : Nat} {t u : State} (hr : ring < 8192) (h : t = u) : need (wfRing ring) t = .next u := by
  rw [wfRing, decide_eq_true hr, need_true, h]

/-! ## Ring collectives (R504 to R506) -/

section
variable {s : State} {ring seq : Nat} {c : Cmd} (at_ : s.cmdAt ring seq = some c) (op : CMD.OP.of c.word = 2) (may : s.mayLaunch c = true)
include at_ op may

section
variable {kind : Nat} (hk : CBODY.CKIND.of c.word = kind)
include hk

/-- A collective that the engine refuses completes with the code that refuses it. -/
theorem collStartStep_refused (refused : s.collStartCode (s.newInst c []) ≠ 0) :
    collStartStep kind ring seq [] s = s.complete c (s.collStartCode (s.newInst c [])) := by
  rw [collStartStep, State.launching_at at_ may op, if_neg (not_not_intro hk)]
  dsimp only
  split
  · exact absurd ‹_› refused
  · rfl

/-- One that it does not refuse starts when there is room. -/
theorem collStartStep_starts (sound : s.collStartCode (s.newInst c []) = 0) (room : s.collRoom (s.newInst c []) = true) :
    collStartStep kind ring seq [] s = s.startRing c (s.newInst c []) := by
  rw [collStartStep, State.launching_at at_ may op, if_neg (not_not_intro hk)]
  dsimp only
  rw [sound]
  exact if_pos room

end

/-! ## Triggered lists (R525, R528, R538) -/

section
variable (hk : CBODY.CKIND.of c.word = 3)
include hk

/-- A triggered command that the engine refuses completes with the code that refuses it. -/
theorem triggeredStep_refused (refused : s.collStartCode (s.newInst c []) ≠ 0) :
    triggeredStep ring seq [] s = s.complete c (s.collStartCode (s.newInst c [])) := by
  rw [triggeredStep, State.launching_at at_ may op, if_neg (not_not_intro hk)]
  exact if_pos refused

section
variable {b : List Byte} {tops : List Nat} (sound : s.collStartCode (s.newInst c []) = 0)
  (read : s.memRead (s.accOf (ring / 32) 3) MEM_RGN.FETCH (CMD.LT_ADDR.of c.word * 64) (64 * (CMD.NCORES_M1.of c.word + 1)) = ⟨0, b, s⟩)
  (loaded : (List.range (CMD.NCORES_M1.of c.word + 1)).map (fun k => leAt b (64 * k) 64) = tops)
include sound read loaded

/-- A list that reads is checked entry by entry; its collective starts when every entry passes and there is room. -/
theorem triggeredStep_loaded : triggeredStep ring seq [] s =
    (let j := s.newInst c tops
     let code := s.topsCode j.ctx c.nctr (j.n - 1) tops
     if code = 0 then if s.collRoom j then (s.entered c j).applyEarly j.group j.cseq else s else s.complete c code) := by
  subst loaded
  have read' : s.memRead (s.accOf (ringCtx ring) 3) MEM_RGN.FETCH (CMD.LT_ADDR.of c.word <<< 6)
      (64 * (CMD.NCORES_M1.of c.word + 1)) = ⟨0, b, s⟩ := by
    rw [Nat.shiftLeft_eq]
    exact read
  rw [triggeredStep, State.launching_at at_ may op, if_neg (not_not_intro hk)]
  simp only [sound, State.markBad_nil, read', ne_eq, not_true_eq_false, if_false]
  split
  · next passes =>
    rw [if_pos passes]
    rfl
  · next broken => rw [if_neg broken]

/-- A list with an entry that breaks a check completes its command with the check's code. -/
theorem triggeredStep_broken (broken : s.topsCode (s.newInst c tops).ctx c.nctr ((s.newInst c tops).n - 1) tops ≠ 0) :
    triggeredStep ring seq [] s =
      s.complete c (s.topsCode (s.newInst c tops).ctx c.nctr ((s.newInst c tops).n - 1) tops) :=
  (triggeredStep_loaded at_ op may hk sound read loaded).trans (if_neg broken)

/-- A list whose every entry passes starts its collective, which finds an empty early table as it is. -/
theorem triggeredStep_starts (passes : s.topsCode (s.newInst c tops).ctx c.nctr ((s.newInst c tops).n - 1) tops = 0)
    (room : s.collRoom (s.newInst c tops) = true) (empty : s.coll.early = []) :
    triggeredStep ring seq [] s = s.entered c (s.newInst c tops) :=
  calc triggeredStep ring seq [] s
    _ = _ := triggeredStep_loaded at_ op may hk sound read loaded
    _ = (s.entered c (s.newInst c tops)).applyEarly _ _ := (if_pos passes).trans (if_pos room)
    _ = s.entered c (s.newInst c tops) := State.applyEarly_nil (s := s.entered c _) empty _ _

end
end
end

/-- Settles O23: a write of the group table by what the table says of it, a collective by the engine's check, and a triggered list by the
check of its entries too. -/
theorem collectivesStart : Obligations.CollectivesStart := by
  refine ⟨?write, ?launch⟩
  case write =>
    intro s w g k v hg hk reach full free acts
    have row := exec_collGrpWrite (v := v) hg hk reach
    exact ⟨fun good => row.trans (congrArg _ (State.regWrite_taken free acts good)),
      fun bad => row.trans (congrArg _ (State.regWrite_rejected free acts bad))⟩
  case launch =>
    intro s ring seq c hr at_ op may i
    refine ⟨fun refused => ?refused, fun sound room => ?starts, fun sound kind b read _ => ?triggered⟩
    case refused =>
      have ring (n : Nat) (kind : CBODY.CKIND.of c.word = n) := need_ring hr (collStartStep_refused at_ op may kind refused)
      exact ⟨ring 0, ring 1, ring 2, fun kind => need_ring hr (triggeredStep_refused at_ op may kind refused)⟩
    case starts =>
      have ring (n : Nat) (kind : CBODY.CKIND.of c.word = n) := need_ring hr (collStartStep_starts at_ op may kind sound room)
      exact ⟨ring 0, ring 1, ring 2⟩
    case triggered =>
      intro tops j
      refine ⟨fun broken => need_ring hr (triggeredStep_broken at_ op may kind sound read rfl broken), fun passes room empty =>
        ⟨s.entered c j, need_ring hr (triggeredStep_starts at_ op may kind sound read rfl passes room empty), rfl, rfl, rfl, rfl⟩⟩

end Sys2Proof.Machine
end

section
/-! Every command: the units it names are the only ground for a fault, and it keeps the invariant (R755, R778, R779). -/
set_option autoImplicit false
namespace Sys2Proof.Machine

/-- A command is checked for the units it names, and for nothing else. -/
theorem exec_eq_need (c : Instr) (s : State) : ∃ t, exec c s = need c.wf t := by
  cases c <;> exact ⟨_, rfl⟩

/-- Settles O58: the check of the named units alone decides whether a command is taken. -/
theorem everyCommandIsTaken : Obligations.EveryCommandIsTaken := by
  intro c s
  obtain ⟨t, checked⟩ := exec_eq_need c s
  exact ⟨fun wf => ⟨t, by rw [checked, wf]; rfl⟩, fun ill => by rw [checked, ill]; rfl⟩

/-- Every command keeps the invariant, each by the law of its own meaning. -/
theorem exec_inv {n : Nat} {v : Nat → Nat} (c : Instr) {s : State} (h : s.Inv n v) : Res.Keeps (exec c s) n v :=
  match c with
  | .enRise => execEnRise_inv s h
  | .enFall => execEnFall_inv s h
  | .powerGood .. => execPowerGood_inv _ _ _ _ s h
  | .secfw .. => execSecfw_inv _ _ s h
  | .identity .. => execIdentity_inv _ _ s h
  | .record .. => execRecord_inv _ _ s h
  | .recordSafe .. => execRecordSafe_inv _ _ s h
  | .gather .. => execGather_inv _ _ s h
  | .selftest .. => execSelftest_inv _ _ s h
  | .cullet .. => execCullet_inv _ _ s h
  | .ready .. => execReady_inv _ _ s h
  | .bootStepEnd .. => execBootStepEnd_inv _ s h
  | .wreset .. => execWreset_inv _ _ s h
  | .stagingWrite .. => execStagingWrite_inv _ _ _ s h
  | .calibrationWrite .. => execCalibrationWrite_inv _ _ _ s h
  | .timingSyncSend .. => execTimingSyncSend_inv _ s h
  | .timingSync .. => execTimingSync_inv _ _ _ s h
  | .timingReq .. => execTimingReq_inv _ _ s h
  | .timingResp .. => execTimingResp_inv _ _ s h
  | .holdoverEntry => execHoldoverEntry_inv s h
  | .holdoverTimeout => execHoldoverTimeout_inv s h
  | .timePacketSend .. => execTimePacketSend_inv _ s h
  | .timeReceive .. => execTimeReceive_inv _ _ s h
  | .depthTimeout => execDepthTimeout_inv s h
  | .timeCtlWrite .. => execTimeCtlWrite_inv _ _ s h
  | .replicaCorrect .. => execReplicaCorrect_inv _ s h
  | .rateSample .. => execRateSample_inv _ s h
  | .armedAction .. => execArmedAction_inv _ s h
  | .gctlOwnerWrite .. => execGctlOwnerWrite_inv _ _ s h
  | .gctlRoleWrite .. => execGctlRoleWrite_inv _ _ s h
  | .roleTakesEffect => execRoleTakesEffect_inv s h
  | .commandDoorbell .. => execCommandDoorbell_inv _ _ _ s h
  | .completionDoorbell .. => execCompletionDoorbell_inv _ _ _ s h
  | .commandRead .. => execCommandRead_inv _ _ s h
  | .nop .. => execNop_inv _ _ s h
  | .launch .. => execLaunch_inv _ _ s h
  | .allreduce .. => execAllreduce_inv _ _ _ s h
  | .reduceScatter .. => execReduceScatter_inv _ _ _ s h
  | .allgather .. => execAllgather_inv _ _ _ s h
  | .triggered .. => execTriggered_inv _ _ _ s h
  | .coreDone .. => execCoreDone_inv _ _ _ s h
  | .doneMessage .. => execDoneMessage_inv _ _ _ s h
  | .cfeRingCmdWrite .. => execCfeRingCmdWrite_inv _ _ _ s h
  | .cfeRingCplWrite .. => execCfeRingCplWrite_inv _ _ _ s h
  | .ctxCfgWrite .. => execCtxCfgWrite_inv _ _ _ s h
  | .ctxCtlReset .. => execCtxCtlReset_inv _ _ s h
  | .ctxCtlResume .. => execCtxCtlResume_inv _ _ s h
  | .divClr .. => execDivClr_inv _ _ s h
  | .hangTimeout .. => execHangTimeout_inv _ _ s h
  | .contextResetDone .. => execContextResetDone_inv _ s h
  | .tmma .. => execTmma_inv _ _ _ _ s h
  | .vprog .. => execVprog_inv _ _ _ _ s h
  | .osmUpdate .. => execOsmUpdate_inv _ _ _ _ s h
  | .osmMerge .. => execOsmMerge_inv _ _ _ _ s h
  | .osmNorm .. => execOsmNorm_inv _ _ _ _ s h
  | .smove .. => execSmove_inv _ _ _ _ s h
  | .smovePartStart .. => execSmovePartStart_inv _ _ _ _ _ s h
  | .smovePartWritten .. => execSmovePartWritten_inv _ _ _ _ s h
  | .satomAdd .. => execSatomAdd_inv _ _ _ _ s h
  | .satomFadd .. => execSatomFadd_inv _ _ _ _ s h
  | .satomSwap .. => execSatomSwap_inv _ _ _ _ s h
  | .satomCas .. => execSatomCas_inv _ _ _ _ s h
  | .satomUmax .. => execSatomUmax_inv _ _ _ _ s h
  | .tsig .. => execTsig_inv _ _ _ _ s h
  | .tsigall .. => execTsigall_inv _ _ _ _ s h
  | .tread .. => execTread_inv _ _ _ _ s h
  | .loopb .. => execLoopb_inv _ _ _ _ s h
  | .loope .. => execLoope_inv _ _ _ _ s h
  | .skip .. => execSkip_inv _ _ _ _ s h
  | .endList .. => execEndList_inv _ _ _ _ s h
  | .fail .. => execFail_inv _ _ _ _ s h
  | .stamp .. => execStamp_inv _ _ _ _ s h
  | .aselect .. => execAselect_inv _ _ _ _ s h
  | .agather .. => execAgather_inv _ _ _ _ s h
  | .aquery .. => execAquery_inv _ _ _ _ s h
  | .akvship .. => execAkvship_inv _ _ _ _ s h
  | .descComplete .. => execDescComplete_inv _ _ _ _ _ s h
  | .tokenSignal .. => execTokenSignal_inv _ s h
  | .spareSubstitution .. => execSpareSubstitution_inv _ s h
  | .handshakeStall .. => execHandshakeStall_inv _ _ _ _ _ s h
  | .microcodeCheck .. => execMicrocodeCheck_inv _ _ _ _ _ s h
  | .hubEngineFault .. => execHubEngineFault_inv _ s h
  | .replayCommandEnd .. => execReplayCommandEnd_inv _ s h
  | .replayTmo => execReplayTmo_inv s h
  | .packetRoute .. => execPacketRoute_inv _ _ _ s h
  | .headerWaitTimeout .. => execHeaderWaitTimeout_inv _ s h
  | .packetSend .. => execPacketSend_inv _ _ _ s h
  | .put .. => execPut_inv _ _ s h
  | .getReq .. => execGetReq_inv _ s h
  | .getServe .. => execGetServe_inv _ s h
  | .getResp .. => execGetResp_inv _ _ s h
  | .ack .. => execAck_inv _ s h
  | .nack .. => execNack_inv _ _ _ s h
  | .atomic .. => execAtomic_inv _ _ s h
  | .mgmt .. => execMgmt_inv _ s h
  | .rtoTimeout .. => execRtoTimeout_inv _ _ _ _ _ _ s h
  | .windowStall .. => execWindowStall_inv _ _ _ s h
  | .voidStall .. => execVoidStall_inv _ _ _ s h
  | .streamIdle .. => execStreamIdle_inv _ _ _ s h
  | .sourceStreamRelease .. => execSourceStreamRelease_inv _ _ _ s h
  | .fabCtlWrite .. => execFabCtlWrite_inv _ _ s h
  | .query .. => execQuery_inv _ _ s h
  | .queryServe .. => execQueryServe_inv _ _ s h
  | .queryStaleTimeout .. => execQueryStaleTimeout_inv _ s h
  | .shardQuerySend .. => execShardQuerySend_inv _ s h
  | .qrespPartial .. => execQrespPartial_inv _ s h
  | .qtoExpiry .. => execQtoExpiry_inv _ s h
  | .kvShipment .. => execKvShipment_inv _ _ s h
  | .kvack .. => execKvack_inv _ s h
  | .gctlSeqtabWrite .. => execGctlSeqtabWrite_inv _ _ _ s h
  | .memHostWrite .. => execMemHostWrite_inv _ _ s h
  | .cxlMemRead .. => execCxlMemRead_inv _ _ s h
  | .cxlMemWrite .. => execCxlMemWrite_inv _ _ _ s h
  | .regionEntryWrite .. => execRegionEntryWrite_inv _ _ _ _ s h
  | .regionChangeApplied => execRegionChangeApplied_inv s h
  | .memFillGo .. => execMemFillGo_inv _ _ s h
  | .fillDone => execFillDone_inv s h
  | .repairRemapRow .. => execRepairRemapRow_inv _ _ _ _ s h
  | .repairSubstitutePc .. => execRepairSubstitutePc_inv _ _ _ s h
  | .repairLoadRowRemap .. => execRepairLoadRowRemap_inv _ _ _ _ s h
  | .repairDone .. => execRepairDone_inv _ _ s h
  | .memTrainGo .. => execMemTrainGo_inv _ _ s h
  | .trainStackDone .. => execTrainStackDone_inv _ _ _ _ s h
  | .hbmRefresh .. => execHbmRefresh_inv _ _ s h
  | .memStkStatusRead .. => execMemStkStatusRead_inv _ _ _ s h
  | .trainGo .. => execTrainGo_inv _ _ _ _ s h
  | .forceOut .. => execForceOut_inv _ _ _ _ s h
  | .laserSwap .. => execLaserSwap_inv _ _ _ _ s h
  | .loop .. => execLoop_inv _ _ _ _ s h
  | .laneLs2Req .. => execLaneLs2Req_inv _ _ _ _ s h
  | .signalDetect .. => execSignalDetect_inv _ _ s h
  | .alignTimeout .. => execAlignTimeout_inv _ _ s h
  | .status .. => execStatus_inv _ _ _ s h
  | .statusSend .. => execStatusSend_inv _ s h
  | .train .. => execTrain_inv _ _ _ s h
  | .equaliseTimeout .. => execEqualiseTimeout_inv _ _ s h
  | .deskew .. => execDeskew_inv _ _ s h
  | .gateEnd .. => execGateEnd_inv _ _ s h
  | .mapReq .. => execMapReq_inv _ _ s h
  | .mapSwitch .. => execMapSwitch_inv _ _ s h
  | .ls1Idle .. => execLs1Idle_inv _ _ s h
  | .ls1Req .. => execLs1Req_inv _ _ _ s h
  | .ls1Ack .. => execLs1Ack_inv _ _ s h
  | .ls1Exit .. => execLs1Exit_inv _ s h
  | .wake .. => execWake_inv _ _ s h
  | .ls2Req .. => execLs2Req_inv _ _ s h
  | .ls2Ack .. => execLs2Ack_inv _ _ s h
  | .feReq .. => execFeReq_inv _ _ s h
  | .feAck .. => execFeAck_inv _ _ s h
  | .feRefuse .. => execFeRefuse_inv _ _ s h
  | .feEnd .. => execFeEnd_inv _ _ s h
  | .retrain .. => execRetrain_inv _ _ s h
  | .noticeLaserSwap .. => execNoticeLaserSwap_inv _ _ _ s h
  | .noticeRepeat .. => execNoticeRepeat_inv _ _ s h
  | .laneCredit .. => execLaneCredit_inv _ _ _ s h
  | .creditSend .. => execCreditSend_inv _ _ s h
  | .laneFail .. => execLaneFail_inv _ _ _ _ s h
  | .lanePstatRead .. => execLanePstatRead_inv _ _ s h
  | .laneMonRead .. => execLaneMonRead_inv _ _ _ _ s h
  | .eyeMeasure .. => execEyeMeasure_inv _ _ _ _ s h
  | .optMonitor .. => execOptMonitor_inv _ _ _ _ _ _ s h
  | .hello .. => execHello_inv _ _ s h
  | .encapsulationKey .. => execEncapsulationKey_inv _ _ _ s h
  | .kemCiphertext .. => execKemCiphertext_inv _ _ _ s h
  | .finished .. => execFinished_inv _ _ s h
  | .linkRekey .. => execLinkRekey_inv _ s h
  | .collGrpWrite .. => execCollGrpWrite_inv _ _ _ _ s h
  | .pieceSend .. => execPieceSend_inv _ _ _ _ _ s h
  | .rsData .. => execRsData_inv _ _ s h
  | .agData .. => execAgData_inv _ s h
  | .pieceWrite .. => execPieceWrite_inv _ _ _ _ _ s h
  | .collReady .. => execCollReady_inv _ s h
  | .collCredit .. => execCollCredit_inv _ s h
  | .collTput .. => execCollTput_inv _ _ s h
  | .collTsig .. => execCollTsig_inv _ s h
  | .topNop .. => execTopNop_inv _ _ _ s h
  | .topPut .. => execTopPut_inv _ _ _ _ s h
  | .topGet .. => execTopGet_inv _ _ _ _ s h
  | .topReduce .. => execTopReduce_inv _ _ _ _ s h
  | .topSignal .. => execTopSignal_inv _ _ _ _ s h
  | .topComplete .. => execTopComplete_inv _ _ _ s h
  | .collStall .. => execCollStall_inv _ _ s h
  | .earlyEntryExpiry .. => execEarlyEntryExpiry_inv _ s h
  | .wearReading .. => execWearReading_inv _ _ _ s h
  | .spareFenceGo .. => execSpareFenceGo_inv _ _ s h
  | .spareFenceCancel .. => execSpareFenceCancel_inv _ _ s h
  | .drainComplete .. => execDrainComplete_inv _ s h
  | .spareAbindWrite .. => execSpareAbindWrite_inv _ _ _ s h
  | .abort .. => execAbort_inv _ _ s h
  | .elogNotify => execElogNotify_inv s h
  | .dumpTake .. => execDumpTake_inv _ _ s h
  | .captureDone => execCaptureDone_inv s h
  | .dumpUsedClear .. => execDumpUsedClear_inv _ _ s h
  | .dumpXgo .. => execDumpXgo_inv _ _ s h
  | .dumpCopyDone => execDumpCopyDone_inv s h
  | .sparePairWrite .. => execSparePairWrite_inv _ _ s h
  | .renewSend => execRenewSend_inv s h
  | .renew .. => execRenew_inv _ s h
  | .grant .. => execGrant_inv _ s h
  | .leaseExpiry => execLeaseExpiry_inv s h
  | .promotionTimeout => execPromotionTimeout_inv s h
  | .resyncGo .. => execResyncGo_inv _ _ _ s h
  | .resyncFrame .. => execResyncFrame_inv _ s h
  | .resyncPass => execResyncPass_inv s h
  | .resyncSwitch .. => execResyncSwitch_inv _ _ s h
  | .resyncSwitchDone .. => execResyncSwitchDone_inv _ s h
  | .resyncFail .. => execResyncFail_inv _ s h
  | .vinSample .. => execVinSample_inv _ _ _ s h
  | .holdTimeout => execHoldTimeout_inv s h
  | .railLimit .. => execRailLimit_inv _ s h
  | .phaseFenced .. => execPhaseFenced_inv _ _ s h
  | .railFault .. => execRailFault_inv _ s h
  | .pwrPolicyWrite .. => execPwrPolicyWrite_inv _ _ s h
  | .heartbeatLoss => execHeartbeatLoss_inv s h
  | .floorRecompute .. => execFloorRecompute_inv _ s h
  | .thermalUpdate => execThermalUpdate_inv s h
  | .throttle .. => execThrottle_inv _ s h
  | .sensorSample .. => execSensorSample_inv _ _ _ _ _ s h
  | .thermTrip .. => execThermTrip_inv _ s h
  | .adaptChoice .. => execAdaptChoice_inv _ s h
  | .loadHint .. => execLoadHint_inv _ _ _ s h
  | .coolStale => execCoolStale_inv s h
  | .trayFrame .. => execTrayFrame_inv _ s h
  | .idleEntry .. => execIdleEntry_inv _ _ _ s h
  | .powerWake => execPowerWake_inv s h
  | .ps4Req .. => execPs4Req_inv _ _ s h
  | .pwrRailRead .. => execPwrRailRead_inv _ _ _ _ s h
  | .pwrEvtRead .. => execPwrEvtRead_inv _ s h
  | .partOpen .. => execPartOpen_inv _ _ s h
  | .partClose .. => execPartClose_inv _ _ s h
  | .moveCluster .. => execMoveCluster_inv _ _ s h
  | .moveContext .. => execMoveContext_inv _ _ s h
  | .moveEndpoint .. => execMoveEndpoint_inv _ _ s h
  | .moveKeyslot .. => execMoveKeyslot_inv _ _ s h
  | .scrub .. => execScrub_inv _ _ s h
  | .setDl .. => execSetDl_inv _ _ s h
  | .unlock .. => execUnlock_inv _ _ s h
  | .ownerLock .. => execOwnerLock_inv _ _ s h
  | .ownerBind .. => execOwnerBind_inv _ _ s h
  | .lifecycle .. => execLifecycle_inv _ _ s h
  | .secCmdDone => execSecCmdDone_inv s h
  | .secClWorldWrite .. => execSecClWorldWrite_inv _ _ _ s h
  | .trngHealthFail => execTrngHealthFail_inv s h
  | .getVersion .. => execGetVersion_inv _ s h
  | .getCapabilities .. => execGetCapabilities_inv _ s h
  | .negotiateAlgorithms .. => execNegotiateAlgorithms_inv _ s h
  | .getDigests .. => execGetDigests_inv _ s h
  | .getCertificate .. => execGetCertificate_inv _ s h
  | .challenge .. => execChallenge_inv _ s h
  | .getMeasurements .. => execGetMeasurements_inv _ s h
  | .chunkGet .. => execChunkGet_inv _ s h
  | .fwuStage .. => execFwuStage_inv _ _ s h
  | .stagingDone .. => execStagingDone_inv _ s h
  | .fwuActivate .. => execFwuActivate_inv _ _ s h
  | .fwuAbandon .. => execFwuAbandon_inv _ _ s h
  | .svnCommit .. => execSvnCommit_inv _ _ s h
  | .activation .. => execActivation_inv _ _ s h
  | .actTimeout => execActTimeout_inv s h
  | .traceSlotWrite .. => execTraceSlotWrite_inv _ _ _ _ s h
  | .dumpSlotWrite .. => execDumpSlotWrite_inv _ _ _ _ s h
  | .freezeGo .. => execFreezeGo_inv _ _ s h
  | .freeze .. => execFreeze_inv _ _ s h
  | .frozen => execFrozen_inv s h
  | .freezeTimeout => execFreezeTimeout_inv s h
  | .freezeResume .. => execFreezeResume_inv _ _ s h
  | .obsPortRead .. => execObsPortRead_inv _ _ s h
  | .obsHubRead .. => execObsHubRead_inv _ s h
  | .setdasa .. => execSetdasa_inv _ _ _ s h
  | .entdaa .. => execEntdaa_inv _ _ s h
  | .rstdaa .. => execRstdaa_inv _ s h
  | .getpid .. => execGetpid_inv _ s h
  | .getbcr .. => execGetbcr_inv _ s h
  | .getdcr .. => execGetdcr_inv _ s h
  | .getmrl .. => execGetmrl_inv _ s h
  | .getmwl .. => execGetmwl_inv _ s h
  | .enec .. => execEnec_inv _ _ s h
  | .disec .. => execDisec_inv _ _ s h
  | .setEndpointId .. => execSetEndpointId_inv _ _ _ s h
  | .mctpControl .. => execMctpControl_inv _ _ s h
  | .messageRead => execMessageRead_inv s h
  | .getSensorReading .. => execGetSensorReading_inv _ _ s h
  | .setSensorThresholds .. => execSetSensorThresholds_inv _ _ _ s h
  | .setEventReceiver .. => execSetEventReceiver_inv _ _ s h
  | .heartbeat .. => execHeartbeat_inv _ _ s h
  | .rcap .. => execRcap_inv _ s h
  | .owner .. => execOwner_inv _ s h
  | .warmReset .. => execWarmReset_inv _ _ s h
  | .ps4Exit .. => execPs4Exit_inv _ s h
  | .fwTact .. => execFwTact_inv _ s h
  | .portMgmt .. => execPortMgmt_inv _ _ s h
  | .requestFirmwareData .. => execRequestFirmwareData_inv _ _ _ s h
  | .verifyComplete => execVerifyComplete_inv s h
  | .activateFirmware => execActivateFirmware_inv s h
  | .pathDisagree .. => execPathDisagree_inv _ s h
  | .registerWrite .. => execRegisterWrite_inv _ _ _ _ _ s h
  | .skipColumn .. => execSkipColumn_inv _ _ s h
  | .ucieModuleFail .. => execUcieModuleFail_inv _ s h
  | .trngStartupPass => execTrngStartupPass_inv s h
  | .substitutionDone .. => execSubstitutionDone_inv _ _ s h
  | .investigationSelftestDone .. => execInvestigationSelftestDone_inv _ s h

/-- Settles O60: the passing of time keeps the invariant, and so does every command on the rest of its queue. -/
theorem everyStepKeeps : Obligations.EveryStepKeeps := by
  intro n v s t h next
  unfold step at next
  split at next
  case h_1 =>
    cases next
    exact s.tick_inv h
  case h_2 c q _ => exact exec_inv c (s.rest_inv q h) t next

end Sys2Proof.Machine
end

section
/-! Every register field after a warm reset (R16, R667; log 2). -/
set_option autoImplicit false
namespace Sys2Proof.Machine

/-! ## The field that a key names -/

/-- A field's warm-reset value fits it. -/
def Fld.warmFits (f : Fld) : Bool :=
  match f.warm with
  | .keep => true
  | .val v => decide (v < 2 ^ f.w)

/-- A register is found by its code. -/
theorem Reg.find_code (r : Reg) : Reg.all.find? (fun q => decide (q.code = r.code)) = some r := by
  cases r <;> rfl

/-- A field of a register is found by its lowest bit, and its warm-reset value fits it. -/
theorem Reg.find_lsb (r : Reg) : ∀ f ∈ r.fields, r.fields.find? (fun g => decide (g.lsb = f.lsb)) = some f ∧ f.warmFits = true := by
  cases r <;> decide

/-- A register stands in fewer than 65,536 places. -/
theorem Reg.count_le (r : Reg) : r.pos.count ≤ 65536 := by
  cases r <;> decide

/-- A key names its field's register. -/
theorem Fld.key_reg {f : Fld} {i : Nat} (hi : i < 65536) (hf : f.lsb < 1024) : f.key i / 67108864 = f.reg.code := by
  unfold Fld.key
  omega

/-- A key names its field's lowest bit. -/
theorem Fld.key_lsb {f : Fld} (i : Nat) (hf : f.lsb < 1024) : f.key i % 1024 = f.lsb := by
  unfold Fld.key
  omega

/-! ## The entries that a warm reset leaves (R667) -/

/-- An entry that stands after a warm reset stands under its own key. -/
theorem warmEntry_key {e d : Nat × Nat} (h : warmEntry e = some d) : d.1 = e.1 := by
  unfold warmEntry at h
  grind

section
variable {f : Fld} {i : Nat} (hm : f ∈ f.reg.fields) (hi : i < 65536)
include hm hi

/-- What becomes of an entry of a field's own turns on its Warm reset column. -/
theorem warmEntry_of_key (x : Nat) : warmEntry (f.key i, x) =
    match f.warm with | .keep => some (f.key i, x) | .val v => if v = f.up then none else some (f.key i, v) := by
  obtain ⟨-, low⟩ := Reg.fields_ok f.reg f hm
  simp only [warmEntry, Fld.key_reg hi low, Fld.key_lsb i low, Reg.find_code, (Reg.find_lsb f.reg f hm).1] <;> rfl

/-- The entries of a field that is kept read as before. -/
theorem tget_warmEntry_keep (hk : f.warm = .keep) (t : Table Nat) (d : Nat) :
    tget (t.filterMap warmEntry) (f.key i) d = tget t (f.key i) d := by
  induction t with
  | nil => rfl
  | cons e t ih =>
    obtain ⟨k, x⟩ := e
    by_cases own : k = f.key i
    · simp [own, warmEntry_of_key hm hi, hk, tget]
    · cases stands : warmEntry (k, x) with
      | none => simp [stands, tget, own, ih]
      | some d =>
        have : d.1 ≠ f.key i := (warmEntry_key stands).trans_ne own
        simp [stands, tget, own, ih, this]

/-- The entries of a field that takes its power-up value are gone. -/
theorem tget_warmEntry_up (hk : f.warm = .val f.up) (t : Table Nat) (d : Nat) : tget (t.filterMap warmEntry) (f.key i) d = d := by
  induction t with
  | nil => rfl
  | cons e t ih =>
    obtain ⟨k, x⟩ := e
    by_cases own : k = f.key i
    · simp [own, warmEntry_of_key hm hi, hk, ih]
    · cases stands : warmEntry (k, x) with
      | none => simp [stands, ih]
      | some d =>
        have : d.1 ≠ f.key i := (warmEntry_key stands).trans_ne own
        simp [stands, tget, ih, this]

end

/-! ## The fields that take another value -/

/-- One such field set in all its places. -/
def State.setAll (s : State) (e : Fld × Nat) : State := (List.range e.1.reg.pos.count).foldl (fun s i => s.fset e.1 i e.2) s

/-- The fields that take a value of their own are those whose Warm reset column names one that is not the Power-up value. -/
theorem mem_warmNew {e : Fld × Nat} : e ∈ warmNew ↔ e.1 ∈ e.1.reg.fields ∧ e.1.warm = .val e.2 ∧ e.2 ≠ e.1.up := by
  obtain ⟨f, v⟩ := e
  simp only [warmNew, List.mem_flatMap, List.mem_filterMap]
  constructor
  · rintro ⟨r, -, g, hg, h⟩
    obtain ⟨hr, -⟩ := Reg.fields_ok r g hg
    subst hr
    grind
  · rintro ⟨hm, hw, hu⟩
    exact ⟨f.reg, List.mem_of_find?_eq_some (Reg.find_code f.reg), f, hm, by simp [hw, hu]⟩

/-- A field is told from every other by its register and its lowest bit. -/
theorem Fld.eq_of_place {f g : Fld} (hf : f ∈ f.reg.fields) (hg : g ∈ g.reg.fields) (hr : g.reg = f.reg) (hl : g.lsb = f.lsb) :
    g = f := by
  have found := (Reg.find_lsb _ g hg).1
  rw [hr, hl, (Reg.find_lsb _ f hf).1] at found
  exact (Option.some.inj found).symm

section
variable {f : Fld} {i : Nat} (hm : f ∈ f.reg.fields) (hi : i < f.reg.pos.count)
include hm hi

/-- Setting another field everywhere leaves a field as it was. -/
theorem State.setAll_other {e : Fld × Nat} (he : e.1 ∈ e.1.reg.fields) (hn : e.1 ≠ f) (s : State) :
    (s.setAll e).fget f i = s.fget f i := by
  have small := Reg.count_le f.reg
  have few := Reg.count_le e.1.reg
  obtain ⟨-, hl⟩ := Reg.fields_ok _ _ hm
  obtain ⟨-, hk⟩ := Reg.fields_ok _ _ he
  refine State.fget_foldl_keep (fun u j hj => ?_) s
  have hj := List.mem_range.mp hj
  refine u.fget_fset_ne _ _ _ _ _ (Fld.key_ne f e.1 (by omega) (by omega) hl hk ?_)
  by_contra same
  push Not at same
  exact hn (Fld.eq_of_place hm he (Reg.code_inj same.1.symm) same.2.2.symm)

/-- Setting a field everywhere leaves its value in every place. -/
theorem State.setAll_own {v : Nat} (hv : v < 2 ^ f.w) (s : State) : (s.setAll (f, v)).fget f i = v := by
  have small := Reg.count_le f.reg
  obtain ⟨-, hl⟩ := Reg.fields_ok _ _ hm
  exact State.fget_foldl_range (v := fun _ => v) (fun u j => u.fget_fset_lt f j v hv) s hi
    fun u j hj ne => u.fget_fset_place v hl hl (Nat.lt_of_lt_of_le hj small) (by omega) ne

/-- A field that no entry of the list names reads as before. -/
theorem State.setAll_none {l : List (Fld × Nat)} (hl : ∀ e ∈ l, e.1 ∈ e.1.reg.fields ∧ e.1 ≠ f) (s : State) :
    (l.foldl State.setAll s).fget f i = s.fget f i := by
  induction l generalizing s with
  | nil => rfl
  | cons e l ih =>
    obtain ⟨he, hn⟩ := hl e (by simp)
    rw [List.foldl_cons, ih fun d hd => hl d (by simp [hd]), State.setAll_other hm hi he hn]

/-- A field that the list names, always with one value, takes it. -/
theorem State.setAll_some {v : Nat} (hv : v < 2 ^ f.w) {l : List (Fld × Nat)}
    (hl : ∀ e ∈ l, e.1 ∈ e.1.reg.fields ∧ (e.1 = f → e.2 = v)) (s : State) (h : (f, v) ∈ l ∨ s.fget f i = v) :
    (l.foldl State.setAll s).fget f i = v := by
  induction l generalizing s with
  | nil => simpa using h
  | cons e l ih =>
    obtain ⟨he, hn⟩ := hl e (by simp)
    refine ih (fun d hd => hl d (by simp [hd])) _ ?_
    by_cases own : e.1 = f
    · have : e = (f, v) := Prod.ext own (hn own)
      exact .inr (this ▸ State.setAll_own hm hi hv s)
    · rw [State.setAll_other hm hi he own]
      refine h.imp_left fun m => (List.mem_cons.mp m).resolve_left fun eq => own (by rw [← eq])

end

/-- Settles O56: a kept field keeps its entries, one that takes its power-up value loses them, and any other is set. -/
theorem warmResetColumn : Obligations.WarmResetColumn := by
  intro s r f i hm hi
  obtain ⟨rfl, low⟩ := Reg.fields_ok r f hm
  have small : i < 65536 := Nat.lt_of_lt_of_le hi (Reg.count_le f.reg)
  have sets : s.warmRegs = warmNew.foldl State.setAll { s with regs := s.regs.filterMap warmEntry } := rfl
  rw [sets]
  cases hw : f.warm with
  | keep =>
    rw [State.setAll_none hm hi fun e he => ⟨(mem_warmNew.mp he).1, fun own => by
      have := (mem_warmNew.mp he).2.1
      rw [own, hw] at this
      cases this⟩]
    exact tget_warmEntry_keep hm small hw s.regs f.up
  | val v =>
    by_cases up : v = f.up
    · subst up
      rw [State.setAll_none hm hi fun e he => ⟨(mem_warmNew.mp he).1, fun own => by
        obtain ⟨-, val, ne⟩ := mem_warmNew.mp he
        rw [own, hw] at val
        exact ne (own ▸ (Warm.val.inj val).symm)⟩]
      exact tget_warmEntry_up hm small hw s.regs f.up
    · have fits : v < 2 ^ f.w := by
        have := (Reg.find_lsb _ f hm).2
        simpa [Fld.warmFits, hw] using this
      refine State.setAll_some hm hi fits (fun e he => ⟨(mem_warmNew.mp he).1, fun own => ?_⟩) _
        (.inl (mem_warmNew.mpr ⟨hm, hw, up⟩))
      have := (mem_warmNew.mp he).2.1
      rw [own, hw] at this
      exact (Warm.val.inj this).symm

end Sys2Proof.Machine
end

section
/-! Power caps: ECAP and what sets it, the policy, the heartbeat, the floor and the thermal cap (R686 to R693, R701, R702). -/
set_option autoImplicit false
namespace Sys2Proof.Machine

/-! ## Registers that a sequence of updates leaves alone -/

section
variable {s t : State} {rs : List Reg}

/-- An update of anything but the registers leaves as many registers alone. -/
theorem State.sameRegsBut.regs (h : s.sameRegsBut t rs) {u : State} (same : u.regs = t.regs) : s.sameRegsBut u rs :=
  State.sameRegsBut_trans h (State.sameRegsBut_of_regs rs same)

/-- So does a logged event where the log's registers are among those written. -/
theorem State.sameRegsBut.log (h : s.sameRegsBut t rs) (e : Evt) (hr : [.ELOG, .SPARE_ELOG_PTR] ⊆ rs) : s.sameRegsBut (t.log e) rs :=
  State.sameRegsBut_trans h (State.sameRegsBut_mono (t.sameRegsBut_log e) fun _ m => hr m)

/-- Of two states that leave as many registers alone either does. -/
theorem State.sameRegsBut.ite {c : Prop} [Decidable c] {u : State} (h : s.sameRegsBut t rs) (k : s.sameRegsBut u rs) :
    s.sameRegsBut (if c then t else u) rs := by
  split
  · exact h
  · exact k

end

/-! ## The lowest limit (R686) -/

/-- The lowest cap of a list is one of the list, and no cap of it is lower. -/
theorem lowestCap_spec (a : Nat × Nat) (l : List (Nat × Nat)) :
    lowestCap (a :: l) ∈ a :: l ∧ ∀ x ∈ a :: l, (lowestCap (a :: l)).1 ≤ x.1 := by
  induction l generalizing a with
  | nil => simp [lowestCap]
  | cons b l ih =>
    obtain ⟨mem, low⟩ := ih (if b.1 < a.1 then b else a)
    have step : lowestCap (a :: b :: l) = lowestCap ((if b.1 < a.1 then b else a) :: l) := rfl
    rw [step]
    by_cases lower : b.1 < a.1
    · rw [if_pos lower] at mem low ⊢
      refine ⟨List.mem_cons_of_mem _ mem, fun x hx => (List.mem_cons.mp hx).elim (fun eq => ?_) (low x)⟩
      have := low b List.mem_cons_self
      subst eq
      omega
    · rw [if_neg lower] at mem low ⊢
      have first := low a List.mem_cons_self
      refine ⟨by grind, fun x hx => ?_⟩
      rcases List.mem_cons.mp hx with rfl | hx
      · exact first
      · rcases List.mem_cons.mp hx with rfl | hx
        · omega
        · exact low x (List.mem_cons_of_mem _ hx)

/-! ## What a change of ECAP writes -/

/-- What the heater loops spend, and whether the floor is out of their reach (R721, R722). -/
def State.lehrPut (s : State) : State :=
  (s.fset PWR_PSTATE.LEHR_W 0 (if s.held then 0 else min s.lehrAsk (s.fget PWR_STATUS.ECAP 0))).fput PWR_PSTATE.LEHR_SHORT 0
    (s.lehrOn && decide (180 < s.pwr.lehrWant))

/-- A floor newly out of reach is logged. -/
theorem State.lehr_eq (s : State) : s.lehr = if s.lehrOn && decide (180 < s.pwr.lehrWant) && !s.pwr.lehrLogged then
    { s.lehrPut with pwr := { s.pwr with lehrLogged := true } }.logC 0x040B else s.lehrPut := rfl

/-- The heater loops write `PWR_PSTATE` and the error log. -/
theorem State.sameRegsBut_lehr (s : State) : s.sameRegsBut s.lehr [.PWR_PSTATE, .ELOG, .SPARE_ELOG_PTR] := by
  have spent : s.sameRegsBut s.lehrPut [.PWR_PSTATE, .ELOG, .SPARE_ELOG_PTR] :=
    (s.sameRegsBut_fset (by decide) (by decide) (by decide)).fset (by decide) (by decide) (by decide)
  rw [State.lehr_eq]
  refine .ite ?_ spent
  refine State.sameRegsBut.log ?_ _ (by decide)
  refine spent.regs ?_
  rfl

/-- Setting a die's step changes the power state alone. -/
theorem State.setVs_eq (s : State) (d v : Nat) : ∃ p, s.setVs d v = { s with pwr := p } := by
  unfold State.setVs
  split
  · exact ⟨s.pwr, rfl⟩
  · exact ⟨_, rfl⟩

/-- Following the policy writes no register. -/
@[simp] theorem State.followPolicy_regs (s : State) : s.followPolicy.regs = s.regs := by
  unfold State.followPolicy
  split
  · rfl
  · refine List.foldlRecOn _ _ (motive := fun t : State => t.regs = s.regs) rfl fun t same d _ => ?_
    obtain ⟨p, eq⟩ := t.setVs_eq d (t.fget PWR_POLICY.VS_MAX 0)
    exact (congrArg State.regs eq).trans same

/-- ECAP and `BIND` as they are set. -/
def State.capPut (s : State) : State := (s.fset PWR_STATUS.ECAP 0 s.capNow.1).fset PWR_STATUS.BIND 0 s.capNow.2

/-- Outside a hold, what follows the setting of ECAP and `BIND` leaves both. -/
theorem State.sameRegsBut_recap {s : State} (free : s.held = false) :
    s.capPut.sameRegsBut s.recap [.PWR_PSTATE, .PWR_OVER, .ELOG, .SPARE_ELOG_PTR] := by
  have heat : s.capPut.sameRegsBut s.capPut.lehr [.PWR_PSTATE, .PWR_OVER, .ELOG, .SPARE_ELOG_PTR] :=
    State.sameRegsBut_mono (State.sameRegsBut_lehr _) (by decide)
  have falls := (heat.fset (f := PWR_OVER.OVER_MJ) (i := 0) (v := 0) (by decide) (by decide) (by decide)).fset
    (f := PWR_OVER.SETTLE) (i := 0) (v := 0) (by decide) (by decide) (by decide)
  have rises := heat.regs (State.followPolicy_regs { s.capPut.lehr with pwr := { s.capPut.lehr.pwr with capStep := [15, 15, 15, 15] } })
  have moved := State.sameRegsBut.ite (c := s.capNow.1 < s.fget PWR_STATUS.ECAP 0)
    (falls.regs (u := State.capGate { (s.capPut.lehr.fset PWR_OVER.OVER_MJ 0 0).fset PWR_OVER.SETTLE 0 0 with
      pwr := { s.capPut.lehr.pwr with overUj := 0, settling := true } }) rfl)
    (State.sameRegsBut.ite (c := s.fget PWR_STATUS.ECAP 0 < s.capNow.1) rises heat)
  rw [State.recap, if_neg (by simp [free])]
  exact .ite (moved.log _ (by decide)) moved

/-- Outside a hold ECAP takes its value and `BIND` its code. -/
theorem State.fget_recap {s : State} (free : s.held = false) :
    s.recap.fget PWR_STATUS.ECAP 0 = s.capNow.1 % 65536 ∧ s.recap.fget PWR_STATUS.BIND 0 = s.capNow.2 % 8 := by
  have after := State.sameRegsBut_recap free
  rw [after.fget PWR_STATUS.ECAP (by decide) (by decide) (by decide), after.fget PWR_STATUS.BIND (by decide) (by decide) (by decide)]
  refine ⟨?_, State.fget_fset_same ..⟩
  rw [State.capPut, State.fget_fset_ne _ _ _ _ _ _ (by decide), State.fget_fset_same]
  rfl

/-- What sets ECAP is `FLOOR` or one of the limits, none of which is lower. -/
theorem State.capNow_cases (s : State) : ∃ c ∈ s.capList, (∀ x ∈ s.capList, c.1 ≤ x.1) ∧
    s.capNow = if c.1 < s.fget PWR_EVT.FLOOR 0 then (s.fget PWR_EVT.FLOOR 0, 5) else c := by
  obtain ⟨mem, low⟩ := lowestCap_spec (4000, 0) ([(s.fget PWR_RACK.RCAP 0, 1), (s.fget PWR_POLICY.CAP 0, 2)] ++
    (if s.fon PWR_RACK.AUTO 0 then [(min s.pwr.rcapLoss (s.fget PWR_POLICY.SAFE_CAP 0), 3)] else []) ++ [(s.fget PWR_THERM.TCAP 0, 4)])
  exact ⟨_, mem, low, rfl⟩

/-- The limits, each under its code; the autonomous cap stands among them while `AUTO` is 1. -/
theorem State.mem_capList {s : State} {c : Nat × Nat} : c ∈ s.capList ↔ c = (4000, 0) ∨ c = (s.fget PWR_RACK.RCAP 0, 1) ∨
    c = (s.fget PWR_POLICY.CAP 0, 2) ∨ c = (s.fget PWR_THERM.TCAP 0, 4) ∨
    (s.fon PWR_RACK.AUTO 0 = true ∧ c = (min s.pwr.rcapLoss (s.fget PWR_POLICY.SAFE_CAP 0), 3)) := by
  unfold State.capList
  split
  · simp_all
    tauto
  · simp_all

/-- Settles O10: ECAP is the value of an entry of the limits that none undercuts, or `FLOOR`, and the entry carries its own code. -/
theorem ecapValue : Obligations.EcapValue := by
  intro s free m lowest fits
  obtain ⟨c, mem, low, now⟩ := s.capNow_cases
  obtain ⟨ecap, bind⟩ := State.fget_recap free
  have least : c.1 = m := by
    have class_ := low _ (State.mem_capList.mpr (.inl rfl))
    have rack := low _ (State.mem_capList.mpr (.inr (.inl rfl)))
    have policy := low _ (State.mem_capList.mpr (.inr (.inr (.inl rfl))))
    have heat := low _ (State.mem_capList.mpr (.inr (.inr (.inr (.inl rfl)))))
    have autonomous (auto) := low _ (State.mem_capList.mpr (.inr (.inr (.inr (.inr ⟨auto, rfl⟩)))))
    rw [State.mem_capList] at mem
    by_cases auto : s.fon PWR_RACK.AUTO 0 = true
    · have own := autonomous auto
      rw [if_pos auto] at lowest
      rcases mem with rfl | rfl | rfl | rfl | ⟨-, rfl⟩ <;> omega
    · rw [if_neg auto] at lowest
      rcases mem with rfl | rfl | rfl | rfl | ⟨on, -⟩
      case inr.inr.inr.inr => exact absurd on auto
      all_goals omega
  have class_ := low _ (State.mem_capList.mpr (.inl rfl))
  rw [ecap, bind, now]
  by_cases floor : c.1 < s.fget PWR_EVT.FLOOR 0
  · rw [if_pos floor]
    omega
  · rw [if_neg floor]
    rcases State.mem_capList.mp mem with rfl | rfl | rfl | rfl | ⟨auto, rfl⟩
    case inr.inr.inr.inr =>
      simp only [auto, true_and]
      omega
    all_goals omega

/-! ## The rows that recompute ECAP (R686 to R693, R701, R702) -/

/-- A policy in range takes effect. -/
theorem exec_pwrPolicyWrite_taken {s : State} {w : Who} {v : Nat} (reach : s.reaches w = true) (free : s.barred w .PWR_POLICY 0 v = .none)
    (acts : s.isStatus .PWR_POLICY 0 v = false) (good : policyBad v = false) : exec (.pwrPolicyWrite w v) s =
      .next (((s.clrW1C .PWR_POLICY 0 v).putRW .PWR_POLICY 0 v).recap.followPolicy) := by
  have row : exec (.pwrPolicyWrite w v) s = .next (pwrPolicyWriteStep w v s) := rfl
  rw [row, pwrPolicyWriteStep, reach, State.when_true, State.regWrite_taken free acts good]

/-- An armed heartbeat missed for 2 s sets `AUTO` and keeps the rack's cap. -/
theorem exec_heartbeatLoss_late {s : State} (on : s.pwr.on = true) (armed : s.fon PWR_RACK.HB_ARMED 0 = true)
    (auto : s.fon PWR_RACK.AUTO 0 = false) (late : s.pwr.hbT + 2000000000 ≤ s.time.now) : exec .heartbeatLoss s = .next
      (({ s.fset PWR_RACK.AUTO 0 1 with pwr := { s.pwr with rcapLoss := s.fget PWR_RACK.RCAP 0 } }.log { code := 0x0408 }).recap) :=
  congrArg _ (if_pos (by simp [on, armed, auto, late]))

/-- A measured floor takes effect. -/
theorem exec_floorRecompute_up {s : State} (f : Nat) (up : s.up = true) :
    exec (.floorRecompute f) s = .next (s.fset PWR_EVT.FLOOR 0 f).recap :=
  congrArg _ (if_pos up)

section
variable {s : State}

/-- Below 500 W `THETA` stands. -/
theorem State.thetaUpdate_low (low : s.fget PWR_STATUS.PIN 0 < 500) : s.thetaUpdate = s := if_neg fun h => by omega

/-- With the inlet at the target or above the thermal cap is 0. -/
theorem State.tcapUpdate_hot (hot : s.fget PWR_POLICY.TTARGET 0 ≤ s.inlet) : s.tcapUpdate = s.fset PWR_THERM.TCAP 0 0 := if_pos hot

/-- A quotient that is whole is what it is. -/
theorem State.divEither_whole (s : State) {n d : Nat} (whole : n % d = 0) : s.divEither n d = (((n / d : Nat) : Int), s) := by
  have : (n : Int) % d = 0 := by rw [← Int.natCast_mod, whole]; rfl
  simp [State.divEither, this]

/-- A natural number that fits a field stands in it. -/
theorem State.fit_nat (s : State) {w n : Nat} (fits : n < 2 ^ w) : s.fit w n = (n, s) :=
  if_pos ⟨Int.natCast_nonneg n, Int.ofNat_lt.mpr fits⟩

/-- Below it the thermal cap is the quotient, where that is whole and fits. -/
theorem State.tcapUpdate_whole (cool : s.inlet < s.fget PWR_POLICY.TTARGET 0) (real : s.fget PWR_THERM.THETA 0 ≠ 0)
    (whole : ((s.fget PWR_POLICY.TTARGET 0 - s.inlet) * 100000) % s.fget PWR_THERM.THETA 0 = 0)
    (fits : ((s.fget PWR_POLICY.TTARGET 0 - s.inlet) * 100000) / s.fget PWR_THERM.THETA 0 < 65536) : s.tcapUpdate =
      s.fset PWR_THERM.TCAP 0 ((s.fget PWR_POLICY.TTARGET 0 - s.inlet) * 100000 / s.fget PWR_THERM.THETA 0) := by
  have narrow : (s.fget PWR_POLICY.TTARGET 0 - s.inlet) * 100000 / s.fget PWR_THERM.THETA 0 < 2 ^ 16 := by simpa using fits
  rw [State.tcapUpdate, if_neg (by omega), if_neg real]
  simp only [State.divEither_whole _ whole, State.fit_nat _ narrow]

/-- While the module is up, a thermal update below 500 W moves the thermal cap and then ECAP. -/
theorem exec_thermalUpdate_low (up : s.up = true) (low : s.fget PWR_STATUS.PIN 0 < 500) :
    exec .thermalUpdate s = .next s.tcapUpdate.recap := by
  have row : exec .thermalUpdate s = .next (s.when s.up fun s => s.thetaUpdate.tcapUpdate.recap) := rfl
  rw [row, up, State.when_true, State.thetaUpdate_low low]

end

/-- Settles O9: each row by its own rule, the thermal one by the two cases of the inlet. -/
theorem powerCaps : Obligations.PowerCaps := by
  refine ⟨?policy, ?heartbeat, ?floor, ?cool, ?hot⟩
  case policy => exact fun s w v => exec_pwrPolicyWrite_taken
  case heartbeat => exact fun s => exec_heartbeatLoss_late
  case floor => exact fun s f => exec_floorRecompute_up f
  case cool =>
    intro s up low cool real whole fits
    rw [exec_thermalUpdate_low up low, State.tcapUpdate_whole cool real whole fits]
  case hot =>
    intro s up low hot
    rw [exec_thermalUpdate_low up low, State.tcapUpdate_hot hot]

end Sys2Proof.Machine
end

section
/-! Power input: samples, brown-out hold and shutdown (R674 to R678, R695, R697). -/
set_option autoImplicit false
namespace Sys2Proof.Machine

/-! ## Shutdown (R677 to R679, R845) -/

/-- A shutdown leaves the module as at reset but for the clock, the pins, the fuses, a last gasp where a receiver is set, and what went out. -/
theorem State.shutdown_eq (s : State) (cause : Nat) : s.shutdown cause =
    { State.reset with
      time := { State.reset.time with now := s.time.now, run := s.time.run, thaw := s.time.thaw }
      pwr := { State.reset.pwr with
        en := s.pwr.en, offT := some s.time.now
        gasp := if s.mgmt.receiver.isSome then some (s.time.now, s.gaspBytes cause) else none }
      fuse := s.fuse, freeCtr := s.freeCtr, pending := s.pending
      out := s.out ++ [.note 0 0, .note 1 0, .note 6 0] ++ (List.range 11).map (.note 2) } := by
  rw [State.shutdown, State.dark_eq]
  rfl

/-! ## A sample of the input (R672 to R678, R695, R697) -/

section
variable {s : State} {v p bank : Nat}

/-- The meters move registers and the sums of the averages, and nothing else. -/
theorem State.vinMeters_eq (s : State) (v p : Nat) : ∃ g uj sp sv n, s.vinMeters v p =
    { s with regs := g, pwr := { s.pwr with uj := uj, sumP := sp, sumV := sv, nSum := n } } := by
  unfold State.vinMeters
  dsimp only
  split <;> exact ⟨_, _, _, _, _, rfl⟩

/-- The meters write energy, power and voltage alone. -/
theorem State.fget_vinMeters (s : State) (v p : Nat) {f : Fld} {i : Nat} (energy : f.key i ≠ PWR_ENERGY.ENERGY.key 0)
    (power : f.key i ≠ PWR_STATUS.PIN.key 0) (voltage : f.key i ≠ PWR_STATUS.VIN.key 0) :
    (s.vinMeters v p).fget f i = s.fget f i := by
  unfold State.vinMeters
  dsimp only
  split
  · exact s.fget_fset_ne _ _ _ _ _ energy
  · exact ((State.fget_fset_ne _ _ _ _ _ _ voltage).trans (State.fget_fset_ne _ _ _ _ _ _ power)).trans (s.fget_fset_ne _ _ _ _ _ energy)

/-- A sample from 33.5 V to 40.0 V ends every count but that of good samples. -/
theorem State.vinCounts_inRange (low : 3350 ≤ v) (high : v ≤ 4000) : s.vinCounts v =
    { s with pwr := { s.pwr with nLow := 0, nCrit := 0, nHigh := 0, nOk := s.pwr.nOk + 1, vHigh := false } } := by
  simp [State.vinCounts, low, Nat.not_lt.mpr high, show ¬ v < 3300 by omega, show ¬ v < 2900 by omega, show ¬ 4100 < v by omega]

/-- Within an averaging period a sample adds its energy and its share of the averages. -/
theorem State.vinMeters_within (s : State) (v p : Nat) (within : s.pwr.nSum + 1 < 10000) : s.vinMeters v p =
    { s.fset PWR_ENERGY.ENERGY 0 (s.fget PWR_ENERGY.ENERGY 0 + (s.pwr.uj + p) / 1000) with
      pwr := { s.pwr with uj := (s.pwr.uj + p) % 1000, sumP := s.pwr.sumP + p, sumV := s.pwr.sumV + v, nSum := s.pwr.nSum + 1 } } :=
  if_pos within

/-- Without thresholds no sensor is judged. -/
theorem State.senseAll_none (none : s.mgmt.thresholds = []) : s.senseAll = s := by
  rw [State.senseAll, none]
  rfl

/-- Where no fall of ECAP is recorded a sample adds nothing to the record. -/
theorem State.vinSettle_settled (settled : s.pwr.settling = false) (p : Nat) : s.vinSettle p = s :=
  if_neg (Bool.eq_false_iff.mp settled)

/-- A sample as it is counted and metered. -/
def State.sampled (s : State) (v p : Nat) : State := (s.vinCounts v).vinMeters v p

/-- A sample leaves the management controller, the outputs and the engines alone. -/
theorem State.sampled_rest (s : State) (v p : Nat) : (s.sampled v p).time = s.time ∧ (s.sampled v p).cfe = s.cfe ∧
    (s.sampled v p).fab = s.fab ∧ (s.sampled v p).fuse = s.fuse ∧ (s.sampled v p).mgmt = s.mgmt ∧ (s.sampled v p).out = s.out := by
  obtain ⟨g, uj, sp, sv, n, eq⟩ := (s.vinCounts v).vinMeters_eq v p
  rw [State.sampled, eq]
  exact ⟨rfl, rfl, rfl, rfl, rfl, rfl⟩

/-- What a sample leaves of the counts, and of what it does not touch. -/
theorem State.sampled_pwr (s : State) (v p : Nat) : (s.sampled v p).pwr.on = s.pwr.on ∧ (s.sampled v p).pwr.trip = s.pwr.trip ∧
    (s.sampled v p).pwr.settling = s.pwr.settling ∧ (s.sampled v p).pwr.lowest = (s.vinCounts v).pwr.lowest ∧
    (s.sampled v p).pwr.nLow = (s.vinCounts v).pwr.nLow ∧ (s.sampled v p).pwr.nCrit = (s.vinCounts v).pwr.nCrit ∧
    (s.sampled v p).pwr.nHigh = (s.vinCounts v).pwr.nHigh := by
  obtain ⟨g, uj, sp, sv, n, eq⟩ := (s.vinCounts v).vinMeters_eq v p
  rw [State.sampled, eq]
  exact ⟨rfl, rfl, rfl, rfl, rfl, rfl, rfl⟩

/-- A sample writes energy, power and voltage alone. -/
theorem State.fget_sampled (s : State) (v p : Nat) {f : Fld} {i : Nat} (energy : f.key i ≠ PWR_ENERGY.ENERGY.key 0)
    (power : f.key i ≠ PWR_STATUS.PIN.key 0) (voltage : f.key i ≠ PWR_STATUS.VIN.key 0) :
    (s.sampled v p).fget f i = s.fget f i :=
  (s.vinCounts v).fget_vinMeters v p energy power voltage

section
variable (on : s.pwr.on = true) (settled : s.pwr.settling = false) (none : s.mgmt.thresholds = [])
include settled none

/-- Where no fall of ECAP is recorded and no sensor has thresholds, a sample is judged as it is counted and metered. -/
theorem State.sampled_quiet : (((s.vinCounts v).vinMeters v p).vinSettle p).senseAll = s.sampled v p := by
  change ((s.sampled v p).vinSettle p).senseAll = s.sampled v p
  obtain ⟨-, -, stands, -⟩ := s.sampled_pwr v p
  obtain ⟨-, -, -, -, mgmt, -⟩ := s.sampled_rest v p
  rw [State.vinSettle_settled (stands.trans settled), State.senseAll_none ((congrArg MgmtSt.thresholds mgmt).trans none)]

include on

/-- A sample with a cause then shuts the module down. -/
theorem exec_vinSample_shutdown {c : Nat} (cause : (s.sampled v p).vinCause v bank = some c) :
    exec (.vinSample v p bank) s = .next ((s.sampled v p).shutdown c) := by
  have row : exec (.vinSample v p bank) s = .next (vinSampleStep v p bank s) := rfl
  rw [row, vinSampleStep, on, State.when_true]
  simp only [State.sampled_quiet settled none, cause]

/-- One without a cause, of at most 40.0 V and outside a hold, begins a hold or is only metered. -/
theorem exec_vinSample_metered (low : v ≤ 4000) (cause : (s.sampled v p).vinCause v bank = Option.none)
    (out : s.fon PWR_STATUS.HOLD 0 = false) : exec (.vinSample v p bank) s =
      .next (if 2 ≤ (s.sampled v p).pwr.nLow ∧ (s.sampled v p).up = true then (s.sampled v p).enterHold else s.sampled v p) := by
  have row : exec (.vinSample v p bank) s = .next (vinSampleStep v p bank s) := rfl
  have high : ¬ (4000 < v ∧ v ≤ 4100 ∧ (s.sampled v p).pwr.vHigh = false) := fun h => by omega
  have outside : (s.sampled v p).fon PWR_STATUS.HOLD 0 = false := by
    rw [State.fon, s.fget_sampled v p (by decide) (by decide) (by decide)]
    exact out
  rw [row, vinSampleStep, on, State.when_true]
  simp only [State.sampled_quiet settled none, cause, if_neg high, outside, Bool.false_eq_true, if_false]

end

/-- No cause holds at 29.0 V to 41.0 V with the bank at 34.0 V. -/
theorem State.vinCause_none (low : 2900 ≤ v) (high : v ≤ 4100) (full : 3400 ≤ bank) : (s.sampled v p).vinCause v bank = none := by
  obtain ⟨-, -, -, -, -, crit, surge⟩ := s.sampled_pwr v p
  have crit : (s.sampled v p).pwr.nCrit = 0 := crit.trans (if_neg (by omega))
  have surge : (s.sampled v p).pwr.nHigh = 0 := surge.trans (if_neg (by omega))
  simp [State.vinCause, crit, surge, Nat.not_lt.mpr full]

/-- The second sample in a row below 29.0 V is a collapse. -/
theorem State.vinCause_collapse (low : v < 2900) (second : s.pwr.nCrit = 1) : (s.sampled v p).vinCause v bank = some 1 := by
  obtain ⟨-, -, -, -, -, crit, -⟩ := s.sampled_pwr v p
  have crit : (s.sampled v p).pwr.nCrit = s.pwr.nCrit + 1 := crit.trans (if_pos low)
  exact if_pos (by omega)

end

/-! ## Brown-out hold (R674, R675) -/

/-- A hold as it begins: gated, counted, with no power for the heaters, and timed. -/
theorem State.enterHold_shows (s : State) : s.enterHold.fget PWR_STATUS.HOLD 0 = 1 ∧
    s.enterHold.fget PWR_EVT.HOLDS 0 = min (s.fget PWR_EVT.HOLDS 0 + 1) 255 ∧ s.enterHold.fget PWR_PSTATE.LEHR_W 0 = 0 := by
  have count : satAdd PWR_EVT.HOLDS.w (s.fget PWR_EVT.HOLDS 0) 1 = min (s.fget PWR_EVT.HOLDS 0 + 1) 255 := rfl
  have fits : min (s.fget PWR_EVT.HOLDS 0 + 1) 255 < 2 ^ PWR_EVT.HOLDS.w := by
    change min (s.fget PWR_EVT.HOLDS 0 + 1) 255 < 256
    omega
  simp (disch := decide) [State.enterHold, State.fsat, State.tget_regs, State.fget_fset_ne, count]
  exact Nat.mod_eq_of_lt fits

/-- A hold of 5 ms shuts the module down. -/
theorem exec_holdTimeout_late {s : State} (on : s.pwr.on = true) (held : s.fon PWR_STATUS.HOLD 0 = true)
    (late : s.pwr.holdT + 5000000 ≤ s.time.now) : exec .holdTimeout s =
      .next ({ s with pwr := { s.pwr with holdUs := (s.time.now - s.pwr.holdT) / 1000 } }.shutdown 2) :=
  congrArg _ (if_pos (by simp [on, held, late]))

/-- Settles O7: a sample by its cause, or by the count of low samples where it has none; a hold of 5 ms by the shutdown. -/
theorem powerInput : Obligations.PowerInput := by
  refine ⟨?inRange, ?brownOut, ?collapse, ?holdTimeout⟩
  case inRange =>
    intro s v p bank on low high full out settled none within
    rw [exec_vinSample_metered on settled none high (State.vinCause_none (by omega) (by omega) full) out, if_neg]
    · rw [State.sampled, State.vinCounts_inRange low high]
      exact congrArg _ (State.vinMeters_within _ v p (Nat.succ_lt_succ within))
    · obtain ⟨-, -, -, -, nLow, -⟩ := s.sampled_pwr v p
      have : (s.vinCounts v).pwr.nLow = 0 := if_neg (by omega)
      omega
  case brownOut =>
    intro s v p bank up low high full out first settled none
    obtain ⟨on, trip, -, lowest, nLow, -⟩ := s.sampled_pwr v p
    obtain ⟨time, cfe, fab, -, -, sent⟩ := s.sampled_rest v p
    have second : (s.sampled v p).pwr.nLow = 2 := by
      rw [nLow]
      exact (if_pos high).trans (by rw [first])
    have runs : (s.sampled v p).up = true := by
      rw [State.up, on, trip, s.fget_sampled v p (by decide) (by decide) (by decide)]
      exact up
    have powered : s.pwr.on = true := by
      simp only [State.up, Bool.and_eq_true] at up
      exact up.1.1
    have minimum : (s.vinCounts v).pwr.lowest = min s.pwr.lowest v :=
      (if_pos high).trans (if_neg (by omega))
    refine ⟨(s.sampled v p).enterHold, ?_, ?_⟩
    · rw [exec_vinSample_metered powered settled none (by omega) (State.vinCause_none low (by omega) full) out, if_pos ⟨by omega, runs⟩]
    · obtain ⟨hold, holds, heat⟩ := (s.sampled v p).enterHold_shows
      rw [s.fget_sampled v p (by decide) (by decide) (by decide)] at holds
      refine ⟨?_, hold, holds, heat, congrArg TimeSt.now time, lowest.trans minimum, sent, cfe, fab⟩
      simp [State.held, State.fon, hold]
  case collapse =>
    intro s v p bank on low second settled none silent
    refine ⟨_, exec_vinSample_shutdown on settled none (State.vinCause_collapse low second), ?_⟩
    obtain ⟨time, -, -, fuse, -, sent⟩ := s.sampled_rest v p
    rw [State.shutdown_eq, time, fuse, sent]
    exact ⟨rfl, rfl, rfl, rfl, rfl, rfl, rfl, rfl, rfl⟩
  case holdTimeout =>
    intro s on held late
    refine ⟨_, exec_holdTimeout_late on held late, ?_⟩
    rw [State.shutdown_eq]
    refine ⟨rfl, rfl, rfl, rfl, ?_⟩
    dsimp only
    split <;> simp_all

end Sys2Proof.Machine
end

section
/-! Rails: limits, fenced phases, faults, and the counters that a read clears (R681 to R685, R697). -/
set_option autoImplicit false
namespace Sys2Proof.Machine

/-- A row that names a rail of the module is that row's next state. -/
theorem need_rail {r : Nat} {t u : State} (hr : r < 11) (h : t = u) : need (wfRail r) t = .next u := by
  rw [h]
  exact if_pos (decide_eq_true hr)

section
variable {s : State} {r : Nat}

/-! ## Limits and faults (R681, R682, R684) -/

/-- A limiter that acts for the first time is counted and logged. -/
theorem railLimitStep_first (on : s.pwr.on = true) (core : r < 9) (first : tget s.pwr.limT r 0 = 0) : railLimitStep r s =
    { s.fset PWR_RAIL.LIMHIT r (min (s.fget PWR_RAIL.LIMHIT r + 1) 1023) with
      pwr := { s.pwr with limT := tset s.pwr.limT r (s.time.now + 1) 0 } }.log { code := 0x0409 } := by
  rw [railLimitStep, on, State.when_true, if_neg (by omega)]
  exact if_pos (.inl first)

/-- On VAUX and VAON a limit is a rail fault. -/
theorem railLimitStep_supply (on : s.pwr.on = true) (supply : 9 ≤ r) : railLimitStep r s = s.shutdown 5 := by
  rw [railLimitStep, on, State.when_true, if_pos supply]

/-- A rail fault shuts the module down. -/
theorem railFaultStep_on (on : s.pwr.on = true) : railFaultStep s = s.shutdown 5 := if_pos on

/-! ## Phases (R683, R684) -/

/-- A phase's unit number. -/
theorem phaseUnit_eq (r ph : Nat) : phaseUnit r ph = r + 16 * ph := by
  rw [phaseUnit, Nat.shiftLeft_eq, Nat.mul_comm]

/-- A phase of the rail that is not fenced yet is logged, recorded and taken out. -/
theorem phaseFencedStep_new {ph : Nat} (on : s.pwr.on = true) (named : ph < phasesAll r) (new : s.inCullet 6 (r + 16 * ph) = false) :
    phaseFencedStep r ph s =
      ((s.log { code := 0x040A, kind := 6, unit := r + 16 * ph }).recordFence 6 2 (r + 16 * ph)).phaseOut r := by
  simp only [phaseFencedStep, phaseUnit_eq, on, named, new, decide_true, Bool.not_false, Bool.and_self, State.when_true,
    State.fencePhase]

/-- A rail has fewer than 32 phases. -/
theorem phasesAll_lt (r : Nat) : phasesAll r < 32 := by
  unfold phasesAll phasesNeeded
  split <;> decide

/-- A phase taken out of more than one: one less, and the rail derated when that is below the needed count. -/
theorem State.phaseOut_more (more : 1 < s.fget PWR_RAIL.PH_IN r) : s.phaseOut r =
    if s.fget PWR_RAIL.PH_IN r - 1 < phasesNeeded r then
      (s.fset PWR_RAIL.PH_IN r (s.fget PWR_RAIL.PH_IN r - 1)).fset PWR_RAIL.DERATED r 1
    else s.fset PWR_RAIL.PH_IN r (s.fget PWR_RAIL.PH_IN r - 1) :=
  if_neg (by omega)

/-- What taking out a phase of more than one shows. -/
theorem State.phaseOut_shows (more : 1 < s.fget PWR_RAIL.PH_IN r) (all : s.fget PWR_RAIL.PH_IN r ≤ phasesAll r) :
    (s.phaseOut r).fget PWR_RAIL.PH_IN r = s.fget PWR_RAIL.PH_IN r - 1 ∧
    ((s.phaseOut r).fget PWR_RAIL.DERATED r = 1 ↔
      s.fget PWR_RAIL.DERATED r = 1 ∨ s.fget PWR_RAIL.PH_IN r ≤ phasesNeeded r) ∧ (s.phaseOut r).pwr = s.pwr := by
  have few := phasesAll_lt r
  have fits : s.fget PWR_RAIL.PH_IN r - 1 < 2 ^ PWR_RAIL.PH_IN.w := by
    change _ < 32
    omega
  have apart (u : State) (v : Nat) : (u.fset PWR_RAIL.DERATED r v).fget PWR_RAIL.PH_IN r = u.fget PWR_RAIL.PH_IN r :=
    u.fget_fset_beside r v (by decide) (by decide) (by decide)
  have apart' (u : State) (v : Nat) : (u.fset PWR_RAIL.PH_IN r v).fget PWR_RAIL.DERATED r = u.fget PWR_RAIL.DERATED r :=
    u.fget_fset_beside r v (by decide) (by decide) (by decide)
  rw [State.phaseOut_more more]
  split
  · refine ⟨(apart ..).trans (s.fget_fset_lt _ _ _ fits), ?_, rfl⟩
    rw [State.fget_fset_same]
    exact ⟨fun _ => .inr (by omega), fun _ => rfl⟩
  · refine ⟨s.fget_fset_lt _ _ _ fits, ?_, rfl⟩
    rw [apart']
    omega

/-! ## Counters that a read clears (R685, R697) -/

/-- A read of `PWR_RAIL` that is not NS software's shows the register whole and clears `LIMHIT`. -/
theorem pwrRailReadStep_whole {w : Who} (reach : s.reaches w = true) (whole : w ≠ .ns) (vout iout : Nat) :
    pwrRailReadStep w r vout iout s =
      { (s.fset PWR_RAIL.VOUT r vout).fset PWR_RAIL.IOUT r iout with
        out := s.out ++ [Out.read (((s.fset PWR_RAIL.VOUT r vout).fset PWR_RAIL.IOUT r iout).regWord .PWR_RAIL r)] }.fset
          PWR_RAIL.LIMHIT r 0 := by
  rw [pwrRailReadStep, reach, State.when_true]
  dsimp only
  rw [if_neg fun h => whole h.1]
  rfl

/-- Such a requester sees a register as it stands. -/
theorem State.viewOf_whole {w : Who} (whole : w ≠ .ns) (r : Reg) (i : Nat) : s.viewOf w r i = s.liveWord r i := by
  cases w
  case ns => exact absurd rfl whole
  all_goals rfl

/-- A read of `PWR_EVT` that is not NS software's shows the register whole and clears `CLIP` and `HINT_IGN`. -/
theorem exec_pwrEvtRead_whole {w : Who} (reach : s.reaches w = true) (whole : w ≠ .ns) : exec (.pwrEvtRead w) s = .next
    (({ s.fset PWR_EVT.SINCE 0 s.sinceHold with
        out := s.out ++ [Out.read ((s.fset PWR_EVT.SINCE 0 s.sinceHold).liveWord .PWR_EVT 0)] }.fset PWR_EVT.CLIP 0 0).fset
          PWR_EVT.HINT_IGN 0 0) := by
  have row : exec (.pwrEvtRead w) s = .next (pwrEvtReadStep w s) := rfl
  rw [row, pwrEvtReadStep, reach, State.when_true]
  dsimp only
  rw [State.viewOf_whole whole]
  rfl

end

/-- Settles O8: each row by its own rule, on a rail of the module. -/
theorem powerRails : Obligations.PowerRails := by
  refine ⟨?limit, ?supply, ?fenced, ?out, ?fault, ?readRail, ?readEvt⟩
  case limit => exact fun s r core on first => need_rail (by omega) (railLimitStep_first on core first)
  case supply => exact fun s r supply hr on => need_rail hr (railLimitStep_supply on supply)
  case fenced => exact fun s r ph hr on named new => need_rail hr (phaseFencedStep_new on named new)
  case out => exact fun s r _ => State.phaseOut_shows
  case fault => exact fun s r hr on => need_rail hr (railFaultStep_on on)
  case readRail => exact fun s w r vout iout hr reach whole => need_rail hr (pwrRailReadStep_whole reach whole vout iout)
  case readEvt => exact fun s w => exec_pwrEvtRead_whole

end Sys2Proof.Machine
end

section
/-! Temperature and voltage: the throttle, sensors, a trip, the choice of steps and load hints (R703, R706 to R708, R712 to R715). -/
set_option autoImplicit false
namespace Sys2Proof.Machine

/-- A row that names a compute die is that row's next state. -/
theorem need_die {d : Nat} {t u : State} (hd : d < 4) (h : t = u) : need (wfDie d) t = .next u := by
  rw [h]
  exact if_pos (decide_eq_true hd)

/-! ## The throttle (R703) -/

section
variable {s : State} {d : Nat} {x : Int}

/-- At its throttle temperature or above, a die below its gating temperatures is one step lower. -/
theorem throttleStep_lowers (on : s.pwr.on = true) (hottest : s.hottest (dieSpots d) = some x) (hot : s.throttleAt ≤ x)
    (open_ : x < 103) : throttleStep d s = { s with pwr := { s.pwr with
      vs := s.pwr.vs.set d (max s.vsFloor (s.pwr.vs.getD d 0 - 1)), lowering := s.pwr.lowering.set d true,
      gated := s.pwr.gated.set d false } } := by
  simp [throttleStep, on, hottest, hot, show ¬ 105 ≤ x by omega, show ¬ 103 ≤ x by omega]

/-- More than 2 K below it the throttle stops lowering. -/
theorem throttleStep_stops (on : s.pwr.on = true) (hottest : s.hottest (dieSpots d) = some x) (cool : x < s.throttleAt - 2)
    (open_ : x < 103) : throttleStep d s = { s with pwr := { s.pwr with
      lowering := s.pwr.lowering.set d false, gated := s.pwr.gated.set d false } } := by
  simp [throttleStep, on, hottest, show ¬ s.throttleAt ≤ x by omega, show ¬ s.throttleAt ≤ x + 2 by omega, show ¬ 105 ≤ x by omega,
    show ¬ 103 ≤ x by omega]

end

/-! ## Tables that list a key whatever its value -/

section
variable {α : Type} (t : Table α) {j k : Nat} (v : α)

/-- A removed key aside, a table lists what it did. -/
theorem tfind_tdel_ne (h : j ≠ k) : tfind (tdel t k) j = tfind t j := by
  induction t with
  | nil => rfl
  | cons e r ih =>
    obtain ⟨i, w⟩ := e
    by_cases same : i = k
    · subst same
      simp [tdel, tfind, ih, h.symm]
    · simp [tdel, tfind, ih, same]

/-- An entry put in its place aside, a table lists what it did. -/
theorem tfind_tins_ne (h : j ≠ k) : tfind (tins t k v) j = tfind t j := by
  induction t with
  | nil => simp [tins, tfind, h.symm]
  | cons e r ih =>
    obtain ⟨i, w⟩ := e
    unfold tins
    split
    · simp [tfind, h.symm]
    · simp [tfind, ih]

/-- An entry put in its place where its key was not listed is found. -/
theorem tfind_tins_same (h : ∀ e ∈ t, e.1 ≠ k) : tfind (tins t k v) k = some v := by
  induction t with
  | nil => simp [tins, tfind]
  | cons e r ih =>
    obtain ⟨i, w⟩ := e
    have other : i ≠ k := h (i, w) List.mem_cons_self
    unfold tins
    split
    · simp [tfind]
    · simp [tfind, other, ih fun e he => h e (List.mem_cons_of_mem _ he)]

/-- A key just put is found with its value. -/
theorem tfind_tput_same (k : Nat) : tfind (tput t k v) k = some v := tfind_tins_same _ v (tdel_keys t k)

/-- Every other key is found as before. -/
theorem tfind_tput_ne (h : j ≠ k) : tfind (tput t k v) j = tfind t j := (tfind_tins_ne _ v h).trans (tfind_tdel_ne t h)

end

/-! ## Sensors (R706, R707, R710) -/

/-- The first sample in range of a sensor is admitted. -/
theorem sensorTake_first (now : Nat) {x : Int} (low : -10 ≤ x) (high : x ≤ 150) :
    sensorTake now none x false = (⟨x, now, false, now⟩, false) := by
  simp [sensorTake, Int.not_lt.mpr low, Int.not_lt.mpr high]

/-- The two sensors of hot spot `h` as they have just read `x`. -/
def State.sensed (s : State) (h : Nat) (x : Int) : State :=
  { s with pwr := { s.pwr with
      sensors := tput (tput s.pwr.sensors (2 * h) ⟨x, s.time.now, false, s.time.now⟩) (2 * h + 1) ⟨x, s.time.now, false, s.time.now⟩
      disT := tset s.pwr.disT h 0 0 } }

section
variable {s : State} {h : Nat} {x : Int}

/-- The first samples of a pair, in range and alike, are taken. -/
theorem sensorSampleStep_first (on : s.pwr.on = true) (low : -10 ≤ x) (high : x ≤ 150) (newA : tfind s.pwr.sensors (2 * h) = none)
    (newB : tfind s.pwr.sensors (2 * h + 1) = none) : sensorSampleStep h x x false false s = (s.sensed h x).setTj := by
  rw [sensorSampleStep, on, State.when_true, newA, newB, sensorTake_first _ low high]
  simp [State.disagree, State.sensed]

/-- Both sensors stand with the reading. -/
theorem State.sensed_shows (s : State) (h : Nat) (x : Int) :
    tfind (s.sensed h x).pwr.sensors (2 * h) = some ⟨x, s.time.now, false, s.time.now⟩ ∧
    tfind (s.sensed h x).pwr.sensors (2 * h + 1) = some ⟨x, s.time.now, false, s.time.now⟩ :=
  ⟨(tfind_tput_ne _ _ (by omega)).trans (tfind_tput_same ..), tfind_tput_same ..⟩

/-- The junction temperature is shown in `PWR_THERM`, with a free value where it does not fit. -/
theorem State.setTj_parts (s : State) : s.setTj.pwr = s.pwr ∧ s.setTj.out = s.out ∧ s.sameRegsBut s.setTj [.PWR_THERM] := by
  have fitted (w : Nat) (v : Int) : (s.fit w v).2 = s ∨ (s.fit w v).2 = s.drew := by
    unfold State.fit
    split
    · exact .inl rfl
    · exact .inr rfl
  have regs (u : State) (hu : u = s ∨ u = s.drew) : u.pwr = s.pwr ∧ u.out = s.out ∧ u.regs = s.regs := by
    rcases hu with rfl | rfl <;> exact ⟨rfl, rfl, rfl⟩
  unfold State.setTj
  split
  next t _ =>
    obtain ⟨pwr, out, same⟩ := regs _ (fitted 8 t)
    exact ⟨pwr, out, (State.sameRegsBut_of_regs _ same).fset (by decide) (by decide) (by decide)⟩
  next => exact ⟨rfl, rfl, s.sameRegsBut_refl _⟩

/-- A pair of admitted sensors reads as the higher of the two. -/
theorem State.hotSpot_pair {a b : Sensor} (hA : tfind s.pwr.sensors (2 * h) = some a) (hB : tfind s.pwr.sensors (2 * h + 1) = some b)
    (goodA : a.bad = false) (goodB : b.bad = false) : s.hotSpot h = some (max a.last b.last) := by
  simp [State.hotSpot, hA, hB, goodA, goodB]

end

/-! ## What a trip leaves standing (R609, R610, R708) -/

/-- A trigger changes `SPARE_DUMP` and the capture being taken, and nothing else. -/
theorem State.trigger_parts (s : State) (trig : Nat) (sites : List Nat) (smear : Bool) (graph : List Byte) :
    (∃ g m, s.trigger trig sites smear graph = { s with regs := g, mem := m }) ∧
    s.sameRegsBut (s.trigger trig sites smear graph) [.SPARE_DUMP] := by
  have dropped : s.sameRegsBut (s.fsat SPARE_DUMP.DROPPED 0 1) [.SPARE_DUMP] :=
    s.sameRegsBut_fset (by decide) (by decide) (by decide)
  unfold State.trigger
  split
  · split
    · exact ⟨⟨_, _, rfl⟩, dropped⟩
    · exact ⟨⟨_, _, rfl⟩, (State.sameRegsBut_of_regs _ rfl).fset (by decide) (by decide) (by decide)⟩
  · exact ⟨⟨_, _, rfl⟩, dropped⟩

/-- Nothing that went out is taken back by a notice, an event or a logged entry. -/
theorem State.out_log (s : State) (e : Evt) {o : Out} (sent : o ∈ s.out) : o ∈ (s.log e).out := by
  have msix (u : State) (v : Nat) (h : o ∈ u.out) : o ∈ (u.msix v).out := by
    unfold State.msix
    split
    · exact h
    · exact List.mem_append_left _ h
  have notice (u : State) (h : o ∈ u.out) : o ∈ u.elogNotice.out := by
    unfold State.elogNotice
    split
    · split
      · split
        · exact h
        · exact msix u 0 h
      · exact msix u 0 h
    · exact h
  have event (u : State) (b : List Byte) (h : o ∈ u.out) : o ∈ (u.pldmEvent 3 b).out := by
    unfold State.pldmEvent State.mgPut
    split
    · exact h
    · dsimp only
      split
      · exact List.mem_append_left _ h
      · exact h
  have written (n i : Nat) : o ∈ ((s.elogWrite n i e).fset SPARE_ELOG_PTR.WCOUNT 0 (i + 1)).out := by simpa using sent
  unfold State.log
  dsimp only
  split
  · exact sent
  · split
    · exact event _ _ (notice _ (written _ _))
    · exact notice _ (written _ _)

/-- The stacks' step into or out of self-refresh, each on its own bits. -/
def State.refreshOne (b : Bool) (s : State) (k : Nat) : State :=
  if s.fon MEM_STK_STATUS.TRAINED k && !s.fon MEM_STK_STATUS.FENCED k then s.fput MEM_STK_STATUS.SREF k b else s

/-- A step of one stack changes its `SREF` bit alone. -/
theorem State.refreshOne_parts (b : Bool) (s : State) (k : Nat) : (∃ g, s.refreshOne b k = { s with regs := g }) ∧
    (∀ (f : Fld) (i : Nat), f.key i ≠ MEM_STK_STATUS.SREF.key k → (s.refreshOne b k).fget f i = s.fget f i) := by
  unfold State.refreshOne
  split
  · exact ⟨⟨_, rfl⟩, fun f i h => s.fget_fset_ne _ _ _ _ _ h⟩
  · exact ⟨⟨_, rfl⟩, fun f i _ => rfl⟩

/-- Self-refresh, entered or left, reaches every trained stack that is not fenced. -/
theorem State.selfRefresh_shows (s : State) (b : Bool) {k : Nat} (hk : k < 12) (trained : s.fon MEM_STK_STATUS.TRAINED k = true)
    (intact : s.fon MEM_STK_STATUS.FENCED k = false) : (s.selfRefresh b).fget MEM_STK_STATUS.SREF k = b2n b := by
  have steps (n : Nat) (hn : n ≤ 12) : let u := (List.range n).foldl (State.refreshOne b) s
      (k < n → u.fget MEM_STK_STATUS.SREF k = b2n b) ∧ u.fget MEM_STK_STATUS.TRAINED k = s.fget MEM_STK_STATUS.TRAINED k ∧
      u.fget MEM_STK_STATUS.FENCED k = s.fget MEM_STK_STATUS.FENCED k := by
    induction n with
    | zero => exact ⟨fun h => absurd h (Nat.not_lt_zero k), rfl, rfl⟩
    | succ n ih =>
      obtain ⟨before, trainedYet, intactYet⟩ := ih (by omega)
      rw [List.range_succ, List.foldl_append, List.foldl_cons, List.foldl_nil]
      generalize (List.range n).foldl (State.refreshOne b) s = u at before trainedYet intactYet
      obtain ⟨-, other⟩ := u.refreshOne_parts b n
      have apart (f : Fld) (j : Nat) (hj : j < 65536) (hf : f.lsb < 1024)
          (h : f.reg.code ≠ MEM_STK_STATUS.SREF.reg.code ∨ j ≠ n ∨ f.lsb ≠ MEM_STK_STATUS.SREF.lsb) :
          (u.refreshOne b n).fget f j = u.fget f j := other f j (Fld.key_ne f _ hj (by omega) hf (by decide) h)
      refine ⟨fun h => ?_, ?_, ?_⟩
      · by_cases own : k = n
        · subst own
          have set : u.refreshOne b k = u.fput MEM_STK_STATUS.SREF k b :=
            if_pos (by
              simp only [State.fon, trainedYet, intactYet] at trained intact ⊢
              simp [trained, intact])
          rw [set, State.fget_fput_same]
          cases b <;> rfl
        · rw [apart _ k (by omega) (by decide) (.inr (.inl own))]
          exact before (by omega)
      · exact (apart _ k (by omega) (by decide) (.inr (.inr (by decide)))).trans trainedYet
      · exact (apart _ k (by omega) (by decide) (.inr (.inr (by decide)))).trans intactYet
  exact (steps 12 (Nat.le_refl 12)).1 hk

/-- Self-refresh changes registers alone. -/
theorem State.selfRefresh_eq (s : State) (b : Bool) : ∃ g, s.selfRefresh b = { s with regs := g } :=
  foldl_regs (fun t k => (t.refreshOne_parts b k).1) _ s

/-- The rates of dark dies change `TIME_RATE` alone. -/
theorem State.ratesOff_parts (s : State) : (∃ g, s.ratesOff = { s with regs := g }) ∧ s.sameRegsBut s.ratesOff [.TIME_RATE] :=
  ⟨foldl_regs (fun _ _ => ⟨_, rfl⟩) _ s,
    State.sameRegsBut_foldl (fun t d hd => t.sameRegsBut_fset (by unfold rateFld; split <;> decide) (by decide)
      (by unfold rateFld; split <;> decide)) s⟩

/-! ## A trip (R708, R822) -/

/-- The module as a comparator of hot spot `h` trips it: gated, its rails and lasers off, its stacks in self-refresh. -/
def State.tripDark (s : State) (h : Nat) : State :=
  let hub := decide (64 ≤ h)
  let off := [0, 1, 2, 3, 4, 6] ++ (if hub then [5] else [])
  let s := { s with
    pwr := { s.pwr with trip := max s.pwr.trip (if hub then 2 else 1), tripped := true }
    boot := { s.boot with tripSince := true }
    obs := { s.obs with smear := true } }
  (off.foldl (fun s r => s.note 2 r) (s.selfRefresh true).ratesOff).note 0 0

section
variable {s : State} {h : Nat}

/-- A trip is logged, and takes an emergency capture where that is armed. -/
theorem thermTripStep_trips (on : s.pwr.on = true) (awake : s.fget PWR_PSTATE.STATE 0 ≠ 4) : thermTripStep h s =
    if !decide (64 ≤ h) && ((s.tripDark h).log { code := 0x0406, data := h }).fon OBS_FREEZE.ESTOP_CAP 0 then
      ((s.tripDark h).log { code := 0x0406, data := h }).trigger 4 [] true []
    else (s.tripDark h).log { code := 0x0406, data := h } := by
  rw [thermTripStep, on, decide_eq_true awake]
  rfl

/-- What the dark module shows. -/
theorem State.tripDark_shows (s : State) (h : Nat) : (s.tripDark h).pwr.trip = max s.pwr.trip (if 64 ≤ h then 2 else 1) ∧
    (s.tripDark h).boot.tripSince = true ∧ Out.note 0 0 ∈ (s.tripDark h).out ∧
    (∀ r ∈ [0, 1, 2, 3, 4, 6], Out.note 2 r ∈ (s.tripDark h).out) ∧ (64 ≤ h → Out.note 2 5 ∈ (s.tripDark h).out) := by
  unfold State.tripDark
  dsimp only
  rw [State.foldl_note]
  generalize ho : ([0, 1, 2, 3, 4, 6] ++ if decide (64 ≤ h) = true then [5] else [] : List Nat) = off
  obtain ⟨⟨g, rates⟩, -⟩ := State.ratesOff_parts (State.selfRefresh { s with
    pwr := { s.pwr with trip := max s.pwr.trip (if decide (64 ≤ h) = true then 2 else 1), tripped := true }
    boot := { s.boot with tripSince := true }
    obs := { s.obs with smear := true } } true)
  obtain ⟨g', refresh⟩ := State.selfRefresh_eq { s with
    pwr := { s.pwr with trip := max s.pwr.trip (if decide (64 ≤ h) = true then 2 else 1), tripped := true }
    boot := { s.boot with tripSince := true }
    obs := { s.obs with smear := true } } true
  rw [rates, refresh]
  subst ho
  refine ⟨by simp, rfl, by simp [State.note], fun r hr => ?_, fun hub => by simp [State.note, hub]⟩
  simp only [State.note, State.emit_out, List.mem_append, List.mem_map]
  exact .inl (.inr ⟨r, .inl hr, rfl⟩)

/-- Its trained stacks are in self-refresh. -/
theorem State.tripDark_sref (s : State) (h : Nat) {k : Nat} (hk : k < 12) (trained : s.fon MEM_STK_STATUS.TRAINED k = true)
    (intact : s.fon MEM_STK_STATUS.FENCED k = false) : (s.tripDark h).fget MEM_STK_STATUS.SREF k = 1 := by
  unfold State.tripDark
  dsimp only
  rw [State.foldl_note, State.fget_note, State.fget_mk, State.tget_regs]
  rw [(State.ratesOff_parts _).2.fget _ (by decide) (by decide) (by omega)]
  exact State.selfRefresh_shows _ true hk trained intact

/-- A trip leaves what the dark module shows. -/
theorem gives_thermTrip (hh : h < 72) (on : s.pwr.on = true) (awake : s.fget PWR_PSTATE.STATE 0 ≠ 4) :
    Gives (.thermTrip h) s fun t => t.pwr = (s.tripDark h).pwr ∧ t.boot = (s.tripDark h).boot ∧
      (∀ o ∈ (s.tripDark h).out, o ∈ t.out) ∧ (s.tripDark h).sameRegsBut t [.ELOG, .SPARE_ELOG_PTR, .SPARE_DUMP] := by
  have row : exec (.thermTrip h) s = .next (thermTripStep h s) := if_pos (decide_eq_true hh)
  have logged := State.sameRegsBut_mono (qs := [.ELOG, .SPARE_ELOG_PTR, .SPARE_DUMP])
    ((s.tripDark h).sameRegsBut_log { code := 0x0406, data := h }) (by decide)
  refine ⟨_, row, ?_⟩
  rw [thermTripStep_trips on awake]
  split
  · obtain ⟨⟨g, m, eq⟩, regs⟩ := State.trigger_parts ((s.tripDark h).log { code := 0x0406, data := h }) 4 [] true []
    refine ⟨?_, ?_, fun o sent => ?_, State.sameRegsBut_trans logged (State.sameRegsBut_mono regs (by decide))⟩
    · rw [eq]
      exact State.log_pwr ..
    · rw [eq]
      exact State.log_boot ..
    · rw [eq]
      exact State.out_log _ _ sent
  · exact ⟨State.log_pwr .., State.log_boot .., fun o => State.out_log _ _, logged⟩

end

/-! ## The choice of voltage steps (R712 to R715) -/

/-- The dies at the given steps. -/
def State.withVs (s : State) (l : List Nat) : State := { s with pwr := { s.pwr with vs := l } }

/-- Steps of the dies stand in no register. -/
@[simp] theorem State.fget_withVs (s : State) (l : List Nat) (f : Fld) (i : Nat) : (s.withVs l).fget f i = s.fget f i := rfl

section
variable {s : State} {d v : Nat}

/-- Without Lehr its floor asks for nothing. -/
theorem State.lehrAsk_off (cold : s.fon PWR_PSTATE.LEHR_EN 0 = false) : s.lehrAsk = 0 := by
  simp [State.lehrAsk, State.lehrOn, cold]

/-- Outside safe mode the policy's step is taken as it is. -/
theorem State.policyStep_plain (plain : s.fon GCTL_BOOT_STAT.SAFE_MODE 0 = false) : s.policyStep v = v :=
  if_neg (Bool.eq_false_iff.mp plain)

/-- A die that its throttle does not lower takes the policy's step, clipped to the one the cap leaves it. -/
theorem State.setVs_free (free : s.pwr.lowering.getD d false = false) :
    s.setVs d v = s.withVs (s.pwr.vs.set d (min (s.pwr.capStep.getD d 15) (s.policyStep v))) :=
  if_neg (Bool.eq_false_iff.mp free)

end

/-! ## Load hints (R715) -/

/-- The policy's step follows the written one. -/
theorem State.policyStep_mono (s : State) {u v : Nat} (h : u ≤ v) : s.policyStep u ≤ s.policyStep v := by
  unfold State.policyStep
  split <;> omega

/-- The policy takes its own step as it is. -/
theorem State.policyStep_idem (s : State) (v : Nat) : s.policyStep (s.policyStep v) = s.policyStep v := by
  unfold State.policyStep
  split <;> omega

/-- Counting down from `hi` to `lo`, the first that passes is `hi` where that passes. -/
theorem find_highest {lo hi : Nat} (range : lo ≤ hi) {p : Nat → Bool} (passes : p hi = true) :
    ((List.range (hi + 1 - lo)).map (hi - ·)).find? p = some hi := by
  rw [Nat.succ_sub range, List.range_succ_eq_map, List.map_cons]
  exact List.find?_cons_of_pos passes

section
variable {s : State} {d v : Nat}

/-- A step given back to a die and set. -/
theorem State.setVs_capLift (hd : d < s.pwr.capStep.length) (free : s.pwr.lowering.getD d false = false) (own : s.policyStep v = v) :
    (s.capLift d v).setVs d v = { s with pwr := { s.pwr with
      vs := s.pwr.vs.set d v, capStep := s.pwr.capStep.set d (max v (s.pwr.capStep.getD d 15)) } } := by
  have lifted : (s.capLift d v).pwr.capStep.getD d 15 = max v (s.pwr.capStep.getD d 15) := by
    simp [State.capLift, hd]
  have same : (s.capLift d v).policyStep v = v := own
  rw [State.setVs_free (s := s.capLift d v) free, lifted, same, Nat.min_eq_right (Nat.le_max_left ..)]
  rfl

/-- A hint taken off the list. -/
def State.hintSpent (s : State) (k : Nat) : State := { s with core := { s.core with hints := s.core.hints.eraseIdx k } }

/-- A level that predicts no more than the die's share of power raises the die to the policy's highest step, and the hint is spent. -/
theorem loadHintStep_fits {k other hint due : Nat} {pred : List Nat} (live : s.live = true)
    (here : s.core.hints[k]? = some (d, hint, due)) (late : hintDue hint due ≤ s.time.now) (en : s.fon PWR_POLICY.HINT_EN 0 = true)
    (range : s.fget PWR_POLICY.VS_MIN 0 ≤ s.fget PWR_POLICY.VS_MAX 0) (top : s.policyStep (s.fget PWR_POLICY.VS_MAX 0) = v)
    (fits : hint % 16 * pred.getD v 0 ≤ 16 * ((s.fget PWR_STATUS.ECAP 0 - other) / 4)) (rises : s.pwr.vs.getD d 0 < v) :
    loadHintStep k other pred s = ((s.hintSpent k).capLift d v).setVs d v := by
  have own : s.policyStep v = v := by rw [← top, State.policyStep_idem]
  have low : s.policyStep (s.fget PWR_POLICY.VS_MIN 0) ≤ v := by
    rw [← top]
    exact s.policyStep_mono range
  have found := find_highest low (p := fun v => decide (hintPower hint (pred.getD v 0) ≤ 16 * ((s.fget PWR_STATUS.ECAP 0 - other) / 4)))
    (decide_eq_true fits)
  have step (x : Nat) : (s.hintSpent k).policyStep x = s.policyStep x := rfl
  have taken (f : Fld) : (s.hintSpent k).fget f 0 = s.fget f 0 := rfl
  have enabled : (s.hintSpent k).fon PWR_POLICY.HINT_EN 0 = true := en
  rw [loadHintStep, here]
  simp only [live, decide_eq_true late, Bool.and_self, if_true]
  simp only [← State.hintSpent.eq_1, enabled, if_true, taken, step, top, found]
  exact if_pos (by rw [own]; exact rises)

end

/-! ## Every die at `VS_MAX` (R714) -/

/-- The choice of one die's step. -/
def State.adaptOne (e : List (List Nat)) (lo hi : Nat) (s : State) (d : Nat) : State :=
  s.setVs d (if s.fon PWR_POLICY.ADAPT 0 then bestStep (e.getD d []) (s.policyStep lo) (s.policyStep hi) else hi)

/-- Four steps set one by one. -/
theorem set_four {l : List Nat} (four : l.length = 4) (v : Nat) : (List.range 4).foldl (fun l d => l.set d v) l = List.replicate 4 v := by
  match l, four with
  | [_, _, _, _], _ => rfl

section
variable {s : State} (e : List (List Nat)) (lo : Nat) {hi : Nat} (fixed : s.fon PWR_POLICY.ADAPT 0 = false)
  (plain : s.fon GCTL_BOOT_STAT.SAFE_MODE 0 = false) (below : hi < 15) (cap : s.pwr.capStep = [15, 15, 15, 15])
  (free : s.pwr.lowering = [false, false, false, false])
include fixed plain below cap free

/-- Without `ADAPT` a die runs at `VS_MAX`. -/
theorem State.adaptOne_fixed (l : List Nat) {d : Nat} (hd : d < 4) : (s.withVs l).adaptOne e lo hi d = s.withVs (l.set d hi) := by
  have lower : (s.withVs l).pwr.lowering.getD d false = false := by
    change s.pwr.lowering.getD d false = false
    rw [free]
    interval_cases d <;> rfl
  have clip : (s.withVs l).pwr.capStep.getD d 15 = 15 := by
    change s.pwr.capStep.getD d 15 = 15
    rw [cap]
    interval_cases d <;> rfl
  have same : (s.withVs l).fon PWR_POLICY.ADAPT 0 = false := fixed
  have step : (s.withVs l).policyStep hi = hi := State.policyStep_plain plain
  rw [State.adaptOne, same, if_neg Bool.false_ne_true, State.setVs_free lower, step, clip, Nat.min_eq_right (Nat.le_of_lt below)]
  rfl

/-- So do all of them. -/
theorem State.foldl_adaptOne (l : List Nat) {ds : List Nat} (hds : ∀ d ∈ ds, d < 4) :
    ds.foldl (State.adaptOne e lo hi) (s.withVs l) = s.withVs (ds.foldl (fun l d => l.set d hi) l) := by
  induction ds generalizing l with
  | nil => rfl
  | cons d ds ih =>
    rw [List.foldl_cons, State.adaptOne_fixed e lo fixed plain below cap free l (hds d List.mem_cons_self), List.foldl_cons,
      ih _ fun d hd => hds d (List.mem_cons_of_mem _ hd)]

end

/-- Every 10 ms each die takes its step, and the dies held below the policy are counted. -/
theorem adaptChoiceStep_up {s : State} (e : List (List Nat)) (up : s.up = true) : adaptChoiceStep e s =
    (fun t : State => t.fsat PWR_EVT.CLIP 0 (if decide (t.fget PWR_PSTATE.LEHR_W 0 < t.lehrAsk) ||
        decide (s.fget PWR_POLICY.VS_MAX 0 < t.vsFloor) then 4
      else (t.pwr.vs.filter (fun v => decide (v < s.fget PWR_POLICY.VS_MIN 0))).length))
      ((List.range 4).foldl (State.adaptOne e (s.fget PWR_POLICY.VS_MIN 0) (s.fget PWR_POLICY.VS_MAX 0)) s) := by
  rw [adaptChoiceStep, up, State.when_true]
  rfl

/-- With neither `ADAPT` nor a clip, a choice of steps sets every die to `VS_MAX` and counts nothing. -/
theorem exec_adaptChoice_fixed {s : State} (e : List (List Nat)) (up : s.up = true) (fixed : s.fon PWR_POLICY.ADAPT 0 = false)
    (plain : s.fon GCTL_BOOT_STAT.SAFE_MODE 0 = false) (range : s.fget PWR_POLICY.VS_MIN 0 ≤ s.fget PWR_POLICY.VS_MAX 0)
    (below : s.fget PWR_POLICY.VS_MAX 0 < 15) (cold : s.fon PWR_PSTATE.LEHR_EN 0 = false) (cap : s.pwr.capStep = [15, 15, 15, 15])
    (free : s.pwr.lowering = [false, false, false, false]) (four : s.pwr.vs.length = 4) (fits : s.fget PWR_EVT.CLIP 0 < 65536) :
    exec (.adaptChoice e) s = .next { s.fset PWR_EVT.CLIP 0 (s.fget PWR_EVT.CLIP 0) with
      pwr := { s.pwr with vs := List.replicate 4 (s.fget PWR_POLICY.VS_MAX 0) } } := by
  have row : exec (.adaptChoice e) s = .next (adaptChoiceStep e s) := rfl
  have all : (List.range 4).foldl (State.adaptOne e (s.fget PWR_POLICY.VS_MIN 0) (s.fget PWR_POLICY.VS_MAX 0)) s =
      s.withVs (List.replicate 4 (s.fget PWR_POLICY.VS_MAX 0)) := by
    rw [← set_four four]
    exact State.foldl_adaptOne e _ fixed plain below cap free s.pwr.vs fun d => List.mem_range.mp
  have noFloor : (s.withVs (List.replicate 4 (s.fget PWR_POLICY.VS_MAX 0))).vsFloor = 0 := if_neg (Bool.eq_false_iff.mp plain)
  have noAsk : (s.withVs (List.replicate 4 (s.fget PWR_POLICY.VS_MAX 0))).lehrAsk = 0 := State.lehrAsk_off cold
  have none : (List.replicate 4 (s.fget PWR_POLICY.VS_MAX 0)).filter (fun v => decide (v < s.fget PWR_POLICY.VS_MIN 0)) = [] := by
    simp [Nat.not_lt.mpr range]
  have count : satAdd PWR_EVT.CLIP.w (s.fget PWR_EVT.CLIP 0) 0 = s.fget PWR_EVT.CLIP 0 := by
    change min (s.fget PWR_EVT.CLIP 0 + 0) 65535 = _
    omega
  rw [row, adaptChoiceStep_up e up, all]
  simp only [noAsk, noFloor, Nat.not_lt_zero, decide_false, Bool.or_self, Bool.false_eq_true, if_false]
  change Host.Outcome.next (State.fsat _ _ _ ((List.replicate 4 (s.fget PWR_POLICY.VS_MAX 0)).filter _).length) = _
  rw [none, State.fsat, State.fget_withVs, List.length_nil, count]
  rfl

/-- Settles O11: the throttle, the sensors and the trip by what they leave, and the two choices of steps by the policy's own step. -/
theorem powerThermal : Obligations.PowerThermal := by
  refine ⟨?lowers, ?stops, ?sample, ?trip, ?choice, ?hint⟩
  case lowers => exact fun s d x hd on hottest hot open_ => need_die hd (throttleStep_lowers on hottest hot open_)
  case stops => exact fun s d x hd on hottest cool open_ => need_die hd (throttleStep_stops on hottest cool open_)
  case sample =>
    intro s h x hh on low high newA newB
    obtain ⟨pwr, out, regs⟩ := (s.sensed h x).setTj_parts
    obtain ⟨a, b⟩ := s.sensed_shows h x
    rw [← pwr] at a b
    refine ⟨(s.sensed h x).setTj, ?_, a, b, State.sameRegsBut_trans (State.sameRegsBut_of_regs _ rfl) regs, out, ?_⟩
    · rw [← sensorSampleStep_first on low high newA newB]
      exact if_pos (decide_eq_true hh)
    · rw [State.hotSpot_pair a b rfl rfl, max_self]
  case trip =>
    intro s h hh on awake
    obtain ⟨t, run, pwr, boot, sent, regs⟩ := gives_thermTrip hh on awake
    obtain ⟨trip, since, lasers, rails, hub⟩ := s.tripDark_shows h
    refine ⟨t, run, ?_, by rw [pwr, trip], by rw [boot, since], sent _ lasers, fun r hr => sent _ (rails r hr),
      fun h64 => sent _ (hub h64), fun k hk trained intact => ?_⟩
    · have tripped : t.pwr.trip ≠ 0 := by
        rw [pwr, trip]
        split <;> omega
      simp [State.up, tripped]
    · rw [regs.fget _ (by decide) (by decide) (by omega), s.tripDark_sref h hk trained intact]
  case choice => exact fun s e => exec_adaptChoice_fixed e
  case hint =>
    intro s k other d hint due pred hd live here late en range free four v fits rises
    refine (congrArg _ (loadHintStep_fits live here late en range rfl fits rises)).trans ?_
    exact congrArg _ (State.setVs_capLift (s := s.hintSpent k) (four ▸ hd) free (s.policyStep_idem _))

end Sys2Proof.Machine
end

section
/-! Coolant readings and power states: stale readings, frames, flow hold, idle entry, wake and PS4 (R700, R704, R716 to R719, R835, R836). -/
set_option autoImplicit false
namespace Sys2Proof.Machine

/-! ## Coolant frames (R700, R704, R835, R836) -/

/-- Without a reading for a second the temperatures read 255, and the loss is logged. -/
theorem exec_coolStale_never {s : State} (on : s.pwr.on = true) (fresh : s.pwr.stale = false) (never : s.pwr.cool = none)
    (late : s.pwr.onT + 1000000000 ≤ s.time.now) : exec .coolStale s = .next
      ({ (s.fset PWR_THERM.TIN 0 255).fset PWR_THERM.TOUT 0 255 with pwr := { s.pwr with stale := true, coolOk := none } }.log
        { code := 0x040C }) :=
  congrArg _ (if_pos (by simp [on, fresh, never, late]))

/-- The reading that a frame carries. -/
def State.frameReading (s : State) (b : List Byte) : Coolant := ⟨sext 16 (leAt b 2 2), sext 16 (leAt b 4 2), leAt b 6 2, s.time.now⟩

/-- The frame is noted as the last one accepted. -/
def State.frameTaken (s : State) (b : List Byte) (c : Coolant) : State :=
  { s with pwr := { s.pwr with traySeq := some (leAt b 0 2), cool := some c, stale := false } }

/-- A frame noted shows in the power state and in no register. -/
theorem State.frameTaken_shows (s : State) (b : List Byte) (c : Coolant) : (s.frameTaken b c).pwr.traySeq = some (leAt b 0 2) ∧
    (s.frameTaken b c).pwr.stale = false ∧ (s.frameTaken b c).out = s.out ∧ (s.frameTaken b c).regs = s.regs ∧
    ∀ f i, (s.frameTaken b c).fget f i = s.fget f i := ⟨rfl, rfl, rfl, rfl, fun _ _ => rfl⟩

section
variable {s : State} {b : List Byte}

/-- An accepted frame moves flow hold and the coolant registers. -/
theorem exec_trayFrame_accepted (up : s.i3cUp = true) (ok : s.frameOk b = true) : exec (.trayFrame b) s =
    .next (((s.flowHold (s.frameReading b)).putCoolant (s.frameReading b)).frameTaken b (s.frameReading b)) := by
  have row : exec (.trayFrame b) s = .next (trayFrameStep b s) := rfl
  rw [row, trayFrameStep, up, ok]
  unfold State.frameTaken State.frameReading
  rfl

/-- A value is fitted to its field with the registers as they stand. -/
theorem State.fit_parts {w n : Nat} {v : Int} {t : State} (h : s.fit w v = (n, t)) :
    t.pwr = s.pwr ∧ t.out = s.out ∧ t.regs = s.regs := by
  unfold State.fit at h
  split at h <;>
  · cases h
    exact ⟨rfl, rfl, rfl⟩

/-- Coolant registers are written in `PWR_THERM`, with free values where they do not fit. -/
theorem State.putCoolant_parts (s : State) (c : Coolant) : (s.putCoolant c).pwr = s.pwr ∧ (s.putCoolant c).out = s.out ∧
    s.sameRegsBut (s.putCoolant c) [.PWR_THERM] := by
  rcases h1 : s.fit 8 (round100 c.tin) with ⟨i, t⟩
  rcases h2 : t.fit 8 (round100 c.tout) with ⟨o, u⟩
  rcases h3 : u.fit 8 ((c.flow + 2) / 5 : Nat) with ⟨f, x⟩
  obtain ⟨p1, o1, r1⟩ := State.fit_parts h1
  obtain ⟨p2, o2, r2⟩ := State.fit_parts h2
  obtain ⟨p3, o3, r3⟩ := State.fit_parts h3
  have put : s.putCoolant c = ((x.fset PWR_THERM.TIN 0 i).fset PWR_THERM.TOUT 0 o).fset PWR_THERM.FLOW 0 f := by
    unfold State.putCoolant
    rw [h1]
    dsimp only
    rw [h2]
    dsimp only
    rw [h3]
  rw [put]
  refine ⟨p3.trans (p2.trans p1), o3.trans (o2.trans o1), ?_⟩
  iterate 3 apply State.sameRegsBut.fset (hr := by decide) (hi := by decide) (hf := by decide)
  exact State.sameRegsBut_of_regs _ (r3.trans (r2.trans r1))

/-- Readings that fit are shown in their units. -/
theorem State.putCoolant_fits {c : Coolant} {i o : Nat} (tin : round100 c.tin = i) (tout : round100 c.tout = o) (hi : i < 256) (ho : o < 256)
    (hf : (c.flow + 2) / 5 < 256) : s.putCoolant c =
      ((s.fset PWR_THERM.TIN 0 i).fset PWR_THERM.TOUT 0 o).fset PWR_THERM.FLOW 0 ((c.flow + 2) / 5) := by
  have fits (n : Nat) (h : n < 256) : s.fit 8 (n : Int) = (n, s) := s.fit_nat (by simpa using h)
  unfold State.putCoolant
  simp only [tin, tout, fits i hi, fits o ho, fits _ hf]

/-- A reading below 327.68 °C above zero is the number that stands in the frame. -/
theorem sext_small {x : Nat} (h : x < 32768) : sext 16 x = x := by
  unfold sext
  simp
  omega

/-- Hundredths of a degree rounded. -/
theorem round100_nat (x : Nat) : round100 (x : Int) = ((x + 50) / 100 : Nat) := by
  unfold round100
  omega

/-- Too low a flow begins flow hold. -/
theorem State.flowHold_begins {c : Coolant} (free : s.fon PWR_STATUS.FLOW_HOLD 0 = false) (up : s.up = true)
    (low : c.flow < s.fget PWR_POLICY.FLOW_SET 0) : s.flowHold c = s.enterFlowHold := by
  simp [State.flowHold, State.flowTrigger, free, up, low]

/-- With enough flow and no reading before it, none begins. -/
theorem State.flowHold_steady {c : Coolant} (free : s.fon PWR_STATUS.FLOW_HOLD 0 = false) (first : s.pwr.cool = none)
    (enough : s.fget PWR_POLICY.FLOW_SET 0 ≤ c.flow) : s.flowHold c = s := by
  simp [State.flowHold, State.flowTrigger, free, first, Nat.not_lt.mpr enough]

/-- Flow hold as it begins. -/
theorem State.enterFlowHold_shows (s : State) :
    s.enterFlowHold.fget PWR_STATUS.FLOW_HOLD 0 = 1 ∧ s.enterFlowHold.fget PWR_PSTATE.LEHR_W 0 = 0 := by
  have logged := ((s.fset PWR_STATUS.FLOW_HOLD 0 1).fset PWR_PSTATE.LEHR_W 0 0).sameRegsBut_log { code := 0x0407 }
  have flow := logged.fget PWR_STATUS.FLOW_HOLD (by decide) (by decide) (by decide : 0 < 65536)
  have heat := logged.fget PWR_PSTATE.LEHR_W (by decide) (by decide) (by decide : 0 < 65536)
  refine ⟨flow.trans ?_, heat.trans (State.fget_fset_same ..)⟩
  rw [State.fget_fset_ne _ _ _ _ _ _ (by decide), State.fget_fset_same]
  rfl

end

/-! ## Idle states and their wake (R716 to R718) -/

section
variable {s : State}

/-- A quiet time under a millisecond and a tolerance of 30 us allow PS2 and no deeper. -/
theorem State.deepest_ps2 {idleNs quietNs : Nat} (idle : 10000 ≤ idleNs) (busy : quietNs < 1000000) (patient : 30 ≤ s.tolerance) :
    s.deepest idleNs quietNs = 2 := by
  simp [State.deepest, idle, patient, Nat.not_le.mpr busy]

/-- Without Lehr the heaters spend nothing. -/
theorem State.lehr_off (cold : s.fon PWR_PSTATE.LEHR_EN 0 = false) :
    s.lehr = (s.fset PWR_PSTATE.LEHR_W 0 0).fset PWR_PSTATE.LEHR_SHORT 0 0 := by
  have off : s.lehrOn = false := by simp [State.lehrOn, cold]
  rw [State.lehr_eq, off, Bool.false_and, Bool.false_and, if_neg Bool.false_ne_true, State.lehrPut, State.lehrAsk_off cold, off,
    Nat.zero_min, ite_self]
  rfl

/-- An idle module in PS0 enters PS2 where that is the deepest state. -/
theorem exec_idleEntry_ps2 {idleNs quietNs want : Nat} (live : s.live = true) (rests : s.idle = true) (idle : 10000 ≤ idleNs)
    (busy : quietNs < 1000000) (patient : 30 ≤ s.tolerance) (state : s.fget PWR_PSTATE.STATE 0 = 0)
    (cold : s.fon PWR_PSTATE.LEHR_EN 0 = false) : exec (.idleEntry idleNs quietNs want) s = .next
      (({ s.fset PWR_PSTATE.STATE 0 2 with pwr := { s.pwr with lehrLogged := false, lehrWant := want } }.ratesOff.fset
        PWR_PSTATE.LEHR_W 0 0).fset PWR_PSTATE.LEHR_SHORT 0 0) := by
  have row : exec (.idleEntry idleNs quietNs want) s = .next (idleEntryStep idleNs quietNs want s) := rfl
  have dark : (State.ratesOff { s.fset PWR_PSTATE.STATE 0 2 with pwr := { s.pwr with lehrLogged := false, lehrWant := want } }).fon
      PWR_PSTATE.LEHR_EN 0 = false := by
    rw [State.fon, (State.ratesOff_parts _).2.fget _ (by decide) (by decide) (by decide), State.fget_mk, State.tget_regs,
      State.fget_fset_ne _ _ _ _ _ _ (by decide)]
    exact cold
  rw [row, idleEntryStep, live, rests, Bool.and_self, State.when_true]
  simp only [State.deepest_ps2 idle busy patient, state]
  exact congrArg _ (State.lehr_off dark)

/-- A wake from PS1 or PS2 returns to PS0. -/
theorem exec_powerWake_light (up : s.up = true) (state : s.fget PWR_PSTATE.STATE 0 = 1 ∨ s.fget PWR_PSTATE.STATE 0 = 2) :
    exec .powerWake s = .next (((s.fset PWR_PSTATE.STATE 0 0).fset PWR_PSTATE.LEHR_W 0 0).fset PWR_PSTATE.LEHR_SHORT 0 0) := by
  have row : exec .powerWake s = .next (s.when s.up State.wake) := rfl
  rw [row, up, State.when_true, State.wake, if_pos (by omega), if_neg (by omega)]

/-! ## PS4 (R323, R716, R719) -/

/-- A request with nothing launched and a floor in range enters PS4. -/
theorem exec_ps4Req_taken {w : Who} {v : Nat} (reach : s.reaches w = true) (free : s.barred w .PWR_PSTATE 0 v = .none)
    (asks : PWR_PSTATE.PS4_REQ.bit v = true) (acts : s.isStatus .PWR_PSTATE 0 v = false) (rests : s.anyLaunched = false)
    (low : 20 ≤ PWR_PSTATE.LEHR_FLOOR.val v) (high : PWR_PSTATE.LEHR_FLOOR.val v ≤ 70) :
    exec (.ps4Req w v) s = .next ((s.clrW1C .PWR_PSTATE 0 v).putRW .PWR_PSTATE 0 v).lehr.enterPs4 := by
  have row : exec (.ps4Req w v) s = .next (s.when (PWR_PSTATE.PS4_REQ.bit v) fun s => pstateWrite w v s) := rfl
  rw [row, asks, State.when_true, pstateWrite, reach, State.when_true,
    State.regWrite_taken free acts (by simp [rests, Nat.not_lt.mpr low, Nat.not_lt.mpr high]), asks, if_pos rfl]

/-- What no register field is part of stands through a pass that sets one field at several places. -/
theorem State.foldl_fput_proj {β : Type} (π : State → β) (same : ∀ s f i b, π (State.fput s f i b) = π s) {f : Fld}
    {b : State → Nat → Bool} (l : List Nat) (s : State) : π (l.foldl (fun s i => s.fput f i (b s i)) s) = π s :=
  List.foldlRecOn l _ (motive := fun t => π t = π s) rfl fun t h i _ => (same t f i _).trans h

/-- What is lost with the work: commands, cores, streams and device memory. -/
theorem State.loseWork_lost (s : State) (ps4 : Bool) : (s.loseWork ps4).mem.bytes = [] ∧ (s.loseWork ps4).cfe = { ucie := s.cfe.ucie } ∧
    (s.loseWork ps4).core.rsds = [] ∧ (s.loseWork ps4).fab = {} := by
  unfold State.loseWork
  dsimp only
  rw [State.foldl_fput_proj State.mem State.fput_mem, State.foldl_fput_proj State.cfe State.fput_cfe,
    State.foldl_fput_proj State.core State.fput_core, State.foldl_fput_proj State.fab State.fput_fab]
  split <;> exact ⟨rfl, rfl, rfl, rfl⟩

/-- PS4 as it is entered. -/
theorem State.enterPs4_shows (s : State) : s.enterPs4.fget PWR_PSTATE.STATE 0 = 4 ∧ s.enterPs4.mem.bytes = [] ∧
    s.enterPs4.cfe.cmds = [] ∧ s.enterPs4.core.rsds = [] ∧ s.enterPs4.fab = {} := by
  obtain ⟨bytes, cfe, rsds, fab⟩ := s.loseWork_lost true
  unfold State.enterPs4
  dsimp only
  rw [State.foldl_note]
  refine ⟨?_, bytes, congrArg CfeSt.cmds cfe, rsds, fab⟩
  rw [State.fget_mk, State.tget_regs, State.fget_note, State.fget_note, State.fget_fset_same]
  rfl

end

/-- Settles O12: each row by its own rule, a frame by what it does to flow hold and to the coolant registers. -/
theorem coolantAndIdle : Obligations.CoolantAndIdle := by
  refine ⟨?stale, ?flowHold, ?reading, ?idle, ?wake, ?ps4, ?inPs4⟩
  case stale => exact fun s => exec_coolStale_never
  case flowHold =>
    intro s b bus ok free up low
    obtain ⟨pwr, -, regs⟩ := s.enterFlowHold.putCoolant_parts (s.frameReading b)
    obtain ⟨flow, heat⟩ := s.enterFlowHold_shows
    have run := exec_trayFrame_accepted bus ok
    rw [State.flowHold_begins free up low] at run
    have flow' := (regs.fget PWR_STATUS.FLOW_HOLD (by decide) (by decide) (by decide : 0 < 65536)).trans flow
    have heat' := (regs.fget PWR_PSTATE.LEHR_W (by decide) (by decide) (by decide : 0 < 65536)).trans heat
    obtain ⟨seq, stale, -, -, shows⟩ := (s.enterFlowHold.putCoolant (s.frameReading b)).frameTaken_shows b (s.frameReading b)
    refine ⟨_, run, (shows ..).trans flow', (shows ..).trans heat', ?_, seq, stale⟩
    rw [State.held, Bool.or_eq_true]
    exact .inr (decide_eq_true ((shows ..).trans flow'))
  case reading =>
    intro s b bus ok free first enough hin hout hflow
    have tin : round100 (s.frameReading b).tin = ((leAt b 2 2 + 50) / 100 : Nat) :=
      (congrArg round100 (sext_small (by omega))).trans (round100_nat _)
    have tout : round100 (s.frameReading b).tout = ((leAt b 4 2 + 50) / 100 : Nat) :=
      (congrArg round100 (sext_small (by omega))).trans (round100_nat _)
    have flow : (s.frameReading b).flow = leAt b 6 2 := rfl
    have run := exec_trayFrame_accepted bus ok
    obtain ⟨-, out, regs⟩ := s.putCoolant_parts (s.frameReading b)
    rw [State.flowHold_steady free first enough] at run
    refine ⟨_, run, ?_⟩
    have shown := State.putCoolant_fits (s := s) tin tout (by omega) (by omega) (by rw [flow]; omega)
    obtain ⟨seq, -, sent, same, shows⟩ := (s.putCoolant (s.frameReading b)).frameTaken_shows b (s.frameReading b)
    refine ⟨?_, ?_, ?_, seq, regs.regs same, sent.trans out⟩ <;>
    · rw [shows, shown, flow]
      simp (disch := decide) only [State.fget_fset_ne, State.fget_fset_same]
      exact Nat.mod_eq_of_lt (by change _ < 256; omega)
  case idle => exact fun s idleNs quietNs want => exec_idleEntry_ps2
  case wake => exact fun s => exec_powerWake_light
  case ps4 => exact fun s w v => exec_ps4Req_taken
  case inPs4 =>
    intro s
    obtain ⟨state, rest⟩ := s.enterPs4_shows
    exact ⟨state, by simp [State.up, state], rest⟩

end Sys2Proof.Machine
end

section
/-! # Bring-up: how a step starts and how it ends (R636 to R646, R657, R663, R667) -/
set_option autoImplicit false
namespace Sys2Proof.Machine

/-! ## A step starts (R638, R639) -/

/-- A `GO` that starts a step leaves it running, with what the write asked of it. -/
def State.stepStarted (s : State) (v : Nat) : State :=
  { (s.fset GCTL_BOOT_STAT.STEP 0 (GCTL_BOOT_CTL.STEP.val v)).fset GCTL_BOOT_STAT.RESULT 0 0 with
    boot := { s.boot with stepArg := GCTL_BOOT_CTL.ARG.val v, stepSafe := GCTL_BOOT_CTL.SAFE.bit v,
                          stepFull := GCTL_BOOT_CTL.FULL_ST.bit v } }

theorem State.bootBad_wreset {s : State} {v : Nat} (h : GCTL_BOOT_CTL.WRESET.bit v = true) : s.bootBad v = false := by
  simp [State.bootBad, h]

theorem State.bootBad_ready {s : State} {v : Nat} (idle : s.fget GCTL_BOOT_STAT.RESULT 0 ≠ 0)
    (fresh : s.passed (GCTL_BOOT_CTL.STEP.val v) = false) (ready : s.stepReady (GCTL_BOOT_CTL.STEP.val v) = true) :
    s.bootBad v = false := by
  simp [State.bootBad, idle, fresh, ready]

theorem bootEff_wreset {s : State} {v : Nat} (h : GCTL_BOOT_CTL.WRESET.bit v = true) :
    bootEff v s = (s.putRW .GCTL_BOOT_CTL 0 v).warmReset := if_pos h

theorem bootEff_go {s : State} {v : Nat} (go : GCTL_BOOT_CTL.GO.bit v = true) (stay : GCTL_BOOT_CTL.WRESET.bit v = false) :
    bootEff v s = (s.putRW .GCTL_BOOT_CTL 0 v).stepStarted v :=
  (if_neg (by simp [stay])).trans (if_pos go)

section
variable {s : State} {w : Who} {v : Nat} (reach : s.reaches w = true) (free : s.barred w .GCTL_BOOT_CTL 0 v = .none)
  (acts : s.isStatus .GCTL_BOOT_CTL 0 v = false)

include reach free acts in
/-- A write of `GCTL_BOOT_CTL` that R639 does not reject takes effect. -/
theorem bootCtlWrite_taken (good : s.bootBad v = false) :
    bootCtlWrite w v s = bootEff v (s.clrW1C .GCTL_BOOT_CTL 0 v) := by
  rw [bootCtlWrite, reach, State.when_true, State.regWriteOr_admitted free, acts]
  exact (if_neg (by simp)).trans (if_neg (by simp [good]))

include reach free acts in
/-- `GO` of a step whose condition holds starts it. -/
theorem goStep_starts {k : Nat} (go : GCTL_BOOT_CTL.GO.bit v = true) (stay : GCTL_BOOT_CTL.WRESET.bit v = false)
    (step : GCTL_BOOT_CTL.STEP.val v = k) (idle : s.fget GCTL_BOOT_STAT.RESULT 0 ≠ 0)
    (fresh : s.passed (GCTL_BOOT_CTL.STEP.val v) = false) (ready : s.stepReady k = true) :
    goStep k w v s = ((s.clrW1C .GCTL_BOOT_CTL 0 v).putRW .GCTL_BOOT_CTL 0 v).stepStarted v := by
  rw [goStep, go, decide_eq_true step, Bool.and_self, State.when_true,
    bootCtlWrite_taken reach free acts (State.bootBad_ready idle fresh (step ▸ ready)), bootEff_go go stay]

end

/-- Settles O3: a warm reset by `WRESET`; each step by the condition of R639 that its premises make. -/
theorem bootStepStarts : Obligations.BootStepStarts := by
  intro s w v reach free acts
  refine ⟨fun warm => ?_, fun go stay idle fresh => ?_⟩
  · have row : exec (.wreset w v) s = .next (s.when (GCTL_BOOT_CTL.WRESET.bit v) fun s => bootCtlWrite w v s) := rfl
    rw [row, warm, State.when_true, bootCtlWrite_taken reach free acts (State.bootBad_wreset warm), bootEff_wreset warm]
  · have starts := @goStep_starts s w v reach free acts
    refine ⟨fun k p => ?_, fun k p => ?_, fun k p => ?_, fun k p safe => ?_, fun k p busy done => ?_, fun k p => ?_,
      fun k p => ?_, fun k p fast => ?_, fun k p => ?_⟩
    case refine_4 =>
      exact congrArg _ ((if_pos safe).trans (starts go stay k idle fresh p))
    case refine_5 => exact congrArg _ (starts go stay k idle fresh (by simp [State.stepReady, p, busy, done]))
    case refine_7 => exact congrArg _ (starts go stay k idle fresh (by simp [State.stepReady, p]))
    case refine_8 => exact congrArg _ (starts go stay k idle fresh (by simp [State.stepReady, p, fast]))
    all_goals exact congrArg _ (starts go stay k idle fresh p)

/-! ## A step ends (R637, R645) -/

/-- What the end of each step is. -/
def State.stepEnd (s : State) (o : BootIn) : Nat → State
  | 1 => s.endPower
  | 2 => s.endSecfw
  | 3 => s.endIdentity o.burns
  | 4 => s.endRecord
  | 8 => s.endGather o
  | 9 => s.endSelftest o
  | 10 => s.endCullet o
  | 11 => s.endReady
  | _ => s

theorem exec_bootStepEnd {s : State} (o : BootIn) {k : Nat} (hub : s.hubUp = true) (run : s.fget GCTL_BOOT_STAT.RESULT 0 = 0)
    (step : s.fget GCTL_BOOT_STAT.STEP 0 = k) : exec (.bootStepEnd o) s = .next (s.stepEnd o k) := by
  subst step
  exact congrArg _ (if_pos (by simp [hub, run]))

section
variable (s : State)

theorem State.endStep_failed (code : Nat) :
    s.endStep 3 code = (s.fset GCTL_BOOT_STAT.RESULT 0 3).fset GCTL_BOOT_STAT.CODE 0 code := rfl

theorem State.endStep_passed (code : Nat) : s.endStep 1 code =
    (s.fset GCTL_BOOT_STAT.RESULT 0 1).fset GCTL_BOOT_STAT.PASSED 0
      (s.fget GCTL_BOOT_STAT.PASSED 0 ||| 2 ^ s.fget GCTL_BOOT_STAT.STEP 0) := by
  have kept : (s.fset GCTL_BOOT_STAT.RESULT 0 1).fget GCTL_BOOT_STAT.PASSED 0 = s.fget GCTL_BOOT_STAT.PASSED 0 :=
    s.fget_fset_ne _ _ 0 0 1 (by decide)
  have step : (s.fset GCTL_BOOT_STAT.RESULT 0 1).fget GCTL_BOOT_STAT.STEP 0 = s.fget GCTL_BOOT_STAT.STEP 0 :=
    s.fget_fset_ne _ _ 0 0 1 (by decide)
  rw [← kept, ← step]
  rfl

theorem State.fget_endStep_result (code : Nat) : (s.endStep 1 code).fget GCTL_BOOT_STAT.RESULT 0 = 1 := by
  rw [State.endStep_passed, State.fget_fset_ne _ _ _ _ _ _ (by decide), State.fget_fset_lt _ _ _ _ (by decide)]

theorem State.fget_endStep_passed (code : Nat) : (s.endStep 1 code).fget GCTL_BOOT_STAT.PASSED 0 =
    (s.fget GCTL_BOOT_STAT.PASSED 0 ||| 2 ^ s.fget GCTL_BOOT_STAT.STEP 0) % 4096 := by
  rw [State.endStep_passed, State.fget_fset_same]
  rfl

theorem State.endStep_keeps (code : Nat) : s.sameRegsBut (s.endStep 1 code) [.GCTL_BOOT_STAT] := by
  rw [State.endStep_passed]
  iterate 2 apply State.sameRegsBut.fset (hr := by decide) (hi := by decide) (hf := by decide)
  exact s.sameRegsBut_refl _

/-! ## SECFW (R645, R744) -/

theorem State.endSecfw_refused {s : State} (alive : s.fget SEC_LIFE.LCS 0 ≠ 4) (stands : s.fget SEC_FWU_STAT.STATE 0 ≠ 5)
    (bad : s.bundleCode s.stagedBytes true ≠ 0) : s.endSecfw = s.endStep 3 0x0611 :=
  (if_neg alive).trans ((if_neg stands).trans (if_pos bad))

/-- The firmware of the staged bundle runs, the entropy source with it. -/
def State.fwRuns (s : State) : State :=
  ({ s with fw := { s.fw with manifest := manifestBytes s.stagedBytes }, mgmt := { s.mgmt with run := true } }.putEntries
    (manifestEntries s.stagedBytes)).fset SEC_LIFE.TRNG_OK 0 1

theorem State.endSecfw_checked {s : State} (alive : s.fget SEC_LIFE.LCS 0 ≠ 4) (stands : s.fget SEC_FWU_STAT.STATE 0 ≠ 5)
    (good : s.bundleCode s.stagedBytes true = 0) : ∃ m, s.endSecfw = { s.fwRuns with mem := m }.endStep 1 0 := by
  have run : s.endSecfw = (if tget (s.fwRuns.loadKey 0).mem.keyGen dumpKeySlot 0 = 0 then
      (s.fwRuns.loadKey 0).loadKey dumpKeySlot else s.fwRuns.loadKey 0).endStep 1 0 :=
    (if_neg alive).trans ((if_neg stands).trans (if_neg (by simp [good])))
  rw [run]
  split
  · exact ⟨_, rfl⟩
  · exact ⟨_, rfl⟩

/-! ## IDENTITY (R645, R755, R757) -/

/-- The epochs burned, up to and with the one that verified, and the session that it opens. -/
def State.sessionOpened (s : State) (burns : Nat) : State :=
  let t := s.fset GCTL_SERIAL.SERIAL 0 (serialOf idKey)
  let e := s.fuse.epochs + burns
  ((({ t with fuse := { s.fuse with epochs := e + 1 } }.fset SEC_ID_STAT.STATE 0 1).fset SEC_ID_STAT.EPOCH 0 e).fset
    SEC_ID_STAT.EPOCH_LEFT 0 (32767 - e)).fset SEC_ID_STAT.SIGS_LEFT 0 1048576

/-- The last epochs burned, none of which verified. -/
def State.epochsGone (s : State) : State :=
  (({ s.fset GCTL_SERIAL.SERIAL 0 (serialOf idKey) with fuse := { s.fuse with epochs := 32768 } }.fset
    SEC_ID_STAT.STATE 0 2).fset SEC_ID_STAT.EPOCH_LEFT 0 0).logC 0x0501

theorem State.endIdentity_opened {s : State} {burns : Nat} (new : s.fget SEC_ID_STAT.STATE 0 ≠ 1)
    (left : s.fuse.epochs + burns < 32768) : s.endIdentity burns = (s.sessionOpened burns).endStep 1 0 :=
  (if_neg new).trans (if_neg (by simp only [State.fset_fuse]; omega))

theorem State.endIdentity_gone {s : State} {burns : Nat} (new : s.fget SEC_ID_STAT.STATE 0 ≠ 1)
    (gone : 32768 ≤ s.fuse.epochs + burns) : s.endIdentity burns = s.epochsGone.endStep 2 0x0501 :=
  (if_neg new).trans (if_pos gone)

theorem State.sessionOpened_keeps (s : State) (burns : Nat) :
    s.sameRegsBut (s.sessionOpened burns) [.SEC_ID_STAT, .GCTL_SERIAL] := by
  have serial : s.sameRegsBut (s.fset GCTL_SERIAL.SERIAL 0 (serialOf idKey)) [.SEC_ID_STAT, .GCTL_SERIAL] :=
    s.sameRegsBut_fset (by decide) (by decide) (by decide)
  unfold State.sessionOpened
  iterate 4 apply State.sameRegsBut.fset (hr := by decide) (hi := by decide) (hf := by decide)
  exact State.sameRegsBut_trans serial (State.sameRegsBut_of_regs _ rfl)

/-- What an open session shows (R758). -/
theorem State.sessionOpened_shows {s : State} {burns : Nat} (left : s.fuse.epochs + burns < 32768) :
    (s.sessionOpened burns).fget SEC_ID_STAT.STATE 0 = 1 ∧
    (s.sessionOpened burns).fget SEC_ID_STAT.EPOCH 0 = s.fuse.epochs + burns ∧
    (s.sessionOpened burns).fget SEC_ID_STAT.EPOCH_LEFT 0 = 32767 - (s.fuse.epochs + burns) ∧
    (s.sessionOpened burns).fget SEC_ID_STAT.SIGS_LEFT 0 = 1048576 := by
  unfold State.sessionOpened
  generalize s.fuse.epochs + burns = e at left
  simp (disch := decide) only [State.fget_fset_ne, State.fget_fset_same]
  exact ⟨rfl, Nat.mod_eq_of_lt left, Nat.mod_eq_of_lt (by change _ < 2 ^ 16; omega), rfl⟩

/-! ## RECORD in safe mode, GATHER and SELFTEST (R657, R659, R663) -/

/-- Safe mode: there is no Part Record, and nothing is copied. -/
def State.recordSkipped (s : State) : State :=
  { s with boot := { s.boot with recorded := true, prHash := zeros 32 } }.fset GCTL_BOOT_STAT.SAFE_MODE 0 1

theorem State.endRecord_safe {s : State} (first : s.boot.recorded = false) (safe : s.boot.stepSafe = true) :
    s.endRecord = s.recordSkipped.endStep 1 0 :=
  (if_neg (by simp [first])).trans (if_pos safe)

theorem State.endGather_none {s : State} (o : BootIn) (h : s.gatherImage = none) : s.endGather o = s.endStep 3 0x0617 := by
  rw [State.endGather, h]

theorem State.endSelftest_clean (s : State) {o : BootIn} (rows : o.rows = []) (sites : o.sites = []) (delays : o.delays = [])
    (wakes : o.wakes = []) : s.endSelftest o = s.endStep 1 0 := by
  simp [State.endSelftest, rows, sites, delays, wakes]

/-- READY ends: the CFE may launch. -/
theorem State.endReady_eq {s : State} (step : s.fget GCTL_BOOT_STAT.STEP 0 = 11) :
    s.endReady = { (s.fset GCTL_BOOT_STAT.RESULT 0 1).fset GCTL_BOOT_STAT.PASSED 0 (s.fget GCTL_BOOT_STAT.PASSED 0 ||| 2048) with
      boot := { s.boot with readySince := true, tripSince := false } } := by
  have bit : 2 ^ s.fget GCTL_BOOT_STAT.STEP 0 = 2048 := by rw [step]; rfl
  rw [← bit]
  exact State.endStep_passed _ 0

end

/-- Settles O4: the end of each running step, by the outcome that its premises single out. -/
theorem bootStepEnds : Obligations.BootStepEnds := by
  intro s o hub run
  have ends := fun k => @exec_bootStepEnd s o k hub run
  refine ⟨?power, ?refused, ?checked, ?opened, ?gone, ?safe, ?gather, ?selftest, ?ready⟩
  case power => exact fun step strap => (ends 1 step).trans (congrArg _ (State.endPower_failed strap))
  case refused =>
    exact fun step alive stands bad => (ends 2 step).trans (congrArg _ (State.endSecfw_refused alive stands bad))
  case checked =>
    intro step alive stands good
    obtain ⟨m, secfw⟩ := State.endSecfw_checked alive stands good
    refine ⟨_, (ends 2 step).trans (congrArg _ secfw), State.fget_endStep_result _ _, ?_, rfl, rfl, rfl⟩
    rw [(State.endStep_keeps _ _).fget SEC_LIFE.TRNG_OK (by decide) (by decide) (by decide)]
    exact State.fget_fset_lt _ SEC_LIFE.TRNG_OK 0 1 (by decide)
  case opened =>
    intro step new left
    have kept := State.endStep_keeps (s.sessionOpened o.burns) 0
    obtain ⟨state, epoch, rest, sigs⟩ := State.sessionOpened_shows left
    have same := s.sessionOpened_keeps o.burns
    have passed : (s.sessionOpened o.burns).fget GCTL_BOOT_STAT.PASSED 0 = s.fget GCTL_BOOT_STAT.PASSED 0 :=
      same.fget _ (by decide) (by decide) (by decide)
    have at3 : (s.sessionOpened o.burns).fget GCTL_BOOT_STAT.STEP 0 = 3 :=
      (same.fget GCTL_BOOT_STAT.STEP (by decide) (by decide) (by decide)).trans step
    refine ⟨_, (ends 3 step).trans (congrArg _ (State.endIdentity_opened new left)), rfl,
      (kept.fget _ (by decide) (by decide) (by decide)).trans state,
      (kept.fget _ (by decide) (by decide) (by decide)).trans epoch,
      (kept.fget _ (by decide) (by decide) (by decide)).trans rest,
      (kept.fget _ (by decide) (by decide) (by decide)).trans sigs, State.fget_endStep_result _ _, ?_, ?_, rfl⟩
    · exact (State.fget_endStep_passed _ _).trans (by rw [passed, at3]; rfl)
    · exact State.sameRegsBut_trans (State.sameRegsBut_mono same (by decide)) (State.sameRegsBut_mono kept (by decide))
  case gone =>
    intro step new gone
    refine ⟨_, (ends 3 step).trans (congrArg _ (State.endIdentity_gone new gone)), ?_, ?_, ?_⟩
    · exact State.logC_fuse _ _
    · unfold State.endStep
      simp (disch := decide) [State.fget_fset_ne]
      rfl
    · unfold State.endStep
      simp (disch := decide) [State.fget_fset_ne]
      rfl
  case safe =>
    intro step first safe
    have passed : s.recordSkipped.fget GCTL_BOOT_STAT.PASSED 0 = s.fget GCTL_BOOT_STAT.PASSED 0 :=
      State.fget_fset_ne _ _ _ 0 0 1 (by decide)
    have at4 : s.recordSkipped.fget GCTL_BOOT_STAT.STEP 0 = 4 := (State.fget_fset_ne _ _ _ 0 0 1 (by decide)).trans step
    refine ⟨_, (ends 4 step).trans (congrArg _ (State.endRecord_safe first safe)), ?_, State.fget_endStep_result _ _, rfl,
      rfl, ?_⟩
    · rw [State.endStep_passed, State.fget_fset_ne _ _ _ _ _ _ (by decide), State.fget_fset_ne _ _ _ _ _ _ (by decide)]
      exact State.fget_fset_lt _ _ _ _ (by decide)
    · exact (State.fget_endStep_passed _ _).trans (by rw [passed, at4]; rfl)
  case gather => exact fun step none => (ends 8 step).trans (congrArg _ (State.endGather_none o none))
  case selftest =>
    intro step rows sites delays wakes
    refine (ends 9 step).trans (congrArg _ ((s.endSelftest_clean rows sites delays wakes).trans ?_))
    rw [State.endStep_passed, step]
    rfl
  case ready => exact fun step => (ends 11 step).trans (congrArg _ (State.endReady_eq step))

end Sys2Proof.Machine
end

section
/-! # Investigations of a site: how one starts, and what moves it on (R582 to R593) -/
set_option autoImplicit false
namespace Sys2Proof.Machine

/-- A trigger while a capture is being taken is dropped and counted. -/
theorem State.trigger_busy {s : State} (trig : Nat) (sites : List Nat) (smear : Bool) (graph : List Byte)
    (busy : s.fon SPARE_DUMP.BUSY 0 = true) : s.trigger trig sites smear graph = s.fsat SPARE_DUMP.DROPPED 0 1 := by
  unfold State.trigger
  cases s.freeSlot with
  | none => rfl
  | some k => exact if_pos (by simp [busy])

/-- What `SPARE_REPLAY_STAT` shows of an investigation that runs. -/
theorem State.showInv_some {s : State} {i : Invest} (st : Nat) (runs : s.spare.inv = some i) : s.showInv st =
    ((((s.fset SPARE_REPLAY_STAT.STATE 0 st).fset SPARE_REPLAY_STAT.QUEUED 0 s.spare.invQ.length).fset
      SPARE_REPLAY_STAT.DIE 0 (i.site / 576)).fset SPARE_REPLAY_STAT.ROW 0 (i.site % 576 / 24)).fset
      SPARE_REPLAY_STAT.COL 0 (i.site % 24) := by
  simp only [State.showInv, State.fset_spare, runs]

/-- It shows nothing in any other register. -/
theorem State.showInv_regs {s : State} {i : Invest} (st : Nat) (runs : s.spare.inv = some i) :
    s.sameRegsBut (s.showInv st) [.SPARE_REPLAY_STAT] := by
  rw [State.showInv_some st runs]
  iterate 5 apply State.sameRegsBut.fset (hr := by decide) (hi := by decide) (hf := by decide)
  exact s.sameRegsBut_refl _

/-! ## An ambiguous fault (R582, R583) -/

section
variable {s : State} {site l : Nat}

theorem State.ambiguous_starts (kind ring seq pos iter : Nat) (runs : s.live = true) (core : s.siteCore site = some l)
    (new : s.investigated site = false) (serves : s.spare.fenced.contains site = false) :
    s.ambiguous kind site ring seq pos iter = s.investigate site l kind ring seq pos iter := by
  unfold State.ambiguous
  rw [core]
  exact if_pos (by simp only [runs, new, serves, Bool.not_false, Bool.and_self])

/-- The investigation that a fault with no live work on its site starts. -/
def Invest.fresh (site l k ring seq pos iter : Nat) : Invest := ⟨site, l, k, pos, iter, ring, seq, [], false, [], false, 0⟩

/-- Its site's core is held, the capture it asks for is dropped, and it is the one that runs. -/
def State.firstInv (s : State) (site l k ring seq pos iter : Nat) : State :=
  { (s.holdCore l).fsat SPARE_DUMP.DROPPED 0 1 with
    spare := { s.spare with inv := some (Invest.fresh site l k ring seq pos iter), invQ := [] } }

/-- With none running or waiting, nothing on the site and no room for a capture, an investigation begins at once. -/
theorem State.investigate_first (k ring seq pos iter : Nat) (none : s.spare.inv = none) (empty : s.spare.invQ = [])
    (quiet : s.siteCtxs site = []) (idle : s.siteCmds site = []) (busy : s.fon SPARE_DUMP.BUSY 0 = true) :
    s.investigate site l k ring seq pos iter =
      (s.firstInv site l k ring seq pos iter).showInv 1 := by
  have dropped : (s.holdCore l).trigger 2 [site] false [] = (s.holdCore l).fsat SPARE_DUMP.DROPPED 0 1 :=
    State.trigger_busy _ _ _ _ busy
  have room : ¬ 15 ≤ s.spare.invQ.length := by simp [empty]
  rw [State.investigate, quiet, idle, if_neg room, dropped]
  simp only [State.resetMany_nil]
  simp only [State.fsat_spare, State.holdCore, none, empty, Option.isSome_none, List.nil_append]
  rfl

end

/-! ## The end of an investigation (R586, R589, R590) -/

section
variable {s : State} {i : Invest} (runs : s.spare.inv = some i)

include runs in
theorem selftestDone_failed (hub : s.hubUp = true) (testing : s.fget SPARE_REPLAY_STAT.STATE 0 = 1) (none : i.suspects = []) :
    investigationSelftestDoneStep false s = s.siteGuilty i := by
  simp [investigationSelftestDoneStep, runs, hub, testing, none]

include runs in
/-- Nothing is left to replay, and no verdict stands against the site yet. -/
theorem replayCommandEnd_unsettled (live : s.live = true) (replays : s.fget SPARE_REPLAY_STAT.STATE 0 = 2)
    (still : i.running = false) (last : i.todo = []) (first : s.fget SPARE_WEAR.TRANS i.site = 0) :
    replayCommandEndStep false s = (s.fset SPARE_WEAR.TRANS i.site 1).verdict i (if i.open_ then 4 else 3) 0 := by
  have waits : replayCommandEndStep false s = s.unsettled i := by
    simp [replayCommandEndStep, runs, live, replays, still, last, State.nextReplay]
  rw [waits, State.unsettled, first]
  rfl

include runs in
/-- A replay that has run for `TMO` is ended, and the investigation stays open. -/
theorem replayTmo_ends {c : Cmd} (hub : s.hubUp = true) (todo : i.todo = [c]) (running : i.running = true)
    (late : i.tRun + s.fget SPARE_REPLAY_CTL.TMO 0 * 1000000 ≤ s.time.run) :
    replayTmoStep s = (s.endReplay { i with open_ := true } c).nextReplay 2 := by
  simp only [replayTmoStep, runs, todo, List.head?_cons]
  rw [if_pos (by simp [hub, running, late])]
  rfl

end

theorem State.endReplay_gone (s : State) (i : Invest) (c : Cmd) :
    ∀ d ∈ (s.endReplay i c).cfe.cmds, d.is c.ring c.seq = false := by
  intro d hd
  simpa using (List.mem_filter.mp hd).2

/-- Settles O14: the start of an investigation by `investigate_first`, and each step that moves it on by its own lemma. -/
theorem investigations : Obligations.Investigations := by
  refine ⟨?fault, ?starts, ?hub, ?fails, ?settles, ?late⟩
  case fault =>
    intro s site ring seq pos iter l hsite hring runs core new serves
    have unit : (wfSite site && wfRing ring) = true := by simp [wfSite, wfRing, hsite, hring]
    have row : ∀ k, need (wfSite site && wfRing ring) (s.ambiguous k site ring seq pos iter) =
        .next (s.investigate site l k ring seq pos iter) := fun k => by
      rw [unit, need_true, State.ambiguous_starts k ring seq pos iter runs core new serves]
    exact ⟨row 0, row 1⟩
  case starts =>
    intro s site l k ring seq pos iter none empty quiet idle busy _
    rw [State.investigate_first k ring seq pos iter none empty quiet idle busy]
    have regs := State.showInv_regs (s := s.firstInv site l k ring seq pos iter) 1 rfl
    have shown := State.showInv_some (s := s.firstInv site l k ring seq pos iter) 1 rfl
    refine ⟨by rw [shown]; rfl, by rw [shown]; simp [State.firstInv, State.holdCore], ?_, ?_⟩
    · rw [shown]
      simp (disch := decide) only [State.fget_fset_ne, State.fget_fset_same]
      rfl
    · rw [regs.fget SPARE_DUMP.DROPPED (by decide) (by decide) (by decide)]
      exact State.fget_fset_lt _ _ _ _ (Nat.lt_of_le_of_lt (Nat.min_le_right _ _) (by decide : 2 ^ 8 - 1 < 2 ^ 8))
  case hub =>
    intro s e hub
    have row : exec (.hubEngineFault e) s = .next (hubEngineFaultStep e s) := rfl
    rw [row, hubEngineFaultStep, hub, State.when_true]
  case fails => exact fun s i hub runs testing none => congrArg _ (selftestDone_failed runs hub testing none)
  case settles =>
    exact fun s i live runs replays still last first => congrArg _ (replayCommandEnd_unsettled runs live replays still last first)
  case late =>
    intro s i c hub runs todo running late
    exact ⟨_, congrArg Host.Outcome.next (replayTmo_ends runs hub todo running late), rfl, State.endReplay_gone _ _ _⟩

end Sys2Proof.Machine
end

section
/-! # Aborted groups, the error log's notice and the crash dump (R598 to R613) -/
set_option autoImplicit false
namespace Sys2Proof.Machine

/-! ## What a write does to the RW and W1C fields of one register -/

theorem State.sameRegsBut_putRW (s : State) (r : Reg) {i : Nat} (v : Nat) (hi : i < 65536) :
    s.sameRegsBut (s.putRW r i v) [r] := by
  refine State.sameRegsBut_foldl (fun t f hf => ?_) s
  obtain ⟨reg, low⟩ := Reg.fields_ok r f hf
  split
  · exact t.sameRegsBut_fset (by simp [reg]) hi low
  · exact t.sameRegsBut_refl _

theorem State.sameRegsBut_clrW1C (s : State) (r : Reg) {i : Nat} (v : Nat) (hi : i < 65536) :
    s.sameRegsBut (s.clrW1C r i v) [r] := by
  refine State.sameRegsBut_foldl (fun t f hf => ?_) s
  obtain ⟨reg, low⟩ := Reg.fields_ok r f hf
  split
  · exact t.sameRegsBut_fset (by simp [reg]) hi low
  · exact t.sameRegsBut_refl _

/-- What an accepted write leaves in the fields that take its value. -/
def State.written (s : State) (r : Reg) (i v : Nat) : State := (s.clrW1C r i v).putRW r i v

theorem State.written_parts (s : State) (r : Reg) {i : Nat} (v : Nat) (hi : i < 65536) :
    (∃ g, s.written r i v = { s with regs := g }) ∧ s.sameRegsBut (s.written r i v) [r] := by
  obtain ⟨g, cleared⟩ := s.clrW1C_eq r i v
  obtain ⟨g', put⟩ := (s.clrW1C r i v).putRW_eq r i v
  refine ⟨⟨g', ?_⟩, State.sameRegsBut_trans (s.sameRegsBut_clrW1C r v hi) (State.sameRegsBut_putRW _ r v hi)⟩
  rw [State.written, put, cleared]

/-! ## The notice of the error log (R606) -/

theorem State.msix_sent {s : State} {v : Nat} (clear : tget s.cfe.masked v 1 = 0) : s.msix v = s.emit (.msix v) :=
  if_neg (by simp [clear])

/-- A message held back falls due while the host asks for it. -/
theorem elogNotifyStep_sends {s : State} {t : Nat} (on : s.pwr.on = true) (stamp : s.spare.elogT = some t)
    (owed : s.spare.elogOwed = true) (due : t + 10000 ≤ s.time.now) (notify : s.fon SPARE_ELOG_PTR.NOTIFY 0 = true)
    (clear : tget s.cfe.masked 0 1 = 0) : elogNotifyStep s =
      { s with spare := { s.spare with elogOwed := false, elogT := some s.time.now }, out := s.out ++ [.msix 0] } := by
  unfold elogNotifyStep
  rw [stamp]
  dsimp only
  rw [on, owed, decide_eq_true due, Bool.and_self, Bool.and_self, if_pos rfl]
  have sent := State.msix_sent (s := { s with spare := { s.spare with elogOwed := false } }) clear
  exact (if_pos notify).trans (by rw [sent]; rfl)

/-! ## The crash dump (R609 to R613) -/

section
variable {s : State} {w : Who} {v : Nat}

/-- Captures whose slot is not in use any more are gone. -/
def State.freeSlots (s : State) : State :=
  { s with mem := { s.mem with captures := s.mem.captures.filter fun c => (s.fget SPARE_DUMP.USED 0).testBit c.slot } }

/-- What an accepted write to `SPARE_DUMP` asks for: a capture, a copy, or neither. -/
def State.dumpAsked (s : State) (full : Nat) : State :=
  let s := if SPARE_DUMP.TAKE.bit full then s.trigger 0 s.workSites false [] else s
  if SPARE_DUMP.XGO.bit full then { s.fset SPARE_DUMP.XBUSY 0 1 with mem := { s.mem with copyJob := full } } else s

theorem State.dumpAsked_nothing {full : Nat} (take : SPARE_DUMP.TAKE.bit full = false) (copy : SPARE_DUMP.XGO.bit full = false) :
    s.dumpAsked full = s := by
  rw [State.dumpAsked, take, copy]
  rfl

theorem State.dumpAsked_take {full : Nat} (take : SPARE_DUMP.TAKE.bit full = true) (copy : SPARE_DUMP.XGO.bit full = false) :
    s.dumpAsked full = s.trigger 0 s.workSites false [] := by
  rw [State.dumpAsked, take, copy]
  rfl

theorem State.dumpAsked_copies {full : Nat} (take : SPARE_DUMP.TAKE.bit full = false) (copy : SPARE_DUMP.XGO.bit full = true) :
    (s.dumpAsked full).fget SPARE_DUMP.XBUSY 0 = 1 ∧ s.sameRegsBut (s.dumpAsked full) [.SPARE_DUMP] ∧
    (s.dumpAsked full).mem.bytes = s.mem.bytes := by
  have asked : s.dumpAsked full = { s.fset SPARE_DUMP.XBUSY 0 1 with mem := { s.mem with copyJob := full } } := by
    rw [State.dumpAsked, take, copy]
    rfl
  rw [asked]
  have set := s.fget_fset_lt SPARE_DUMP.XBUSY 0 1 (by decide)
  have kept : s.sameRegsBut (s.fset SPARE_DUMP.XBUSY 0 1) [.SPARE_DUMP] := s.sameRegsBut_fset (by decide) (by decide) (by decide)
  exact ⟨set, State.sameRegsBut_trans kept (State.sameRegsBut_of_regs _ rfl), rfl⟩

/-- An accepted write with `XGO` starts the copy, and shows it in `SPARE_DUMP` alone. -/
theorem State.written_copies (s : State) {full : Nat} (take : SPARE_DUMP.TAKE.bit full = false)
    (copy : SPARE_DUMP.XGO.bit full = true) :
    (((s.written .SPARE_DUMP 0 full).freeSlots).dumpAsked full).fget SPARE_DUMP.XBUSY 0 = 1 ∧
    s.sameRegsBut (((s.written .SPARE_DUMP 0 full).freeSlots).dumpAsked full) [.SPARE_DUMP] ∧
    (((s.written .SPARE_DUMP 0 full).freeSlots).dumpAsked full).mem.bytes = s.mem.bytes := by
  obtain ⟨⟨g, parts⟩, regs⟩ := s.written_parts .SPARE_DUMP full (i := 0) (by decide)
  have freed : (s.written .SPARE_DUMP 0 full).sameRegsBut (s.written .SPARE_DUMP 0 full).freeSlots [.SPARE_DUMP] :=
    State.sameRegsBut_of_regs _ rfl
  have same : (s.written .SPARE_DUMP 0 full).freeSlots.mem.bytes = s.mem.bytes := by rw [parts]; rfl
  obtain ⟨busy, kept, bytes⟩ := State.dumpAsked_copies (s := (s.written .SPARE_DUMP 0 full).freeSlots) take copy
  exact ⟨busy, State.sameRegsBut_trans (State.sameRegsBut_trans regs freed) kept, bytes.trans same⟩

/-- An accepted write to the first word of `SPARE_DUMP`: `full` is the register's whole value with that word replaced. -/
theorem spareDumpWrite_taken {full : Nat} (word : s.wordPut .SPARE_DUMP 0 0 v = full) (reach : s.reaches w = true)
    (free : s.barred w .SPARE_DUMP 0 full = .none) (acts : s.isStatus .SPARE_DUMP 0 full = false)
    (good : s.xgoBad full = false) :
    spareDumpWrite w 0 v s = ((s.written .SPARE_DUMP 0 full).freeSlots).dumpAsked full := by
  rw [spareDumpWrite, reach, State.when_true]
  simp only [word]
  exact State.regWrite_taken free acts good

/-- A write that only acknowledges clears its W1C bits. -/
theorem spareDumpWrite_status (reach : s.reaches w = true) (free : s.barred w .SPARE_DUMP 0 (s.wordPut .SPARE_DUMP 0 0 v) = .none)
    (status : s.isStatus .SPARE_DUMP 0 (s.wordPut .SPARE_DUMP 0 0 v) = true) :
    spareDumpWrite w 0 v s = s.clrW1C .SPARE_DUMP 0 (s.wordPut .SPARE_DUMP 0 0 v) := by
  rw [spareDumpWrite, reach, State.when_true]
  dsimp only
  rw [State.regWrite, State.regWriteOr_admitted free, if_pos status]

/-- A capture is written whole: its slot is in use, and the next may be taken. -/
theorem captureDoneStep_written {c : Capture} (hub : s.hubUp = true) (busy : s.fon SPARE_DUMP.BUSY 0 = true)
    (taken : s.mem.capNow = some c) : captureDoneStep s =
      (let u := s.obsStall ((dumpFrame + 64 * c.slot) * 2 ^ 21) c.bytes.length
       ({ u with mem := { u.mem with
          captures := u.mem.captures.filter (fun d : Capture => decide (d.slot ≠ c.slot)) ++ [c], capNow := none } }.fset
         SPARE_DUMP.USED 0 (u.fget SPARE_DUMP.USED 0 ||| 2 ^ c.slot)).fset SPARE_DUMP.BUSY 0 0) := by
  unfold captureDoneStep
  rw [taken]
  exact if_pos (by rw [State.canCapture, hub, busy]; rfl)

/-- A part of a copy that lies within one frame of a stack in service goes over whole, its tail filled with zeros. -/
theorem State.copyFrame_whole (b : List Byte) {slot lo n dst j : Nat} (low : j * 2 ^ 21 ≤ lo) (high : lo + n ≤ (j + 1) * 2 ^ 21)
    (serves : s.fon MEM_STK_STATUS.FENCED (stackOf (dumpFrame + 64 * slot + j)) = false) : s.copyFrame b slot lo n dst j =
      (s.rawWrite ⟨0, 0, none, 7⟩ dst (slice b lo n ++ zeros (n - (slice b lo n).length))).st := by
  have first : max lo (j <<< 21) = lo := by rw [Nat.shiftLeft_eq]; exact Nat.max_eq_left low
  have last : min (lo + n) ((j + 1) <<< 21) = lo + n := by rw [Nat.shiftLeft_eq]; exact Nat.min_eq_left high
  unfold State.copyFrame
  rw [first, last]
  dsimp only
  rw [serves, Nat.add_sub_cancel_left, Nat.sub_self]
  rfl

/-- A range within one frame meets no other. -/
theorem framesOf_one {lo n j : Nat} (low : j * 2 ^ 21 ≤ lo) (high : lo + n ≤ (j + 1) * 2 ^ 21) (pos : 0 < n) (hj : j < 64) :
    ((List.range 64).filter fun k => decide (k <<< 21 < lo + n) && decide (lo < (k + 1) <<< 21)) = [j] := by
  have only : ∀ k ∈ List.range 64, (decide (k <<< 21 < lo + n) && decide (lo < (k + 1) <<< 21)) = decide (k = j) := by
    intro k _
    rw [Bool.eq_iff_iff]
    simp only [Nat.shiftLeft_eq, Bool.and_eq_true, decide_eq_true_eq]
    omega
  rw [List.filter_congr only, List.filter_eq, List.count_eq_one_of_mem List.nodup_range (List.mem_range.mpr hj)]
  rfl

end

/-- Settles O15: the writes by what an accepted one does, the rest by their one branch. -/
theorem abortsAndDump : Obligations.AbortsAndDump := by
  refine ⟨?bind, ?abort, ?notice, ?write, ?status, ?capture, ?copy⟩
  case bind =>
    intro s w g v hg reach free acts good
    refine need_group hg ?_
    rw [spareAbindWriteStep, reach, State.when_true, State.regWrite_taken free acts good]
  case abort =>
    intro s arr p harr hub on typ sound valid new
    refine need_port harr ?_
    simp only [abortStep, hub, on, typ, sound, decide_true, Bool.and_self, State.when_true, valid, new, Bool.not_true, Bool.or_self,
      Bool.false_eq_true, if_false]
  case notice =>
    intro s t on stamp owed due notify clear
    have row : exec .elogNotify s = .next (elogNotifyStep s) := rfl
    rw [row, elogNotifyStep_sends on stamp owed due notify clear]
  case write =>
    intro s w v reach full u free acts good
    have runs := spareDumpWrite_taken (full := full) rfl reach free acts good
    refine ⟨fun take takes still => ?_, fun go goes still => ?_, fun used keeps still => ?_⟩
    · exact congrArg _ ((if_pos take).trans (runs.trans (State.dumpAsked_take takes still)))
    · exact ⟨_, congrArg Host.Outcome.next ((if_pos go).trans runs), s.written_copies still goes⟩
    · exact congrArg _ ((if_pos (decide_eq_true used)).trans (runs.trans (State.dumpAsked_nothing keeps still)))
  case status =>
    exact fun s w v reach free status used =>
      congrArg _ ((if_pos (decide_eq_true used)).trans (spareDumpWrite_status reach free status))
  case capture => exact fun s c hub busy taken => congrArg _ (captureDoneStep_written hub busy taken)
  case copy =>
    intro s c n lo dst j hub busy taken hn hlo hdst low high hj serves b
    have row : exec .dumpCopyDone s = .next (dumpCopyDoneStep s) := rfl
    rw [row, dumpCopyDoneStep, hub, busy, Bool.and_self, State.when_true]
    simp only [taken, Nat.shiftLeft_eq (b := 12), show (2 : Nat) ^ 12 = 4096 from rfl, ← hn, ← hlo, ← hdst,
      framesOf_one low high (by omega) hj, List.foldl_cons, List.foldl_nil, State.copyFrame_whole c.bytes low high serves]
    rfl

end Sys2Proof.Machine
end

section
/-! # Mirror pairs: the lease and resynchronisation (R608, R617 to R634) -/
set_option autoImplicit false
namespace Sys2Proof.Machine

/-! ## A message of the partner's hub (R404, R411, R413) -/

section
variable {s : State} {p : Pkt} {t : DStream}

/-- The stream entry that a packet takes is one of its own destination. -/
theorem State.entryFor_dep (h : s.entryFor p = some t) : t.dep = s.depOf p := by
  have found : ∀ u, s.dstream p = some u → u.dep = s.depOf p := fun u hu => by
    have key := List.find?_some hu
    simp only [State.ofKey, Bool.and_eq_true, decide_eq_true_eq] at key
    exact key.2
  unfold State.entryFor at h
  dsimp only at h
  split at h
  · rename_i w seen
    have dep : w.dep = s.depOf p := by
      cases entry : s.dstream p with
      | some u =>
        rw [entry] at seen
        dsimp only at seen
        split at seen
        · obtain rfl := Option.some.inj seen
          exact found u entry
        · obtain rfl := Option.some.inj seen
          exact found u entry
      | none =>
        rw [entry] at seen
        dsimp only at seen
        split at seen
        · exact nomatch seen
        · obtain rfl := Option.some.inj seen
          rfl
    split at h
    · exact nomatch h
    · obtain rfl := Option.some.inj h
      exact dep
  · exact nomatch h

/-- A message that the hub's own endpoint answers for comes to endpoint 0. -/
theorem State.Takes.dep_mgmt (h : s.Takes p t) (type : PH.TYPE.of p.hdr = tyMGMT) : t.dep = 0 := by
  rw [State.entryFor_dep h.entry]
  have code := h.code
  unfold State.endpointCode at code
  by_contra other
  simp only [type, other, if_false, if_true] at code
  split at code <;> omega

theorem State.hubSend_parts (s : State) (p : Pkt) : ∃ f o, s.hubSend p = { s with fab := f, out := o } := by
  unfold State.hubSend
  split
  · exact ⟨_, _, rfl⟩
  · exact ⟨_, _, rfl⟩

/-- What an acknowledged message leaves: its endpoint's count, the fabric's streams and what the hub sends. -/
theorem State.settled_parts (s : State) (p : Pkt) (t : DStream) : ∃ f o, s.settled p t =
    { s.fset FAB_EPCNT.DONE t.dep (s.fget FAB_EPCNT.DONE t.dep + 1) with fab := f, out := o } := by
  unfold State.settled State.finish
  rw [if_pos rfl, if_pos rfl, State.sendAck]
  obtain ⟨f, o, sent⟩ := State.hubSend_parts _ _
  exact ⟨f, o, sent.trans rfl⟩

/-- The count, the pair and the lease are none of that. -/
theorem State.Takes.settled_pair (h : s.Takes p t) (type : PH.TYPE.of p.hdr = tyMGMT) :
    s.sameRegsBut (s.settled p t) [.FAB_EPCNT] ∧ (s.settled p t).spare = s.spare := by
  obtain ⟨f, o, parts⟩ := s.settled_parts p t
  have kept : s.sameRegsBut (s.fset FAB_EPCNT.DONE t.dep (s.fget FAB_EPCNT.DONE t.dep + 1)) [.FAB_EPCNT] :=
    s.sameRegsBut_fset (by decide) (by rw [h.dep_mgmt type]; decide) (by decide)
  rw [parts]
  exact ⟨State.sameRegsBut_trans kept (State.sameRegsBut_of_regs _ rfl), rfl⟩

/-- A message of the partner's hub is settled, and then does what it is for. -/
theorem State.Takes.fromPartner (h : s.Takes p t) (type : PH.TYPE.of p.hdr = tyMGMT) (pair : s.inPair = true)
    (own : pktMod p = s.partner) (k : List Byte → State → State) : s.fromPartner p k = k (pktKept p) (s.settled p t) := by
  obtain ⟨regs, -⟩ := h.settled_pair type
  have pair' : (s.settled p t).inPair = true :=
    (congrArg (fun x => decide (x = 1)) (regs.fget SPARE_PAIR.VALID (by decide) (by decide) (by decide))).trans pair
  have own' : pktMod p = (s.settled p t).partner :=
    own.trans (regs.fget SPARE_PAIR.PARTNER (by decide) (by decide) (by decide)).symm
  rw [State.fromPartner, decide_eq_true type, State.when_true, h.arriveMsg, pair', decide_eq_true own', Bool.and_self]
  exact if_pos rfl

theorem State.Takes.settled_role (h : s.Takes p t) (type : PH.TYPE.of p.hdr = tyMGMT) : (s.settled p t).role = s.role :=
  (h.settled_pair type).1.fget SPARE_PAIR_STATE.ROLE (by decide) (by decide) (by decide)

theorem State.Takes.settled_count (h : s.Takes p t) (type : PH.TYPE.of p.hdr = tyMGMT) : (s.settled p t).count = s.count :=
  (h.settled_pair type).1.fget TIME_COUNT.COUNT (by decide) (by decide) (by decide)

end

/-! ## The lease (R621 to R625) -/

section
variable {s : State}

/-- A STANDBY is armed by a RENEW, and grants it. -/
theorem State.takeRenew_standby (b : List Byte) (standby : s.role = 2) : s.takeRenew b =
    ({ s with spare := { s.spare with lastRx := s.count, seen := leAt b 0 8 } }.fset SPARE_PAIR_STATE.ARMED 0 1).toPartner
      (slice b 0 8 ++ slice b 16 4) := by
  rw [State.takeRenew, standby]
  rfl

/-- A PRIMARY whose one open RENEW is granted holds the lease to 7 ms after it was sent. -/
theorem State.takeGrant_primary {b : List Byte} {n c : Nat} (primary : s.role = 1) (open_ : s.spare.renews = [(n, c)])
    (number : leAt b 8 4 = n) (stamp : leAt b 0 8 = c) : s.takeGrant b =
    { s with spare := { s.spare with
        granted := true, leaseEnd := max s.spare.leaseEnd (c + 7000000), renews := [] } }.fset SPARE_PAIR_STATE.LEASED 0 1 := by
  have found : (s.spare.renews.find? fun e => decide (e.1 = leAt b 8 4) && decide (e.2 = leAt b 0 8)) = some (n, c) := by
    simp [open_, number, stamp]
  have spent : (s.spare.renews.filter fun r => decide (c < r.2)) = [] := by simp [open_]
  rw [State.takeGrant, if_neg (by simp [primary]), found]
  simp only [spent]

theorem State.setRole_shows (s : State) {r : Nat} (armed : Bool) (fits : r < 8) : (s.setRole r armed).role = r ∧
    (s.setRole r armed).fget SPARE_PAIR_STATE.LEASED 0 = 0 ∧
    (s.setRole r armed).fget SPARE_PAIR_STATE.ARMED 0 = b2n armed % 2 ∧
    s.sameRegsBut (s.setRole r armed) [.SPARE_PAIR_STATE] := by
  unfold State.role State.setRole State.fput
  refine ⟨?_, ?_, State.fget_fset_same _ _ _ _, ?_⟩
  · simp (disch := decide) only [State.fget_fset_ne, State.fget_fset_same]
    exact Nat.mod_eq_of_lt fits
  · simp (disch := decide) only [State.fget_fset_ne, State.fget_fset_same]
    rfl
  · iterate 3 apply State.sameRegsBut.fset (hr := by decide) (hi := by decide) (hf := by decide)
    exact s.sameRegsBut_refl _

theorem State.becomePrimary_shows (s : State) : s.becomePrimary.role = 1 ∧ s.becomePrimary.spare.promoT = s.count ∧
    s.becomePrimary.spare.granted = false ∧ s.becomePrimary.fget SPARE_PAIR_STATE.LEASED 0 = 0 := by
  obtain ⟨role, leased, -, -⟩ := s.setRole_shows (r := 1) false (by decide)
  exact ⟨role, rfl, rfl, leased⟩

end

/-- Settles O16: the messages by what a settled one does, the timed steps by their conditions. -/
theorem mirrorPair : Obligations.MirrorPair := by
  refine ⟨?pairing, ?renew, ?renewed, ?grant, ?expiry, ?promotion, State.becomePrimary_shows⟩
  case pairing =>
    intro s w v reach free acts alone valid req
    have good : s.pairBad v = false := by simp [State.pairBad, alone]
    have row : exec (.sparePairWrite w v) s = .next (sparePairWriteStep w v s) := rfl
    rw [row, sparePairWriteStep, reach, State.when_true, State.regWrite_taken free acts good]
    simp only [valid, if_true, req, roleOf]
  case renew =>
    intro s hub pair primary due
    have row : exec .renewSend s = .next (renewSendStep s) := rfl
    rw [row, renewSendStep, hub, pair, decide_eq_true primary, decide_eq_true due]
    rfl
  case renewed =>
    intro s p t takes type pair own standby
    have row : exec (.renew p) s = .next (s.fromPartner p fun b s => s.takeRenew b) := rfl
    rw [row, takes.fromPartner type pair own, State.takeRenew_standby _ ((takes.settled_role type).trans standby),
      takes.settled_count type, (takes.settled_pair type).2]
  case grant =>
    intro s p t n c takes type pair own primary open_ number stamp
    have row : exec (.grant p) s = .next (s.fromPartner p fun b s => s.takeGrant b) := rfl
    have spare := (takes.settled_pair type).2
    rw [row, takes.fromPartner type pair own, State.takeGrant_primary ((takes.settled_role type).trans primary)
      (by rw [spare, open_]) number stamp, spare]
  case expiry =>
    intro s up primary granted over_
    have row : exec .leaseExpiry s = .next (leaseExpiryStep s) := rfl
    rw [row, leaseExpiryStep, up, decide_eq_true primary, granted, decide_eq_true over_]
    rfl
  case promotion =>
    intro s hub standby armed silent
    have row : exec .promotionTimeout s = .next (promotionTimeoutStep s) := rfl
    rw [row, promotionTimeoutStep, hub, decide_eq_true standby, armed, decide_eq_true silent]
    rfl

/-! ## Resynchronisation (R630 to R634) -/

section
variable {s : State} {w : Who} {v : Nat}

/-- What an accepted write to `SPARE_RESYNC` asks for. -/
def State.resyncAsked (s : State) (v : Nat) : State :=
  let s := if SPARE_RESYNC.GO.bit v then s.startResync else s
  if SPARE_RESYNC.SWITCH.bit v && s.fon SPARE_RESYNC.BUSY 0 then s.startSwitch else s

theorem State.resyncAsked_go (go : SPARE_RESYNC.GO.bit v = true) (stay : SPARE_RESYNC.SWITCH.bit v = false) :
    s.resyncAsked v = s.startResync := by
  rw [State.resyncAsked, go, stay]
  rfl

theorem State.resyncAsked_switch (stay : SPARE_RESYNC.GO.bit v = false) (switch : SPARE_RESYNC.SWITCH.bit v = true)
    (busy : s.fon SPARE_RESYNC.BUSY 0 = true) : s.resyncAsked v = s.startSwitch := by
  simp only [State.resyncAsked, stay, Bool.false_eq_true, if_false]
  rw [switch, busy]
  rfl

theorem spareResyncWrite_taken (reach : s.reaches w = true) (free : s.barred w .SPARE_RESYNC 0 v = .none)
    (acts : s.isStatus .SPARE_RESYNC 0 v = false) (good : s.resyncBad v = false) :
    spareResyncWrite w v s = ((s.clrW1C .SPARE_RESYNC 0 v).putRW .SPARE_RESYNC 0 v).resyncAsked v := by
  rw [spareResyncWrite, reach, State.when_true, State.regWrite_taken free acts good]
  rfl

/-- The state as the hubs' talk of the partner's role leaves it. -/
def State.withPartner (s : State) (role : Nat) : State := { s with spare := { s.spare with partnerRole := role } }

theorem State.resyncBad_accepted (member : s.role = 1 ∨ s.role = 2) (idle : s.fon SPARE_RESYNC.BUSY 0 = false) :
    (s.withPartner 4).resyncBad v = false := by
  have role : (decide ((s.withPartner 4).role = 1) || decide ((s.withPartner 4).role = 2)) = true := by
    rw [Bool.or_eq_true, decide_eq_true_eq, decide_eq_true_eq]
    exact member
  have busy : (s.withPartner 4).fon SPARE_RESYNC.BUSY 0 = false := idle
  have partner : (s.withPartner 4).spare.partnerRole = 4 := rfl
  simp [State.resyncBad, role, busy, partner]

/-- Fields at different bits have different keys, whatever their places. -/
theorem Fld.key_ne_lsb {f g : Fld} (i j : Nat) (hf : f.lsb < 1024) (hg : g.lsb < 1024) (h : f.lsb ≠ g.lsb) : f.key i ≠ g.key j := by
  simp only [Fld.key]
  omega

/-- The list of frames is in registers of its own. -/
theorem State.listFrames_fset (s : State) {f : Fld} (x : Nat) (low : f.lsb < 1024) (first : SPARE_RSLIST.FIRST.lsb ≠ f.lsb)
    (last : SPARE_RSLIST.LAST.lsb ≠ f.lsb) (count : SPARE_RESYNC.NLIST_M1.key 0 ≠ f.key 0) :
    (s.fset f 0 x).listFrames = s.listFrames := by
  have firsts (j : Nat) : (s.fset f 0 x).fget SPARE_RSLIST.FIRST j = s.fget SPARE_RSLIST.FIRST j :=
    s.fget_fset_ne f _ 0 j x (Fld.key_ne_lsb j 0 (by decide) low first)
  have lasts (j : Nat) : (s.fset f 0 x).fget SPARE_RSLIST.LAST j = s.fget SPARE_RSLIST.LAST j :=
    s.fget_fset_ne f _ 0 j x (Fld.key_ne_lsb j 0 (by decide) low last)
  unfold State.listFrames
  simp only [firsts, lasts, s.fget_fset_ne f _ 0 0 x count]

theorem State.startResync_shows (s : State) : s.startResync.fget SPARE_PAIR_STATE.SRC 0 = 1 ∧
    s.startResync.fget SPARE_RESYNC.BUSY 0 = 1 ∧ s.startResync.spare.toCopy = s.listFrames ∧ s.startResync.mem.dirty = [] := by
  have list : ((s.fset SPARE_RESYNC.BUSY 0 1).fset SPARE_PAIR_STATE.SRC 0 1).listFrames = s.listFrames :=
    (State.listFrames_fset _ 1 (by decide) (by decide) (by decide) (by decide)).trans
      (State.listFrames_fset s 1 (by decide) (by decide) (by decide) (by decide))
  have source : ((s.fset SPARE_RESYNC.BUSY 0 1).fset SPARE_PAIR_STATE.SRC 0 1).fget SPARE_PAIR_STATE.SRC 0 = 1 :=
    State.fget_fset_lt _ _ 0 1 (by decide)
  have busy : ((s.fset SPARE_RESYNC.BUSY 0 1).fset SPARE_PAIR_STATE.SRC 0 1).fget SPARE_RESYNC.BUSY 0 = 1 :=
    (State.fget_fset_ne _ _ _ 0 0 1 (by decide)).trans (State.fget_fset_lt _ _ 0 1 (by decide))
  exact ⟨(State.fget_fset_ne _ _ _ 0 0 _ (by decide)).trans source, (State.fget_fset_ne _ _ _ 0 0 _ (by decide)).trans busy,
    list, rfl⟩

/-- The next frame of the list goes out under its governing entry. -/
theorem State.sendFrame_next {f : Nat} {r : List Nat} (next : s.spare.toCopy = f :: r)
    (may : s.checkFrame ⟨s.listPart f, s.fget SEC_PART.PWORLD (s.listPart f), none, 5⟩ MEM_RGN.RD f = 0) : s.sendFrame =
      { s with spare := { s.spare with toCopy := r, progT := s.time.now, frameT := s.time.now + s.frameNs } }.setDirty.beginHub
        (mkXfer .hub none 0 s.partner 0 tyMGMT (s.listPart f) (s.fget SEC_PART.PWORLD (s.listPart f)) (f * 2097152) 2097152
          (.dm (s.listPart f) (s.fget SEC_PART.PWORLD (s.listPart f)) (f * 2097152))) := by
  have place : f <<< 21 = f * 2097152 := Nat.shiftLeft_eq f 21
  have partner (u : State) : u.setDirty.partner = u.partner := u.fget_fset_ne _ _ 0 0 _ (by decide)
  unfold State.sendFrame
  rw [next]
  dsimp only
  rw [may, place, partner]
  rfl

/-- The resynchronisation of a source that made no progress fails. -/
theorem State.resyncFail_source (busy : s.fon SPARE_RESYNC.BUSY 0 = true) : s.resyncFail =
    ({ ((s.fset SPARE_RESYNC.FAIL 0 1).fset SPARE_RESYNC.BUSY 0 0).fset SPARE_PAIR_STATE.SRC 0 0 with
      spare := { s.spare with toCopy := [], switching := false }
      mem := { s.mem with dirty := [] }
      cfe := { s.cfe with holdParts := [] } }).log { code := 0x0308, data := s.partner + (s.spare.seen <<< 14) } := by
  unfold State.resyncFail
  rw [busy]
  rfl

/-- The source's part of the end: it is no source any more, and its launches are released. -/
theorem resyncSwitchDone_source (s : State) : ∀ t,
    t = { (((s.fset SPARE_RESYNC.DONE 0 1).fset SPARE_RESYNC.BUSY 0 0).fset SPARE_PAIR_STATE.SRC 0 0) with
      spare := { s.spare with switching := false, partnerRole := 2 }, cfe := { s.cfe with holdParts := [] } } →
    t.fget SPARE_RESYNC.DONE 0 = 1 ∧ t.fget SPARE_RESYNC.BUSY 0 = 0 ∧ t.fget SPARE_PAIR_STATE.SRC 0 = 0 ∧ t.cfe.holdParts = [] ∧
    t.spare.switching = false := by
  rintro t rfl
  refine ⟨?_, ?_, State.fget_fset_lt _ SPARE_PAIR_STATE.SRC 0 0 (by decide), rfl, rfl⟩
  · rw [State.fget_mk]
    exact (State.fget_fset_ne _ SPARE_PAIR_STATE.SRC SPARE_RESYNC.DONE 0 0 0 (by decide)).trans
      ((State.fget_fset_ne _ _ _ 0 0 0 (by decide)).trans (State.fget_fset_lt _ _ 0 1 (by decide)))
  · rw [State.fget_mk]
    exact (State.fget_fset_ne _ SPARE_PAIR_STATE.SRC SPARE_RESYNC.BUSY 0 0 0 (by decide)).trans
      (State.fget_fset_lt _ _ 0 0 (by decide))

end

/-- Settles O17: the writes by what an accepted one asks for, the rest by their conditions. -/
theorem resynchronisation : Obligations.Resynchronisation := by
  refine ⟨?go, State.startResync_shows, ?frame, ?again, ?switch, ?target, ?source, ?fail⟩
  case go =>
    intro s w v reach free acts go stay member idle
    have run : spareResyncWrite w v (s.withPartner 4) = _ :=
      spareResyncWrite_taken (s := s.withPartner 4) reach free acts (State.resyncBad_accepted member idle)
    exact congrArg _ ((if_pos go).trans (run.trans (State.resyncAsked_go go stay)))
  case frame =>
    intro s f r live busy due next part world may
    have row : exec (.resyncFrame none) s = .next (resyncFrameStep none s) := rfl
    rw [row, resyncFrameStep, live, busy, decide_eq_true due]
    exact congrArg _ (State.sendFrame_next next may)
  case again =>
    intro s live busy copied dirty
    have row : exec .resyncPass s = .next (resyncPassStep s) := rfl
    rw [row, resyncPassStep, live, busy, copied, List.isEmpty_eq_false_iff.mpr dirty]
    rfl
  case switch =>
    intro s w v reach free acts stay switch u busy
    have good : s.resyncBad v = false := by simp [State.resyncBad, stay]
    exact congrArg _ ((if_pos switch).trans
      ((spareResyncWrite_taken reach free acts good).trans (State.resyncAsked_switch stay switch busy)))
  case target =>
    intro s src dst hub target
    obtain ⟨role, -, armed, regs⟩ := (s.takeStreams src dst).setRole_shows (r := 2) false (by decide)
    refine ⟨_, congrArg Host.Outcome.next (if_pos (by rw [hub, decide_eq_true target]; rfl)), role, armed,
      List.length_map _, regs.fget TIME_COUNT.COUNT (by decide) (by decide) (by decide), regs, rfl⟩
  case source =>
    intro s live ready
    exact ⟨_, congrArg Host.Outcome.next (if_pos (by rw [live, ready]; rfl)), resyncSwitchDone_source _ _ rfl⟩
  case fail =>
    intro s hub busy late
    have row : exec (.resyncFail false) s = .next (resyncFailStep false s) := rfl
    rw [row, resyncFailStep, hub, busy, decide_eq_true late]
    exact congrArg _ (State.resyncFail_source busy)

end Sys2Proof.Machine
end

section
/-! # Key agreement on optical links (R747 to R753) -/
set_option autoImplicit false
namespace Sys2Proof.Machine

section
variable {s t : State} {p : Nat} {a : Agree} {b h : List Byte} (hub : s.hubUp = true) (agreeing : s.agreeing p = some a)

/-! ## HELLO (R747, R748) -/

section
variable (waits : a.theirs = none) (length : b.length = 95)

include hub agreeing waits

/-- A key that `SEC_LPEER` does not expect ends the agreement. -/
theorem helloStep_refused (bound : a.any = false) (other : ofLE (sha256 (helloKey b)) ≠ a.hash) : helloStep p b s = s.linkFail p := by
  unfold helloStep
  rw [hub, State.when_true, agreeing]
  dsimp only
  rw [waits]
  exact if_pos (Or.inr ⟨bound, other⟩)

include length in
/-- An expected key is taken by this end of the link as its side of the agreement has it. -/
theorem helloStep_expected (expected : a.any = true ∨ ofLE (sha256 (helloKey b)) = a.hash) : helloStep p b s =
    if s.initiates p then
      match s.drew.sign (a.mine ++ b ++ fixLen 1568 (Config.kemKey (s.secret 64))) with
      | none => s.drew.linkFail p
      | some (sig, t) => (t.setLp p { t.lp p with agree := some { a with
          theirs := some b, seed := s.secret 64, log := a.mine ++ b ++ fixLen 1568 (Config.kemKey (s.secret 64)) ++ sig } }).keysMsg p 2
            (fixLen 1568 (Config.kemKey (s.secret 64)) ++ sig)
    else s.setLp p { s.lp p with agree := some { a with theirs := some b, log := b ++ a.mine } } := by
  have good : ¬ (b.length ≠ 95 ∨ (a.any = false ∧ ofLE (sha256 (helloKey b)) ≠ a.hash)) := by
    rintro (short | ⟨bound, other⟩)
    · exact short length
    · exact expected.elim (by simp [bound]) other
  unfold helloStep
  rw [hub, State.when_true, agreeing]
  dsimp only
  rw [waits]
  exact if_neg good

end

/-! ## ENCAPSULATION_KEY and KEM_CIPHERTEXT (R748, R749) -/

section
variable {x sig : List Byte} (heard : a.theirs = some h) (open_ : a.shared = []) (length : x.length = 1568)

include hub agreeing heard open_

theorem encapsulationKeyStep_forged (responds : s.initiates p = false) (forged : hssVerify (helloKey h) (a.log ++ x) sig = false) :
    encapsulationKeyStep p x sig s = s.linkFail p := by
  unfold encapsulationKeyStep
  rw [hub, responds, Bool.not_false, Bool.and_self, State.when_true, agreeing]
  dsimp only
  rw [heard]
  exact (if_neg (not_not.mpr open_)).trans (if_pos (Or.inr forged))

include length in
theorem encapsulationKeyStep_verified {mine : List Byte} (responds : s.initiates p = false)
    (verified : hssVerify (helloKey h) (a.log ++ x) sig = true)
    (signed : s.drew.sign (a.log ++ x ++ sig ++ fixLen 1568 (Config.kemEncaps x (s.secret 32)).1) = some (mine, t)) :
    encapsulationKeyStep p x sig s =
      (t.keysMsg p 3 (fixLen 1568 (Config.kemEncaps x (s.secret 32)).1 ++ mine)).sendFinished p { a with
        log := a.log ++ x ++ sig ++ fixLen 1568 (Config.kemEncaps x (s.secret 32)).1 ++ mine
        shared := fixLen 32 (Config.kemEncaps x (s.secret 32)).2 } := by
  unfold encapsulationKeyStep
  rw [hub, responds, Bool.not_false, Bool.and_self, State.when_true, agreeing]
  dsimp only
  rw [heard]
  dsimp only
  rw [if_neg (not_not.mpr open_), if_neg (by simp [length, verified]), signed]

theorem kemCiphertextStep_forged (initiates : s.initiates p = true) (forged : hssVerify (helloKey h) (a.log ++ x) sig = false) :
    kemCiphertextStep p x sig s = s.linkFail p := by
  unfold kemCiphertextStep
  rw [hub, initiates, Bool.and_self, State.when_true, agreeing]
  dsimp only
  rw [heard]
  exact (if_neg (not_not.mpr open_)).trans (if_pos (Or.inr forged))

include length in
theorem kemCiphertextStep_verified (initiates : s.initiates p = true) (verified : hssVerify (helloKey h) (a.log ++ x) sig = true) :
    kemCiphertextStep p x sig s =
      s.sendFinished p { a with log := a.log ++ x ++ sig, shared := fixLen 32 (Config.kemDecaps a.seed x) } := by
  unfold kemCiphertextStep
  rw [hub, initiates, Bool.and_self, State.when_true, agreeing]
  dsimp only
  rw [heard]
  exact (if_neg (not_not.mpr open_)).trans (if_neg (by simp [length, verified]))

end

/-! ## FINISHED (R749, R750) -/

include hub agreeing in
theorem finishedStep_checked (heard : a.theirs = some h) (shared : a.shared ≠ []) : finishedStep p b s =
    if b = hmac (a.key "ETIEN FIN" h) a.log then
      (s.sessionBegin p (a.key "ETIEN LINK" a.mine) (a.key "ETIEN LINK" h)).afterKeys p
    else s.linkFail p := by
  unfold finishedStep
  rw [hub, State.when_true, agreeing]
  dsimp only
  rw [heard]
  exact if_neg shared

/-! ## LINK_REKEY (R753) -/

include hub in
theorem linkRekeyStep_due (optical : isG p = true) (runs : s.stage p = 8)
    (due : 2 ^ 36 ≤ tget s.fab.linkTx p 0 ∨ 2 ^ 36 ≤ tget s.fab.linkRx p 0 ∨ tget s.fab.linkT p 0 + 86400000000000 ≤ s.count) :
    linkRekeyStep p s = (s.notice p 0x0C 0).trainStart p true false := by
  have spent : (decide (2 ^ 36 ≤ tget s.fab.linkTx p 0) || decide (2 ^ 36 ≤ tget s.fab.linkRx p 0) ||
      decide (tget s.fab.linkT p 0 + 86400000000000 ≤ s.count)) = true := by
    simp only [Bool.or_eq_true, decide_eq_true_eq]
    exact or_assoc.mpr due
  rw [linkRekeyStep, hub, optical, decide_eq_true runs, spent]
  rfl

end

/-- Settles O46: each message by the checks that its premises pass or fail. -/
theorem linkSessions : Obligations.LinkSessions := by
  refine ⟨?hello, ?key, ?ciphertext, ?finished, ?rekey⟩
  case hello =>
    intro s p a b hp hub agreeing waits length
    refine ⟨fun expected => ?_, fun bound other => need_port hp (helloStep_refused hub agreeing waits bound other)⟩
    have taken := helloStep_expected hub agreeing waits length expected
    refine ⟨fun responds => ?_, ?_⟩
    · exact need_port hp (taken.trans (if_neg (by simp [responds])))
    · intro t sig initiates ek log signed
      exact need_port hp (taken.trans ((if_pos initiates).trans (by rw [signed])))
  case key =>
    intro s t p a h ek sig mine hp hub agreeing heard open_ responds length
    refine ⟨fun forged => ?_, ?_⟩
    · exact need_port hp (encapsulationKeyStep_forged hub agreeing heard open_ responds forged)
    · intro verified c log signed
      exact need_port hp (encapsulationKeyStep_verified hub agreeing heard open_ length responds verified signed)
  case ciphertext =>
    intro s p a h ct sig hp hub agreeing heard open_ initiates length
    refine ⟨fun forged => ?_, fun verified => ?_⟩
    · exact need_port hp (kemCiphertextStep_forged hub agreeing heard open_ initiates forged)
    · exact need_port hp (kemCiphertextStep_verified hub agreeing heard open_ length initiates verified)
  case finished =>
    intro s p a h b hp hub agreeing heard shared
    have checked := finishedStep_checked (b := b) hub agreeing heard shared
    exact ⟨fun right => need_port hp (checked.trans (if_pos right)), fun wrong => need_port hp (checked.trans (if_neg wrong))⟩
  case rekey =>
    intro s p low hp hub runs due
    exact need_port hp (linkRekeyStep_due hub (by simp [isG, low, hp]) runs due)

end Sys2Proof.Machine
end

section
/-! # The end of a security command, cluster worlds and the entropy source (R731, R732, R737 to R744) -/
set_option autoImplicit false
namespace Sys2Proof.Machine

/-! ## BUSY falls (R737, R740) -/

section
variable (s : State) (r : SecRun)

theorem State.secBusy_parts (b : Nat) : (∃ g, s.secBusy r b = { s with regs := g }) ∧
    s.sameRegsBut (s.secBusy r b) [.SEC_PART] ∧
    ∀ (f : Fld) (j : Nat), f.lsb < 1024 → f.lsb ≠ SEC_PART.BUSY.lsb → (s.secBusy r b).fget f j = s.fget f j := by
  have beside (t : State) (i : Nat) (f : Fld) (j : Nat) (low : f.lsb < 1024) (ne : f.lsb ≠ SEC_PART.BUSY.lsb) :
      (t.fset SEC_PART.BUSY i b).fget f j = t.fget f j :=
    t.fget_fset_ne _ f i j b (Fld.key_ne_lsb j i low (by decide) ne)
  have kept (t : State) (i : Nat) (hi : i < 16) : t.sameRegsBut (t.fset SEC_PART.BUSY i b) [.SEC_PART] :=
    t.sameRegsBut_fset (by decide) (by omega) (by decide)
  unfold State.secBusy
  split <;> rename_i source <;> split <;> rename_i target
  · exact ⟨⟨_, rfl⟩, State.sameRegsBut_trans (kept s _ source.2) (kept _ _ target.2),
      fun f j low ne => (beside _ _ f j low ne).trans (beside _ _ f j low ne)⟩
  · exact ⟨⟨_, rfl⟩, kept s _ source.2, fun f j low ne => beside _ _ f j low ne⟩
  · exact ⟨⟨_, rfl⟩, kept s _ target.2, fun f j low ne => beside _ _ f j low ne⟩
  · exact ⟨⟨_, rfl⟩, s.sameRegsBut_refl _, fun f j _ _ => rfl⟩

theorem State.secBusy_target {r : SecRun} (op : r.op ≤ 6) (dst : r.dst < 16) :
    (s.secBusy r 0).fget SEC_PART.BUSY r.dst = 0 := by
  unfold State.secBusy
  rw [if_pos ⟨op, dst⟩]
  exact State.fget_fset_lt _ _ _ _ (by decide)

/-- The running command is over: nothing it acted on shows `BUSY` any more, and it shows `DONE`. -/
def State.secEnded (s : State) (r : SecRun) : State :=
  ((({ s with sec := { s.sec with run := none } }).secBusy r 0).fset SEC_CMD.BUSY 0 0).fset SEC_CMD.DONE 0 1

/-- What the end of a command leaves. -/
theorem State.secEnded_parts : (∃ g, s.secEnded r = { s with regs := g, sec := { s.sec with run := none } }) ∧
    s.sameRegsBut (s.secEnded r) [.SEC_PART, .SEC_CMD] ∧ (s.secEnded r).fget SEC_CMD.BUSY 0 = 0 ∧
    (s.secEnded r).fget SEC_CMD.DONE 0 = 1 ∧ (s.secEnded r).fget SEC_CMD.CODE 0 = s.fget SEC_CMD.CODE 0 := by
  obtain ⟨⟨g, eq⟩, regs, -⟩ := State.secBusy_parts { s with sec := { s.sec with run := none } } r 0
  have ends : ({ s with sec := { s.sec with run := none } } : State).sameRegsBut (s.secEnded r) [.SEC_PART, .SEC_CMD] := by
    unfold State.secEnded
    iterate 2 apply State.sameRegsBut.fset (hr := by decide) (hi := by decide) (hf := by decide)
    exact State.sameRegsBut_mono regs (by decide)
  refine ⟨⟨_, by rw [State.secEnded, eq]; rfl⟩, State.sameRegsBut_trans (State.sameRegsBut_of_regs _ rfl) ends, ?_,
    State.fget_fset_lt _ SEC_CMD.DONE 0 1 (by decide), ?_⟩
  · exact (State.fget_fset_ne _ _ SEC_CMD.BUSY 0 0 1 (by decide)).trans (State.fget_fset_lt _ _ 0 0 (by decide))
  · exact (State.fget_fset_ne _ SEC_CMD.DONE SEC_CMD.CODE 0 0 1 (by decide)).trans
      ((State.fget_fset_ne _ SEC_CMD.BUSY SEC_CMD.CODE 0 0 0 (by decide)).trans
        (regs.fget SEC_CMD.CODE (by decide) (by decide) (by decide)))

/-- A partition's fields beside `BUSY` stand as the command left them. -/
theorem State.secEnded_part {f : Fld} (own : f ∈ Reg.SEC_PART.fields) (ne : f.lsb ≠ SEC_PART.BUSY.lsb) {j : Nat} (hj : j < 16) :
    (s.secEnded r).fget f j = s.fget f j := by
  obtain ⟨reg, low⟩ := Reg.fields_ok _ f own
  obtain ⟨-, -, beside⟩ := State.secBusy_parts { s with sec := { s.sec with run := none } } r 0
  have other (t : State) (v : Nat) (g : Fld) (hg : g.reg = .SEC_CMD) (lg : g.lsb < 1024) : (t.fset g 0 v).fget f j = t.fget f j :=
    t.fget_fset_reg (by rw [reg, hg]; decide) (by decide) (by omega) lg low
  exact (other _ 1 SEC_CMD.DONE rfl (by decide)).trans ((other _ 0 SEC_CMD.BUSY rfl (by decide)).trans (beside f j low ne))

theorem State.secEnded_target {r : SecRun} (op : r.op ≤ 6) (dst : r.dst < 16) :
    (s.secEnded r).fget SEC_PART.BUSY r.dst = 0 := by
  have other (t : State) (v : Nat) (g : Fld) (hg : g.reg = .SEC_CMD) (lg : g.lsb < 1024) :
      (t.fset g 0 v).fget SEC_PART.BUSY r.dst = t.fget SEC_PART.BUSY r.dst :=
    t.fget_fset_reg (by rw [hg]; decide) (by decide) (by omega) lg (by decide)
  exact (other _ 1 SEC_CMD.DONE rfl (by decide)).trans
    ((other _ 0 SEC_CMD.BUSY rfl (by decide)).trans (State.secBusy_target _ op dst))

end

/-! ## A command's effect (R740) -/

section
variable {s : State} {r : SecRun}

theorem secCmdDoneStep_run (run : s.sec.run = some r) (hub : s.hubUp = true) : secCmdDoneStep s =
    (if s.needsKeys r && !s.fon SEC_LIFE.TRNG_OK 0 then s.secFail r else (s.secEffect r).fset SEC_CMD.CODE 0 0).secEnded r := by
  rw [secCmdDoneStep, run]
  exact if_pos hub

/-- Commands other than PART_CLOSE, SCRUB, SET_DL and UNLOCK scrub nothing. -/
theorem State.scrubs_not (h : r.op ≠ 2 ∧ r.op ≠ 4 ∧ r.op ≠ 5 ∧ r.op ≠ 6) : s.scrubs r = false := by
  simp [State.scrubs, h]

theorem State.secEffect_open (op : r.op = 1) : s.secEffect r =
    ((s.fset SEC_PART.VALID r.dst 1).fset SEC_PART.PWORLD r.dst (r.index % 2)).fset SEC_PART.DL r.dst 0 := by
  rw [State.secEffect, op, State.scrubs_not (by omega)]
  rfl

theorem State.secEffect_moveContext (op : r.op = 3) (kind : r.kind = 1) (src : r.src < 16) (dst : r.dst < 16) :
    s.secEffect r = (s.fset SEC_PART.CTXM r.src (s.fget SEC_PART.CTXM r.src - 2 ^ r.index)).fset SEC_PART.CTXM r.dst
      ((s.fset SEC_PART.CTXM r.src (s.fget SEC_PART.CTXM r.src - 2 ^ r.index)).fget SEC_PART.CTXM r.dst + 2 ^ r.index) := by
  rw [State.secEffect, op, State.scrubs_not (by omega)]
  simp only [Bool.false_eq_true, if_false, State.moveWipe, State.moveMask, kind, maskFld, if_pos src, if_pos dst]

theorem State.secEffect_setDl (op : r.op = 5) (still : s.scrubs r = false) (rises : s.fget SEC_PART.DL r.dst ≤ r.dl) :
    s.secEffect r = (if r.dl = 3 then s.fset SEC_PART.DL r.dst r.dl
      else (s.fset SEC_PART.DL r.dst r.dl).fset SEC_PART.DL3_TOKEN r.dst 0) := by
  rw [State.secEffect, op, still]
  exact if_neg (Nat.not_lt.mpr rises)

theorem State.secEffect_unlock (op : r.op = 6) :
    ∃ u : State, s.secEffect r = (u.fset SEC_PART.DL r.dst 3).fset SEC_PART.DL3_TOKEN r.dst 1 := by
  rw [State.secEffect, op]
  exact ⟨_, rfl⟩

theorem State.secEffect_lock (op : r.op = 7) : s.secEffect r = s.fset SEC_LIFE.OWNER_LOCK 0 1 := by
  rw [State.secEffect, op, State.scrubs_not (by omega)]
  rfl

theorem State.secEffect_bind (op : r.op = 8) :
    s.secEffect r = { s with fuse := { s.fuse with ohash := some r.ohash } }.showFuses := by
  rw [State.secEffect, op, State.scrubs_not (by omega)]
  rfl

theorem State.secEffect_lifecycle (op : r.op = 9) :
    s.secEffect r = { s with fuse := { s.fuse with lcs := r.lcs } }.showFuses := by
  rw [State.secEffect, op, State.scrubs_not (by omega)]
  rfl

/-- The state that a command with its keys leaves at its end. -/
def State.secOver (s : State) (r : SecRun) : State := ((s.secEffect r).fset SEC_CMD.CODE 0 0).secEnded r

theorem State.secOver_parts (s : State) (r : SecRun) :
    ∃ g, s.secOver r = { s.secEffect r with regs := g, sec := { (s.secEffect r).sec with run := none } } := by
  obtain ⟨⟨g, eq⟩, -⟩ := ((s.secEffect r).fset SEC_CMD.CODE 0 0).secEnded_parts r
  exact ⟨g, eq⟩

theorem State.secOver_part (s : State) (r : SecRun) {f : Fld} (own : f ∈ Reg.SEC_PART.fields)
    (ne : f.lsb ≠ SEC_PART.BUSY.lsb) {j : Nat} (hj : j < 16) : (s.secOver r).fget f j = (s.secEffect r).fget f j := by
  obtain ⟨reg, low⟩ := Reg.fields_ok _ f own
  exact (State.secEnded_part _ r own ne hj).trans
    (State.fget_fset_reg _ (by rw [reg]; decide) (by decide) (by omega) (by decide) low)

theorem State.secOver_shows (s : State) (r : SecRun) : (s.secOver r).sec.run = none ∧ (s.secOver r).fget SEC_CMD.BUSY 0 = 0 ∧
    (s.secOver r).fget SEC_CMD.DONE 0 = 1 ∧ (s.secOver r).fget SEC_CMD.CODE 0 = 0 := by
  obtain ⟨⟨g, eq⟩, -, busy, done, code⟩ := ((s.secEffect r).fset SEC_CMD.CODE 0 0).secEnded_parts r
  exact ⟨by rw [State.secOver, eq], busy, done, code.trans (State.fget_fset_lt _ _ 0 0 (by decide))⟩

/-! ## What each command has done at its end (R740) -/

theorem State.secOver_open (op : r.op = 1) (dst : r.dst < 16) : (s.secOver r).fget SEC_PART.VALID r.dst = 1 ∧
    (s.secOver r).fget SEC_PART.PWORLD r.dst = r.index % 2 ∧ (s.secOver r).fget SEC_PART.DL r.dst = 0 ∧
    (s.secOver r).fget SEC_PART.BUSY r.dst = 0 := by
  refine ⟨?_, ?_, ?_, State.secEnded_target _ (by omega) dst⟩
  · rw [s.secOver_part r (by decide) (by decide) dst, State.secEffect_open op,
      State.fget_fset_beside _ _ _ (by decide) (by decide) (by decide),
      State.fget_fset_beside _ _ _ (by decide) (by decide) (by decide), State.fget_fset_lt _ _ _ _ (by decide)]
  · rw [s.secOver_part r (by decide) (by decide) dst, State.secEffect_open op,
      State.fget_fset_beside _ _ _ (by decide) (by decide) (by decide)]
    exact State.fget_fset_lt _ SEC_PART.PWORLD _ _ (Nat.mod_lt _ (by decide))
  · rw [s.secOver_part r (by decide) (by decide) dst, State.secEffect_open op, State.fget_fset_lt _ _ _ _ (by decide)]

theorem State.secOver_moveContext (op : r.op = 3) (kind : r.kind = 1) (src : r.src < 16) (dst : r.dst < 16) (ne : r.src ≠ r.dst) :
    (s.secOver r).fget SEC_PART.CTXM r.src = (s.fget SEC_PART.CTXM r.src - 2 ^ r.index) % 2 ^ 256 ∧
    (s.secOver r).fget SEC_PART.CTXM r.dst = (s.fget SEC_PART.CTXM r.dst + 2 ^ r.index) % 2 ^ 256 ∧
    (s.secOver r).mem = s.mem ∧ (s.secOver r).core = s.core := by
  have effect := State.secEffect_moveContext (s := s) op kind src dst
  obtain ⟨g, parts⟩ := s.secOver_parts r
  refine ⟨?_, ?_, by rw [parts, effect]; rfl, by rw [parts, effect]; rfl⟩
  · rw [s.secOver_part r (by decide) (by decide) src, effect,
      State.fget_fset_place _ _ (by decide) (by decide) (by omega) (by omega) ne.symm, State.fget_fset_same]
    rfl
  · rw [s.secOver_part r (by decide) (by decide) dst, effect, State.fget_fset_same,
      State.fget_fset_place _ _ (by decide) (by decide) (by omega) (by omega) ne]
    rfl

theorem State.secOver_setDl (op : r.op = 5) (still : s.scrubs r = false) (rises : s.fget SEC_PART.DL r.dst ≤ r.dl) (dl : r.dl ≤ 3)
    (dst : r.dst < 16) : (s.secOver r).fget SEC_PART.DL r.dst = r.dl ∧ (s.secOver r).mem = s.mem ∧ (s.secOver r).core = s.core := by
  have effect := State.secEffect_setDl op still rises
  have fits : r.dl < 2 ^ SEC_PART.DL.w := Nat.lt_of_le_of_lt dl (by decide)
  obtain ⟨g, parts⟩ := s.secOver_parts r
  refine ⟨?_, ?_, ?_⟩
  · rw [s.secOver_part r (by decide) (by decide) dst, effect]
    split
    · exact State.fget_fset_lt _ _ _ _ fits
    · exact (State.fget_fset_beside _ _ _ (by decide) (by decide) (by decide)).trans (State.fget_fset_lt _ _ _ _ fits)
  · rw [parts, effect]; split <;> rfl
  · rw [parts, effect]; split <;> rfl

theorem State.secOver_unlock (op : r.op = 6) (dst : r.dst < 16) :
    (s.secOver r).fget SEC_PART.DL r.dst = 3 ∧ (s.secOver r).fget SEC_PART.DL3_TOKEN r.dst = 1 := by
  obtain ⟨u, effect⟩ := State.secEffect_unlock (s := s) op
  refine ⟨?_, ?_⟩
  · rw [s.secOver_part r (by decide) (by decide) dst, effect,
      State.fget_fset_beside _ _ _ (by decide) (by decide) (by decide), State.fget_fset_lt _ _ _ _ (by decide)]
  · rw [s.secOver_part r (by decide) (by decide) dst, effect, State.fget_fset_lt _ _ _ _ (by decide)]

theorem State.secOver_lock (op : r.op = 7) : (s.secOver r).fget SEC_LIFE.OWNER_LOCK 0 = 1 := by
  obtain ⟨-, kept, -⟩ := ((s.secEffect r).fset SEC_CMD.CODE 0 0).secEnded_parts r
  rw [State.secOver, kept.fget SEC_LIFE.OWNER_LOCK (by decide) (by decide) (by decide),
    State.fget_fset_ne _ _ _ _ _ _ (by decide), State.secEffect_lock op, State.fget_fset_lt _ _ _ _ (by decide)]

theorem State.secOver_bind (op : r.op = 8) : (s.secOver r).fuse.ohash = some r.ohash := by
  obtain ⟨g, parts⟩ := s.secOver_parts r
  rw [parts, State.secEffect_bind op]
  rfl

theorem State.secOver_lifecycle (op : r.op = 9) : (s.secOver r).fuse.lcs = r.lcs := by
  obtain ⟨g, parts⟩ := s.secOver_parts r
  rw [parts, State.secEffect_lifecycle op]
  rfl

/-! ## Cluster worlds (R731, R732) -/

theorem secClWorldWriteStep_s {k v : Nat} (reach : s.reaches .s = true)
    (acts : s.isStatus .SEC_CL_WORLD 0 (s.wordPut .SEC_CL_WORLD 0 k v) = false) : secClWorldWriteStep .s k v s =
      if (SEC_CL_WORLD.W.val (s.wordPut .SEC_CL_WORLD 0 k v) ^^^ s.fget SEC_CL_WORLD.W 0) &&& s.clustersHeld ≠ 0 then s.logC 0x0506
      else (s.clrW1C .SEC_CL_WORLD 0 (s.wordPut .SEC_CL_WORLD 0 k v)).putRW .SEC_CL_WORLD 0 (s.wordPut .SEC_CL_WORLD 0 k v) := by
  have free : s.barred .s .SEC_CL_WORLD 0 (s.wordPut .SEC_CL_WORLD 0 k v) = .none := (s.barred_s .SEC_CL_WORLD 0 _).trans rfl
  rw [secClWorldWriteStep, reach, State.when_true]
  dsimp only
  rw [State.regWriteOr_admitted free, acts]
  simp only [Bool.false_eq_true, if_false, decide_eq_true_eq]
  rfl

end

/-- Settles O48: the end of a command by `secOver`, whose effects stand one by one above. -/
theorem securityCommandsEnd : Obligations.SecurityCommandsEnd := by
  refine ⟨?done, ?world, fun s on => ⟨congrArg _ (if_pos on), congrArg _ (if_pos on)⟩⟩
  case done =>
    intro s r run hub ended
    have row : exec .secCmdDone s = .next (secCmdDoneStep s) := rfl
    have ends := secCmdDoneStep_run run hub
    refine ⟨fun needs dry => ?_, fun keys => ?_⟩
    · rw [row, ends, needs, dry]
      rfl
    · have given : (s.needsKeys r && !s.fon SEC_LIFE.TRNG_OK 0) = false := by
        rcases keys with none | entropy
        · rw [none, Bool.false_and]
        · rw [entropy, Bool.not_true, Bool.and_false]
      have over_ : exec .secCmdDone s = .next (s.secOver r) := by
        rw [row, ends, given]
        rfl
      obtain ⟨idle, busy, done, code⟩ := s.secOver_shows r
      exact ⟨over_, _, over_, idle, busy, done, code, State.secOver_open, State.secOver_moveContext, State.secOver_setDl,
        State.secOver_unlock, State.secOver_lock, State.secOver_bind, State.secOver_lifecycle⟩
  case world =>
    intro s k v hk reach full moved acts
    have taken := secClWorldWriteStep_s reach acts
    have row : exec (.secClWorldWrite .s k v) s = .next (secClWorldWriteStep .s k v s) := by
      have unit : exec (.secClWorldWrite .s k v) s = need (decide (k < 4)) (secClWorldWriteStep .s k v s) := rfl
      rw [unit, decide_eq_true hk, need_true]
    exact ⟨fun same => row.trans (congrArg _ (taken.trans (if_neg (not_not.mpr same)))),
      fun moves => row.trans (congrArg _ (taken.trans (if_pos moves)))⟩

end Sys2Proof.Machine
end

section
/-! # SPDM requests and their answers (R754, R763 to R765, R834) -/
set_option autoImplicit false
namespace Sys2Proof.Machine

/-! ## A request in its order (R763) -/

/-- A request wakes the module and ends any chunked response. -/
def State.spdmTaken (s : State) : State := { s.wake with sec := { s.wake.sec with large := [] } }

section
variable {s : State} {b : List Byte} (up : s.mbUp = true) (eid : s.fget GCTL_MGMT.EID 0 ≠ 0)
include up eid

theorem State.mbReq_runs (k : State → State) : s.mbReq k = k s.wake := by
  rw [State.mbReq, up, decide_eq_true eid]
  rfl

section
variable {code : Nat} (is : leAt b 1 1 = code)
include is

/-- What becomes of a request of a code: its version is judged first, then its order. -/
theorem State.spdmReq_runs (inOrder : Bool) (k : State → State) : s.spdmReq b code inOrder k =
    if leAt b 0 1 ≠ (if code = 0x84 then 0x10 else 0x13) then s.spdmTaken.spdmError 0x41 0 []
    else if inOrder then k s.spdmTaken else s.spdmTaken.spdmError 4 0 [] := by
  rw [State.spdmReq, decide_eq_true is, State.when_true, State.mbReq_runs up eid]
  rfl

theorem State.spdmReq_version (other : code ≠ 0x84) (version : leAt b 0 1 ≠ 0x13) (inOrder : Bool) (k : State → State) :
    s.spdmReq b code inOrder k = s.spdmTaken.spdmError 0x41 0 [] :=
  (State.spdmReq_runs up eid is inOrder k).trans (if_pos (by rwa [if_neg other]))

section
variable (other : code ≠ 0x84) (version : leAt b 0 1 = 0x13)
include other version

theorem State.spdmReq_taken {inOrder : Bool} (order : inOrder = true) (k : State → State) :
    s.spdmReq b code inOrder k = k s.spdmTaken :=
  (State.spdmReq_runs up eid is inOrder k).trans ((if_neg (by rw [if_neg other]; exact not_not.mpr version)).trans (if_pos order))

theorem State.spdmReq_early {inOrder : Bool} (order : inOrder = false) (k : State → State) :
    s.spdmReq b code inOrder k = s.spdmTaken.spdmError 4 0 [] :=
  (State.spdmReq_runs up eid is inOrder k).trans
    ((if_neg (by rw [if_neg other]; exact not_not.mpr version)).trans (if_neg (by simp [order])))

end

end

theorem State.spdmReq_start (is : leAt b 1 1 = 0x84) (version : leAt b 0 1 = 0x10) (k : State → State) :
    s.spdmReq b 0x84 true k = k s.spdmTaken :=
  (State.spdmReq_runs up eid is true k).trans ((if_neg (by rw [if_pos rfl]; exact not_not.mpr version)).trans (if_pos rfl))

end

/-! ## The answers (R754, R764, R765, R834) -/

/-- A response that its session signs. -/
theorem State.spdmSign_signed {s t : State} {sig : List Byte} (context : String) (before b : List Byte) (k : State → State)
    (signed : s.sign (spdmSigned context (before ++ b)) = some (sig, t)) :
    s.spdmSign context before b k = (k t).spdmAnswer (b ++ sig) := by
  rw [State.spdmSign, signed]

/-- All the measurement blocks are asked for at once. -/
theorem State.measRecord_all (s : State) : s.measRecord 255 = some (13, s.allMeas) := rfl

section
variable {s : State} {b : List Byte} (up : s.mbUp = true) (eid : s.fget GCTL_MGMT.EID 0 ≠ 0)

/-- The chunk of the large response that goes out next. -/
def State.nextChunk (s : State) : List Byte := slice s.sec.large (s.sec.chunk * chunkLen) chunkLen

include up eid in
/-- CHUNK_GET in its place in the large response: `last` and `size` are what it says of the response's end and of its length. -/
theorem chunkGetStep_next (is : leAt b 1 1 = 0x86) (stands : s.wake.sec.large ≠ []) (handle : leAt b 3 1 = s.wake.sec.handle)
    (place : leAt b 4 2 = s.wake.sec.chunk) {last : Bool} {size : List Byte}
    (ends : decide (s.wake.sec.large.length ≤ (s.wake.sec.chunk + 1) * chunkLen) = last)
    (sized : (if s.wake.sec.chunk = 0 then leBytes 4 s.wake.sec.large.length else []) = size) : chunkGetStep b s =
      { s.wake with sec := { s.wake.sec with
          large := if last then [] else s.wake.sec.large, chunk := s.wake.sec.chunk + 1 } }.mgPut 4
        (spdmMsg 6 (b2n last) s.wake.sec.handle (leBytes 2 s.wake.sec.chunk ++ zeros 2 ++ leBytes 4 s.wake.nextChunk.length ++
          size ++ s.wake.nextChunk)) := by
  subst ends sized
  rw [chunkGetStep, decide_eq_true is, State.when_true, State.mbReq_runs up eid]
  exact if_neg (by simp [stands, handle, place])

end

/-- Settles O49: each request by the rule for its order, then what its row answers. -/
theorem attestationRequests : Obligations.AttestationRequests := by
  refine ⟨?requests, ?chunks, fun s b => ⟨fun whole => if_pos whole, fun large => if_neg (Nat.not_le.mpr large)⟩⟩
  case requests =>
    intro s b up eid u took
    refine ⟨?version, fun v13 => ⟨?capabilities, ?algorithms, ?connected, ?early⟩, ?wrong⟩
    case version => exact fun is v10 => congrArg Host.Outcome.next (State.spdmReq_start up eid is v10 _)
    case capabilities =>
      exact fun is first => congrArg Host.Outcome.next (State.spdmReq_taken up eid is (by decide) v13 (decide_eq_true first) _)
    case algorithms =>
      intro is second offers
      refine congrArg Host.Outcome.next ((State.spdmReq_taken up eid is (by decide) v13 (decide_eq_true second) _).trans ?_)
      simp only [offers, if_true, leBytes_length]
      rfl
    case connected =>
      intro third
      have order : s.spdmAt 3 = true := decide_eq_true third
      refine ⟨?digests, ?certificate, ?challenge, ?measurements, ?slot⟩
      case digests => exact fun is => congrArg Host.Outcome.next (State.spdmReq_taken up eid is (by decide) v13 order _)
      case certificate =>
        intro is slot within
        exact congrArg Host.Outcome.next ((State.spdmReq_taken up eid is (by decide) v13 order _).trans
          (if_neg (not_or.mpr ⟨not_not.mpr slot, Nat.not_le.mpr within⟩)))
      case challenge =>
        intro is slot r sig t signed
        exact congrArg Host.Outcome.next ((State.spdmReq_taken up eid is (by decide) v13 order _).trans
          ((if_neg (not_not.mpr slot)).trans (State.spdmSign_signed _ _ _ _ signed)))
      case measurements =>
        intro is plain all
        refine congrArg Host.Outcome.next ((State.spdmReq_taken up eid is (by decide) v13 order _).trans ?_)
        simp only [plain, all, State.measRecord_all]
        rfl
      case slot =>
        intro is slot
        exact congrArg Host.Outcome.next ((State.spdmReq_taken up eid is (by decide) v13 order _).trans (if_pos (.inl slot)))
    case early =>
      intro short
      have order : s.spdmAt 3 = false := decide_eq_false (Nat.not_le.mpr short)
      exact ⟨fun is => congrArg Host.Outcome.next (State.spdmReq_early up eid is (by decide) v13 order _),
        fun is => congrArg Host.Outcome.next (State.spdmReq_early up eid is (by decide) v13 order _),
        fun is => congrArg Host.Outcome.next (State.spdmReq_early up eid is (by decide) v13 order _),
        fun is => congrArg Host.Outcome.next (State.spdmReq_early up eid is (by decide) v13 order _)⟩
    case wrong => exact fun is version => congrArg Host.Outcome.next (State.spdmReq_version up eid is (by decide) version _ _)
  case chunks =>
    intro s b up eid is w l k c stands handle place
    have runs {last : Bool} {size : List Byte} := chunkGetStep_next (last := last) (size := size) up eid is stands handle place
    refine ⟨fun more first => ?_, fun more later => ?_, fun last later => ?_⟩
    · have zero : s.wake.sec.chunk = 0 := first
      have ends : ¬ s.wake.sec.large.length ≤ (s.wake.sec.chunk + 1) * chunkLen := by
        rw [zero, Nat.zero_add, Nat.one_mul]
        exact Nat.not_le.mpr more
      refine (congrArg Host.Outcome.next (runs (decide_eq_false ends) (if_pos zero))).trans ?_
      rw [zero]
      rfl
    · refine (congrArg Host.Outcome.next (runs (decide_eq_false (Nat.not_le.mpr more)) (if_neg (Nat.ne_of_gt later)))).trans ?_
      rw [List.append_nil]
      rfl
    · refine (congrArg Host.Outcome.next (runs (decide_eq_true last) (if_neg (Nat.ne_of_gt later)))).trans ?_
      rw [List.append_nil]
      rfl

end Sys2Proof.Machine
end

section
/-! # Firmware updates in service (R778 to R788) -/
set_option autoImplicit false
namespace Sys2Proof.Machine

/-- A field reads alike in states with equal registers. -/
theorem State.fget_of_regs {s t : State} (h : t.regs = s.regs) (f : Fld) (i : Nat) : t.fget f i = s.fget f i := by
  rw [State.fget, State.fget, h]

/-! ## Bytes and the check of the Punty buffer (R660, R787) -/

theorem ofLE_leBytes (n x : Nat) : ofLE (leBytes n x) = x % 2 ^ (8 * n) := by
  induction n generalizing x with
  | zero => simp [leBytes, ofLE, Nat.mod_one]
  | succ n ih =>
    have split : 2 ^ (8 * (n + 1)) = 2 ^ 8 * 2 ^ (8 * n) := by rw [← pow_add, Nat.mul_succ, Nat.add_comm]
    rw [leBytes, ofLE, ih, Nat.shiftLeft_eq, Nat.shiftRight_eq_div_pow, split, Nat.mod_mul, BitVec.toNat_ofNat, Nat.mul_comm (2 ^ 8)]

theorem crc32cBit_lt {c : Nat} (h : c < 2 ^ 32) : crc32cBit c < 2 ^ 32 := by
  have half : c / 2 < 2 ^ 32 := by omega
  unfold crc32cBit
  split
  · exact Nat.xor_lt_two_pow half (by decide)
  · exact half

theorem crc32c_lt (b : List Byte) : crc32c b < 2 ^ 32 := by
  refine Nat.xor_lt_two_pow ?_ (by decide)
  refine List.foldlRecOn b _ (motive := fun c => c < 2 ^ 32) (by decide) fun c hc x _ => ?_
  have mixed : c ^^^ x.toNat < 2 ^ 32 := Nat.xor_lt_two_pow hc (by have := x.isLt; omega)
  exact List.foldlRecOn _ _ (motive := fun c => c < 2 ^ 32) mixed fun c hc _ _ => crc32cBit_lt hc

/-- Bytes with their CRC-32C behind them pass its check. -/
theorem crc32c_appended (b : List Byte) : 4 ≤ (b ++ leBytes 4 (crc32c b)).length ∧
    crc32c ((b ++ leBytes 4 (crc32c b)).take ((b ++ leBytes 4 (crc32c b)).length - 4)) =
      ofLE ((b ++ leBytes 4 (crc32c b)).drop ((b ++ leBytes 4 (crc32c b)).length - 4)) := by
  have length : (b ++ leBytes 4 (crc32c b)).length = b.length + 4 := by rw [List.length_append, leBytes_length]
  rw [length, Nat.add_sub_cancel, List.take_left, List.drop_left, ofLE_leBytes, Nat.mod_eq_of_lt (crc32c_lt b)]
  exact ⟨Nat.le_add_left _ _, rfl⟩

/-- An unaltered buffer is found intact. -/
theorem State.puntyOk_intact (s : State) : ({ s with mgmt := { s.mgmt with punty := s.puntyBytes } } : State).puntyOk [] = true := by
  obtain ⟨b, written⟩ : ∃ b, s.puntyBytes = b ++ leBytes 4 (crc32c b) := ⟨_, rfl⟩
  obtain ⟨long, same⟩ := crc32c_appended b
  simp only [State.puntyOk, List.foldl_nil, written]
  rw [decide_eq_true long, decide_eq_true same]
  rfl

/-! ## Requests (R781, R782) -/

theorem State.refuseBits_lt (s : State) : s.refuseBits < 16 := by
  have bits : ∀ a b c d : Bool, b2n a + 2 * b2n b + 4 * b2n c + 8 * b2n d < 16 := by decide
  exact bits _ _ _ _

section
variable {s : State}

theorem State.fwuBusy_state {path : Nat} {admits : List Nat} (h : s.fget SEC_FWU_STAT.STATE 0 ∉ admits) :
    s.fwuBusy path admits = true := by
  simp [State.fwuBusy, h]

theorem State.fwuBusy_path {path : Nat} (admits : List Nat) (first : 1 ≤ s.fget SEC_FWU_STAT.STATE 0)
    (last : s.fget SEC_FWU_STAT.STATE 0 ≤ 4) (other : s.fw.path ≠ path) : s.fwuBusy path admits = true := by
  simp [State.fwuBusy, first, last, other]

theorem State.fwuBusy_idle {path : Nat} {admits : List Nat} (idle : s.fget SEC_FWU_STAT.STATE 0 = 0) (h : 0 ∈ admits) :
    s.fwuBusy path admits = false := by
  simp [State.fwuBusy, idle, h]

theorem State.fwuBusy_own {path : Nat} {admits : List Nat} (h : s.fget SEC_FWU_STAT.STATE 0 ∈ admits) (own : s.fw.path = path) :
    s.fwuBusy path admits = false := by
  simp [State.fwuBusy, h, own]

theorem State.fwuCheck_passed (go : State → State) : s.fwuCheck 0 go = go (s.fset SEC_FWU_STAT.REFUSE 0 0) := rfl

/-- Conditions 0 to 4 refuse with one code. -/
theorem State.fwuCheck_refused {bits : Nat} (some_ : bits ≠ 0) (low : bits < 32) (go : State → State) :
    s.fwuCheck bits go = ((s.fset SEC_FWU_STAT.REFUSE 0 bits).fset SEC_FWU_STAT.CODE 0 0x0601).logC 0x0601 := by
  have synced : bits.testBit 5 = false := Nat.testBit_lt_two_pow low
  rw [State.fwuCheck, synced]
  exact if_neg some_

/-- A clock out of step refuses with its own. -/
theorem State.fwuCheck_unsync {bits : Nat} (low : bits < 32) (go : State → State) : s.fwuCheck (bits + 32) go =
    ((s.fset SEC_FWU_STAT.REFUSE 0 (bits + 32)).fset SEC_FWU_STAT.CODE 0 0x0609).logC 0x0609 := by
  have unsync : (bits + 32).testBit 5 = true := by
    rw [Nat.testBit_eq_decide_div_mod_eq]
    exact decide_eq_true (by omega)
  rw [State.fwuCheck, unsync]
  exact if_neg (by omega)

/-- What each request does, in the order of its bits (R781). -/
theorem fwuCtlWrite_s {v : Nat} (reach : s.reaches .s = true) (acts : s.isStatus .SEC_FWU_CTL 0 v = false) : fwuCtlWrite .s v s =
    (let u := s.clrW1C .SEC_FWU_CTL 0 v
     let u := if SEC_FWU_CTL.STAGE.bit v then u.fwuStage 1 u.srcBundle else u
     let u := if SEC_FWU_CTL.ACTIVATE.bit v then u.fwuActivate 1 (u.fget SEC_FWU_T.T_ACT 0) else u
     let u := if SEC_FWU_CTL.ABANDON.bit v then u.fwuAbandon 1 else u
     if SEC_FWU_CTL.SVN_COMMIT.bit v then u.svnCommit else u) := by
  have free : s.barred .s .SEC_FWU_CTL 0 v = .none := (s.barred_s .SEC_FWU_CTL 0 v).trans rfl
  rw [fwuCtlWrite, reach, State.when_true, State.regWrite_taken free acts rfl]

/-! ## Security versions (R778, R779) -/

/-- The four counters as SVN_COMMIT burns them. -/
def State.svnRaised (s : State) : Nat :=
  let n (t : Nat) : Nat := max (s.svnOf t) (min 64 (MFE.SVN.of (s.fwEntry t)))
  n 1 + (n 2 <<< 8) + (n 3 <<< 16) + (n 4 <<< 24)

theorem State.svnCommit_idle (idle : s.fget SEC_FWU_STAT.STATE 0 = 0) :
    s.svnCommit = { s with fuse := { s.fuse with svn := s.svnRaised } }.showFuses := by
  rw [State.svnCommit, State.fwuBusy_idle idle (by decide)]
  rfl

theorem State.svnCommit_shows (idle : s.fget SEC_FWU_STAT.STATE 0 = 0) :
    s.svnCommit.mem = s.mem ∧ s.svnCommit.fuse = { s.fuse with svn := s.svnRaised } := by
  rw [State.svnCommit_idle idle]
  simp [State.showFuses]

/-- Four counters of a byte each stand side by side. -/
theorem bitsOf_four {a b c d : Nat} (ha : a < 256) (hb : b < 256) (hc : c < 256) (hd : d < 256) :
    bitsOf (a + (b <<< 8) + (c <<< 16) + (d <<< 24)) 0 8 = a ∧ bitsOf (a + (b <<< 8) + (c <<< 16) + (d <<< 24)) 8 8 = b ∧
    bitsOf (a + (b <<< 8) + (c <<< 16) + (d <<< 24)) 16 8 = c ∧ bitsOf (a + (b <<< 8) + (c <<< 16) + (d <<< 24)) 24 8 = d := by
  simp only [bitsOf, Nat.shiftLeft_eq, Nat.shiftRight_eq_div_pow]
  omega

theorem State.svnOf_raised (s : State) {k : Nat} (low : 1 ≤ k) (high : k ≤ 4) :
    bitsOf s.svnRaised (8 * (k - 1)) 8 = max (s.svnOf k) (min 64 (MFE.SVN.of (s.fwEntry k))) := by
  have byte (t : Nat) : max (s.svnOf t) (min 64 (MFE.SVN.of (s.fwEntry t))) < 256 := by
    have : s.svnOf t < 256 := Nat.mod_lt _ (by decide)
    omega
  obtain ⟨first, second, third, fourth⟩ := bitsOf_four (byte 1) (byte 2) (byte 3) (byte 4)
  obtain rfl | rfl | rfl | rfl : k = 1 ∨ k = 2 ∨ k = 3 ∨ k = 4 := by omega
  · exact first
  · exact second
  · exact third
  · exact fourth

/-! ## Staging (R783) -/

theorem bundleMcode_none {b : List Byte} (h : ∀ e ∈ manifestEntries b, MFE.TYPE.of e ≠ 4) : bundleMcode b = none := by
  have absent : (manifestEntries b).find? (fun e => decide (MFE.TYPE.of e = 4)) = none :=
    List.find?_eq_none.mpr fun e he => by simp [h e he]
  rw [bundleMcode, absent]
  rfl

/-- Nothing is staged: IDLE, with a code. -/
def State.stagingFailed (s : State) (code : Nat) : State :=
  { (((s.fset SEC_FWU_STAT.DONE 0 1).fset SEC_FWU_STAT.STATE 0 0).fset SEC_FWU_STAT.CODE 0 code).logC code with
    fw := { s.fw with bundle := [], path := 0 } }

theorem State.stagingFailed_shows (s : State) (code : Nat) : (s.stagingFailed code).fget SEC_FWU_STAT.STATE 0 = 0 ∧
    (s.stagingFailed code).fget SEC_FWU_STAT.DONE 0 = 1 ∧ (s.stagingFailed code).fw = { s.fw with bundle := [], path := 0 } ∧
    (s.stagingFailed code).mem = s.mem := by
  have regs : (s.stagingFailed code).regs =
      ((((s.fset SEC_FWU_STAT.DONE 0 1).fset SEC_FWU_STAT.STATE 0 0).fset SEC_FWU_STAT.CODE 0 code).logC code).regs := rfl
  have logged := (((s.fset SEC_FWU_STAT.DONE 0 1).fset SEC_FWU_STAT.STATE 0 0).fset SEC_FWU_STAT.CODE 0 code).sameRegsBut_log
    { code := code }
  refine ⟨?_, ?_, rfl, State.logC_mem _ code⟩
  · refine (State.fget_of_regs regs _ 0).trans ((logged.fget _ (by decide) (by decide) (by decide)).trans ?_)
    simp (disch := decide) only [State.fget_fset_ne, State.fget_fset_same]
    rfl
  · refine (State.fget_of_regs regs _ 0).trans ((logged.fget _ (by decide) (by decide) (by decide)).trans ?_)
    simp (disch := decide) only [State.fget_fset_ne, State.fget_fset_same]
    rfl

section
variable (hub : s.hubUp = true) (staging : s.fget SEC_FWU_STAT.STATE 0 = 1)
include hub staging

/-- A checked bundle without microcode is staged. -/
theorem stagingDoneStep_staged (copies : List BlockCopy) (good : (s.fset SEC_FWU_STAT.DONE 0 1).bundleCode s.fw.bundle false = 0)
    (plain : ∀ e ∈ manifestEntries s.fw.bundle, MFE.TYPE.of e ≠ 4) : stagingDoneStep copies s =
      { (s.fset SEC_FWU_STAT.DONE 0 1).fset SEC_FWU_STAT.STATE 0 2 with
        fw := { s.fw with staged := manifestBytes s.fw.bundle, stagedEnt := manifestEntries s.fw.bundle, bundle := [] } } := by
  rw [stagingDoneStep, hub, decide_eq_true staging, Bool.and_self, State.when_true]
  dsimp only
  rw [good, bundleMcode_none plain]
  rfl

/-- A bundle that fails a check is dropped, with its code. -/
theorem stagingDoneStep_failed (copies : List BlockCopy) {code : Nat} (h : code ≠ 0)
    (bad : (s.fset SEC_FWU_STAT.DONE 0 1).bundleCode s.fw.bundle false = code) :
    stagingDoneStep copies s = s.stagingFailed code := by
  obtain ⟨n, rfl⟩ := Nat.exists_eq_succ_of_ne_zero h
  rw [stagingDoneStep, hub, decide_eq_true staging, Bool.and_self, State.when_true]
  dsimp only
  rw [bad]
  simp [State.stagingFailed]

end

/-! ## Activation (R785 to R788) -/

section
variable (hub : s.hubUp = true)
include hub

theorem activationStep_armed {ready : Bool} {alt : List (Nat × Nat)} (armed : s.fget SEC_FWU_STAT.STATE 0 = 3)
    (due : s.fw.tAct ≤ s.count) : activationStep ready alt s = s.actStart := by
  rw [activationStep, hub, State.when_true, armed]
  exact if_pos due

theorem activationStep_begun {ready : Bool} {alt : List (Nat × Nat)} (begun : s.fget SEC_FWU_STAT.STATE 0 = 4) :
    activationStep ready alt s =
      if !ready then s.actFail 0x0607 else if !s.puntyOk alt then s.actFail 0x0608 else s.actEnd := by
  simp only [activationStep, hub, State.when_true, begun]

end

theorem actTimeoutStep_late (hub : s.hubUp = true) (begun : s.fget SEC_FWU_STAT.STATE 0 = 4)
    (late : s.fw.pauseT + 30000000 ≤ s.time.now) :
    s.when (s.pwr.on && s.pausing && decide (s.fw.pauseT + 30000000 ≤ s.time.now)) (fun s => s.actFail 0x0607) =
      s.actFail 0x0607 := by
  have on : s.pwr.on = true := by
    simp only [State.hubUp, State.up, Bool.and_eq_true] at hub
    exact hub.1.1.1
  have pausing : s.pausing = true := decide_eq_true begun
  rw [on, pausing, decide_eq_true late, Bool.and_self, Bool.and_self, State.when_true]

/-- The handover begins, and the old firmware's state is in the Punty buffer. -/
def State.handedOver (s : State) : State :=
  let t := s.disarmFw.fset SEC_FWU_STAT.REFUSE 0 0
  { (t.fset SEC_FWU_STAT.STATE 0 4).fset GCTL_MGMT.HANDOVER 0 1 with
    fw := { t.fw with pauseT := t.time.now }, mgmt := { t.mgmt with punty := t.puntyBytes } }

theorem State.actStart_begins (free : s.refuseBits = 0) (rest : s.disarmFw.restful = true) : s.actStart = s.handedOver := by
  have bits : s.disarmFw.refuseBits + 16 * b2n (!s.disarmFw.restful) = 0 := by
    rw [rest, show s.disarmFw.refuseBits = 0 from free]
    rfl
  rw [State.actStart]
  dsimp only
  rw [bits]
  rfl

/-- What goes in the buffer is not what `REFUSE` shows. -/
theorem State.puntyBytes_refuse (s : State) (v : Nat) : (s.fset SEC_FWU_STAT.REFUSE 0 v).puntyBytes = s.puntyBytes := by
  unfold State.puntyBytes
  simp (disch := decide) only [State.fget_fset_ne]
  rfl

theorem State.handedOver_shows (s : State) : s.handedOver.fget SEC_FWU_STAT.STATE 0 = 4 ∧
    s.handedOver.fget GCTL_MGMT.HANDOVER 0 = 1 ∧ s.handedOver.fw.pauseT = s.time.now ∧
    s.handedOver.mgmt.punty = s.puntyBytes ∧ s.handedOver.mem = s.mem ∧ s.handedOver.core = s.core := by
  have handover := ((s.disarmFw.fset SEC_FWU_STAT.REFUSE 0 0).fset SEC_FWU_STAT.STATE 0 4).fget_fset_lt GCTL_MGMT.HANDOVER 0 1
    (by decide)
  have state := ((s.disarmFw.fset SEC_FWU_STAT.REFUSE 0 0).fget_fset_lt SEC_FWU_STAT.STATE 0 4 (by decide))
  have kept := ((s.disarmFw.fset SEC_FWU_STAT.REFUSE 0 0).fset SEC_FWU_STAT.STATE 0 4).fget_fset_ne GCTL_MGMT.HANDOVER
    SEC_FWU_STAT.STATE 0 0 1 (by decide)
  have regs : s.handedOver.regs = (((s.disarmFw.fset SEC_FWU_STAT.REFUSE 0 0).fset SEC_FWU_STAT.STATE 0 4).fset
    GCTL_MGMT.HANDOVER 0 1).regs := rfl
  exact ⟨(State.fget_of_regs regs _ 0).trans (kept.trans state), (State.fget_of_regs regs _ 0).trans handover, rfl,
    s.disarmFw.puntyBytes_refuse 0, rfl, rfl⟩

/-- `MCODE` follows a staged microcode image. -/
def State.showMcode (s : State) : State :=
  match s.fw.stagedEnt.find? fun e => decide (MFE.TYPE.of e = 4) with
  | some e => s.fset GCTL_RCLASS.MCODE 0 (MFE.MCODE_REV.of e)
  | none => s

theorem State.showMcode_parts (s : State) : (∃ g, s.showMcode = { s with regs := g }) ∧ s.sameRegsBut s.showMcode [.GCTL_RCLASS] := by
  unfold State.showMcode
  split
  · exact ⟨⟨_, rfl⟩, s.sameRegsBut_fset (by decide) (by decide) (by decide)⟩
  · exact ⟨⟨_, rfl⟩, s.sameRegsBut_refl _⟩

/-- The pause is over, and shows its length. -/
def State.pauseOver (s : State) : State :=
  ((s.fset SEC_FWU_STAT.STATE 0 0).fset SEC_FWU_STAT.DONE 0 1).fset SEC_FWU_STAT.PAUSE_MS 0 ((s.time.now - s.fw.pauseT) / 1000000)

theorem State.actEnd_eq (s : State) : ∃ es, s.actEnd = { s.pauseOver.showMcode.fset GCTL_MGMT.HANDOVER 0 0 with
    fw := { s.pauseOver.showMcode.fw with
      entries := es, manifest := s.pauseOver.showMcode.fw.staged, staged := [], stagedEnt := [], path := 0 } } := ⟨_, rfl⟩

theorem State.pauseOver_shows (s : State) : s.pauseOver.fget SEC_FWU_STAT.STATE 0 = 0 ∧
    s.pauseOver.fget SEC_FWU_STAT.DONE 0 = 1 ∧
    s.pauseOver.fget SEC_FWU_STAT.PAUSE_MS 0 = (s.time.now - s.fw.pauseT) / 1000000 % 2 ^ 8 := by
  unfold State.pauseOver
  generalize (s.time.now - s.fw.pauseT) / 1000000 = ms
  refine ⟨?_, ?_, State.fget_fset_same _ _ _ _⟩
  · simp (disch := decide) only [State.fget_fset_ne, State.fget_fset_same]
    rfl
  · simp (disch := decide) only [State.fget_fset_ne, State.fget_fset_same]
    rfl

theorem State.actEnd_shows (s : State) : s.actEnd.fget SEC_FWU_STAT.STATE 0 = 0 ∧ s.actEnd.fget SEC_FWU_STAT.DONE 0 = 1 ∧
    s.actEnd.fget GCTL_MGMT.HANDOVER 0 = 0 ∧
    s.actEnd.fget SEC_FWU_STAT.PAUSE_MS 0 = (s.time.now - s.fw.pauseT) / 1000000 % 2 ^ 8 ∧ s.actEnd.fw.manifest = s.fw.staged ∧
    s.actEnd.fw.staged = [] ∧ s.actEnd.fw.path = 0 ∧ s.actEnd.mem = s.mem ∧ s.actEnd.core = s.core := by
  obtain ⟨es, ended⟩ := s.actEnd_eq
  obtain ⟨⟨g, parts⟩, mcode⟩ := s.pauseOver.showMcode_parts
  obtain ⟨state, done, ms⟩ := s.pauseOver_shows
  have regs : s.actEnd.regs = (s.pauseOver.showMcode.fset GCTL_MGMT.HANDOVER 0 0).regs := by rw [ended]
  have kept : s.pauseOver.sameRegsBut (s.pauseOver.showMcode.fset GCTL_MGMT.HANDOVER 0 0) [.GCTL_RCLASS, .GCTL_MGMT] :=
    (State.sameRegsBut_mono mcode (by decide)).fset (by decide) (by decide) (by decide)
  have reads (f : Fld) (own : f ∈ f.reg.fields) (other : f.reg ∉ [Reg.GCTL_RCLASS, .GCTL_MGMT]) :
      s.actEnd.fget f 0 = s.pauseOver.fget f 0 := (State.fget_of_regs regs f 0).trans (kept.fget f own other (by decide))
  refine ⟨(reads _ (by decide) (by decide)).trans state, (reads _ (by decide) (by decide)).trans done,
    (State.fget_of_regs regs _ 0).trans (State.fget_fset_lt _ _ 0 0 (by decide)), (reads _ (by decide) (by decide)).trans ms, ?_⟩
  rw [ended, parts]
  exact ⟨rfl, rfl, rfl, rfl, rfl⟩

end

/-- Settles O50: the requests by the state, the path and the conditions that each premise names; the rest by the steps above. -/
theorem firmwareUpdates : Obligations.FirmwareUpdates := by
  refine ⟨?requests, ?staging, ?activation, State.puntyOk_intact⟩
  case requests =>
    intro s v reach acts u st only
    have taken := fwuCtlWrite_s reach acts
    refine ⟨?stage, ?activate, ?abandon, ?commit⟩
    case stage =>
      rintro ⟨stage, activate, abandon, commit⟩
      have run : exec (.fwuStage .s v) s = .next (u.fwuStage 1 u.srcBundle) := by
        refine congrArg Host.Outcome.next ((if_pos stage).trans (taken.trans ?_))
        simp only [stage, activate, abandon, commit, Bool.false_eq_true, if_true, if_false, u]
      rw [run, State.fwuStage]
      refine ⟨fun busy => ?_, fun idle free => ?_, fun idle refused => ?_⟩
      · rw [State.fwuBusy_state (by simpa using busy)]
        rfl
      · rw [State.fwuBusy_idle idle (by decide), free]
        rfl
      · rw [State.fwuBusy_idle idle (by decide), if_neg Bool.false_ne_true,
          State.fwuCheck_refused refused (Nat.lt_trans u.refuseBits_lt (by decide))]
    case activate =>
      rintro ⟨stage, activate, abandon, commit⟩
      have run : exec (.fwuActivate .s v) s = .next (u.fwuActivate 1 (u.fget SEC_FWU_T.T_ACT 0)) := by
        refine congrArg Host.Outcome.next ((if_pos activate).trans (taken.trans ?_))
        simp only [stage, activate, abandon, commit, Bool.false_eq_true, if_true, if_false, u]
      rw [run, State.fwuActivate]
      refine ⟨fun busy => ?_, fun staged own free synced => ?_, fun staged own unsync low => ?_⟩
      · have refused : u.fwuBusy 1 [2] = true := by
          by_cases staged : st = 2
          · exact State.fwuBusy_path _ (by change 1 ≤ st; omega) (by change st ≤ 4; omega) (busy.resolve_left (not_not.mpr staged))
          · exact State.fwuBusy_state (by simpa using staged)
        rw [refused]
        rfl
      · rw [State.fwuBusy_own (by simpa using staged) own, free, synced]
        rfl
      · rw [State.fwuBusy_own (by simpa using staged) own, unsync, if_neg Bool.false_ne_true]
        exact congrArg Host.Outcome.next (State.fwuCheck_unsync low _)
    case abandon =>
      rintro ⟨stage, activate, abandon, commit⟩
      have run : exec (.fwuAbandon .s v) s = .next (u.fwuAbandon 1) := by
        refine congrArg Host.Outcome.next ((if_pos abandon).trans (taken.trans ?_))
        simp only [stage, activate, abandon, commit, Bool.false_eq_true, if_true, if_false, u]
      rw [run, State.fwuAbandon]
      refine ⟨fun open_ own => ?_, fun staged armed => ?_⟩
      · rw [State.fwuBusy_own (by simpa using open_) own]
        rfl
      · rw [State.fwuBusy_state (by simpa using ⟨staged, armed⟩)]
        rfl
    case commit =>
      rintro ⟨stage, activate, abandon, commit⟩
      have run : exec (.svnCommit .s v) s = .next u.svnCommit := by
        refine congrArg Host.Outcome.next ((if_pos commit).trans (taken.trans ?_))
        simp only [stage, activate, abandon, commit, Bool.false_eq_true, if_true, if_false, u]
      rw [run]
      refine ⟨fun busy => ?_, fun idle => ?_⟩
      · rw [State.svnCommit, State.fwuBusy_state (by simpa using busy)]
        rfl
      · obtain ⟨g, cleared⟩ := s.clrW1C_eq .SEC_FWU_CTL 0 v
        obtain ⟨mem, fuse⟩ := State.svnCommit_shows idle
        have same : u = { s with regs := g } := cleared
        refine ⟨_, run, mem.trans (by rw [same]), by rw [fuse, same], by rw [fuse, same], fun k low high => ?_⟩
        rw [State.svnOf, fuse]
        exact (u.svnOf_raised low high).trans (by rw [same]; rfl)
  case staging =>
    intro s copies hub staging u es
    refine ⟨fun good plain => congrArg _ (stagingDoneStep_staged hub staging copies good plain), fun bad => ?_⟩
    exact ⟨_, congrArg Host.Outcome.next (stagingDoneStep_failed hub staging copies bad rfl), s.stagingFailed_shows _⟩
  case activation =>
    intro s ready alt hub
    refine ⟨fun armed due => congrArg _ (activationStep_armed hub armed due), fun armed due free rest => ?_,
      fun begun signal intact => ?_, fun begun silent => ?_, fun begun signal altered => ?_, fun begun late => ?_⟩
    · exact ⟨_, congrArg Host.Outcome.next ((activationStep_armed hub armed due).trans (State.actStart_begins free rest)), s.handedOver_shows⟩
    · refine ⟨_, congrArg Host.Outcome.next ((activationStep_begun hub begun).trans ?_), s.actEnd_shows⟩
      rw [signal, intact]
      rfl
    · refine congrArg _ ((activationStep_begun hub begun).trans ?_)
      rw [silent]
      rfl
    · refine congrArg _ ((activationStep_begun hub begun).trans ?_)
      rw [signal, altered]
      rfl
    · exact congrArg Host.Outcome.next (actTimeoutStep_late hub begun late)

end Sys2Proof.Machine
end

section
/-! # The management bus: I3C addressing, MCTP control and messages (R787, R824 to R826, R832, R838) -/
set_option autoImplicit false
namespace Sys2Proof.Machine

/-! ## The I3C targets (R824, R825, R838) -/

/-- The dynamic address is what was assigned. -/
theorem State.dynAddr_setDyn (s : State) (tb : Bool) {da : Nat} (fits : da < 128) : (s.setDyn tb da).dynAddr tb = da := by
  have low : da % 128 = da := Nat.mod_eq_of_lt fits
  cases tb with
  | true => exact low
  | false =>
    have addr : (s.setDyn false da).fget GCTL_MGMT.DADDR 0 = da :=
      (State.fget_fset_ne _ GCTL_MGMT.DA_VALID GCTL_MGMT.DADDR 0 0 _ (by decide)).trans (State.fget_fset_lt _ _ 0 da fits)
    have valid : (s.setDyn false da).fget GCTL_MGMT.DA_VALID 0 = b2n (decide (da % 128 ≠ 0)) % 2 := State.fget_fset_same _ _ _ _
    by_cases zero : da = 0
    · subst zero
      have off : (s.setDyn false 0).fon GCTL_MGMT.DA_VALID 0 = false := by rw [State.fon, valid]; rfl
      simp [State.dynAddr, off]
    · have on : (s.setDyn false da).fon GCTL_MGMT.DA_VALID 0 = true := by
        rw [State.fon, valid, low, decide_eq_true zero]
        rfl
      exact (if_pos on).trans addr

section
variable {s : State} (up : s.i3cUp = true)

include up in
/-- A directed read code of a target that has its address. -/
theorem State.i3cRead_answers {tb : Bool} (b : List Byte) (has : s.dynAddr tb ≠ 0) : s.i3cRead tb b = s.emit (.reply b) := by
  rw [State.i3cRead, up, decide_eq_true has]
  rfl

theorem State.i3cRead_silent {tb : Bool} (b : List Byte) (none : s.dynAddr tb = 0) : s.i3cRead tb b = s :=
  if_neg (by simp [none])

include up in
theorem State.setIbi_bus {events : Nat} (on : Bool) (asks : events.testBit 0 = true) :
    s.setIbi false events on = { s with mgmt := { s.mgmt with ibi := on } } := by
  rw [State.setIbi, up, asks]
  rfl

/-- The tray bus has no in-band interrupts. -/
theorem State.setIbi_tray (events : Nat) (on : Bool) : s.setIbi true events on = s := if_neg (by simp)

/-- Nothing answers in a handover. -/
theorem State.i3cUp_handover (h : s.fon GCTL_MGMT.HANDOVER 0 = true) : s.i3cUp = false := by
  simp [State.i3cUp, h]

end

/-! ## Messages (R826, R832) -/

theorem State.mgPut_shows (s : State) (k : Nat) (b : List Byte) : (s.mgPut k b).mgmt.queue = s.mgmt.queue ++ [MgMsg.mk k b] ∧
    (s.mgmt.ibi = true → (s.mgPut k b).out = s.out ++ [Out.ibi]) ∧ (s.mgmt.ibi = false → (s.mgPut k b).out = s.out) := by
  unfold State.mgPut
  cases ibi : s.mgmt.ibi with
  | true => simp [ibi, State.emit]
  | false => simp [ibi]

/-- A control message to the null EID or the module's own. -/
theorem State.ctlFor_own {s : State} {dest : Nat} (up : s.mbUp = true) (own : dest = 0 ∨ dest = s.fget GCTL_MGMT.EID 0) :
    s.ctlFor dest = true := by
  simp [State.ctlFor, up, own]

/-- Settles O52: each row by the one condition that its premise decides. -/
theorem managementBus : Obligations.ManagementBus := by
  refine ⟨?i3c, State.dynAddr_setDyn, ?handover, ?control, ?gasp, ?message, State.mgPut_shows⟩
  case i3c =>
    intro s tb up
    refine ⟨fun none da => ⟨?_, ?_, ?_⟩, congrArg _ (if_pos up), fun has => ?_, fun e asks => ?_⟩
    · exact congrArg Host.Outcome.next (if_pos (by rw [up, decide_eq_true none]; simp))
    · exact congrArg Host.Outcome.next (if_pos (by rw [up, decide_eq_true none]; rfl))
    · exact congrArg Host.Outcome.next (State.i3cRead_silent _ none)
    · exact ⟨congrArg _ (State.i3cRead_answers up _ has), congrArg _ (State.i3cRead_answers up _ has),
        congrArg _ (State.i3cRead_answers up _ has), congrArg _ (State.i3cRead_answers up _ has),
        congrArg _ (State.i3cRead_answers up _ has)⟩
    · exact ⟨congrArg _ (State.setIbi_bus up true asks), congrArg _ (State.setIbi_bus up false asks),
        congrArg _ (State.setIbi_tray e true), congrArg _ (State.setIbi_tray e false)⟩
  case handover =>
    intro s tb a handover
    have down := State.i3cUp_handover handover
    exact ⟨congrArg Host.Outcome.next (if_neg (by simp [down])), congrArg Host.Outcome.next (if_neg (by simp [down])),
      congrArg Host.Outcome.next (if_neg (by simp [down]))⟩
  case control =>
    intro s dest src eid up own
    have mine := State.ctlFor_own up own
    refine ⟨fun low high => ?_, fun bad => ?_, ?_, ?_⟩
    · refine congrArg Host.Outcome.next ((if_pos mine).trans (if_pos ?_))
      rw [eidOk, decide_eq_true low, decide_eq_true high]
      rfl
    · refine congrArg Host.Outcome.next ((if_pos mine).trans (if_neg ?_))
      rw [eidOk, Bool.and_eq_true, decide_eq_true_eq, decide_eq_true_eq]
      omega
    · exact congrArg Host.Outcome.next (if_pos mine)
    · exact congrArg Host.Outcome.next (if_pos mine)
  case gasp =>
    intro s t b gasp soon
    have row : exec .messageRead s = .next (messageReadStep s) := rfl
    rw [row, messageReadStep, gasp]
    exact congrArg Host.Outcome.next (if_pos soon)
  case message =>
    intro s m r none first up
    have row : exec .messageRead s = .next (messageReadStep s) := rfl
    rw [row, messageReadStep, none]
    dsimp only
    rw [first]
    exact congrArg Host.Outcome.next (if_pos up)

end Sys2Proof.Machine
end

section
/-! # PLDM sensors, effecters, firmware transfer and disagreement (R691, R709, R719, R785, R827 to R830, R833, R837, R839, R840) -/
set_option autoImplicit false
namespace Sys2Proof.Machine

section
variable {s : State} (up : s.mbUp = true) (eid : s.fget GCTL_MGMT.EID 0 ≠ 0)

section
include up eid

/-! ## Effecters (R828, R829) -/

/-- An effecter acts when the value is in range and the state admits it. -/
theorem State.effect_acts {inRange ready : Bool} (fits : inRange = true) (may : ready = true) (echo : List Byte)
    (k : State → State) : s.effect inRange ready echo k = (k s.wake).pldm 0 echo := by
  rw [State.effect, State.mbReq_runs up eid, fits, may]
  rfl

theorem State.effect_outOfRange {inRange : Bool} (ready : Bool) (out : inRange = false) (echo : List Byte) (k : State → State) :
    s.effect inRange ready echo k = s.wake.pldm 2 [] := by
  rw [State.effect, State.mbReq_runs up eid, out]
  rfl

theorem State.effect_notReady {inRange ready : Bool} (fits : inRange = true) (bars : ready = false) (echo : List Byte)
    (k : State → State) : s.effect inRange ready echo k = s.wake.pldm 4 [] := by
  rw [State.effect, State.mbReq_runs up eid, fits, bars]
  rfl

end

/-- A warm reset is admitted out of PS4 with no trip, or with one on a compute die that has cooled (R709). -/
theorem State.resetOk_admitted {cool : Bool} (awake : s.fget PWR_PSTATE.STATE 0 ≠ 4)
    (trip : s.pwr.trip = 0 ∨ (s.pwr.trip = 1 ∧ cool = true)) : s.resetOk cool = true := by
  rcases trip with none | ⟨compute, cold⟩
  · simp [State.resetOk, awake, none]
  · simp [State.resetOk, awake, compute, cold]

theorem State.resetOk_hot {cool : Bool} (compute : s.pwr.trip = 1) (hot : cool = false) : s.resetOk cool = false := by
  simp [State.resetOk, compute, hot]

section
include up eid

/-! ## Sensors (R827, R830) -/

/-- A rail's sensor measures its current as it is read. -/
def State.sensorMeasured (s : State) (id iout : Nat) : State :=
  if 0x10 ≤ id ∧ id ≤ 0x1A then s.fset PWR_RAIL.IOUT (id - 0x10) iout else s

theorem getSensorReadingStep_runs (id iout : Nat) : getSensorReadingStep id iout s =
    match (s.wake.sensorMeasured id iout).sensorVal id with
    | some v => (s.wake.sensorMeasured id iout).pldm 0 (leBytes 8 v)
    | none =>
      match (s.wake.sensorMeasured id iout).stateSensor id with
      | some l => (s.wake.sensorMeasured id iout).pldm 0 (l.flatMap (leBytes 1))
      | none => (s.wake.sensorMeasured id iout).pldm 0x80 [] := State.mbReq_runs up eid _

/-! ## Ownership (R84, R85) -/

theorem ownerStep_ranged {v : Nat} (fits : v < 16) : ownerStep v s =
    if s.wake.ownerMay .mc v then (s.wake.putRW .GCTL_OWNER 0 v).pldm 0 []
    else (s.wake.fset GCTL_OWNER.REJ_MC 0 1).pldm 0x80 [] := by
  rw [ownerStep, State.mbReq_runs up eid]
  exact if_neg (Nat.not_le.mpr fits)

/-! ## Firmware transfer (R785, R833) -/

section
variable (idle : s.wake.fget SEC_FWU_STAT.STATE 0 = 0)
include idle

/-- A chunk in its place in a bundle that fits is buffered, and the last one starts staging. -/
theorem requestFirmwareDataStep_placed {off : Nat} {b : List Byte} (last : Bool) (place : off = s.wake.mgmt.fwBuf.length ∨ off = 0)
    {buf : List Byte} (whole : (if off = 0 then [] else s.wake.mgmt.fwBuf) ++ b = buf) (fits : buf.length ≤ 4194304) :
    requestFirmwareDataStep off b last s =
      if last then
        if (({ s.wake with mgmt := { s.wake.mgmt with fwBuf := [] } } : State).fwuStage 2 buf).fget SEC_FWU_STAT.STATE 0 = 1 then
          (({ s.wake with mgmt := { s.wake.mgmt with fwBuf := [] } } : State).fwuStage 2 buf).pldm 0 []
        else (({ s.wake with mgmt := { s.wake.mgmt with fwBuf := [] } } : State).fwuStage 2 buf).pldm 4 []
      else ({ s.wake with mgmt := { s.wake.mgmt with fwBuf := buf } } : State).pldm 0 [] := by
  subst whole
  have open_ : ¬ (off ≠ s.wake.mgmt.fwBuf.length ∧ off ≠ 0) := fun ⟨a, b⟩ => place.elim a b
  rw [requestFirmwareDataStep, State.mbReq_runs up eid]
  dsimp only
  rw [State.fwuBusy_idle idle (by decide), if_neg Bool.false_ne_true, if_neg open_, if_neg (Nat.not_lt.mpr fits)]

end

theorem verifyCompleteStep_runs : verifyCompleteStep s =
    match s.wake.fget SEC_FWU_STAT.STATE 0 with
    | 1 => s.wake
    | 2 => if s.wake.fw.path = 2 then s.wake.pldm 0 [] else s.wake.pldm 4 []
    | _ => s.wake.pldm 1 [] := State.mbReq_runs up eid _

end

end

section
variable {s : State}

/-- STAGE of a path that nothing refuses. -/
theorem State.fwuStage_free (path : Nat) (b : List Byte) (idle : s.fget SEC_FWU_STAT.STATE 0 = 0) (free : s.refuseBits = 0) :
    (s.fwuStage path b).fget SEC_FWU_STAT.STATE 0 = 1 := by
  rw [State.fwuStage, State.fwuBusy_idle idle (by decide), free]
  exact (s.fset SEC_FWU_STAT.REFUSE 0 0).fget_fset_lt SEC_FWU_STAT.STATE 0 1 (by decide)

/-- A count armed shows in no state of the update. -/
theorem State.arm_parts (s : State) (t kind ring seq : Nat) :
    s.sameRegsBut (s.arm t kind ring seq) [.TIME_STATUS] ∧ (s.arm t kind ring seq).fw = s.fw := by
  unfold State.arm
  dsimp only
  split
  · exact ⟨State.sameRegsBut_trans (State.sameRegsBut_of_regs _ rfl) (State.sameRegsBut_fset _ (by decide) (by decide) (by decide)),
      rfl⟩
  · exact ⟨State.sameRegsBut_of_regs _ rfl, rfl⟩

/-- ACTIVATE of a staged update that nothing refuses arms it. -/
theorem State.fwuActivate_free {path : Nat} (t : Nat) (staged : s.fget SEC_FWU_STAT.STATE 0 = 2) (own : s.fw.path = path)
    (free : s.refuseBits = 0) (synced : s.fon TIME_STATUS.UNSYNC 0 = false) :
    (s.fwuActivate path t).fget SEC_FWU_STAT.STATE 0 = 3 ∧ (s.fwuActivate path t).fw.path = path := by
  have run : s.fwuActivate path t = ({ (s.fset SEC_FWU_STAT.REFUSE 0 0).fset SEC_FWU_STAT.STATE 0 3 with
      fw := { s.fw with tAct := t } } : State).arm t 1 0 0 := by
    rw [State.fwuActivate, State.fwuBusy_own (by simp [staged]) own, free, synced]
    rfl
  obtain ⟨regs, fw⟩ := State.arm_parts ({ (s.fset SEC_FWU_STAT.REFUSE 0 0).fset SEC_FWU_STAT.STATE 0 3 with
    fw := { s.fw with tAct := t } } : State) t 1 0 0
  have state := (s.fset SEC_FWU_STAT.REFUSE 0 0).fget_fset_lt SEC_FWU_STAT.STATE 0 3 (by decide)
  rw [run]
  refine ⟨(regs.fget SEC_FWU_STAT.STATE (by decide) (by decide) (by decide)).trans state, ?_⟩
  rw [fw]
  exact own

end

/-- Settles O53: each effecter by its range and its state, the rest by the one branch that the premises choose. -/
theorem sensorsAndEffecters : Obligations.SensorsAndEffecters := by
  refine ⟨fun s up eid => ⟨?sensor, ?thresholds, ?receiver, ?heartbeat, ?rcap, ?owner, ?reset, ?leave, ?stay, ?tact, ?port,
    ?transfer, ?verified, ?staging, ?activate⟩, ?disagree⟩
  case sensor =>
    intro id iout m
    have run : exec (.getSensorReading id iout) s = _ := congrArg Host.Outcome.next (getSensorReadingStep_runs up eid id iout)
    refine ⟨fun v num => run.trans ?_, fun l num states => run.trans ?_, fun num states => run.trans ?_⟩
    · rw [show (s.wake.sensorMeasured id iout).sensorVal id = some v from num]
      rfl
    · rw [show (s.wake.sensorMeasured id iout).sensorVal id = none from num,
        show (s.wake.sensorMeasured id iout).stateSensor id = some l from states]
      rfl
    · rw [show (s.wake.sensorMeasured id iout).sensorVal id = none from num,
        show (s.wake.sensorMeasured id iout).stateSensor id = none from states]
      rfl
  case thresholds =>
    exact fun id lo hi known => congrArg Host.Outcome.next ((State.mbReq_runs up eid _).trans (if_pos known))
  case receiver =>
    exact fun dest => ⟨congrArg Host.Outcome.next (State.mbReq_runs up eid _), congrArg Host.Outcome.next (State.mbReq_runs up eid _)⟩
  case heartbeat =>
    intro src v fits
    have run : exec (.heartbeat src v) s = _ :=
      congrArg Host.Outcome.next (State.effect_acts up eid (decide_eq_true fits) rfl (leBytes 4 v) _)
    refine ⟨fun owner => run.trans ?_, fun other => run.trans ?_⟩
    · rw [if_pos owner]
    · rw [if_neg other]
  case rcap =>
    exact fun v => ⟨fun fits => congrArg Host.Outcome.next (State.effect_acts up eid (decide_eq_true fits) rfl [] _),
      fun high => congrArg Host.Outcome.next
        (State.effect_outOfRange up eid true (decide_eq_false (Nat.not_le.mpr high)) [] _)⟩
  case owner =>
    exact fun v => ⟨fun fits may => congrArg Host.Outcome.next ((ownerStep_ranged up eid fits).trans (if_pos may)),
      fun fits bars => congrArg Host.Outcome.next ((ownerStep_ranged up eid fits).trans (if_neg (by rw [bars]; decide)))⟩
  case reset =>
    intro cool
    refine ⟨fun awake trip => ?_, fun compute hot => ?_, fun v other => ?_⟩
    · exact congrArg Host.Outcome.next (State.effect_acts up eid (decide_eq_true rfl) (State.resetOk_admitted awake trip) [] _)
    · exact congrArg Host.Outcome.next (State.effect_notReady up eid (decide_eq_true rfl) (State.resetOk_hot compute hot) [] _)
    · exact congrArg Host.Outcome.next (State.effect_outOfRange up eid _ (decide_eq_false other) [] _)
  case leave =>
    exact fun asleep => congrArg Host.Outcome.next (State.effect_acts up eid (decide_eq_true rfl) (decide_eq_true asleep) [] _)
  case stay =>
    exact fun awake => congrArg Host.Outcome.next (State.effect_notReady up eid (decide_eq_true rfl) (decide_eq_false awake) [] _)
  case tact => exact fun t fits => congrArg Host.Outcome.next (State.effect_acts up eid (decide_eq_true fits) rfl [] _)
  case port =>
    intro p v hp fits m m'
    exact need_port hp (State.effect_acts up eid (decide_eq_true fits) rfl [] _)
  case transfer =>
    intro idle off b
    refine ⟨fun first fits => ?_, fun next more fits => ?_, fun first fits free => ?_⟩
    · exact congrArg Host.Outcome.next
        (requestFirmwareDataStep_placed up eid idle false (.inr first) (by rw [if_pos first]; rfl) fits)
    · exact congrArg Host.Outcome.next (requestFirmwareDataStep_placed up eid idle false (.inl next)
        (by rw [if_neg (Nat.ne_of_gt more)]) (by rw [List.length_append, ← next]; exact fits))
    · refine congrArg Host.Outcome.next
        ((requestFirmwareDataStep_placed up eid idle true (.inr first) (by rw [if_pos first]; rfl) fits).trans
          ((if_pos rfl).trans (if_pos ?_)))
      exact State.fwuStage_free (s := { s.wake with mgmt := { s.wake.mgmt with fwBuf := [] } }) 2 b idle free
  case verified =>
    intro staged own
    refine congrArg Host.Outcome.next ((verifyCompleteStep_runs up eid).trans ?_)
    rw [staged]
    exact if_pos own
  case staging =>
    intro staging
    refine congrArg Host.Outcome.next ((verifyCompleteStep_runs up eid).trans ?_)
    simp only [staging]
  case activate =>
    intro staged own free synced
    have armed := State.fwuActivate_free (if s.wake.mgmt.tact = 0 then s.wake.count + 1000000 else s.wake.mgmt.tact) staged own free synced
    exact congrArg Host.Outcome.next ((State.mbReq_runs up eid _).trans (if_pos armed))
  case disagree =>
    intro s p hp up disagrees began late new
    refine need_port hp (if_pos ?_)
    rw [up, disagrees, decide_eq_true began, decide_eq_true late, new]
    rfl

end Sys2Proof.Machine
end
